-- ==== Sys2Proof/Word.lean ====
section
/-!
DEFINITION. The word types of the HZ-7 and the one container the model keeps its stores in.

Widths follow R1 (bit 0 least significant), R65 (lane masks of up to 1,024 lanes), R89 (register widths).
-/
namespace Sys2Proof

/-- One byte of memory (R146). -/
abbrev Byte := BitVec 8
/-- A lane register, an instruction word, a code offset (R89, R170, R171). -/
abbrev Word32 := BitVec 32
/-- A uniform register, a generic address (R89, R116). -/
abbrev Word64 := BitVec 64
/-- One bit for each of the 1,024 lanes a team may have: bit L stands for lane L (R65). -/
abbrev Mask := BitVec 1024
/-- The eight side-band bytes of a sector or of a 16-lane register group (R28, R29). -/
abbrev SideBand := BitVec 64

/-- A sparse store from natural-number keys. Its canonical form (Machine/Ops.lean, `SMap.wf`) has strictly
rising keys and lists no entry equal to what an unlisted key reads as, so equal stores are equal lists. -/
abbrev SMap (α : Type) := List (Nat × α)

/-- Bits `lo .. lo+n-1` of a natural number (R8 `bits`). -/
abbrev field (x lo n : Nat) : Nat := x / 2 ^ lo % 2 ^ n

end Sys2Proof
end

