-- ==== Sys2Proof/Config.lean ====
section
/-!
DEFINITION. What an implementation fixes and the spec leaves open: values without a body, so that nothing can be proved
of what they are. The step applies the first three to a plain counter of the state (log 2), so that each use is fresh.
-/
namespace Sys2Proof.Config

/-- A free choice (R11): the `n`-th value the model asks for. Used for the lane a spawn record lands in (R79), the
section a block starts at (R59), instance tags (R118). -/
opaque free : Nat → Nat

/-- A value of a launch that is not defined and that two runs of it still share (R12): the first list names the launch, the
command and the place, the second what stands there. Used for overlapping copies (R330), old-or-new sectors (R162) and result
words that cannot be read (R383); log 104. -/
opaque openValue : List Nat → List Nat → Nat

/-- The clk that the `n`-th step takes (R13, R248): time is not defined by the model (log 7). -/
opaque stepClk : Nat → Nat

/-- The nanoseconds by which the PTP hardware clock advances in the `n`-th step (R432, log 7). -/
opaque stepNs : Nat → Nat

/-- Bytes that module flash holds at manufacture: 0 the configuration record, 1 and 2 the identity public keys, 3 and 4 their
certificates, 5 the active firmware image (R437, R440, R441; log 4). -/
opaque flashBytes : Nat → List (BitVec 8)

/-- An RSASSA-PSS signature verifies under a ROM key, the firmware one (`true`) or the configuration one (R435, R436, R437): the
signed bytes, the signature. No key is given (log 81). -/
opaque rsaVerifies : Bool → List (BitVec 8) → List (BitVec 8) → Bool

/-- An SLH-DSA-SHA2-192s signature verifies under a ROM key. -/
opaque slhVerifies : Bool → List (BitVec 8) → List (BitVec 8) → Bool

/-- Signature by the identity RSA key over the first 160 bytes of a report (R441). -/
opaque rsaSign : List (BitVec 8) → List (BitVec 8)

/-- Signature by the identity SLH-DSA key over the same bytes (R441). -/
opaque slhSign : List (BitVec 8) → List (BitVec 8)

/-- The repair maps, whose form no rule gives, disable an L2 slice (R438, log 81). -/
opaque sliceOff : List (BitVec 8) → Nat → Bool

/-- The code R38's SPOL 1 and the scale R43 give a format whose largest finite magnitude is 0, and the scale SPCTL gives it,
for its exponent bias (R272, log 22). -/
opaque openScale : Nat → Nat

/-- A device of this id belongs to the pod (R422, R337). -/
opaque inPod : Nat → Bool

/-- What a peer device's memory holds: device, sector address, index of the read; data at bits [511:0], side-band above
(R136). -/
opaque peerData : Nat → Nat → Nat → Nat

/-- The stack, 0..11, whose base die serves a physical sector: no rule gives the map (R324, log 24). -/
opaque stackOf : Nat → Nat

/-- Bytes that the context of a suspended team takes in the context pool, for its lane-registers (R413, R416; log 23). -/
opaque contextBytes : Nat → Nat

/-- Granules, 0 standing for 1, that coder 2..5 needs for a line of these contents (R140): the spec names the coders and gives no
algorithm (log 87). -/
opaque coderSize : Nat → Nat → Nat

end Sys2Proof.Config
end

