-- ==== Sys2Proof/Machine/Flags.lean ====
section
/-!
DEFINITION. The sticky flags (R55) and the flags that a rounding raises (R50, R40).
-/
namespace Sys2Proof.Machine

/-- Invalid operation. -/
def flagNV : Byte := 0x01
/-- Division by zero, logarithm of zero. -/
def flagDZ : Byte := 0x02
/-- Overflow or element clamp. -/
def flagOF : Byte := 0x04
/-- Underflow. -/
def flagUF : Byte := 0x08
/-- Inexact. -/
def flagNX : Byte := 0x10
/-- Integer division by zero. -/
def flagIDZ : Byte := 0x20
/-- Integer division overflow. -/
def flagIOV : Byte := 0x40
/-- A block scale code was clamped at the top. -/
def flagSSAT : Byte := 0x80

/-- A flag where a condition holds. -/
def flagIf (c : Bool) (f : Byte) : Byte := if c then f else 0

/-- Flags of a delivered floating-point result that did not overflow: UF only when tiny and inexact (R50). -/
def roundFlags (inexact tiny : Bool) : Byte := flagIf inexact flagNX ||| flagIf (inexact && tiny) flagUF

/-- The union of flags raised one after another (R56). -/
def flagsOr (fs : List Byte) : Byte := fs.foldl (fun a b => a ||| b) 0

end Sys2Proof.Machine
end

