-- ==== Sys2Proof/Machine/Store.lean ====
section
/-!
DEFINITION. Sparse stores in canonical form, lane masks, and byte order: the named operations every later file uses.
-/
namespace Sys2Proof.Machine

/-! ### Sparse stores: keys strictly rising, no entry equal to the default `d` -/

/-- What key `k` reads as. -/
def smGet {α : Type} (d : α) : SMap α → Nat → α
  | [], _ => d
  | (k', x) :: m, k => if k = k' then x else if k < k' then d else smGet d m k

/-- Write `x` at key `k`, keeping the canonical form: writing the default removes the entry. -/
def smSet {α : Type} [DecidableEq α] (d : α) : SMap α → Nat → α → SMap α
  | [], k, x => if x = d then [] else [(k, x)]
  | (k', y) :: m, k, x =>
    if k = k' then (if x = d then m else (k, x) :: m)
    else if k < k' then (if x = d then (k', y) :: m else (k, x) :: (k', y) :: m)
    else (k', y) :: smSet d m k x

/-- Write a list of pairs, first to last. -/
def smSetAll {α : Type} [DecidableEq α] (d : α) (m : SMap α) (ws : List (Nat × α)) : SMap α :=
  ws.foldl (fun m w => smSet d m w.1 w.2) m

/-- The store of a function on keys 0..n-1. -/
def smTable {α : Type} [DecidableEq α] (d : α) (n : Nat) (f : Nat → α) : SMap α :=
  (List.range n).filterMap (fun i => if f i = d then none else some (i, f i))

/-- Every key of the store lies above `lo`. -/
def smAbove {α : Type} (lo : Nat) : SMap α → Bool
  | [] => true
  | (k, _) :: _ => lo < k

/-- The canonical form. -/
def smWf {α : Type} [DecidableEq α] (d : α) : SMap α → Bool
  | [] => true
  | (k, x) :: m => (x ≠ d) && smAbove k m && smWf d m

/-- Memory's canonical form: an unlisted byte reads 0 (R435 step 6 writes zeros everywhere). -/
abbrev Memory.wf (m : List Host.Cell) : Bool := smWf (0 : Byte) m

/-! ### Sorted sets of numbers -/

/-- Put `k` in a strictly rising list. -/
def setAdd : List Nat → Nat → List Nat
  | [], k => [k]
  | x :: l, k => if k = x then x :: l else if k < x then k :: x :: l else x :: setAdd l k

/-- Take `k` out of a list. -/
def setDel (l : List Nat) (k : Nat) : List Nat := l.filter (fun x => x != k)

/-! ### Lane masks (R65) -/

/-- Every bit set. -/
def allLanes : Mask := BitVec.allOnes 1024

/-- The lanes 0..n-1. -/
def firstLanes (n : Nat) : Mask := BitVec.ofNat 1024 (2 ^ n - 1)

/-- Put `a` before the first entry that it may stand before. -/
def insertBefore {α : Type} (le : α → α → Bool) (a : α) : List α → List α
  | [] => [a]
  | b :: bs => if le a b then a :: b :: bs else b :: insertBefore le a bs

/-- The list in ascending order of `le`; entries that are equal in it keep their order. -/
def sortBy {α : Type} (le : α → α → Bool) (xs : List α) : List α := xs.foldr (insertBefore le) []

/-- The lanes of a mask, ascending. -/
def lanesOf (size : Nat) (m : Mask) : List Nat := (List.range size).filter (fun l => m.getLsbD l)

/-- Mask with lane `l` alone. -/
def laneBit (l : Nat) : Mask := BitVec.ofNat 1024 (2 ^ l)

/-- A mask from a predicate on lanes. -/
def maskOf (size : Nat) (f : Nat → Bool) : Mask :=
  (List.range size).foldl (fun m l => if f l then m ||| laneBit l else m) 0

/-- The lanes of 16-lane group `g` (R29). -/
def groupMask (g : Nat) : Mask := BitVec.ofNat 1024 (0xFFFF * 2 ^ (16 * g))

/-- The groups with a lane in the mask, ascending. -/
def groupsOf (size : Nat) (m : Mask) : List Nat :=
  (List.range (size / 16)).filter (fun g => m &&& groupMask g != 0)

/-- The lowest lane of a mask, 0 if it is empty. -/
def lowestLane (size : Nat) (m : Mask) : Nat := (lanesOf size m).headD 0

/-! ### Byte order (R2): the byte at the lowest address holds bits [7:0] -/

/-- A little-endian value from bytes. -/
def leNat : List Byte → Nat
  | [] => 0
  | b :: bs => b.toNat + 256 * leNat bs

/-- The `n` bytes of a value, least significant first. -/
def natLe : Nat → Nat → List Byte
  | _, 0 => []
  | x, n + 1 => BitVec.ofNat 8 x :: natLe (x / 256) n

/-- Read `n` bytes of a byte store at `a`, as a little-endian value. -/
def loadLe (m : SMap Byte) (a n : Nat) : Nat := leNat ((List.range n).map (fun i => smGet 0 m (a + i)))

/-- Write a value as `n` little-endian bytes at `a`. -/
def storeLe (m : SMap Byte) (a n x : Nat) : SMap Byte :=
  smSetAll 0 m ((natLe x n).mapIdx (fun i b => (a + i, b)))

/-- Sign-extend the low `n` bits of `x` to an integer (R8 `sext`). -/
def sextInt (x n : Nat) : Int :=
  let y := x % 2 ^ n
  if n = 0 then 0 else if y < 2 ^ (n - 1) then (y : Int) else (y : Int) - (2 ^ n : Nat)

/-- Wrap an integer to `n` bits as a natural number (R8 `wrap`). -/
def wrapNat (x : Int) (n : Nat) : Nat := (x % ((2 ^ n : Nat) : Int)).toNat

/-- `floor(log2 n)` for `n > 0`; 0 for 0. -/
def ilog2 (n : Nat) : Nat := Nat.log2 n

/-- Number of one bits among the low `w` bits of `x`. -/
def popCount (x w : Nat) : Nat := ((List.range w).filter (fun i => x.testBit i)).length

/-- Leading zeros of `x` seen as `w` bits; `w` for 0 (R242, R252). -/
def leadingZeros (x w : Nat) : Nat := if x % 2 ^ w = 0 then w else w - 1 - ilog2 (x % 2 ^ w)

/-- Trailing zeros of `x` seen as `w` bits; `w` for 0 (R242). -/
def trailingZeros (x w : Nat) : Nat := ((List.range w).find? (fun i => x.testBit i)).getD w

/-- Bit `i` of the result is bit `w-1-i` of `x` (R242 SBREV). -/
def bitReverse (x w : Nat) : Nat :=
  (List.range w).foldl (fun r i => if x.testBit i then r + 2 ^ (w - 1 - i) else r) 0

/-- Ceiling of a quotient. -/
def ceilDiv (a b : Nat) : Nat := (a + b - 1) / b

end Sys2Proof.Machine
end

