-- ==== Sys2Proof/Machine/Float.lean ====
section
/-!
DEFINITION. Exact floating-point arithmetic: rounding modes (R44), random values of stochastic rounding (R45), IEEE
results and flags (R50..R52). A result is computed exactly as a quotient of integers and rounded once.
-/
namespace Sys2Proof.Machine

/-! ### Rounding (R44, R45) -/

/-- The neighbour away from zero is chosen for a magnitude with remainder `rem` of `den` above the lower neighbour;
`odd`: the lower neighbour's code has last bit 1; `r`: the random value of SR. -/
def roundUp (mode : Nat) (neg odd : Bool) (rem den r : Nat) : Bool :=
  if rem = 0 then false
  else match mode with
    | 0 => den < 2 * rem || (2 * rem == den && odd)
    | 1 => false
    | 2 => neg
    | 3 => !neg
    | 4 => den ≤ 2 * rem
    | _ => if neg then !(r < 2 ^ 24 * (den - rem) / den) else r < 2 ^ 24 * rem / den

/-- `sr_bits` (R45). -/
def srBits (seed stream index : Nat) : Nat :=
  let w (x : Nat) : Nat := x % 2 ^ 64
  let z : Nat := w seed ^^^ w (stream * 0x9E3779B97F4A7C15) ^^^ w (index * 0xD1B54A32D192ED03)
  let z : Nat := w ((z ^^^ z / 2 ^ 30) * 0xBF58476D1CE4E5B9)
  let z : Nat := w ((z ^^^ z / 2 ^ 27) * 0x94D049BB133111EB)
  field (z ^^^ z / 2 ^ 31) 40 24

/-- `num / den · 2^e` as a quotient. -/
def scaled (num den : Nat) (e : Int) : Nat × Nat :=
  if 0 ≤ e then (num * 2 ^ e.toNat, den) else (num, den * 2 ^ (-e).toNat)

/-- `floor(log2 (num / den))` for positive numbers. -/
def log2Ratio (num den : Nat) : Int :=
  let d : Int := (ilog2 num : Int) - (ilog2 den : Int)
  let x := scaled num den (-d)
  if x.1 < x.2 then d - 1 else d

/-- A positive quotient rounded to a multiple of 2^q: how many of them, and whether that is inexact. -/
def roundAt (mode : Nat) (neg : Bool) (num den : Nat) (q : Int) (r : Nat) : Nat × Bool :=
  let x := scaled num den (-q)
  let n := x.1 / x.2
  let rem := x.1 % x.2
  (if roundUp mode neg (n % 2 = 1) rem x.2 r then n + 1 else n, rem != 0)

/-! ### IEEE formats -/

/-- A binary interchange format by its exponent and mantissa bits. -/
structure FloatFmt where
  ebits : Nat
  mbits : Nat
  deriving DecidableEq, Repr

/-- binary32. -/
def binary32 : FloatFmt := ⟨8, 23⟩
/-- binary64. -/
def binary64 : FloatFmt := ⟨11, 52⟩
/-- binary16. -/
def binary16 : FloatFmt := ⟨5, 10⟩
/-- bfloat16. -/
def bfloat16 : FloatFmt := ⟨8, 7⟩

/-- A value read from a code: a NaN (signalling or not), an infinity, or (-1)^neg · m · 2^e. -/
inductive FloatVal where
  | nan (signalling : Bool)
  | inf (neg : Bool)
  | fin (neg : Bool) (m : Nat) (e : Int)
  deriving DecidableEq, Repr

/-- Exponent bias. -/
def FloatFmt.bias (f : FloatFmt) : Nat := 2 ^ (f.ebits - 1) - 1
/-- The sign bit's weight. -/
def FloatFmt.signBit (f : FloatFmt) : Nat := 2 ^ (f.ebits + f.mbits)
/-- Code of infinity. -/
def FloatFmt.infCode (f : FloatFmt) : Nat := (2 ^ f.ebits - 1) * 2 ^ f.mbits
/-- The canonical NaN (R51). -/
def FloatFmt.canon (f : FloatFmt) : Nat := f.infCode + 2 ^ (f.mbits - 1)
/-- A code with its sign. -/
def FloatFmt.signed (f : FloatFmt) (neg : Bool) (x : Nat) : Nat := if neg then f.signBit + x else x

/-- The value of a code. -/
def FloatFmt.decode (f : FloatFmt) (x : Nat) : FloatVal :=
  let neg := x.testBit (f.ebits + f.mbits)
  let ex := field x f.mbits f.ebits
  let fr := field x 0 f.mbits
  if ex = 2 ^ f.ebits - 1 then (if fr = 0 then .inf neg else .nan (!fr.testBit (f.mbits - 1)))
  else if ex = 0 then .fin neg fr (1 - (f.bias : Int) - f.mbits)
  else .fin neg (2 ^ f.mbits + fr) ((ex : Int) - f.bias - f.mbits)

/-- What overflow delivers is infinity, not the largest finite value (R50). -/
def overflowInf (mode : Nat) (neg : Bool) : Bool :=
  match mode with
  | 1 => false
  | 2 => neg
  | 3 => !neg
  | _ => true

/-- A quotient rounded once to a format, with its flags (R50); a zero keeps the sign given. -/
def FloatFmt.round (f : FloatFmt) (mode r : Nat) (neg : Bool) (num den : Nat) : Nat × Byte :=
  if num = 0 then (f.signed neg 0, 0)
  else
    let ex := log2Ratio num den
    let emin : Int := 1 - (f.bias : Int)
    let x := roundAt mode neg num den (max ex emin - f.mbits) r
    let code := (max ex emin + f.bias - 1).toNat * 2 ^ f.mbits + x.1
    if f.infCode ≤ code then
      (f.signed neg (if overflowInf mode neg then f.infCode else f.infCode - 1), flagOF ||| flagNX)
    else
      let tiny := ex + 1 < emin || (ex < emin && (roundAt mode neg num den (ex - f.mbits) r).1 < 2 ^ (f.mbits + 1))
      (f.signed neg code, roundFlags x.2 tiny)

/-- A dyadic number rounded once. -/
def FloatFmt.roundDyadic (f : FloatFmt) (mode r : Nat) (neg : Bool) (m : Nat) (e : Int) : Nat × Byte :=
  let x := scaled m 1 e
  f.round mode r neg x.1 x.2

/-! ### Operations: result code and flags -/

/-- The canonical NaN, with NV if some operand is a signalling NaN. -/
def FloatFmt.nanOf (f : FloatFmt) (xs : List FloatVal) : Nat × Byte := (f.canon, flagIf (xs.contains (.nan true)) flagNV)

/-- The invalid operation. -/
def FloatFmt.invalid (f : FloatFmt) : Nat × Byte := (f.canon, flagNV)

/-- A value is a NaN. -/
def FloatVal.isNan : FloatVal → Bool
  | .nan _ => true
  | _ => false

/-- A value is a zero. -/
def FloatVal.isZero : FloatVal → Bool
  | .fin _ m _ => m == 0
  | _ => false

/-- The value with its sign flipped. -/
def FloatVal.negate : FloatVal → FloatVal
  | .nan s => .nan s
  | .inf n => .inf (!n)
  | .fin n m e => .fin (!n) m e

/-- A signed integer from a sign and a magnitude. -/
def signedInt (neg : Bool) (m : Nat) : Int := if neg then -(m : Int) else m

/-- The exact sum of two dyadic numbers: sign, magnitude, exponent; an exact zero takes the IEEE sign. -/
def addExact (mode : Nat) (n1 : Bool) (m1 : Nat) (e1 : Int) (n2 : Bool) (m2 : Nat) (e2 : Int) : Bool × Nat × Int :=
  let e := min e1 e2
  let s := signedInt n1 (m1 * 2 ^ (e1 - e).toNat) + signedInt n2 (m2 * 2 ^ (e2 - e).toNat)
  if s = 0 then (if n1 = n2 then n1 else mode = 2, 0, e) else (s < 0, s.natAbs, e)

/-- The exact product of two non-NaN values; `none` for 0 times an infinity. -/
def mulExact : FloatVal → FloatVal → Option FloatVal
  | .fin n1 m1 e1, .fin n2 m2 e2 => some (.fin (n1 != n2) (m1 * m2) (e1 + e2))
  | .inf n1, .fin n2 m _ => if m = 0 then none else some (.inf (n1 != n2))
  | .fin n1 m _, .inf n2 => if m = 0 then none else some (.inf (n1 != n2))
  | .inf n1, .inf n2 => some (.inf (n1 != n2))
  | .nan s, _ => some (.nan s)
  | _, .nan s => some (.nan s)

/-- A value rounded to a format. -/
def FloatFmt.ofVal (f : FloatFmt) (mode r : Nat) : FloatVal → Nat × Byte
  | .nan s => (f.canon, flagIf s flagNV)
  | .inf n => (f.signed n f.infCode, 0)
  | .fin n m e => f.roundDyadic mode r n m e

/-- The sum of two values. -/
def FloatFmt.sum (f : FloatFmt) (mode r : Nat) (x y : FloatVal) : Nat × Byte :=
  match x, y with
  | .inf a, .inf b => if a = b then (f.signed a f.infCode, 0) else f.invalid
  | .inf a, .fin .. => (f.signed a f.infCode, 0)
  | .fin .., .inf b => (f.signed b f.infCode, 0)
  | .fin n1 m1 e1, .fin n2 m2 e2 =>
    let s := addExact mode n1 m1 e1 n2 m2 e2
    f.roundDyadic mode r s.1 s.2.1 s.2.2
  | x, y => f.nanOf [x, y]

/-- a + b. -/
def FloatFmt.add (f : FloatFmt) (mode r a b : Nat) : Nat × Byte := f.sum mode r (f.decode a) (f.decode b)
/-- a - b. -/
def FloatFmt.sub (f : FloatFmt) (mode r a b : Nat) : Nat × Byte := f.sum mode r (f.decode a) (f.decode b).negate

/-- a · b. -/
def FloatFmt.mul (f : FloatFmt) (mode r a b : Nat) : Nat × Byte :=
  let x := f.decode a
  let y := f.decode b
  if x.isNan || y.isNan then f.nanOf [x, y]
  else match mulExact x y with
    | none => f.invalid
    | some p => f.ofVal mode r p

/-- x · y + z, rounded once (R249): 0 times an infinity is invalid whatever z holds. -/
def FloatFmt.fmaVal (f : FloatFmt) (mode r : Nat) (x y z : FloatVal) : Nat × Byte :=
  if x.isNan || y.isNan then f.nanOf [x, y, z]
  else match mulExact x y with
    | none => f.invalid
    | some p => f.sum mode r p z

/-- a · b + c, with the signs of the product and of c as asked: VFMA, VFMS, VFNMA. -/
def FloatFmt.fma (f : FloatFmt) (mode r : Nat) (negProd negC : Bool) (a b c : Nat) : Nat × Byte :=
  let x := f.decode a
  f.fmaVal mode r (if negProd then x.negate else x) (f.decode b)
    (if negC then (f.decode c).negate else f.decode c)

/-- a / b, correctly rounded. -/
def FloatFmt.div (f : FloatFmt) (mode r a b : Nat) : Nat × Byte :=
  match f.decode a, f.decode b with
  | .fin n1 m1 e1, .fin n2 m2 e2 =>
    if m2 = 0 then (if m1 = 0 then f.invalid else (f.signed (n1 != n2) f.infCode, flagDZ))
    else let x := scaled m1 m2 (e1 - e2); f.round mode r (n1 != n2) x.1 x.2
  | .inf _, .inf _ => f.invalid
  | .inf n1, .fin n2 _ _ => (f.signed (n1 != n2) f.infCode, 0)
  | .fin n1 _ _, .inf n2 => (f.signed (n1 != n2) 0, 0)
  | x, y => f.nanOf [x, y]

/-- |a - b| rounded once (R249 VABSD). -/
def FloatFmt.absDiff (f : FloatFmt) (mode r a b : Nat) : Nat × Byte :=
  match f.decode a, (f.decode b).negate with
  | .fin n1 m1 e1, .fin n2 m2 e2 =>
    let s := addExact 0 n1 m1 e1 n2 m2 e2
    f.roundDyadic mode r false s.2.1 s.2.2
  | x, y => let s := f.sum mode r x y; (if s.1 = f.canon then s.1 else s.1 % f.signBit, s.2)

/-- Order of non-NaN codes, -0 below +0 (R51). -/
def FloatFmt.orderKey (f : FloatFmt) (x : Nat) : Int :=
  if x.testBit (f.ebits + f.mbits) then -(field x 0 (f.ebits + f.mbits) : Int) - 1 else (x % f.signBit : Nat)

/-- VMIN and VMAX (R51). -/
def FloatFmt.minMax (f : FloatFmt) (max : Bool) (a b : Nat) : Nat × Byte :=
  let x := f.decode a
  let y := f.decode b
  let fl := flagIf (x = .nan true || y = .nan true) flagNV
  if x.isNan && y.isNan then (f.canon, fl)
  else if x.isNan then (b, fl)
  else if y.isNan then (a, fl)
  else if max then (if f.orderKey a < f.orderKey b then (b, 0) else (a, 0))
  else (if f.orderKey b < f.orderKey a then (b, 0) else (a, 0))

/-- Exact comparison of two non-NaN values: less, equal. -/
def FloatFmt.ltEq (f : FloatFmt) (a b : Nat) : Bool × Bool :=
  let k (x : Nat) := if (f.decode x).isZero then 0 else f.orderKey x
  let ka := k a
  let kb := k b
  (if (f.decode a).isZero && !(f.decode b).isZero then !(b.testBit (f.ebits + f.mbits)) else ka < kb,
   ka == kb && ((f.decode a).isZero == (f.decode b).isZero))

/-- VCMP's condition and flags (R256). -/
def FloatFmt.cond (f : FloatFmt) (cc a b : Nat) : Bool × Byte :=
  let x := f.decode a
  let y := f.decode b
  let un := x.isNan || y.isNan
  let fl := flagIf (x = .nan true || y = .nan true) flagNV
  let c := f.ltEq a b
  (match cc with
   | 0 => !un && c.2
   | 1 => un || !c.2
   | 2 => !un && c.1
   | 3 => !un && (c.1 || c.2)
   | 4 => !un && !(c.1 || c.2)
   | 5 => !un && !c.1
   | 6 => un
   | _ => !un, fl)

/-- An integer rounded once to a format (R52). -/
def FloatFmt.ofInt (f : FloatFmt) (mode r : Nat) (x : Int) : Nat × Byte := f.round mode r (x < 0) x.natAbs 1

/-- A value rounded to an integer and saturated to a range (R52). -/
def FloatVal.toInt (mode r : Nat) (lo hi : Int) : FloatVal → Int × Byte
  | .nan _ => (0, flagNV)
  | .inf n => (if n then lo else hi, flagNV)
  | .fin n m e =>
    let x := if m = 0 then (0, false) else roundAt mode n (scaled m 1 e).1 (scaled m 1 e).2 0 r
    let v := signedInt n x.1
    if v < lo then (lo, flagNV) else if hi < v then (hi, flagNV) else (v, flagIf x.2 flagNX)

end Sys2Proof.Machine
end

