-- ==== Sys2Proof/Machine/Formats.lean ====
section
/-!
DEFINITION. Block formats: the format word (R32..R34), element values (R35, R36), E5M3 scales and their choice (R30, R31,
R38), quantisation (R39..R41), the OCP layout (R42, R43), and the window-64 fused sum (R48, R49).
-/
namespace Sys2Proof.Machine

/-! ### The format word (R32..R34) -/

/-- A format word's fields. -/
structure BlockFmt where
  s : Nat
  e : Nat
  m : Nat
  bias : Nat
  pol : Nat
  tsb : Int
  blk : Nat
  sfmt : Nat
  spol : Nat
  deriving DecidableEq, Repr

/-- The fields of a word (R32). -/
def blockFmt (w : Nat) : BlockFmt :=
  { s := field w 0 1, e := field w 1 3, m := field w 4 3, bias := field w 7 5, pol := field w 12 2
    tsb := sextInt (field w 16 8) 8, blk := field w 24 2, sfmt := field w 26 2, spol := field w 28 3 }

/-- Bits of a code: S + E + M. -/
def BlockFmt.width (f : BlockFmt) : Nat := f.s + f.e + f.m

/-- Storage width (R34). -/
def BlockFmt.storage (f : BlockFmt) : Nat := if f.width ≤ 4 then 4 else if f.width ≤ 6 then 6 else 8

/-- Blocks per sector (R28). -/
def BlockFmt.perSector (f : BlockFmt) : Nat := if f.storage = 4 then 8 else 4

/-- A format word is valid (R33); `ocp`: in a copy-engine buffer descriptor; `given`: a scale operand is supplied. -/
def fmtValid (w : Nat) (ocp given : Bool) : Bool :=
  let f := blockFmt w
  1 + f.e + f.m ≤ 8 && 2 ≤ f.width && ((f.e == 0) == (f.pol == 3)) && (f.pol != 1 || 2 ≤ f.e)
  && !w.testBit 31 && field w 14 2 = 0 && f.spol ≤ 3 && f.sfmt ≤ 1 && f.blk ≤ 2
  && (f.blk != 1 || ocp) && (f.sfmt != 1 || f.blk = 1) && (f.spol != 3 || given)

/-! ### Elements (R35..R37) -/

/-- Exponent of the quantum: every finite magnitude is a whole number of 2^quantum. -/
def BlockFmt.quantum (f : BlockFmt) : Int := if f.pol = 3 then -(f.bias : Int) else 1 - (f.bias : Int) - f.m

/-- Quanta of a magnitude code. -/
def BlockFmt.quanta (f : BlockFmt) (c : Nat) : Nat :=
  if f.pol = 3 then c
  else if c / 2 ^ f.m = 0 then c else (2 ^ f.m + c % 2 ^ f.m) * 2 ^ (c / 2 ^ f.m - 1)

/-- The magnitude code of some quanta that have one. -/
def BlockFmt.codeOf (f : BlockFmt) (n : Nat) : Nat :=
  if f.pol = 3 || n < 2 ^ f.m then n
  else
    let k := ilog2 n - f.m
    (k + 1) * 2 ^ f.m + (n / 2 ^ k - 2 ^ f.m)

/-- A signed code. DEDUCED (log 47): a negative quotient that rounds to zero keeps its sign where the format has one. -/
def BlockFmt.signedCode (f : BlockFmt) (neg : Bool) (n : Nat) : Nat :=
  if f.pol = 3 then wrapNat (signedInt neg n) f.width
  else f.codeOf n + if neg && f.s = 1 then 2 ^ (f.e + f.m) else 0

/-- Largest finite magnitude in quanta (R36). -/
def BlockFmt.maxQuanta (f : BlockFmt) : Nat :=
  match f.pol with
  | 3 => 2 ^ f.m - 1
  | 1 => f.quanta ((2 ^ f.e - 1) * 2 ^ f.m - 1)
  | 2 => f.quanta (2 ^ (f.e + f.m) - 2)
  | _ => f.quanta (2 ^ (f.e + f.m) - 1)

/-- floor(log2 of the largest finite magnitude) (R38). -/
def BlockFmt.emax (f : BlockFmt) : Int := (ilog2 f.maxQuanta : Int) + f.quantum

/-- `decode_elem` (R35); high storage bits are ignored (R34). -/
def BlockFmt.elem (f : BlockFmt) (code : Nat) : FloatVal :=
  let c := code % 2 ^ f.width
  if f.pol = 3 then
    let n : Int := if f.s = 1 then sextInt c f.width else c
    .fin (n < 0) n.natAbs f.quantum
  else
    let neg := f.s = 1 && c.testBit (f.e + f.m)
    let mag := c % 2 ^ (f.e + f.m)
    let ex := mag / 2 ^ f.m
    let mt := mag % 2 ^ f.m
    if f.pol = 1 && ex = 2 ^ f.e - 1 then (if mt = 0 then .inf neg else .nan false)
    else if f.pol = 2 && mag = 2 ^ (f.e + f.m) - 1 then .nan false
    else .fin neg (f.quanta mag) f.quantum

/-! ### Scales (R30, R31, R38) -/

/-- Value of an E5M3 code 0x01..0xFE: integer and exponent. -/
def scaleVal (code : Nat) : Nat × Int := if code < 8 then (code, -17) else (8 + code % 8, (code / 8 : Nat) - 18)

/-- The scale a code has under a format: 0x78 under BLK 2 (R34). -/
def BlockFmt.scaleCode (f : BlockFmt) (code : Nat) : Nat := if f.blk = 2 then 0x78 else code

/-- A block's element values (R36). DEDUCED (log 83): under scale 0x00 a NaN element reads +0.0, as R30 says, where R36 also says
that a NaN element gives NaN whatever the scale. -/
def BlockFmt.values (f : BlockFmt) (scale : Nat) (codes : List Nat) : List FloatVal :=
  let sc := f.scaleCode scale
  codes.map (fun c =>
    if sc = 0 then .fin false 0 0
    else if sc = 0xFF then .nan false
    else match f.elem c with
      | .fin n m e => .fin n (m * (scaleVal sc).1) (e + (scaleVal sc).2 + f.tsb)
      | x => x)

/-- The effective scale of a code is at least `num/den`. -/
def scaleGe (tsb : Int) (num den code : Nat) : Bool :=
  let x := scaled (scaleVal code).1 1 ((scaleVal code).2 + tsb)
  num * x.2 ≤ x.1 * den

/-- `scale_up` (R31). -/
def scaleUp (tsb : Int) (num den : Nat) : Nat :=
  ((List.range 254).find? (fun i => scaleGe tsb num den (i + 1))).getD 253 + 1

/-- E5M3 code of pow2(k) for -17 ≤ k ≤ 16. -/
def scalePow (k : Int) : Nat := if -14 ≤ k then ((k + 15) * 8).toNat else 2 ^ (k + 17).toNat

/-- The scale code of SPOL 0..2 for a positive amax (`none`: infinite), and SSAT (R38, R40). Where the format's largest
finite magnitude is 0, the floor of its logarithm is stated nowhere, and SPOL 0 and 2 take the required scale as above 0xFE (log 22). -/
def BlockFmt.choose (f : BlockFmt) (amax : Option (Nat × Nat)) : Nat × Byte :=
  if f.spol = 1 then
    if f.maxQuanta = 0 then (Config.openScale f.bias % 0xF8 + 1, 0)
    else match amax with
      | none => (0xF8, flagSSAT)
      | some (n, d) =>
        let k := log2Ratio n d - f.emax - f.tsb
        if 16 < k then (0xF8, flagSSAT) else if k < -17 then (0x01, 0) else (scalePow k, 0)
  else
    let sat := flagIf (f.spol = 0) flagSSAT
    match amax with
    | none => (0xFE, sat)
    | some (n, d) =>
      let x := scaled n (d * f.maxQuanta) (-f.quantum)
      if !scaleGe f.tsb x.1 x.2 0xFE then (0xFE, sat) else (scaleUp f.tsb x.1 x.2, 0)

/-! ### Quantising (R39, R40) -/

/-- The larger of two nonnegative quotients. -/
def maxRatio (a b : Nat × Nat) : Nat × Nat := if a.1 * b.2 < b.1 * a.2 then b else a

/-- Largest magnitude over finite values. -/
def maxFinite (xs : List FloatVal) : Nat × Nat :=
  xs.foldl (fun a x => match x with | .fin _ m e => maxRatio a (scaled m 1 e) | _ => a) (0, 1)

/-- `round_to` a block format: quanta, and whether that is inexact. A tie goes to the even last code bit (R44). -/
def BlockFmt.roundQuanta (f : BlockFmt) (mode r : Nat) (neg : Bool) (num den : Nat) : Nat × Bool :=
  if num = 0 then (0, false)
  else
    let q : Int := if f.pol = 3 then 0 else max (log2Ratio num den - f.m) 0
    let x := scaled num den (-q)
    let n := x.1 / x.2
    let odd := f.codeOf (n * 2 ^ q.toNat) % 2 = 1
    ((if roundUp mode neg odd (x.1 % x.2) x.2 r then n + 1 else n) * 2 ^ q.toNat, x.1 % x.2 != 0)

/-- One element from its exact quotient by the block's scale, `num/den` in quanta (R39, R40). -/
def BlockFmt.roundElem (f : BlockFmt) (mode r : Nat) (neg : Bool) (num den : Nat) : Nat × Byte :=
  let clamp := flagNX ||| flagIf (f.spol != 2) flagOF
  if neg && f.s = 0 && num != 0 then (0, clamp)
  else if f.maxQuanta * den < num then (f.signedCode neg f.maxQuanta, clamp)
  else
    let x := f.roundQuanta mode r neg num den
    (f.signedCode neg x.1, roundFlags x.2 (x.1 = 0 || (f.pol != 3 && x.1 < 2 ^ f.m)))

/-- One element of a block under a scale of value sm · 2^se (R39). -/
def BlockFmt.quantElem (f : BlockFmt) (mode r sm : Nat) (se : Int) : FloatVal → Nat × Byte
  | .nan _ => (0, 0)
  | .inf n =>
    if f.pol = 1 && (f.s = 1 || !n) then
      ((2 ^ f.e - 1) * 2 ^ f.m + if n then 2 ^ (f.e + f.m) else 0, 0)
    else if n && f.s = 0 then (0, flagNX ||| flagIf (f.spol != 2) flagOF)
    else (f.signedCode n f.maxQuanta, flagNX ||| flagIf (f.spol != 2) flagOF)
  | .fin n m e =>
    let x := scaled m sm (e - se - f.quantum)
    f.roundElem mode r n x.1 x.2

/-- A quantised block: its scale code, element codes and flags. -/
structure QuantBlock where
  scale : Nat
  codes : List Nat
  flags : Byte
  deriving DecidableEq, Repr

/-- Elements of a block under a chosen scale code. -/
def BlockFmt.quantWith (f : BlockFmt) (mode : Nat) (r : Nat → Nat) (xs : List FloatVal) (code : Nat) (fl : Byte) :
    QuantBlock :=
  let s := scaleVal code
  let q := xs.mapIdx (fun i x => f.quantElem mode (r i) s.1 (s.2 + f.tsb) x)
  { scale := code, codes := q.map Prod.fst, flags := fl ||| flagsOr (q.map Prod.snd) }

/-- `quantise_block` (R39). `given`: the code that R38 takes as given; `r i`: random value of element i. With amax = 0 the code is
0x00 whatever is given: an infinity that POL 1 leaves out of amax is then zeroed, which is not exact (R40, log 47), and a given
0xFF sets no NV (log 84). -/
def BlockFmt.quantise (f : BlockFmt) (mode : Nat) (r : Nat → Nat) (given : Option Nat) (xs : List FloatVal) :
    QuantBlock :=
  let nan := xs.any FloatVal.isNan
  let zeros := xs.map (fun _ => 0)
  let nv := flagIf nan flagNV
  if nan && f.blk != 2 then { scale := 0xFF, codes := zeros, flags := flagNV }
  else if f.blk = 2 then
    (if xs.all (fun x => x.isZero || x.isNan) then { scale := 0x78, codes := zeros, flags := nv }
     else f.quantWith mode r xs 0x78 nv)
  else
    let top := maxFinite xs
    let inf := f.pol != 1 && xs.any (fun x => match x with | .inf _ => true | _ => false)
    if !inf && top.1 = 0 then
      { scale := 0, codes := zeros
        flags := if xs.all FloatVal.isZero then 0 else flagNX ||| flagIf (given = some 0) flagUF }
    else match given with
      | some 0 => { scale := 0, codes := zeros, flags := flagNX ||| flagUF }
      | some 0xFF => { scale := 0xFF, codes := zeros, flags := flagNV }
      | some c => f.quantWith mode r xs c 0
      | none =>
        let c := f.choose (if inf then none else some top)
        f.quantWith mode r xs c.1 c.2

/-- VSCSEL's code from one amax (R268). -/
def BlockFmt.select (f : BlockFmt) (amax : FloatVal) : Nat × Byte :=
  let nan := amax.isNan
  if f.blk = 2 then (0x78, flagIf nan flagNV)
  else match amax with
    | .nan _ => (0xFF, flagNV)
    | .inf _ => f.choose none
    | .fin _ m e => if m = 0 then (0, 0) else f.choose (some (scaled m 1 e))

/-! ### The OCP layout (R42, R43) -/

/-- The value of an OCP element under an E8M0 scale (R42). -/
def BlockFmt.ocpValue (f : BlockFmt) (x c : Nat) : FloatVal :=
  if x = 0xFF then .nan false
  else match f.elem c with
    | .fin n m e => .fin n m (e + (x : Int) - 127)
    | v => v

/-- One native block from half an OCP block whose codes have the native block's element format, E8M0 scale `x` (R42). Under BLK 2
the scale is fixed (R34): the codes stay where it is pow2(k), and are requantised elsewhere. DEDUCED (log 48): X = 0xFF gives zero
codes and no flag, but for BLK 2, which cannot carry a NaN. -/
def BlockFmt.fromOcp (f : BlockFmt) (mode : Nat) (r : Nat → Nat) (x : Nat) (codes : List Nat) : QuantBlock :=
  let k : Int := (x : Int) - 127 - f.tsb
  let vals := codes.map (f.ocpValue x)
  if f.blk = 2 then
    (if k = 0 ∧ x ≠ 0xFF then { scale := 0x78, codes := codes, flags := 0 } else f.quantise mode r none vals)
  else if x = 0xFF then { scale := 0xFF, codes := codes.map (fun _ => 0), flags := 0 }
  else
    if -17 ≤ k ∧ k ≤ 16 then { scale := scalePow k, codes := codes, flags := 0 }
    else
      let q := f.quantise mode r (some (if 16 < k then 0xFE else 0x01)) vals
      { q with flags := q.flags ||| (if 16 < k then flagSSAT else flagUF) }

/-- One OCP block of 32 elements (R43), flagged as R40 says: an infinity that POL 1 zeroes is not exact. For a format whose
largest finite magnitude is 0 no rule gives emax, and X before it is clamped is a free value (log 22). -/
def BlockFmt.toOcp (f : BlockFmt) (mode : Nat) (r : Nat → Nat) (xs : List FloatVal) : QuantBlock :=
  let zeros := xs.map (fun _ => 0)
  if xs.any FloatVal.isNan then { scale := 0xFF, codes := zeros, flags := flagNV }
  else
    let inf := xs.any (fun x => match x with | .inf _ => f.pol != 1 | _ => false)
    let top := maxFinite xs
    if !inf && top.1 = 0 then { scale := 0, codes := zeros, flags := flagIf (!xs.all FloatVal.isZero) flagNX }
    else
      let x : Int := if inf then 255 else if f.maxQuanta = 0 then (Config.openScale f.bias : Int) % 512 - 128
        else log2Ratio top.1 top.2 - f.emax + 127
      let c : Nat := (max (min x 254) 0).toNat
      let q := xs.mapIdx (fun i v => f.quantElem mode (r i) 1 ((c : Int) - 127) v)
      { scale := c, codes := q.map Prod.fst
        flags := flagsOr (q.map Prod.snd) ||| flagIf (254 < x) flagSSAT ||| flagIf (x < 0) flagUF }

/-! ### The window-64 fused sum (R48, R49) -/

/-- A block value: its value, and whether a product inside it was 0 times an infinity or its products held both
infinities. -/
structure BlockValue where
  val : FloatVal
  invalid : Bool
  deriving DecidableEq, Repr

/-- The exact sum of dyadic numbers as an integer at the least exponent. -/
def sumExact (xs : List (Bool × Nat × Int)) : Int × Int :=
  let e := xs.foldl (fun e x => min e x.2.2) (match xs with | x :: _ => x.2.2 | [] => 0)
  (xs.foldl (fun s x => s + signedInt x.1 (x.2.1 * 2 ^ (x.2.2 - e).toNat)) 0, e)

/-- The finite values among some, as sign, magnitude and exponent. -/
def finites (xs : List FloatVal) : List (Bool × Nat × Int) :=
  xs.filterMap (fun x => match x with | .fin n m e => some (n, m, e) | _ => none)

/-- The signs of the infinities among some values. -/
def infSigns (xs : List FloatVal) : List Bool := xs.filterMap (fun x => match x with | .inf n => some n | _ => none)

/-- The block value of element values a and b, with a scale exponent and integer already in them (R48). -/
def blockValue (as bs : List FloatVal) : BlockValue :=
  let ps := (as.zip bs).map (fun p => mulExact p.1 p.2)
  if (as ++ bs).any FloatVal.isNan then ⟨.nan false, false⟩
  else
    let vs := ps.filterMap (fun p => p)
    let infs := infSigns vs
    if ps.contains none || (infs.contains true && infs.contains false) then ⟨.nan false, true⟩
    else match infs with
      | n :: _ => ⟨.inf n, false⟩
      | [] => let s := sumExact (finites vs); ⟨.fin (s.1 < 0) s.1.natAbs s.2, false⟩

/-- `fused_sum` (R48) with its flags (R49): the binary32 code of the result. -/
def fusedSum (asat : Bool) (terms : List BlockValue) (c : Nat) : Nat × Byte :=
  let cv := binary32.decode c
  let vals := terms.map BlockValue.val ++ [cv]
  if cv.isNan || terms.any (fun t => t.val.isNan && !t.invalid) then (binary32.canon, 0)
  else if terms.any BlockValue.invalid then (binary32.canon, flagNV)
  else
    let infs := infSigns vals
    if infs.contains true && infs.contains false then (binary32.canon, flagNV)
    else match infs with
      | n :: _ => (binary32.signed n binary32.infCode, 0)
      | [] =>
        let nz := (finites vals).filter (fun x => x.2.1 != 0)
        match nz with
        | [] => (if c = 0x80000000 then c else 0, 0)
        | x :: xs =>
          let top (x : Bool × Nat × Int) : Int := (ilog2 x.2.1 : Int) + x.2.2
          let q := (xs.foldl (fun e x => max e (top x)) (top x)) - 62
          let s := nz.foldl (fun s x =>
            let y := scaled x.2.1 1 (x.2.2 - q)
            s + signedInt x.1 (y.1 / y.2)) (0 : Int)
          let exact := sumExact nz
          if s = 0 then (0, if exact.1 = 0 then 0 else flagNX ||| flagUF)
          else
            let y := binary32.roundDyadic 0 0 (s < 0) s.natAbs q
            if y.2 &&& flagOF != 0 then
              (if asat then binary32.signed (s < 0) (binary32.infCode - 1) else y.1, flagOF ||| flagNX)
            else
              let same := match binary32.decode y.1 with
                | .fin n m e =>
                  let d := addExact 0 n m e (!decide (exact.1 < 0)) exact.1.natAbs exact.2
                  d.2.1 = 0
                | _ => false
              (y.1, flagIf (!same) flagNX ||| flagIf (!same && y.1 % 0x80000000 < 0x800000) flagUF)

end Sys2Proof.Machine
end

