-- ==== Sys2Proof/Syntax.lean ====
section
/-!
DEFINITION. The instructions and events of the HZ-7: one constructor per row of spec/opcode_table.json.

An operand field of a word is kept as the raw unsigned number its bits hold, named as the table names it; the
meaning of the instruction widens it (R172, R173). Event rows have no bits and no operands here: what the outside world
or a unit supplies with an event stands in the state's `arg` (Machine/State.lean). A row about one team acts on the team
in focus. The order is the table's, but with the rows that have fields first (a limit of Lean's runtime on
constructors with fields).
-/
namespace Sys2Proof

/-- The fields of a prefix word, OP 0x7F (R179). -/
structure Prefix where
  /-- MK, the guard: 0..15 a predicate, 16 none (R179). -/
  grd : Nat
  /-- 1: unselected active lanes take zero (R178). -/
  mz : Nat
  /-- Rounding override: 0 the mode's, else code RND - 1 of R44 (R179). -/
  rnd : Nat
  /-- Fourth operand (R179). -/
  d4 : Nat
  /-- Which operand the lane pattern rewires: 0 a, 1 b (R179). -/
  lps : Nat
  /-- Lane pattern (R181). -/
  lp : Nat
  /-- Parameter of the lane pattern (R181). -/
  k : Nat
  deriving DecidableEq, Repr

/-- Where an error in storage lies (R410). -/
inductive StorageError where
  /-- A soft error that was corrected, in the SRAM of a core (`true`) or of a die (`false`). -/
  | corrected (inCore : Bool) (unit : Nat)
  /-- An uncorrectable error in the HBM or L2 sector holding this physical address. -/
  | memory (pa : Nat)
  /-- An uncorrectable error in a block's scratchpad, at this offset. -/
  | scratchpad (bid off : Nat)
  /-- An uncorrectable error in a team's registers or control state. -/
  | teamState (uid : Nat)
  /-- An uncorrectable error in a team's bound operand slot of this name. -/
  | slot (uid name : Nat)
  /-- An uncorrectable error in a team's bound accumulator tile of this name. -/
  | tile (uid name : Nat)
  /-- An error in the instruction cache. -/
  | icache (core : Nat)
  /-- An error in the CP or in shadow storage. -/
  | hub
  /-- An error in a table of the hub: its counters, triggered sends, publish entries (unit 26, R168). -/
  | hubTable
  deriving DecidableEq, Repr

/-- What a coded cross-chip unit holds beyond its first sector: the other three sectors of the line with their side-bands, expanded
(R141), and its size, 1 to 9 granules (R423). -/
structure CodedLine where
  granules : Nat
  rest : List (BitVec 512 × SideBand)
  deriving DecidableEq, Repr

/-- A write unit that a peer device sends (R423, R424): 64 data bytes and 8 side-band bytes. -/
structure RemoteUnit where
  /-- The sending device. -/
  src : Nat
  /-- The region id it names (R425). -/
  rid : Nat
  /-- The global virtual address of the unit, a multiple of 64. -/
  va : Nat
  /-- The sequence stamp (R168). -/
  stamp : Nat
  /-- The path it came by. -/
  path : Nat
  /-- Data bytes, byte i at bits [8i+7:8i]. -/
  data : BitVec 512
  /-- The side-band. -/
  side : SideBand
  /-- Which of the 64 data bytes the unit writes. -/
  bytes : BitVec 64
  /-- Whether the unit writes the side-band as well. -/
  withSide : Bool
  /-- CMP of the descriptor it was written through (R140, R423). -/
  cmp : Bool
  /-- Its expansion point is the receiver: a coded line may reach it coded (R141, R423). -/
  late : Bool := false
  /-- The generation stamped on a write to a double-backed buffer (R138). -/
  gen : Option Nat
  /-- A coded unit brings the whole line at `va`: this sector and the three after it (R423). -/
  line : Option CodedLine := none
  deriving DecidableEq, Repr

/-- How the parts fare during a bring-up (R435): what no image or record decides. -/
structure BringUp where
  /-- The PUF seeds are reconstructed (step 3). -/
  pufOk : Bool
  /-- The HBM stacks that train (step 6), one bit per stack. -/
  hbm : BitVec 12
  /-- The ports that train (step 7), one bit per port. -/
  ports : BitVec 16
  deriving DecidableEq, Repr

/-- One reading of the module's sensors (R442). -/
structure SensorReading where
  /-- Temperatures in degrees Celsius of CD0, CD1 and the hub die. -/
  dies : List Nat
  /-- Temperatures of the twelve stacks. -/
  hbm : List Nat
  /-- Millivolts of each supply rail. -/
  rails : List Nat
  /-- The module power in watts. -/
  power : Nat
  deriving DecidableEq, Repr

/-- One constructor per row of spec/opcode_table.json. -/
inductive Instr where
  /-- R225. Safepoint that arms the issue-count deadline and takes any pending pre-emption request. -/
  | yield (i d : Nat)
  /-- R229. Raises TRAP_INSTRUCTION with a code, restarting at the next instruction. -/
  | trap (c : Nat)
  /-- R224. Writes the 25-bit immediate to the mode register, checked under R177. -/
  | mode (m : Nat)
  /-- R151. Orders all earlier accesses of the team before later stores and atomics at the given scope. -/
  | fenceRel (s : Nat)
  /-- R151. Orders earlier loads and atomics before all later accesses at the given scope. -/
  | fenceAcq (s : Nat)
  /-- R151. Applies both release and acquire ordering at the given scope. -/
  | fenceAr (s : Nat)
  /-- R82. Joins or forms a convocation of n teams under id cv in N-gang or K-gang mode, or makes the team solo. -/
  | conv (m n c : Nat)
  /-- R95. Declares the frame size, making registers resident and zeroing fresh ones. -/
  | enter (n : Nat)
  /-- R289. Arrives on a block barrier and then waits for the phase, with optional timeout and status. -/
  | barSync (w s i : Nat)
  /-- R289. Records the team's arrival in the next phase of a block barrier, as a release. -/
  | barArrive (i : Nat)
  /-- R289. Waits for the phase of the team's latest arrival on a block barrier, as an acquire. -/
  | barWait (w s i : Nat)
  /-- R216. Pushes a join entry with the target and the active mask. -/
  | setj (o : Nat)
  /-- R216. Uniform branch on a predicate; faults BRANCH_NONUNIFORM when lanes disagree. -/
  | bru (p n o : Nat)
  /-- R74. Masked split: branches the true lanes and pushes the others as a pending entry. -/
  | brm (p n o : Nat)
  /-- R217. Ends the guarded active lanes and writes one spawn record each to a station's queue. -/
  | eject (p n o : Nat)
  /-- R216. Unconditional relative jump. -/
  | jmp (o : Nat)
  /-- R94. Direct call that slides the register window and pushes a link record. -/
  | call (l o : Nat)
  /-- R108. Calls each distinct lane target in ascending order, one sub-call per issue. -/
  | calli (l a : Nat)
  /-- R218. Jumps to the offset held in a uniform register. -/
  | jmpi (a : Nat)
  /-- R107. Calls the target held in a uniform register with a window slide. -/
  | calls (a l : Nat)
  /-- R221. Sets the plane number of selected lanes from a vector register. -/
  | plset (a : Nat)
  /-- R221. Sets the plane number of selected lanes to a constant 0..3. -/
  | plsetConst (b : Nat)
  /-- R222. Sets each active lane's plane by a predicate. -/
  | plsel (f t p : Nat)
  /-- R223. Writes the plane occupancy of the active lanes to a uniform register. -/
  | plocc (d : Nat)
  /-- R236. Reads a special register, waiting for earlier writers of STICKY, ISECTA or ISECTB. -/
  | srd (d i : Nat)
  /-- R234. Writes a special register that has no behaviour of its own, taking effect at the next instruction. -/
  | swr (s i : Nat)
  /-- R177. Writes all 64 bits of MODE, raising ILLEGAL_MODE on reserved fields or codes. -/
  | swrMode (s : Nat)
  /-- R56. Writes STICKY after every earlier flag-setting instruction has completed. -/
  | swrSticky (s : Nat)
  /-- R114. Writes SSP, raising STACK for a misaligned or out-of-range value. -/
  | swrSsp (s : Nat)
  /-- R231. Writes the trap restart offset and sets TWR. -/
  | swrTrapoff (s : Nat)
  /-- R113. Pushes consecutive uniform registers onto the scalar stack. -/
  | pushm (f c : Nat)
  /-- R113. Pops consecutive uniform registers from the scalar stack. -/
  | popm (f c : Nat)
  /-- R289. Arrives on a cluster barrier as a release at cluster scope. -/
  | cbara (i : Nat)
  /-- R289. Waits on a cluster barrier phase with optional timeout and status. -/
  | cbarw (w s i : Nat)
  /-- R293. Arrives on a phase barrier object and returns the phase joined. -/
  | pbara (d : Nat)
  /-- R293. Waits until a phase barrier passes the given phase, writing POIS or the timeout to a predicate. -/
  | pbwait (d p w : Nat)
  /-- R228. Adds to the team's advance leave request for matrix steps or copy KiB. -/
  | leave (k n : Nat)
  /-- R238. Reads a privileged special register. -/
  | psrd (d i : Nat)
  /-- R238. Writes a privileged special register that has no behaviour of its own. -/
  | pswr (s i : Nat)
  /-- R373. Advances the fault-queue consumer index, ignored when outside HEAD..TAIL. -/
  | pswrFqhead (s : Nat)
  /-- R375. Restarts the faulted instruction or resumes the suspended command named by the ticket. -/
  | fdactRestart (s : Nat)
  /-- R375. Ends the faulted team or abandons the suspended command named by the ticket. -/
  | fdactEnd (s : Nat)
  /-- R375. Remaps the spill area at FDARG bytes and restarts the instruction. -/
  | fdactRespill (s : Nat)
  /-- R405. Invalidates cached translations of the page holding an address. -/
  | tlbiPage (a : Nat)
  /-- R405. Invalidates every non-global translation of a partition. -/
  | tlbiRegion (a : Nat)
  /-- R242. Scalar 64-bit wrapping addition. -/
  | sadd (d a b : Nat)
  /-- R242. Scalar 64-bit wrapping subtraction. -/
  | ssub (d a b : Nat)
  /-- R242. Scalar low 64 bits of the product. -/
  | smul (d a b : Nat)
  /-- R242. Scalar high 64 bits of the signed product. -/
  | smulh (d a b : Nat)
  /-- R243. Scalar signed division with IDZ and IOV cases. -/
  | sdiv (d a b : Nat)
  /-- R243. Scalar unsigned division. -/
  | sdivu (d a b : Nat)
  /-- R243. Scalar signed remainder. -/
  | srem (d a b : Nat)
  /-- R243. Scalar unsigned remainder. -/
  | sremu (d a b : Nat)
  /-- R242. Scalar bitwise and. -/
  | sand (d a b : Nat)
  /-- R242. Scalar bitwise or. -/
  | sor (d a b : Nat)
  /-- R242. Scalar bitwise xor. -/
  | sxor (d a b : Nat)
  /-- R242. Scalar a and not b. -/
  | sandn (d a b : Nat)
  /-- R242. Scalar shift left by the low six bits of b. -/
  | sshl (d a b : Nat)
  /-- R242. Scalar logical shift right. -/
  | sshr (d a b : Nat)
  /-- R242. Scalar arithmetic shift right. -/
  | ssra (d a b : Nat)
  /-- R242. Scalar rotate right. -/
  | srotr (d a b : Nat)
  /-- R242. Scalar signed minimum. -/
  | smin (d a b : Nat)
  /-- R242. Scalar signed maximum. -/
  | smax (d a b : Nat)
  /-- R242. Scalar unsigned minimum. -/
  | sminu (d a b : Nat)
  /-- R242. Scalar unsigned maximum. -/
  | smaxu (d a b : Nat)
  /-- R242. Scalar signed less-than test. -/
  | sslt (d a b : Nat)
  /-- R242. Scalar unsigned less-than test. -/
  | ssltu (d a b : Nat)
  /-- R242. Scalar equality test. -/
  | sseq (d a b : Nat)
  /-- R242. Scalar inequality test. -/
  | ssne (d a b : Nat)
  /-- R242. Selects a or b by the old destination value. -/
  | ssel (d a b : Nat)
  /-- R242. Selects a if b is nonzero, else zero. -/
  | sselz (d a b : Nat)
  /-- R242. Scalar population count. -/
  | spopc (d a : Nat)
  /-- R242. Scalar count of leading zeros. -/
  | sclz (d a : Nat)
  /-- R242. Scalar count of trailing zeros. -/
  | sctz (d a : Nat)
  /-- R242. Scalar bit reversal. -/
  | sbrev (d a : Nat)
  /-- R244. Scalar add of a signed 9-bit immediate. -/
  | saddi (d a i : Nat)
  /-- R244. Scalar and with a sign-extended immediate. -/
  | sandi (d a i : Nat)
  /-- R244. Scalar or with a sign-extended immediate. -/
  | sori (d a i : Nat)
  /-- R244. Scalar xor with a sign-extended immediate. -/
  | sxori (d a i : Nat)
  /-- R244. Scalar shift left by an immediate amount. -/
  | sshli (d a n : Nat)
  /-- R244. Scalar logical shift right by an immediate amount. -/
  | sshri (d a n : Nat)
  /-- R244. Scalar arithmetic shift right by an immediate amount. -/
  | ssrai (d a n : Nat)
  /-- R244. Scalar signed less-than test against an immediate. -/
  | sslti (d a i : Nat)
  /-- R244. Loads a sign-extended 17-bit immediate. -/
  | sli (d i : Nat)
  /-- R244. Shifts the register left 17 and adds an unsigned immediate. -/
  | slui (d i : Nat)
  /-- R278. Scalar 8-byte load. -/
  | sld64 (t b o l : Nat)
  /-- R278. Scalar 4-byte zero-extending load. -/
  | sld32 (t b o l : Nat)
  /-- R278. Scalar 8-byte store. -/
  | sst64 (t b o l : Nat)
  /-- R278. Scalar 4-byte store. -/
  | sst32 (t b o l : Nat)
  /-- R279. Per-lane 1-byte zero-extending load. -/
  | vld8 (t b x l u : Nat)
  /-- R279. Per-lane 2-byte zero-extending load. -/
  | vld16 (t b x l u : Nat)
  /-- R279. Per-lane 4-byte load. -/
  | vld32 (t b x l u : Nat)
  /-- R279. Per-lane 8-byte load into an even register pair. -/
  | vld64 (t b x l u : Nat)
  /-- R280. Loads one sector with its side-band per 16-lane group. -/
  | vldb (t b x l u : Nat)
  /-- R279. Per-lane 1-byte store. -/
  | vst8 (t b x l u : Nat)
  /-- R279. Per-lane 2-byte store. -/
  | vst16 (t b x l u : Nat)
  /-- R279. Per-lane 4-byte store. -/
  | vst32 (t b x l u : Nat)
  /-- R279. Per-lane 8-byte store from an even register pair. -/
  | vst64 (t b x l u : Nat)
  /-- R280. Stores one sector with its side-band per 16-lane group as one unit. -/
  | vstb (t b x l u : Nat)
  /-- R282. Per-lane 32-bit atomic returning the old value, lanes on one location in fixed order. -/
  | vatom (d x b o l : Nat)
  /-- R283. Scalar 32- or 64-bit atomic returning the old value. -/
  | satom (d a o w l : Nat)
  /-- R284. Writes the space code of a generic address. -/
  | sptest (d a : Nat)
  /-- R284. Casts a generic address to another space for lane 0, faulting or yielding null. -/
  | spcast (d a p t : Nat)
  /-- R284. Per-lane space test of a 64-bit address pair. -/
  | vsptest (d a : Nat)
  /-- R284. Per-lane space cast of a 64-bit address pair. -/
  | vspcast (d a p t : Nat)
  /-- R285. Requests a line into the L1, dropping translation faults. -/
  | prefL1 (b o : Nat)
  /-- R285. Requests a line into the L2, dropping translation faults. -/
  | prefL2 (b o : Nat)
  /-- R286. Invalidates the L1 line holding an address on the issuing core. -/
  | cctlL1line (a : Nat)
  /-- R286. Places an L2 line in the stream replacement class. -/
  | cctlL2evict (a : Nat)
  /-- R249. Lane-wise addition. -/
  | vadd (d a b : Nat)
  /-- R249. Lane-wise subtraction. -/
  | vsub (d a b : Nat)
  /-- R249. Lane-wise multiplication. -/
  | vmul (d a b : Nat)
  /-- R249. Lane-wise high half of the integer product. -/
  | vmulh (d a b : Nat)
  /-- R249. Lane-wise minimum. -/
  | vmin (d a b : Nat)
  /-- R249. Lane-wise maximum. -/
  | vmax (d a b : Nat)
  /-- R249. Lane-wise absolute difference. -/
  | vabsd (d a b : Nat)
  /-- R249. Lane-wise division. -/
  | vdiv (d a b : Nat)
  /-- R249. Lane-wise integer remainder. -/
  | vrem (d a b : Nat)
  /-- R249. Fused a times b plus c. -/
  | vfma (d a b : Nat)
  /-- R249. Fused a times b minus c. -/
  | vfms (d a b : Nat)
  /-- R249. Fused negated product plus c. -/
  | vfnma (d a b : Nat)
  /-- R249. Lane-wise saturating integer addition. -/
  | vaddsat (d a b : Nat)
  /-- R249. Lane-wise saturating integer subtraction. -/
  | vsubsat (d a b : Nat)
  /-- R249. Lane-wise rounded integer average. -/
  | vavg (d a b : Nat)
  /-- R249. Magnitude of a with sign of b. -/
  | vcopysign (d a b : Nat)
  /-- R250. Lane-wise bitwise and. -/
  | vand (d a b : Nat)
  /-- R250. Lane-wise bitwise or. -/
  | vor (d a b : Nat)
  /-- R250. Lane-wise bitwise xor. -/
  | vxor (d a b : Nat)
  /-- R250. Lane-wise a and not b. -/
  | vandn (d a b : Nat)
  /-- R250. Lane-wise shift left. -/
  | vshl (d a b : Nat)
  /-- R250. Lane-wise logical shift right. -/
  | vshr (d a b : Nat)
  /-- R250. Lane-wise arithmetic shift right. -/
  | vsra (d a b : Nat)
  /-- R250. Lane-wise rotate right. -/
  | vrotr (d a b : Nat)
  /-- R251. Lane-wise integer add of an immediate. -/
  | vaddi (d a i : Nat)
  /-- R251. Lane-wise integer multiply by an immediate. -/
  | vmuli (d a i : Nat)
  /-- R251. Lane-wise and with a sign-extended immediate. -/
  | vandi (d a i : Nat)
  /-- R251. Lane-wise or with a sign-extended immediate. -/
  | vori (d a i : Nat)
  /-- R251. Lane-wise shift left by an immediate. -/
  | vshli (d a n : Nat)
  /-- R251. Lane-wise logical shift right by an immediate. -/
  | vshri (d a n : Nat)
  /-- R251. Lane-wise arithmetic shift right by an immediate. -/
  | vsrai (d a n : Nat)
  /-- R251. Lane-wise rotate right by an immediate. -/
  | vrotri (d a n : Nat)
  /-- R251. Writes an immediate to every sub-element. -/
  | vmovi (d i : Nat)
  /-- R252. Lane-wise bit copy. -/
  | vmov (d a : Nat)
  /-- R252. Lane-wise negation. -/
  | vneg (d a : Nat)
  /-- R252. Lane-wise absolute value. -/
  | vabs (d a : Nat)
  /-- R252. Lane-wise bitwise not. -/
  | vnot (d a : Nat)
  /-- R252. Per sub-element population count. -/
  | vpopc (d a : Nat)
  /-- R252. Per sub-element leading zeros. -/
  | vclz (d a : Nat)
  /-- R252. Sign-extends the low byte. -/
  | vsext8 (d a : Nat)
  /-- R252. Sign-extends the low half-word. -/
  | vsext16 (d a : Nat)
  /-- R253. Correctly rounded reciprocal. -/
  | vrcp (d a : Nat)
  /-- R253. Correctly rounded reciprocal square root. -/
  | vrsq (d a : Nat)
  /-- R253. Correctly rounded square root. -/
  | vsqrt (d a : Nat)
  /-- R253. Correctly rounded 2 to the power a. -/
  | vexp2 (d a : Nat)
  /-- R253. Correctly rounded base-2 logarithm. -/
  | vlog2 (d a : Nat)
  /-- R253. Correctly rounded sine. -/
  | vsin (d a : Nat)
  /-- R253. Correctly rounded cosine. -/
  | vcos (d a : Nat)
  /-- R253. Correctly rounded hyperbolic tangent. -/
  | vtanh (d a : Nat)
  /-- R254. Converts each sub-element from type T to the destination type. -/
  | vcvt (d a t : Nat)
  /-- R255. Adds a uniform scalar to each lane. -/
  | vadds (d a s : Nat)
  /-- R255. Multiplies each lane by a uniform scalar. -/
  | vmuls (d a s : Nat)
  /-- R255. Fused multiply by a scalar plus c. -/
  | vfmas (d a s : Nat)
  /-- R255. Lane minimum against a scalar. -/
  | vmins (d a s : Nat)
  /-- R255. Lane maximum against a scalar. -/
  | vmaxs (d a s : Nat)
  /-- R255. Broadcasts a scalar to every selected lane. -/
  | vbcast (d s : Nat)
  /-- R255. Shifts lanes left by a scalar amount. -/
  | vshls (d a s : Nat)
  /-- R255. Shifts lanes right by a scalar amount. -/
  | vshrs (d a s : Nat)
  /-- R256. Lane-wise compare into a predicate, set, and-ed or or-ed. -/
  | vcmp (p a b c f : Nat)
  /-- R256. Lane-wise compare against a scalar into a predicate. -/
  | vcmps (p a s c f : Nat)
  /-- R257. Selects a or b per lane by a predicate. -/
  | vsel (d a b p : Nat)
  /-- R258. Predicate and. -/
  | pand (d a b : Nat)
  /-- R258. Predicate or. -/
  | por (d a b : Nat)
  /-- R258. Predicate xor. -/
  | pxor (d a b : Nat)
  /-- R258. Predicate and-not. -/
  | pandn (d a b : Nat)
  /-- R258. Predicate not. -/
  | pnot (d a : Nat)
  /-- R258. Sets a predicate true in every active lane. -/
  | pset (d : Nat)
  /-- R258. Sets a predicate false in every active lane. -/
  | pclr (d : Nat)
  /-- R258. Copies a predicate. -/
  | pmov (d a : Nat)
  /-- R259. Reads a source lane within the pass chosen by an index register. -/
  | vshfl (d a b : Nat)
  /-- R259. Reads a source lane anywhere in the team. -/
  | vshflTeam (d a b : Nat)
  /-- R261. Reduces selected lanes in a fixed tree order into a scalar. -/
  | vred (a s f : Nat)
  /-- R262. Inclusive scan over selected lanes with a scalar carry in and out. -/
  | vscan (d a s f : Nat)
  /-- R263. Ballot of a predicate over selected lanes into a scalar. -/
  | vball (w p s f : Nat)
  /-- R264. Assigns compacted positions to lanes by nonzero test. -/
  | vnzs (d a s f : Nat)
  /-- R265. Intersects two key lists, writing matches and ISECTA, ISECTB. -/
  | visect (d a b : Nat)
  /-- R268. Writes each group's absolute maximum to all its lanes. -/
  | vbmax (d a : Nat)
  /-- R268. Chooses a block scale code from a group maximum. -/
  | vscsel (d a f : Nat)
  /-- R268. Quantises each group's F32 lanes into a code-form block. -/
  | vqnt (d a f : Nat)
  /-- R268. Dequantises a code-form block into F32 lanes. -/
  | vdq (d a f : Nat)
  /-- R268. Packs a code-form block into a block position of a sector. -/
  | vpack (d a p f : Nat)
  /-- R268. Unpacks a block position of a sector into code form. -/
  | vunpk (d a p f : Nat)
  /-- R268. Requantises a code-form block into another format. -/
  | vreq (d a f : Nat)
  /-- R270. Adds lane exponents to a histogram record as one atomic update. -/
  | vhist (a r : Nat)
  /-- R272. Derives a percentile TSB from a histogram record into a format word. -/
  | spctl (d a b : Nat)
  /-- R273. Writes the lane's index in team or block, plane or pass. -/
  | vlane (d f : Nat)
  /-- R274. Reads each group's side-band bytes into lanes. -/
  | vsideRd (d a : Nat)
  /-- R274. Writes each group's side-band bytes from lanes. -/
  | vsideWr (d a : Nat)
  /-- R328. Atomically sets a counter and clears ERR, firing met TSEND entries. -/
  | xcntSet (a b c : Nat)
  /-- R328. Atomically adds to a counter, returning the old value and firing met TSEND entries. -/
  | xcntAdd (a b c : Nat)
  /-- R296. Blocking claim of operand slots, waiting in the block's queue when short. -/
  | tclm (s n f : Nat)
  /-- R296. Try-form claim of operand slots reporting status without waiting. -/
  | tclmTry (s n f : Nat)
  /-- R297. Releases operand slot names after their pending uses complete. -/
  | trel (n f : Nat)
  /-- R296. Blocking claim of accumulator tiles. -/
  | aclm (s n f : Nat)
  /-- R296. Try-form claim of accumulator tiles. -/
  | aclmTry (s n f : Nat)
  /-- R297. Releases accumulator tile names. -/
  | arel (n f : Nat)
  /-- R301. Loads a dense tile image into an operand slot. -/
  | tldDense (t b f k : Nat)
  /-- R304. Loads a tile and decomposes it into N:M terms and a residual under DCW. -/
  | tldDec (t b f k : Nat)
  /-- R302. Loads a pre-compressed structured tile image. -/
  | tldPcs (t b f k : Nat)
  /-- R308. Stores a slot's effective tile as a dense image. -/
  | tst (t b : Nat)
  /-- R310. Issues one matrix step accumulating into a tile, solo or as a convocation member. -/
  | mma (d a b x y c : Nat)
  /-- R310. Matrix step starting from a zero accumulator. -/
  | mmaZ (d a b x y c : Nat)
  /-- R314. Issues up to eight accumulating steps over consecutive slots with a skip bitmap. -/
  | mmas (d a b n s : Nat)
  /-- R315. Reads accumulator rows into lanes. -/
  | ardr (d x s : Nat)
  /-- R315. Reads accumulator columns into lanes. -/
  | ardc (d x s : Nat)
  /-- R315. Writes lanes into accumulator rows. -/
  | awrr (d x s : Nat)
  /-- R315. Writes lanes into accumulator columns. -/
  | awrc (d x s : Nat)
  /-- R316. Reads slot sectors into register groups. -/
  | trdr (d x s : Nat)
  /-- R316. Reads slot element codes by column into lanes. -/
  | trdc (d x s : Nat)
  /-- R316. Writes register groups into slot sectors. -/
  | twrr (d x s : Nat)
  /-- R316. Writes lane codes into slot elements by column. -/
  | twrc (d x s : Nat)
  /-- R315. Sets every element of an accumulator tile to +0.0. -/
  | azero (x : Nat)
  /-- R318. Quantises an accumulator tile into block positions of a scratchpad image, optionally with ReLU. -/
  | aqnt (a b f r q : Nat)
  /-- R307. Reads a word of a slot's decomposition record. -/
  | tinfo (d w s : Nat)
  /-- R330. Queues a single copy with conversion between buffer descriptors. -/
  | xcpy (a b c : Nat)
  /-- R330. Queues a paired plain and transposed copy. -/
  | xcpyPair (a b c : Nat)
  /-- R333. Queues a gather of table rows by an index list. -/
  | xgath (a b c : Nat)
  /-- R333. Queues a scatter of list rows into table rows by an index list. -/
  | xscat (a b c : Nat)
  /-- R339. Publishes a double-backed buffer by swapping front and shadow after its writers complete. -/
  | xpub (a s c : Nat)
  /-- R339. Publishes and then copies the new front into the new shadow in the background. -/
  | xpubSync (a s c : Nat)
  /-- R329. Waits until a counter reaches a threshold, as an acquire. -/
  | xwait (a b c : Nat)
  /-- R329. Tests a counter against a threshold without waiting. -/
  | xwaitTest (a b c : Nat)
  /-- R337. Sends a buffer to a peer address and increments the receiver's counter. -/
  | nsend (a b c : Nat)
  /-- R337. Sends 32 lanes of a register as two sectors to a peer. -/
  | nsendImm (v b c : Nat)
  /-- R338. Arms a triggered-send table entry on a local arrival counter. -/
  | tsend (a b c : Nat)
  /-- R335. Queues a rank-ordered FP32 reduction of contributions into a destination. -/
  | cred (a b c : Nat)
  /-- R336. Sends flush markers to a peer set and completes on every acknowledgement. -/
  | xflush (a c : Nat)
  /-- R179. A prefix word and the following word issue as one instruction with guard, zeroing, rounding, fourth operand and lane pattern overrides. -/
  | prefixedInstruction (pfx : Prefix) (i : Instr)
  /-- R209. Raises ILLEGAL_INSTRUCTION; the all-zero word. -/
  | ill
  /-- R209. Advances the PC with no other effect. -/
  | nop
  /-- R210. Ends every active lane, then proceeds by R75 at depth 0 or by the implicit returns of R110. -/
  | exit
  /-- R211. Ends the team at once, discards its stack and window, releases its claims and leaves any convocation. -/
  | texit
  /-- R212. Fills vacant lanes from the station's spawn queue and, at the entry station, from the fresh-index counter. -/
  | refill
  /-- R74. Pops the reconvergence stack and resumes a pending set or the joined mask. -/
  | join
  /-- R214. Leaves and dissolves the team's convocation. -/
  | disb
  /-- R96. Returns from the current window frame, refilling the caller's frame and link record as needed. -/
  | ret
  /-- R233. Returns from a user trap handler to TRAPOFF, restoring mask and CALLI continuation. -/
  | uret
  /-- R233. Privileged return from a trap handler, including for causes that are not user-deliverable. -/
  | tret
  /-- R240. Ends the issuing team and halts its core once earlier instructions complete. -/
  | haltc
  /-- R286. Invalidates every L1 line of the issuing core. -/
  | cctlL1all
  /-- R78. A stalled EJECT writes all its spawn records once the area has room. -/
  | ejectRecordWrite
  /-- R296. A waiting blocking claim at the head of the queue binds its names once enough slots or tiles are free. -/
  | claimGrant
  /-- R277. Returned load data is written to the destination, or raises MEMORY_POISON on an uncorrectable error. -/
  | loadDataReturn
  /-- R312. A begun matrix step writes its fused sum into the accumulator tile and sets the owner's flags. -/
  | matrixStepDone
  /-- R102. The spill engine spills or refills granules early with no architectural change. -/
  | spillAhead
  /-- R325. The copy engine starts a queued command in queue order. -/
  | engineCommandStart
  /-- R323. A command completes and signals record, completion counter, phase barrier and arrival counter in order. -/
  | engineCommandComplete
  /-- R332. A running command meets a fault, stops at a sector boundary and reports ENGINE to the fault domain. -/
  | engineSuspend
  /-- R373. A fault record is written to the domain's queue and TAIL advances, once a slot is free. -/
  | faultRecordWrite
  /-- R374. The CP launches the domain's FDKERNEL when the queue is nonempty and no handler runs. -/
  | handlerLaunch
  /-- R226. The issue count exhausts the YIELD deadline and the watchdog raises YIELD_OVERRUN. -/
  | yieldOverrun
  /-- R290. A timed wait reaches 2^W Waiting clk without completion and writes true to its status predicate. -/
  | barrierTimeout
  /-- R393. The dispatcher places the next block of a ready launch on the first fitting core from the cursor. -/
  | blockPlace
  /-- R393. The dispatcher places all blocks of a cluster together in one core group. -/
  | clusterPlace
  /-- R211. A block's scratchpad, spawn area and reservations are released once its teams have ended and its commands completed. -/
  | blockRelease
  /-- R391. A block that has waited 100 us blocks equal or lower priority placement in its core groups. -/
  | placementStarvation
  /-- R384. A launch whose blocks ended and commands completed reads its result word and completes. -/
  | launchComplete
  /-- R378. A host write to a queue doorbell sets TAIL or is ignored and logged. -/
  | doorbellWrite
  /-- R382. The CP reads a launch descriptor and header, checks them and makes the launch ready or refuses it. -/
  | launch
  /-- R389. Pops backward records and runs each gradient then update launch in sequence. -/
  | tapePop
  /-- R386. Checks a task graph and starts its nodes with NPRED 0. -/
  | graph
  /-- R390. Loads a time-triggered table slot from an entry. -/
  | tableLoad
  /-- R390. Disables a time-triggered table slot. -/
  | tableDisable
  /-- R379. The CP's engine copies between descriptors as XCPY single without transpose. -/
  | copy
  /-- R379. Sets an arrival counter with release at system scope. -/
  | signalSet
  /-- R379. Adds to an arrival counter with release at system scope. -/
  | signalAdd
  /-- R379. Starts a command that completes when an arrival counter reaches a threshold. -/
  | signalWait
  /-- R379. Stores an 8-byte value at a global address, then releases at system scope. -/
  | signalStore
  /-- R371. Checks and creates an RCB in the region tree. -/
  | regionCreate
  /-- R371. Checks and applies a modified RCB for later placements. -/
  | regionModify
  /-- R371. Destroys an idle region and drops its global translations. -/
  | regionDestroy
  /-- R379. Binds a user host queue to a control entry image from a system queue. -/
  | regionBind
  /-- R390. A loaded slot reaches its firing time and launches or applies its overrun rule. -/
  | tableFiring
  /-- R415. A suspended team is restored on its core, reclaims its names and runs its restore routine. -/
  | teamResume
  /-- R396. At each 1 us window boundary the governor computes budgets and grants stalled operations and advance requests. -/
  | leaveWindow
  /-- R418. The CP halts a lower-priority core group, drains its engines and copies its state to hearth. -/
  | coreGroupSwapOut
  /-- R418. The CP restores a swapped core group onto a free group of the same die. -/
  | coreGroupSwapIn
  /-- R240. The CP releases a core halted by HALTC. -/
  | haltRelease
  /-- R410. An SRAM or HBM error is corrected and counted, or poisons its sector, or raises a machine check. -/
  | storageError
  /-- R403. A store to the publish window writes, activates or is ignored for a publish-table entry. -/
  | publishEntryStore
  /-- R429. A host RDMA write is translated in its endpoint's partition and performed or refused. -/
  | hostRdmaWrite
  /-- R429. A host RDMA read is translated and served or refused. -/
  | hostRdmaRead
  /-- R424. A cross-chip write unit arrives, is checked and applied in stamp order, or refused. -/
  | remoteWriteUnit
  /-- R425. A cross-chip read request arrives, is checked and served or refused. -/
  | remoteRead
  /-- R337. A remote counter increment arrives after its payload settled and is applied or refused. -/
  | remoteIncrement
  /-- R425. A refusal from a peer makes the sending command complete as poisoned with CAUSE 0x43. -/
  | peerRefusal
  /-- R426. A flush marker arrives on a path and is acknowledged once all paths' markers and prior units are in. -/
  | flushMarker
  /-- R426. A peer's acknowledgement arrives; the flush completes when every peer has acknowledged. -/
  | flushAck
  /-- R426. A path or port goes down and its unacknowledged units and marker are replayed on another path. -/
  | pathDown
  /-- R427. A peer without any path for 10 ms raises machine checks on waiters and suspends commands. -/
  | peerPathLoss
  /-- R422. A UALink port trains and announces ids, staying down on failure or duplicate id. -/
  | portTraining
  /-- R432. A received PTP message lets the AMC discipline the hardware clock by rate or forward step. -/
  | ptpMessage
  /-- R435. Runs the bring-up sequence from mask ROM to Ready. -/
  | powerOnReset
  /-- R435. A reset requested over the management VLAN runs the bring-up sequence. -/
  | resetRequest
  /-- R439. Raises the rollback floor within the active VERSION, or is refused. -/
  | floorCommand
  /-- R440. Writes an image to the inactive bank, marking it pending only when valid. -/
  | firmwareUpdate
  /-- R441. Returns a dual-signed attestation report for a nonce. -/
  | attestationRequest
  /-- R443. Returns event log entries over the management VLAN. -/
  | eventLogRead
  /-- R446. Programs event counter control words at the end of a clk, zeroing COUNT. -/
  | counterProgram
  /-- R446. Reads a set of a die's event counters at the end of one clk. -/
  | counterRead
  /-- R442. Every 1 ms the AMC reads temperatures, rails and power and applies thresholds. -/
  | sensorPoll
  /-- R101. The spill engine finishes the spills and refills that a stalled CALL, CALLI, CALLS, ENTER, RET or implicit return needs, leaving Needed for Idle and letting the instruction's effect finish. -/
  | spillTransferComplete
  /-- R301. The operand loader finishes a TLD (32 or 64 clk), or a TST or AQNT transfer finishes, so that its slot, record or image is final and scoreboard-held operations may proceed. -/
  | tileTransferComplete
  /-- R139. The background copy of XPUB.sync advances through the buffer, writing the new front into the new shadow and releasing engine writes that wait for it to pass their sector. -/
  | publishSyncCopy
  deriving DecidableEq, Repr

end Sys2Proof
end

