-- ==== Sys2Proof/Machine/State.lean ====
section
/-!
DEFINITION. The state of an HZ-7 module as plain data, and the state after reset.

One team, and its block, stand in focus (`team`, `blk`): an instruction acts on them. Every other team and block
stands in `others` and `blocks`. Which agent moves next is plain data too: `agenda` (log 1). What a step does to the
state is in the other files of Machine/.
-/
namespace Sys2Proof.Machine

/-! ### Kernels and launches -/

/-- A plane-map entry (R61). -/
structure PlaneEntry where
  base : Nat
  len : Nat
  n : Nat
  stride : Nat
  deriving DecidableEq, Repr

/-- A safepoint-table entry (R414); 0xFFFF_FFFF in `save` and `restore` means none. -/
structure SafePoint where
  id : Nat
  off : Nat
  save : Nat
  restore : Nat
  deriving DecidableEq, Repr

/-- The fields of a kernel header that a launch keeps (R60). -/
structure Kernel where
  entry : Nat
  codeSize : Nat
  /-- Lanes per team. -/
  lanes : Nat
  teams : Nat
  /-- Ring size W. -/
  ring : Nat
  maxDepth : Nat
  yieldMax : Nat
  spillSz : Nat
  sstack : Nat
  spad : Nat
  slots : Nat
  accs : Nat
  bars : Nat
  stations : List Nat
  entryStn : Option Nat
  planes : List PlaneEntry
  spawn : Nat
  trapEntry : Option Nat
  safePoints : List SafePoint
  initMode : Word64
  deriving DecidableEq, Repr

/-- A launch descriptor as the CP copied it (R382). -/
structure LaunchDesc where
  khdr : Nat
  rcb : Nat
  gridX : Nat
  gridY : Nat
  gridZ : Nat
  clX : Nat
  clY : Nat
  clZ : Nat
  priv : Bool
  tape : Bool
  items : Nat
  seed : Word64
  privSz : Nat
  ccount : Nat
  ppool : Nat
  ppoolSz : Nat
  spool : Nat
  spoolSz : Nat
  result : Nat
  crec : Nat
  backrec : Nat
  args : List Word64
  deriving DecidableEq, Repr

/-- Who asked for a launch (R379, R387, R389, R390, R374). -/
inductive LaunchSource where
  | queue (q : Nat)
  | graph (q node : Nat)
  | tape (q : Nat)
  | table (slot : Nat)
  | handler (rcb : Nat)
  deriving DecidableEq, Repr

/-- A launch that the CP made ready (R382..R384). -/
structure Launch where
  lid : Nat
  /-- Address of the command or launch descriptor, for the completion record (R381). -/
  source : Nat
  from_ : LaunchSource
  k : Kernel
  d : LaunchDesc
  /-- Partition (top-level region) the queue or graph writes records in. -/
  recRcb : Nat
  /-- Next block, or cluster, to place (R58). -/
  next : Nat
  /-- The launch has become ready; a queue-one firing is made but not ready (R390). -/
  ready : Bool
  /-- Largest STATUS seen so far: 0, 2, 3 or 5 (R381). -/
  status : Nat
  /-- The clk at which the next block began to wait, and whether 100 us have passed (R391). -/
  waitSince : Option Nat
  starved : Bool
  /-- Stamp of the flush that must end before the completion record, a system release, is written (R166, R381). -/
  closing : Option Nat
  /-- Place in the order in which launches became ready (R391). -/
  readySeq : Nat
  /-- Armed sends that its completion discarded (R338, R384). -/
  disc : Nat
  deriving DecidableEq, Repr

/-! ### Faults -/

/-- The faults by name; the code is `Cause.code` (R409). -/
inductive Cause where
  | illegalInstruction | illegalMode | prefixMisuse | lookaheadHazard | planeRange | planeAnchor
  | branchNonuniform | joinStack | illegalConvergence | convMismatch | claimNested | claimRange | slotState
  | windowDepth | windowSpillOverflow | windowArea | windowRange | stack | align | spaceForeign | spaceStale
  | spaceInvalid | pageNotPresent | pagePermission | yieldOverrun | refillDepth | stationInvalid | trapInstruction
  | descriptor | engine | memoryPoison | privilege | machineCheck
  deriving DecidableEq, Repr

/-- A fault raised by a team (R230, R232, R374). -/
structure FaultInfo where
  cause : Cause
  plane : Nat
  lane : Nat
  addr : Word64
  /-- CODE of a TRAP; 0 for a fault. -/
  code : Nat
  /-- Offset where a restart resumes. -/
  restart : Word32
  /-- Raised by a spill transfer: it goes to the fault domain (R104). -/
  spill : Bool
  deriving DecidableEq, Repr

/-- A fault record of a domain's queue (R374). -/
structure FaultRec where
  stamp : Nat
  rcb : Nat
  ticket : Nat
  cause : Nat
  kind : Nat
  restart : Bool
  spill : Bool
  teamId : Nat
  plane : Nat
  body : List Byte
  /-- The team held by the record (KIND 0 and 2), or the command suspended (KIND 1). -/
  uid : Option Nat
  cmd : Option Nat
  /-- The queue in which the record goes, and the page-table root and RID under which it is written: its block's, as placed (R371). -/
  fqSize : Nat
  fqBase : Nat
  fqRoot : Nat
  fqRid : Nat
  deriving DecidableEq, Repr

/-- The fault domain of a block as it was placed: the RCB that defines it, its queue, and its partition's page tables and RID
(R371). -/
structure DomRef where
  rcb : Nat
  fqSize : Nat
  fqBase : Nat
  root : Nat
  rid : Nat
  deriving DecidableEq, Repr

/-- A fault domain (R370, R373, R374), named by the RCB that defines it. -/
structure Domain where
  rcb : Nat
  /-- The RCB defines its domain now; a domain that a REGION modify took away keeps what its queue still owes (R371). -/
  defined : Bool
  /-- The queue and the handler kernel under which its records and launches are made. -/
  fqSize : Nat
  fqBase : Nat
  fdKernel : Nat
  head : Word32
  tail : Word32
  /-- Records that wait for a free slot of the queue, in order of their stamps. -/
  waiting : List FaultRec
  /-- Records written and not yet resolved. -/
  open_ : List FaultRec
  nextTicket : Nat
  handler : Option Nat
  /-- No handler is launched until a REGION modify names the RCB (R374). -/
  barred : Bool
  deriving DecidableEq, Repr

/-! ### The team -/

/-- A register named in a word, for the lookahead check (R183). -/
inductive RegName where
  | v (n : Nat)
  | s (n : Nat)
  | p (n : Nat)
  deriving DecidableEq, Repr

/-- An entry of the reconvergence stack (R73): kind J or P, an offset and a lane mask. -/
structure StackEntry where
  isJoin : Bool
  off : Word32
  mask : Mask
  deriving DecidableEq, Repr

/-- The lanes of a team (R64, R65, R72, R73). A lane's plane number is `plane1`, `plane0` at its bit. -/
structure Lanes where
  active : Mask
  vacant : Mask
  plane0 : Mask
  plane1 : Mask
  /-- Top first. -/
  stack : List StackEntry
  deriving DecidableEq, Repr

/-- A link record (R98). -/
structure LinkRec where
  retOff : Word32
  k : Nat
  cfs : Nat
  cov : Nat
  jd : Nat
  calli : Bool
  tv : Word32
  deriving DecidableEq, Repr

/-- The spill engine's state for one team (R103). -/
inductive SpillState where
  | idle
  | ahead
  /-- The instruction of this word needs transfers (R101, R99). -/
  | needed (word : Nat)
  | faulted
  deriving DecidableEq, Repr

/-- The window of a team (R92) with its on-chip link records, newest first (R99), and the CALLI state (R109). -/
structure Window where
  b : Nat
  fs : Nat
  ov : Nat
  depth : Nat
  lo : Nat
  links : List LinkRec
  cont : Bool
  contLast : Word32
  spill : SpillState
  /-- Granules below B that an early transfer has copied to the spill area, and granules below LO that one has brought into the
  ring (R102). -/
  earlyOut : List Nat
  earlyIn : List Nat
  deriving DecidableEq, Repr

/-- The registers (R89). Vector data is keyed by position × 1,024 + lane, where positions 0..7 are v0..v7 and
8 + r is ring position r (R92); side-bands by position × 64 + group (R91). -/
structure Regs where
  v : SMap Word32
  side : SMap SideBand
  s : SMap Word64
  p : SMap Mask
  deriving DecidableEq, Repr

/-- Special registers a program reads and writes (R235). -/
structure Special where
  mode : Word64
  /-- NV, DZ, OF, UF, NX, IDZ, IOV, SSAT from bit 0 (R55). -/
  sticky : Byte
  srStream : Word64
  ssp : Nat
  dcw : Word64
  isectA : Word64
  isectB : Word64
  deriving DecidableEq, Repr

/-- An open lookahead window (R182..R184). -/
structure LookWindow where
  lid : Nat
  off : Word32
  left : Nat
  dst : List RegName
  src : List RegName
  /-- The long-latency instruction has completed. -/
  done : Bool
  deriving DecidableEq, Repr

/-- Trap registers and hidden trap state (R230, R231). -/
structure Trap where
  cause : Nat
  plane : Nat
  lane : Nat
  inTrap : Bool
  code : Nat
  off : Word64
  addr : Word64
  twr : Bool
  tmask : Mask
  tjd : Nat
  tdep : Nat
  tpl : Nat
  tcont : Bool
  tcontLast : Word32
  /-- The lookahead windows that were open, for the check on restart (R184). -/
  tlooks : List LookWindow
  /-- A plane issue at the faulting offset had rounded stochastically: COUNT still has to advance there (R46). -/
  tsr : Bool
  deriving DecidableEq, Repr

/-- A register write that returned load data makes (R277). -/
inductive RegWrite where
  | v (pos lane : Nat) (x : Word32)
  | side (pos group : Nat) (x : SideBand)
  | s (n : Nat) (x : Word64)
  deriving DecidableEq, Repr

/-- A long-latency instruction whose data has not returned (R182, R277). -/
structure Load where
  lid : Nat
  off : Word32
  writes : List RegWrite
  /-- Faulting lane and address when the data holds an uncorrectable error (R184, R277). -/
  poison : Option (Nat × Word64)
  plane : Nat
  deriving DecidableEq, Repr

/-- The states of a bound operand slot (R298). -/
inductive SlotKind where
  | zero | dense | decomposed | structured
  deriving DecidableEq, Repr

/-- A bound operand slot: its effective tile (R298), its record (R307) and the idle count of R306. -/
structure Slot where
  kind : SlotKind
  /-- Code of element k of line i, at 128·i + k. -/
  codes : SMap Nat
  /-- Scale byte of block b of line i, at 8·i + b; none under BLK 2 or for 16-bit data. -/
  scales : SMap Nat
  /-- Format word, or 16-bit type code. -/
  fmt : Nat
  kc : Nat
  word0 : Word64
  word1 : Word64
  word2 : Word64
  word3 : Word64
  idle : Nat
  deriving DecidableEq, Repr

/-- A tile is keyed by 32·row + column (R295). -/
abbrev Tile := SMap Word32

/-- A matrix step that has begun (R312): the destination name in this team's claims and the operand pairs of its chunks. -/
structure StepInFlight where
  acc : Nat
  fromZero : Bool
  /-- The teams and slot names whose operands the step reads (R297, R410). -/
  reads : List (Nat × Nat)
  chunks : List (Slot × Slot)
  deriving DecidableEq, Repr

/-- A sector that a transfer writes: the bits of data and side-band that the masks select. -/
structure ImageSector where
  off : Nat
  data : BitVec 512
  mask : BitVec 512
  side : SideBand
  sideMask : SideBand
  deriving DecidableEq, Repr

/-- A transfer of the operand loader that has been issued (R301, R308, R319). -/
inductive TileTransfer where
  | load (name : Nat) (slot : Slot)
  /-- Sector writes into the scratchpad of a block, and the flags of an AQNT. -/
  | image (bid : Nat) (sectors : List ImageSector) (flags : Byte)
  deriving DecidableEq, Repr

/-- Membership of a convocation (R83). -/
structure Member where
  cv : Nat
  index : Nat
  step : Nat
  deriving DecidableEq, Repr

/-- The matrix side of a team (R295, R416). -/
structure Matrix where
  slots : List (Nat × Slot)
  tiles : List (Nat × Tile)
  member : Option Member
  steps : List StepInFlight
  transfers : List TileTransfer
  deriving DecidableEq, Repr

/-- What a Waiting team awaits (R86). -/
inductive Wait where
  | barrier (cluster : Bool) (id : Nat) (pS : Nat)
  /-- A PBWAIT: the object's place, the phase awaited, the status predicate, and the address that the word gave. -/
  | phase (bid off : Nat) (x : Word32) (pS : Nat) (addr : Word64)
  | conv (cv n mode : Nat)
  | claim (slots : Bool) (first count status : Nat)
  | counter (dst : Nat) (sel : Nat) (threshold : Nat)
  | spawnRoom (mask : Mask) (station : Nat)
  | step (word : Nat)
  | reclaim
  /-- The threshold of an XWAIT was met while the team was swapped or suspended: it goes on once it is back (R419). -/
  | counterMet (dst status : Nat)
  /-- The phase of a PBWAIT completed while the team was swapped or suspended, poisoned or not (R88, R420). -/
  | phaseMet (pS : Nat) (pois : Bool)
  /-- A CONV refused while the team was suspended in it: CONV_MISMATCH is raised once it is back (R83, R417). -/
  | mismatch
  /-- The call of the restore routine faulted: it is made again when the team restarts (R415). -/
  | restore
  deriving DecidableEq, Repr

/-- Bytes of a block's scratchpad that an operation touches: from offset `lo` up to `hi`, and whether it writes them (R158). -/
structure LocalUse where
  lo : Nat
  hi : Nat
  write : Bool
  deriving DecidableEq, Repr

/-- What a Stalled team is held by (R86); the model keeps the stalls that another agent ends. -/
inductive Stall where
  | spill
  /-- Held at issue by an operand, the scoreboard or a lookahead window, for a word of this OP, which touches these parts of its
  block's scratchpad (R158, R182). -/
  | issue (op : Nat) (uses : List LocalUse)
  | leave (copy : Bool) (n : Nat)
  | flush (stamp : Nat)
  | arrive (cluster : Bool) (id : Nat)
  /-- Earlier commands of the team still write a double-backed buffer (R339). -/
  | publish (cmds : List Nat)
  /-- The copy engine queue of the core is full (R320). -/
  | queue
  /-- The triggered-send table is full (R338). -/
  | table
  deriving DecidableEq, Repr

/-- The states of R86. A swapped team's former state stands in the hearth record. -/
inductive Phase where
  | ready
  | stalled (w : Stall)
  | waiting (w : Wait)
  | held
  | suspended
  | swapped
  | ended
  deriving DecidableEq, Repr

/-- What a save or restore routine comes back to when a request is taken inside it (R415). -/
structure Routine where
  resOff : Word32
  smask : Mask
  saving : Option Nat
  restoring : Option Nat
  wait : Option (Wait × Option Nat)
  routine : Option Nat
  ctx : Nat
  seq : Nat
  deriving DecidableEq, Repr

/-- Pre-emption state (R412, R415, R416). -/
structure Preempt where
  pending : Bool
  resOff : Word32
  smask : Mask
  /-- Depth whose return ends the save routine (R415). -/
  saving : Option Nat
  /-- Depth whose return ends the restore routine. -/
  restoring : Option Nat
  /-- The names of the saved claim set (slots, tiles). -/
  savedSlots : List Nat
  savedTiles : List Nat
  /-- The wait the team was in when suspended, with its remaining clk, to be taken up again. -/
  wait : Option (Wait × Option Nat)
  /-- The restore routine of the safepoint where the team was suspended. -/
  routine : Option Nat
  /-- Bytes of the context pool that the team's context takes (R413). -/
  ctx : Nat
  /-- The routines in which this request was taken, innermost first. -/
  outer : List Routine
  /-- The wait in which a save call faulted: it is taken up again when the team restarts, its arrival not made again (R415). -/
  held : Option (Wait × Option Nat)
  /-- That wait while the team's trap handler runs, which received the fault (R230). -/
  trapped : Option (Wait × Option Nat)
  /-- The model's own: `engSeq` where the request was taken, or the restore routine called; what the routine queues counts from
  there on its own (log 104). -/
  seq : Nat
  deriving DecidableEq, Repr

/-- One team (R57, R63, R416). -/
structure Team where
  /-- The model's own name for the team. -/
  uid : Nat
  bid : Nat
  lid : Nat
  /-- TEAMID, TEAMINBLOCK (R235). -/
  teamId : Nat
  tib : Nat
  size : Nat
  core : Nat
  section_ : Nat
  /-- Runs at system level (R367). -/
  system : Bool
  /-- RCB address and partition RCB of the team's region. -/
  rcb : Nat
  phase : Phase
  pc : Word32
  /-- The next plane issue at `pc` (R71). -/
  nextPlane : Nat
  lanes : Lanes
  win : Window
  regs : Regs
  sp : Special
  trap : Trap
  looks : List LookWindow
  loads : List Load
  nextLoad : Nat
  /-- Armed YIELD deadline and instructions issued since (R226). -/
  deadline : Option (Nat × Nat)
  /-- Phase of the latest arrival at each block and cluster barrier (R288). -/
  barA : SMap Nat
  cbarA : SMap Nat
  /-- Waiting clk still allowed to a timed wait (R290). -/
  timeout : Option Nat
  mat : Matrix
  pre : Preempt
  /-- The fault that holds the team, and its ticket once a record is written (R374). -/
  fault : Option FaultInfo
  /-- FDSTAT and FDARG (R368). -/
  fdStat : Word64
  fdArg : Word64
  /-- Advance requests and granted tokens of leave (R228, R395). -/
  reqSteps : Nat
  reqCopy : Nat
  tokSteps : Nat
  tokCopy : Nat
  /-- The PC of a word that stalled for leave and was granted it: the word issues (R395). -/
  granted : Option Word32
  /-- The spill area's size: SPILLSZ, or what FDACT action 2 made it (R375). -/
  spillSz : Nat
  spillBase : Nat
  /-- What FDACT action 2 added: from each offset on, the virtual address where it lies (R375, log 88). -/
  spillExt : List (Nat × Nat)
  /-- Word w of the scalar stack (R113). -/
  sstack : SMap Word64
  /-- Buffers (by BASE) that a poisoned command of this team wrote since its last XPUB of them (R339). -/
  badBuffers : List Nat
  /-- The section's issue order (R394): one more than the clk of the team's last issue, 0 before its first; whether that was in slot A;
  and when its block was placed. -/
  lastIssue : Nat
  lastSlotA : Bool
  placed : Nat
  /-- A plane issue at this offset advances SRSTREAM.COUNT after the last plane issue (R46). -/
  srDue : Bool
  /-- The model's own: engine commands and armed sends that the team has issued, by which values left open are told apart (log 104). -/
  engSeq : Nat
  /-- The instruction issued last is FENCE.rel or FENCE.ar (R152). -/
  fenced : Bool
  /-- A machine check that came while the team was suspended or swapped, with its ADDR: it is raised once the team is back
  (R87, R410). -/
  check : Option Nat
  deriving DecidableEq, Repr

/-! ### Regions -/

/-- A Region Control Block as the CP cached it (R369, R371). -/
structure Region where
  rcb : Nat
  parent : Nat
  ptroot : Nat
  ovr : Nat
  prio : Nat
  priv : Bool
  cgmask : Nat
  rid : Nat
  lanes : Nat
  spadKb : Nat
  slotCap : Nat
  accCap : Nat
  hbmSh : Nat
  linkSh : Nat
  pwrSh : Nat
  acBase : Nat
  acCount : Nat
  fqSize : Nat
  fdKernel : Nat
  fqBase : Nat
  deriving DecidableEq, Repr

/-! ### Blocks, clusters, convocations -/

/-- A spawn record (R77). -/
structure SpawnRec where
  /-- v0..v15 of the lane; a word beyond the frame was written as zero. -/
  words : List Word32
  p1 : Bool
  p2 : Bool
  p3 : Bool
  plane : Nat
  stn : Nat
  deriving DecidableEq, Repr

/-- A member's issue that waits for its step (R84). -/
structure StepIssue where
  uid : Nat
  word : Nat
  deriving DecidableEq, Repr

/-- A convocation, forming or formed (R82..R85). -/
structure Convocation where
  cv : Nat
  n : Nat
  mode : Nat
  formed : Bool
  dissolved : Bool
  /-- Teams that wait for it to form, or its members in ascending section order. -/
  members : List Nat
  /-- A member ended or was ended by its fault domain (R85). -/
  broken : Bool
  issues : List StepIssue
  deriving DecidableEq, Repr

/-- One resident block (R57..R59, R118..R122, R288, R326, R385, R392). -/
structure Block where
  bid : Nat
  lid : Nat
  cid : Nat
  /-- Linear index and coordinates. -/
  index : Nat
  x : Nat
  y : Nat
  z : Nat
  rank : Nat
  tag : Nat
  /-- The core, or the even core of the twin pair. -/
  core : Nat
  twin : Bool
  rcb : Nat
  k : Kernel
  d : LaunchDesc
  pbase : Nat
  /-- Pool slots taken (R385). -/
  privSlot : Option Nat
  spillSlot : Option Nat
  /-- Program-addressable scratchpad bytes, side-bands by sector, poisoned sectors. -/
  spad : List Host.Cell
  spadSide : SMap SideBand
  spadPoison : List Nat
  /-- Records of each station, oldest first (R78). -/
  spawn : List SpawnRec
  fresh : Nat
  /-- Completed phases of the block barriers, and arrivals in the current phase by team. -/
  barC : SMap Nat
  barArr : List (Nat × Nat)
  counters : SMap Nat
  /-- Teams waiting for slots, then for tiles, in the order of R296, each with the clk of its issue. -/
  slotQueue : List (Nat × Nat)
  tileQueue : List (Nat × Nat)
  convs : List Convocation
  /-- Every team has ended. -/
  ended : Bool
  /-- In shadow storage (R418). -/
  swapped : Bool
  /-- The effective values of its region, the RID of its partition, and its fault domain, when it was placed (R371). -/
  eff : Option Region
  prid : Nat
  dom : Option DomRef
  /-- Effective PWRSH of its region and of those above it, up to the partition, when it was placed (R371, R396). -/
  pwr : List Nat
  deriving DecidableEq, Repr

/-- One resident cluster (R57, R118, R288). -/
structure Cluster where
  cid : Nat
  lid : Nat
  index : Nat
  tag : Nat
  group : Nat
  size : Nat
  /-- The cores on which it holds its tag until it ends (R118). -/
  cores : List Nat
  barC : SMap Nat
  barArr : List (Nat × Nat)
  deriving DecidableEq, Repr

/-! ### Engine commands -/

/-- A buffer descriptor (R130..R132). -/
structure Desc where
  base : Word64
  dim0 : Nat
  dim1 : Nat
  dim2 : Nat
  dim3 : Nat
  stride1 : Nat
  stride2 : Nat
  stride3 : Nat
  owner : Nat
  fmt : Nat
  elem : Nat
  flags : Nat
  policy : Nat
  reserved : Nat
  gen : Nat
  stream : Nat
  deriving DecidableEq, Repr

/-- A send as NSEND and a fired TSEND make it (R337). -/
structure Send where
  /-- Source descriptor, when it was read at issue. -/
  src : Option Desc
  /-- Its address, read at firing (R338); 0: none. -/
  srcAddr : Word64
  /-- Immediate payload: two sectors with their side-bands. -/
  imm : Option (List (BitVec 512 × SideBand))
  peer : Nat
  cen : Bool
  cc : Nat
  rinc : Bool
  rcnt : Nat
  dev : Nat
  deriving DecidableEq, Repr

/-- What an engine command does (R330, R333, R335, R336, R337). -/
inductive CmdKind where
  | copy (dsts : List Desc) (src : Desc) (tr : Bool)
  | gather (dst src index : Desc)
  | scatter (dst src index : Desc)
  | reduce (dst : Desc) (contribs : List Desc)
  /-- Device ids named; the peers still to acknowledge stand in the flush. -/
  | flush (all : Bool) (bitmap : BitVec 1024)
  | send (s : Send)
  deriving DecidableEq, Repr

/-- Progress of a command (R323, R325, R332); `sent`: its units for peers have left, refusals may still come (R425). -/
inductive CmdStatus where
  | queued | running | sent | suspended
  /-- All its work is done: the increment of its arrival counter, a release, waits for the flush of this stamp (R161). -/
  | releasing (stamp : Nat)
  deriving DecidableEq, Repr

/-- Part of a row: offset in the row, bytes, and the side-band of a native sector. -/
structure RowPart where
  off : Nat
  bytes : List Byte
  side : Option Nat
  deriving DecidableEq, Repr

/-- A piece of a destination row, in one sector: its address, its bytes, the side-band of a native sector, and the source bytes that it
depends on, as spans of addresses. -/
structure RowPiece where
  addr : Nat
  bytes : List Byte
  side : Option Nat
  deps : List (Nat × Nat)
  deriving DecidableEq, Repr

/-- A destination row whose source has been read: its number, its pieces in order, and the flags of its data. -/
structure ReadRow where
  row : Nat
  pieces : List RowPiece
  flags : Byte
  deriving DecidableEq, Repr

/-- Where a destination walk goes on (R332): its destination, its row with the units finished before that row, the running checksum of
all units finished, the checksum of an earlier destination, and the rows from that row on whose source has been read, which a
restart does not read again: its values equal those of an unbroken run (R12). -/
structure EngMark where
  walk : Nat
  row : Nat
  idx : Nat
  crc : Nat
  crc0 : Option Nat
  kept : List ReadRow
  deriving DecidableEq, Repr

/-- One engine command that has not completed (R320..R325). -/
structure Cmd where
  id : Nat
  uid : Nat
  bid : Nat
  lid : Nat
  rcb : Nat
  core : Nat
  teamId : Nat
  system : Bool
  seed : Word64
  off : Word32
  op : Nat
  kind : CmdKind
  /-- Control word and addresses of the control group (R321, R322). -/
  ctl : Word64
  pbAddr : Word64
  recAddr : Word64
  status : CmdStatus
  /-- Destination sectors complete (R332). -/
  done : Nat
  flags : Byte
  poisoned : Bool
  /-- CAUSE and ADDR of the record when the command completes, and those of the suspension it is in (R324). -/
  cause : Nat
  addr : Word64
  stopCause : Nat
  stopAddr : Word64
  /-- CRC of the destination, for the record (R324). -/
  crc : Nat
  /-- Fired by a TSEND entry, or the CP's own COPY of this queue. -/
  fired : Bool
  cpQueue : Option Nat
  /-- Where a restart goes on, and whether the source failed its checksum, once that is known (R332, R162). -/
  mark : EngMark
  loose : Option Bool
  /-- OWNER entries read so far, by address (R136). -/
  owners : List (Nat × Nat)
  /-- Table rows that the window of 4,096 list positions under way has read: its number, and each index's parts (R334). -/
  window : Nat × List (Nat × List RowPart)
  /-- Peer addresses that were refused (R425). -/
  refused : List Nat
  /-- The flush that an XFLUSH waits for, and the peers that it waited on when it started (R166, R336). -/
  flushing : Option Nat
  peers : List Nat
  /-- Stamps of the units that have left for peers (R166). -/
  sentUnits : List Nat
  /-- What it reads and writes of its block's scratchpad, as its descriptors said at issue (R158). -/
  uses : List LocalUse
  /-- The fault domain of its block, the effective values of its region and the RID of its partition, when that was placed
  (R371). -/
  dom : Option DomRef
  eff : Option Region
  prid : Nat
  /-- The model's own: launch and command, as two runs of the launch name them alike (log 104). -/
  key : List Nat
  deriving DecidableEq, Repr

/-- A command that has not started, apart from what its issue decides. -/
def Cmd.fresh : Cmd :=
  { id := 0, uid := 0, bid := 0, lid := 0, rcb := 0, core := 0, teamId := 0, system := false, seed := 0, off := 0, op := 0
    kind := .flush false 0, ctl := 0, pbAddr := 0, recAddr := 0, status := .queued, done := 0, flags := 0
    poisoned := false, cause := 0, addr := 0, stopCause := 0, stopAddr := 0, crc := 0, fired := false, cpQueue := none
    mark := { walk := 0, row := 0, idx := 0, crc := 0xFFFFFFFF, crc0 := none, kept := [] }, loose := none, owners := []
    window := (0, []), refused := [], flushing := none, peers := [], sentUnits := [], uses := []
    dom := none, eff := none, prid := 0, key := [] }

/-- An armed triggered send (R338). -/
structure Armed where
  counter : Nat
  threshold : Nat
  srcAddr : Word64
  peer : Nat
  word : Word64
  uid : Nat
  bid : Nat
  lid : Nat
  rcb : Nat
  teamId : Nat
  system : Bool
  core : Nat
  seed : Word64
  off : Word32
  dom : Option DomRef
  eff : Option Region
  prid : Nat
  key : List Nat
  deriving DecidableEq, Repr

/-- A publish-table entry as its 64 bytes read (R403). -/
structure PubEntry where
  vbase : Nat
  size : Nat
  pa0 : Nat
  pa1 : Nat
  rid : Nat
  front : Bool
  linked : Bool
  gen : Word32
  link : Nat
  deriving DecidableEq, Repr

/-! ### The CP -/

/-- A node of a running graph (R386, R387). -/
structure GraphNode where
  kind : Nat
  npred : Nat
  resNode : Nat
  ld : Nat
  succ : List Nat
  count : Nat
  /-- Some predecessor ran. -/
  anyRan : Bool
  /-- 0 not settled, 1 running, 2 ran and finished, 3 skipped. -/
  st : Nat
  posted : Word64
  status : Nat
  deriving DecidableEq, Repr

/-- What a queue's running command still has to do (R379). -/
inductive RunCmd where
  | launch
  | graph (nodes : List GraphNode)
  | tape (rest : List Nat) (status : Nat)
  | copy (cmd : Nat)
  | signalWait (counter threshold : Nat)
  /-- A SIGNAL set or add whose release waits for the flush of this stamp. -/
  | signalPost (flush counter value : Nat) (add : Bool)
  /-- The command is over; its record, a release at system scope, waits for the flush of this stamp. -/
  | closing (flush status detail disc result : Nat)
  deriving DecidableEq, Repr

/-- A queue control entry (R377) and the command that runs (R378). -/
structure Queue where
  base : Nat
  size : Nat
  head : Word32
  tail : Word32
  region : Nat
  running : Option RunCmd
  /-- CREC of the running command (R379). -/
  crec : Nat
  deriving DecidableEq, Repr

/-- A loaded slot of the time table (R390). -/
structure TimeSlot where
  start : Nat
  period : Nat
  ld : Nat
  rule : Nat
  /-- Next firing number m. -/
  m : Nat
  /-- Disabled slots keep their launches. -/
  on : Bool
  /-- Region and level of the queue whose TABLE command loaded it. -/
  rcb : Nat
  system : Bool
  deriving DecidableEq, Repr

/-- A core group in shadow storage (R418): its old number and the phases its teams held. -/
structure Hearth where
  die : Nat
  group : Nat
  phases : List (Nat × Phase)
  deriving DecidableEq, Repr

/-! ### Links and the AMC -/

/-- A message the device sends to a peer (R423..R426). An increment carries the stamps of the units it follows (R337). A marker
bears the number of the path that it was made for, and travels on a path, `on`, which changes when it is replayed (R426). -/
inductive LinkMsg where
  | unit (dev : Nat) (u : RemoteUnit)
  | increment (dev path rid counter stamp : Nat) (units : List Nat)
  | marker (dev path on stamp : Nat)
  | ack (dev stamp : Nat)
  | refusal (dev va : Nat)
  | readReply (dev va : Nat) (data : BitVec 512) (side : SideBand)
  deriving DecidableEq, Repr

/-- A flush in progress (R426). -/
structure Flush where
  stamp : Nat
  left : List Nat
  cmd : Option Nat
  uid : Option Nat
  /-- A peer was left without a path for 10 ms: the flush never completes (R427). -/
  lost : Bool
  deriving DecidableEq, Repr

/-- An event-log entry (R443): stamp, unit, severity, code and 52 bytes of data. -/
structure LogEntry where
  stamp : Nat
  unit : Nat
  severity : Nat
  code : Nat
  data : BitVec 416
  deriving DecidableEq, Repr

/-- Module status (R435, R442). -/
inductive ModuleStatus where
  | ready | recovery | down
  deriving DecidableEq, Repr

/-- State of a firmware bank (R440). -/
inductive BankState where
  | empty | pending | active | standby
  deriving DecidableEq, Repr

/-- A firmware bank of the flash (R440): its state, its failed tries while pending, and the image written to it. -/
structure Bank where
  st : BankState
  tries : Nat
  image : List Byte
  deriving DecidableEq, Repr

/-- The configuration record's fields (R437). -/
structure ConfigRec where
  idHash : List Byte
  device : Nat
  mvlan : Nat
  cgen : Nat
  pwrLim : Nat
  ctxBase : Nat
  ctxSize : Nat
  stepMax : Nat
  copyMax : Nat
  tWarn : Nat
  tThr : Nat
  tCrit : Nat
  skuCg : Nat
  skuPort : Nat
  skuClk : Nat
  ptpDom : Nat
  sq0 : Queue
  sq1 : Queue
  repair : List Byte
  /-- The home table: the slice of each of 1,024 hashes (R438). -/
  home : List Nat
  deriving DecidableEq, Repr

/-- An attestation report (R441), the signatures apart, with the certificates that are sent with it. -/
structure Report where
  nonce : Nat
  version : Nat
  standby : Nat
  floor : Nat
  device : Nat
  ptpTime : Nat
  stamp : Nat
  idHash : List Byte
  cfgHash : List Byte
  certs : List (List Byte)
  deriving DecidableEq, Repr

/-- What module flash holds beside the banks and the floor (R437, R441, R443). -/
structure Flash where
  /-- The signed configuration record. -/
  record : List Byte
  /-- The two identity public keys, and their certificates. -/
  rsaKey : List Byte
  slhKey : List Byte
  rsaCert : List Byte
  slhCert : List Byte
  /-- The mirror of the event log. -/
  mirror : List LogEntry
  deriving DecidableEq, Repr

/-- A unit applied: source, sector, stamp, the data bytes it wrote, and whether the side-band (R165, R424). -/
structure Applied where
  src : Nat
  sec : Nat
  stamp : Nat
  bytes : BitVec 64
  withSide : Bool
  deriving DecidableEq, Repr

/-- A remote increment that has arrived, passed its checks and waits for its payload to settle (R337, R425). -/
structure PendingInc where
  src : Nat
  counter : Nat
  stamp : Nat
  units : List Nat
  deriving DecidableEq, Repr

/-- A completion record that waits for its flush: a release at system scope (R381). -/
structure PendingRecord where
  flush : Nat
  rcb : Nat
  crec : Nat
  source : Nat
  status : Nat
  detail : Nat
  deriving DecidableEq, Repr

/-- The management controller (R435..R446). -/
structure Amc where
  status : ModuleStatus
  bankA : Bank
  bankB : Bank
  floor : Nat
  flash : Flash
  /-- The update session that is open: who opened it, and the bytes received (R440). -/
  session : Option (Nat × List Byte)
  /-- Newest first, at most 65,536 (R443). -/
  log : List LogEntry
  cfg : ConfigRec
  /-- Each die's power limit as parts of 1,024 of its maximum (R442). -/
  power0 : Nat
  power1 : Nat
  /-- The latest reading (R442). -/
  sensors : Option SensorReading
  reports : List Report
  /-- Event counters: unit × 32 + index, with units 0..191 cores and 192, 193 dies; count and control (R444). -/
  evCount : SMap Nat
  evCtl : SMap Nat
  /-- Replies of the management services and the host port, newest first. -/
  counterReply : List Nat
  logReply : List LogEntry
  rdmaReply : List (Option (List Byte))
  deriving DecidableEq, Repr

/-- A cached translation (R402). -/
structure TlbEntry where
  /-- Core 0..191, or 192 + a die. -/
  holder : Nat
  /-- A leaf, or an entry of a table above the leaves that a walker keeps. -/
  leaf : Bool
  rid : Nat
  va : Nat
  /-- Bytes that the entry maps as a power of two: 16, 26 or 36, for a table above also 46. -/
  bits : Nat
  pte : Nat
  deriving DecidableEq, Repr

/-- Hub, link and cache state of the module. -/
structure Hub where
  arrival : SMap Nat
  armed : List Armed
  /-- The bytes of the publish window (R399, R403). -/
  publish : SMap Byte
  /-- Entries with a background copy under way, and the sectors it has passed (R139). -/
  syncs : List (Nat × Nat)
  dropped : SMap Nat
  stampLast : Nat
  ptp : Nat
  ptpLocked : Bool
  /-- Held at -500 ppm until this time is reached (R432). -/
  ptpHold : Nat
  ports : BitVec 16
  /-- Peers written since the last flush (R166). -/
  written : List Nat
  flushes : List Flush
  out : List LinkMsg
  /-- Units applied or refused, by source and sector, newest first (R165, R424). -/
  applied : List Applied
  /-- Stamps of units that have settled at this device, by source (R337, R425). -/
  settled : List (Nat × Nat)
  /-- Increments that wait for their payload, and those already made or refused: source and stamp (R337). -/
  incs : List PendingInc
  incSeen : List (Nat × Nat)
  /-- Peers left with no path for 10 ms: what is written to them waits (R427). -/
  pathless : List Nat
  /-- Markers seen: (source, stamp, path) (R426). -/
  markers : List (Nat × Nat × Nat)
  deriving DecidableEq, Repr

/-- How the L2 holds a line (R142): in the stream replacement class it is the first to go after its first use. -/
inductive LineClass where
  | normal
  | stream (used : Bool)
  deriving DecidableEq, Repr

/-- A line of the L2 (R21): its number, its class, whether its page has the C bit (R140), whether it has been written there, and
whether it stands there as it came from HBM, not yet expanded (R141). -/
structure CacheLine where
  line : Nat
  cls : LineClass
  c : Bool
  dirty : Bool
  packed : Bool := false
  deriving DecidableEq, Repr

/-- Hidden metadata of a line in HBM (R140). -/
structure Coded where
  line : Nat
  selector : Nat
  granules : Nat
  deriving DecidableEq, Repr

/-- Cache state; it decides no value but for a stale translation (R402) and a reserved selector (R140). -/
structure Caches where
  /-- (core, line), newest first, at most 1,024 of a core (R18). -/
  l1 : List (Nat × Nat)
  /-- Newest first, at most 8,192 of a slice (R21). -/
  l2 : List CacheLine
  /-- Lines whose last engine write came through a descriptor with CMP = 1 (R140). -/
  cmp : List Nat
  /-- Lines whose metadata names another encoding than raw. -/
  coded : List Coded
  tlb : List TlbEntry
  deriving DecidableEq, Repr

/-! ### The issue in progress, events, the whole module -/

/-- What an issue acts on: set by the step before it runs an instruction (log 3). -/
structure Issue where
  /-- The lanes of this plane issue (R70). -/
  lanes : Mask
  plane : Nat
  pfx : Option Prefix
  /-- 4, or 8 for a prefixed pair (R171). -/
  len : Nat
  /-- The next plane to issue at this offset, if one is left. -/
  next : Option Nat
  /-- Offset of the long-latency instruction whose window the instruction would breach (R183). -/
  hazard : Option Word32
  /-- The word, for the comparison of convocation members (R84). -/
  word : Nat
  deriving DecidableEq, Repr

/-- What the outside world, or a unit, supplies with an event. Each event's meaning says which fields it reads. -/
structure EventArg where
  /-- A core, command, launch, block, queue, slot, die, entry, port, counter unit or RCB. -/
  id : Nat := 0
  /-- A region id, source or peer device, or second name. -/
  rid : Nat := 0
  addr : Nat := 0
  len : Nat := 0
  value : Nat := 0
  flag : Bool := false
  bytes : List Byte := []
  pairs : List (Nat × Nat) := []
  unit : Option RemoteUnit := none
  err : StorageError := .hub
  boot : BringUp := ⟨true, 0xFFF#12, 0xFFFF#16⟩
  sensor : SensorReading := ⟨[], [], [], 0⟩
  /-- The VLAN that a management frame came in (R431). -/
  vlan : Nat := 0
  deriving DecidableEq, Repr

/-- One turn of the agenda (log 1). -/
inductive Turn where
  /-- The team of this uid issues its next instruction. -/
  | issue (uid : Nat)
  /-- An event happens, with the team of this uid in focus if there is one. -/
  | event (uid : Nat) (e : Instr) (arg : EventArg)
  deriving DecidableEq, Repr

/-- The state of the module. -/
structure State where
  /-- The team and block in focus. -/
  team : Team
  blk : Block
  others : List Team
  blocks : List Block
  clusters : List Cluster
  launches : List Launch
  cmds : List Cmd
  regions : List Region
  domains : List Domain
  queues : List (Nat × Queue)
  tapes : List (Nat × List (Nat × Nat))
  slots : List (Nat × TimeSlot)
  hearths : List Hearth
  halted : List Nat
  /-- The core group that the CP has chosen to swap out (R418). -/
  swapping : Option Nat
  cursor : Nat
  /-- The region that placed a block last at each PRIO, for the round-robin of R391. -/
  rrRegion : SMap Nat
  /-- Completion records that wait for a flush (R381). -/
  records : List PendingRecord
  /-- Matrix steps each core has used of its free window allowance (R395). -/
  freeSteps : SMap Nat
  /-- Tokens granted beyond a region's budget (R396), at 4 · RCB + 2 · die + kind. -/
  leaveDebt : SMap Nat
  hub : Hub
  amc : Amc
  caches : Caches
  /-- HBM bytes by physical address, side-bands by sector, poisoned sectors. -/
  mem : List Host.Cell
  memSide : SMap SideBand
  poison : List Nat
  clk : Nat
  /-- Leave windows whose boundary has been handled: the windows end every 1,750 clk (R395). -/
  leaveWin : Nat
  /-- Names handed out to objects the model makes. -/
  nextId : Nat
  /-- The model's own: issues made so far, for the order of last issues (R394). -/
  issued : Nat
  /-- The model's own: index of the next free value (log 2). -/
  free : Nat
  /-- The model's own: an event of this step ends its clk, so the next step takes at least one (R290, R353). -/
  lastOfClk : Bool
  iss : Issue
  arg : EventArg
  agenda : List Turn
  deriving DecidableEq, Repr

/-- Why the machine stops with a fault of the model. The faults of the HZ-7 itself are taken as the spec describes
(Machine/Ops.lean, `takeFault`) and are next states. -/
inductive Fault where
  /-- Raised by `step` when the module has been shut down at TCRIT and its agenda holds no turn, so no reset either (R442:
  "the module stays down until a reset"). Safe: a stuck state where nothing of the module runs. -/
  | shutDown
  deriving DecidableEq, Repr

/-- Why an instruction has no meaning. -/
inductive Refusal where
  /-- Raised by an arm of `exec` whose instruction has no meaning yet. Safe: nothing can be proved about it. -/
  | notModelled (mnemonic : String)
  deriving DecidableEq, Repr

/-! ### Reset -/

/-- A queue that is disabled: SIZE 0 (R377). -/
def Queue.disabled : Queue :=
  { base := 0, size := 0, head := 0, tail := 0, region := 0, running := none, crec := 0 }

/-- A header of no kernel; a placeholder in `Team.absent` and `Block.absent`. -/
def Kernel.absent : Kernel :=
  { entry := 0, codeSize := 0, lanes := 32, teams := 1, ring := 32, maxDepth := 0, yieldMax := 0, spillSz := 0,
    sstack := 0, spad := 0, slots := 0, accs := 0, bars := 0, stations := [], entryStn := none, planes := [],
    spawn := 0, trapEntry := none, safePoints := [], initMode := 0 }

/-- A descriptor of no launch. -/
def LaunchDesc.absent : LaunchDesc :=
  { khdr := 0, rcb := 0, gridX := 0, gridY := 0, gridZ := 0, clX := 0, clY := 0, clZ := 0, priv := false,
    tape := false, items := 0, seed := 0, privSz := 0, ccount := 0, ppool := 0, ppoolSz := 0, spool := 0,
    spoolSz := 0, result := 0, crec := 0, backrec := 0, args := [] }

/-- The start values of R63 that no header or placement decides. -/
def Team.absent : Team :=
  { uid := 0, bid := 0, lid := 0, teamId := 0, tib := 0, size := 32, core := 0, section_ := 0, system := false,
    rcb := 0, phase := .ended, pc := 0, nextPlane := 0,
    lanes := { active := 0, vacant := 0, plane0 := 0, plane1 := 0, stack := [] },
    win := { b := 0, fs := 0, ov := 0, depth := 0, lo := 0, links := [], cont := false, contLast := 0, spill := .idle,
             earlyOut := [], earlyIn := [] },
    regs := { v := [], side := [], s := [], p := [] },
    sp := { mode := 0, sticky := 0, srStream := 0, ssp := 0, dcw := 0, isectA := 0, isectB := 0 },
    trap := { cause := 0, plane := 0, lane := 0, inTrap := false, code := 0, off := 0, addr := 0, twr := false,
              tmask := 0, tjd := 0, tdep := 0, tpl := 0, tcont := false, tcontLast := 0, tlooks := [], tsr := false },
    looks := [], loads := [], nextLoad := 0, deadline := none, barA := [], cbarA := [], timeout := none,
    mat := { slots := [], tiles := [], member := none, steps := [], transfers := [] },
    pre := { pending := false, resOff := 0, smask := 0, saving := none, restoring := none, savedSlots := [],
             savedTiles := [], wait := none, routine := none, ctx := 0, outer := [], held := none, trapped := none, seq := 0 },
    fault := none, fdStat := 0, fdArg := 0, reqSteps := 0, reqCopy := 0, tokSteps := 0, tokCopy := 0, granted := none, spillSz := 0,
    spillBase := 0, spillExt := [], sstack := [], badBuffers := [], lastIssue := 0, lastSlotA := false, placed := 0, srDue := false,
    engSeq := 0, fenced := false, check := none }

/-- No block: what stands in focus while no team is resident. -/
def Block.absent : Block :=
  { bid := 0, lid := 0, cid := 0, index := 0, x := 0, y := 0, z := 0, rank := 0, tag := 0, core := 0, twin := false,
    rcb := 0, k := .absent, d := .absent, pbase := 0, privSlot := none, spillSlot := none, spad := [],
    spadSide := [], spadPoison := [], spawn := [], fresh := 0, barC := [], barArr := [], counters := [],
    slotQueue := [], tileQueue := [], convs := [], ended := true, swapped := false, eff := none,
    prid := 0, dom := none, pwr := [] }

/-- The configuration record the model assumes in flash (DESIGN CHOICE, log 4). -/
def ConfigRec.assumed : ConfigRec :=
  { idHash := List.replicate 48 0, device := 0, mvlan := 1, cgen := 0xFFF, pwrLim := 2300, ctxBase := 0x8F00000000
    ctxSize := 0x100000000, stepMax := 0x100000, copyMax := 0x100000, tWarn := 85, tThr := 95, tCrit := 105, skuCg := 12
    skuPort := 0xFFFF, skuClk := 1750, ptpDom := 0, sq0 := .disabled, sq1 := .disabled, repair := []
    home := (List.range 1024).map (fun h => h % 160) }

/-- Flash as a reset finds it: the spec gives the bytes of no record, key or certificate, so none is known (log 4). -/
def Flash.assumed : Flash :=
  { record := Config.flashBytes 0, rsaKey := Config.flashBytes 1, slhKey := Config.flashBytes 2
    rsaCert := Config.flashBytes 3, slhCert := Config.flashBytes 4, mirror := [] }

/-- The management controller after a bring-up (R435; log 4 for what the spec leaves to the record and flash). -/
def Amc.reset : Amc :=
  { status := .ready, bankA := ⟨.active, 0, Config.flashBytes 5⟩, bankB := ⟨.empty, 0, []⟩, floor := 0, flash := .assumed, session := none
    log := [], cfg := .assumed, power0 := 1024, power1 := 1024, sensors := none, reports := [], evCount := [], evCtl := []
    counterReply := [], logReply := [], rdmaReply := [] }

/-- The hub after a bring-up (R434, R435). -/
def Hub.reset : Hub :=
  { arrival := [], armed := [], publish := [], syncs := [], dropped := [], stampLast := 0, ptp := 0, ptpLocked := false,
    ptpHold := 0, ports := 0xFFFF, written := [], flushes := [], out := [], applied := [],
    settled := [], incs := [], incSeen := [], pathless := [], markers := [] }

/-- No issue in progress. -/
def Issue.none : Issue :=
  { lanes := 0, plane := 0, pfx := Option.none, len := 4, next := Option.none, hazard := Option.none, word := 0 }

/-- The module right after reset: bring-up has reached Ready (R435), HBM and every store read zero (step 6), no region,
queue, launch or block exists, the dispatcher's cursor is 191 (R393), the stamp counter and the PTP clock are 0 (R434). -/
def State.reset : State :=
  { team := .absent, blk := .absent, others := [], blocks := [], clusters := [], launches := [], cmds := [],
    regions := [], domains := [], queues := [], tapes := [], slots := [], hearths := [], halted := [], swapping := none,
    cursor := 191, rrRegion := [], records := [], freeSteps := [], leaveDebt := [], hub := .reset, amc := .reset, caches := ⟨[], [], [], [], []⟩, mem := [], memSide := [],
    poison := [], clk := 0, leaveWin := 0, nextId := 1, issued := 0, free := 0, lastOfClk := false, iss := .none, arg := {}, agenda := [] }

end Sys2Proof.Machine
end

