-- ==== Sys2Proof/Machine/Ops.lean ====
section
/-!
DEFINITION. The named operations over the machine's state: focus, registers, stamps, regions, the way an instruction
ends, and taking a fault with the return from it (R230, R233, R373), each written once.
-/
namespace Sys2Proof.Machine

/-! ### Teams, blocks and focus -/

/-- Every team that exists. -/
def State.teams (s : State) : List Team := if s.team.uid = 0 then s.others else s.team :: s.others

/-- Every block that exists. -/
def State.allBlocks (s : State) : List Block := if s.blk.bid = 0 then s.blocks else s.blk :: s.blocks

/-- The team of this uid. -/
def State.findTeam (s : State) (uid : Nat) : Option Team := s.teams.find? (fun t => t.uid == uid)

/-- The block of this id. -/
def State.findBlock (s : State) (bid : Nat) : Option Block := s.allBlocks.find? (fun b => b.bid == bid)

/-- Change the team of this uid, wherever it stands. -/
def State.modTeam (s : State) (uid : Nat) (f : Team → Team) : State :=
  { s with team := if s.team.uid = uid then f s.team else s.team
           others := s.others.map (fun t => if t.uid = uid then f t else t) }

/-- Change every team. -/
def State.mapTeams (s : State) (f : Team → Team) : State :=
  { s with team := f s.team, others := s.others.map f }

/-- Change the block of this id, wherever it stands. -/
def State.modBlock (s : State) (bid : Nat) (f : Block → Block) : State :=
  { s with blk := if s.blk.bid = bid then f s.blk else s.blk
           blocks := s.blocks.map (fun b => if b.bid = bid then f b else b) }

/-- Bring the block of this id into focus. -/
def State.focusBlock (s : State) (bid : Nat) : State :=
  if s.blk.bid = bid then s
  else match s.blocks.find? (fun b => b.bid == bid) with
    | none => s
    | some b =>
      let rest := s.blocks.filter (fun b => b.bid != bid)
      { s with blk := b, blocks := if s.blk.bid = 0 then rest else s.blk :: rest }

/-- Bring the team of this uid, and its block, into focus. -/
def State.focus (s : State) (uid : Nat) : State :=
  if s.team.uid = uid then s
  else match s.others.find? (fun t => t.uid == uid) with
    | none => s
    | some t =>
      let rest := s.others.filter (fun t => t.uid != uid)
      ({ s with team := t, others := if s.team.uid = 0 then rest else s.team :: rest } : State).focusBlock t.bid

/-- The launch of this id. -/
def State.findLaunch (s : State) (lid : Nat) : Option Launch := s.launches.find? (fun l => l.lid == lid)

/-- Change the launch of this id. -/
def State.modLaunch (s : State) (lid : Nat) (f : Launch → Launch) : State :=
  { s with launches := s.launches.map (fun l => if l.lid = lid then f l else l) }

/-- The cluster of this id. -/
def State.findCluster (s : State) (cid : Nat) : Option Cluster := s.clusters.find? (fun c => c.cid == cid)

/-- Change the cluster of this id. -/
def State.modCluster (s : State) (cid : Nat) (f : Cluster → Cluster) : State :=
  { s with clusters := s.clusters.map (fun c => if c.cid = cid then f c else c) }

/-- A fresh name for an object of the model. -/
def State.newId (s : State) : Nat × State := (s.nextId, { s with nextId := s.nextId + 1 })

/-- The next free value (log 2). -/
def State.draw (s : State) : Nat × State := (Config.free s.free, { s with free := s.free + 1 })

/-! ### Registers (R89..R92) -/

/-- Ring position that vector register `n` names: 0..7 pinned, 8 + (B + n - 8) mod W windowed (R92). -/
def State.vpos (s : State) (n : Nat) : Nat :=
  if n < 8 then n else 8 + (s.team.win.b + (n - 8)) % s.blk.k.ring

/-- The window admits register `n` (R97). -/
def State.vOk (s : State) (n : Nat) : Bool := n < 8 || n - 8 < s.team.win.fs

/-- Lane `l` of vector register `n`. -/
def State.getV (s : State) (n l : Nat) : Word32 := smGet 0 s.team.regs.v (s.vpos n * 1024 + l)

/-- Side-band of group `g` of vector register `n` (R91). -/
def State.getSide (s : State) (n g : Nat) : SideBand := smGet 0 s.team.regs.side (s.vpos n * 64 + g)

/-- Uniform register `n`; sz (and every field of 192 or more) reads zero. -/
def State.getS (s : State) (n : Nat) : Word64 := if n < 192 then smGet 0 s.team.regs.s n else 0

/-- Predicate `n` as a mask over the lanes; p0 reads all true. -/
def State.getP (s : State) (n : Nat) : Mask := if n = 0 then allLanes else smGet 0 s.team.regs.p n

/-- Change the registers of the team in focus. -/
def State.withRegs (s : State) (r : Regs) : State := { s with team := { s.team with regs := r } }

/-- Write uniform register `n`; a write to sz is discarded. -/
def State.setS (s : State) (n : Nat) (x : Word64) : State :=
  if n < 192 then s.withRegs { s.team.regs with s := smSet 0 s.team.regs.s n x } else s

/-- Write a uniform register of a team (sz discards). -/
def Team.setS (t : Team) (n : Nat) (x : Word64) : Team :=
  if n < 192 then { t with regs := { t.regs with s := smSet 0 t.regs.s n x } } else t

/-- Write predicate `n` in the lanes of `m`; a write to p0 is ignored. -/
def State.setP (s : State) (n : Nat) (m x : Mask) : State :=
  if n = 0 then s
  else s.withRegs { s.team.regs with p := smSet 0 s.team.regs.p n ((smGet 0 s.team.regs.p n &&& ~~~m) ||| (x &&& m)) }

/-- Write lanes of vector register `n`, leaving side-bands. -/
def State.setV (s : State) (n : Nat) (xs : List (Nat × Word32)) : State :=
  s.withRegs { s.team.regs with v := smSetAll 0 s.team.regs.v (xs.map (fun x => (s.vpos n * 1024 + x.1, x.2))) }

/-- Write side-bands of groups of vector register `n`. -/
def State.setSide (s : State) (n : Nat) (xs : List (Nat × SideBand)) : State :=
  s.withRegs { s.team.regs with side := smSetAll 0 s.team.regs.side (xs.map (fun x => (s.vpos n * 64 + x.1, x.2))) }

/-- Write lanes of vector register `n` without block semantics: the side-band of every written group clears (R29). -/
def State.putV (s : State) (n : Nat) (xs : List (Nat × Word32)) : State :=
  (s.setV n xs).setSide n (xs.map (fun x => (x.1 / 16, 0)))

/-- Change the special registers. -/
def State.withSp (s : State) (sp : Special) : State := { s with team := { s.team with sp := sp } }

/-- Set sticky flags; the device only ever sets them (R55). -/
def State.raise (s : State) (f : Byte) : State := s.withSp { s.team.sp with sticky := s.team.sp.sticky ||| f }

/-- Change the window state. -/
def State.withWin (s : State) (w : Window) : State := { s with team := { s.team with win := w } }

/-- Change the lanes. -/
def State.withLanes (s : State) (l : Lanes) : State := { s with team := { s.team with lanes := l } }

/-- Change the matrix side. -/
def State.withMat (s : State) (m : Matrix) : State := { s with team := { s.team with mat := m } }

/-- Change the team's phase (R86). -/
def State.withPhase (s : State) (p : Phase) : State := { s with team := { s.team with phase := p } }

/-! ### Lanes -/

/-- Plane number of lane `l` (R72). -/
def Lanes.plane (x : Lanes) (l : Nat) : Nat :=
  (if x.plane0.getLsbD l then 1 else 0) + (if x.plane1.getLsbD l then 2 else 0)

/-- The lanes whose plane number is `k`. -/
def Lanes.inPlane (x : Lanes) (k : Nat) : Mask :=
  (if k % 2 = 1 then x.plane0 else ~~~x.plane0) &&& (if k / 2 % 2 = 1 then x.plane1 else ~~~x.plane1)

/-- Give the lanes of `m` plane number `k`. -/
def Lanes.setPlane (x : Lanes) (m : Mask) (k : Nat) : Lanes :=
  { x with plane0 := if k % 2 = 1 then x.plane0 ||| m else x.plane0 &&& ~~~m
           plane1 := if k / 2 % 2 = 1 then x.plane1 ||| m else x.plane1 &&& ~~~m }

/-- The live lanes: active or pending (R64). -/
def Team.live (t : Team) : Mask := firstLanes t.size &&& ~~~t.lanes.vacant

/-- The occupied planes of the active lanes, ascending (R68). -/
def Team.planes (t : Team) : List Nat :=
  (List.range 4).filter (fun k => t.lanes.active &&& t.lanes.inPlane k != 0)

/-! ### The mode register (R175) -/

/-- Element type T. -/
def State.ty (s : State) : Nat := field s.team.sp.mode.toNat 0 4
/-- Guard predicate number G. -/
def State.guardNo (s : State) : Nat := field s.team.sp.mode.toNat 4 4
/-- Integer saturation SAT. -/
def State.sat (s : State) : Bool := s.team.sp.mode.getLsbD 11
/-- A mode word is valid: T, RM and the reserved bits (R177). -/
def modeValid (m : Word64) : Bool :=
  field m.toNat 0 4 < 14 && field m.toNat 8 3 < 6 && m.toNat / 2 ^ 13 = 0
/-- Effective rounding mode: the prefix's, else the mode register's (R179). -/
def State.rm (s : State) : Nat :=
  match s.iss.pfx with
  | some p => if p.rnd = 0 then field s.team.sp.mode.toNat 8 3 else p.rnd - 1
  | none => field s.team.sp.mode.toNat 8 3
/-- Effective guard (R178). -/
def State.guardMask (s : State) : Mask :=
  match s.iss.pfx with
  | some p => if p.grd < 16 then s.getP p.grd else s.getP s.guardNo
  | none => s.getP s.guardNo
/-- The selected lanes of this issue (R178). -/
def State.selected (s : State) : Mask := s.iss.lanes &&& s.guardMask
/-- MZ of the prefix (R178). -/
def State.mz (s : State) : Bool := match s.iss.pfx with | some p => p.mz = 1 | none => false
/-- D4 of the prefix, 0 without one (R179). -/
def State.d4 (s : State) : Nat := match s.iss.pfx with | some p => p.d4 | none => 0

/-- SEED of the launch (R45). -/
def State.seed (s : State) : Nat := s.blk.d.seed.toNat

/-! ### Stamps and the event log (R168, R169, R443) -/

/-- COUNT of the next stamp: max(T, last + 1), with T the PTP clock in units of 16 ns modulo 2^48 (R169, log 85). -/
def Hub.nextCount (h : Hub) : Nat := max (h.ptp / 16 % 2 ^ 48) (h.stampLast + 1) % 2 ^ 48

/-- COUNT `a` is later than `b`: their difference modulo 2^48 is positive, that is below 2^47 (R169). -/
def countAfter (a b : Nat) : Bool :=
  let d := (a + 2 ^ 48 - b % 2 ^ 48) % 2 ^ 48
  0 < d && d < 2 ^ 47

/-- Stamp `a` is later than `b`: by COUNT, then by DEV and UNIT (R169). -/
def stampAfter (a b : Nat) : Bool :=
  if a / 2 ^ 16 = b / 2 ^ 16 then b % 2 ^ 16 < a % 2 ^ 16 else countAfter (a / 2 ^ 16) (b / 2 ^ 16)

/-- Issue a sequence stamp from a source unit (R168). -/
def State.stamp (s : State) (unit : Nat) : Nat × State :=
  (s.hub.nextCount * 2 ^ 16 + s.amc.cfg.device % 1024 * 2 ^ 6 + unit,
   { s with hub := { s.hub with stampLast := s.hub.nextCount } })

/-- Write an entry to the AMC event log: newest first, 65,536 kept (R443). The mirror in flash follows at once;
the CODE and data of entries are the model's (log 20). -/
def State.log (s : State) (unit severity code data : Nat) : State :=
  let r := s.stamp unit
  let all := (⟨r.1, unit, severity, code, BitVec.ofNat 416 data⟩ :: r.2.amc.log).take 65536
  { r.2 with amc := { r.2.amc with log := all, flash := { r.2.amc.flash with mirror := all } } }

/-- The 64 bytes of an entry (R443). -/
def LogEntry.bytes (e : LogEntry) : List Byte :=
  natLe e.stamp 8 ++ natLe e.unit 1 ++ natLe e.severity 1 ++ natLe e.code 2 ++ natLe e.data.toNat 52

/-! ### Regions (R369, R370) -/

/-- The cached RCB. -/
def State.findRegion (s : State) (rcb : Nat) : Option Region := s.regions.find? (fun r => r.rcb == rcb)

/-- A child's group values over its parent's effective ones (R370). -/
def Region.over (r p : Region) : Region :=
  { r with
    ptroot := p.ptroot
    prio := if r.ovr.testBit 0 then r.prio else p.prio
    cgmask := if r.ovr.testBit 1 then r.cgmask else p.cgmask
    lanes := if r.ovr.testBit 2 then r.lanes else p.lanes
    spadKb := if r.ovr.testBit 3 then r.spadKb else p.spadKb
    slotCap := if r.ovr.testBit 4 then r.slotCap else p.slotCap
    accCap := if r.ovr.testBit 4 then r.accCap else p.accCap
    hbmSh := if r.ovr.testBit 5 then r.hbmSh else p.hbmSh
    linkSh := if r.ovr.testBit 6 then r.linkSh else p.linkSh
    pwrSh := if r.ovr.testBit 7 then r.pwrSh else p.pwrSh
    acBase := if r.ovr.testBit 8 then r.acBase else p.acBase
    acCount := if r.ovr.testBit 8 then r.acCount else p.acCount
    fqSize := if r.ovr.testBit 9 then r.fqSize else p.fqSize
    fdKernel := if r.ovr.testBit 9 then r.fdKernel else p.fdKernel
    fqBase := if r.ovr.testBit 9 then r.fqBase else p.fqBase }

/-- Effective values of a region, its tree at most `fuel` deep (R57: 8). -/
def effRegion (rs : List Region) : Nat → Nat → Option Region
  | 0, _ => none
  | n + 1, rcb =>
    match rs.find? (fun r => r.rcb == rcb) with
    | none => none
    | some r => if r.parent = 0 then some r else (effRegion rs n r.parent).map r.over

/-- Effective values of the region named by an RCB. -/
def State.region (s : State) (rcb : Nat) : Option Region := effRegion s.regions 8 rcb

/-- The regions from one up to its top-level region. -/
def ancestors (rs : List Region) : Nat → Nat → List Region
  | 0, _ => []
  | n + 1, rcb =>
    match rs.find? (fun r => r.rcb == rcb) with
    | none => []
    | some r => if r.parent = 0 then [r] else r :: ancestors rs n r.parent

/-- The path of a region to its partition. -/
def State.path (s : State) (rcb : Nat) : List Region := ancestors s.regions 8 rcb

/-- Effective PWRSH of a region and of those above it, up to its partition (R396). -/
def State.pathShares (s : State) (rcb : Nat) : List Nat :=
  (s.path rcb).map (fun r => match s.region r.rcb with | some e => e.pwrSh | none => 0)

/-- RCB of the partition (top-level region). -/
def State.partition (s : State) (rcb : Nat) : Option Region := (s.path rcb).getLast?

/-- The region that defines the fault domain of a region (R370). -/
def State.domainRcb (s : State) (rcb : Nat) : Option Nat :=
  ((s.path rcb).find? (fun r => r.parent = 0 || r.ovr.testBit 9)).map Region.rcb

/-- The region lies in the subtree of `top`. -/
def State.inSubtree (s : State) (rcb top : Nat) : Bool := (s.path rcb).any (fun r => r.rcb == top)

/-- Change the fault domain defined by an RCB. -/
def State.modDomain (s : State) (rcb : Nat) (f : Domain → Domain) : State :=
  { s with domains := s.domains.map (fun d => if d.rcb = rcb then f d else d) }

/-- The fault domain defined by an RCB. -/
def State.findDomain (s : State) (rcb : Nat) : Option Domain := s.domains.find? (fun d => d.rcb == rcb)

/-! ### Event counters (R444, R445) -/

/-- A counter's control word counts this source for this region: EN, SRC, and RID under FILT, which counts no event of no
region. -/
def counts (ctl src rid : Nat) : Bool :=
  ctl.testBit 15 && ctl % 256 = src && (!ctl.testBit 14 || (rid ≠ 0 && ctl / 2 ^ 16 % 2 ^ 16 = rid))

/-- `n` events of a source of a unit (a core, or 192 + a die) for a region id; 0 for no region. -/
def State.countEvent (s : State) (unit src rid n : Nat) : State :=
  { s with amc := { s.amc with
      evCount := s.amc.evCtl.foldl (fun m c =>
        if c.1 / 32 = unit && counts c.2 src rid then smSet 0 m c.1 ((smGet 0 m c.1 + n) % 2 ^ 64) else m) s.amc.evCount } }

/-- The effective values of the region of the team in focus, as its block was placed under (R371). -/
def State.teamRegion (s : State) : Option Region :=
  match s.blk.eff with | some r => some r | none => s.region s.team.rcb

/-- Region id of the partition of the team in focus, by which its addresses are translated (R398); as its block was placed
under (R371). -/
def State.teamRid (s : State) : Nat :=
  if s.blk.eff.isSome then s.blk.prid else match s.partition s.team.rcb with | some r => r.rid | none => 0

/-- Region id of the team's own region, by which its events are filtered (R369, R444). -/
def State.ownRid (s : State) : Nat := match s.teamRegion with | some r => r.rid | none => 0

/-- The id of a region by its RCB; 0 for none. -/
def State.ridOf (s : State) (rcb : Nat) : Nat := match s.findRegion rcb with | some r => r.rid | none => 0

/-- The id of the region of a team, as its block was placed under it (R371, R444). -/
def State.placedRid (s : State) (t : Team) : Nat :=
  match (s.findBlock t.bid).bind Block.eff with | some r => r.rid | none => s.ridOf t.rcb

/-- Events of the core of the team in focus. -/
def State.countCore (s : State) (src n : Nat) : State := s.countEvent s.team.core src s.ownRid n

/-! ### The management VLAN (R431) -/

/-- What a management frame brings about: nothing, if it came in another VLAN (R431). -/
def State.onVlan (s t : State) : State := if s.arg.vlan = s.amc.cfg.mvlan then t else s

/-- What traffic of the host port brings about: nothing, if it came in the management VLAN (R431). -/
def State.offVlan (s t : State) : State := if s.arg.vlan = s.amc.cfg.mvlan then s else t

/-! ### How an instruction ends -/

/-- Vector-class words, which issue in slot A (R17). -/
def vectorClass (op : Nat) : Bool := op = 0x10 || (0x50 ≤ op && op ≤ 0x68 && op ≠ 0x66)

/-- What every issue leaves behind (R226, R394): it is counted, and it is the team's last, at this clk. -/
def State.issueDone (s : State) : State :=
  { s with issued := s.issued + 1
           team := { s.team with lastIssue := s.clk + 1
                                 lastSlotA := vectorClass (s.iss.word / 2 ^ 25)
                                 fenced := false
                                 deadline := s.team.deadline.map (fun d => (d.1, d.2 + 1)) } }

/-- A covered instruction has gone by: windows of other offsets count down (R182). -/
def countDown (pc : Word32) (ws : List LookWindow) : List LookWindow :=
  (ws.map (fun w => if w.off = pc then w else { w with left := w.left - 1 })).filter (fun w => w.left != 0)

/-- SRSTREAM after an SR-counting instruction (R46). -/
def srNext (x : Word64) : Word64 :=
  BitVec.ofNat 64 (x.toNat / 2 ^ 40 * 2 ^ 40 + (x.toNat + 1) % 2 ^ 40)

/-- The PC after an instruction that transfers no control (R171): past the copy issued last, where the copies of a planed
offset differ in length (log 86). -/
def State.nextPc (s : State) : Word32 := s.team.pc + BitVec.ofNat 32 s.iss.len

/-- The end of the last plane issue at an offset: on to the next one (R46, R71, R171, R182). -/
def Team.leaveOffset (t : Team) (pc : Word32) : Team :=
  { t with pc := pc, nextPlane := 0, looks := countDown t.pc t.looks
           sp := if t.srDue then { t.sp with srStream := srNext t.sp.srStream } else t.sp
           srDue := false }

/-- An instruction of OP 0x20 and above ends: the next plane issue at this offset, or the next offset (R71, R171). -/
def State.retire (s : State) : State :=
  let s := s.issueDone
  match s.iss.next with
  | some k => { s with team := { s.team with nextPlane := k } }
  | none => { s with team := s.team.leaveOffset s.nextPc }

/-- An instruction that may round stochastically ends: COUNT advances after the last plane issue (R46). -/
def State.retireSr (s : State) : State :=
  ({ s with team := { s.team with srDue := s.team.srDue || s.rm == 5 } } : State).retire

/-- An instruction of OP 0x00..0x1E goes on at `pc`: every lookahead window ends (R182, R206). -/
def State.goTo (s : State) (pc : Word32) : State :=
  let s := s.issueDone
  { s with team := { s.team with pc := pc, nextPlane := 0, looks := [], srDue := false } }

/-- An instruction of OP 0x00..0x1E that transfers no control ends. -/
def State.retireCtl (s : State) : State := s.goTo s.nextPc

/-- A wait begins: the word has issued and the PC stays on it (R86, R415). A word of OP 0x00..0x1E (`ends`) ends every
lookahead window (R182). -/
def State.beginWait (s : State) (ends : Bool) (w : Wait) : State :=
  let s := s.issueDone
  { s with team := { s.team with phase := .waiting w, looks := if ends then [] else s.team.looks } }

/-- An issue is held back and will be made again (R86 Stalled). -/
def State.stall (s : State) (w : Stall) : State := s.withPhase (.stalled w)

/-- A wait of a team ends: `status` goes to predicate `p` in its active lanes and it goes on after the word (R290). -/
def Team.finishWait (t : Team) (p : Nat) (status : Bool) : Team :=
  let old := smGet 0 t.regs.p p
  let new := if status then old ||| t.lanes.active else old &&& ~~~t.lanes.active
  { t with phase := .ready, timeout := none, pc := t.pc + 4, nextPlane := 0, looks := countDown t.pc t.looks
           regs := if p = 0 then t.regs else { t.regs with p := smSet 0 t.regs.p p new } }

/-- What a routine's end goes back to: the routine in which the request was taken, if there was one (R415). -/
def Preempt.leave (p : Preempt) : Preempt :=
  match p.outer with
  | [] => { p with saving := none, restoring := none, wait := none, routine := none, ctx := 0 }
  | r :: rs => { p with resOff := r.resOff, smask := r.smask, saving := r.saving, restoring := r.restoring
                        wait := r.wait, routine := r.routine, ctx := r.ctx, outer := rs, seq := r.seq }

/-- Bytes of the context pool that a team takes (R413). -/
def Preempt.bytes (p : Preempt) : Nat := p.ctx + (p.outer.map Routine.ctx).sum

/-- Bytes of the context pool in use (R413). -/
def State.ctxUsed (s : State) : Nat := (s.teams.map (fun t => t.pre.bytes)).sum

/-- The phase and the timeout of a team that takes up the wait it was suspended in, if it was in one. -/
def Team.takeUp (t : Team) (w : Option (Wait × Option Nat)) : Team :=
  { t with phase := match w with | some x => .waiting x.1 | none => .ready
           timeout := w.bind Prod.snd }

/-- The RET that ends a save routine suspends the team, its claims released (R297, R415) and its advance requests lapsed
(R395); the RET that ends a restore routine goes on, in the wait the team was suspended in if it was in one (R415). What comes
after counts its engine commands as if the routine had queued none (R420, log 104). -/
def Team.endRoutine (t : Team) : Team :=
  let lanes := { t.lanes with active := t.pre.smask &&& ~~~t.lanes.vacant }
  if t.pre.saving = some t.win.depth then
    { t with
      phase := .suspended, lanes := lanes, reqSteps := 0, reqCopy := 0, engSeq := t.pre.seq
      mat := { t.mat with slots := [], tiles := [] }
      pre := { t.pre with saving := none, savedSlots := t.mat.slots.map Prod.fst, savedTiles := t.mat.tiles.map Prod.fst } }
  else if t.pre.restoring = some t.win.depth then
    { t.takeUp t.pre.wait with lanes := lanes, engSeq := t.pre.seq, pre := t.pre.leave }
  else t

/-! ### Faults (R230, R373, R407, R409) -/

/-- The fault code (R409). -/
def Cause.code : Cause → Nat
  | .illegalInstruction => 0x01 | .illegalMode => 0x02 | .prefixMisuse => 0x03 | .lookaheadHazard => 0x04
  | .planeRange => 0x05 | .planeAnchor => 0x06 | .branchNonuniform => 0x07 | .joinStack => 0x08
  | .illegalConvergence => 0x09 | .convMismatch => 0x0A | .claimNested => 0x0B | .claimRange => 0x0C
  | .slotState => 0x0D | .windowDepth => 0x0E | .windowSpillOverflow => 0x0F | .windowArea => 0x10
  | .windowRange => 0x11 | .stack => 0x12 | .align => 0x13 | .spaceForeign => 0x14 | .spaceStale => 0x15
  | .spaceInvalid => 0x16 | .pageNotPresent => 0x17 | .pagePermission => 0x18 | .yieldOverrun => 0x19
  | .refillDepth => 0x1A | .stationInvalid => 0x1B | .trapInstruction => 0x1C | .descriptor => 0x1D
  | .engine => 0x1E | .memoryPoison => 0x1F | .privilege => 0x20 | .machineCheck => 0x21

/-- A user kernel's trap entry may receive the fault (R409, column User). -/
def userDeliverable (code : Nat) : Bool := [0x04, 0x05, 0x06, 0x13, 0x14, 0x15, 0x16, 0x1C].contains code

/-- The precise class (R407). -/
def preciseClass (c : Cause) : Bool :=
  c ≠ .yieldOverrun && c ≠ .memoryPoison && c ≠ .engine && c ≠ .machineCheck

/-- The cause is deliverable to a trap entry of the team (R230). -/
def deliverable (system : Bool) (c : Cause) : Bool := preciseClass c && (system || userDeliverable c.code)

/-- A fault at the current instruction, lane 0, no address. -/
def State.flt (s : State) (c : Cause) : FaultInfo :=
  { cause := c, plane := s.iss.plane, lane := 0, addr := 0, code := 0, restart := s.team.pc, spill := false }

/-- A fault of one lane with its address (R232). -/
def State.fltAt (s : State) (c : Cause) (lane : Nat) (addr : Word64) : FaultInfo :=
  { s.flt c with lane := lane, addr := addr }

/-- The team enters its trap handler (R230); the wait in which a save call faulted is set aside (R415). -/
def Team.enterTrap (t : Team) (entry : Nat) (f : FaultInfo) : Team :=
  { t with
    trap := { cause := f.cause.code, plane := f.plane, lane := f.lane, inTrap := true, code := f.code
              off := BitVec.ofNat 64 f.restart.toNat, addr := f.addr, twr := false, tmask := t.lanes.active
              tjd := t.lanes.stack.length, tdep := t.win.depth, tpl := f.plane, tcont := t.win.cont
              tcontLast := t.win.contLast, tlooks := t.looks, tsr := t.srDue }
    win := { t.win with cont := false }
    looks := []
    srDue := false
    pc := BitVec.ofNat 32 entry
    nextPlane := 0
    phase := .ready
    timeout := none
    pre := { t.pre with held := none, trapped := t.pre.held } }

/-- The team ends (R211): every lane vacant, stack and window discarded, claims released. What its end means for
barriers, claims, its convocation and its block is settled after it (Machine/Settle.lean, `settle`). Transfers it has issued
into a scratchpad still perform, and what it saved in the context pool is freed. -/
def Team.finish (t : Team) : Team :=
  { t with
    phase := .ended, timeout := none, looks := [], loads := []
    lanes := { t.lanes with active := 0, vacant := firstLanes t.size, stack := [] }
    win := { t.win with b := 0, fs := 0, ov := 0, depth := 0, lo := 0, links := [], cont := false, spill := .idle
                        earlyOut := [], earlyIn := [] }
    fenced := false
    check := none
    mat := { t.mat with slots := [], tiles := [], steps := []
                        transfers := t.mat.transfers.filter (fun x => match x with | .image _ _ _ => true | .load _ _ => false) }
    pre := { t.pre with pending := false, saving := none, restoring := none, wait := none, routine := none, ctx := 0
                        outer := [], held := none, trapped := none } }

/-- RESTART of a record: action 0 is allowed (R375, R407). -/
def restartAllowed (c : Cause) : Bool := c ≠ .memoryPoison && c ≠ .yieldOverrun && c ≠ .machineCheck

/-- The body of a KIND 0 or KIND 2 record: ADDR, OFFSET, LANE (R374). -/
def faultBody (f : FaultInfo) (kind : Nat) : List Byte :=
  natLe f.addr.toNat 8 ++ (if kind = 0 then natLe f.restart.toNat 4 ++ natLe f.lane 4 else natLe 0 8) ++ natLe 0 16

/-- The 64 bytes of a fault record (R374). -/
def FaultRec.bytes (r : FaultRec) : List Byte :=
  natLe r.stamp 8 ++ natLe r.rcb 8 ++ natLe r.ticket 4 ++ natLe r.cause 1 ++ natLe r.kind 1
    ++ natLe ((if r.restart then 1 else 0) + (if r.spill then 2 else 0)) 1 ++ natLe 0 1 ++ natLe r.teamId 4
    ++ natLe r.plane 4 ++ (r.body ++ List.replicate 32 0).take 32

/-- The record of a fault of a team (R374); its domain names the ticket. -/
def faultRecord (f : FaultInfo) (t : Team) (stamp : Nat) : FaultRec :=
  let kind := if f.cause = .machineCheck then 2 else 0
  { stamp := stamp, rcb := t.rcb, ticket := 0xFFFFFFFF, cause := f.cause.code, kind := kind
    restart := restartAllowed f.cause, spill := f.cause = .windowSpillOverflow, teamId := t.teamId, plane := f.plane
    body := faultBody f kind, uid := some t.uid, cmd := none, fqSize := 0, fqBase := 0, fqRoot := 0
    fqRid := 0 }

/-- The next ticket that no unresolved record of the domain holds (R374). -/
def Domain.freeTicket (d : Domain) : Nat :=
  let used := (d.waiting ++ d.open_).map FaultRec.ticket
  ((List.range (used.length + 1)).map (fun i => (d.nextTicket + i) % 0xFFFFFFFF)).find? (fun x => !used.contains x) |>.getD 0

/-- Queue a record to a fault domain; it is written in the domain's queue when a slot is free (R373). An informational one
keeps its ticket. -/
def State.queueRecord (s : State) (dom : Option DomRef) (r : FaultRec) (info : Bool) : State :=
  match dom with
  | none => s
  | some d =>
    s.modDomain d.rcb (fun x =>
      { x with
        waiting := x.waiting ++ [{ r with fqSize := d.fqSize, fqBase := d.fqBase, fqRoot := d.root, fqRid := d.rid
                                          ticket := if info then r.ticket else x.freeTicket }]
        nextTicket := if info then x.nextTicket else (x.freeTicket + 1) % 0xFFFFFFFF })

/-- The fault domain of a region as it stands now (R370). -/
def State.domRef (s : State) (rcb : Nat) : Option DomRef :=
  ((s.domainRcb rcb).bind s.findDomain).map (fun d =>
    ⟨d.rcb, d.fqSize, d.fqBase, (s.partition rcb).elim 0 Region.ptroot, (s.partition rcb).elim 0 Region.rid⟩)

/-- The fault domain of the team in focus: the one its block was placed under (R371). -/
def State.teamDomain (s : State) : Option DomRef :=
  match s.blk.dom with | some d => some d | none => s.domRef s.team.rcb

/-- The team in focus is a handler of the domain that its region belongs to (R374). -/
def State.ownHandler (s : State) : Option Nat :=
  match s.findLaunch s.team.lid with
  | some l =>
    match l.from_ with
    | .handler rcb => if s.teamDomain.map DomRef.rcb = some rcb then some rcb else none
    | _ => none
  | none => none

/-- The issue of the word that the team in focus waits on no longer counts: the word will issue again (R226, R420). -/
def Team.uncount (t : Team) : Team := { t with deadline := t.deadline.map (fun d => (d.1, d.2 - 1)) }

/-- The team in focus leaves a claim queue, or withdraws its word of a convocation step, and will issue it again (R85, R415,
R417). -/
def State.withdraw (s : State) : Wait → State
  | .claim slots _ _ _ =>
    let drop (q : List (Nat × Nat)) : List (Nat × Nat) := q.filter (fun u => u.1 != s.team.uid)
    { s with team := s.team.uncount
             blk := if slots then { s.blk with slotQueue := drop s.blk.slotQueue }
                    else { s.blk with tileQueue := drop s.blk.tileQueue } }
  | .step _ =>
    { s with team := s.team.uncount
             blk := { s.blk with convs := s.blk.convs.map (fun c =>
               { c with issues := c.issues.filter (fun i => i.uid != s.team.uid) }) } }
  | _ => s

/-- The team in focus waits no more, for it faults: the word that it waits on will issue again, unless the save call of the wait
faulted, after which the wait is taken up again (R226, R415). A team that waits for its names to go on has issued no word. -/
def State.leaveWait (s : State) : State :=
  match s.team.phase, s.team.pre.held with
  | .waiting .reclaim, _ => s
  | .waiting .restore, _ => s
  | .waiting (.claim a b c d), _ => s.withdraw (.claim a b c d)
  | .waiting (.step w), _ => s.withdraw (.step w)
  | .waiting _, none => { s with team := s.team.uncount }
  | _, _ => s

/-- The team in focus is Held and its record goes to the fault domain (R373, R374). A fault of a team that is Held already queues
a further record. -/
def State.holdTeam (s : State) (f : FaultInfo) : State :=
  let st := s.stamp 0
  let s1 := { st.2 with team := { s.team with phase := .held, timeout := none
                                              fault := if s.team.phase = Phase.held then s.team.fault else some f } }
  s1.queueRecord s.teamDomain (faultRecord f s.team st.1) false

/-- Where a fault of the team in focus goes (R230, R373, R374): to the trap entry when it is valid, no handler runs and the cause is
deliverable; otherwise the team is Held and the fault domain is told. A fault of a handler in its own domain ends the team, the
record's first 52 bytes go to the event log (log 20), and the domain's handler is barred. A fault of a spill transfer goes to the
fault domain whatever the trap entry (R104). -/
def deliverFault (f : FaultInfo) (s : State) : State :=
  match s.blk.k.trapEntry,
      s.team.trap.inTrap || s.team.phase == Phase.held || f.spill || !(deliverable s.team.system f.cause) with
  | some entry, false => { s with team := s.team.enterTrap entry f }
  | _, _ =>
    match s.ownHandler with
    | some rcb =>
      let st := s.stamp 0
      let s1 : State := { st.2 with team := { s.team.finish with fault := some f } }
      (s1.log 0 2 0x10 (leNat (faultRecord f s.team st.1).bytes)).modDomain rcb (fun d => { d with barred := true })
    | none => s.holdTeam f

/-- TAKING A FAULT: the team waits no more, and the fault is delivered. -/
def takeFault (f : FaultInfo) (s : State) : State := deliverFault f s.leaveWait

/-- The planed region whose copy 0 holds the PC (R67). -/
def planedEntry (ps : List PlaneEntry) (pc : Nat) : Option PlaneEntry :=
  ps.find? (fun e => e.base ≤ pc && pc < e.base + e.len)

/-- The plane that a fault of a word of the team in focus that covers its planes names: 0 outside planed regions (R231), else the lowest
occupied plane, since the issue of such a word covers all of them (log 90). -/
def State.wordPlane (s : State) : Nat :=
  match planedEntry s.blk.k.planes s.team.pc.toNat with | none => 0 | some _ => s.team.planes.headD 0

/-- A fault raised in a team at the word that it waits on, or issues (R84, R85). -/
def State.faultIn (s : State) (uid : Nat) (f : FaultInfo) : State :=
  match s.findTeam uid with
  | none => s
  | some t =>
    let u := s.focus uid
    (takeFault { f with restart := t.pc, plane := u.wordPlane } u).focus s.team.uid

/-- How every meaning answers: the next state, or the fault taken in the state before the instruction (R10). -/
def answer (s : State) (r : Except FaultInfo State) : Host.Outcome State Fault Refusal :=
  match r with
  | .ok t => .next t
  | .error f => .next (takeFault f s)

/-- One check: the fault unless it holds. -/
def need (ok : Bool) (f : FaultInfo) : Except FaultInfo Unit := if ok then .ok () else .error f

/-- LOOKAHEAD_HAZARD, as the step found it for the words at this offset (R183, R192 item 8). -/
def State.hazardCheck (s : State) : Except FaultInfo Unit :=
  match s.iss.hazard with
  | none => .ok ()
  | some off => .error (s.fltAt .lookaheadHazard 0 (BitVec.ofNat 64 off.toNat))

/-! ### Return from a fault handler (R233) -/

/-- A trap handler has returned: the wait set aside is taken up again, unless the handler chose another place to go on (R231). -/
def Preempt.untrap (p : Preempt) (twr : Bool) : Preempt :=
  let q := { p with held := if twr then none else p.trapped, trapped := none }
  if twr && p.trapped.any (fun x => x.1 == .restore) then q.leave else q

/-- The state after URET or TRET with every check passed, before an emptied active set is looked at. A wait whose save call
faulted is taken up again at its restart offset (R415). -/
def Team.leaveTrap (t : Team) : Team :=
  let r : Trap := t.trap
  { t with
    lanes := { t.lanes with active := r.tmask &&& ~~~t.lanes.vacant }
    trap := { r with inTrap := false, tlooks := [], tsr := false }
    win := if r.twr then { t.win with cont := false } else { t.win with cont := r.tcont, contLast := r.tcontLast }
    looks := if r.twr then [] else r.tlooks
    srDue := !r.twr && r.tsr
    pc := BitVec.ofNat 32 r.off.toNat
    nextPlane := if r.twr then 0 else r.tpl
    pre := t.pre.untrap r.twr }

/-- The checks of R233 in order; `user` for URET. -/
def State.uretChecks (s : State) (user : Bool) : Except FaultInfo Unit := do
  need s.team.trap.inTrap (s.flt .illegalInstruction)
  need (!user || userDeliverable s.team.trap.cause) (s.flt .privilege)
  need (s.team.win.depth = s.team.trap.tdep) (s.flt .windowDepth)
  need (s.team.lanes.stack.length = s.team.trap.tjd) (s.flt .joinStack)

end Sys2Proof.Machine
end

