-- ==== Sys2Proof/Machine/Cache.lean ====
section
/-!
DEFINITION. The caches as structures (R18, R20, R21, R140..R142, R402): which lines stand where, in which replacement class,
the hidden metadata of lines that left the L2 compressed, and the limits of the TLBs. No value depends on them, but for a
stale translation and a line whose selector is reserved.
-/
namespace Sys2Proof.Machine

/-- The line of 256 bytes that holds a physical address. -/
def lineOf (pa : Nat) : Nat := pa / 256

/-- Home slice of a physical address, 0..159, under a home table (R438). -/
def homeOf (table : List Nat) (pa : Nat) : Nat :=
  table.getD (field pa 8 10 ^^^ field pa 18 10 ^^^ field pa 28 10 ^^^ field pa 38 10 ^^^ field pa 48 4) 0

/-! ### The L1 (R18, R20) -/

/-- A line comes into a core's L1, which holds 1,024: the oldest one goes. -/
def Caches.fillL1 (c : Caches) (core line : Nat) : Caches :=
  let ls := (core, line) :: c.l1.filter (fun x => x != (core, line))
  let mine := ls.filter (fun x => x.1 == core)
  { c with l1 := if mine.length ≤ 1024 then ls
                 else match mine.getLast? with | some old => ls.filter (fun x => x != old) | none => ls }

/-- A core's L1 holds a line. -/
def Caches.inL1 (c : Caches) (core line : Nat) : Bool := c.l1.contains (core, line)

/-- A core drops a line. -/
def Caches.dropL1 (c : Caches) (core line : Nat) : Caches := { c with l1 := c.l1.filter (fun x => x != (core, line)) }

/-- A core drops every line of global and private data. -/
def Caches.clearL1 (c : Caches) (core : Nat) : Caches := { c with l1 := c.l1.filter (fun x => x.1 != core) }

/-! ### The L2 and compression (R21, R140..R142) -/

/-- The L2 holds a line. -/
def Caches.inL2 (c : Caches) (line : Nat) : Bool := c.l2.any (fun x => x.line == line)

/-- The next read of the line finds a reserved selector, 6 or 7 (R140). -/
def Caches.unreadable (c : Caches) (line : Nat) : Bool :=
  c.coded.any (fun x => x.line == line && 6 ≤ x.selector) && !c.inL2 line

/-- Selector and granules of an evicted line (R140): `data` is its 256 bytes and 32 side-band bytes as a number. The smallest
size wins, and the lower selector among equals; a coder that needs nine granules or more is not chosen. -/
def encodingOf (data : Nat) : Nat × Nat :=
  if data = 0 then (1, 0)
  else ([2, 3, 4, 5].map (fun k => (k, max 1 (Config.coderSize k data)))).foldl
    (fun b x => if x.2 < b.2 then x else b) (0, 9)

/-- The selector and granules under which a line goes back to HBM: raw unless compression applies to it (R140). -/
def Caches.selectorOf (c : Caches) (l : CacheLine) (data : Nat) : Nat × Nat :=
  if l.c && c.cmp.contains l.line then encodingOf data else (0, 9)

/-- Selector and granules that a line has in HBM. -/
def Caches.storedAs (c : Caches) (line : Nat) : Nat × Nat :=
  match c.coded.find? (fun x => x.line == line) with | some x => (x.selector, x.granules) | none => (0, 9)

/-- The selector and granules under which a line leaves the L2: one that was never expanded there leaves as it came (R141). -/
def Caches.leavesAs (c : Caches) (l : CacheLine) (data : Nat) : Nat × Nat :=
  if l.packed then c.storedAs l.line else c.selectorOf l data

/-- A line that comes or stands compressed: what has been stored compressed comes so, and stays so until it is expanded (R141). -/
def Caches.packed (c : Caches) (line : Nat) : Bool :=
  if c.inL2 line then c.l2.any (fun x => x.line == line && x.packed) else 1 ≤ (c.storedAs line).1

/-- The L2 line is not expanded (R141). -/
def Caches.pack (c : Caches) (line : Nat) : Caches :=
  { c with l2 := c.l2.map (fun x => if x.line = line then { x with packed := true } else x) }

/-- C bit of the page through which the L2 line was reached last (R140). -/
def Caches.pageC (c : Caches) (line : Nat) : Bool := c.l2.any (fun x => x.line == line && x.c)

/-- An evicted line leaves its metadata in HBM (R140). -/
def Caches.evict (c : Caches) (l : CacheLine) (e : Nat × Nat) : Caches :=
  let rest := c.coded.filter (fun x => x.line != l.line)
  { c with l2 := c.l2.filter (fun x => x.line != l.line)
           coded := if e.1 = 0 then rest else ⟨l.line, e.1, e.2⟩ :: rest }

/-- The line of a slice that goes first: one of the stream class after its first use (R142), else the oldest. -/
def firstOut (ls : List CacheLine) : Option CacheLine :=
  match ls.reverse.find? (fun x => x.cls == .stream true) with
  | some x => some x
  | none => ls.getLast?

/-- A use of a line in the stream class is its first (R142). -/
def LineClass.use : LineClass → LineClass
  | .normal => .normal
  | .stream _ => .stream true

/-- The line that leaves when one at an address comes in: none while the home slice, of 8,192 lines, has room. -/
def Caches.victim (c : Caches) (home : Nat → Nat) (pa : Nat) : Option CacheLine :=
  if c.l2.length < 8192 then none
  else
    let mine := c.l2.filter (fun x => home (256 * x.line) == home pa)
    if mine.length < 8192 then none else firstOut mine

/-- A line that the L2 holds is used, through a page with the C bit `l.c`, and perhaps written; it is expanded there (R140, R141). -/
def Caches.useL2 (c : Caches) (l : CacheLine) : Caches :=
  { c with l2 := c.l2.map (fun x => if x.line = l.line
      then { x with cls := x.cls.use, c := l.c, dirty := x.dirty || l.dirty, packed := false } else x) }

/-- A line comes into the L2. -/
def Caches.putL2 (c : Caches) (l : CacheLine) : Caches := { c with l2 := l :: c.l2 }

/-- The L2 line that holds an address joins the stream class (R286). -/
def Caches.toStream (c : Caches) (line : Nat) : Caches :=
  { c with l2 := c.l2.map (fun x => if x.line = line then { x with cls := .stream true } else x) }

/-- The last engine write to a line came through a descriptor with this CMP (R140). -/
def Caches.setCmp (c : Caches) (line : Nat) (cmp : Bool) : Caches :=
  { c with cmp := if cmp then setAdd c.cmp line else setDel c.cmp line }

/-! ### The TLBs (R402) -/

/-- Entries that a holder keeps: 2,048 of a core, 32,768 of a die. -/
def tlbLimit (holder : Nat) : Nat := if holder < 192 then 2048 else 32768

/-- An entry comes into the TLB of its holder, unless it is there; the oldest one of a full TLB goes. -/
def Caches.fillTlb (c : Caches) (e : TlbEntry) : Caches :=
  if c.tlb.contains e then c
  else
    let mine := c.tlb.filter (fun x => x.holder == e.holder)
    let rest := if mine.length < tlbLimit e.holder then c.tlb
      else match mine.getLast? with | some old => c.tlb.filter (fun x => x != old) | none => c.tlb
    { c with tlb := e :: rest }

end Sys2Proof.Machine
end

