-- ==== Sys2Proof/Machine/Access.lean ====
section
/-!
DEFINITION. Addresses: the page walk and its checks (R397..R404), the checks of a generic address (R116..R122), and the
bytes and side-bands behind an address. Memory is read and written nowhere else.
-/
namespace Sys2Proof.Machine

/-! ### Physical memory (R399) -/

/-- First physical address of the publish window. -/
def pubBase : Nat := 0xFFFF000000000
/-- Bytes of the publish window. -/
def pubSize : Nat := 0x40000
/-- First byte above HBM. -/
def hbmEnd : Nat := 0x9000000000

/-- Where a byte lies: physical memory, or the scratchpad of a block. -/
inductive Place where
  | dev (pa : Nat)
  | spad (bid off : Nat)
  deriving DecidableEq, Repr

/-- The byte at a place; a physical byte of the publish window is a byte of the table (R403). -/
def State.byteAt (s : State) : Place → Byte
  | .dev pa => if pubBase ≤ pa ∧ pa < pubBase + pubSize then smGet 0 s.hub.publish (pa - pubBase) else smGet 0 s.mem pa
  | .spad bid off => match s.findBlock bid with | some b => smGet 0 b.spad off | none => 0

/-- The place `i` bytes further on. -/
def Place.plus : Place → Nat → Place
  | .dev pa, i => .dev (pa + i)
  | .spad bid off, i => .spad bid (off + i)

/-- `n` bytes from a place, lowest first. -/
def State.bytesAt (s : State) (p : Place) (n : Nat) : List Byte := (List.range n).map (fun i => s.byteAt (p.plus i))

/-- `n` bytes from a place as a little-endian value (R2). -/
def State.readAt (s : State) (p : Place) (n : Nat) : Nat := leNat (s.bytesAt p n)

/-- Side-band of the sector that holds a place (R28). -/
def State.sideAt (s : State) : Place → SideBand
  | .dev pa => smGet 0 s.memSide (pa / 64)
  | .spad bid off => match s.findBlock bid with | some b => smGet 0 b.spadSide (off / 64) | none => 0

/-- The sector that holds a place is marked poisoned (R410), or its line has a reserved selector (R140). -/
def State.poisonAt (s : State) : Place → Bool
  | .dev pa => s.poison.contains (pa / 64) || s.caches.unreadable (lineOf pa)
  | .spad bid off => match s.findBlock bid with | some b => b.spadPoison.contains (off / 64) | none => false

/-! ### The publish table (R403) -/

/-- A field of publish entry `i`: `n` bytes at byte `o`. -/
def Hub.pubField (h : Hub) (i o n : Nat) : Nat := loadLe h.publish (64 * i + o) n

/-- Publish entry `i`. -/
def Hub.pubEntry (h : Hub) (i : Nat) : PubEntry :=
  { vbase := h.pubField i 0 8, size := h.pubField i 8 8, pa0 := h.pubField i 16 8, pa1 := h.pubField i 24 8
    rid := h.pubField i 0x20 2, front := (h.pubField i 0x22 1).testBit 0, linked := (h.pubField i 0x22 1).testBit 1
    gen := BitVec.ofNat 32 (h.pubField i 0x24 4), link := h.pubField i 0x28 2 }

/-- The entries that hold a nonzero byte. -/
def Hub.pubIndices (h : Hub) : List Nat := h.publish.foldl (fun l c => setAdd l (c.1 / 64)) []

/-- The active entry of a partition whose range holds an address (R404). -/
def Hub.pubFind (h : Hub) (rid va : Nat) : Option Nat :=
  h.pubIndices.find? (fun i =>
    let e := h.pubEntry i
    e.size != 0 && e.rid == rid && e.vbase ≤ va && va < e.vbase + e.size)

/-- The entry may be activated: every field fits the table and no active entry of the RID overlaps (R403). -/
def Hub.pubLegal (h : Hub) (i : Nat) (e : PubEntry) (size : Nat) : Bool :=
  let hbmBase (a : Nat) := a % 0x10000 = 0 && a + size ≤ hbmEnd
  e.vbase % 0x10000 = 0 && e.vbase < 2 ^ 56 && size % 0x10000 = 0 && hbmBase e.pa0 && hbmBase e.pa1
  && h.pubField i 0x22 1 < 4 && (!e.linked || e.link < 4096) && h.pubField i 0x23 1 = 0 && loadLe h.publish (64 * i + 0x2A) 22 = 0
  && h.pubIndices.all (fun j => j == i ||
      let f := h.pubEntry j
      f.size = 0 || f.rid ≠ e.rid || f.vbase + f.size ≤ e.vbase || e.vbase + size ≤ f.vbase)

/-- A store of `n` bytes at offset `o` of the publish window (R403): while an entry is active only the SIZE part of one is
accepted, and only 0; a store that makes SIZE nonzero activates the entry if the table allows it, and is logged otherwise. -/
def State.pubStore (s : State) (o n x : Nat) : State :=
  let i := o / 64
  let old := s.hub.pubField i 8 8
  let h' : Hub := { s.hub with publish := storeLe s.hub.publish o n x }
  let new := h'.pubField i 8 8
  if old ≠ 0 then
    (if new = 0 then { s with hub := { s.hub with publish := storeLe s.hub.publish (64 * i + 8) 8 0 } } else s)
  else if new = 0 then { s with hub := h' }
  else if h'.pubLegal i (h'.pubEntry i) new then { s with hub := h' }
  else s.log 26 1 0x20 i

/-! ### Writing -/

/-- Write `n` bytes at a place, as a little-endian value; the side-band stays (R29). -/
def State.writeAt (s : State) (p : Place) (n x : Nat) : State :=
  match p with
  | .dev pa =>
    if pubBase ≤ pa ∧ pa < pubBase + pubSize then s.pubStore (pa - pubBase) n x
    else { s with mem := storeLe s.mem pa n x }
  | .spad bid off => s.modBlock bid (fun b => { b with spad := storeLe b.spad off n x })

/-- Write the side-band of a sector. -/
def State.writeSide (s : State) (p : Place) (x : SideBand) : State :=
  match p with
  | .dev pa => { s with memSide := smSet 0 s.memSide (pa / 64) x }
  | .spad bid off => s.modBlock bid (fun b => { b with spadSide := smSet 0 b.spadSide (off / 64) x })

/-- A write of a whole sector clears its poison mark (R410). -/
def State.clearPoison (s : State) (p : Place) : State :=
  match p with
  | .dev pa => { s with poison := setDel s.poison (pa / 64) }
  | .spad bid off => s.modBlock bid (fun b => { b with spadPoison := setDel b.spadPoison (off / 64) })

/-- Write a sector with its side-band as one unit (R147). -/
def State.writeSector (s : State) (p : Place) (x : BitVec 512) (sb : SideBand) : State :=
  ((s.writeAt p 64 x.toNat).writeSide p sb).clearPoison p

/-- The 64 data bytes of a sector. -/
def State.sectorAt (s : State) (p : Place) : BitVec 512 := BitVec.ofNat 512 (s.readAt p 64)

/-! ### Page tables (R397, R398, R401, R402) -/

/-- What reaches a page (R401). -/
inductive AccKind where
  | load | store | atomic | prefetch | fetch | spillXfer
  | engineRead
  /-- An engine write; `db`: through a descriptor with DB = 1. -/
  | engineWrite (db : Bool)
  deriving DecidableEq, Repr

/-- On whose behalf addresses are translated: the partition's RID and page-table root, and whether at user level. -/
structure View where
  rid : Nat
  root : Nat
  user : Bool
  /-- The core whose TLBs serve the access; none for the CP and the hub. -/
  core : Option Nat
  /-- The region's own id, under which the event counters count (R444). -/
  own : Nat
  deriving DecidableEq, Repr

/-- The view of a region. -/
def State.view (s : State) (rcb : Nat) (system : Bool) : View :=
  match s.partition rcb with
  | some r => { rid := r.rid, root := r.ptroot, user := !system, core := none, own := s.ridOf rcb }
  | none => { rid := 0, root := 0, user := !system, core := none, own := 0 }

/-- The view of the team in focus: with the page-table root and the RID that its block was placed under (R371). -/
def State.teamView (s : State) : View :=
  match s.blk.eff with
  | some r => { rid := s.blk.prid, root := r.ptroot, user := !s.team.system, core := some s.team.core, own := r.rid }
  | none => { s.view s.team.rcb s.team.system with core := some s.team.core }

/-- log2 of the page that a leaf of a level maps (R397). -/
def leafBits (level : Nat) : Nat := 46 - 10 * level

/-- An entry with V = 1 is malformed (R398, R399). -/
def pteMalformed (level e : Nat) : Bool :=
  let leaf := e.testBit 8
  let addr := e / 2 ^ 13 % 2 ^ 39 * 2 ^ 13
  let ca := field e 58 2
  field e 60 4 ≠ 0 || field e 52 6 ≠ 0 || field e 9 4 ≠ 0 || (level = 0 && leaf) || (level = 3 && !leaf)
  || (leaf && (addr % 2 ^ leafBits level ≠ 0
      || (ca ≠ 3 && !(addr + 2 ^ leafBits level ≤ hbmEnd
          || (pubBase ≤ addr && addr + 2 ^ leafBits level ≤ pubBase + pubSize)))))

/-- What the page tables answer for an address. -/
inductive Leaf where
  /-- A leaf entry, and log2 of the page it maps. -/
  | page (e bits : Nat)
  /-- PAGE_NOT_PRESENT (R401 check 1). -/
  | absent
  /-- An entry on the way lies in a poisoned sector (R410). -/
  | bad
  deriving DecidableEq, Repr

/-- The walk from a table of a level. -/
def State.walk (s : State) (va : Nat) : Nat → Nat → Nat → Leaf
  | 0, _, _ => .absent
  | n + 1, level, table =>
    let a := table + 8 * (va / 2 ^ leafBits level % 1024)
    let e := s.readAt (.dev a) 8
    if s.poisonAt (.dev a) then .bad
    else if !e.testBit 0 || pteMalformed level e then .absent
    else if e.testBit 8 then .page e (leafBits level)
    else s.walk va n (level + 1) (e / 2 ^ 13 % 2 ^ 39 * 2 ^ 13)

/-- The TLBs that serve a view: its core's, and its die's. -/
def View.holders (v : View) : List Nat := match v.core with | some c => [c, 192 + c / 96] | none => []

/-- The cached entries that cover an address (R402). -/
def State.cached (s : State) (v : View) (va : Nat) : List TlbEntry :=
  s.caches.tlb.filter (fun t => v.holders.contains t.holder && t.rid == v.rid && t.va / 2 ^ t.bits == va / 2 ^ t.bits)

/-- The leaf that an entry leads to: itself, or the end of a walk from the table that it names. -/
def State.leafFrom (s : State) (va : Nat) (t : TlbEntry) : Leaf :=
  if t.leaf then .page t.pte t.bits
  else s.walk va 3 ((46 - t.bits) / 10 + 1) (t.pte / 2 ^ 13 % 2 ^ 39 * 2 ^ 13)

/-- The leaf used for an address: the tables', or where cached entries lead elsewhere one of those (R402): a free choice. -/
def State.leaf (s : State) (v : View) (va : Nat) : Leaf :=
  let now := s.walk va 4 0 v.root
  match ((s.cached v va).map (s.leafFrom va)).filter (fun x => x != now) with
  | [] => now
  | x :: xs => (now :: x :: xs).getD (Config.free (s.free + va) % (xs.length + 2)) now

/-- A table entry that a walk reads: its address, what it holds, and log2 of what it maps. -/
structure WalkRead where
  addr : Nat
  e : Nat
  bits : Nat
  deriving DecidableEq, Repr

/-- The entries that a walk reads, to the leaf or the entry at which it fails (R397). -/
def State.walkReads (s : State) (va : Nat) : Nat → Nat → Nat → List WalkRead
  | 0, _, _ => []
  | n + 1, level, table =>
    let a := table + 8 * (va / 2 ^ leafBits level % 1024)
    let e := s.readAt (.dev a) 8
    ⟨a, e, leafBits level⟩ ::
      if s.poisonAt (.dev a) || !e.testBit 0 || pteMalformed level e || e.testBit 8 then []
      else s.walkReads va n (level + 1) (e / 2 ^ 13 % 2 ^ 39 * 2 ^ 13)

/-- The access kind finds its bits set (R401 check 4): R is bit 1, W bit 2, X bit 3, WR bit 6. -/
def permitted (e : Nat) : AccKind → Bool
  | .load | .engineRead => e.testBit 1
  | .store | .engineWrite _ => e.testBit 2
  | .atomic => e.testBit 1 && e.testBit 2
  | .prefetch => e.testBit 1
  | .fetch => e.testBit 1 && e.testBit 3
  | .spillXfer => e.testBit 1 && e.testBit 2 && e.testBit 6

/-- Accesses that must not meet a spill area (R105, R401 check 3). -/
def AccKind.shunsSpill : AccKind → Bool
  | .load | .store | .atomic | .prefetch | .engineRead | .engineWrite _ => true
  | .fetch | .spillXfer => false

/-- A CA-3 page that the access may reach (R404): reads take the front backing, DB writes the shadow, everything else is
refused. -/
def State.published (s : State) (v : View) (k : AccKind) (va : Nat) : Except Cause Nat :=
  match s.hub.pubFind v.rid va with
  | none => .error .pageNotPresent
  | some i =>
    let e := s.hub.pubEntry i
    let base (front : Bool) := if e.front == front then e.pa1 else e.pa0
    match k with
    | .load | .engineRead | .prefetch | .fetch => .ok (base true + (va - e.vbase))
    | .engineWrite true => .ok (base false + (va - e.vbase))
    | _ => .error .pagePermission

/-- Translate a virtual address: the checks of R401 in order. A poisoned page-table entry is consumed by the access (R410). -/
def State.translate (s : State) (v : View) (k : AccKind) (va : Nat) : Except Cause Nat :=
  match (if va < 2 ^ 56 then s.leaf v va else .absent) with
  | .absent => .error .pageNotPresent
  | .bad => .error .memoryPoison
  | .page e bits =>
    if v.user && !e.testBit 4 then .error .pagePermission
    else if k.shunsSpill && e.testBit 6 then .error .windowArea
    else if !permitted e k then .error .pagePermission
    else if field e 58 2 = 3 then s.published v k va
    else .ok (e / 2 ^ 13 % 2 ^ 39 * 2 ^ 13 + va % 2 ^ bits)

/-- The physical address behind a page that is present, whatever it permits: of a published one the front backing (R120, R404). -/
def State.behind (s : State) (v : View) (va : Nat) : Option Nat :=
  match (if va < 2 ^ 56 then s.leaf v va else .absent) with
  | .page e bits => if field e 58 2 = 3 then (s.published v .load va).toOption else some (e / 2 ^ 13 % 2 ^ 39 * 2 ^ 13 + va % 2 ^ bits)
  | _ => none

/-! ### What an access leaves in TLBs and caches (R20, R21, R140, R400, R402), and what it counts (R445, log 66) -/

/-- A line's 256 bytes and its side-bands as one number. -/
def State.lineData (s : State) (line : Nat) : Nat :=
  s.readAt (.dev (256 * line)) 256
    + (List.range 4).foldl (fun n i => n + (s.sideAt (.dev (256 * line + 64 * i))).toNat * 2 ^ (2048 + 64 * i)) 0

/-- Home slice of a physical address (R438). -/
def State.home (s : State) (pa : Nat) : Nat := homeOf s.amc.cfg.home pa

/-- Compute die, 0 or 1, of the home slice of a physical address (R438). -/
def State.homeDie (s : State) (pa : Nat) : Nat := if s.home pa < 80 then 0 else 1

/-- Counter unit of the die to which the stack of a physical address is attached (R14). -/
def stackUnit (pa : Nat) : Nat := 192 + Config.stackOf pa % 12 / 6

/-- A line leaves the L2: its metadata stays behind, and what was written goes back to its stack (R140). Its events belong to
no region. -/
def State.evictLine (s : State) (l : CacheLine) : State :=
  let e := s.caches.leavesAs l (s.lineData l.line)
  let u := if e.1 = 0 then s else s.countEvent (192 + s.homeDie (256 * l.line)) 7 0 1
  let u := if l.dirty then u.countEvent (stackUnit (256 * l.line)) 10 0 4 else u
  { u with caches := u.caches.evict l e }

/-- A line comes into the L2, in place of another where its slice is full. -/
def State.bringLine (s : State) (l : CacheLine) : State :=
  let u := match s.caches.victim s.home (256 * l.line) with | some x => s.evictLine x | none => s
  { u with caches := u.caches.putL2 l }

/-- An access is served by the L2: a hit, or a miss that reads the line's four sectors from its stack. -/
def State.reachL2 (s : State) (own pa : Nat) (l : CacheLine) : State :=
  let die := 192 + s.homeDie pa
  if s.caches.inL2 l.line then
    let u := s.countEvent die 1 own 1
    { u with caches := u.caches.useL2 l }
  else ((s.countEvent die 2 own 1).countEvent (stackUnit pa) 9 own 4).bringLine l

/-- The access carries data to the line. -/
def AccKind.writes : AccKind → Bool
  | .store | .atomic | .engineWrite _ => true
  | _ => false

/-- `n` units cross from the die of a core to a line's home die, or back: the die that sends them counts them. -/
def State.crossDies (s : State) (k : AccKind) (own core pa n : Nat) : State :=
  let home := s.homeDie pa
  if core / 96 = home then s
  else
    let u := if k.writes then s.countEvent (192 + core / 96) 3 own n else s
    if k.writes && k ≠ .atomic then u else u.countEvent (192 + home) 3 own n

/-- A line that an access can reach in the L2: it lies in HBM and can be read (R140). -/
def State.reachable (s : State) (pa : Nat) : Bool := pa < hbmEnd && !s.caches.unreadable (lineOf pa)

/-- A walker, or the CP, reads or writes physical memory at the L2 home slice of a line (R402), and nothing of it is kept
elsewhere; the C bit of the line stays that of the page it was reached through last. -/
def State.notePhys (s : State) (own : Nat) (write : Bool) (pa : Nat) : State :=
  if s.reachable pa then s.reachL2 own pa { line := lineOf pa, cls := .normal, c := s.caches.pageC (lineOf pa), dirty := write } else s

/-- What a look-up costs, and what a walk found is kept in the TLBs of the view: the leaf at the core and the die, the entries above
it at the die; an entry with V = 0 is not (R402). A miss at the core, one at the die and the walk it begins are counted, whether
the walk succeeds or not. The walker reads the entries that the die does not hold in the L2. The CP, the hub and the host keep no
TLB: they walk each time. -/
def State.fillTlb (s : State) (v : View) (va : Nat) : State :=
  let rs := s.walkReads va 4 0 v.root
  match v.core with
  | none => rs.foldl (fun u r => u.notePhys v.own false r.addr) s
  | some core =>
    let die := 192 + core / 96
    let hit (holder : Nat) : Bool := (s.cached v va).any (fun t => t.leaf && t.holder == holder)
    let entry (holder : Nat) (r : WalkRead) : TlbEntry := ⟨holder, r.e.testBit 8, v.rid, va / 2 ^ r.bits * 2 ^ r.bits, r.bits, r.e⟩
    if hit core then s
    else
      let u := s.countEvent core 12 v.own 1
      let u := if hit die then u else
        (rs.filter (fun r => !s.caches.tlb.contains (entry die r))).foldl
          (fun u r => (u.crossDies .load v.own core r.addr 1).notePhys v.own false r.addr)
          ((u.countEvent die 4 v.own 1).countEvent die 5 v.own 1)
      match s.walk va 4 0 v.root with
      | .page _ _ =>
        { u with caches := (rs.filter (fun r => r.e.testBit 8)).foldl (fun c r => c.fillTlb (entry core r))
                   (rs.foldl (fun c r => c.fillTlb (entry die r)) u.caches) }
      | _ => u

/-- An access reaches a line through a leaf (R20, R400): a load of a CA-0 page goes through the core's L1, which takes the whole
line, all else to the L2, which takes the line under the stream class for CA 2; an atomic drops the core's copy (R129). A line that
cannot be read stays away (R140). -/
def State.touchLine (s : State) (k : AccKind) (v : View) (e pa : Nat) : State :=
  let n := lineOf pa
  let l : CacheLine := { line := n, cls := if field e 58 2 = 2 then .stream true else .normal, c := e.testBit 7, dirty := k.writes }
  if !s.reachable pa then s
  else
    match v.core with
    | none => s.reachL2 v.own pa l
    | some core =>
      let first := k = .load && field e 58 2 = 0
      if first && s.caches.inL1 core n then s
      else
        let u := if first then s.countEvent core 11 v.own 1 else s
        let u := (u.crossDies k v.own core pa (if first then 4 else 1)).reachL2 v.own pa l
        { u with caches := if k = .atomic then u.caches.dropL1 core n
                           else if first then u.caches.fillL1 core n else u.caches }

/-- The codes of faults that the look-up of an address may raise (R401, R409, R410). -/
def lookupCode (code : Nat) : Bool := [0x10, 0x17, 0x18, 0x1F].contains code

/-- An access at a virtual address leaves its mark on TLBs and caches: its look-up, and if it passes the checks of kind `k` the line
that it reaches, as one of kind `as` does. -/
def State.noteAs (s : State) (v : View) (k as : AccKind) (va : Nat) : State :=
  if va < 2 ^ 56 then
    match s.leaf v va, s.translate v k va with
    | .page e _, .ok pa => (s.fillTlb v va).touchLine as v e pa
    | _, _ => s.fillTlb v va
  else s

/-- An access leaves the mark of its own kind. -/
def State.noteVa (s : State) (v : View) (k : AccKind) (va : Nat) : State := s.noteAs v k k va

/-- The sectors of `n` bytes at a virtual address are accessed. -/
def State.noteRange (s : State) (v : View) (k as : AccKind) (va n : Nat) : State :=
  (List.range (if n = 0 then 0 else (va + n + 63) / 64 - va / 64)).foldl (fun t i =>
    t.noteAs v k as (max va ((va / 64 + i) * 64))) s

/-! ### Generic addresses (R116..R122) -/

/-- Where a checked address leads before translation. -/
inductive Target where
  | va (a : Nat)
  | spad (bid off : Nat)
  deriving DecidableEq, Repr

/-- The cluster of the block in focus. -/
def State.myCluster (s : State) : Option Cluster := s.findCluster s.blk.cid

/-- A block is resident on a core (R121, R419). -/
def Block.onCore (b : Block) (core : Nat) : Bool := !b.swapped && (b.core = core || (b.twin && b.core + 1 = core))

/-- The owning core of a scratchpad offset (R122). -/
def Block.ownerCore (b : Block) (off : Nat) : Nat := if b.twin && b.k.spad / 2 ≤ off then b.core + 1 else b.core

/-- The core that a cluster-relative index names from the core of the accessing lane (R15, R121). -/
def State.coreAt (s : State) (idx : Nat) : Nat := s.team.core / 16 * 16 + idx

/-- A cluster is out of its core group (R418, R419). -/
def State.clusterAway (s : State) (c : Cluster) : Bool := s.allBlocks.any (fun b => b.cid == c.cid && b.swapped)

/-- A cluster holds its tag on a core until it ends (R118), but for the time that it is swapped out (R419). -/
def State.clusterOn (s : State) (c : Cluster) (core : Nat) : Bool := c.cores.contains core && !s.clusterAway c

/-- The block of a cluster with a rank, while it has not ended; a command of an ended block still reaches its own (R211). -/
def State.rankBlock (s : State) (cid rank : Nat) : Option Block :=
  s.allBlocks.find? (fun b => b.cid == cid && b.rank == rank && (!b.ended || b.bid == s.blk.bid))

/-- The zero fields of R117 and R119 hold zero (and the space code is known). -/
def addrFormed (p : Nat) : Bool :=
  let sp := p / 2 ^ 56
  if sp = 0 then true
  else if sp = 0xF0 then field p 32 4 = 0 && (field p 36 8 ≠ 0 || field p 44 12 = 0)
  else if sp = 0xF1 then field p 21 23 = 0 && (field p 44 8 ≠ 0 || field p 52 4 = 0)
  else if sp = 0xF2 then field p 24 20 = 0 && (field p 44 8 ≠ 0 || field p 52 4 = 0)
  else false

/-- A lane's index in its block (R58). -/
def State.laneInBlock (s : State) (lane : Nat) : Nat := s.team.tib * s.team.size + lane

/-- Tag, owner and range checks of R121 for `range` bytes, without the core field and alignment. A cluster holds its tag on
its cores until it ends (R118); where the spec's table and its bullets name different causes, log 38. -/
def State.checkOwner (s : State) (p range lane : Nat) : Except Cause Target :=
  let sp := p / 2 ^ 56
  if !addrFormed p then .error .spaceInvalid
  else if sp = 0 then .ok (.va (p % 2 ^ 56))
  else if sp = 0xF0 then
    let tag := field p 36 8
    let off := p % 2 ^ 32
    if tag ≠ 0 && (tag ≠ s.blk.tag || field p 44 12 ≠ s.laneInBlock lane) then .error .spaceForeign
    else if s.blk.d.privSz < off + range then .error .spaceInvalid
    else .ok (.va (s.blk.pbase + s.laneInBlock lane * s.blk.d.privSz + off))
  else if sp = 0xF1 then
    let tag := field p 44 8
    let off := p % 2 ^ 21
    let core := s.coreAt (field p 52 4)
    match (if tag = 0 then some s.blk else s.allBlocks.find? (fun b =>
        b.onCore core && b.tag == tag && (!b.ended || b.bid == s.blk.bid))) with
    | none => .error .spaceStale
    | some b =>
      if b.bid ≠ s.blk.bid then .error .spaceForeign
      else if s.blk.k.spad < off + range then .error .spaceInvalid
      else .ok (.spad s.blk.bid off)
  else
    let tag := field p 44 8
    let off := p % 2 ^ 21
    let rank := field p 21 3
    let core := s.coreAt (field p 52 4)
    let holder := if tag = 0 then s.myCluster else s.clusters.find? (fun c => c.tag == tag && s.clusterOn c core)
    match holder with
    | none => .error .spaceForeign
    | some c =>
      if rank < c.size && (s.rankBlock c.cid rank).isNone then .error .spaceStale
      else if c.cid ≠ s.blk.cid then .error .spaceForeign
      else match s.rankBlock c.cid rank with
        | none => .error .spaceInvalid
        | some b => if b.k.spad < off + range then .error .spaceInvalid else .ok (.spad b.bid off)

/-- The core field of an absolute local address names the owning core (R121, R122). -/
def State.coreMatches (s : State) (p : Nat) (t : Target) : Bool :=
  match t with
  | .va _ => true
  | .spad bid off =>
    field p 44 8 = 0 ||
    match s.findBlock bid with
    | some b => s.coreAt (field p 52 4) = b.ownerCore off
    | none => false

/-- `check_access` of R121 up to translation: `range` bytes, aligned to `align`. -/
def State.checkAddr (s : State) (p : Word64) (range align lane : Nat) : Except Cause Target :=
  match s.checkOwner p.toNat range lane with
  | .error c => .error c
  | .ok t =>
    if !s.coreMatches p.toNat t then .error .spaceInvalid
    else if (if p.toNat / 2 ^ 56 = 0 then p.toNat % 2 ^ 56
             else if p.toNat / 2 ^ 56 = 0xF0 then p.toNat % 2 ^ 32 else p.toNat % 2 ^ 21) % align ≠ 0 then .error .align
    else .ok t

/-- Translate or route a checked address for the team in focus. -/
def State.route (s : State) (k : AccKind) : Target → Except Cause Place
  | .spad bid off => .ok (.spad bid off)
  | .va a => match s.translate s.teamView k a with | .ok pa => .ok (.dev pa) | .error c => .error c

/-- Name a cause as the fault of a lane at its address (R232). -/
def State.laneFault {α : Type} (s : State) (lane : Nat) (p : Word64) (r : Except Cause α) : Except FaultInfo α :=
  match r with | .ok x => .ok x | .error c => .error (s.fltAt c lane p)

/-- The accesses of several lanes (lane, address): every check of R121 first, then every translation (R275). -/
def State.accessAll (s : State) (k : AccKind) (range align : Nat) (ps : List (Nat × Word64)) :
    Except FaultInfo (List (Nat × Place)) := do
  let ts ← ps.mapM (fun p => do return (p, ← s.laneFault p.1 p.2 (s.checkAddr p.2 range align p.1)))
  ts.mapM (fun t => do return (t.1.1, ← s.laneFault t.1.1 t.1.2 (s.route k t.2)))

/-- One access for lane 0: a scalar word or an object of an engine command. -/
def State.accessOne (s : State) (k : AccKind) (p : Word64) (range align : Nat) : Except FaultInfo Place := do
  let t ← s.laneFault 0 p (s.checkAddr p range align 0)
  s.laneFault 0 p (s.route k t)

/-- The virtual addresses among lane addresses. -/
def State.lanesVa (s : State) (ps : List (Nat × Word64)) : List Nat :=
  ps.filterMap (fun p => match s.checkAddr p.2 1 1 p.1 with | .ok (.va a) => some a | _ => none)

/-- The first address of each sector among some addresses. -/
def oneASector (as : List Nat) : List Nat :=
  as.foldl (fun l a => if l.any (fun b => b / 64 == a / 64) then l else l ++ [a]) []

/-- The virtual addresses among lane addresses leave their marks on TLBs and caches (R20, R402): lanes that reach one sector make one
access of it, but for atomics. -/
def State.noteTlb (s : State) (k : AccKind) (ps : List (Nat × Word64)) : State :=
  (if k = .atomic then s.lanesVa ps else oneASector (s.lanesVa ps)).foldl (fun t a => t.noteVa t.teamView k a) s

/-- Descriptors and lists that an engine word has read at issue leave the marks of loads (R320, R402). -/
def State.noteUnits (s : State) (ps : List Word64) : State := s.noteTlb .load (ps.map (fun p => (0, p)))

/-- A read that consumes a poisoned sector (R410). -/
def State.notPoisoned (s : State) (lane : Nat) (addr : Word64) (p : Place) : Except FaultInfo Unit :=
  need (!s.poisonAt p) (s.fltAt .memoryPoison lane addr)

/-- Read one object of `w` bytes, aligned to them, as a load of the team (R320): ALIGN first (R128). -/
def State.loadUnit (s : State) (p : Word64) (w : Nat) : Except FaultInfo (List Byte) := do
  need (p.toNat % w = 0) (s.fltAt .align 0 p)
  let pl ← s.accessOne .load p w w
  s.notPoisoned 0 p pl
  return s.bytesAt pl w

/-- Read `n` units of `w` bytes that follow one another. -/
def State.loadUnits (s : State) (p : Word64) (w : Nat) : Nat → Except FaultInfo (List Byte)
  | 0 => .ok []
  | n + 1 => do
    let b ← s.loadUnit p w
    let bs ← s.loadUnits (p + BitVec.ofNat 64 w) w n
    return b ++ bs

/-! ### Ranges of virtual memory: spill areas, records, tables -/

/-- The 64 KiB pages that `n` bytes at `va` touch, each with its physical base, or the first fault and its address. -/
def State.span (s : State) (v : View) (k : AccKind) (va n : Nat) : Except (Cause × Nat) (List (Nat × Nat)) :=
  (List.range ((va + n - 1) / 2 ^ 16 + 1 - va / 2 ^ 16)).mapM (fun i =>
    let page := (va / 2 ^ 16 + i) * 2 ^ 16
    match s.translate v k page with
    | .ok pa => .ok (page, pa)
    | .error c => .error (c, max va page))

/-- The physical address of a virtual one in translated pages. -/
def spanPa (ps : List (Nat × Nat)) (va : Nat) : Nat :=
  match ps.find? (fun p => p.1 == va / 2 ^ 16 * 2 ^ 16) with
  | some p => p.2 + va % 2 ^ 16
  | none => 0

/-- Read bytes through translated pages. -/
def State.readSpan (s : State) (ps : List (Nat × Nat)) (va n : Nat) : List Byte :=
  (List.range n).map (fun i => s.byteAt (.dev (spanPa ps (va + i))))

/-- The sectors that a write covers whole lose their poison mark (R410). -/
def State.clearWhole (s : State) (ps : List (Nat × Nat)) (va n : Nat) : State :=
  (List.range ((va + n) / 64 - ceilDiv va 64)).foldl (fun s i => s.clearPoison (.dev (spanPa ps ((ceilDiv va 64 + i) * 64)))) s

/-- Write bytes through translated pages. -/
def State.writeSpan (s : State) (ps : List (Nat × Nat)) (va : Nat) (bs : List Byte) : State :=
  ((bs.mapIdx (fun i b => (i, b))).foldl (fun s x => s.writeAt (.dev (spanPa ps (va + x.1))) 1 x.2.toNat) s).clearWhole ps va
    bs.length

/-- The address of the first poisoned sector of a range, or where the range begins in it. -/
def State.spanBad (s : State) (ps : List (Nat × Nat)) (va n : Nat) : Option Nat :=
  (((List.range ((va + n + 63) / 64 - va / 64)).map (fun i => (va / 64 + i) * 64)).find? (fun a =>
    s.poisonAt (.dev (spanPa ps a)))).map (fun a => max va a)

/-- Some sector of a range is poisoned. -/
def State.spanPoison (s : State) (ps : List (Nat × Nat)) (va n : Nat) : Bool :=
  (List.range ((va + n + 63) / 64 - va / 64)).any (fun i => s.poisonAt (.dev (spanPa ps ((va / 64 + i) * 64))))

/-- Read a range under a view: for the CP and the hub. -/
def State.readVa (s : State) (v : View) (k : AccKind) (va n : Nat) : Except Cause (List Byte) :=
  match s.span v k va n with
  | .error e => .error e.1
  | .ok ps => if s.spanPoison ps va n then .error .memoryPoison else .ok (s.readSpan ps va n)

/-- Write a range under a view, for the CP and the hub: the sectors are reached in the L2. -/
def State.writeVa (s : State) (v : View) (k : AccKind) (va : Nat) (bs : List Byte) : Except Cause State :=
  match s.span v k va bs.length with
  | .error e => .error e.1
  | .ok ps => .ok ((s.writeSpan ps va bs).noteRange v k k va bs.length)

/-! ### Space test and cast (R124, R125) -/

/-- `space_test` (R124). -/
def spaceTest (p : Nat) : Nat :=
  if !addrFormed p then 4
  else if p / 2 ^ 56 = 0 then 0
  else p / 2 ^ 56 - 0xF0 + 1

/-- Absolute private address of a lane (R117). -/
def State.mkPriv (s : State) (lane off : Nat) : Nat :=
  0xF0 * 2 ^ 56 + s.laneInBlock lane * 2 ^ 44 + s.blk.tag * 2 ^ 36 + off

/-- Absolute scratchpad address of the block in focus. -/
def State.mkSpad (s : State) (off : Nat) : Nat :=
  0xF1 * 2 ^ 56 + s.blk.ownerCore off % 16 * 2 ^ 52 + s.blk.tag * 2 ^ 44 + off

/-- Absolute cluster-shared address of a block of the cluster. -/
def State.mkShared (s : State) (b : Block) (off : Nat) : Nat :=
  let ctag := match s.myCluster with | some c => c.tag | none => 0
  0xF2 * 2 ^ 56 + b.ownerCore off % 16 * 2 ^ 52 + ctag * 2 ^ 44 + b.rank * 2 ^ 21 + off

/-- The conversion table of R125, for a checked `p` and `dst` in 0..3. -/
def State.castTo (s : State) (p dst lane : Nat) (t : Target) : Except Cause Nat :=
  match p / 2 ^ 56, dst with
  | 0, 0 => .ok p
  | 0, 1 =>
    let lo := s.blk.pbase + s.laneInBlock lane * s.blk.d.privSz
    if lo ≤ p ∧ p < lo + s.blk.d.privSz then .ok (s.mkPriv lane (p - lo)) else .error .spaceInvalid
  | 0xF0, 0 => match t with | .va a => .ok a | .spad .. => .error .spaceInvalid
  | 0xF0, 1 => .ok (s.mkPriv lane (p % 2 ^ 32))
  | 0xF1, 2 => .ok (s.mkSpad (p % 2 ^ 21))
  | 0xF1, 3 => .ok (s.mkShared s.blk (p % 2 ^ 21))
  | 0xF2, 2 =>
    (match t with
     | .spad bid off => if bid = s.blk.bid then .ok (s.mkSpad off) else .error .spaceForeign
     | .va _ => .error .spaceInvalid)
  | 0xF2, 3 =>
    (match t with
     | .spad bid off => match s.findBlock bid with | some b => .ok (s.mkShared b off) | none => .error .spaceStale
     | .va _ => .error .spaceInvalid)
  | _, _ => .error .spaceInvalid

/-- `space_cast` (R125); `dst` is 0..4 here. A fault of `p` comes before that of a `dst` of 4 (log 124). -/
def State.spaceCast (s : State) (p : Word64) (dst pol lane : Nat) : Except Cause Word64 :=
  let r : Except Cause Nat :=
    match s.checkOwner p.toNat 1 lane with
    | .error c => .error c
    | .ok t => if dst = 4 then .error .spaceInvalid else s.castTo p.toNat dst lane t
  match r with
  | .ok x => .ok (BitVec.ofNat 64 x)
  | .error c => if pol = 1 then .ok 0 else .error c

end Sys2Proof.Machine
end

