-- ==== Sys2Proof/WellFormed.lean ====
section
/-!
DEFINITION. Which instructions are well formed: every field within its width (R172), and no code that R191 gives the
fate ILLEGAL_INSTRUCTION for a reason that stands in the word itself. Checks that depend on the team (the element
type, the header, the claims) stand in the meanings.
-/
namespace Sys2Proof

/-- Why a term is not a well-formed instruction. -/
inductive IllForm where
  /-- A field does not fit its bits (R172). -/
  | fieldWidth
  /-- A uniform field holds 192..254 (R89, R191). -/
  | badUniform
  /-- An FN, kind, scope, AOP, CC, conversion or other code that is reserved (R191). -/
  | reservedCode
  /-- The slide code 15 (R94). -/
  | reservedSlide
  /-- A CONV whose cv, n and mode R82 does not allow. -/
  | badConvocation
  /-- An ENTER size that is no multiple of 8 or exceeds 120 (R95). -/
  | badFrame
  /-- A register, count or control-group range outside its limits (R237, R293, R314, R321). -/
  | badRange
  /-- A special-register id that R235 or R368 does not list. -/
  | badSpecial
  /-- An odd register in a 64-bit operand whatever the element type (R90). -/
  | oddPair
  /-- A claim count of 0 or above 32 (R296, R297). -/
  | badCount
  /-- An accumulator name 16..31 in TX format (R315). -/
  | badTileName
  /-- A reserved prefix field (R180). -/
  | prefixField
  /-- A prefix before a word that takes none (R180): PREFIX_MISUSE, not ILLEGAL_INSTRUCTION. -/
  | prefixMisplaced
  /-- A prefix field that the word it precedes does not allow (R180, R260, R276). -/
  | prefixClash
  deriving DecidableEq, Repr

/-- Answers `e` when the check fails. -/
def chk (e : IllForm) (ok : Bool) : Option IllForm := if ok then none else some e

/-- The first failing check of a list. -/
def firstOf : List (Option IllForm) → Option IllForm
  | [] => none
  | some e :: _ => some e
  | none :: rest => firstOf rest

/-- A legal uniform field: s0..s191 or sz (R173). -/
def isUniform (r : Nat) : Bool := r ≤ 191 || r = 255

/-- The ids of R235. -/
def isSpecial (i : Nat) : Bool := i ≤ 0x0C || (0x10 ≤ i && i ≤ 0x1A) || (0x20 ≤ i && i ≤ 0x22)

/-- The ids whose SWR has a row of its own in the opcode table: MODE, STICKY, SSP, TRAPOFF. -/
def isOwnSwr (i : Nat) : Bool := i = 0x13 || i = 0x14 || i = 0x15 || i = 0x21

/-- R82: CONV 0, 0, 0, or cv 1..7 with n 1..6 and mode 0 or 1. -/
def convLegal (cv n mode : Nat) : Bool :=
  (cv = 0 && n = 0 && mode = 0) || (cv ≠ 0 && 1 ≤ n && n ≤ 6 && mode ≤ 1)

/-- R263: the VD field of VBALL, by FN. -/
def ballLegal (fn w : Nat) : Bool :=
  if fn = 0 then w ≤ 31 else if fn = 1 then w ≤ 15 else w = 0

/-- R321: the first register of a control group; 255 (sz) makes all four read zero. -/
def groupLegal (c : Nat) : Bool := c ≤ 188 || c = 255

/-- R180: the reserved values of the prefix's own fields, and the K range of R181. -/
def Prefix.illForm (p : Prefix) : Option IllForm :=
  firstOf [
    chk .fieldWidth (p.grd < 32), chk .fieldWidth (p.mz < 2), chk .fieldWidth (p.rnd < 8),
    chk .fieldWidth (p.d4 < 128), chk .fieldWidth (p.lps < 2), chk .fieldWidth (p.lp < 8),
    chk .fieldWidth (p.k < 32),
    chk .prefixField (p.grd ≤ 16), chk .prefixField (p.rnd ≤ 6), chk .prefixField (p.lp ≤ 6),
    chk .prefixField (if p.lp = 2 || p.lp = 3 || p.lp = 4 then true
      else if p.lp = 5 then p.k ≤ 7 else p.k = 0)]

/-- The shape of the word that a prefix precedes, as far as R180 and R276 tell them apart. -/
inductive PrefixShape where
  /-- Takes no prefix: PREFIX_MISUSE. -/
  | never
  /-- V, VP with an a and a b operand. `c`: its entry names a fourth operand. -/
  | two (c : Bool)
  /-- VI, VS, VPS: no b operand. -/
  | one (c : Bool)
  /-- VRED (`wide = false`), VSCAN (`wide = true`): RND must be 0 (R260); VRED and VBALL have no vector destination. -/
  | cross (mzOk rndOk : Bool)
  /-- OP 0x65, 0x67, 0x68: no lane pattern. -/
  | block
  /-- M loads. -/
  | load
  /-- M stores: MZ must be 0 (R276). -/
  | store
  /-- AT; `cas`: D4 carries the compare value. -/
  | atom (cas : Bool)
  /-- SAT; only D4 may be set, and only for CAS. -/
  | satom (cas : Bool)
  deriving DecidableEq, Repr

/-- The prefix shape of every instruction (R180: formats V, VI, VS, VP, VPS, M, AT and SAT with OP 0x39..0x68). -/
def Instr.pfxShape : Instr → PrefixShape
  | .yield _ _ | .trap _ | .mode _ | .fenceRel _ | .fenceAcq _ | .fenceAr _ | .conv _ _ _ | .enter _ | .barSync _ _ _
  | .barArrive _ | .barWait _ _ _ | .setj _ | .bru _ _ _ | .brm _ _ _ | .eject _ _ _ | .jmp _ | .call _ _
  | .calli _ _ | .jmpi _ | .calls _ _ | .plset _ | .plsetConst _ | .plsel _ _ _ | .plocc _ | .srd _ _ | .swr _ _
  | .swrMode _ | .swrSticky _ | .swrSsp _ | .swrTrapoff _ | .pushm _ _ | .popm _ _ | .cbara _ | .cbarw _ _ _
  | .pbara _ | .pbwait _ _ _ | .leave _ _ | .psrd _ _ | .pswr _ _ | .pswrFqhead _ | .fdactRestart _ | .fdactEnd _
  | .fdactRespill _ | .tlbiPage _ | .tlbiRegion _ | .sadd _ _ _ | .ssub _ _ _ | .smul _ _ _ | .smulh _ _ _
  | .sdiv _ _ _ | .sdivu _ _ _ | .srem _ _ _ | .sremu _ _ _ | .sand _ _ _ | .sor _ _ _ | .sxor _ _ _ | .sandn _ _ _
  | .sshl _ _ _ | .sshr _ _ _ | .ssra _ _ _ | .srotr _ _ _ | .smin _ _ _ | .smax _ _ _ | .sminu _ _ _ | .smaxu _ _ _
  | .sslt _ _ _ | .ssltu _ _ _ | .sseq _ _ _ | .ssne _ _ _ | .ssel _ _ _ | .sselz _ _ _ | .spopc _ _ | .sclz _ _
  | .sctz _ _ | .sbrev _ _ | .saddi _ _ _ | .sandi _ _ _ | .sori _ _ _ | .sxori _ _ _ | .sshli _ _ _ | .sshri _ _ _
  | .ssrai _ _ _ | .sslti _ _ _ | .sli _ _ | .slui _ _ | .sld64 _ _ _ _ | .sld32 _ _ _ _ | .sst64 _ _ _ _
  | .sst32 _ _ _ _ | .sptest _ _ | .spcast _ _ _ _ | .prefL1 _ _ | .prefL2 _ _ | .cctlL1line _ | .cctlL2evict _
  | .pand _ _ _ | .por _ _ _ | .pxor _ _ _ | .pandn _ _ _ | .pnot _ _ | .pset _ | .pclr _ | .pmov _ _ | .spctl _ _ _
  | .xcntSet _ _ _ | .xcntAdd _ _ _ | .tclm _ _ _ | .tclmTry _ _ _ | .trel _ _ | .aclm _ _ _ | .aclmTry _ _ _
  | .arel _ _ | .tldDense _ _ _ _ | .tldDec _ _ _ _ | .tldPcs _ _ _ _ | .tst _ _ | .mma _ _ _ _ _ _
  | .mmaZ _ _ _ _ _ _ | .mmas _ _ _ _ _ | .ardr _ _ _ | .ardc _ _ _ | .awrr _ _ _ | .awrc _ _ _ | .trdr _ _ _
  | .trdc _ _ _ | .twrr _ _ _ | .twrc _ _ _ | .azero _ | .aqnt _ _ _ _ _ | .tinfo _ _ _ | .xcpy _ _ _
  | .xcpyPair _ _ _ | .xgath _ _ _ | .xscat _ _ _ | .xpub _ _ _ | .xpubSync _ _ _ | .xwait _ _ _ | .xwaitTest _ _ _
  | .nsend _ _ _ | .nsendImm _ _ _ | .tsend _ _ _ | .cred _ _ _ | .xflush _ _ | .prefixedInstruction _ _ | .ill
  | .nop | .exit | .texit | .refill | .join | .disb | .ret | .uret | .tret | .haltc | .cctlL1all | .ejectRecordWrite
  | .claimGrant | .loadDataReturn | .matrixStepDone | .spillAhead | .engineCommandStart | .engineCommandComplete
  | .engineSuspend | .faultRecordWrite | .handlerLaunch | .yieldOverrun | .barrierTimeout | .blockPlace
  | .clusterPlace | .blockRelease | .placementStarvation | .launchComplete | .doorbellWrite | .launch | .tapePop
  | .graph | .tableLoad | .tableDisable | .copy | .signalSet | .signalAdd | .signalWait | .signalStore
  | .regionCreate | .regionModify | .regionDestroy | .regionBind | .tableFiring | .teamResume | .leaveWindow
  | .coreGroupSwapOut | .coreGroupSwapIn | .haltRelease | .storageError | .publishEntryStore | .hostRdmaWrite
  | .hostRdmaRead | .remoteWriteUnit | .remoteRead | .remoteIncrement | .peerRefusal | .flushMarker | .flushAck
  | .pathDown | .peerPathLoss | .portTraining | .ptpMessage | .powerOnReset | .resetRequest | .floorCommand
  | .firmwareUpdate | .attestationRequest | .eventLogRead | .counterProgram | .counterRead | .sensorPoll
  | .spillTransferComplete | .tileTransferComplete | .publishSyncCopy => .never
  | .vld8 _ _ _ _ _ | .vld16 _ _ _ _ _ | .vld32 _ _ _ _ _ | .vld64 _ _ _ _ _ | .vldb _ _ _ _ _ => .load
  | .vst8 _ _ _ _ _ | .vst16 _ _ _ _ _ | .vst32 _ _ _ _ _ | .vst64 _ _ _ _ _ | .vstb _ _ _ _ _ => .store
  | .vatom _ _ _ o _ => .atom (o.beq 10)
  | .satom _ _ o _ _ => .satom (o.beq 10)
  | .vsptest _ _ | .vspcast _ _ _ _ | .vadd _ _ _ | .vsub _ _ _ | .vmul _ _ _ | .vmulh _ _ _ | .vmin _ _ _
  | .vmax _ _ _ | .vabsd _ _ _ | .vdiv _ _ _ | .vrem _ _ _ | .vaddsat _ _ _ | .vsubsat _ _ _ | .vavg _ _ _
  | .vcopysign _ _ _ | .vand _ _ _ | .vor _ _ _ | .vxor _ _ _ | .vandn _ _ _ | .vshl _ _ _ | .vshr _ _ _
  | .vsra _ _ _ | .vrotr _ _ _ | .vmov _ _ | .vneg _ _ | .vabs _ _ | .vnot _ _ | .vpopc _ _ | .vclz _ _ | .vsext8 _ _
  | .vsext16 _ _ | .vrcp _ _ | .vrsq _ _ | .vsqrt _ _ | .vexp2 _ _ | .vlog2 _ _ | .vsin _ _ | .vcos _ _ | .vtanh _ _
  | .vcvt _ _ _ | .vcmp _ _ _ _ _ | .vsel _ _ _ _ | .vshfl _ _ _ | .vshflTeam _ _ _ | .visect _ _ _ => .two false
  | .vfma _ _ _ | .vfms _ _ _ | .vfnma _ _ _ => .two true
  | .vaddi _ _ _ | .vmuli _ _ _ | .vandi _ _ _ | .vori _ _ _ | .vshli _ _ _ | .vshri _ _ _ | .vsrai _ _ _
  | .vrotri _ _ _ | .vmovi _ _ | .vadds _ _ _ | .vmuls _ _ _ | .vmins _ _ _ | .vmaxs _ _ _ | .vbcast _ _
  | .vshls _ _ _ | .vshrs _ _ _ | .vcmps _ _ _ _ _ => .one false
  | .vfmas _ _ _ => .one true
  | .vred _ _ _ => .cross false false
  | .vscan _ _ _ _ => .cross true false
  | .vball _ _ _ _ => .cross false true
  | .vnzs _ _ _ _ => .cross true true
  | .vbmax _ _ | .vscsel _ _ _ | .vqnt _ _ _ | .vdq _ _ _ | .vpack _ _ _ _ | .vunpk _ _ _ _ | .vreq _ _ _
  | .vhist _ _ | .vlane _ _ | .vsideRd _ _ | .vsideWr _ _ => .block

/-- R180: the words a prefix may precede. -/
def takesPrefix (i : Instr) : Bool := i.pfxShape ≠ .never

/-- R180, R260, R276: the prefix fields that the word it precedes does not allow. -/
def prefixClash (p : Prefix) (i : Instr) : Option IllForm :=
  match i.pfxShape with
  | .never => none
  | .two c => chk .prefixClash (c || p.d4 = 0)
  | .one c => firstOf [chk .prefixClash (c || p.d4 = 0), chk .prefixClash (p.lps = 0)]
  | .cross mzOk rndOk => firstOf [chk .prefixClash (p.d4 = 0), chk .prefixClash (p.lps = 0),
      chk .prefixClash (mzOk || p.mz = 0), chk .prefixClash (rndOk || p.rnd = 0)]
  | .block => firstOf [chk .prefixClash (p.d4 = 0), chk .prefixClash (p.lp = 0)]
  | .load => firstOf [chk .prefixClash (p.d4 = 0), chk .prefixClash (p.lp = 0), chk .prefixClash (p.rnd = 0)]
  | .store => firstOf [chk .prefixClash (p.d4 = 0), chk .prefixClash (p.lp = 0), chk .prefixClash (p.rnd = 0),
      chk .prefixClash (p.mz = 0)]
  | .atom cas => firstOf [chk .prefixClash (cas || p.d4 = 0), chk .prefixClash (p.lp = 0), chk .prefixClash (p.rnd = 0)]
  | .satom cas => firstOf [chk .prefixClash (cas || p.d4 = 0), chk .prefixClash (p.grd = 16), chk .prefixClash (p.mz = 0),
      chk .prefixClash (p.rnd = 0), chk .prefixClash (p.lps = 0), chk .prefixClash (p.lp = 0), chk .prefixClash (p.k = 0)]

/-- The fields of a word with their widths (R172). -/
def Instr.fields : Instr → List (Nat × Nat)
  | .yield i d => [(i, 9), (d, 16)]
  | .trap c => [(c, 16)]
  | .mode m => [(m, 25)]
  | .fenceRel s => [(s, 3)]
  | .fenceAcq s => [(s, 3)]
  | .fenceAr s => [(s, 3)]
  | .conv m n c => [(m, 2), (n, 3), (c, 3)]
  | .enter n => [(n, 7)]
  | .barSync w s i => [(w, 5), (s, 4), (i, 4)]
  | .barArrive i => [(i, 4)]
  | .barWait w s i => [(w, 5), (s, 4), (i, 4)]
  | .setj o => [(o, 20)]
  | .bru p n o => [(p, 4), (n, 1), (o, 20)]
  | .brm p n o => [(p, 4), (n, 1), (o, 20)]
  | .eject p n o => [(p, 4), (n, 1), (o, 20)]
  | .jmp o => [(o, 20)]
  | .call l o => [(l, 4), (o, 21)]
  | .calli l a => [(l, 4), (a, 7)]
  | .jmpi a => [(a, 8)]
  | .calls a l => [(a, 8), (l, 4)]
  | .plset a => [(a, 7)]
  | .plsetConst b => [(b, 7)]
  | .plsel f t p => [(f, 2), (t, 2), (p, 4)]
  | .plocc d => [(d, 8)]
  | .srd d i => [(d, 8), (i, 8)]
  | .swr s i => [(s, 8), (i, 8)]
  | .swrMode s => [(s, 8)]
  | .swrSticky s => [(s, 8)]
  | .swrSsp s => [(s, 8)]
  | .swrTrapoff s => [(s, 8)]
  | .pushm f c => [(f, 8), (c, 8)]
  | .popm f c => [(f, 8), (c, 8)]
  | .cbara i => [(i, 4)]
  | .cbarw w s i => [(w, 5), (s, 4), (i, 4)]
  | .pbara d => [(d, 8)]
  | .pbwait d p w => [(d, 8), (p, 4), (w, 5)]
  | .leave k n => [(k, 2), (n, 16)]
  | .psrd d i => [(d, 8), (i, 12)]
  | .pswr s i => [(s, 8), (i, 12)]
  | .pswrFqhead s => [(s, 8)]
  | .fdactRestart s => [(s, 8)]
  | .fdactEnd s => [(s, 8)]
  | .fdactRespill s => [(s, 8)]
  | .tlbiPage a => [(a, 8)]
  | .tlbiRegion a => [(a, 8)]
  | .sadd d a b => [(d, 8), (a, 8), (b, 8)]
  | .ssub d a b => [(d, 8), (a, 8), (b, 8)]
  | .smul d a b => [(d, 8), (a, 8), (b, 8)]
  | .smulh d a b => [(d, 8), (a, 8), (b, 8)]
  | .sdiv d a b => [(d, 8), (a, 8), (b, 8)]
  | .sdivu d a b => [(d, 8), (a, 8), (b, 8)]
  | .srem d a b => [(d, 8), (a, 8), (b, 8)]
  | .sremu d a b => [(d, 8), (a, 8), (b, 8)]
  | .sand d a b => [(d, 8), (a, 8), (b, 8)]
  | .sor d a b => [(d, 8), (a, 8), (b, 8)]
  | .sxor d a b => [(d, 8), (a, 8), (b, 8)]
  | .sandn d a b => [(d, 8), (a, 8), (b, 8)]
  | .sshl d a b => [(d, 8), (a, 8), (b, 8)]
  | .sshr d a b => [(d, 8), (a, 8), (b, 8)]
  | .ssra d a b => [(d, 8), (a, 8), (b, 8)]
  | .srotr d a b => [(d, 8), (a, 8), (b, 8)]
  | .smin d a b => [(d, 8), (a, 8), (b, 8)]
  | .smax d a b => [(d, 8), (a, 8), (b, 8)]
  | .sminu d a b => [(d, 8), (a, 8), (b, 8)]
  | .smaxu d a b => [(d, 8), (a, 8), (b, 8)]
  | .sslt d a b => [(d, 8), (a, 8), (b, 8)]
  | .ssltu d a b => [(d, 8), (a, 8), (b, 8)]
  | .sseq d a b => [(d, 8), (a, 8), (b, 8)]
  | .ssne d a b => [(d, 8), (a, 8), (b, 8)]
  | .ssel d a b => [(d, 8), (a, 8), (b, 8)]
  | .sselz d a b => [(d, 8), (a, 8), (b, 8)]
  | .spopc d a => [(d, 8), (a, 8)]
  | .sclz d a => [(d, 8), (a, 8)]
  | .sctz d a => [(d, 8), (a, 8)]
  | .sbrev d a => [(d, 8), (a, 8)]
  | .saddi d a i => [(d, 8), (a, 8), (i, 9)]
  | .sandi d a i => [(d, 8), (a, 8), (i, 9)]
  | .sori d a i => [(d, 8), (a, 8), (i, 9)]
  | .sxori d a i => [(d, 8), (a, 8), (i, 9)]
  | .sshli d a n => [(d, 8), (a, 8), (n, 6)]
  | .sshri d a n => [(d, 8), (a, 8), (n, 6)]
  | .ssrai d a n => [(d, 8), (a, 8), (n, 6)]
  | .sslti d a i => [(d, 8), (a, 8), (i, 9)]
  | .sli d i => [(d, 8), (i, 17)]
  | .slui d i => [(d, 8), (i, 17)]
  | .sld64 t b o l => [(t, 8), (b, 8), (o, 5), (l, 4)]
  | .sld32 t b o l => [(t, 8), (b, 8), (o, 5), (l, 4)]
  | .sst64 t b o l => [(t, 8), (b, 8), (o, 5), (l, 4)]
  | .sst32 t b o l => [(t, 8), (b, 8), (o, 5), (l, 4)]
  | .vld8 t b x l u => [(t, 7), (b, 6), (x, 7), (l, 4), (u, 1)]
  | .vld16 t b x l u => [(t, 7), (b, 6), (x, 7), (l, 4), (u, 1)]
  | .vld32 t b x l u => [(t, 7), (b, 6), (x, 7), (l, 4), (u, 1)]
  | .vld64 t b x l u => [(t, 7), (b, 6), (x, 7), (l, 4), (u, 1)]
  | .vldb t b x l u => [(t, 7), (b, 6), (x, 7), (l, 4), (u, 1)]
  | .vst8 t b x l u => [(t, 7), (b, 6), (x, 7), (l, 4), (u, 1)]
  | .vst16 t b x l u => [(t, 7), (b, 6), (x, 7), (l, 4), (u, 1)]
  | .vst32 t b x l u => [(t, 7), (b, 6), (x, 7), (l, 4), (u, 1)]
  | .vst64 t b x l u => [(t, 7), (b, 6), (x, 7), (l, 4), (u, 1)]
  | .vstb t b x l u => [(t, 7), (b, 6), (x, 7), (l, 4), (u, 1)]
  | .vatom d x b o l => [(d, 7), (x, 7), (b, 3), (o, 4), (l, 4)]
  | .satom d a o w l => [(d, 8), (a, 8), (o, 4), (w, 1), (l, 4)]
  | .sptest d a => [(d, 8), (a, 8)]
  | .spcast d a p t => [(d, 8), (a, 8), (p, 1), (t, 3)]
  | .vsptest d a => [(d, 7), (a, 7)]
  | .vspcast d a p t => [(d, 7), (a, 7), (p, 1), (t, 3)]
  | .prefL1 b o => [(b, 8), (o, 5)]
  | .prefL2 b o => [(b, 8), (o, 5)]
  | .cctlL1line a => [(a, 8)]
  | .cctlL2evict a => [(a, 8)]
  | .vadd d a b => [(d, 7), (a, 7), (b, 7)]
  | .vsub d a b => [(d, 7), (a, 7), (b, 7)]
  | .vmul d a b => [(d, 7), (a, 7), (b, 7)]
  | .vmulh d a b => [(d, 7), (a, 7), (b, 7)]
  | .vmin d a b => [(d, 7), (a, 7), (b, 7)]
  | .vmax d a b => [(d, 7), (a, 7), (b, 7)]
  | .vabsd d a b => [(d, 7), (a, 7), (b, 7)]
  | .vdiv d a b => [(d, 7), (a, 7), (b, 7)]
  | .vrem d a b => [(d, 7), (a, 7), (b, 7)]
  | .vfma d a b => [(d, 7), (a, 7), (b, 7)]
  | .vfms d a b => [(d, 7), (a, 7), (b, 7)]
  | .vfnma d a b => [(d, 7), (a, 7), (b, 7)]
  | .vaddsat d a b => [(d, 7), (a, 7), (b, 7)]
  | .vsubsat d a b => [(d, 7), (a, 7), (b, 7)]
  | .vavg d a b => [(d, 7), (a, 7), (b, 7)]
  | .vcopysign d a b => [(d, 7), (a, 7), (b, 7)]
  | .vand d a b => [(d, 7), (a, 7), (b, 7)]
  | .vor d a b => [(d, 7), (a, 7), (b, 7)]
  | .vxor d a b => [(d, 7), (a, 7), (b, 7)]
  | .vandn d a b => [(d, 7), (a, 7), (b, 7)]
  | .vshl d a b => [(d, 7), (a, 7), (b, 7)]
  | .vshr d a b => [(d, 7), (a, 7), (b, 7)]
  | .vsra d a b => [(d, 7), (a, 7), (b, 7)]
  | .vrotr d a b => [(d, 7), (a, 7), (b, 7)]
  | .vaddi d a i => [(d, 7), (a, 7), (i, 11)]
  | .vmuli d a i => [(d, 7), (a, 7), (i, 11)]
  | .vandi d a i => [(d, 7), (a, 7), (i, 11)]
  | .vori d a i => [(d, 7), (a, 7), (i, 11)]
  | .vshli d a n => [(d, 7), (a, 7), (n, 6)]
  | .vshri d a n => [(d, 7), (a, 7), (n, 6)]
  | .vsrai d a n => [(d, 7), (a, 7), (n, 6)]
  | .vrotri d a n => [(d, 7), (a, 7), (n, 6)]
  | .vmovi d i => [(d, 7), (i, 11)]
  | .vmov d a => [(d, 7), (a, 7)]
  | .vneg d a => [(d, 7), (a, 7)]
  | .vabs d a => [(d, 7), (a, 7)]
  | .vnot d a => [(d, 7), (a, 7)]
  | .vpopc d a => [(d, 7), (a, 7)]
  | .vclz d a => [(d, 7), (a, 7)]
  | .vsext8 d a => [(d, 7), (a, 7)]
  | .vsext16 d a => [(d, 7), (a, 7)]
  | .vrcp d a => [(d, 7), (a, 7)]
  | .vrsq d a => [(d, 7), (a, 7)]
  | .vsqrt d a => [(d, 7), (a, 7)]
  | .vexp2 d a => [(d, 7), (a, 7)]
  | .vlog2 d a => [(d, 7), (a, 7)]
  | .vsin d a => [(d, 7), (a, 7)]
  | .vcos d a => [(d, 7), (a, 7)]
  | .vtanh d a => [(d, 7), (a, 7)]
  | .vcvt d a t => [(d, 7), (a, 7), (t, 4)]
  | .vadds d a s => [(d, 7), (a, 7), (s, 8)]
  | .vmuls d a s => [(d, 7), (a, 7), (s, 8)]
  | .vfmas d a s => [(d, 7), (a, 7), (s, 8)]
  | .vmins d a s => [(d, 7), (a, 7), (s, 8)]
  | .vmaxs d a s => [(d, 7), (a, 7), (s, 8)]
  | .vbcast d s => [(d, 7), (s, 8)]
  | .vshls d a s => [(d, 7), (a, 7), (s, 8)]
  | .vshrs d a s => [(d, 7), (a, 7), (s, 8)]
  | .vcmp p a b c f => [(p, 4), (a, 7), (b, 7), (c, 4), (f, 3)]
  | .vcmps p a s c f => [(p, 4), (a, 7), (s, 8), (c, 4), (f, 2)]
  | .vsel d a b p => [(d, 7), (a, 7), (b, 7), (p, 4)]
  | .pand d a b => [(d, 4), (a, 4), (b, 4)]
  | .por d a b => [(d, 4), (a, 4), (b, 4)]
  | .pxor d a b => [(d, 4), (a, 4), (b, 4)]
  | .pandn d a b => [(d, 4), (a, 4), (b, 4)]
  | .pnot d a => [(d, 4), (a, 4)]
  | .pset d => [(d, 4)]
  | .pclr d => [(d, 4)]
  | .pmov d a => [(d, 4), (a, 4)]
  | .vshfl d a b => [(d, 7), (a, 7), (b, 7)]
  | .vshflTeam d a b => [(d, 7), (a, 7), (b, 7)]
  | .vred a s f => [(a, 7), (s, 8), (f, 3)]
  | .vscan d a s f => [(d, 7), (a, 7), (s, 8), (f, 3)]
  | .vball w p s f => [(w, 7), (p, 4), (s, 8), (f, 3)]
  | .vnzs d a s f => [(d, 7), (a, 7), (s, 8), (f, 3)]
  | .visect d a b => [(d, 7), (a, 7), (b, 7)]
  | .vbmax d a => [(d, 7), (a, 7)]
  | .vscsel d a f => [(d, 7), (a, 7), (f, 4)]
  | .vqnt d a f => [(d, 7), (a, 7), (f, 4)]
  | .vdq d a f => [(d, 7), (a, 7), (f, 4)]
  | .vpack d a p f => [(d, 7), (a, 7), (p, 3), (f, 4)]
  | .vunpk d a p f => [(d, 7), (a, 7), (p, 3), (f, 4)]
  | .vreq d a f => [(d, 7), (a, 7), (f, 4)]
  | .vhist a r => [(a, 7), (r, 4)]
  | .spctl d a b => [(d, 8), (a, 8), (b, 8)]
  | .vlane d f => [(d, 7), (f, 4)]
  | .vsideRd d a => [(d, 7), (a, 7)]
  | .vsideWr d a => [(d, 7), (a, 7)]
  | .xcntSet a b c => [(a, 8), (b, 8), (c, 8)]
  | .xcntAdd a b c => [(a, 8), (b, 8), (c, 8)]
  | .tclm s n f => [(s, 8), (n, 6), (f, 5)]
  | .tclmTry s n f => [(s, 8), (n, 6), (f, 5)]
  | .trel n f => [(n, 6), (f, 5)]
  | .aclm s n f => [(s, 8), (n, 6), (f, 5)]
  | .aclmTry s n f => [(s, 8), (n, 6), (f, 5)]
  | .arel n f => [(n, 6), (f, 5)]
  | .tldDense t b f k => [(t, 5), (b, 8), (f, 8), (k, 2)]
  | .tldDec t b f k => [(t, 5), (b, 8), (f, 8), (k, 2)]
  | .tldPcs t b f k => [(t, 5), (b, 8), (f, 8), (k, 2)]
  | .tst t b => [(t, 5), (b, 8)]
  | .mma d a b x y c => [(d, 4), (a, 5), (b, 5), (x, 1), (y, 1), (c, 3)]
  | .mmaZ d a b x y c => [(d, 4), (a, 5), (b, 5), (x, 1), (y, 1), (c, 3)]
  | .mmas d a b n s => [(d, 4), (a, 5), (b, 5), (n, 3), (s, 8)]
  | .ardr d x s => [(d, 7), (x, 5), (s, 8)]
  | .ardc d x s => [(d, 7), (x, 5), (s, 8)]
  | .awrr d x s => [(d, 7), (x, 5), (s, 8)]
  | .awrc d x s => [(d, 7), (x, 5), (s, 8)]
  | .trdr d x s => [(d, 7), (x, 5), (s, 8)]
  | .trdc d x s => [(d, 7), (x, 5), (s, 8)]
  | .twrr d x s => [(d, 7), (x, 5), (s, 8)]
  | .twrc d x s => [(d, 7), (x, 5), (s, 8)]
  | .azero x => [(x, 5)]
  | .aqnt a b f r q => [(a, 4), (b, 8), (f, 8), (r, 1), (q, 2)]
  | .tinfo d w s => [(d, 8), (w, 3), (s, 5)]
  | .xcpy a b c => [(a, 8), (b, 8), (c, 8)]
  | .xcpyPair a b c => [(a, 8), (b, 8), (c, 8)]
  | .xgath a b c => [(a, 8), (b, 8), (c, 8)]
  | .xscat a b c => [(a, 8), (b, 8), (c, 8)]
  | .xpub a s c => [(a, 8), (s, 3), (c, 8)]
  | .xpubSync a s c => [(a, 8), (s, 3), (c, 8)]
  | .xwait a b c => [(a, 8), (b, 8), (c, 8)]
  | .xwaitTest a b c => [(a, 8), (b, 8), (c, 8)]
  | .nsend a b c => [(a, 8), (b, 8), (c, 8)]
  | .nsendImm v b c => [(v, 7), (b, 8), (c, 8)]
  | .tsend a b c => [(a, 8), (b, 8), (c, 8)]
  | .cred a b c => [(a, 8), (b, 8), (c, 8)]
  | .xflush a c => [(a, 8), (c, 8)]
  | .prefixedInstruction _ _ | .ill | .nop | .exit | .texit | .refill | .join | .disb | .ret | .uret | .tret | .haltc
  | .cctlL1all | .ejectRecordWrite | .claimGrant | .loadDataReturn | .matrixStepDone | .spillAhead
  | .engineCommandStart | .engineCommandComplete | .engineSuspend | .faultRecordWrite | .handlerLaunch
  | .yieldOverrun | .barrierTimeout | .blockPlace | .clusterPlace | .blockRelease | .placementStarvation
  | .launchComplete | .doorbellWrite | .launch | .tapePop | .graph | .tableLoad | .tableDisable | .copy | .signalSet
  | .signalAdd | .signalWait | .signalStore | .regionCreate | .regionModify | .regionDestroy | .regionBind
  | .tableFiring | .teamResume | .leaveWindow | .coreGroupSwapOut | .coreGroupSwapIn | .haltRelease | .storageError
  | .publishEntryStore | .hostRdmaWrite | .hostRdmaRead | .remoteWriteUnit | .remoteRead | .remoteIncrement
  | .peerRefusal | .flushMarker | .flushAck | .pathDown | .peerPathLoss | .portTraining | .ptpMessage | .powerOnReset
  | .resetRequest | .floorCommand | .firmwareUpdate | .attestationRequest | .eventLogRead | .counterProgram
  | .counterRead | .sensorPoll | .spillTransferComplete | .tileTransferComplete | .publishSyncCopy => []

/-- The uniform-register fields of a word (R173). -/
def Instr.uniforms : Instr → List Nat
  | .jmpi a => [a]
  | .calls a _ => [a]
  | .plocc d => [d]
  | .srd d _ => [d]
  | .swr s _ => [s]
  | .swrMode s => [s]
  | .swrSticky s => [s]
  | .swrSsp s => [s]
  | .swrTrapoff s => [s]
  | .pbara d => [d]
  | .pbwait d _ _ => [d]
  | .psrd d _ => [d]
  | .pswr s _ => [s]
  | .pswrFqhead s => [s]
  | .fdactRestart s => [s]
  | .fdactEnd s => [s]
  | .fdactRespill s => [s]
  | .tlbiPage a => [a]
  | .tlbiRegion a => [a]
  | .sadd d a b => [d, a, b]
  | .ssub d a b => [d, a, b]
  | .smul d a b => [d, a, b]
  | .smulh d a b => [d, a, b]
  | .sdiv d a b => [d, a, b]
  | .sdivu d a b => [d, a, b]
  | .srem d a b => [d, a, b]
  | .sremu d a b => [d, a, b]
  | .sand d a b => [d, a, b]
  | .sor d a b => [d, a, b]
  | .sxor d a b => [d, a, b]
  | .sandn d a b => [d, a, b]
  | .sshl d a b => [d, a, b]
  | .sshr d a b => [d, a, b]
  | .ssra d a b => [d, a, b]
  | .srotr d a b => [d, a, b]
  | .smin d a b => [d, a, b]
  | .smax d a b => [d, a, b]
  | .sminu d a b => [d, a, b]
  | .smaxu d a b => [d, a, b]
  | .sslt d a b => [d, a, b]
  | .ssltu d a b => [d, a, b]
  | .sseq d a b => [d, a, b]
  | .ssne d a b => [d, a, b]
  | .ssel d a b => [d, a, b]
  | .sselz d a b => [d, a, b]
  | .spopc d a => [d, a]
  | .sclz d a => [d, a]
  | .sctz d a => [d, a]
  | .sbrev d a => [d, a]
  | .saddi d a _ => [d, a]
  | .sandi d a _ => [d, a]
  | .sori d a _ => [d, a]
  | .sxori d a _ => [d, a]
  | .sshli d a _ => [d, a]
  | .sshri d a _ => [d, a]
  | .ssrai d a _ => [d, a]
  | .sslti d a _ => [d, a]
  | .sli d _ => [d]
  | .slui d _ => [d]
  | .sld64 t b _ _ => [t, b]
  | .sld32 t b _ _ => [t, b]
  | .sst64 t b _ _ => [t, b]
  | .sst32 t b _ _ => [t, b]
  | .satom d a _ _ _ => [d, a]
  | .sptest d a => [d, a]
  | .spcast d a _ _ => [d, a]
  | .prefL1 b _ => [b]
  | .prefL2 b _ => [b]
  | .cctlL1line a => [a]
  | .cctlL2evict a => [a]
  | .vadds _ _ s => [s]
  | .vmuls _ _ s => [s]
  | .vfmas _ _ s => [s]
  | .vmins _ _ s => [s]
  | .vmaxs _ _ s => [s]
  | .vbcast _ s => [s]
  | .vshls _ _ s => [s]
  | .vshrs _ _ s => [s]
  | .vcmps _ _ s _ _ => [s]
  | .vred _ s _ => [s]
  | .vscan _ _ s _ => [s]
  | .vball _ _ s _ => [s]
  | .vnzs _ _ s _ => [s]
  | .spctl d a b => [d, a, b]
  | .xcntSet a b c => [a, b, c]
  | .xcntAdd a b c => [a, b, c]
  | .tclm s _ _ => [s]
  | .tclmTry s _ _ => [s]
  | .aclm s _ _ => [s]
  | .aclmTry s _ _ => [s]
  | .tldDense _ b f _ => [b, f]
  | .tldDec _ b f _ => [b, f]
  | .tldPcs _ b f _ => [b, f]
  | .tst _ b => [b]
  | .mmas _ _ _ _ s => [s]
  | .ardr _ _ s => [s]
  | .ardc _ _ s => [s]
  | .awrr _ _ s => [s]
  | .awrc _ _ s => [s]
  | .trdr _ _ s => [s]
  | .trdc _ _ s => [s]
  | .twrr _ _ s => [s]
  | .twrc _ _ s => [s]
  | .aqnt _ b f _ _ => [b, f]
  | .tinfo d _ _ => [d]
  | .xcpy a b _ => [a, b]
  | .xcpyPair a b _ => [a, b]
  | .xgath a b _ => [a, b]
  | .xscat a b _ => [a, b]
  | .xpub a _ c => [a, c]
  | .xpubSync a _ c => [a, c]
  | .xwait a b c => [a, b, c]
  | .xwaitTest a b c => [a, b, c]
  | .nsend a b c => [a, b, c]
  | .nsendImm _ b c => [b, c]
  | .tsend a b c => [a, b, c]
  | .cred a b _ => [a, b]
  | .xflush a _ => [a]
  | .yield _ _ | .trap _ | .mode _ | .fenceRel _ | .fenceAcq _ | .fenceAr _ | .conv _ _ _ | .enter _ | .barSync _ _ _
  | .barArrive _ | .barWait _ _ _ | .setj _ | .bru _ _ _ | .brm _ _ _ | .eject _ _ _ | .jmp _ | .call _ _
  | .calli _ _ | .plset _ | .plsetConst _ | .plsel _ _ _ | .pushm _ _ | .popm _ _ | .cbara _ | .cbarw _ _ _
  | .leave _ _ | .vld8 _ _ _ _ _ | .vld16 _ _ _ _ _ | .vld32 _ _ _ _ _ | .vld64 _ _ _ _ _ | .vldb _ _ _ _ _
  | .vst8 _ _ _ _ _ | .vst16 _ _ _ _ _ | .vst32 _ _ _ _ _ | .vst64 _ _ _ _ _ | .vstb _ _ _ _ _ | .vatom _ _ _ _ _
  | .vsptest _ _ | .vspcast _ _ _ _ | .vadd _ _ _ | .vsub _ _ _ | .vmul _ _ _ | .vmulh _ _ _ | .vmin _ _ _
  | .vmax _ _ _ | .vabsd _ _ _ | .vdiv _ _ _ | .vrem _ _ _ | .vfma _ _ _ | .vfms _ _ _ | .vfnma _ _ _
  | .vaddsat _ _ _ | .vsubsat _ _ _ | .vavg _ _ _ | .vcopysign _ _ _ | .vand _ _ _ | .vor _ _ _ | .vxor _ _ _
  | .vandn _ _ _ | .vshl _ _ _ | .vshr _ _ _ | .vsra _ _ _ | .vrotr _ _ _ | .vaddi _ _ _ | .vmuli _ _ _
  | .vandi _ _ _ | .vori _ _ _ | .vshli _ _ _ | .vshri _ _ _ | .vsrai _ _ _ | .vrotri _ _ _ | .vmovi _ _ | .vmov _ _
  | .vneg _ _ | .vabs _ _ | .vnot _ _ | .vpopc _ _ | .vclz _ _ | .vsext8 _ _ | .vsext16 _ _ | .vrcp _ _ | .vrsq _ _
  | .vsqrt _ _ | .vexp2 _ _ | .vlog2 _ _ | .vsin _ _ | .vcos _ _ | .vtanh _ _ | .vcvt _ _ _ | .vcmp _ _ _ _ _
  | .vsel _ _ _ _ | .pand _ _ _ | .por _ _ _ | .pxor _ _ _ | .pandn _ _ _ | .pnot _ _ | .pset _ | .pclr _ | .pmov _ _
  | .vshfl _ _ _ | .vshflTeam _ _ _ | .visect _ _ _ | .vbmax _ _ | .vscsel _ _ _ | .vqnt _ _ _ | .vdq _ _ _
  | .vpack _ _ _ _ | .vunpk _ _ _ _ | .vreq _ _ _ | .vhist _ _ | .vlane _ _ | .vsideRd _ _ | .vsideWr _ _ | .trel _ _
  | .arel _ _ | .mma _ _ _ _ _ _ | .mmaZ _ _ _ _ _ _ | .azero _ | .prefixedInstruction _ _ | .ill | .nop | .exit
  | .texit | .refill | .join | .disb | .ret | .uret | .tret | .haltc | .cctlL1all | .ejectRecordWrite | .claimGrant
  | .loadDataReturn | .matrixStepDone | .spillAhead | .engineCommandStart | .engineCommandComplete | .engineSuspend
  | .faultRecordWrite | .handlerLaunch | .yieldOverrun | .barrierTimeout | .blockPlace | .clusterPlace
  | .blockRelease | .placementStarvation | .launchComplete | .doorbellWrite | .launch | .tapePop | .graph
  | .tableLoad | .tableDisable | .copy | .signalSet | .signalAdd | .signalWait | .signalStore | .regionCreate
  | .regionModify | .regionDestroy | .regionBind | .tableFiring | .teamResume | .leaveWindow | .coreGroupSwapOut
  | .coreGroupSwapIn | .haltRelease | .storageError | .publishEntryStore | .hostRdmaWrite | .hostRdmaRead
  | .remoteWriteUnit | .remoteRead | .remoteIncrement | .peerRefusal | .flushMarker | .flushAck | .pathDown
  | .peerPathLoss | .portTraining | .ptpMessage | .powerOnReset | .resetRequest | .floorCommand | .firmwareUpdate
  | .attestationRequest | .eventLogRead | .counterProgram | .counterRead | .sensorPoll | .spillTransferComplete
  | .tileTransferComplete | .publishSyncCopy => []

/-- The codes and ranges of a word that R191 names (each check cites its rule at `IllForm`). -/
def Instr.codeCheck : Instr → Option IllForm
  | .fenceRel s => firstOf [chk .reservedCode (Nat.ble (s) 5)]
  | .fenceAcq s => firstOf [chk .reservedCode (Nat.ble (s) 5)]
  | .fenceAr s => firstOf [chk .reservedCode (Nat.ble (s) 5)]
  | .conv m n c => firstOf [chk .badConvocation (convLegal c n m)]
  | .enter n => firstOf [chk .badFrame ((n % 8).beq 0), chk .badFrame (Nat.ble (n) 120)]
  | .call l _ => firstOf [chk .reservedSlide (Nat.ble (l) 14)]
  | .calli l _ => firstOf [chk .reservedSlide (Nat.ble (l) 14)]
  | .calls _ l => firstOf [chk .reservedSlide (Nat.ble (l) 14)]
  | .plsetConst b => firstOf [chk .reservedCode (Nat.ble (b) 3)]
  | .srd _ i => firstOf [chk .badSpecial (isSpecial i)]
  | .swr _ i => firstOf [chk .badSpecial (isSpecial i), chk .badSpecial (!isOwnSwr i)]
  | .pushm f c => firstOf [chk .badRange (Nat.ble (f) 191), chk .badRange (Nat.ble 1 c), chk .badRange (Nat.ble (f + c) 192)]
  | .popm f c => firstOf [chk .badRange (Nat.ble (f) 191), chk .badRange (Nat.ble 1 c), chk .badRange (Nat.ble (f + c) 192)]
  | .pbara d => firstOf [chk .badRange (Nat.ble (d) 190)]
  | .pbwait d _ _ => firstOf [chk .badRange (Nat.ble (d) 190)]
  | .leave k _ => firstOf [chk .reservedCode (Nat.ble (k) 1)]
  | .psrd _ i => firstOf [chk .badSpecial (Nat.ble (i) 6)]
  | .pswr _ i => firstOf [chk .badSpecial (Nat.ble (i) 6), chk .badSpecial (!(i.beq 2)), chk .badSpecial (!(i.beq 4))]
  | .vld64 t _ _ _ _ => firstOf [chk .oddPair ((t % 2).beq 0)]
  | .vst64 t _ _ _ _ => firstOf [chk .oddPair ((t % 2).beq 0)]
  | .vatom _ _ _ o _ => firstOf [chk .reservedCode (Nat.ble (o) 14)]
  | .satom _ _ o w _ => firstOf [chk .reservedCode (Nat.ble (o) 14), chk .reservedCode (!(w.beq 1 && Nat.ble 11 o))]
  | .spcast _ _ _ t => firstOf [chk .reservedCode (Nat.ble (t) 4)]
  | .vsptest _ a => firstOf [chk .oddPair ((a % 2).beq 0)]
  | .vspcast d a _ t => firstOf [chk .oddPair ((d % 2).beq 0), chk .oddPair ((a % 2).beq 0), chk .reservedCode (Nat.ble (t) 4)]
  | .vcvt _ _ t => firstOf [chk .reservedCode (Nat.ble (t) 13)]
  | .vcmp _ _ _ c f => firstOf [chk .reservedCode (Nat.ble (c) 7), chk .reservedCode (Nat.ble (f) 2)]
  | .vcmps _ _ _ c f => firstOf [chk .reservedCode (Nat.ble (c) 7), chk .reservedCode (Nat.ble (f) 2)]
  | .vred _ _ f => firstOf [chk .reservedCode (Nat.ble (f) 6)]
  | .vscan d a _ f => firstOf [chk .reservedCode (Nat.ble (f) 4), chk .oddPair (!(f.beq 4) || ((d % 2).beq 0 && (a % 2).beq 0))]
  | .vball w _ _ f => firstOf [chk .reservedCode (Nat.ble (f) 4), chk .reservedCode (ballLegal f w)]
  | .vnzs _ _ _ f => firstOf [chk .reservedCode (Nat.ble (f) 1)]
  | .vreq _ _ f => firstOf [chk .reservedCode (Nat.ble (f) 14)]
  | .vlane _ f => firstOf [chk .reservedCode (Nat.ble (f) 3)]
  | .tclm _ n _ => firstOf [chk .badCount (Nat.ble 1 n), chk .badCount (Nat.ble (n) 32)]
  | .tclmTry _ n _ => firstOf [chk .badCount (Nat.ble 1 n), chk .badCount (Nat.ble (n) 32)]
  | .trel n _ => firstOf [chk .badCount (Nat.ble 1 n), chk .badCount (Nat.ble (n) 32)]
  | .aclm _ n _ => firstOf [chk .badCount (Nat.ble 1 n), chk .badCount (Nat.ble (n) 32)]
  | .aclmTry _ n _ => firstOf [chk .badCount (Nat.ble 1 n), chk .badCount (Nat.ble (n) 32)]
  | .arel n _ => firstOf [chk .badCount (Nat.ble 1 n), chk .badCount (Nat.ble (n) 32)]
  | .tldDense _ _ _ k => firstOf [chk .reservedCode (Nat.ble (k) 2)]
  | .tldDec _ _ _ k => firstOf [chk .reservedCode (Nat.ble (k) 2)]
  | .tldPcs _ _ _ k => firstOf [chk .reservedCode (Nat.ble (k) 2)]
  | .mmas _ a b n _ => firstOf [chk .badRange (Nat.ble (a + n) 31), chk .badRange (Nat.ble (b + n) 31)]
  | .ardr _ x _ => firstOf [chk .badTileName (Nat.ble (x) 15)]
  | .ardc _ x _ => firstOf [chk .badTileName (Nat.ble (x) 15)]
  | .awrr _ x _ => firstOf [chk .badTileName (Nat.ble (x) 15)]
  | .awrc _ x _ => firstOf [chk .badTileName (Nat.ble (x) 15)]
  | .azero x => firstOf [chk .badTileName (Nat.ble (x) 15)]
  | .tinfo _ w _ => firstOf [chk .reservedCode (Nat.ble (w) 3)]
  | .xcpy _ _ c => firstOf [chk .badRange (groupLegal c)]
  | .xcpyPair _ _ c => firstOf [chk .badRange (groupLegal c)]
  | .xgath _ _ c => firstOf [chk .badRange (groupLegal c)]
  | .xscat _ _ c => firstOf [chk .badRange (groupLegal c)]
  | .xpub _ s _ => firstOf [chk .reservedCode (Nat.ble (s) 5)]
  | .xpubSync _ s _ => firstOf [chk .reservedCode (Nat.ble (s) 5)]
  | .cred _ _ c => firstOf [chk .badRange (groupLegal c)]
  | .xflush _ c => firstOf [chk .badRange (groupLegal c)]
  | .yield _ _ | .trap _ | .mode _ | .barSync _ _ _ | .barArrive _ | .barWait _ _ _ | .setj _ | .bru _ _ _
  | .brm _ _ _ | .eject _ _ _ | .jmp _ | .jmpi _ | .plset _ | .plsel _ _ _ | .plocc _ | .swrMode _ | .swrSticky _
  | .swrSsp _ | .swrTrapoff _ | .cbara _ | .cbarw _ _ _ | .pswrFqhead _ | .fdactRestart _ | .fdactEnd _
  | .fdactRespill _ | .tlbiPage _ | .tlbiRegion _ | .sadd _ _ _ | .ssub _ _ _ | .smul _ _ _ | .smulh _ _ _
  | .sdiv _ _ _ | .sdivu _ _ _ | .srem _ _ _ | .sremu _ _ _ | .sand _ _ _ | .sor _ _ _ | .sxor _ _ _ | .sandn _ _ _
  | .sshl _ _ _ | .sshr _ _ _ | .ssra _ _ _ | .srotr _ _ _ | .smin _ _ _ | .smax _ _ _ | .sminu _ _ _ | .smaxu _ _ _
  | .sslt _ _ _ | .ssltu _ _ _ | .sseq _ _ _ | .ssne _ _ _ | .ssel _ _ _ | .sselz _ _ _ | .spopc _ _ | .sclz _ _
  | .sctz _ _ | .sbrev _ _ | .saddi _ _ _ | .sandi _ _ _ | .sori _ _ _ | .sxori _ _ _ | .sshli _ _ _ | .sshri _ _ _
  | .ssrai _ _ _ | .sslti _ _ _ | .sli _ _ | .slui _ _ | .sld64 _ _ _ _ | .sld32 _ _ _ _ | .sst64 _ _ _ _
  | .sst32 _ _ _ _ | .vld8 _ _ _ _ _ | .vld16 _ _ _ _ _ | .vld32 _ _ _ _ _ | .vldb _ _ _ _ _ | .vst8 _ _ _ _ _
  | .vst16 _ _ _ _ _ | .vst32 _ _ _ _ _ | .vstb _ _ _ _ _ | .sptest _ _ | .prefL1 _ _ | .prefL2 _ _ | .cctlL1line _
  | .cctlL2evict _ | .vadd _ _ _ | .vsub _ _ _ | .vmul _ _ _ | .vmulh _ _ _ | .vmin _ _ _ | .vmax _ _ _
  | .vabsd _ _ _ | .vdiv _ _ _ | .vrem _ _ _ | .vfma _ _ _ | .vfms _ _ _ | .vfnma _ _ _ | .vaddsat _ _ _
  | .vsubsat _ _ _ | .vavg _ _ _ | .vcopysign _ _ _ | .vand _ _ _ | .vor _ _ _ | .vxor _ _ _ | .vandn _ _ _
  | .vshl _ _ _ | .vshr _ _ _ | .vsra _ _ _ | .vrotr _ _ _ | .vaddi _ _ _ | .vmuli _ _ _ | .vandi _ _ _ | .vori _ _ _
  | .vshli _ _ _ | .vshri _ _ _ | .vsrai _ _ _ | .vrotri _ _ _ | .vmovi _ _ | .vmov _ _ | .vneg _ _ | .vabs _ _
  | .vnot _ _ | .vpopc _ _ | .vclz _ _ | .vsext8 _ _ | .vsext16 _ _ | .vrcp _ _ | .vrsq _ _ | .vsqrt _ _ | .vexp2 _ _
  | .vlog2 _ _ | .vsin _ _ | .vcos _ _ | .vtanh _ _ | .vadds _ _ _ | .vmuls _ _ _ | .vfmas _ _ _ | .vmins _ _ _
  | .vmaxs _ _ _ | .vbcast _ _ | .vshls _ _ _ | .vshrs _ _ _ | .vsel _ _ _ _ | .pand _ _ _ | .por _ _ _ | .pxor _ _ _
  | .pandn _ _ _ | .pnot _ _ | .pset _ | .pclr _ | .pmov _ _ | .vshfl _ _ _ | .vshflTeam _ _ _ | .visect _ _ _
  | .vbmax _ _ | .vscsel _ _ _ | .vqnt _ _ _ | .vdq _ _ _ | .vpack _ _ _ _ | .vunpk _ _ _ _ | .vhist _ _
  | .spctl _ _ _ | .vsideRd _ _ | .vsideWr _ _ | .xcntSet _ _ _ | .xcntAdd _ _ _ | .tst _ _ | .mma _ _ _ _ _ _
  | .mmaZ _ _ _ _ _ _ | .trdr _ _ _ | .trdc _ _ _ | .twrr _ _ _ | .twrc _ _ _ | .aqnt _ _ _ _ _ | .xwait _ _ _
  | .xwaitTest _ _ _ | .nsend _ _ _ | .nsendImm _ _ _ | .tsend _ _ _ | .prefixedInstruction _ _ | .ill | .nop | .exit
  | .texit | .refill | .join | .disb | .ret | .uret | .tret | .haltc | .cctlL1all | .ejectRecordWrite | .claimGrant
  | .loadDataReturn | .matrixStepDone | .spillAhead | .engineCommandStart | .engineCommandComplete | .engineSuspend
  | .faultRecordWrite | .handlerLaunch | .yieldOverrun | .barrierTimeout | .blockPlace | .clusterPlace
  | .blockRelease | .placementStarvation | .launchComplete | .doorbellWrite | .launch | .tapePop | .graph
  | .tableLoad | .tableDisable | .copy | .signalSet | .signalAdd | .signalWait | .signalStore | .regionCreate
  | .regionModify | .regionDestroy | .regionBind | .tableFiring | .teamResume | .leaveWindow | .coreGroupSwapOut
  | .coreGroupSwapIn | .haltRelease | .storageError | .publishEntryStore | .hostRdmaWrite | .hostRdmaRead
  | .remoteWriteUnit | .remoteRead | .remoteIncrement | .peerRefusal | .flushMarker | .flushAck | .pathDown
  | .peerPathLoss | .portTraining | .ptpMessage | .powerOnReset | .resetRequest | .floorCommand | .firmwareUpdate
  | .attestationRequest | .eventLogRead | .counterProgram | .counterRead | .sensorPoll | .spillTransferComplete
  | .tileTransferComplete | .publishSyncCopy => none

/-- The checks of a single word. -/
def Instr.wordIllForm (i : Instr) : Option IllForm :=
  firstOf [chk .fieldWidth (i.fields.all fun f => Nat.blt f.1 (2 ^ f.2)),
    chk .badUniform (i.uniforms.all isUniform), i.codeCheck]

/-- The first reason a term is no well-formed instruction, if there is one. -/
def Instr.illForm : Instr → Option IllForm
  | .prefixedInstruction p i =>
    firstOf [p.illForm, chk .prefixMisplaced (takesPrefix i), prefixClash p i, i.wordIllForm]
  | i => i.wordIllForm

/-- A well-formed instruction. -/
def Instr.WellFormed (i : Instr) : Prop := i.illForm = none

end Sys2Proof
end

