-- ==== Sys2Proof/Machine/Operands.lean ====
section
/-!
DEFINITION. Operand forms: element types and sub-elements (R176), lane patterns (R181), window checks (R97), the
registers that a word names (R183), and the shape shared by every lane-wise vector instruction (R245).
-/
namespace Sys2Proof.Machine

/-! ### Element types (R176) -/

/-- Bits of a sub-element. -/
def elemBits (t : Nat) : Nat :=
  if t ≤ 2 then 32 else if t ≤ 8 then 16 else if t ≤ 10 then 8 else 64
/-- Sub-elements per lane. -/
def elemCount (t : Nat) : Nat := if t ≤ 4 then 1 else if t ≤ 8 then 2 else if t ≤ 10 then 4 else 1
/-- The type takes an even register pair (R90). -/
def isWide (t : Nat) : Bool := 11 ≤ t && t ≤ 13
/-- The float class (R246). -/
def isFloat (t : Nat) : Bool := (2 ≤ t && t ≤ 6) || t = 13
/-- A signed integer type. -/
def isSigned (t : Nat) : Bool := t = 0 || t = 7 || t = 9 || t = 11
/-- The int class (R246). -/
def isInt (t : Nat) : Bool := t ≤ 13 && !isFloat t
/-- A packed type (R256). -/
def isPacked (t : Nat) : Bool := 5 ≤ t && t ≤ 10

/-- Sub-element `j` of a lane's 64-bit image. -/
def subElem (t x j : Nat) : Nat := x / 2 ^ (elemBits t * j) % 2 ^ elemBits t

/-- A lane's image from its sub-elements. -/
def joinElems (t : Nat) (f : Nat → Nat) : Nat :=
  (List.range (elemCount t)).foldl (fun r j => r + f j % 2 ^ elemBits t * 2 ^ (elemBits t * j)) 0

/-- A sub-element as the integer its type says (R246). -/
def elemInt (t x : Nat) : Int := if isSigned t then sextInt x (elemBits t) else (x % 2 ^ elemBits t : Nat)

/-- The smallest and largest integer of a type (R53). -/
def elemMin (t : Nat) : Int := if isSigned t then -((2 ^ (elemBits t - 1) : Nat) : Int) else 0
/-- The largest integer of a type. -/
def elemMax (t : Nat) : Int :=
  if isSigned t then ((2 ^ (elemBits t - 1) : Nat) : Int) - 1 else ((2 ^ elemBits t : Nat) : Int) - 1

/-- Narrow an exact integer to a type: saturated or wrapped (R53). -/
def narrow (t : Nat) (sat : Bool) (x : Int) : Nat :=
  if sat then wrapNat (min (max x (elemMin t)) (elemMax t)) (elemBits t) else wrapNat x (elemBits t)

/-! ### Lane patterns (R181) -/

/-- The lane of the same pass that an operand is read from. -/
def patternSrc (lp k l : Nat) : Nat :=
  match lp with
  | 1 => 31 - l
  | 2 => (l + 32 - k % 32) % 32
  | 3 => (l + k) % 32
  | 4 => k % 32
  | 5 => l ^^^ k % 8
  | 6 => l ^^^ 7
  | _ => l

/-- Source lane of operand a (`b = 0`) or b (`b = 1`) for lane `L` (R245). -/
def State.srcLane (s : State) (b l : Nat) : Nat :=
  match s.iss.pfx with
  | some p => if p.lps = b then l / 32 * 32 + patternSrc p.lp p.k (l % 32) else l
  | none => l

/-! ### Register checks -/

/-- A 64-bit operand names an even register (R90). -/
def evenOk (wide : Bool) (ns : List Nat) : Bool := !wide || ns.all (fun n => n % 2 = 0)

/-- Every named vector register, and the second of a pair, lies in the frame (R97). -/
def State.windowOk (s : State) (wide : Bool) (ns : List Nat) : Bool :=
  ns.all (fun n => s.vOk n && (!wide || s.vOk (n + 1)))

/-- The checks that every word with vector operands shares, in the order of R192: an odd register of a pair, a type the
entry does not list, lookahead, the window. -/
def State.vectorChecks (s : State) (typeOk wide : Bool) (ns : List Nat) : Except FaultInfo Unit := do
  need (evenOk wide ns) (s.flt .illegalInstruction)
  need typeOk (s.flt .illegalMode)
  s.hazardCheck
  need (s.windowOk wide ns) (s.flt .windowRange)

/-- A lane's operand as a 64-bit image: one register, or an even pair (R90). -/
def State.laneImage (s : State) (wide : Bool) (n l : Nat) : Nat :=
  (s.getV n l).toNat + if wide then (s.getV (n + 1) l).toNat * 2 ^ 32 else 0

/-- Write lanes of a register or of an even pair, clearing side-bands (R29, R90). -/
def State.putLanes (s : State) (wide : Bool) (n : Nat) (xs : List (Nat × Nat)) : State :=
  let lo := s.putV n (xs.map (fun x => (x.1, BitVec.ofNat 32 x.2)))
  if wide then lo.putV (n + 1) (xs.map (fun x => (x.1, BitVec.ofNat 32 (x.2 / 2 ^ 32)))) else lo

/-- What a lane produces: its image and the flags it raises (R56). -/
abbrev LaneOut := Nat × Byte

/-- The destination of a lane-wise instruction over the lanes of the issue: selected lanes take their result, unselected
ones keep their value or take zero under MZ (R178, R245). -/
def State.laneResults (s : State) (f : Nat → LaneOut) : List (Nat × LaneOut) :=
  let sel := s.selected
  (lanesOf s.team.size (if s.mz then s.iss.lanes else sel)).map (fun l =>
    (l, if sel.getLsbD l then f l else (0, 0)))

/-- Write the results of a lane-wise instruction and its flags. -/
def State.writeLanes (s : State) (wide : Bool) (d : Nat) (rs : List (Nat × LaneOut)) : State :=
  (s.putLanes wide d (rs.map (fun r => (r.1, r.2.1)))).raise (rs.foldl (fun f r => f ||| r.2.2) 0)

/-- A lane-wise instruction with a vector destination: checks, results of every lane from the old state, one write
(R245). The end of the issue is the caller's. -/
def State.lanewiseCore (s : State) (typeOk srcWide dstWide : Bool) (d : Nat) (srcs : List Nat) (f : Nat → LaneOut) :
    Except FaultInfo State := do
  need (evenOk dstWide [d]) (s.flt .illegalInstruction)
  s.vectorChecks typeOk srcWide srcs
  need (s.windowOk dstWide [d]) (s.flt .windowRange)
  return s.writeLanes dstWide d (s.laneResults f)

/-- A lane-wise instruction of the SR-counting words (R46, R245). -/
def State.lanewise (s : State) (typeOk srcWide dstWide : Bool) (d : Nat) (srcs : List Nat) (f : Nat → LaneOut) :
    Except FaultInfo State := do
  return (← s.lanewiseCore typeOk srcWide dstWide d srcs f).retireSr

/-! ### The registers that a word names (R183) -/

/-- A vector register, or an even pair. -/
def vName (wide : Bool) (n : Nat) : List RegName := if wide then [.v n, .v (n + 1)] else [.v n]
/-- A uniform register; sz never conflicts. -/
def sName (n : Nat) : List RegName := if n < 192 then [.s n] else []
/-- A predicate; p0 never conflicts. -/
def pName (n : Nat) : List RegName := if n = 0 then [] else [.p n]
/-- A control group (R321). -/
def groupNames (n : Nat) : List RegName := if n < 189 then [.s n, .s (n + 1), .s (n + 2), .s (n + 3)] else []

/-- The registers a word of OP 0x20 and above reads and writes, its guard and prefix apart; `w`: the mode's type is 64
bits wide. Words of lower OPs end every window (R182), so they are not asked. -/
def wordUse (w : Bool) : Instr → List RegName × List RegName
  | .sadd d a b | .ssub d a b | .smul d a b | .smulh d a b | .sdiv d a b | .sdivu d a b | .srem d a b | .sremu d a b
  | .sand d a b | .sor d a b | .sxor d a b | .sandn d a b | .sshl d a b | .sshr d a b | .ssra d a b | .srotr d a b
  | .smin d a b | .smax d a b | .sminu d a b | .smaxu d a b | .sslt d a b | .ssltu d a b | .sseq d a b
  | .ssne d a b | .sselz d a b | .spctl d a b => (sName a ++ sName b, sName d)
  | .ssel d a b => (sName a ++ sName b ++ sName d, sName d)
  | .spopc d a | .sclz d a | .sctz d a | .sbrev d a | .sptest d a | .spcast d a _ _ => (sName a, sName d)
  | .saddi d a _ | .sandi d a _ | .sori d a _ | .sxori d a _ | .sshli d a _ | .sshri d a _ | .ssrai d a _
  | .sslti d a _ => (sName a, sName d)
  | .sli d _ => ([], sName d)
  | .slui d _ => (sName d, sName d)
  | .sld64 t b _ _ | .sld32 t b _ _ => (sName b, sName t)
  | .sst64 t b _ _ | .sst32 t b _ _ => (sName t ++ sName b, [])
  | .vld8 t b x _ u | .vld16 t b x _ u | .vld32 t b x _ u | .vldb t b x _ u =>
    (sName b ++ (if u = 0 then [.v x] else []), [.v t])
  | .vld64 t b x _ u => (sName b ++ (if u = 0 then [.v x] else []), vName true t)
  | .vst8 t b x _ u | .vst16 t b x _ u | .vst32 t b x _ u | .vstb t b x _ u =>
    (.v t :: sName b ++ (if u = 0 then [.v x] else []), [])
  | .vst64 t b x _ u => (vName true t ++ sName b ++ (if u = 0 then [.v x] else []), [])
  | .vatom d x b _ _ => (.v d :: .v x :: sName b, [.v d])
  | .satom d a _ _ _ => (sName d ++ sName a, sName d)
  | .vsptest d a => (vName true a, [.v d])
  | .vspcast d a _ _ => (vName true a, vName true d)
  | .prefL1 b _ | .prefL2 b _ => (sName b, [])
  | .cctlL1line a | .cctlL2evict a => (sName a, [])
  | .vadd d a b | .vsub d a b | .vmul d a b | .vmulh d a b | .vmin d a b | .vmax d a b | .vabsd d a b | .vdiv d a b
  | .vrem d a b | .vaddsat d a b | .vsubsat d a b | .vavg d a b | .vcopysign d a b | .vand d a b | .vor d a b
  | .vxor d a b | .vandn d a b | .vshl d a b | .vshr d a b | .vsra d a b | .vrotr d a b =>
    (vName w a ++ vName w b, vName w d)
  | .vfma d a b | .vfms d a b | .vfnma d a b => (vName w a ++ vName w b ++ vName w d, vName w d)
  | .vaddi d a _ | .vmuli d a _ | .vandi d a _ | .vori d a _ | .vshli d a _ | .vshri d a _ | .vsrai d a _
  | .vrotri d a _ | .vmov d a | .vneg d a | .vabs d a | .vnot d a | .vpopc d a | .vclz d a => (vName w a, vName w d)
  | .vmovi d _ => ([], vName w d)
  | .vsext8 d a | .vsext16 d a | .vrcp d a | .vrsq d a | .vsqrt d a | .vexp2 d a | .vlog2 d a | .vsin d a | .vcos d a
  | .vtanh d a | .vbmax d a | .vsideRd d a | .vsideWr d a => ([.v a], [.v d])
  | .vcvt d a t => (vName w a, vName (isWide t) d)
  | .vadds d a s | .vmuls d a s | .vmins d a s | .vmaxs d a s | .vshls d a s | .vshrs d a s =>
    (vName w a ++ sName s, vName w d)
  | .vfmas d a s => (vName w a ++ sName s ++ vName w d, vName w d)
  | .vbcast d s => (sName s, vName w d)
  | .vcmp p a b _ _ => (vName w a ++ vName w b ++ pName p, pName p)
  | .vcmps p a s _ _ => (vName w a ++ sName s ++ pName p, pName p)
  | .vsel d a b p => (vName w a ++ vName w b ++ pName p, vName w d)
  | .pand d a b | .por d a b | .pxor d a b | .pandn d a b => (pName a ++ pName b, pName d)
  | .pnot d a | .pmov d a => (pName a, pName d)
  | .pset d | .pclr d => ([], pName d)
  | .vshfl d a b | .vshflTeam d a b => (vName w a ++ [.v b], vName w d)
  | .vred a s _ => ([.v a], sName s)
  | .vscan d a s f => (vName (f = 4) a ++ sName s, vName (f = 4) d ++ sName s)
  | .vball _ p s _ => (pName p, sName s)
  | .vnzs d a s _ => (.v a :: sName s, .v d :: sName s)
  | .visect d a b => ([.v a, .v b], [.v d])
  | .vscsel d a f | .vqnt d a f | .vdq d a f => (.v a :: .v d :: sName f, [.v d])
  | .vpack d a _ f | .vunpk d a _ f => (.v a :: .v d :: sName f, [.v d])
  | .vreq d a f => (.v a :: .v d :: (sName f ++ sName (f + 1)), [.v d])
  | .vhist a r => (.v a :: sName r, [])
  | .vlane d _ => ([], [.v d])
  | .xcntSet a b c | .xcntAdd a b c | .xwait a b c | .xwaitTest a b c => (sName a ++ sName b, sName c)
  | .tclm s _ _ | .tclmTry s _ _ | .aclm s _ _ | .aclmTry s _ _ => ([], sName s)
  | .tldDense _ b f _ | .tldDec _ b f _ | .tldPcs _ b f _ => (sName b ++ sName f, [])
  | .tst _ b => (sName b, [])
  | .mmas _ _ _ _ s => (sName s, [])
  | .ardr d _ s | .ardc d _ s | .trdr d _ s | .trdc d _ s => (sName s, [.v d])
  | .awrr d _ s | .awrc d _ s | .twrr d _ s | .twrc d _ s => (.v d :: sName s, [])
  | .aqnt _ b f _ _ => (sName b ++ sName f, [])
  | .tinfo d _ _ => ([], sName d)
  | .xcpy a b c | .xcpyPair a b c | .xgath a b c | .xscat a b c | .cred a b c =>
    (sName a ++ sName b ++ groupNames c, [])
  | .xflush a c => (sName a ++ groupNames c, [])
  | .xpub a _ c | .xpubSync a _ c => (sName a, sName c)
  | .nsend a b c | .tsend a b c => (sName a ++ sName b ++ sName c, [])
  | .nsendImm v b c => (.v v :: (sName b ++ sName c), [])
  | _ => ([], [])

/-- The guard of R178 is read by this word. -/
def readsGuard (i : Instr) : Bool :=
  match i.pfxShape with
  | .never | .satom _ => false
  | _ => true

/-- The registers an instruction reads and writes: its word, its prefix operand and its guard (R183). -/
def regUse (w : Bool) (g : Nat) : Instr → List RegName × List RegName
  | .prefixedInstruction p i =>
    let u := wordUse w i
    let d4 := match i.pfxShape with
      | .satom cas => if cas then sName p.d4 else []
      | .atom cas => if cas then [.v p.d4] else []
      | _ => if p.d4 = 0 then [] else vName w p.d4
    let grd := if readsGuard i then pName (if p.grd < 16 then p.grd else g) else []
    (u.1 ++ d4 ++ grd, u.2)
  | i => let u := wordUse w i; (u.1 ++ (if readsGuard i then pName g else []), u.2)

/-- A covered instruction breaches a window: it reads or writes a destination, or writes a source (R183). -/
def breaches (u : List RegName × List RegName) (x : LookWindow) : Bool :=
  x.dst.any (fun r => u.1.contains r || u.2.contains r) || x.src.any (fun r => u.2.contains r)

/-- Open the lookahead window of `la` instructions of the long-latency instruction being issued, with its destinations and
sources (R182, R183), under a name of its own; `done`: it has completed already. -/
def State.openWindow (s : State) (la : Nat) (done : Bool) (i : Instr) : State :=
  if la = 0 then { s with team := { s.team with nextLoad := s.team.nextLoad + 1 } }
  else
    let u := regUse false s.guardNo (match s.iss.pfx with | some p => .prefixedInstruction p i | none => i)
    { s with team := { s.team with
        nextLoad := s.team.nextLoad + 1
        looks := s.team.looks ++ [{ lid := s.team.nextLoad, off := s.team.pc, left := la, dst := u.2, src := u.1
                                    done := done }] } }

end Sys2Proof.Machine
end

