-- ==== Sys2Proof/Machine/Special.lean ====
section
/-!
DEFINITION. The special functions of VUNARY (R252, R253), correctly rounded. Roots are exact integer roots with a sticky
half. The transcendental functions are evaluated in fixed point with 1,200 fraction bits and rounded once (log 21).
-/
namespace Sys2Proof.Machine

/-- Integer square root, by its bits from the top. -/
def isqrt (n : Nat) : Nat :=
  (List.range (ilog2 n / 2 + 1)).reverse.foldl (fun r i => if (r + 2 ^ i) * (r + 2 ^ i) ≤ n then r + 2 ^ i else r) 0

/-- Fraction bits of the fixed point. -/
def fxBits : Nat := 1200
/-- 1 in fixed point. -/
def fxOne : Nat := 2 ^ fxBits

/-- atanh(y) for y = n/d ≤ 1/3. -/
def fxAtanh (n d : Nat) : Nat :=
  let y := n * fxOne / d
  let y2 := y * y / fxOne
  ((List.range 400).foldl (fun (s : Nat × Nat) k => (s.1 + s.2 / (2 * k + 1), s.2 * y2 / fxOne)) (0, y)).1

/-- ln 2. -/
def fxLn2 : Nat := 2 * fxAtanh 1 3

/-- atan(1/d) for d ≥ 5. -/
def fxAtanInv (d : Nat) : Nat :=
  let s := (List.range 280).foldl (fun (s : Int × Nat) k =>
    (if k % 2 = 0 then s.1 + (s.2 / (2 * k + 1) : Nat) else s.1 - (s.2 / (2 * k + 1) : Nat), s.2 / (d * d)))
    (0, fxOne / d)
  s.1.toNat

/-- Pi. -/
def fxPi : Nat := 16 * fxAtanInv 5 - 4 * fxAtanInv 239

/-- e^t for 0 ≤ t < 1. -/
def fxExp (t : Nat) : Nat :=
  ((List.range 260).foldl (fun (s : Nat × Nat) k => (s.1 + s.2, s.2 * t / fxOne / (k + 1))) (0, fxOne)).1

/-- The alternating series of sin (`odd`) or cos at 0 ≤ t < 2 pi. -/
def fxCircle (odd : Bool) (t : Nat) : Int :=
  let t2 := t * t / fxOne
  let o := if odd then 1 else 0
  ((List.range 170).foldl (fun (s : Int × Nat) k =>
    (if k % 2 = 0 then s.1 + s.2 else s.1 - s.2, s.2 * t2 / fxOne / ((2 * k + 1 + o) * (2 * k + 2 + o))))
    ((0 : Int), if odd then t else fxOne)).1

/-- 2^f for 0 ≤ f < 1. -/
def fxExp2 (f : Nat) : Nat := if f = 0 then fxOne else fxExp (f * fxLn2 / fxOne)

/-- A fixed-point number rounded to a format. -/
def FloatFmt.ofFx (f : FloatFmt) (mode r : Nat) (x : Int) : Nat × Byte := f.round mode r (x < 0) x.natAbs fxOne

/-- Fixed point of a dyadic magnitude. -/
def toFx (m : Nat) (e : Int) : Nat := let x := scaled (m * fxOne) 1 e; x.1 / x.2

/-- The square root of a positive dyadic number, as an exact value or one with a sticky half. -/
def rootOf (m : Nat) (e : Int) (inverse : Bool) : Nat × Nat :=
  let even := e % 2 = 0
  let m := if even then m else 2 * m
  let h := (if even then e else e - 1) / 2
  if inverse then
    let k := 160 + ilog2 m
    let s := isqrt (2 ^ (2 * k) / m)
    if s * s * m = 2 ^ (2 * k) then scaled s 1 (-h - k) else scaled (2 * s + 1) 2 (-h - k)
  else
    let t := m * 2 ^ 320
    let s := isqrt t
    if s * s = t then scaled s 1 (h - 160) else scaled (2 * s + 1) 2 (h - 160)

/-- 2^x of a dyadic number; beyond ±2,000 the result lies outside every format's range as 2^±2000 does. -/
def FloatFmt.exp2Of (f : FloatFmt) (mode r : Nat) (neg : Bool) (m : Nat) (e : Int) : Nat × Byte :=
  let x := scaled m 1 e
  if 2000 * x.2 < x.1 then (if neg then f.round mode r false 1 (2 ^ 2000) else f.round mode r false (2 ^ 2000) 1)
  else
    let v := signedInt neg (toFx m e)
    let n := v / (fxOne : Int)
    let y := scaled (fxExp2 (v % (fxOne : Int)).toNat) fxOne n
    f.round mode r false y.1 y.2

/-- log2 of a positive dyadic number. -/
def FloatFmt.log2Of (f : FloatFmt) (mode r : Nat) (m : Nat) (e : Int) : Nat × Byte :=
  let l := ilog2 m
  let n : Int := e + l
  if m = 2 ^ l then f.ofInt mode r n
  else f.ofFx mode r (n * fxOne + (2 * fxAtanh (m - 2 ^ l) (m + 2 ^ l) * fxOne / fxLn2 : Nat))

/-- tanh of a positive dyadic number; beyond 300 it is 1 less something below 2^-800. -/
def FloatFmt.tanhOf (f : FloatFmt) (mode r : Nat) (neg : Bool) (m : Nat) (e : Int) : Nat × Byte :=
  let x := scaled m 1 e
  if 300 * x.2 < x.1 then f.round mode r neg (2 ^ 800 - 1) (2 ^ 800)
  else
    let t := 2 * toFx m e
    let n := t / fxLn2
    let y := fxExp (t % fxLn2) * 2 ^ n
    f.round mode r neg (y - fxOne) (y + fxOne)

/-- sin or cos of a dyadic number in radians, reduced over the whole finite range. -/
def FloatFmt.circleOf (f : FloatFmt) (mode r : Nat) (odd neg : Bool) (m : Nat) (e : Int) : Nat × Byte :=
  let v := fxCircle odd (toFx m e % (2 * fxPi))
  f.ofFx mode r (if odd && neg then -v else v)

/-- The special functions, FN 8..15 of VUNARY. -/
inductive SpecialFn where
  | rcp | rsq | sqrt | exp2 | log2 | sin | cos | tanh
  deriving DecidableEq, Repr

/-- A special function of a code (R253). -/
def FloatFmt.special (f : FloatFmt) (fn : SpecialFn) (mode r a : Nat) : Nat × Byte :=
  let one := f.bias * 2 ^ f.mbits
  match fn, f.decode a with
  | _, .nan s => f.nanOf [.nan s]
  | .rcp, .inf n => (f.signed n 0, 0)
  | .rcp, .fin n m e =>
    if m = 0 then (f.signed n f.infCode, flagDZ) else let x := scaled 1 m (-e); f.round mode r n x.1 x.2
  | .rsq, .inf n => if n then f.invalid else (0, 0)
  | .rsq, .fin n m e =>
    if m = 0 then (f.signed n f.infCode, flagDZ)
    else if n then f.invalid else let x := rootOf m e true; f.round mode r false x.1 x.2
  | .sqrt, .inf n => if n then f.invalid else (f.infCode, 0)
  | .sqrt, .fin n m e =>
    if m = 0 then (f.signed n 0, 0)
    else if n then f.invalid else let x := rootOf m e false; f.round mode r false x.1 x.2
  | .exp2, .inf n => (if n then 0 else f.infCode, 0)
  | .exp2, .fin n m e => if m = 0 then (one, 0) else f.exp2Of mode r n m e
  | .log2, .inf n => if n then f.invalid else (f.infCode, 0)
  | .log2, .fin n m e =>
    if m = 0 then (f.signed true f.infCode, flagDZ) else if n then f.invalid else f.log2Of mode r m e
  | .sin, .inf _ => f.invalid
  | .sin, .fin n m e => if m = 0 then (f.signed n 0, 0) else f.circleOf mode r true n m e
  | .cos, .inf _ => f.invalid
  | .cos, .fin n m e => if m = 0 then (one, 0) else f.circleOf mode r false n m e
  | .tanh, .inf n => (f.signed n one, 0)
  | .tanh, .fin n m e => if m = 0 then (f.signed n 0, 0) else f.tanhOf mode r n m e

end Sys2Proof.Machine
end

