-- ==== Sys2Proof/Machine/VecOps.lean ====
section
/-!
DEFINITION. What the vector instructions compute on one sub-element (R245..R256), and the shapes they share: operands of a
lane, element by element results, whole-register results.
-/
namespace Sys2Proof.Machine

/-! ### Operands of a lane (R245, R255) -/

/-- The interchange format of a float type. -/
def floatFmt (t : Nat) : FloatFmt :=
  if t = 2 then binary32 else if t = 3 || t = 5 then binary16 else if t = 13 then binary64 else bfloat16

/-- The random value of sub-element `j` of lane `l` (R46). -/
def State.random (s : State) (l j : Nat) : Nat :=
  if s.rm = 5 then
    let x := s.team.sp.srStream.toNat
    srBits s.seed (field x 40 24) (field x 0 40 * 4096 + 4 * l + j)
  else 0

/-- Operand a of a lane. -/
def State.opA (s : State) (a l : Nat) : Nat := s.laneImage (isWide s.ty) a (s.srcLane 0 l)
/-- Operand b of a lane. -/
def State.opB (s : State) (b l : Nat) : Nat := s.laneImage (isWide s.ty) b (s.srcLane 1 l)
/-- The register of operand c: D4, or the destination (R245). -/
def State.cReg (s : State) (d : Nat) : Nat := if s.d4 = 0 then d else s.d4
/-- Operand c of a lane. -/
def State.opC (s : State) (d l : Nat) : Nat := s.laneImage (isWide s.ty) (s.cReg d) l

/-- One result per sub-element of the mode's type, each with its random value. -/
def State.elemwise (s : State) (f : Nat → Nat → LaneOut) (l : Nat) : LaneOut :=
  let rs := (List.range (elemCount s.ty)).map (fun j => f j (s.random l j))
  (joinElems s.ty (fun j => (rs.getD j (0, 0)).1), flagsOr (rs.map Prod.snd))

/-- A unary instruction over the elements of a. -/
def State.vec1 (s : State) (typeOk : Bool) (d a : Nat) (op : Nat → Nat → LaneOut) : Except FaultInfo State :=
  s.lanewise typeOk (isWide s.ty) (isWide s.ty) d [a] (fun l =>
    s.elemwise (fun j r => op r (subElem s.ty (s.opA a l) j)) l)

/-- A binary instruction over the elements of a and b. -/
def State.vec2 (s : State) (typeOk : Bool) (d a b : Nat) (op : Nat → Nat → Nat → LaneOut) : Except FaultInfo State :=
  s.lanewise typeOk (isWide s.ty) (isWide s.ty) d [a, b] (fun l =>
    s.elemwise (fun j r => op r (subElem s.ty (s.opA a l) j) (subElem s.ty (s.opB b l) j)) l)

/-- The FMA family: elements of a, b and c. -/
def State.vec3 (s : State) (d a b : Nat) (op : Nat → Nat → Nat → Nat → LaneOut) : Except FaultInfo State :=
  s.lanewise true (isWide s.ty) (isWide s.ty) d [a, b, s.cReg d] (fun l =>
    s.elemwise (fun j r =>
      op r (subElem s.ty (s.opA a l) j) (subElem s.ty (s.opB b l) j) (subElem s.ty (s.opC d l) j)) l)

/-- A binary instruction whose b is one image for every lane: an immediate's or a uniform register's. -/
def State.vecX (s : State) (typeOk : Bool) (d a x : Nat) (op : Nat → Nat → Nat → LaneOut) : Except FaultInfo State :=
  s.lanewise typeOk (isWide s.ty) (isWide s.ty) d [a] (fun l =>
    s.elemwise (fun j r => op r (subElem s.ty (s.opA a l) j) (subElem s.ty x j)) l)

/-- A copy or a bit operation over the whole register, or the pair under a 64-bit type. -/
def State.vecWhole (s : State) (d : Nat) (srcs : List Nat) (f : Nat → Nat) : Except FaultInfo State :=
  s.lanewise true (isWide s.ty) (isWide s.ty) d srcs (fun l => (f l, 0))

/-- A uniform register as operand b (R255). -/
def State.scalarB (s : State) (n : Nat) : Nat := (s.getS n).toNat

/-- wrap(i, w) in every sub-element (R251). -/
def immElems (t : Nat) (i : Int) : Nat := joinElems t (fun _ => wrapNat i (elemBits t))

/-- sext(IMM11, 11). -/
def imm11 (i : Nat) : Int := sextInt i 11

/-- Sign extension of IMM11 to a register or pair (R251 VANDI, VORI). -/
def immWhole (t i : Nat) : Nat := wrapNat (imm11 i) (if isWide t then 64 else 32)

/-! ### One sub-element: arithmetic (R249, R53, R54) -/

/-- Addition. -/
def addOp (t mode : Nat) (sat : Bool) (r a b : Nat) : LaneOut :=
  if isFloat t then (floatFmt t).add mode r a b else (narrow t sat (elemInt t a + elemInt t b), 0)

/-- Subtraction. -/
def subOp (t mode : Nat) (sat : Bool) (r a b : Nat) : LaneOut :=
  if isFloat t then (floatFmt t).sub mode r a b else (narrow t sat (elemInt t a - elemInt t b), 0)

/-- Multiplication. -/
def mulOp (t mode : Nat) (sat : Bool) (r a b : Nat) : LaneOut :=
  if isFloat t then (floatFmt t).mul mode r a b else (narrow t sat (elemInt t a * elemInt t b), 0)

/-- The high half of an integer product. -/
def mulhOp (t a b : Nat) : LaneOut := (wrapNat (elemInt t a * elemInt t b / (2 ^ elemBits t : Nat)) (elemBits t), 0)

/-- Minimum or maximum. -/
def minMaxOp (t : Nat) (max : Bool) (a b : Nat) : LaneOut :=
  if isFloat t then (floatFmt t).minMax max a b
  else (if (elemInt t a < elemInt t b) = max then b else a, 0)

/-- Absolute difference. -/
def absdOp (t mode : Nat) (sat : Bool) (r a b : Nat) : LaneOut :=
  if isFloat t then (floatFmt t).absDiff mode r a b
  else (narrow t sat ((elemInt t a - elemInt t b).natAbs : Int), 0)

/-- Truncating division and remainder of w-bit values, with the two fixed cases (R54). -/
def divCases (lo x y : Int) (signed : Bool) : Int × Int × Byte :=
  if y = 0 then (-1, x, flagIDZ)
  else if signed && x = lo && y = -1 then (lo, 0, flagIOV)
  else (x.tdiv y, x.tmod y, 0)

/-- Division. -/
def divOp (t mode r a b : Nat) : LaneOut :=
  if isFloat t then (floatFmt t).div mode r a b
  else
    let q := divCases (elemMin t) (elemInt t a) (elemInt t b) (isSigned t)
    (wrapNat q.1 (elemBits t), q.2.2)

/-- Remainder. -/
def remOp (t a b : Nat) : LaneOut :=
  let q := divCases (elemMin t) (elemInt t a) (elemInt t b) (isSigned t)
  (wrapNat q.2.1 (elemBits t), q.2.2)

/-- a · b + c, with the product or c negated as asked. -/
def fmaOp (t mode : Nat) (sat negProd negC : Bool) (r a b c : Nat) : LaneOut :=
  if isFloat t then (floatFmt t).fma mode r negProd negC a b c
  else
    let p := elemInt t a * elemInt t b
    let z := elemInt t c
    (narrow t sat ((if negProd then -p else p) + (if negC then -z else z)), 0)

/-- floor((a + b + 1) / 2). -/
def avgOp (t a b : Nat) : LaneOut := (wrapNat ((elemInt t a + elemInt t b + 1) / 2) (elemBits t), 0)

/-- Magnitude of a, sign of b. -/
def copysignOp (t a b : Nat) : LaneOut :=
  let top := 2 ^ (elemBits t - 1)
  (a % top + b % 2 ^ elemBits t / top * top, 0)

/-! ### Shifts (R250) -/

/-- Left shift by n, saturated under SAT. -/
def shlOp (t : Nat) (sat : Bool) (a n : Nat) : LaneOut := (narrow t sat (elemInt t a * (2 ^ (n % elemBits t) : Nat)), 0)

/-- Right shift with zero fill. -/
def shrOp (t a n : Nat) : LaneOut := (a / 2 ^ (n % elemBits t), 0)

/-- Right shift with sign fill. -/
def sraOp (t a n : Nat) : LaneOut :=
  (wrapNat (sextInt a (elemBits t) / (2 ^ (n % elemBits t) : Nat)) (elemBits t), 0)

/-- Rotation right. -/
def rotrOp (t a n : Nat) : LaneOut :=
  let w := elemBits t
  let k := n % w
  ((a / 2 ^ k + a * 2 ^ (w - k)) % 2 ^ w, 0)

/-! ### Immediates (R251) -/

/-- a + wrap(i, w), the immediate read as signed whatever T. -/
def addImmOp (t : Nat) (sat : Bool) (a b : Nat) : LaneOut := (narrow t sat (elemInt t a + sextInt b (elemBits t)), 0)

/-- a · wrap(i, w), the immediate read as signed whatever T. -/
def mulImmOp (t : Nat) (sat : Bool) (a b : Nat) : LaneOut := (narrow t sat (elemInt t a * sextInt b (elemBits t)), 0)

/-! ### Unary (R252) -/

/-- Negation. -/
def negOp (t : Nat) (sat : Bool) (a : Nat) : LaneOut :=
  let top := 2 ^ (elemBits t - 1)
  if isFloat t then (if a / top % 2 = 1 then a - top else a + top, 0) else (narrow t sat (-(elemInt t a)), 0)

/-- Absolute value. -/
def absOp (t : Nat) (sat : Bool) (a : Nat) : LaneOut :=
  if isFloat t then (a % 2 ^ (elemBits t - 1), 0) else (narrow t sat ((elemInt t a).natAbs : Int), 0)

/-! ### Conversion (R254) -/

/-- The set a type belongs to. -/
def cvtSet (t : Nat) : Nat := if isPacked t then (if t ≤ 8 then 1 else 2) else 0

/-- One sub-element from type t to type u. -/
def cvtOp (t u mode : Nat) (sat : Bool) (r a : Nat) : LaneOut :=
  if isFloat t then
    (if isFloat u then (floatFmt u).ofVal mode r ((floatFmt t).decode a)
     else
       let x := ((floatFmt t).decode a).toInt mode r (elemMin u) (elemMax u)
       (wrapNat x.1 (elemBits u), x.2))
  else if isFloat u then (floatFmt u).ofInt mode r (elemInt t a)
  else (narrow u sat (elemInt t a), 0)

/-! ### Comparison (R256) -/

/-- The condition of two elements, with its flags. -/
def condOp (t cc a b : Nat) : Bool × Byte :=
  if isFloat t then (floatFmt t).cond cc a b
  else
    let x := elemInt t a
    let y := elemInt t b
    ((match cc with
      | 0 => x == y
      | 1 => x != y
      | 2 => decide (x < y)
      | 3 => decide (x ≤ y)
      | 4 => decide (y < x)
      | _ => decide (y ≤ x)), 0)

/-- FN of a compare: set, and, or (R256). -/
def combine (fn : Nat) (old q : Bool) : Bool := if fn = 0 then q else if fn = 1 then old && q else old || q

/-- A compare: checks, one condition a lane, the predicate written (R256, R178). -/
def State.compare (s : State) (p : Nat) (srcs : List Nat) (cc fn : Nat) (b : Nat → Nat) (a : Nat) :
    Except FaultInfo State := do
  let t := s.ty
  s.vectorChecks (!isPacked t && (isFloat t || cc < 6)) (isWide t) srcs
  let out (l : Nat) := condOp t cc (subElem t (s.opA a l) 0) (subElem t (b l) 0)
  let sel := s.selected
  let old := s.getP p
  let yes := maskOf s.team.size (fun l => sel.getLsbD l && combine fn (old.getLsbD l) (out l).1)
  let fl := flagsOr ((lanesOf s.team.size sel).map (fun l => (out l).2))
  return ((s.setP p (if s.mz then s.iss.lanes else sel) yes).raise fl).retireSr

end Sys2Proof.Machine
end

