-- ==== Sys2Proof/Machine/VecBlock.lean ====
section
/-!
DEFINITION. The block family (R266..R269), histograms and the percentile scale (R270..R272), side-band access (R274). They
act per 16-lane group: data as the 64-byte value of the group's sector (R29), side-band as 8 bytes.
-/
namespace Sys2Proof.Machine

/-- A group: its sector as a number, its side-band, and flags raised for it. -/
structure Group where
  data : Nat
  side : Nat
  flags : Byte
  deriving DecidableEq, Repr

/-- Group `g` of a register. -/
def State.group (s : State) (n g : Nat) : Group :=
  { data := (List.range 16).foldl (fun x j => x + (s.getV n (16 * g + j)).toNat * 2 ^ (32 * j)) 0
    side := (s.getSide n g).toNat, flags := 0 }

/-- Lane `j` of a group. -/
def Group.lane (x : Group) (j : Nat) : Nat := field x.data (32 * j) 32

/-- A group from its 16 lane words. -/
def groupOf (ws : List Nat) (side : Nat) (flags : Byte) : Group :=
  { data := (ws.mapIdx (fun j w => (j, w))).foldl (fun x w => x + w.2 % 2 ^ 32 * 2 ^ (32 * w.1)) 0
    side := side, flags := flags }

/-- Write whole groups of a register with their side-bands, and their flags. -/
def State.putGroups (s : State) (n : Nat) (gs : List (Nat × Group)) : State :=
  ((s.setV n (gs.flatMap (fun g => (List.range 16).map (fun j => (16 * g.1 + j, BitVec.ofNat 32 (g.2.lane j)))))).setSide n
    (gs.map (fun g => (g.1, BitVec.ofNat 64 g.2.side)))).raise (flagsOr (gs.map (fun g => g.2.flags)))

/-- A block instruction: groups with a selected lane take part; under MZ the other groups with a lane of the issue are
zeroed (R267). -/
def State.blockwise (s : State) (d : Nat) (f : Nat → Group) : State :=
  let part := groupsOf s.team.size s.selected
  let zero := if s.mz then (groupsOf s.team.size s.iss.lanes).filter (fun g => !part.contains g) else []
  (s.putGroups d (part.map (fun g => (g, f g)) ++ zero.map (fun g => (g, ⟨0, 0, 0⟩)))).retireSr

/-- The format word of a format register. -/
def State.fmtWord (s : State) (r : Nat) : Nat := (s.getS r).toNat % 2 ^ 32

/-- The window, then the format word (R33, R267). -/
def State.blockChecks (s : State) (vs fs : List Nat) (given : Bool) : Except FaultInfo Unit := do
  s.vectorChecks true false vs
  need (fs.all (fun r => fmtValid (s.fmtWord r) false given)) (s.flt .slotState)

/-- Random values of the elements of a group (R269). -/
def State.groupRandom (s : State) (g i : Nat) : Nat := s.random (16 * g + i) 0

/-- The side-band that carries a scale: zero under BLK 2 (R34). -/
def BlockFmt.sideByte (f : BlockFmt) (scale : Nat) : Nat := if f.blk = 2 then 0 else scale

/-- A block in code form (R266). -/
def BlockFmt.codeForm (f : BlockFmt) (q : QuantBlock) : Group :=
  groupOf (q.codes.map (fun c => c % 2 ^ f.width)) (f.sideByte q.scale) q.flags

/-- Scale and codes of a group in code form. -/
def Group.codes (x : Group) : List Nat := (List.range 16).map x.lane

/-- VBMAX: the absolute maximum of the group in every lane (R268). A signalling NaN sets no flag (log 126). -/
def execVbmax (d a : Nat) (s : State) : Host.Outcome State Fault Refusal :=
  answer s (do
    s.vectorChecks true false [a, d]
    return s.blockwise d (fun g =>
      let m := ((s.group a g).codes.map (fun x => x % 2 ^ 31)).foldl max 0
      groupOf ((List.range 16).map (fun _ => if 0x7F800000 < m then 0x7FC00000 else m)) 0 0))

/-- VSCSEL: the scale code for |a| of the group's first lane (R268). -/
def execVscsel (d a f : Nat) (s : State) : Host.Outcome State Fault Refusal :=
  answer s (do
    s.blockChecks [a, d] [f] false
    return s.blockwise d (fun g =>
      let c := (blockFmt (s.fmtWord f)).select (binary32.decode ((s.group a g).lane 0 % 2 ^ 31))
      groupOf ((List.range 16).map (fun _ => c.1)) 0 c.2))

/-- The code supplied under SPOL 3: bits [7:0] of the group's first lane of the old vD (R268). -/
def State.givenCode (s : State) (f : BlockFmt) (d g : Nat) : Option Nat :=
  if f.spol = 3 then some ((s.group d g).lane 0 % 256) else none

/-- VQNT: F32 lanes quantised into code form (R39, R268). -/
def execVqnt (d a f : Nat) (s : State) : Host.Outcome State Fault Refusal :=
  answer s (do
    s.blockChecks [a, d] [f] true
    let fm := blockFmt (s.fmtWord f)
    return s.blockwise d (fun g => fm.codeForm (fm.quantise s.rm (s.groupRandom g) (s.givenCode fm d g)
      ((s.group a g).codes.map binary32.decode))))

/-- VDQ: code form to F32 lanes (R36, R268, R269). -/
def execVdq (d a f : Nat) (s : State) : Host.Outcome State Fault Refusal :=
  answer s (do
    s.blockChecks [a, d] [f] false
    let fm := blockFmt (s.fmtWord f)
    return s.blockwise d (fun g =>
      let x := s.group a g
      let rs := (fm.values (x.side % 256) x.codes).mapIdx (fun i v => binary32.ofVal s.rm (s.groupRandom g i) v)
      groupOf (rs.map Prod.fst) 0 (flagsOr (rs.map Prod.snd))))

/-- Replace `n` bits of `x` at `lo`. -/
def setField (x lo n v : Nat) : Nat := x - field x lo n * 2 ^ lo + v % 2 ^ n * 2 ^ lo

/-- Block `bp` of a sector: its codes (R28). -/
def BlockFmt.blockCodes (f : BlockFmt) (data bp : Nat) : List Nat :=
  (List.range 16).map (fun i => field data (16 * f.storage * bp + f.storage * i) f.storage % 2 ^ f.width)

/-- A sector with block `bp` replaced; 6-bit sectors end in zero bytes (R28, R34). -/
def BlockFmt.putBlock (f : BlockFmt) (x : Group) (bp scale : Nat) (codes : List Nat) : Group :=
  let bits := (codes.mapIdx (fun i c => (i, c))).foldl (fun b c => b + c.2 % 2 ^ f.width * 2 ^ (f.storage * c.1)) 0
  let y := setField x.data (16 * f.storage * bp) (16 * f.storage) bits
  { x with data := if f.storage = 6 then y % 2 ^ 384 else y, side := setField x.side (8 * bp) 8 (f.sideByte scale) }

/-- VPACK: a block in code form into a block position of vD's sector (R268). -/
def execVpack (d a p f : Nat) (s : State) : Host.Outcome State Fault Refusal :=
  answer s (do
    s.blockChecks [a, d] [f] false
    let fm := blockFmt (s.fmtWord f)
    need (p < fm.perSector) (s.flt .slotState)
    return s.blockwise d (fun g =>
      let x := s.group a g
      fm.putBlock (s.group d g) p (x.side % 256) x.codes))

/-- VUNPK: a block position of vA's sector into code form (R268). -/
def execVunpk (d a p f : Nat) (s : State) : Host.Outcome State Fault Refusal :=
  answer s (do
    s.blockChecks [a, d] [f] false
    let fm := blockFmt (s.fmtWord f)
    need (p < fm.perSector) (s.flt .slotState)
    return s.blockwise d (fun g =>
      let x := s.group a g
      fm.codeForm { scale := field x.side (8 * p) 8, codes := fm.blockCodes x.data p, flags := 0 }))

/-- VREQ: from format s[F] to format s[F+1], always requantised (R41, R268). -/
def execVreq (d a f : Nat) (s : State) : Host.Outcome State Fault Refusal :=
  answer s (do
    s.blockChecks [a, d] [f, f + 1] true
    let fm := blockFmt (s.fmtWord f)
    let fd := blockFmt (s.fmtWord (f + 1))
    return s.blockwise d (fun g =>
      let x := s.group a g
      fd.codeForm (fd.quantise s.rm (s.groupRandom g) (s.givenCode fd d g) (fm.values (x.side % 256) x.codes))))

/-! ### Histograms (R270..R272) -/

/-- A histogram record's place: scratchpad or cluster-shared, 144 bytes, aligned to 16 (R270). -/
def State.histPlace (s : State) (p : Word64) : Except FaultInfo Place := do
  need (p.toNat / 2 ^ 56 != 0 && p.toNat / 2 ^ 56 != 0xF0) (s.fltAt .spaceInvalid 0 p)
  let pl ← s.accessOne .atomic p 144 16
  need ((List.range 3).all (fun i => !s.poisonAt (pl.plus (64 * i))) && !s.poisonAt (pl.plus 143))
    (s.fltAt .memoryPoison 0 p)
  return pl

/-- Offset of the count that a value adds to (R270). -/
def histSlot (base : Int) (x : Nat) : Nat :=
  match binary32.decode x with
  | .nan _ => 0x08
  | .inf _ => 0x10 + 4 * 31
  | .fin _ m e => if m = 0 then 0x04 else 0x10 + 4 * (min (max ((ilog2 m : Int) + e - base) 0) 31).toNat

/-- VHIST: every selected lane adds one to a count of the record, as one update (R270, R271). -/
def execVhist (a r : Nat) (s : State) : Host.Outcome State Fault Refusal :=
  answer s (do
    s.vectorChecks true false [a]
    let p ← s.histPlace (s.getS r)
    let base := sextInt (s.readAt p 4) 32
    let slots := (lanesOf s.team.size s.selected).map (fun l => histSlot base (s.getV a l).toNat)
    return (slots.foldl (fun t o => t.writeAt (p.plus o) 4 (min (t.readAt (p.plus o) 4 + 1) 0xFFFFFFFF)) s).retireSr)

/-- SPCTL: the tensor scale bias that puts a percentile of the record at the largest scale; the
word's own SPOL is ignored (R272). A format whose largest finite magnitude is 0 has no emax: its scale is open (log 22). -/
def execSpctl (d a b : Nat) (s : State) : Host.Outcome State Fault Refusal :=
  answer s (do
    s.hazardCheck
    let p ← s.histPlace (s.getS a)
    let w := (s.getS b).toNat
    need (fmtValid (setField (w % 2 ^ 32) 28 3 0) false false) (s.flt .slotState)
    let f := blockFmt w
    let zeros := s.readAt (p.plus 4) 4
    let bins := (List.range 32).map (fun i => s.readAt (p.plus (0x10 + 4 * i)) 4)
    let n := zeros + bins.sum
    let t := ceilDiv (min (field w 32 17) 65536 * n) 65536
    let i := ((List.range 32).find? (fun i => t ≤ zeros + (bins.take (i + 1)).sum)).getD 31
    let tsb : Int :=
      if t ≤ zeros then f.tsb
      else if f.maxQuanta = 0 then sextInt (Config.openScale f.bias) 8
      else min (max (sextInt (s.readAt p 4) 32 + i - 15 - f.emax) (-128)) 127
    let x := setField (setField (w % 2 ^ 32) 16 8 (wrapNat tsb 8)) 28 3 2
    return (s.setS d (BitVec.ofNat 64 x)).retire)

/-! ### Side-bands (R274) -/

/-- VSIDE.rd: side-band byte j into lane 16g + j, the rest of the group zero. -/
def execVsideRd (d a : Nat) (s : State) : Host.Outcome State Fault Refusal :=
  answer s (do
    s.vectorChecks true false [a, d]
    return s.blockwise d (fun g =>
      let x := s.group a g
      groupOf ((List.range 16).map (fun j => if j < 8 then field x.side (8 * j) 8 else 0)) 0 0))

/-- VSIDE.wr: lanes' low bytes into the group's side-band; the data stays. -/
def execVsideWr (d a : Nat) (s : State) : Host.Outcome State Fault Refusal :=
  answer s (do
    s.vectorChecks true false [a, d]
    return s.blockwise d (fun g =>
      let x := s.group a g
      { s.group d g with side := (List.range 8).foldl (fun b j => b + x.lane j % 256 * 2 ^ (8 * j)) 0 }))

end Sys2Proof.Machine
end

