-- ==== Sys2Proof/Machine/Desc.lean ====
section
/-!
DEFINITION. Buffer descriptors (R130..R135): reading and checking one, the rows it names, the values of a row and the
bytes that values become, and the CRC-32C of R331.
-/
namespace Sys2Proof.Machine

/-! ### The descriptor (R130..R134) -/

/-- A descriptor from its 64 bytes. -/
def descOf (bs : List Byte) : Desc :=
  let f (o n : Nat) := leNat ((bs.drop o).take n)
  { base := BitVec.ofNat 64 (f 0 8), dim0 := f 0x08 4, dim1 := f 0x0C 4, dim2 := f 0x10 4, dim3 := f 0x14 4
    stride1 := f 0x18 6, stride2 := f 0x1E 6, stride3 := f 0x24 6, owner := f 0x2A 6, fmt := f 0x30 4, elem := f 0x34 1
    flags := f 0x35 1, policy := f 0x36 1, reserved := f 0x37 1, gen := f 0x38 4, stream := f 0x3C 4 }

/-- FLAGS.DB. -/
def Desc.db (d : Desc) : Bool := d.flags.testBit 0
/-- FLAGS.COL. -/
def Desc.col (d : Desc) : Bool := d.flags.testBit 1
/-- FLAGS.CRC. -/
def Desc.crc (d : Desc) : Bool := d.flags.testBit 2
/-- FLAGS.ISGN. -/
def Desc.isgn (d : Desc) : Bool := d.flags.testBit 4
/-- FLAGS.CMP. -/
def Desc.cmp (d : Desc) : Bool := d.flags.testBit 3
/-- FLAGS.XP. -/
def Desc.xp (d : Desc) : Nat := field d.flags 5 2
/-- POLICY.RM. -/
def Desc.rm (d : Desc) : Nat := field d.policy 2 3
/-- POLICY.OOR. -/
def Desc.oor (d : Desc) : Nat := field d.policy 0 2
/-- The format of ELEM 0. -/
def Desc.bf (d : Desc) : BlockFmt := blockFmt d.fmt
/-- ELEM 0 in the OCP layout. -/
def Desc.ocp (d : Desc) : Bool := d.elem = 0 && d.bf.blk = 1
/-- ELEM 0 in native sectors. -/
def Desc.native (d : Desc) : Bool := d.elem = 0 && d.bf.blk ≠ 1
/-- Elements per sector of a native format. -/
def Desc.eps (d : Desc) : Nat := 16 * d.bf.perSector
/-- Bytes of an element, ELEM 1..5. -/
def Desc.esize (d : Desc) : Nat := match d.elem with | 1 => 4 | 2 => 2 | 3 => 2 | 4 => 4 | _ => 1
/-- Element bytes of an OCP row. -/
def Desc.ocpBytes (d : Desc) : Nat := ceilDiv (d.bf.width * d.dim0) 8
/-- Bytes of a dimension-0 row (R133). -/
def Desc.rowBytes (d : Desc) : Nat :=
  if d.native then 64 * (d.dim0 / d.eps) else if d.ocp then d.ocpBytes + d.dim0 / 32 else d.dim0 * d.esize
/-- The access width (R134). -/
def Desc.accWidth (d : Desc) : Nat := if d.native then 64 else if d.ocp then 1 else d.esize
/-- The space code of BASE. -/
def Desc.space (d : Desc) : Nat := d.base.toNat / 2 ^ 56

/-- The checks of R134; `dst`: as a destination. The OCP layout carries E8M0 scales (R42).
Every buffer descriptor counts as one that may hold BLK 1, whichever command names it (log 111). -/
def Desc.ok (d : Desc) (dst : Bool) : Bool :=
  d.reserved = 0 && !d.flags.testBit 7 && d.policy < 32 && d.rm < 6 && d.oor < 3 && d.elem < 6
  && d.dim0 ≠ 0 && d.dim1 ≠ 0 && d.dim2 ≠ 0 && d.dim3 ≠ 0
  && (d.space = 0 || d.space = 0xF1 || d.space = 0xF2)
  && (d.elem ≠ 0 || fmtValid d.fmt true false)
  && (!d.ocp || d.dim0 % 32 = 0) && (!d.native || d.dim0 % d.eps = 0)
  && d.base.toNat % d.accWidth = 0
  && (d.dim1 = 1 || d.stride1 % d.accWidth = 0) && (d.dim2 = 1 || d.stride2 % d.accWidth = 0)
  && (d.dim3 = 1 || d.stride3 % d.accWidth = 0)
  && (!(d.db || d.col || d.owner ≠ 0) || d.space = 0)
  && !(dst && (d.stride1 < d.rowBytes || d.stride2 < d.dim1 * d.stride1 || d.stride3 < d.dim2 * d.stride2))

/-- Coordinates of a row: dimensions 1 to 3. -/
abbrev RowIx := Nat × Nat × Nat

/-- The rows in linear order, dimension 1 fastest (R47, R332). -/
def Desc.rows (d : Desc) : List RowIx :=
  (List.range (d.dim1 * d.dim2 * d.dim3)).map (fun n => (n % d.dim1, n / d.dim1 % d.dim2, n / d.dim1 / d.dim2))

/-- Address of a row (R133). -/
def Desc.rowAddr (d : Desc) (i : RowIx) : Nat :=
  (d.base.toNat + i.1 * d.stride1 + i.2.1 * d.stride2 + i.2.2 * d.stride3) % 2 ^ 64

/-- Linear index of a row's first element (R47). -/
def Desc.rowIndex (d : Desc) (i : RowIx) : Nat := d.dim0 * (i.1 + d.dim1 * (i.2.1 + d.dim2 * i.2.2))

/-- Bytes that a walk of the descriptor covers. -/
def Desc.bytes (d : Desc) : Nat := d.rowBytes * (d.dim1 * d.dim2 * d.dim3)

/-! ### Rows as bytes and as values -/

/-- The parts of a row: its sectors, or all its bytes. -/
def Desc.parts (d : Desc) : List (Nat × Nat) :=
  if d.native then (List.range (d.dim0 / d.eps)).map (fun k => (64 * k, 64)) else [(0, d.rowBytes)]

/-- The elements lo..hi-1 that bytes `off .. off+n-1` of a row hold, whole blocks of ELEM 0; in the OCP layout the scales of
blocks stand behind the codes. -/
def Desc.elemsAt (d : Desc) (off n : Nat) : List (Nat × Nat) :=
  if d.native then [(off / 64 * d.eps, ceilDiv (off + n) 64 * d.eps)]
  else if d.ocp then
    let b := d.ocpBytes
    (if off < b then [(8 * off / d.bf.width / 32 * 32, min d.dim0 (ceilDiv (ceilDiv (8 * min (off + n) b) d.bf.width) 32 * 32))] else [])
    ++ (if b < off + n then [(32 * (max off b - b), 32 * (off + n - b))] else [])
  else [(off / d.esize, ceilDiv (off + n) d.esize)]

/-- The bytes of a row that hold elements lo..hi-1, with the scales of their blocks. -/
def Desc.elemSpans (d : Desc) (lo hi : Nat) : List (Nat × Nat) :=
  if d.native then [(lo / d.eps * 64, (ceilDiv hi d.eps - lo / d.eps) * 64)]
  else if d.ocp then
    let a := lo * d.bf.width / 8
    [(a, ceilDiv (hi * d.bf.width) 8 - a), (d.ocpBytes + lo / 32, ceilDiv hi 32 - lo / 32)]
  else [(lo * d.esize, (hi - lo) * d.esize)]

/-- The bytes that a checksum covers (R331). -/
def rowCrcBytes (ps : List RowPart) : List Byte :=
  ps.flatMap (fun p => p.bytes ++ match p.side with | some x => natLe x 8 | none => [])

/-- Codes of an OCP row, and its scale bytes. -/
def Desc.ocpCodes (d : Desc) (bs : List Byte) : List Nat × List Nat :=
  let x := leNat bs
  ((List.range d.dim0).map (fun i => field x (d.bf.width * i) d.bf.width),
   (List.range (d.dim0 / 32)).map (fun j => field x (8 * d.ocpBytes + 8 * j) 8))

/-- The exact value of an element of kind 1..5. -/
def elemValue (elem x : Nat) : FloatVal :=
  match elem with
  | 1 => binary32.decode x
  | 2 => binary16.decode x
  | 3 => bfloat16.decode x
  | 4 => .fin (sextInt x 32 < 0) (sextInt x 32).natAbs 0
  | _ => .fin false x 0

/-- The exact values of a row (R36, R330). -/
def Desc.values (d : Desc) (ps : List RowPart) : List FloatVal :=
  if d.native then
    ps.flatMap (fun p =>
      let data := leNat p.bytes
      (List.range d.bf.perSector).flatMap (fun b =>
        d.bf.values (field (p.side.getD 0) (8 * b) 8) (d.bf.blockCodes data b)))
  else
    let bs := ps.flatMap RowPart.bytes
    if d.ocp then
      let x := d.ocpCodes bs
      x.1.mapIdx (fun i c => d.bf.ocpValue (x.2.getD (i / 32) 0) c)
    else (List.range d.dim0).map (fun i => elemValue d.elem (leNat ((bs.drop (d.esize * i)).take d.esize)))

/-- A native row from its quantised blocks of 16. -/
def Desc.packNative (d : Desc) (bs : List QuantBlock) : List RowPart :=
  (List.range (d.dim0 / d.eps)).map (fun k =>
    let g := ((List.range d.bf.perSector).map (fun b => (b, bs.getD (k * d.bf.perSector + b) ⟨0, [], 0⟩))).foldl
      (fun g x => d.bf.putBlock g x.1 x.2.scale x.2.codes) ⟨0, 0, 0⟩
    { off := 64 * k, bytes := natLe g.data 64, side := some g.side })

/-- An OCP row from its quantised blocks of 32. -/
def Desc.packOcp (d : Desc) (bs : List QuantBlock) : List RowPart :=
  let codes := bs.flatMap QuantBlock.codes
  let x := (codes.mapIdx (fun i c => (i, c))).foldl (fun n c => n + c.2 % 2 ^ d.bf.width * 2 ^ (d.bf.width * c.1)) 0
  [{ off := 0, bytes := natLe x d.ocpBytes ++ bs.map (fun b => BitVec.ofNat 8 b.scale), side := none }]

/-- Runs of `n` values. -/
def runsOf {α : Type} (n : Nat) (xs : List α) : List (List α) :=
  (List.range (xs.length / n)).map (fun i => (xs.drop (n * i)).take n)

/-- An element of kind 1..5 from a value (R50, R52), with its flags. -/
def encodeElem (elem mode r : Nat) (v : FloatVal) : Nat × Byte :=
  match elem with
  | 1 => binary32.ofVal mode r v
  | 2 => binary16.ofVal mode r v
  | 3 => bfloat16.ofVal mode r v
  | 4 => let x := v.toInt mode r (-(2 ^ 31)) (2 ^ 31 - 1); (wrapNat x.1 32, x.2)
  | _ => let x := v.toInt mode r 0 255; (wrapNat x.1 8, x.2)

/-- A row from exact values, each rounded once with its key (R47, R330), and its flags. -/
def Desc.encode (d : Desc) (seed : Nat) (i : RowIx) (vs : List FloatVal) : List RowPart × Byte :=
  let key (k : Nat) : Nat := if d.rm = 5 then srBits seed d.stream (d.rowIndex i + k) else 0
  if d.elem = 0 then
    let n := if d.ocp then 32 else 16
    let bs := (runsOf n vs).mapIdx (fun j xs =>
      if d.ocp then d.bf.toOcp d.rm (fun e => key (n * j + e)) xs else d.bf.quantise d.rm (fun e => key (n * j + e)) none xs)
    (if d.ocp then d.packOcp bs else d.packNative bs, flagsOr (bs.map QuantBlock.flags))
  else
    let es := vs.mapIdx (fun k v => encodeElem d.elem d.rm (key k) v)
    ([{ off := 0, bytes := es.flatMap (fun e => natLe e.1 d.esize), side := none }], flagsOr (es.map Prod.snd))

/-- A native row from an OCP row of the same element format (R42). -/
def Desc.encodeFromOcp (d src : Desc) (seed : Nat) (i : RowIx) (ps : List RowPart) : List RowPart × Byte :=
  let x := src.ocpCodes (ps.flatMap RowPart.bytes)
  let key (k : Nat) : Nat := if d.rm = 5 then srBits seed d.stream (d.rowIndex i + k) else 0
  let bs := (runsOf 16 x.1).mapIdx (fun j cs => d.bf.fromOcp d.rm (fun e => key (16 * j + e)) (x.2.getD (j / 2) 0) cs)
  (d.packNative bs, flagsOr (bs.map QuantBlock.flags))

/-- The element formats of two format words agree: S, E, M, BIAS and POL. -/
def BlockFmt.sameElem (f g : BlockFmt) : Bool :=
  f.s == g.s && f.e == g.e && f.m == g.m && f.bias == g.bias && f.pol == g.pol

/-! ### CRC-32C (R331) -/

/-- One byte into a reflected CRC of polynomial 0x1EDC6F41. -/
def crcStep (c : Nat) (b : Byte) : Nat :=
  (List.range 8).foldl (fun c _ => if c % 2 = 1 then c / 2 ^^^ 0x82F63B78 else c / 2) (c ^^^ b.toNat)

/-- Bytes into a running CRC, which starts at 0xFFFFFFFF. -/
def crcBytes (c : Nat) (bs : List Byte) : Nat := bs.foldl crcStep c

/-- The final XOR. -/
def crcFinal (c : Nat) : Nat := c ^^^ 0xFFFFFFFF

end Sys2Proof.Machine
end

