-- ==== Sys2Proof/Machine/Window.lean ====
section
/-!
DEFINITION. The sliding window (R92..R110): the shared operations behind CALL, CALLI, CALLS, ENTER, RET and the returns
of an emptied lane set, the spill engine's transfers, and the reconvergence stack (R73..R75).
-/
namespace Sys2Proof.Machine

/-- Why an operation on the window does not take effect now. -/
inductive Halt where
  | fault (f : FaultInfo)
  /-- Transfers of the spill engine must come first (R103 Needed). -/
  | spill
  deriving DecidableEq, Repr

/-- A check of a window operation. -/
def needW (ok : Bool) (f : FaultInfo) : Except Halt Unit := if ok then .ok () else .error (.fault f)

/-! ### Transfers (R99, R100, R101) -/

/-- Offset of granule `g` in the spill area of a team of `l` lanes (R100). -/
def granuleOff (l g : Nat) : Nat := 65536 + 36 * l * g

/-- The bytes of granule `g` as they stand in the ring: data, then side-bands (R100). -/
def State.granuleBytes (s : State) (g : Nat) : List Byte :=
  let pos (j : Nat) := 8 + (8 * g + j) % s.blk.k.ring
  let data := (List.range 8).flatMap (fun j => (List.range s.team.size).flatMap (fun l =>
    natLe (smGet 0 s.team.regs.v (pos j * 1024 + l)).toNat 4))
  let side := (List.range 8).flatMap (fun j => (List.range (s.team.size / 16)).flatMap (fun k =>
    natLe (smGet 0 s.team.regs.side (pos j * 64 + k)).toNat 8))
  data ++ side

/-- Put the bytes of granule `g` into the ring. -/
def State.setGranule (s : State) (g : Nat) (bs : List Byte) : State :=
  let l := s.team.size
  let pos (j : Nat) := 8 + (8 * g + j) % s.blk.k.ring
  let v := (List.range 8).flatMap (fun j => (List.range l).map (fun i =>
    (pos j * 1024 + i, BitVec.ofNat 32 (leNat ((bs.drop (4 * l * j + 4 * i)).take 4)))))
  let side := (List.range 8).flatMap (fun j => (List.range (l / 16)).map (fun k =>
    (pos j * 64 + k, BitVec.ofNat 64 (leNat ((bs.drop (32 * l + l / 2 * j + 8 * k)).take 8)))))
  s.withRegs { s.team.regs with v := smSetAll 0 s.team.regs.v v, side := smSetAll 0 s.team.regs.side side }

/-- The fault of a spill transfer carries the faulting spill-area address (R104). -/
def State.spillFault (s : State) (c : Cause) (va : Nat) : Halt :=
  .fault { s.fltAt c 0 (BitVec.ofNat 64 va) with spill := true }

/-- Virtual address of an offset of the team's spill area: in what the launch gave, or in what FDACT action 2 added last at or below
the offset (R100, R375, log 88). -/
def Team.spillVa (t : Team) (off : Nat) : Nat :=
  match t.spillExt.find? (fun e => e.1 ≤ off) with | some e => e.2 + (off - e.1) | none => t.spillBase + off

/-- The pieces of `n` bytes at an offset that cross no 64 KiB, the unit in which a spill area grows (R375): offsets and lengths. -/
def spillPieces (off n : Nat) : List (Nat × Nat) :=
  (List.range ((off % 65536 + n + 65535) / 65536)).map (fun i =>
    let lo := max off ((off / 65536 + i) * 65536)
    (lo, min (off + n) ((off / 65536 + i + 1) * 65536) - lo))

/-- Translate `n` bytes at an offset of the team's spill area (R101 step 2, R105). -/
def State.spillSpan (s : State) (off n : Nat) : Except Halt (List (Nat × Nat)) := do
  return (← (spillPieces off n).mapM (fun p =>
    match s.span s.teamView .spillXfer (s.team.spillVa p.1) p.2 with
    | .ok ps => .ok ps
    | .error e => .error (s.spillFault e.1 e.2))).flatten

/-- The sectors of `n` bytes of the spill area are reached through TLBs, L1 and L2 as global data is (R22, R402). -/
def State.noteSpill (s : State) (as : AccKind) (off n : Nat) : State :=
  (spillPieces off n).foldl (fun t p => t.noteRange t.teamView .spillXfer as (t.team.spillVa p.1) p.2) s

/-- Read `n` bytes of the spill area. -/
def State.spillRead (s : State) (ps : List (Nat × Nat)) (off n : Nat) : List Byte :=
  (spillPieces off n).flatMap (fun p => s.readSpan ps (s.team.spillVa p.1) p.2)

/-- Write bytes of the spill area. -/
def State.spillWrite (s : State) (ps : List (Nat × Nat)) (off : Nat) (bs : List Byte) : State :=
  ((spillPieces off bs.length).foldl (fun t p =>
    t.writeSpan ps (t.team.spillVa p.1) ((bs.drop (p.1 - off)).take p.2)) s).noteSpill .store off bs.length

/-- A refill that meets an uncorrectable error raises MEMORY_POISON with the address of the poisoned sector, or of the first
byte it reads in that sector (R104, log 89). -/
def State.spillPoison (s : State) (ps : List (Nat × Nat)) (off n : Nat) : Except Halt Unit :=
  match (spillPieces off n).findSome? (fun p => s.spanBad ps (s.team.spillVa p.1) p.2) with
  | some va => .error (s.spillFault .memoryPoison va)
  | none => .ok ()

/-- Refill granule `g` into the ring. -/
def State.refillGranule (s : State) (ps : List (Nat × Nat)) (g : Nat) : State :=
  let off := granuleOff s.team.size g
  let n := 36 * s.team.size
  (s.noteSpill .load off n).setGranule g (s.spillRead ps off n)

/-- Spill granule `g` from the ring. -/
def State.spillGranule (s : State) (ps : List (Nat × Nat)) (g : Nat) : State :=
  s.spillWrite ps (granuleOff s.team.size g) (s.granuleBytes g)

/-- The early transfers that still hold: spilled granules while they are resident below B, refilled ones while they are below
LO and no live register has their ring positions (R102). -/
def Window.trim (w : Window) (ring : Nat) : Window :=
  { w with earlyOut := w.earlyOut.filter (fun g => w.lo ≤ 8 * g && 8 * g + 8 ≤ w.b)
           earlyIn := w.earlyIn.filter (fun g => 8 * g + 8 ≤ w.lo && w.b + w.fs ≤ 8 * g + ring) }

/-- Change B, FS or LO: early transfers that no longer hold are forgotten. -/
def State.slide (s : State) (w : Window) : State := s.withWin (w.trim s.blk.k.ring)

/-- `make_resident` (R101): granules spilled in ascending order or refilled in descending order, but for those that the spill
engine has moved early (R102); every page is translated before anything is written. Without `allow` the operation waits for
the spill engine instead. Granules moved are counted (sources 9 and 10 of R445). -/
def State.makeResident (s : State) (allow : Bool) (loNeed hiNeed : Nat) : Except Halt State :=
  let win := s.team.win
  let lo := win.lo
  let w := s.blk.k.ring
  let l := s.team.size
  let spills := if lo + w < hiNeed then ceilDiv (hiNeed - lo - w) 8 else 0
  let refills := if loNeed < lo then (lo - loNeed) / 8 else 0
  let out := ((List.range spills).map (fun i => lo / 8 + i)).filter (fun g => !win.earlyOut.contains g)
  let in_ := if spills ≠ 0 then []
    else ((List.range refills).map (fun i => lo / 8 - 1 - i)).filter (fun g => !win.earlyIn.contains g)
  if !allow && (!out.isEmpty || !in_.isEmpty) then .error .spill
  else do
    let span (g : Nat) : Except Halt (Nat × List (Nat × Nat)) := do
      return (g, ← s.spillSpan (granuleOff l g) (36 * l))
    let os ← out.mapM span
    let is ← in_.mapM span
    for p in is do
      s.spillPoison p.2 (granuleOff l p.1) (36 * l)
    let t := os.foldl (fun s p => s.spillGranule p.2 p.1) s
    let t := is.foldl (fun s p => s.refillGranule p.2 p.1) t
    let now := if spills ≠ 0 then lo + 8 * spills else lo - 8 * refills
    let t := if now = lo then t else t.withWin { t.team.win with lo := now, spill := .idle }
    return (t.countCore 9 out.length).countCore 10 in_.length

/-- The 16 bytes of a link record (R98). -/
def LinkRec.bytes (r : LinkRec) : List Byte :=
  natLe r.retOff.toNat 4 ++ natLe r.k 1 ++ natLe r.cfs 1 ++ natLe r.cov 1 ++ natLe r.jd 1
    ++ natLe (if r.calli then 1 else 0) 1 ++ natLe 0 3 ++ natLe r.tv.toNat 4

/-- A link record from its bytes. -/
def linkOf (bs : List Byte) : LinkRec :=
  let f (o n : Nat) := leNat ((bs.drop o).take n)
  { retOff := BitVec.ofNat 32 (f 0 4), k := f 4 1, cfs := f 5 1, cov := f 6 1, jd := f 7 1
    calli := (f 8 1).testBit 0, tv := BitVec.ofNat 32 (f 12 4) }

/-- Push a link record; with 16 on chip the oldest is spilled first (R99). -/
def State.pushLink (s : State) (allow : Bool) (r : LinkRec) : Except Halt State :=
  let w := s.team.win
  if w.links.length < 16 then .ok (s.withWin { w with links := r :: w.links })
  else if !allow then .error .spill
  else
    match w.links.getLast? with
    | none => .ok (s.withWin { w with links := [r] })
    | some old => do
      let off := 16 * (w.depth + 1 - w.links.length)
      let ps ← s.spillSpan off 16
      let s := s.spillWrite ps off old.bytes
      return s.withWin { w with links := r :: w.links.dropLast, spill := .idle }

/-- The newest link record, refilled from the spill area if it is not on chip (R96, R99). -/
def State.topLink (s : State) (allow : Bool) : Except Halt (LinkRec × State) :=
  match s.team.win.links with
  | r :: _ => .ok (r, s)
  | [] =>
    if !allow then .error .spill
    else do
      let off := 16 * s.team.win.depth
      let ps ← s.spillSpan off 16
      s.spillPoison ps off 16
      let r := linkOf (s.spillRead ps off 16)
      return (r, (s.noteSpill .load off 16).withWin { s.team.win with links := [r], spill := .idle })

/-! ### Plane copies (R67, R207) -/

/-- The offset lies in copy 1..n-1 of a planed region. -/
def inUpperCopy (ps : List PlaneEntry) (off : Nat) : Bool :=
  ps.any (fun e => (List.range e.n).any (fun k =>
    k != 0 && e.base + k * e.stride ≤ off && off < e.base + k * e.stride + e.len))

/-- A taken transfer's target check (R207). -/
def State.targetOk (s : State) (target : Word32) : Bool := !inUpperCopy s.blk.k.planes target.toNat

/-! ### Call, enter, return (R94, R95, R96) -/

/-- The checks of `call_common` in their order (R94). -/
def State.callChecks (s : State) (target : Word32) (sl : Nat) : Except Halt Unit := do
  let w := s.team.win
  needW (sl ≠ 15) (s.flt .illegalInstruction)
  needW (8 * sl ≤ w.fs) (s.flt .windowRange)
  needW (w.depth ≠ s.blk.k.maxDepth) (s.flt .windowDepth)
  needW (target.toNat % 4 = 0) (s.fltAt .align 0 (BitVec.ofNat 64 target.toNat))
  needW (s.targetOk target) (s.flt .planeRange)
  needW (!(16 ≤ w.depth && s.team.spillSz = 0)) (s.flt .windowSpillOverflow)

/-- The effect of `call_common` (R94), its checks made; the PC goes to the target. -/
def State.callEffect (s : State) (allow : Bool) (target : Word32) (sl : Nat) (retoff : Word32) (calli : Bool)
    (tv : Word32) : Except Halt State := do
  let w := s.team.win
  let k := 8 * sl
  let s ← s.pushLink allow
    { retOff := retoff, k := k, cfs := w.fs, cov := w.ov, jd := s.team.lanes.stack.length, calli := calli, tv := tv }
  let s := s.slide { s.team.win with depth := w.depth + 1, b := w.b + k, ov := w.fs - k, fs := w.fs - k }
  return { s with team := { s.team with pc := target } }

/-- Zero absolute registers `lo..hi-1` and their side-bands in every lane (R95). -/
def State.zeroAbs (s : State) (lo hi : Nat) : State :=
  let pos := (List.range (hi - lo)).map (fun i => 8 + (lo + i) % s.blk.k.ring)
  s.withRegs { s.team.regs with
    v := s.team.regs.v.filter (fun x => !pos.contains (x.1 / 1024))
    side := s.team.regs.side.filter (fun x => !pos.contains (x.1 / 64)) }

/-- `enter` (R95), for an encoding whose n is a multiple of 8 up to 120. -/
def State.enterFrame (s : State) (allow : Bool) (n : Nat) : Except Halt State := do
  let w := s.team.win
  needW (n ≤ s.blk.k.ring && w.ov ≤ n) (s.flt .windowRange)
  needW (w.b + n ≤ s.blk.k.ring || 65536 + (w.b + n - s.blk.k.ring) / 8 * 36 * s.team.size ≤ s.team.spillSz)
    (s.flt .windowSpillOverflow)
  let s ← s.makeResident allow w.b (w.b + n)
  let s := s.zeroAbs (w.b + w.fs) (w.b + n)
  return s.slide { s.team.win with fs := n }

/-- `ret` (R96); the PC goes to the record's return offset, and a save or restore routine that ends is noticed (R415). -/
def State.retFrame (s : State) (allow : Bool) : Except Halt State := do
  needW (s.team.win.depth ≠ 0) (s.flt .windowDepth)
  let (lk, s) ← s.topLink allow
  needW (s.team.lanes.stack.length = lk.jd) (s.flt .joinStack)
  needW (s.targetOk lk.retOff) (s.flt .planeRange)
  let b := s.team.win.b - lk.k
  let s ← s.makeResident allow b (b + lk.cfs)
  let w := s.team.win
  let s := s.slide { w with b := b, fs := lk.cfs, ov := lk.cov, depth := w.depth - 1, links := w.links.tail
                            cont := w.cont || lk.calli, contLast := if lk.calli then lk.tv else w.contLast }
  return { s with team := { s.team with pc := lk.retOff }.endRoutine }

/-! ### The reconvergence stack (R73..R75) -/

/-- The top entry whose mask is not empty, and the stack below it. -/
def popLive : List StackEntry → Option (StackEntry × List StackEntry)
  | [] => none
  | e :: es => if e.mask = 0 then popLive es else some (e, es)

/-- Where an entry reached by a pop resumes: a P entry at its offset, a J entry after its join (R74, R75). -/
def StackEntry.resume (e : StackEntry) : Word32 := if e.isJoin then e.off + 4 else e.off

/-- Lanes become vacant: out of the active mask and of every entry (R75). -/
def Lanes.vacate (x : Lanes) (m : Mask) : Lanes :=
  { x with active := x.active &&& ~~~m, vacant := x.vacant ||| m
           stack := x.stack.map (fun e => { e with mask := e.mask &&& ~~~m }) }

/-- What an emptied active set does (R75 at depth 0, R110 above): the team in focus goes on at the PC it is left with,
or ends. A frame that a CALLI made returns to that CALLI (R109). A target in an upper plane copy is refused like that of any
transfer (R207). At most `fuel` frames are left. -/
def State.emptied (s : State) (allow : Bool) : Nat → Except Halt State
  | 0 => .ok { s with team := s.team.finish }
  | n + 1 =>
    let x := s.team.lanes
    if x.active ≠ 0 then .ok s
    else if s.team.win.depth = 0 then
      match popLive x.stack with
      | some (e, es) =>
        if s.targetOk e.resume then
          .ok { s with team := { s.team with lanes := { x with active := e.mask, stack := es }, pc := e.resume } }
        else .error (.fault (s.flt .planeRange))
      | none => .ok { s with team := s.team.finish }
    else
      match s.topLink allow with
      | .error h => .error h
      | .ok (lk, s) =>
        match popLive (x.stack.take (x.stack.length - lk.jd)) with
        | some (e, es) =>
          if s.targetOk e.resume then
            .ok { s with team := { s.team with
                    lanes := { x with active := e.mask, stack := es ++ x.stack.drop (x.stack.length - lk.jd) }
                    pc := e.resume } }
          else .error (.fault (s.flt .planeRange))
        | none =>
          let s1 := s.withLanes { x with stack := x.stack.drop (x.stack.length - lk.jd) }
          match s1.retFrame allow with
          | .error h => .error h
          | .ok t =>
            if lk.calli then
              .ok (t.withLanes { t.team.lanes with active := ((t.team.lanes.stack.head?).map StackEntry.mask).getD 0 })
            else t.emptied allow n

/-- Frames that `emptied` may leave. -/
def State.frames (s : State) : Nat := s.team.win.depth + 1

/-- How a window operation answers: its next state, its fault, or a team Stalled on the spill engine (R103). -/
def answerW (s : State) (word : Nat) (r : Except Halt State) : Except FaultInfo State :=
  match r with
  | .ok t => .ok t
  | .error (.fault f) => .error f
  | .error .spill => .ok ((s.withWin { s.team.win with spill := .needed word }).stall .spill)

/-! ### What an issue counts (R445) -/

/-- The fault that a step has raised in the team in focus: its code, lane and address. -/
def newFault (s t : State) : Option (Nat × Nat × Word64) :=
  if t.team.uid ≠ s.team.uid then none
  else if t.team.trap.inTrap && !s.team.trap.inTrap then some (t.team.trap.cause, t.team.trap.lane, t.team.trap.addr)
  else if t.team.fault = s.team.fault then none
  else t.team.fault.map (fun f => (f.cause.code, f.lane, f.addr))

/-- The look-up that a fault of an access has made counts, and its walk reached the L2, though the word has no effect (R445, log
66). -/
def State.noteFault (s t : State) : State :=
  match newFault s t with
  | some (code, lane, addr) =>
    if lookupCode code then
      (match s.checkAddr addr 1 1 lane with | .ok (.va a) => t.fillTlb s.teamView a | _ => t)
    else t
  | none => t

/-- An issue that has been made counts at its core (R445): slot A or B, and plane issues beyond the first. -/
def countIssue (s : State) (op : Nat) (t : State) : State :=
  if t.issued = s.issued then s.noteFault t
  else
    let u := t.countEvent s.team.core (if vectorClass op then 1 else 2) s.ownRid 1
    if s.team.nextPlane = 0 then u else u.countEvent s.team.core 3 s.ownRid 1

end Sys2Proof.Machine
end

