-- ==== Sys2Proof/Machine/Control.lean ====
section
/-!
DEFINITION. Control flow, divergence, ejection, calls and frames, planes, mode, traps, special registers and the scalar
stack (R74..R80, R94..R110, R113, R206..R237). A word of OP 0x00..0x1E ends every lookahead window (R206).
-/
namespace Sys2Proof.Machine

/-! ### MISC words (R209..R215) -/

/-- ILL raises ILLEGAL_INSTRUCTION. -/
def execIll (s : State) : Host.Outcome State Fault Refusal := answer s (.error (s.flt .illegalInstruction))

/-- NOP only advances the PC. -/
def execNop (s : State) : Host.Outcome State Fault Refusal := answer s (.ok s.retireCtl)

/-- A window operation's next state goes on where its PC stands. -/
def State.goOn (s : State) : State := s.goTo s.team.pc

/-- EXIT's effect: the active lanes end, then R75 or R110; a fault restarts the EXIT. -/
def State.opExit (s : State) (allow : Bool) : Except Halt State :=
  match (s.withLanes (s.team.lanes.vacate s.team.lanes.active)).emptied allow s.frames with
  | .ok t => .ok t.goOn
  | .error (.fault f) => .error (.fault { f with restart := s.team.pc })
  | .error .spill => .error .spill

/-- EXIT ends every active lane (R210). -/
def execExit (s : State) : Host.Outcome State Fault Refusal := answer s (answerW s s.iss.word (s.opExit false))

/-- TEXIT ends the team (R211). -/
def execTexit (s : State) : Host.Outcome State Fault Refusal :=
  answer s (.ok { s.issueDone with team := s.issueDone.team.finish })

/-- JOIN's effect (R74): the offset check, then the top entry, or the first below it whose mask is not empty. -/
def State.joinEffect (s : State) : Except FaultInfo State := do
  let x := s.team.lanes
  let j := x.stack.find? (fun e => e.isJoin)
  need (j.any (fun e => e.off = s.team.pc)) (s.flt .joinStack)
  match popLive x.stack with
  | some (e, es) => do
    need (s.targetOk e.resume) (s.flt .planeRange)
    return (s.withLanes { x with active := e.mask, stack := es }).goTo e.resume
  | none => return { s.issueDone with team := s.issueDone.team.finish }

/-- JOIN pops the reconvergence stack (R74, R213). -/
def execJoin (s : State) : Host.Outcome State Fault Refusal := answer s s.joinEffect

/-- RET's effect (R96). -/
def State.opRet (s : State) (allow : Bool) : Except Halt State := do return (← s.retFrame allow).goOn

/-- RET returns from the current frame (R215). -/
def execRet (s : State) : Host.Outcome State Fault Refusal := answer s (answerW s s.iss.word (s.opRet false))

/-- The return from a trap handler (R233), to an offset that R207 allows, a misaligned one too (log 101); an emptied active set
goes on by R75 and R110. -/
def State.opTrapReturn (s : State) (user allow : Bool) : Except Halt State :=
  match s.uretChecks user with
  | .error f => .error (.fault f)
  | .ok () =>
    let t := s.issueDone
    let t : State := { t with team := t.team.leaveTrap }
    if t.team.lanes.active ≠ 0 then (if s.targetOk t.team.pc then .ok t else .error (.fault (s.flt .planeRange)))
    else match t.emptied allow t.frames with
      | .ok u => .ok { u with team := { u.team with nextPlane := 0, looks := [] } }
      | .error (.fault f) => .error (.fault { f with restart := s.team.pc })
      | .error .spill => .error .spill

/-- URET (R233). -/
def execUret (s : State) : Host.Outcome State Fault Refusal := answer s (answerW s s.iss.word (s.opTrapReturn true false))

/-- A privileged word in a team at user level (R208, R367). -/
def State.privileged (s : State) : Except FaultInfo Unit := need s.team.system (s.flt .privilege)

/-- TRET is privileged (R208, R233). -/
def execTret (s : State) : Host.Outcome State Fault Refusal :=
  answer s (do s.privileged; answerW s s.iss.word (s.opTrapReturn false false))

/-- HALTC ends the team and halts its core (R240). -/
def execHaltc (s : State) : Host.Outcome State Fault Refusal :=
  answer s (do
    s.privileged
    let t := s.issueDone
    return { t with team := t.team.finish, halted := setAdd t.halted t.team.core })

/-! ### Branches and splits (R74, R216) -/

/-- The target of a relative transfer: the offset of the word plus four times a signed field (R171). -/
def State.relTarget (s : State) (o bits : Nat) : Word32 := s.team.pc + BitVec.ofInt 32 (4 * sextInt o bits)

/-- A taken transfer (R207). -/
def State.jump (s : State) (target : Word32) : Except FaultInfo State := do
  need (s.targetOk target) (s.flt .planeRange)
  return s.goTo target

/-- The guard g of a B-format word, over every lane. -/
def State.branchGuard (s : State) (p n : Nat) : Mask := if n = 1 then ~~~s.getP p else s.getP p

/-- SETJ pushes a join entry. -/
def execSetj (o : Nat) (s : State) : Host.Outcome State Fault Refusal :=
  answer s (do
    let x := s.team.lanes
    need (x.stack.length < 32) (s.flt .joinStack)
    return (s.withLanes { x with stack := ⟨true, s.relTarget o 20, x.active⟩ :: x.stack }).retireCtl)

/-- BRU branches where every active lane agrees. -/
def execBru (p n o : Nat) (s : State) : Host.Outcome State Fault Refusal :=
  answer s (
    let t := s.team.lanes.active &&& s.branchGuard p n
    if t = s.team.lanes.active then s.jump (s.relTarget o 20)
    else if t = 0 then .ok s.retireCtl
    else .error (s.flt .branchNonuniform))

/-- BRM splits the active lanes; a full stack is found before a target that R207 refuses (log 102). -/
def execBrm (p n o : Nat) (s : State) : Host.Outcome State Fault Refusal :=
  answer s (
    let x := s.team.lanes
    let t := x.active &&& s.branchGuard p n
    let rest := x.active &&& ~~~t
    if t = 0 then .ok s.retireCtl
    else if rest = 0 then s.jump (s.relTarget o 20)
    else do
      need (x.stack.length < 32) (s.flt .joinStack)
      let s1 ← s.jump (s.relTarget o 20)
      return s1.withLanes { x with active := t, stack := ⟨false, s.nextPc, rest⟩ :: x.stack })

/-- JMP. -/
def execJmp (o : Nat) (s : State) : Host.Outcome State Fault Refusal := answer s (s.jump (s.relTarget o 20))

/-- JMPI jumps to the offset in a uniform register (R218). -/
def execJmpi (a : Nat) (s : State) : Host.Outcome State Fault Refusal :=
  answer s (do
    let x := (s.getS a).toNat % 2 ^ 32
    need (x % 4 = 0) (s.fltAt .align 0 (BitVec.ofNat 64 x))
    s.jump (BitVec.ofNat 32 x))

/-! ### Ejection and refill (R76..R80, R212, R217) -/

/-- Where a block keeps its spawn area, past its program-addressable bytes: records of 72 bytes, oldest first (R78). -/
def Kernel.spawnOff (k : Kernel) : Nat := ceilDiv k.spad 64 * 64

/-- Where a block keeps the scalar stack of a team, past the spawn area (R113). -/
def Kernel.stackOff (k : Kernel) (tib : Nat) : Nat := k.spawnOff + ceilDiv (72 * k.spawn) 64 * 64 + tib * k.sstack

/-- Some sector that `n` bytes of a block's scratchpad touch is poisoned (R410). -/
def Block.badRange (b : Block) (off n : Nat) : Bool := b.spadPoison.any (fun x => off < 64 * x + 64 && 64 * x < off + n)

/-- The sectors that `n` bytes cover whole lose their mark (R410). -/
def Block.clearRange (b : Block) (off n : Nat) : Block :=
  { b with spadPoison := b.spadPoison.filter (fun x => !(off ≤ 64 * x && 64 * x + 64 ≤ off + n)) }

/-- The spawn record of a lane (R77). -/
def State.spawnRecord (s : State) (l stn : Nat) : SpawnRec :=
  { words := (List.range 16).map (fun n => if s.vOk n then s.getV n l else 0)
    p1 := (s.getP 1).getLsbD l, p2 := (s.getP 2).getLsbD l, p3 := (s.getP 3).getLsbD l
    plane := s.team.lanes.plane l, stn := stn }

/-- The block in focus has room for `n` more spawn records (R78). -/
def State.spawnRoom (s : State) (n : Nat) : Bool := s.blk.spawn.length + n ≤ s.blk.k.spawn

/-- Write the records of some lanes in ascending order and end the lanes; an emptied active set goes on by R75. -/
def State.ejectLanes (s : State) (m : Mask) (stn : Nat) : Except FaultInfo State :=
  let recs := (lanesOf s.team.size m).map (fun l => s.spawnRecord l stn)
  let b := s.blk.clearRange (s.blk.k.spawnOff + 72 * s.blk.spawn.length) (72 * recs.length)
  let s1 : State := { s with blk := { b with spawn := s.blk.spawn ++ recs } }
  let s2 := s1.withLanes (s1.team.lanes.vacate m)
  match s2.emptied false s2.frames with
  | .ok t => .ok t
  | .error (.fault f) => .error f
  | .error .spill => .ok s2

/-- EJECT ends the guarded lanes and spawns them at a station; with no room for all of them the team waits (R78). -/
def execEject (p n o : Nat) (s : State) : Host.Outcome State Fault Refusal :=
  answer s (
    match s.blk.k.stations.findIdx? (fun x => x == (s.relTarget o 20).toNat) with
    | none => .error (s.flt .stationInvalid)
    | some stn => do
      need (s.team.win.depth = 0) (s.flt .refillDepth)
      let m := s.team.lanes.active &&& s.branchGuard p n
      if m = 0 then return s.retireCtl
      else if s.spawnRoom (lanesOf s.team.size m).length then
        match s.retireCtl.ejectLanes m stn with
        | .ok t => return t
        | .error f => .error { f with restart := s.team.pc }
      else return s.beginWait true (.spawnRoom m stn))

/-- EJECT_RECORD_WRITE: a waiting EJECT writes its records once the area has room for all of them (R78). -/
def execEjectRecordWrite (s : State) : Host.Outcome State Fault Refusal :=
  .next (match s.team.phase with
    | .waiting (.spawnRoom m stn) =>
      if s.spawnRoom (lanesOf s.team.size m).length then
        let t : State := { s with team := { s.team with phase := .ready, pc := s.team.pc + 4, nextPlane := 0 } }
        match t.ejectLanes m stn with
        | .ok u => u
        | .error f => takeFault { f with restart := s.team.pc, plane := s.wordPlane } s
      else s
    | _ => s)

/-- Pair items with lanes: each item takes one of the lanes left, freely chosen (R79). -/
def assignLanes {α : Type} (free : Nat) : List α → List Nat → List (Nat × α)
  | [], _ => []
  | _, [] => []
  | x :: xs, l :: ls =>
    let lane := (l :: ls).getD (Config.free free % (l :: ls).length) l
    (lane, x) :: assignLanes (free + 1) xs ((l :: ls).filter (fun y => y != lane))

/-- What fills a lane: a record, or a fresh index. -/
def fillWords : SpawnRec ⊕ Nat → List Word32
  | .inl r => r.words
  | .inr i => [BitVec.ofNat 32 i]

/-- Fill one vacant lane (R79): its frame from the words and zero beyond them, predicates, plane, side-bands cleared. -/
def State.fillLane (s : State) (l : Nat) (x : SpawnRec ⊕ Nat) : State :=
  let ws := fillWords x
  let regs := List.range (8 + s.team.win.fs)
  let s1 := regs.foldl (fun t n => (t.setV n [(l, ws.getD n 0)]).setSide n [(l / 16, 0)]) s
  let bit (n : Nat) : Bool := match x with
    | .inl r => (n == 1 && r.p1) || (n == 2 && r.p2) || (n == 3 && r.p3)
    | .inr _ => false
  let s2 := (List.range 16).foldl (fun t n => t.setP n (laneBit l) (if bit n then allLanes else 0)) s1
  let y := s2.team.lanes
  s2.withLanes { y.setPlane (laneBit l) (match x with | .inl r => r.plane | .inr _ => 0) with
                 vacant := y.vacant &&& ~~~laneBit l }

/-- A station is the entry station: the header may list its offset more than once, and ENTRYSTN name any of those (R62, R79). -/
def Kernel.entryAt (k : Kernel) (stn : Nat) : Bool := k.entryStn.any (fun e => k.stations[e]? == k.stations[stn]?)

/-- REFILL's effect, its checks made: the oldest records of the station, then fresh indices at the entry station (R79,
R80). -/
def State.refillLanes (s : State) (stn : Nat) : State :=
  let vac := lanesOf s.team.size s.team.lanes.vacant
  let recs := (s.blk.spawn.filter (fun r => r.stn == stn)).take vac.length
  let left := vac.length - recs.length
  let top := s.blk.d.items
  let n := if s.blk.k.entryAt stn then min left (top - s.blk.fresh) else 0
  let items := recs.map Sum.inl ++ (List.range n).map (fun i => Sum.inr (s.blk.fresh + i))
  let s1 : State := { s with
    blk := { s.blk with
      spawn := (s.blk.spawn.foldl (fun (x : List SpawnRec × Nat) r =>
        if r.stn = stn ∧ x.2 ≠ 0 then (x.1, x.2 - 1) else (x.1 ++ [r], x.2)) ([], recs.length)).1
      fresh := s.blk.fresh + n }
    free := s.free + items.length }
  let s2 := (assignLanes s.free items vac).foldl (fun t x => t.fillLane x.1 x.2) s1
  s2.withLanes { s2.team.lanes with active := s2.team.live }

/-- A record that REFILL takes lies in a poisoned sector (R410, log 31). -/
def State.refillBad (s : State) (stn : Nat) : Bool :=
  (((s.blk.spawn.mapIdx (fun i r => (i, r))).filter (fun x => x.2.stn == stn)).take
    (lanesOf s.team.size s.team.lanes.vacant).length).any (fun x => s.blk.badRange (s.blk.k.spawnOff + 72 * x.1) 72)

/-- REFILL fills vacant lanes (R212). -/
def execRefill (s : State) : Host.Outcome State Fault Refusal :=
  answer s (
    match s.blk.k.stations.findIdx? (fun x => x == s.team.pc.toNat) with
    | none => .error (s.flt .stationInvalid)
    | some stn => do
      need (s.team.win.depth = 0) (s.flt .refillDepth)
      need s.team.lanes.stack.isEmpty (s.flt .joinStack)
      need (!s.refillBad stn) (s.flt .memoryPoison)
      return (s.refillLanes stn).retireCtl)

/-! ### Calls and frames (R94..R96, R106..R109, R218, R219) -/

/-- CALL's effect. -/
def State.opCall (s : State) (allow : Bool) (target : Word32) (l : Nat) : Except Halt State := do
  s.callChecks target l
  return (← s.callEffect allow target l (s.team.pc + 4) false 0).goOn

/-- CALL (R94). -/
def execCall (l o : Nat) (s : State) : Host.Outcome State Fault Refusal :=
  answer s (answerW s s.iss.word (s.opCall false (s.relTarget o 21) l))

/-- The target that CALLS reads. -/
def State.callsTarget (s : State) (a : Nat) : Word32 := BitVec.ofNat 32 (s.getS a).toNat

/-- CALLS (R107). -/
def execCalls (a l : Nat) (s : State) : Host.Outcome State Fault Refusal :=
  answer s (answerW s s.iss.word (s.opCall false (s.callsTarget a) l))

/-- The least target above `last` among lanes (R108). -/
def nextTarget (last : Option Word32) (xs : List Word32) : Option Word32 :=
  (xs.filter (fun x => last.all (fun y => y.toNat < x.toNat))).foldl
    (fun m x => match m with | none => some x | some y => if x.toNat < y.toNat then some x else some y) none

/-- CALLI's effect at one issue (R108). -/
def State.opCalli (s : State) (allow : Bool) (l a : Nat) : Except Halt State := do
  let w := s.team.win
  let x := s.team.lanes
  needW (w.cont || (8 ≤ a && a < 8 + 8 * l)) (s.flt .windowRange)
  let m := if w.cont then ((x.stack.head?).map StackEntry.mask).getD 0 else x.active
  let below := if w.cont then x.stack.tail else x.stack
  let last := if w.cont then some w.contLast else none
  let lanes := lanesOf s.team.size m
  match nextTarget last (lanes.map (s.getV a)) with
  | none =>
    needW (w.cont || x.stack.length < 32) (s.flt .joinStack)
    let s1 := s.withLanes { x with active := m, stack := below }
    let s2 := s1.withWin { w with cont := false }
    let s3 : State := { s2 with team := { s2.team with pc := s.team.pc + 4 } }
    match s3.emptied allow s3.frames with
    | .ok t => return t.goOn
    | .error (.fault f) => .error (.fault { f with restart := s.team.pc })
    | .error .spill => .error .spill
  | some t =>
    s.callChecks t l
    needW (w.cont || x.stack.length < 32) (s.flt .joinStack)
    let s1 := s.withLanes { x with active := maskOf s.team.size (fun i => m.getLsbD i && s.getV a i = t)
                                   stack := ⟨true, s.team.pc + 4, m⟩ :: below }
    let s2 := s1.withWin { w with cont := false }
    return (← s2.callEffect allow t l s.team.pc true t).goOn

/-- CALLI (R108). -/
def execCalli (l a : Nat) (s : State) : Host.Outcome State Fault Refusal :=
  answer s (answerW s s.iss.word (s.opCalli false l a))

/-- ENTER's effect (R95). -/
def State.opEnter (s : State) (allow : Bool) (n : Nat) : Except Halt State := do
  return (← s.enterFrame allow n).retireCtl

/-- ENTER (R95, R219). -/
def execEnter (n : Nat) (s : State) : Host.Outcome State Fault Refusal :=
  answer s (answerW s s.iss.word (s.opEnter false n))

/-- The operation of a word that waited for the spill engine, its transfers now made (R103). -/
def State.windowOp (s : State) (i : Instr) : Except Halt State :=
  match i with
  | .call l o => s.opCall true (s.relTarget o 21) l
  | .calls a l => s.opCall true (s.callsTarget a) l
  | .calli l a => s.opCalli true l a
  | .enter n => s.opEnter true n
  | .ret => s.opRet true
  | .exit => s.opExit true
  | .uret => s.opTrapReturn true true
  | .tret => s.opTrapReturn false true
  | _ => .ok s

/-! ### Planes (R221..R223) -/

/-- PLSET from a register. -/
def execPlset (a : Nat) (s : State) : Host.Outcome State Fault Refusal :=
  answer s (do
    need (s.windowOk false [a]) (s.flt .windowRange)
    let x := (lanesOf s.team.size s.selected).foldl
      (fun (y : Lanes) l => y.setPlane (laneBit l) ((s.getV a l).toNat % 4)) s.team.lanes
    return (s.withLanes x).retireCtl)

/-- PLSET from a constant. -/
def execPlsetConst (b : Nat) (s : State) : Host.Outcome State Fault Refusal :=
  answer s (.ok (s.withLanes (s.team.lanes.setPlane s.selected b)).retireCtl)

/-- PLSEL: a plane by a predicate in every active lane, whatever the guard. -/
def execPlsel (f t p : Nat) (s : State) : Host.Outcome State Fault Refusal :=
  answer s (
    let x := s.team.lanes
    .ok (s.withLanes ((x.setPlane (x.active &&& s.getP p) t).setPlane (x.active &&& ~~~s.getP p) f)).retireCtl)

/-- PLOCC: the occupancy of the active lanes. -/
def execPlocc (d : Nat) (s : State) : Host.Outcome State Fault Refusal :=
  answer s (.ok (s.setS d (BitVec.ofNat 64 ((s.team.planes.map (fun k => 2 ^ k)).sum))).retireCtl)

/-! ### Mode, leave, traps (R224, R228, R229) -/

/-- Write the mode register, checked under R177. -/
def State.setMode (s : State) (x : Word64) : Except FaultInfo State := do
  need (modeValid x) (s.flt .illegalMode)
  return s.withSp { s.team.sp with mode := x }

/-- MODE (R224). -/
def execMode (m : Nat) (s : State) : Host.Outcome State Fault Refusal :=
  answer s (do return (← s.setMode (BitVec.ofNat 64 m)).retireCtl)

/-- LEAVE adds to the advance request of its kind, capped (R228). -/
def execLeave (k n : Nat) (s : State) : Host.Outcome State Fault Refusal :=
  answer s (
    let t := if k = 0 then { s.team with reqSteps := min (s.team.reqSteps + n) 65535 }
      else { s.team with reqCopy := min (s.team.reqCopy + n) 65535 }
    .ok { s with team := t }.retireCtl)

/-- TRAP raises TRAP_INSTRUCTION with its code, restarting at the next instruction (R229); like every word of its OP it has
ended the lookahead windows (R206). -/
def execTrap (c : Nat) (s : State) : Host.Outcome State Fault Refusal :=
  .next (takeFault { s.flt .trapInstruction with plane := 0, code := c, restart := s.nextPc }
    { s with team := { s.team with looks := [] } })

/-! ### Special registers (R231, R234..R236) -/

/-- TRAPINFO (R231). -/
def Trap.info (t : Trap) : Nat :=
  t.cause + t.plane * 2 ^ 8 + t.lane * 2 ^ 16 + (if t.inTrap then 2 ^ 31 else 0) + t.code * 2 ^ 32

/-- A special register as SRD reads it (R235). -/
def State.special (s : State) (i : Nat) : Nat :=
  let t := s.team
  match i with
  | 0x00 => t.teamId
  | 0x01 => s.blk.x
  | 0x02 => s.blk.y
  | 0x03 => s.blk.z
  | 0x04 => match s.findCluster s.blk.cid with | some c => c.index | none => 0
  | 0x05 => s.blk.d.gridX
  | 0x06 => s.blk.d.gridY
  | 0x07 => s.blk.d.gridZ
  | 0x08 => t.size
  | 0x09 => t.tib
  | 0x0A => t.core
  | 0x0B => t.section_
  | 0x0C => s.amc.cfg.device
  | 0x10 => s.clk
  | 0x11 => s.hub.ptp
  | 0x12 => s.seed
  | 0x13 => t.sp.mode.toNat
  | 0x14 => t.sp.sticky.toNat
  | 0x15 => t.sp.ssp
  | 0x16 => t.win.depth
  | 0x17 => t.sp.isectA.toNat
  | 0x18 => t.sp.isectB.toNat
  | 0x19 => t.sp.dcw.toNat
  | 0x1A => t.sp.srStream.toNat
  | 0x20 => t.trap.info
  | 0x21 => t.trap.off.toNat
  | _ => t.trap.addr.toNat

/-- SRD (R234). -/
def execSrd (d i : Nat) (s : State) : Host.Outcome State Fault Refusal :=
  answer s (.ok (s.setS d (BitVec.ofNat 64 (s.special i))).retireCtl)

/-- A special register with no behaviour of its own takes a value; read-only ones stay (R5, R234). DCW takes its reserved bits too (R303,
log 121). -/
def Special.write (x : Special) (i : Nat) (v : Word64) : Special :=
  match i with
  | 0x17 => { x with isectA := v }
  | 0x18 => { x with isectB := v }
  | 0x19 => { x with dcw := v }
  | 0x1A => { x with srStream := v }
  | _ => x

/-- SWR (R234). -/
def execSwr (r i : Nat) (s : State) : Host.Outcome State Fault Refusal :=
  answer s (.ok (s.withSp (s.team.sp.write i (s.getS r))).retireCtl)

/-- SWR to MODE (R177). -/
def execSwrMode (r : Nat) (s : State) : Host.Outcome State Fault Refusal :=
  answer s (do return (← s.setMode (s.getS r)).retireCtl)

/-- SWR to STICKY writes all flags at once (R55, R56). -/
def execSwrSticky (r : Nat) (s : State) : Host.Outcome State Fault Refusal :=
  answer s (.ok (s.withSp { s.team.sp with sticky := BitVec.ofNat 8 (s.getS r).toNat }).retireCtl)

/-- SWR to SSP (R114). -/
def execSwrSsp (r : Nat) (s : State) : Host.Outcome State Fault Refusal :=
  answer s (do
    let x := (s.getS r).toNat
    need (x % 8 = 0 && x ≤ s.blk.k.sstack) (s.flt .stack)
    return (s.withSp { s.team.sp with ssp := x }).retireCtl)

/-- SWR to TRAPOFF sets TWR (R231); bits [63:32] are reserved: they ignore the write and read zero (R6). -/
def execSwrTrapoff (r : Nat) (s : State) : Host.Outcome State Fault Refusal :=
  answer s (.ok { s with team := { s.team with trap := { s.team.trap with
    off := BitVec.ofNat 64 ((s.getS r).toNat % 2 ^ 32), twr := true } } }.retireCtl)

/-! ### The scalar stack (R113, R237) -/

/-- PUSHM: the words go to the team's stack in the scratchpad (R113; R22 names device memory, log 97). -/
def execPushm (f c : Nat) (s : State) : Host.Outcome State Fault Refusal :=
  answer s (do
    let ssp := s.team.sp.ssp
    need (ssp + 8 * c ≤ s.blk.k.sstack) (s.flt .stack)
    let st := smSetAll 0 s.team.sstack ((List.range c).map (fun j => (ssp / 8 + j, s.getS (f + j))))
    let s1 : State := { s with team := { s.team with sstack := st }
                               blk := s.blk.clearRange (s.blk.k.stackOff s.team.tib + ssp) (8 * c) }
    return (s1.withSp { s1.team.sp with ssp := ssp + 8 * c }).retireCtl)

/-- POPM. -/
def execPopm (f c : Nat) (s : State) : Host.Outcome State Fault Refusal :=
  answer s (do
    need (8 * c ≤ s.team.sp.ssp) (s.flt .stack)
    let ssp := s.team.sp.ssp - 8 * c
    need (!s.blk.badRange (s.blk.k.stackOff s.team.tib + ssp) (8 * c)) (s.flt .memoryPoison)
    let s1 := (List.range c).foldl (fun t j => t.setS (f + j) (smGet 0 s.team.sstack (ssp / 8 + j))) s
    return (s1.withSp { s1.team.sp with ssp := ssp }).retireCtl)

end Sys2Proof.Machine
end

