-- ==== Sys2Proof/Machine/Settle.lean ====
section
/-!
DEFINITION. What follows from an update without an instruction of its own: barrier phases that complete (R288), waits
that end (R87), counters and the sends they fire (R328, R338), members that ended (R85), completion records (R381).
-/
namespace Sys2Proof.Machine

/-! ### What must come before an issue (R158, R159, R182) -/

/-- Words that may issue while steps and transfers of the team are under way: scalar and lane-wise words, which touch
no local store (R158). The model holds every other word back (log 9). -/
def overlaps (op : Nat) : Bool :=
  (0x20 ≤ op && op ≤ 0x38) || (0x50 ≤ op && op ≤ 0x64) || op = 0x67 || op = 0x68

/-- Two operations on the block's scratchpad overlap: their regions intersect, and one of them writes there (R158). -/
def meets (xs ys : List LocalUse) : Bool :=
  xs.any (fun x => ys.any (fun y => (x.write || y.write) && x.lo < y.hi && y.lo < x.hi))

/-- Bytes at an address in the scratchpad of the block in focus, through any address form (R116, R158). -/
def State.localUse (s : State) (write : Bool) (a : Word64) (n : Nat) : List LocalUse :=
  match s.checkAddr a 1 1 0 with
  | .ok (.spad bid off) => if bid = s.blk.bid then [⟨off, off + n, write⟩] else []
  | _ => []

/-- What reads or writes through a descriptor may touch of the block's scratchpad. -/
def State.descUses (s : State) (write : Bool) (d : Desc) : List LocalUse :=
  if d.space = 0 then []
  else d.rows.flatMap (fun i => d.parts.flatMap (fun p => s.localUse write (BitVec.ofNat 64 (d.rowAddr i + p.1)) p.2))

/-- The local source and destination ranges of a command of the block in focus (R158). -/
def State.kindUses (s : State) : CmdKind → List LocalUse
  | .copy ds x _ => ds.flatMap (s.descUses true) ++ s.descUses false x
  | .gather d x i | .scatter d x i => s.descUses true d ++ s.descUses false x ++ s.descUses false i
  | .reduce d cs => s.descUses true d ++ cs.flatMap (s.descUses false)
  | .flush _ _ => []
  | .send x => x.src.toList.flatMap (s.descUses false)

/-- A team whose begun step reads a slot of another team (R297, R410). -/
def State.stepReader (s : State) (uid : Nat) : Option Team :=
  s.teams.find? (fun u => u.mat.steps.any (fun x => x.reads.any (fun r => r.1 == uid)))

/-- A command has done all its work. -/
def CmdStatus.over : CmdStatus → Bool
  | .releasing _ => true
  | _ => false

/-- What must happen before a team may issue a word of this OP: the return of a load whose window does not cover it (R182), the
end of matrix work (R158, R159), which in a trap handler is all that was issued before the fault (R10), the end of steps that
read a slot it releases (R297, R415), or of a command whose local ranges overlap what the word touches (R158). The team that it
happens in comes first. -/
def State.blockerOf (s : State) (t : Team) (op : Nat) (uses : List LocalUse) : Option (Nat × Instr × Nat) :=
  let covered (l : Load) : Bool := 0x1F ≤ op && l.off != t.pc && t.looks.any (fun w => w.lid == l.lid)
  let full : Bool := 0x39 ≤ op && op ≤ 0x48 && 16 ≤ (t.looks.filter (fun w => !w.done)).length
  let free : Bool := overlaps op && !t.trap.inTrap
  let releases : Bool := op = 0x6D || op = 0x6F || (op = 0 && t.pre.saving.isSome)
  if t.loads.any (fun l => !covered l) || (full && !t.loads.isEmpty) then some (t.uid, .loadDataReturn, 0)
  else if !t.mat.steps.isEmpty && !free && ((op ≠ 0x72 && op ≠ 0x73) || t.trap.inTrap) then some (t.uid, .matrixStepDone, 0)
  else if !t.mat.transfers.isEmpty && !free then some (t.uid, .tileTransferComplete, 0)
  else
    match (if releases then s.stepReader t.uid else none) with
    | some u => some (u.uid, .matrixStepDone, 0)
    | none =>
      match s.cmds.find? (fun c => c.uid == t.uid && c.cpQueue.isNone && meets c.uses uses && !c.status.over) with
      | some c =>
        match c.status with
        | .queued => some (t.uid, .engineCommandStart, c.id)
        | .running | .sent => some (t.uid, .engineCommandComplete, c.id)
        | .suspended => some (t.uid, .nop, c.id)
        | .releasing _ => none
      | none => none

/-- What must happen before the team in focus may issue. -/
def State.blocker (s : State) (op : Nat) (uses : List LocalUse) : Option (Nat × Instr × Nat) := s.blockerOf s.team op uses

/-! ### The CP's own accesses (log 26) -/

/-- The sectors of a range of physical memory hold no poisoned one. -/
def State.physGood (s : State) (a n : Nat) : Bool :=
  (List.range (n / 64 + 2)).all (fun i => !s.poisonAt (.dev (min (a + 64 * i) (a + n - 1))))

/-- Read a record in the partition of a region at system level. A region that does not exist stands for the CP's own system
partition, whose addresses are physical. -/
def State.cpRead (s : State) (rcb a n : Nat) : Option (List Byte) :=
  match s.partition rcb with
  | some _ => (match s.readVa (s.view rcb true) .load a n with | .ok bs => some bs | .error _ => none)
  | none => if a + n ≤ hbmEnd && s.physGood a n then some (s.bytesAt (.dev a) n) else none

/-- A read of the CP's reaches the L2 (R445). -/
def State.cpNote (s : State) (rcb a n : Nat) (k : AccKind) : State :=
  match s.partition rcb with
  | some _ => s.noteRange (s.view rcb true) k k a n
  | none => (List.range (if n = 0 then 0 else (a + n + 63) / 64 - a / 64)).foldl (fun t i =>
      t.notePhys 0 k.writes (max a ((a / 64 + i) * 64))) s

/-- Write a record likewise; `none` where the write meets a translation fault or a poisoned sector (R381). -/
def State.cpWrite (s : State) (rcb a : Nat) (bs : List Byte) : Option State :=
  match s.partition rcb with
  | some _ =>
    (match s.span (s.view rcb true) .store a bs.length with
     | .ok ps => if s.spanPoison ps a bs.length then none else some ((s.writeSpan ps a bs).cpNote rcb a bs.length .store)
     | .error _ => none)
  | none =>
    if a + bs.length ≤ hbmEnd && s.physGood a bs.length
    then some ((s.writeAt (.dev a) bs.length (leNat bs)).cpNote rcb a bs.length .store) else none

/-! ### Completion records and host-queue commands (R378, R381) -/

/-- The 32 bytes of a completion record (R381). -/
def recordBytes (stamp source status detail disc result : Nat) : List Byte :=
  natLe stamp 8 ++ natLe source 8 ++ natLe status 1 ++ natLe detail 1 ++ natLe 0 2 ++ natLe disc 4 ++ natLe result 8

/-- Write a completion record in the partition of a region, at system level; a failing write is logged (R381). -/
def State.completionRecord (s : State) (rcb crec source status detail disc result : Nat) : State :=
  if crec = 0 then s
  else
    let r := s.stamp 0
    match r.2.cpWrite rcb crec (recordBytes r.1 source status detail disc result) with
    | some t => t
    | none => (r.2.cpNote rcb crec 32 .store).log 0 2 0x11 source

/-- The queue control entry. -/
def State.findQueue (s : State) (q : Nat) : Option Queue := (s.queues.find? (fun x => x.1 == q)).map Prod.snd

/-- Set a queue control entry. -/
def State.setQueue (s : State) (q : Nat) (x : Queue) : State :=
  { s with queues := (q, x) :: s.queues.filter (fun y => y.1 != q) }

/-- Virtual address of the command at HEAD (R378). -/
def Queue.headAddr (x : Queue) : Nat := x.base + 64 * (x.head.toNat % x.size)

/-- The ports that are up: a path to a peer begins at each (R421, R424). -/
def Hub.upPorts (h : Hub) : List Nat := (List.range 16).filter (fun p => h.ports.getLsbD p)

/-- Send a flush marker to each of some peers on every path that is up, and note the flush (R166, R426); with no path up the
marker waits for one (path 16). -/
def State.startFlush (s : State) (peers : List Nat) (cmd uid : Option Nat) : Nat × State :=
  let st := s.stamp 26
  let s1 := st.2
  let paths := if s1.hub.upPorts.isEmpty then [16] else s1.hub.upPorts
  (st.1, { s1 with hub := { s1.hub with
      written := s1.hub.written.filter (fun p => !peers.contains p)
      out := s1.hub.out ++ peers.flatMap (fun p => paths.map (fun q => LinkMsg.marker p q q st.1))
      flushes := if peers.isEmpty then s1.hub.flushes
        else s1.hub.flushes ++ [{ stamp := st.1, left := peers, cmd := cmd, uid := uid, lost := false }] } })

/-- No flush up to a stamp is still under way, and the one of this stamp is not lost; a flush lost before holds up no later
release (R427, log 91). -/
def State.flushed (s : State) (stamp : Nat) : Bool :=
  s.hub.flushes.all (fun f => if f.lost then f.stamp != stamp else stampAfter f.stamp stamp)

/-- Nothing written to a peer is unflushed: a release at system scope performs at once (R166). -/
def State.quiet (s : State) : Bool := s.hub.written.isEmpty && s.hub.flushes.all Flush.lost

/-- A completion record of the CP's own, as a release at system scope: at once, or after a flush (R166, R381). -/
def State.postRecord (s : State) (rcb crec source status detail : Nat) : State :=
  if crec = 0 then s
  else if s.quiet then s.completionRecord rcb crec source status detail 0 0
  else
    let f := s.startFlush s.hub.written none none
    { f.2 with records := f.2.records ++ [
        { flush := f.1, rcb := rcb, crec := crec, source := source, status := status, detail := detail }] }

/-- The records whose flush is over are written. -/
def State.settleRecords (s : State) : State :=
  (s.records.filter (fun r => s.flushed r.flush)).foldl
    (fun t r => t.completionRecord r.rcb r.crec r.source r.status r.detail 0 0)
    { s with records := s.records.filter (fun r => !s.flushed r.flush) }

/-- The running command of a queue is over: its record is written and HEAD advances (R378, R381). -/
def State.closeCommand (s : State) (q status detail disc result : Nat) : State :=
  match s.findQueue q with
  | none => s
  | some x =>
    let s := s.completionRecord x.region x.crec x.headAddr status detail disc result
    s.setQueue q { x with head := x.head + 1, running := none, crec := 0 }

/-- The running command of a queue completes: its record is a release at system scope (R166, R381). -/
def State.finishCommand (s : State) (q status detail disc result : Nat) : State :=
  if s.quiet then s.closeCommand q status detail disc result
  else match s.findQueue q with
    | none => s
    | some x =>
      let f := s.startFlush s.hub.written none none
      f.2.setQueue q { x with running := some (.closing f.1 status detail disc result) }

/-! ### Barriers (R288, R289) -/

/-- Teams of a block. -/
def State.blockTeams (s : State) (bid : Nat) : List Team := s.teams.filter (fun t => t.bid == bid)

/-- Teams of a cluster. -/
def State.clusterTeams (s : State) (cid : Nat) : List Team :=
  s.teams.filter (fun t => s.allBlocks.any (fun b => b.bid == t.bid && b.cid == cid))

/-- Every participant that has not ended has arrived (R288). -/
def allArrived (ts : List Team) (arr : List (Nat × Nat)) (id : Nat) : Bool :=
  ts.all (fun t => t.phase == .ended || arr.contains (id, t.uid))

/-- The ids whose current phase completes. -/
def doneIds (ts : List Team) (arr : List (Nat × Nat)) : List Nat :=
  ((arr.map Prod.fst).foldl setAdd []).filter (allArrived ts arr)

/-- Phases of a block's barriers complete. -/
def State.settleBlockBars (s : State) (b : Block) : Block :=
  let ids := doneIds (s.blockTeams b.bid) b.barArr
  { b with barC := ids.foldl (fun m i => smSet 0 m i (smGet 0 m i + 1)) b.barC
           barArr := b.barArr.filter (fun x => !ids.contains x.1) }

/-- Phases of a cluster's barriers complete. -/
def State.settleClusterBars (s : State) (c : Cluster) : Cluster :=
  let ids := doneIds (s.clusterTeams c.cid) c.barArr
  { c with barC := ids.foldl (fun m i => smSet 0 m i (smGet 0 m i + 1)) c.barC
           barArr := c.barArr.filter (fun x => !ids.contains x.1) }

/-- Completed phases of the barrier that a team sees (R288). -/
def State.barCount (s : State) (t : Team) (cluster : Bool) (id : Nat) : Nat :=
  match s.findBlock t.bid with
  | none => 0
  | some b => if cluster then (match s.findCluster b.cid with | some c => smGet 0 c.barC id | none => 0)
    else smGet 0 b.barC id

/-- Phase a of the team's latest arrival (R288). -/
def Team.barPhase (t : Team) (cluster : Bool) (id : Nat) : Nat := smGet 0 (if cluster then t.cbarA else t.barA) id

/-! ### Counters (R326..R329) -/

/-- Value of an arrival counter. -/
def State.arrival (s : State) (c : Nat) : Nat := smGet 0 s.hub.arrival c

/-- A completion counter as XCNT reads it: COUNT, and ERR at bit 63 (R328). -/
def Block.counter (b : Block) (c : Nat) : Nat := smGet 0 b.counters c

/-- COUNT and ERR of the counter a selector names, for a block (R327). -/
def State.countErr (s : State) (bid sel : Nat) : Nat × Bool :=
  if sel.testBit 10 then
    match s.findBlock bid with
    | some b => (b.counter (sel % 64) % 2 ^ 32, (b.counter (sel % 64)).testBit 63)
    | none => (0, false)
  else (s.arrival (sel % 1024), false)

/-- Store COUNT and ERR in the counter a selector names. -/
def State.setCounter (s : State) (bid sel count : Nat) (err : Bool) : State :=
  if sel.testBit 10 then
    s.modBlock bid (fun b =>
      { b with counters := smSet 0 b.counters (sel % 64) (count % 2 ^ 32 + if err then 2 ^ 63 else 0) })
  else { s with hub := { s.hub with arrival := smSet 0 s.hub.arrival (sel % 1024) (count % 2 ^ 64) } }

/-- The state as a party that is no resident team sees it, with a block and the rights of a team, under the values its block was placed
under (R371): a running command, or an armed entry that fires. -/
def State.asParty (s : State) (bid lid rcb core : Nat) (system : Bool) (eff : Option Region) (prid : Nat) : State :=
  let t := if (s.findBlock bid).isSome then s.focusBlock bid else { s with blk := { Block.absent with eff := eff, prid := prid } }
  { t with team := { Team.absent with bid := bid, lid := lid, rcb := rcb, system := system, core := core } }

/-- The source descriptor at an address, if it can be read and passes the checks of R134, as a destination too, for the data lands
under it (R338, R354). -/
def State.sourceDesc (s : State) (p : Word64) : Option Desc :=
  if p = 0 then none
  else match s.loadUnit p 64 with
    | .ok bs => if (descOf bs).ok true then some (descOf bs) else none
    | .error _ => none

/-- The send that an armed entry fires (R338): a command of the hub, run as NSEND runs. Its source descriptor is read now; one
that fails stays unread, and suspends the send when it runs. -/
def State.fire (s : State) (a : Armed) (id : Nat) : Cmd :=
  let w := a.word.toNat
  let p := s.asParty a.bid a.lid a.rcb a.core a.system a.eff a.prid
  let src := p.sourceDesc a.srcAddr
  { Cmd.fresh with
    id := id, uid := a.uid, bid := a.bid, lid := a.lid, rcb := a.rcb, core := a.core, teamId := a.teamId
    system := a.system, seed := a.seed, off := a.off, op := 0x7D
    kind := .send { src := src, srcAddr := a.srcAddr, imm := none, peer := a.peer, cen := w.testBit 27, cc := field w 21 6
                    rinc := w.testBit 20, rcnt := field w 10 10, dev := field w 0 10 }
    uses := src.toList.flatMap (p.descUses false), fired := true, dom := a.dom, eff := a.eff, prid := a.prid, key := a.key }

/-- Entries of the triggered-send table in use: armed, or fired with the payload not yet away (R338). -/
def State.tableUse (s : State) : Nat := s.hub.armed.length + (s.cmds.filter (fun c => c.fired && c.status != .sent)).length

/-- A descriptor that is read as a party without a team stands in the caches of its core. -/
def State.notePartyLoad (s p : State) (addr : Word64) : State :=
  match (if addr = 0 then .error .descriptor else p.checkAddr addr 1 1 0 : Except Cause Target) with
  | .ok (.va a) => s.noteVa p.teamView .load a
  | _ => s

/-- Fire every armed entry of a counter whose threshold it now meets, once each (R338). -/
def State.fireArmed (s : State) (c : Nat) : State :=
  let hit (a : Armed) : Bool := a.counter == c && a.threshold ≤ s.arrival c
  let fired := s.hub.armed.filter hit
  fired.foldl (fun s a =>
      let r := s.newId
      { r.2 with cmds := r.2.cmds ++ [s.fire a r.1] }.notePartyLoad (s.asParty a.bid a.lid a.rcb a.core a.system a.eff a.prid)
        a.srcAddr)
    { s with hub := { s.hub with armed := s.hub.armed.filter (fun a => !hit a) } }

/-- Commands in the queue of a core: an entry frees when its command has completed (log 96). -/
def State.queueLength (s : State) (core : Nat) : Nat :=
  (s.cmds.filter (fun c => c.core == core && !c.fired && c.cpQueue.isNone)).length

/-! ### Waits that end -/

/-- The phase number is past `x`: (PHASE - x) mod 2^32 in 1..2^31-1 (R293). -/
def phasePast (phase x : Word32) : Bool := 0 < (phase - x).toNat && (phase - x).toNat < 2 ^ 31

/-- A convocation of a block that holds this cv. -/
def Block.findConv (b : Block) (cv : Nat) : Option Convocation := b.convs.find? (fun c => c.cv == cv)

/-- Change a convocation of the block. -/
def Block.modConv (b : Block) (cv : Nat) (f : Convocation → Convocation) : Block :=
  { b with convs := b.convs.map (fun c => if c.cv = cv then f c else c) }

/-- The phase that a PBWAIT awaits has completed: with its POIS (R293). Nothing can be read of a poisoned object (R410). -/
def State.phaseDone (s : State) (bid off : Nat) (x : Word32) : Option Bool :=
  if s.poisonAt (.spad bid off) then none
  else if phasePast (BitVec.ofNat 32 (s.readAt (.spad bid (off + 8)) 4)) x then some ((s.readAt (.spad bid (off + 12)) 4).testBit 0)
  else none

/-- An XWAIT or PBWAIT of a team that is away, suspended or swapped, notes that what it awaits has happened (R88, R419, R420). -/
def State.noted (s : State) (bid : Nat) : Wait → Wait
  | .counter dst sel th =>
    let r := s.countErr bid sel
    if th ≤ r.1 then .counterMet dst (if r.2 then 2 else 0) else .counter dst sel th
  | .phase b off x p a => match s.phaseDone b off x with | some pois => .phaseMet p pois | none => .phase b off x p a
  | w => w

/-- Change the waits that a suspended team, or one in a routine, will take up again. -/
def Preempt.mapWaits (p : Preempt) (f : Wait → Wait) : Preempt :=
  let g (w : Option (Wait × Option Nat)) : Option (Wait × Option Nat) := w.map (fun x => (f x.1, x.2))
  { p with wait := g p.wait, held := g p.held, trapped := g p.trapped, outer := p.outer.map (fun r => { r with wait := g r.wait }) }

/-- The same for the phase in which a swapped team left its core. -/
def State.notedPhase (s : State) (uid : Nat) : Phase → Phase
  | .waiting w => .waiting (s.noted ((s.findTeam uid).map Team.bid |>.getD 0) w)
  | p => p

/-- The team with its wait or stall ended, if what it awaits has happened (R86, R87). Claims, convocation steps and
ejections end by events and instructions of their own. -/
def State.awaited (s : State) (t : Team) : Team :=
  let t : Team := { t with pre := t.pre.mapWaits (s.noted t.bid) }
  match t.phase with
  | .waiting (.barrier cl id p) => if t.barPhase cl id ≤ s.barCount t cl id then t.finishWait p false else t
  | .waiting (.phase bid off x p _) => match s.phaseDone bid off x with | some pois => t.finishWait p pois | none => t
  | .waiting (.phaseMet p pois) => t.finishWait p pois
  | .waiting (.counter dst sel th) =>
    let r := s.countErr t.bid sel
    if th ≤ r.1 then (t.finishWait 0 false).setS dst (if r.2 then 2 else 0) else t
  | .waiting (.counterMet dst st) => (t.finishWait 0 false).setS dst (BitVec.ofNat 64 st)
  | .waiting (.conv _ _ _) => if t.mat.member.isSome then t.finishWait 0 false else t
  | .stalled (.issue op uses) => if (s.blockerOf t op uses).isNone then { t with phase := .ready } else t
  | .stalled (.flush st) => if s.flushed st then { t with phase := .ready } else t
  | .stalled (.arrive cl id) => if t.barPhase cl id ≤ s.barCount t cl id then { t with phase := .ready } else t
  | .stalled .queue => if s.queueLength t.core < 32 then { t with phase := .ready } else t
  | .stalled (.publish ids) => if s.cmds.any (fun c => ids.contains c.id) then t else { t with phase := .ready }
  | .stalled .table => if s.tableUse < 4096 then { t with phase := .ready } else t
  | _ => t

/-- Waits and stalls that end, on the cores and away from them. -/
def State.wake (s : State) : State :=
  { s.mapTeams s.awaited with
    hearths := s.hearths.map (fun h => { h with phases := h.phases.map (fun p => (p.1, s.notedPhase p.1 p.2)) }) }

/-- A SIGNAL set or add acts on its counter (R379). -/
def State.postSignal (s : State) (c v : Nat) (add : Bool) : State :=
  ((s.setCounter 0 c (if add then s.arrival c + v else v) false).fireArmed c).wake

/-- Go on with the commands of the host queues that await a counter or a flush (R379, R381). -/
def State.settleQueues (s : State) : State :=
  s.queues.foldl (fun s x =>
    match x.2.running with
    | some (.signalWait c th) => if th ≤ s.arrival c then s.finishCommand x.1 0 0 0 0 else s
    | some (.signalPost f c v add) => if s.flushed f then (s.postSignal c v add).finishCommand x.1 0 0 0 0 else s
    | some (.closing f st d disc r) => if s.flushed f then s.closeCommand x.1 st d disc r else s
    | _ => s) s

/-- A wait in a forming convocation of this cv. -/
def Wait.forConv (cv : Nat) : Wait → Bool
  | .conv c _ _ => c == cv
  | _ => false

/-- A team that waited for a convocation that is refused raises CONV_MISMATCH at its CONV: at once if it waits there, and once it is
back in that wait if it is suspended, in a routine, or Held in its save call (R83, R417). -/
def State.mismatchWaiter (cv : Nat) (s : State) (uid : Nat) : State :=
  match s.findTeam uid with
  | none => s
  | some t =>
    if (match t.phase with | .waiting w => w.forConv cv | _ => false) then s.faultIn uid (s.flt .convMismatch)
    else s.modTeam uid (fun t => { t with pre := t.pre.mapWaits (fun w => if w.forConv cv then .mismatch else w) })

/-- A fault in every team of a list, at the word that it waits on or issues (R84, R85, R310). -/
def State.faultAll (s : State) (us : List Nat) (c : Cause) : State := us.foldl (fun t u => t.faultIn u (t.flt c)) s

/-- Members that have ended leave their convocation broken; the others are told at once if they wait in a step (R85). -/
def State.settleConvs (s : State) : State :=
  s.allBlocks.foldl (fun s b =>
    b.convs.foldl (fun s c =>
      let gone := c.members.filter (fun u => match s.findTeam u with | some t => t.phase == .ended | none => true)
      if gone.isEmpty then s
      else
        let left := c.members.filter (fun u => !gone.contains u)
        let s1 := s.modBlock b.bid (fun b =>
          if left.isEmpty then { b with convs := b.convs.filter (fun x => x.cv != c.cv) }
          else b.modConv c.cv (fun x => { x with members := left, broken := x.broken || c.formed, issues := [] }))
        if c.formed then
          left.foldl (fun s u =>
            match s.findTeam u with
            | some t => (match t.phase with | .waiting (.step _) => s.faultIn u (s.flt .convMismatch) | _ => s)
            | none => s) s1
        else s1) s) s

/-- Teams that are back in a CONV that was refused while they were away fault there (R83). -/
def State.settleMismatch (s : State) : State :=
  (s.teams.filter (fun t => t.phase == .waiting .mismatch)).foldl (fun s t => s.faultIn t.uid (s.flt .convMismatch)) s

/-- Teams that wait in PBWAIT on an object that is poisoned consume it (R410). -/
def State.settlePoison (s : State) : State :=
  (s.teams.filter (fun t => match t.phase with | .waiting (.phase b off _ _ _) => s.poisonAt (.spad b off) | _ => false)).foldl
    (fun s t => match t.phase with
      | .waiting (.phase _ _ _ _ a) => s.faultIn t.uid { s.flt .memoryPoison with addr := a }
      | _ => s) s

/-- A machine check is raised in a team that is Ready, Stalled, Waiting or Held (R87, R407): it is Held, its spill engine idle. -/
def State.checkTeam (s : State) (uid addr : Nat) : State :=
  let stop : SpillState → SpillState := fun x => match x with | .needed _ => .idle | y => y
  let u := s.modTeam uid (fun t => { t with check := none, win := { t.win with spill := stop t.win.spill } })
  u.faultIn uid { u.flt .machineCheck with addr := BitVec.ofNat 64 addr }

/-- The machine checks of teams that were suspended or swapped are raised once those are back (R87, R408, R410). -/
def State.settleChecks (s : State) : State :=
  (s.teams.filter (fun t => t.check.isSome && match t.phase with | .ready | .stalled _ | .waiting _ => true | _ => false)).foldl
    (fun s t => s.checkTeam t.uid (t.check.getD 0)) s

/-- Everything that follows from the state as it stands: phases complete, ended members and blocks are noticed, and
waits end. -/
def State.settle (s : State) : State :=
  let s := { s with blk := s.settleBlockBars s.blk, blocks := s.blocks.map s.settleBlockBars
                    clusters := s.clusters.map s.settleClusterBars }
  let ends (b : Block) : Block :=
    { b with ended := b.ended || (s.teams.any (fun t => t.bid == b.bid)
               && (s.blockTeams b.bid).all (fun t => t.phase == .ended)) }
  let s := { s with blk := ends s.blk, blocks := s.blocks.map ends }
  (s.settleConvs.settleMismatch.settlePoison.settleChecks.wake).settleQueues.settleRecords

/-- An arrival counter took a new value: armed entries fire, then waits end. -/
def State.counterMoved (s : State) (sel : Nat) : State :=
  (if sel.testBit 10 then s else s.fireArmed (sel % 1024)).settle

/-! ### Phase barriers in memory (R292) -/

/-- `arrive_phase` on the object at a place: the old PHASE, and the state after. -/
def State.arrivePhase (s : State) (p : Place) (poisoned : Bool) : Word32 × State :=
  let w (i : Nat) := s.readAt (p.plus (4 * i)) 4
  let s := if poisoned then s.writeAt (p.plus 12) 1 (w 3 % 256 / 2 * 2 + 1) else s
  let pending := (if w 1 = 0 then 1 else w 1) - 1
  let old := BitVec.ofNat 32 (w 2)
  if pending = 0 then
    (old, (s.writeAt (p.plus 8) 4 ((w 2 + 1) % 2 ^ 32)).writeAt (p.plus 4) 4 (if w 0 = 0 then 1 else w 0))
  else (old, s.writeAt (p.plus 4) 4 pending)

end Sys2Proof.Machine
end

