-- ==== Sys2Proof/Machine/Sync.lean ====
section
/-!
DEFINITION. Fences (R151, R287), block, cluster and phase barriers (R288..R294), convocations (R82..R85) and counters
(R326..R329). An access performs when its word issues, so a fence waits for no more than loads in flight, which the step
waits for, and for the acknowledgements of a flush (R166).
-/
namespace Sys2Proof.Machine

/-! ### Fences -/

/-- A release at system scope: every peer written is flushed, and the team is held until each has acknowledged, with the
flushes already under way (R166, R287). -/
def State.systemRelease (s : State) : State :=
  if s.quiet then s
  else
    let f := s.startFlush s.hub.written none (some s.team.uid)
    f.2.stall (.flush f.1)

/-- The issuing core's L1 drops its lines of global and private data (R287). -/
def State.dropL1 (s : State) : State :=
  { s with caches := s.caches.clearL1 s.team.core }

/-- A releasing fence has issued: an XCNT that issues next is a release (R152). -/
def State.fenceDone (s : State) : State := { s.retireCtl with team := { s.retireCtl.team with fenced := true } }

/-- FENCE.rel. -/
def execFenceRel (r : Nat) (s : State) : Host.Outcome State Fault Refusal :=
  answer s (.ok (if r = 5 then s.fenceDone.systemRelease else s.fenceDone))

/-- FENCE.acq. -/
def execFenceAcq (r : Nat) (s : State) : Host.Outcome State Fault Refusal :=
  answer s (.ok (if 2 ≤ r then s.retireCtl.dropL1 else s.retireCtl))

/-- FENCE.ar. -/
def execFenceAr (r : Nat) (s : State) : Host.Outcome State Fault Refusal :=
  answer s (.ok (
    let t := if 2 ≤ r then s.fenceDone.dropL1 else s.fenceDone
    if r = 5 then t.systemRelease else t))

/-! ### Block and cluster barriers (R288..R291) -/

/-- The clk a wait of code W may take (R290). -/
def waitLimit (w : Nat) : Option Nat := if w = 0 then none else some (2 ^ w)

/-- A wait with a timeout begins. -/
def State.timedWait (s : State) (w : Nat) (x : Wait) : State :=
  let t := s.beginWait true x
  { t with team := { t.team with timeout := waitLimit w } }

/-- The status of a wait that completes at its issue goes to its predicate in the active lanes (R290). -/
def State.waitDone (s : State) (p : Nat) (status : Bool) : State :=
  (s.setP p s.team.lanes.active (if status then allLanes else 0)).retireCtl

/-- The latest arrival of the team is in a phase that has not completed: an arrive stalls (R289). -/
def State.arrivePending (s : State) (cl : Bool) (i : Nat) : Bool := s.barCount s.team cl i < s.team.barPhase cl i

/-- Record the team's arrival in the next phase of a barrier (R288, R289). -/
def State.recordArrival (s : State) (cl : Bool) (i : Nat) : State :=
  let a := s.barCount s.team cl i + 1
  let arr (l : List (Nat × Nat)) := (i, s.team.uid) :: l
  if cl then
    let t := s.modCluster s.blk.cid (fun c => { c with barArr := arr c.barArr })
    { t with team := { t.team with cbarA := smSet 0 t.team.cbarA i a } }
  else
    { s with blk := { s.blk with barArr := arr s.blk.barArr }
             team := { s.team with barA := smSet 0 s.team.barA i a } }

/-- arrive. -/
def State.arrive (s : State) (cl : Bool) (i : Nat) : State :=
  if s.arrivePending cl i then s.stall (.arrive cl i) else (s.recordArrival cl i).retireCtl

/-- wait. -/
def State.waitPhase (s : State) (cl : Bool) (w p i : Nat) : State :=
  if s.arrivePending cl i then s.timedWait w (.barrier cl i p) else s.waitDone p false

/-- The block has a barrier of this id (R291). -/
def State.barOk (s : State) (i : Nat) : Except FaultInfo Unit := need (i < s.blk.k.bars) (s.flt .illegalInstruction)

/-- BAR.sync: arrive, then wait. -/
def execBarSync (w p i : Nat) (s : State) : Host.Outcome State Fault Refusal :=
  answer s (do
    s.barOk i
    if s.arrivePending false i then return s.stall (.arrive false i)
    else return (s.recordArrival false i).timedWait w (.barrier false i p))

/-- BAR.arrive. -/
def execBarArrive (i : Nat) (s : State) : Host.Outcome State Fault Refusal :=
  answer s (do s.barOk i; return s.arrive false i)

/-- BAR.wait. -/
def execBarWait (w p i : Nat) (s : State) : Host.Outcome State Fault Refusal :=
  answer s (do s.barOk i; return s.waitPhase false w p i)

/-- CBARA. -/
def execCbara (i : Nat) (s : State) : Host.Outcome State Fault Refusal := answer s (.ok (s.arrive true i))

/-- CBARW. -/
def execCbarw (w p i : Nat) (s : State) : Host.Outcome State Fault Refusal := answer s (.ok (s.waitPhase true w p i))

/-! ### Phase barriers (R292, R293) -/

/-- The place of a phase barrier object: scratchpad or cluster-shared space, 16 bytes. -/
def State.phaseObject (s : State) (p : Word64) : Except FaultInfo Place := do
  let pl ← s.accessOne .atomic p 16 16
  need (match pl with | .spad _ _ => true | .dev _ => false) (s.fltAt .spaceInvalid 0 p)
  s.notPoisoned 0 p pl
  return pl

/-- A global or private address is refused before it is translated (R293), and so before its alignment is looked at (log 51). -/
def State.localSpace (s : State) (p : Word64) : Except FaultInfo Unit :=
  need (p.toNat / 2 ^ 56 = 0xF1 || p.toNat / 2 ^ 56 = 0xF2) (s.fltAt .spaceInvalid 0 p)

/-- PBARA. -/
def execPbara (d : Nat) (s : State) : Host.Outcome State Fault Refusal :=
  answer s (do
    s.localSpace (s.getS d)
    let pl ← s.phaseObject (s.getS d)
    let r := s.arrivePhase pl false
    return (r.2.setS (d + 1) (BitVec.ofNat 64 r.1.toNat)).retireCtl)

/-- PBWAIT. -/
def execPbwait (d p w : Nat) (s : State) : Host.Outcome State Fault Refusal :=
  answer s (do
    s.localSpace (s.getS d)
    let pl ← s.phaseObject (s.getS d)
    let x := BitVec.ofNat 32 (s.getS (d + 1)).toNat
    if phasePast (BitVec.ofNat 32 (s.readAt (pl.plus 8) 4)) x
    then return s.waitDone p ((s.readAt (pl.plus 12) 4).testBit 0)
    else match pl with
      | .spad bid off => return s.timedWait w (.phase bid off x p (s.getS d))
      | .dev _ => return s)

/-- A timed wait ends without its phase: status true, and the arrival stays (R290). -/
def Team.timeOut (t : Team) : Team :=
  match t.phase with
  | .waiting (.barrier _ _ p) => t.finishWait p true
  | .waiting (.phase _ _ _ p _) => t.finishWait p true
  | _ => t

/-- BARRIER_TIMEOUT: a timed wait whose clk have run out reports true and goes on. It is the last thing of its clk, so that a
completion in that clk would have come first (R290). -/
def execBarrierTimeout (s : State) : Host.Outcome State Fault Refusal :=
  .next (if s.team.timeout = some 0 then { s with team := s.team.timeOut, lastOfClk := true } else s)

/-! ### Convocations (R82, R83, R85) -/

/-- The members of a forming convocation in ascending section order. -/
def State.bySection (s : State) (us : List Nat) : List Nat :=
  (sortBy (fun a b => a.section_ ≤ b.section_) (us.filterMap s.findTeam)).map Team.uid

/-- A convocation forms: every member gets its index; those that wait go on as their waits end (R83). -/
def State.formConv (s : State) (cv n mode : Nat) (us : List Nat) : State :=
  let ms := s.bySection us
  let c : Convocation :=
    { cv := cv, n := n, mode := mode, formed := true, dissolved := false, members := ms, broken := false, issues := [] }
  let t : State := { s with blk := { s.blk with convs := s.blk.convs.filter (fun x => x.cv != cv) ++ [c] } }
  t.mapTeams (fun x =>
    if ms.contains x.uid then
      { x with mat := { x.mat with member := some { cv := cv, index := ms.findIdx (fun u => u == x.uid), step := 0 } } }
    else x)

/-- The teams that already wait on a cv refuse this one: another n or mode, an occupied section, another core (R83). One that
is suspended counts with the section and core it last had (log 98). -/
def State.convConflict (s : State) (c : Convocation) (n mode : Nat) : Bool :=
  c.n != n || c.mode != mode || c.members.any (fun u => match s.findTeam u with
    | some t => t.section_ == s.team.section_ || t.core != s.team.core
    | none => false)

/-- The team leaves its convocation by DISB, which is dissolved; teams that wait for its next word fault (R85). -/
def State.leaveConv (s : State) : State :=
  match s.team.mat.member with
  | none => s
  | some m =>
    let t := s.withMat { s.team.mat with member := none }
    match s.blk.findConv m.cv with
    | none => t
    | some c =>
      let left := c.members.filter (fun u => u != s.team.uid)
      let b := if left.isEmpty then { t.blk with convs := t.blk.convs.filter (fun x => x.cv != m.cv) }
        else t.blk.modConv m.cv (fun x => { x with members := left, dissolved := true, issues := [] })
      ({ t with blk := b } : State).faultAll (left.filter (fun u => c.issues.any (fun i => i.uid == u))) .convMismatch

/-- CONV. -/
def execConv (m n c : Nat) (s : State) : Host.Outcome State Fault Refusal :=
  answer s (
    if c = 0 then .ok s.retireCtl.leaveConv
    else if s.team.mat.member.isSome then .error (s.flt .convMismatch)
    else match s.blk.findConv c with
      | some x =>
        if x.formed then .error (s.flt .convMismatch)
        else if s.convConflict x n m then
          let t : State := { s with blk := { s.blk with convs := s.blk.convs.filter (fun y => y.cv != c) } }
          .ok ((x.members.foldl (State.mismatchWaiter c) t).faultIn s.team.uid (s.flt .convMismatch))
        else if x.members.length + 1 = n then
          .ok (s.formConv c n m (x.members ++ [s.team.uid])).retireCtl
        else
          let t : State := { s with blk := s.blk.modConv c (fun y => { y with members := y.members ++ [s.team.uid] }) }
          .ok (t.beginWait true (.conv c n m))
      | none =>
        if n = 1 then .ok (s.formConv c n m [s.team.uid]).retireCtl
        else
          let x : Convocation :=
            { cv := c, n := n, mode := m, formed := false, dissolved := false, members := [s.team.uid], broken := false
              issues := [] }
          let t : State := { s with blk := { s.blk with convs := s.blk.convs ++ [x] } }
          .ok (t.beginWait true (.conv c n m)))

/-- DISB (R85, R214). -/
def execDisb (s : State) : Host.Outcome State Fault Refusal := answer s (.ok s.retireCtl.leaveConv)

/-! ### Counters (R327..R329) -/

/-- An arrival counter lies in a region's grant (R322, R327). -/
def grants (r : Option Region) (c : Nat) : Bool := r.any (fun r => r.acBase ≤ c && c < r.acBase + r.acCount)

/-- An arrival counter lies in the grant of the team's region (R322, R327), as its block was placed under it (R371). -/
def State.grantOk (s : State) (c : Nat) : Bool := grants s.teamRegion c

/-- A selector names a counter that the team may reach (R327). -/
def State.selectorOk (s : State) (sel : Nat) : Bool :=
  sel < 2 ^ 11 &&
  (if sel.testBit 10 then sel % 1024 < s.blk.d.ccount && sel % 1024 < 64 else s.grantOk (sel % 1024))

/-- COUNT as XCNT returns it: ERR of a completion counter at bit 63. -/
def State.oldCount (s : State) (sel : Nat) : Word64 :=
  let r := s.countErr s.team.bid sel
  BitVec.ofNat 64 (r.1 + if r.2 then 2 ^ 63 else 0)

/-- XCNT: one atomic at the counter, with the sends it fires (R328, R338). Right after a releasing fence it is a release at the
counter's scope: at an arrival counter, of the system, so that it waits for a flush of every peer written (R152, R161, R166). -/
def State.xcnt (s : State) (a c : Nat) (f : Nat × Bool → Nat × Bool) : Except FaultInfo State := do
  s.hazardCheck
  let sel := (s.getS a).toNat
  need (s.selectorOk sel) (s.flt .descriptor)
  if s.team.fenced && !sel.testBit 10 && !s.quiet then
    return { s with team := { s.team with fenced := false } }.systemRelease
  let y := f (s.countErr s.team.bid sel)
  let t := (s.setCounter s.team.bid sel y.1 y.2).setS c (s.oldCount sel)
  return (if sel.testBit 10 then t else t.fireArmed sel).retire

/-- XCNT.set. -/
def execXcntSet (a b c : Nat) (s : State) : Host.Outcome State Fault Refusal :=
  answer s (s.xcnt a c (fun _ => ((s.getS b).toNat, false)))

/-- XCNT.add. -/
def execXcntAdd (a b c : Nat) (s : State) : Host.Outcome State Fault Refusal :=
  answer s (s.xcnt a c (fun x => (x.1 + (s.getS b).toNat, x.2)))

/-- XWAIT, or its test form. -/
def State.xwait (s : State) (test : Bool) (a b c : Nat) : Except FaultInfo State := do
  s.hazardCheck
  let sel := (s.getS a).toNat
  need (s.selectorOk sel) (s.flt .descriptor)
  let r := s.countErr s.team.bid sel
  let th := (s.getS b).toNat
  if th ≤ r.1 then return (s.setS c (if r.2 then 2 else 0)).retire
  else if test then return (s.setS c 1).retire
  else return s.beginWait false (.counter c sel th)

/-- XWAIT. -/
def execXwait (a b c : Nat) (s : State) : Host.Outcome State Fault Refusal := answer s (s.xwait false a b c)

/-- XWAIT.test. -/
def execXwaitTest (a b c : Nat) (s : State) : Host.Outcome State Fault Refusal := answer s (s.xwait true a b c)

end Sys2Proof.Machine
end

