-- ==== Sys2Proof/Machine/Matrix.lean ====
section
/-!
DEFINITION. The matrix side: claims (R295..R297), slots and their loads (R298..R307), TST (R308), matrix steps
(R309..R314), AMOV and AZERO (R315..R317), AQNT (R318, R319), and the events that complete them.
-/
namespace Sys2Proof.Machine

/-! ### Claims (R295..R297) -/

/-- Slots (or tiles) bound by the teams of a block on one core, and what its reservation there leaves free. -/
def State.claimFree (s : State) (slots : Bool) (bid core : Nat) : Nat :=
  match s.findBlock bid with
  | none => 0
  | some b =>
    let used := ((s.blockTeams bid).filter (fun t => t.core == core)).map (fun t =>
      if slots then t.mat.slots.length else t.mat.tiles.length)
    (if slots then b.k.slots else b.k.accs) - used.sum

/-- The team holds claims (R295). -/
def Team.holdsClaims (t : Team) : Bool := !t.mat.slots.isEmpty || !t.mat.tiles.isEmpty

/-- A slot in state Zero, with the record of R307. -/
def Slot.zero : Slot :=
  { kind := .zero, codes := [], scales := [], fmt := 0, kc := 0, word0 := 0x300000000, word1 := 0, word2 := 0
    word3 := 16, idle := 0 }

/-- Bind names: slots in state Zero, tiles of +0.0. -/
def Team.bind (t : Team) (slots : Bool) (names : List Nat) : Team :=
  if slots then { t with mat := { t.mat with slots := t.mat.slots ++ names.map (fun n => (n, Slot.zero)) } }
  else { t with mat := { t.mat with tiles := t.mat.tiles ++ names.map (fun n => (n, [])) } }

/-- A name is bound. -/
def Team.bound (t : Team) (slots : Bool) (n : Nat) : Bool :=
  if slots then t.mat.slots.any (fun x => x.1 == n) else t.mat.tiles.any (fun x => x.1 == n)

/-- The names first .. first+count-1. -/
def nameRange (first count : Nat) : List Nat := (List.range count).map (fun i => first + i)

/-- The team in focus joins a claim queue: behind those that claimed in an earlier clk, and among those of this clk in ascending
TEAMINBLOCK (R296). -/
def State.joinQueue (s : State) (q : List (Nat × Nat)) : List (Nat × Nat) :=
  let tib (uid : Nat) : Nat := match s.findTeam uid with | some t => t.tib | none => 0
  let first := q.takeWhile (fun u => u.2 < s.clk || tib u.1 < s.team.tib)
  first ++ (s.team.uid, s.clk) :: q.drop first.length

/-- `claim` (R296). -/
def State.claim (s : State) (slots try_ : Bool) (status count first : Nat) : Except FaultInfo State := do
  s.hazardCheck
  let names := nameRange first count
  need (first + count ≤ (if slots then 32 else 16) && count ≤ (if slots then s.blk.k.slots else s.blk.k.accs))
    (s.flt .claimRange)
  need (try_ || !s.team.holdsClaims) (s.flt .claimNested)
  if names.any (s.team.bound slots) then return (s.setS status 2).retire
  else if s.claimFree slots s.team.bid s.team.core < count then
    if try_ then return (s.setS status 1).retire
    else
      let b := if slots then { s.blk with slotQueue := s.joinQueue s.blk.slotQueue }
        else { s.blk with tileQueue := s.joinQueue s.blk.tileQueue }
      return ({ s with blk := b } : State).beginWait false (.claim slots first count status)
  else return (({ s with team := s.team.bind slots names } : State).setS status 0).retire

/-- TCLM: STATUS, COUNT, FIRST. -/
def execTclm (r n f : Nat) (s : State) : Host.Outcome State Fault Refusal := answer s (s.claim true false r n f)

/-- TCLM.try. -/
def execTclmTry (r n f : Nat) (s : State) : Host.Outcome State Fault Refusal := answer s (s.claim true true r n f)

/-- ACLM. -/
def execAclm (r n f : Nat) (s : State) : Host.Outcome State Fault Refusal := answer s (s.claim false false r n f)

/-- ACLM.try. -/
def execAclmTry (r n f : Nat) (s : State) : Host.Outcome State Fault Refusal := answer s (s.claim false true r n f)

/-- Release names (R297). -/
def State.release (s : State) (slots : Bool) (count first : Nat) : Except FaultInfo State := do
  s.hazardCheck
  let names := nameRange first count
  need (first + count ≤ if slots then 32 else 16) (s.flt .claimRange)
  need (names.all (s.team.bound slots)) (s.flt .slotState)
  let m := s.team.mat
  return (s.withMat (if slots then { m with slots := m.slots.filter (fun x => !names.contains x.1) }
    else { m with tiles := m.tiles.filter (fun x => !names.contains x.1) })).retire

/-- TREL. -/
def execTrel (n f : Nat) (s : State) : Host.Outcome State Fault Refusal := answer s (s.release true n f)

/-- AREL. -/
def execArel (n f : Nat) (s : State) : Host.Outcome State Fault Refusal := answer s (s.release false n f)

/-- The claim of the team in focus heads the queue of its store: on a twin pair each core has a store of its own (R295, R296). -/
def State.headsQueue (s : State) (q : List (Nat × Nat)) : Bool :=
  (q.map Prod.fst).find? (fun u => match s.findTeam u with | some t => t.core == s.team.core | none => false) == some s.team.uid

/-- CLAIM_GRANT: the waiting claim of the team in focus binds its names, if it heads its queue and enough are free (R296). -/
def execClaimGrant (s : State) : Host.Outcome State Fault Refusal :=
  .next (match s.team.phase with
    | .waiting (.claim slots first count status) =>
      let q := if slots then s.blk.slotQueue else s.blk.tileQueue
      if s.headsQueue q && count ≤ s.claimFree slots s.team.bid s.team.core then
        let rest := q.filter (fun u => u.1 != s.team.uid)
        let b := if slots then { s.blk with slotQueue := rest } else { s.blk with tileQueue := rest }
        { s with blk := b, team := ((s.team.bind slots (nameRange first count)).finishWait 0 false).setS status 0 }
      else s
    | _ => s)

/-! ### Slots (R298, R300, R127) -/

/-- The slot of a name. -/
def State.slot (s : State) (n : Nat) : Option Slot := (s.team.mat.slots.find? (fun x => x.1 == n)).map Prod.snd

/-- The slot of a name, or SLOT_STATE. -/
def State.slotAt (s : State) (n : Nat) : Except FaultInfo Slot :=
  match s.slot n with | some x => .ok x | none => .error (s.flt .slotState)

/-- Replace a bound slot. -/
def Matrix.putSlot (m : Matrix) (n : Nat) (x : Slot) : Matrix :=
  { m with slots := m.slots.map (fun y => if y.1 = n then (n, x) else y) }

/-- A tile of a name, or SLOT_STATE. -/
def State.tileAt (s : State) (n : Nat) : Except FaultInfo Tile :=
  match s.team.mat.tiles.find? (fun x => x.1 == n) with | some x => .ok x.2 | none => .error (s.flt .slotState)

/-- Replace a bound tile. -/
def Matrix.putTile (m : Matrix) (n : Nat) (x : Tile) : Matrix :=
  { m with tiles := m.tiles.map (fun y => if y.1 = n then (n, x) else y) }

/-- K of a K code (R299). -/
def kOf (kc : Nat) : Nat := 32 * 2 ^ kc

/-- Bits of an element's storage, and of its code. -/
def Slot.store (x : Slot) : Nat := if x.kc = 0 then 16 else (blockFmt x.fmt).storage
/-- Bits of an element's code. -/
def Slot.width (x : Slot) : Nat := if x.kc = 0 then 16 else (blockFmt x.fmt).width
/-- The slot holds scales: block data whose format carries them. -/
def Slot.scaled (x : Slot) : Bool := x.kc ≠ 0 && (blockFmt x.fmt).blk ≠ 2

/-- Code of an element. -/
def Slot.code (x : Slot) (line k : Nat) : Nat := smGet 0 x.codes (128 * line + k)

/-- Sector `line` of the dense image of the effective tile, and its side-band (R127, R308). -/
def Slot.sector (x : Slot) (line : Nat) : BitVec 512 × SideBand :=
  (BitVec.ofNat 512 ((List.range (kOf x.kc)).foldl (fun n k => n + x.code line k * 2 ^ (x.store * k)) 0),
   BitVec.ofNat 64 ((List.range 8).foldl (fun n b => n + smGet 0 x.scales (8 * line + b) * 2 ^ (8 * b)) 0))

/-- The codes and scales of 32 sectors of a dense image (R127): bits and side-band bytes that no element uses are ignored. -/
def Slot.fill (x : Slot) (lines : List (Nat × Nat)) : Slot :=
  let line (i : Nat) := lines.getD i (0, 0)
  { x with
    codes := smTable 0 4096 (fun i =>
      if i % 128 < kOf x.kc then field (line (i / 128)).1 (x.store * (i % 128)) x.width else 0)
    scales := smTable 0 256 (fun i =>
      if x.scaled && i % 8 < kOf x.kc / 16 then field (line (i / 8)).2 (8 * (i % 8)) 8 else 0) }

/-- A sector of the dense image is written, with its side-band: every storage bit of an element is kept (R127, R316). -/
def Slot.putSector (x : Slot) (line data side : Nat) : Slot :=
  { x with
    codes := smSetAll 0 x.codes ((List.range (kOf x.kc)).map (fun k => (128 * line + k, field data (x.store * k) x.store)))
    scales := smSetAll 0 x.scales ((List.range (kOf x.kc / 16)).map (fun b =>
      (8 * line + b, if x.scaled then field side (8 * b) 8 else 0))) }

/-- Values of block `b` of a line, of the effective tile (R36, R48, R300). -/
def Slot.values (x : Slot) (line b : Nat) : List FloatVal :=
  let cs := (List.range 16).map (fun i => x.code line (16 * b + i) % 2 ^ x.width)
  if x.kind = .zero then cs.map (fun _ => .fin false 0 0)
  else if x.kc = 0 then cs.map (if x.fmt = 0 then binary16.decode else bfloat16.decode)
  else (blockFmt x.fmt).values (smGet 0 x.scales (8 * line + b)) cs

/-- The element data that TLD is given is legal (R300). -/
def slotFormatOk (kc : Nat) (v : Word64) : Bool :=
  let w := v.toNat % 2 ^ 32
  match kc with
  | 0 => v.toNat < 2
  | 1 => fmtValid w false false
  | _ => fmtValid w false false && (blockFmt w).storage = 4

/-- FMT of the record: the format word, or the 16-bit type code (R307). -/
def slotFmt (v : Word64) : Nat := v.toNat % 2 ^ 32

/-! ### The decomposition control word and costs (R303, R306) -/

/-- A DCW is valid. -/
def dcwOk (d : Word64) : Bool :=
  let n := d.toNat
  n < 2 ^ 32 && !n.testBit 15 && field n 8 7 ≤ 64 && 1 ≤ field n 4 3 && field n 4 3 ≤ 4 && field n 2 2 < 3 && field n 0 2 ≠ 0

/-- N and M. -/
def dcwN (d : Word64) : Nat := field d.toNat 0 2
/-- M. -/
def dcwM (d : Word64) : Nat := 4 * 2 ^ field d.toNat 2 2

/-- The dense step time D of a slot's operands (R26, R306). -/
def Slot.denseTime (x : Slot) : Nat := if x.kc = 1 && x.store = 4 then 8 else 16

/-- `termcost`. -/
def Slot.termCost (x : Slot) (n m : Nat) : Nat := max 4 (4 * ceilDiv (x.denseTime * n) (4 * m))

/-! ### Decomposition (R304) -/

/-- A key that orders magnitudes of one tile: an infinity is largest. -/
def magKey : FloatVal → Nat
  | .fin _ m e => m * 2 ^ (e + 400).toNat
  | .inf _ => 2 ^ 2000
  | .nan _ => 0

/-- The nonzero elements of a group, by magnitude descending, then by k. -/
def rankGroup (val : Nat → FloatVal) (ks : List Nat) : List Nat :=
  sortBy (fun a b => magKey (val b) < magKey (val a) || (magKey (val a) == magKey (val b) && a ≤ b))
    (ks.filter (fun k => magKey (val k) ≠ 0))

/-- `masssum`: binary32, every step rounded to nearest even. -/
def massSum (xs : List FloatVal) : Nat :=
  xs.foldl (fun m x =>
    let a := (binary32.ofVal 0 0 (match x with | .fin _ n e => .fin false n e | .inf _ => .inf false | y => y)).1
    (binary32.add 0 0 m a).1) 0

/-- mres · 65,536 ≤ BOUND · mtot, exactly, for finite masses. -/
def withinBound (mres mtot bound : Nat) : Bool :=
  match binary32.decode mres, binary32.decode mtot with
  | .fin _ a ea, .fin _ b eb => a * 65536 * 2 ^ (ea + 200).toNat ≤ bound * b * 2 ^ (eb + 200).toNat
  | _, _ => false

/-- Record word 1 (R307). -/
def recordWord1 (m n : Nat) (fnan fbk dropped : Bool) (rcnt teff : Nat) : Word64 :=
  BitVec.ofNat 64 (teff + min rcnt 127 * 2 ^ 3 + (if dropped then 2 ^ 10 else 0) + (if fbk then 2 ^ 11 else 0)
    + (if fnan then 2 ^ 12 else 0) + n * 2 ^ 16 + m * 2 ^ 24)

/-- Record word 3. -/
def recordWord3 (idle cost : Nat) : Word64 := BitVec.ofNat 64 (min idle 0xFFFF * 2 ^ 16 + cost)

/-- Elements as (line, k), row-major. -/
def tileElems (kc : Nat) : List (Nat × Nat) :=
  (List.range 32).flatMap (fun r => (List.range (kOf kc)).map (fun k => (r, k)))

/-- `decompose` (R304) on a slot that holds a dense tile. -/
def Slot.decompose (x : Slot) (d : Word64) : Slot :=
  let n := dcwN d
  let m := dcwM d
  let tmax := field d.toNat 4 3
  let rows := (List.range 32).map (fun r => (List.range (kOf x.kc / 16)).flatMap (fun b => x.values r b))
  let val (r k : Nat) : FloatVal := (rows.getD r []).getD k (.fin false 0 0)
  if rows.any (fun vs => vs.any FloatVal.isNan) then
    { x with kind := .dense, word1 := recordWord1 m n true false false 0 0, word2 := 0
             word3 := recordWord3 0 x.denseTime, idle := 0 }
  else
    let groups := (List.range 32).flatMap (fun r => (List.range (kOf x.kc / m)).map (fun g =>
      (r, rankGroup (val r) ((List.range m).map (fun i => m * g + i)))))
    let tg (ks : List Nat) : Nat := min (ceilDiv ks.length n) tmax
    let teff := (groups.map (fun g => tg g.2)).foldl max 0
    let res := groups.flatMap (fun g => (sortBy (fun a b => a ≤ b) (g.2.drop (tmax * n))).map (fun k => (g.1, k)))
    let mass (es : List (Nat × Nat)) := massSum (es.map (fun e => val e.1 e.2))
    let mtot := mass ((tileElems x.kc).filter (fun e => magKey (val e.1 e.2) ≠ 0))
    let mres := mass res
    if field d.toNat 8 7 < res.length then
      { x with kind := .dense, word1 := recordWord1 m n false true false res.length 0
               word2 := BitVec.ofNat 64 (mtot * 2 ^ 32), word3 := recordWord3 0 x.denseTime, idle := 0 }
    else
      let dropped := d.toNat.testBit 7 && withinBound mres mtot (field d.toNat 16 16)
      let tc := x.termCost n m
      let cost := max 4 (teff * tc + if dropped then 0 else ceilDiv res.length 2)
      let idle := (groups.map (fun g => (teff - tg g.2) * tc)).sum
      { x with
        kind := .decomposed
        codes := if dropped then smSetAll 0 x.codes (res.map (fun e => (128 * e.1 + e.2, 0))) else x.codes
        word1 := recordWord1 m n false false dropped res.length teff
        word2 := BitVec.ofNat 64 (mtot * 2 ^ 32 + if dropped then mres else 0)
        word3 := recordWord3 idle cost, idle := idle }

/-! ### Pre-compressed images (R302) -/

/-- The positions of a line's entries ascend within each group and lie in it; bits above the last entry are zero. -/
def positionsOk (n m entries pos : Nat) : Bool :=
  pos < 2 ^ (4 * entries) && (List.range entries).all (fun e =>
    let p := field pos (4 * e) 4
    p < m && (e % n = 0 || field pos (4 * (e - 1)) 4 < p))

/-- The dense sectors of a pre-compressed image: values at k = M·g + position, +0 elsewhere; scales as given. -/
def expandLine (store n m entries vals pos : Nat) : Nat :=
  (List.range entries).foldl (fun x e =>
    x + field vals (store * e) store * 2 ^ (store * (m * (e / n) + field pos (4 * e) 4))) 0

/-! ### TLD (R299..R302) and TST (R308) -/

/-- The place of a tile image: own scratchpad or cluster-shared space, `range` bytes (R301 step 2). -/
def State.imagePlace (s : State) (k : AccKind) (p : Word64) (range : Nat) : Except FaultInfo (Nat × Nat) := do
  s.localSpace p
  match (← s.accessOne k p range 64) with
  | .spad bid off => return (bid, off)
  | .dev _ => .error (s.fltAt .spaceInvalid 0 p)

/-- Sectors of an image as numbers, data and side-band. -/
def State.imageLines (s : State) (at_ : Nat × Nat) (n : Nat) : List (Nat × Nat) :=
  (List.range n).map (fun j =>
    let p := Place.spad at_.1 (at_.2 + 64 * j)
    (s.readAt p 64, (s.sideAt p).toNat))

/-- A transfer starts; what it moves is final when it completes (R301). -/
def State.startTransfer (s : State) (x : TileTransfer) : State :=
  s.withMat { s.team.mat with transfers := s.team.mat.transfers ++ [x] }

/-- TLD up to the making of the slot: checks 1 to 4 and the data; `mode` 0 dense, 1 decompose, 2 pre-compressed.
Poison of the image is met after check 4 and before check 5, an order that R301 leaves open (log 112). -/
def State.tld (s : State) (mode t b f kc : Nat) (make : Slot → List (Nat × Nat) → Except FaultInfo Slot) :
    Except FaultInfo State := do
  s.hazardCheck
  let _ ← s.slotAt t
  let p := s.getS b
  let n := if mode = 2 then 64 else 32
  let at_ ← s.imagePlace .load p (64 * n)
  need (slotFormatOk kc (s.getS f)) (s.flt .slotState)
  need (mode = 0 || dcwOk s.team.sp.dcw) (s.flt .slotState)
  need ((List.range n).all (fun j => !s.poisonAt (.spad at_.1 (at_.2 + 64 * j)))) (s.fltAt .memoryPoison 0 p)
  let x : Slot := { Slot.zero with
    kind := .dense, fmt := slotFmt (s.getS f), kc := kc
    word0 := BitVec.ofNat 64 (slotFmt (s.getS f) + mode * 2 ^ 32 + kc * 2 ^ 34) }
  let x : Slot := { x with word3 := recordWord3 0 x.denseTime }
  let y ← make x (s.imageLines at_ n)
  return (s.startTransfer (.load t y)).retire

/-- TLD dense. -/
def execTldDense (t b f k : Nat) (s : State) : Host.Outcome State Fault Refusal :=
  answer s (s.tld 0 t b f k (fun x lines => .ok (x.fill lines)))

/-- TLD decompose. -/
def execTldDec (t b f k : Nat) (s : State) : Host.Outcome State Fault Refusal :=
  answer s (s.tld 1 t b f k (fun x lines => .ok ((x.fill lines).decompose s.team.sp.dcw)))

/-- TLD pre-compressed. -/
def execTldPcs (t b f k : Nat) (s : State) : Host.Outcome State Fault Refusal :=
  answer s (s.tld 2 t b f k (fun x lines =>
    let n := dcwN s.team.sp.dcw
    let m := dcwM s.team.sp.dcw
    let entries := kOf k * n / m
    let pos (j : Nat) := (lines.getD (32 + j) (0, 0)).1
    if (List.range 32).all (fun j => positionsOk n m entries (pos j)) then
      let dense := (List.range 32).map (fun j =>
        let l := lines.getD j (0, 0)
        (expandLine x.store n m entries l.1 (pos j), l.2))
      .ok { x.fill dense with kind := .structured, word1 := recordWord1 m n false false false 0 1
                              word3 := recordWord3 0 (x.termCost n m) }
    else .error (s.flt .slotState)))

/-- A whole sector of a transfer. -/
def wholeSector (off : Nat) (x : BitVec 512 × SideBand) : ImageSector :=
  { off := off, data := x.1, mask := BitVec.allOnes 512, side := x.2, sideMask := BitVec.allOnes 64 }

/-- TST. -/
def execTst (t b : Nat) (s : State) : Host.Outcome State Fault Refusal :=
  answer s (do
    s.hazardCheck
    let x ← s.slotAt t
    let at_ ← s.imagePlace .store (s.getS b) 2048
    let secs := (List.range 32).map (fun j => wholeSector (at_.2 + 64 * j) (x.sector j))
    return (s.startTransfer (.image at_.1 secs 0)).retire)

/-- Write a sector of a transfer into a scratchpad, as one unit (R147). -/
def State.writeImage (s : State) (bid : Nat) (x : ImageSector) : State :=
  let p := Place.spad bid x.off
  let data := (s.sectorAt p &&& ~~~x.mask) ||| (x.data &&& x.mask)
  let side := (s.sideAt p &&& ~~~x.sideMask) ||| (x.side &&& x.sideMask)
  if x.mask = BitVec.allOnes 512 then s.writeSector p data side
  else (s.writeAt p 64 data.toNat).writeSide p side

/-- TILE_TRANSFER_COMPLETE: the team's oldest transfer is final (R301, R308, R319). -/
def execTileTransferComplete (s : State) : Host.Outcome State Fault Refusal :=
  .next (match s.team.mat.transfers with
    | [] => s
    | x :: rest =>
      let m := { s.team.mat with transfers := rest }
      match x with
      | .load n y => s.withMat (m.putSlot n y)
      | .image bid secs fl => (secs.foldl (fun t x => t.writeImage bid x) (s.withMat m)).raise fl)

/-! ### Matrix steps (R309..R314, R84) -/

/-- Of `n` matrix steps, those that fall in what is left of the core's free allowance of this window (R395). -/
def State.freeRest (s : State) (n : Nat) : Nat := min n (256 - smGet 0 s.freeSteps s.team.core)

/-- Tokens for `n` matrix steps: the core's free allowance first, then the team's (R395); `none`: the team stalls until the rest
is granted. A word that has been granted issues. -/
def State.payLeave (s : State) (n : Nat) : Option State :=
  let due := n - s.freeRest n
  if due ≤ s.team.tokSteps || s.team.granted = some s.team.pc then
    some { s with freeSteps := smSet 0 s.freeSteps s.team.core (smGet 0 s.freeSteps s.team.core + s.freeRest n)
                  team := { s.team with tokSteps := s.team.tokSteps - due, granted := none } }
  else none

/-- The steps of one MMA or MMAS word: operand slot names and the destination, and whether each starts from zero. -/
structure StepReq where
  a : Nat
  b : Nat
  d : Nat
  fromZero : Bool
  deriving DecidableEq, Repr

/-- The pairs of a step and its destinations by owner: solo, or of the members of a convocation in index order (R311). -/
def stepPairs (mode : Nat) (ms : List Team) (r : StepReq) : Option (List (Team × List (Slot × Slot))) :=
  let slot (t : Team) (n : Nat) := (t.mat.slots.find? (fun x => x.1 == n)).map Prod.snd
  match ms with
  | [] => some []
  | t0 :: _ =>
    if mode = 1 then
      match ms.mapM (fun t => do return ((← slot t r.a), (← slot t r.b))) with
      | some ps => if t0.bound false r.d then some [(t0, ps)] else none
      | none => none
    else
      match slot t0 r.a with
      | none => none
      | some a => ms.mapM (fun t => do
          let b ← slot t r.b
          if t.bound false r.d then some (t, [(a, b)]) else none)

/-- K values agree, a Zero slot matching any, and at most one operand of a pair is Decomposed or Structured (R310). -/
def pairsOk (ps : List (Slot × Slot)) : Bool :=
  let ks := ((ps.flatMap (fun p => [p.1, p.2])).filter (fun x => x.kind ≠ .zero)).map Slot.kc
  ks.all (fun k => some k == ks.head?)
  && ps.all (fun p =>
    let sparse (x : Slot) : Bool := x.kind = .decomposed || x.kind = .structured
    !(sparse p.1 && sparse p.2))

/-- The slots that a step of an owner reads, each with the team that holds it (R311). -/
def stepReads (mode : Nat) (ms : List Team) (owner : Team) (r : StepReq) : List (Nat × Nat) :=
  if mode = 1 then ms.flatMap (fun t => [(t.uid, r.a), (t.uid, r.b)])
  else [((ms.head?.getD owner).uid, r.a), (owner.uid, r.b)]

/-- Begin the steps of a word for its members, every check before any step; `none`: SLOT_STATE in every member. -/
def beginSteps (mode : Nat) (ms : List Team) (rs : List StepReq) : Option (List (Nat × StepInFlight)) :=
  match rs.mapM (fun r => (stepPairs mode ms r).map (fun x => (r, x))) with
  | none => none
  | some xs =>
    if xs.all (fun x => pairsOk (x.2.flatMap Prod.snd)) then
      some (xs.flatMap (fun x => x.2.map (fun o =>
        (o.1.uid, { acc := x.1.d, fromZero := x.1.fromZero, reads := stepReads mode ms o.1 x.1, chunks := o.2 }))))
    else none

/-- Put begun steps to their owners. -/
def State.addSteps (s : State) (xs : List (Nat × StepInFlight)) : State :=
  s.mapTeams (fun t => { t with mat := { t.mat with
    steps := t.mat.steps ++ (xs.filter (fun x => x.1 == t.uid)).map Prod.snd } })

/-- Idle group-clk of the operands of begun steps (R306): in a gang's step the A slot of member 0 counts once for each
member (log 114). -/
def stepsIdle (xs : List (Nat × StepInFlight)) : Nat :=
  (xs.map (fun x => (x.2.chunks.map (fun c => c.1.idle + c.2.idle)).sum)).sum

/-- Steps that begin count at the core, with their idle groups and the steps that a bitmap skips (R445). -/
def State.countSteps (s : State) (xs : List (Nat × StepInFlight)) (skipped : Nat) : State :=
  (((s.addSteps xs).countCore 4 xs.length).countCore 5 skipped).countCore 6 (stepsIdle xs)

/-- A solo team's word. -/
def State.soloSteps (s : State) (rs : List StepReq) (skipped : Nat) : Except FaultInfo State :=
  match beginSteps 0 [s.team] rs with
  | none => .error (s.flt .slotState)
  | some xs => .ok (s.countSteps xs skipped).retire

/-- A member's word that waits for its step has issued once the step begins. -/
def Team.stepBegun (t : Team) : Team :=
  match t.phase with
  | .waiting (.step _) =>
    { t.finishWait 0 false with mat := { t.mat with member := t.mat.member.map (fun m => { m with step := m.step + 1 }) } }
  | _ => t

/-- The last member of a convocation issues its k-th word: every word must agree, the binding rule applies, and the step
begins for all (R84, R310, R311). -/
def State.gangSteps (s : State) (c : Convocation) (steps : List StepReq) (skipped : Nat) : Except FaultInfo State :=
  let ms := c.members.filterMap s.findTeam
  let others := c.members.filter (fun u => u != s.team.uid)
  let cleared : State := { s with blk := s.blk.modConv c.cv (fun x => { x with issues := [] }) }
  if c.issues.any (fun i => i.word != s.iss.word) then
    .ok (cleared.faultAll (others ++ [s.team.uid]) .convMismatch)
  else
    match beginSteps c.mode ms steps with
    | none => .ok (cleared.faultAll (others ++ [s.team.uid]) .slotState)
    | some xs =>
      let t := others.foldl (fun t u => t.modTeam u Team.stepBegun) cleared
      let u := (t.countSteps xs (skipped * if c.mode = 1 then 1 else ms.length)).retire
      .ok (u.withMat { u.team.mat with member := u.team.mat.member.map (fun m => { m with step := m.step + 1 }) })

/-- A uniform register of a team. -/
def Team.getS (t : Team) (n : Nat) : Word64 := if n < 192 then smGet 0 t.regs.s n else 0

/-- The team whose bitmap decides the steps of the team in focus: member 0 of its convocation, or itself (R314). -/
def State.leader (s : State) : Team :=
  ((s.team.mat.member.bind (fun m => s.blk.findConv m.cv)).bind (fun c => c.members.head?.bind s.findTeam)).getD s.team

/-- MMA and MMAS (R310, R314): the CV, the mask, leave for the steps that are not skipped, then the steps or the wait for the
other members. -/
def State.matrixWord (s : State) (cv : Option Nat) (steps : List StepReq) (skipped : Nat) : Except FaultInfo State := do
  s.hazardCheck
  let mine := match s.team.mat.member with | some m => m.cv | none => 0
  need (cv.all (fun c => c = mine)) (s.flt .convMismatch)
  need (s.team.lanes.active = firstLanes s.team.size) (s.flt .illegalConvergence)
  match s.payLeave steps.length with
  | none => return s.stall (.leave false (steps.length - s.freeRest steps.length))
  | some s =>
    match s.team.mat.member with
    | none => s.soloSteps steps skipped
    | some m =>
      match s.blk.findConv m.cv with
      | none => .error (s.flt .convMismatch)
      | some c =>
        need (!c.dissolved && !c.broken) (s.flt .convMismatch)
        if c.issues.length + 1 = c.n then s.gangSteps c steps skipped
        else
          let t : State := { s with blk := s.blk.modConv m.cv (fun x =>
            { x with issues := x.issues ++ [⟨s.team.uid, s.iss.word⟩] }) }
          return t.beginWait false (.step s.iss.word)

/-- MMA aD, tA, tB: the reuse hints change nothing (R309). -/
def execMma (d a b _x _y c : Nat) (s : State) : Host.Outcome State Fault Refusal :=
  answer s (s.matrixWord (some c) [⟨a, b, d, false⟩] 0)

/-- MMA.z starts from +0. -/
def execMmaZ (d a b _x _y c : Nat) (s : State) : Host.Outcome State Fault Refusal :=
  answer s (s.matrixWord (some c) [⟨a, b, d, true⟩] 0)

/-- The steps of an MMAS that its bitmap does not skip (R314). -/
def mmasSteps (d a b cnt : Nat) (skip : Word64) : List StepReq :=
  ((List.range (cnt + 1)).filter (fun i => !skip.getLsbD i)).map (fun i => ⟨a + i, b + i, d, false⟩)

/-- MMAS: steps over consecutive slots; in a convocation the bitmap is member 0's. -/
def execMmas (d a b n k : Nat) (s : State) : Host.Outcome State Fault Refusal :=
  let steps := mmasSteps d a b n (s.leader.getS k)
  answer s (s.matrixWord none steps (n + 1 - steps.length))

/-- The output tile of a step (R312) and its flags. -/
def StepInFlight.run (x : StepInFlight) (asat : Bool) (acc : Tile) : Tile × Byte :=
  let kc := (((x.chunks.flatMap (fun p => [p.1, p.2])).filter (fun y => y.kind ≠ .zero)).map Slot.kc).headD 0
  let nb := kOf kc / 16
  let vals (y : Slot) : List (List (List FloatVal)) :=
    (List.range 32).map (fun i => (List.range nb).map (fun b => y.values i b))
  let ch := x.chunks.map (fun p => (vals p.1, vals p.2))
  let out := (List.range 1024).map (fun n =>
    let terms := ch.flatMap (fun p => ((p.1.getD (n / 32) []).zip (p.2.getD (n % 32) [])).map (fun v => blockValue v.1 v.2))
    fusedSum asat terms (if x.fromZero then 0 else (smGet 0 acc n).toNat))
  (smTable 0 1024 (fun n => BitVec.ofNat 32 (out.getD n (0, 0)).1), flagsOr (out.map Prod.snd))

/-- MATRIX_STEP_DONE: the oldest begun step of the team writes its tile and sets its flags (R312, R49). -/
def execMatrixStepDone (s : State) : Host.Outcome State Fault Refusal :=
  .next (match s.team.mat.steps with
    | [] => s
    | x :: rest =>
      let acc := ((s.team.mat.tiles.find? (fun t => t.1 == x.acc)).map Prod.snd).getD []
      let r := x.run (s.team.sp.mode.getLsbD 12) acc
      (s.withMat ({ s.team.mat with steps := rest }.putTile x.acc r.1)).raise r.2)

/-! ### AMOV and AZERO (R315..R317) -/

/-- The checks of an AMOV word with a vector register. -/
def State.amovChecks (s : State) (v : Nat) : Except FaultInfo Unit := do
  s.hazardCheck
  need (s.windowOk false [v]) (s.flt .windowRange)

/-- The active lanes whose line, row0 + L/32, lies below `n`, with that line. -/
def State.amovLanes (s : State) (r n : Nat) : List (Nat × Nat) :=
  ((lanesOf s.team.size s.team.lanes.active).map (fun l => (l, (s.getS r).toNat + l / 32))).filter (fun x => x.2 < n)

/-- Read a tile into lanes; `idx` gives an element's place from the lane and its line. -/
def State.tileRead (s : State) (d x r : Nat) (idx : Nat → Nat → Nat) : Except FaultInfo State := do
  s.amovChecks d
  let t ← s.tileAt x
  return (s.putV d ((s.amovLanes r 32).map (fun p => (p.1, smGet 0 t (idx p.1 p.2))))).retire

/-- Write lanes into a tile. -/
def State.tileWrite (s : State) (v x r : Nat) (idx : Nat → Nat → Nat) : Except FaultInfo State := do
  s.amovChecks v
  let t ← s.tileAt x
  let new := smSetAll 0 t ((s.amovLanes r 32).map (fun p => (idx p.1 p.2, s.getV v p.1)))
  return (s.withMat (s.team.mat.putTile x new)).retire

/-- ARDR. -/
def execArdr (d x r : Nat) (s : State) : Host.Outcome State Fault Refusal :=
  answer s (s.tileRead d x r (fun l line => 32 * line + l % 32))

/-- ARDC. -/
def execArdc (d x r : Nat) (s : State) : Host.Outcome State Fault Refusal :=
  answer s (s.tileRead d x r (fun l line => 32 * (l % 32) + line))

/-- AWRR. -/
def execAwrr (d x r : Nat) (s : State) : Host.Outcome State Fault Refusal :=
  answer s (s.tileWrite d x r (fun l line => 32 * line + l % 32))

/-- AWRC. -/
def execAwrc (d x r : Nat) (s : State) : Host.Outcome State Fault Refusal :=
  answer s (s.tileWrite d x r (fun l line => 32 * (l % 32) + line))

/-- AZERO. -/
def execAzero (x : Nat) (s : State) : Host.Outcome State Fault Refusal :=
  answer s (do
    s.hazardCheck
    let _ ← s.tileAt x
    return (s.withMat (s.team.mat.putTile x [])).retire)

/-- The groups with an active lane whose sector, row0 + g, is 31 or less, with that sector. -/
def State.amovGroups (s : State) (r : Nat) : List (Nat × Nat) :=
  ((groupsOf s.team.size s.team.lanes.active).map (fun g => (g, (s.getS r).toNat + g))).filter (fun x => x.2 < 32)

/-- TRDR: slot sectors with their side-bands into groups (R316). -/
def execTrdr (d x r : Nat) (s : State) : Host.Outcome State Fault Refusal :=
  answer s (do
    s.amovChecks d
    let y ← s.slotAt x
    return (s.putGroups d ((s.amovGroups r).map (fun g =>
      let z := y.sector g.2
      (g.1, ⟨z.1.toNat, z.2.toNat, 0⟩)))).retire)

/-- K as TRDC reads it: 64 for a Zero slot (R316). -/
def Slot.readK (x : Slot) : Nat := if x.kind = .zero then 64 else kOf x.kc

/-- TRDC: element codes by column into lanes; every side-band of the register clears (R316). Stored bits above a code narrower
than the storage width are shown by TRDR and TST and left out here (log 113). -/
def execTrdc (d x r : Nat) (s : State) : Host.Outcome State Fault Refusal :=
  answer s (do
    s.amovChecks d
    let y ← s.slotAt x
    let t := s.putV d ((s.amovLanes r y.readK).map (fun p => (p.1, BitVec.ofNat 32 (y.code (p.1 % 32) p.2 % 2 ^ y.width))))
    return (t.setSide d ((List.range (s.team.size / 16)).map (fun g => (g, 0)))).retire)

/-- A slot that a write form may write: Dense (R316). -/
def State.denseSlot (s : State) (x : Nat) : Except FaultInfo Slot := do
  let y ← s.slotAt x
  need (y.kind = .dense) (s.flt .slotState)
  return y

/-- TWRR: groups with their side-bands into slot sectors (R316). -/
def execTwrr (d x r : Nat) (s : State) : Host.Outcome State Fault Refusal :=
  answer s (do
    s.amovChecks d
    let y ← s.denseSlot x
    let z := (s.amovGroups r).foldl (fun y g => y.putSector g.2 (s.group d g.1).data (s.group d g.1).side) y
    return (s.withMat (s.team.mat.putSlot x z)).retire)

/-- TWRC: lane codes into slot elements by column, as wide as an element is stored (R316). -/
def execTwrc (d x r : Nat) (s : State) : Host.Outcome State Fault Refusal :=
  answer s (do
    s.amovChecks d
    let y ← s.denseSlot x
    let ws := (s.amovLanes r (kOf y.kc)).map (fun p => (128 * (p.1 % 32) + p.2, (s.getV d p.1).toNat % 2 ^ y.store))
    return (s.withMat (s.team.mat.putSlot x { y with codes := smSetAll 0 y.codes ws })).retire)

/-! ### TINFO (R307) -/

/-- TINFO. -/
def execTinfo (d w x : Nat) (s : State) : Host.Outcome State Fault Refusal :=
  answer s (do
    s.hazardCheck
    let y ← s.slotAt x
    return (s.setS d (match w with | 0 => y.word0 | 1 => y.word1 | 2 => y.word2 | _ => y.word3)).retire)

/-! ### AQNT (R318, R319) -/

/-- An accumulator value with ReLU: +0 unless it is positive or a NaN. -/
def reluVal (relu : Bool) (x : FloatVal) : FloatVal :=
  if !relu then x
  else match x with
    | .fin n m e => if n || m = 0 then .fin false 0 0 else .fin n m e
    | .inf true => .fin false 0 0
    | y => y

/-- A field of `n` bits at `lo` as a mask. -/
def fieldMask (w lo n : Nat) : BitVec w := BitVec.ofNat w ((2 ^ n - 1) * 2 ^ lo)

/-- Random value of element (i, j) of an AQNT under SR (R319). -/
def State.aqntRandom (s : State) (i j : Nat) : Nat :=
  let x := s.team.sp.srStream.toNat
  srBits s.seed (field x 40 24) (field x 0 40 * 4096 + 32 * i + j)

/-- Line `i` of an AQNT: blocks 2q and 2q+1 of its sector, and the flags. -/
def State.aqntLine (s : State) (f : BlockFmt) (relu : Bool) (q : Nat) (t : Tile) (off i : Nat) : ImageSector × Byte :=
  let blk (h : Nat) := f.quantise s.rm (fun j => s.aqntRandom i (16 * h + j)) none
    ((List.range 16).map (fun j => reluVal relu (binary32.decode (smGet 0 t (32 * i + 16 * h + j)).toNat)))
  let b0 := blk 0
  let b1 := blk 1
  let g := f.putBlock (f.putBlock ⟨0, 0, 0⟩ (2 * q) b0.scale b0.codes) (2 * q + 1) b1.scale b1.codes
  ({ off := off, data := BitVec.ofNat 512 g.data, side := BitVec.ofNat 64 g.side
     mask := fieldMask 512 (32 * f.storage * q) (32 * f.storage) ||| if f.storage = 6 then fieldMask 512 384 128 else 0
     sideMask := fieldMask 64 (16 * q) 16 }, b0.flags ||| b1.flags)

/-- AQNT: the tile quantised into block positions of a scratchpad image; under SR the COUNT advances (R46). -/
def execAqnt (a b f r q : Nat) (s : State) : Host.Outcome State Fault Refusal :=
  answer s (do
    s.hazardCheck
    let t ← s.tileAt a
    let at_ ← s.imagePlace .store (s.getS b) 2048
    let w := s.fmtWord f
    need (fmtValid w false false) (s.flt .slotState)
    let fm := blockFmt w
    need (q < fm.perSector / 2) (s.flt .slotState)
    let ls := (List.range 32).map (fun i => s.aqntLine fm (r = 1) q t (at_.2 + 64 * i) i)
    return (s.startTransfer (.image at_.1 (ls.map Prod.fst) (flagsOr (ls.map Prod.snd)))).retireSr)

end Sys2Proof.Machine
end

