-- ==== Sys2Proof/Machine/Engine.lean ====
section
/-!
DEFINITION. Engine commands while they run (R320..R335, R447): where their accesses go, the destination sectors they
write in order, suspension, and the signals of completion; and how a device receives a cross-chip unit (R424, R425).
-/
namespace Sys2Proof.Machine

/-! ### Generations (R137, R138) -/

/-- A write of generation `gen` to the double-backed buffer that holds an address is older than the entry's G (R138). -/
def State.olderWrite (s : State) (rid va gen : Nat) : Bool :=
  match s.hub.pubFind rid va with
  | some i =>
    let d := ((s.hub.pubEntry i).gen - BitVec.ofNat 32 gen).toNat
    1 ≤ d && d < 2 ^ 31
  | none => false

/-- A write to a double-backed buffer has been compared with its entry: an XPUB of this clk would have come first, so none comes after
it in this clk (R138). -/
def State.afterSwap (s : State) : State := { s with lastOfClk := true }

/-- An older write is dropped and counted (R138, R164). -/
def State.dropWrite (s : State) (own pa : Nat) : State :=
  let die := s.homeDie pa
  ({ s.afterSwap with hub := { s.hub with dropped := smSet 0 s.hub.dropped die (smGet 0 s.hub.dropped die + 1) } } : State).countEvent
    (192 + die) 6 own 1

/-- Some bytes of a sector change, and its side-band if `side` gives one, as one unit (R147); a whole sector clears its
poison mark (R410). -/
def State.patchSector (s : State) (p : Place) (ws : List (Nat × List Byte)) (side : Option Nat) : State :=
  let t := ws.foldl (fun t w => t.writeAt (p.plus w.1) w.2.length (leNat w.2)) s
  let t := match side with | some x => t.writeSide p (BitVec.ofNat 64 x) | none => t
  if 64 ≤ (ws.map (fun w => w.2.length)).sum then t.clearPoison p else t

/-! ### The background copy of XPUB.sync (R139) -/

/-- The physical bases of an entry: front, then shadow. -/
def PubEntry.backings (e : PubEntry) : Nat × Nat := if e.front then (e.pa1, e.pa0) else (e.pa0, e.pa1)

/-- Copy sectors lo..hi-1 of the front backing of an entry into its shadow. -/
def State.syncSectors (s : State) (e : PubEntry) (lo hi : Nat) : State :=
  (List.range (hi - lo)).foldl (fun s i =>
    let a := Place.dev (e.backings.1 + 64 * (lo + i))
    let b := Place.dev (e.backings.2 + 64 * (lo + i))
    let t := ((s.writeSector b (s.sectorAt a) (s.sideAt a)).notePhys 0 false (e.backings.1 + 64 * (lo + i))).notePhys 0 true
      (e.backings.2 + 64 * (lo + i))
    match s.poisonAt a, b with
    | true, .dev pa => { t with poison := setAdd t.poison (pa / 64) }
    | _, _ => t) s

/-- The background copy of an entry has passed the sectors below `hi`, and is over at the last. -/
def State.syncTo (s : State) (i hi : Nat) : State :=
  match s.hub.syncs.find? (fun x => x.1 == i) with
  | none => s
  | some x =>
    if hi ≤ x.2 then s
    else
      let e := s.hub.pubEntry i
      let top := min hi (e.size / 64)
      let t := s.syncSectors e x.2 top
      { t with hub := { t.hub with syncs := t.hub.syncs.filterMap (fun y =>
          if y.1 ≠ i then some y else if top = e.size / 64 then none else some (i, top)) } }

/-- A write of generation `gen` to the shadow of the buffer that holds an address comes after the background copy of that
sector (R139). -/
def State.syncBefore (s : State) (rid va : Nat) : State :=
  match s.hub.pubFind rid va with
  | some i => s.syncTo i ((va - (s.hub.pubEntry i).vbase) / 64 + 1)
  | none => s

/-! ### Receiving a unit (R424, R425) -/

/-- The view of the partition of the region that holds a RID. -/
def State.ridView (s : State) (rid : Nat) : Option View :=
  (s.regions.find? (fun r => r.rid == rid)).map (fun r => s.view r.rcb true)

/-- A refused request is logged (R425). -/
def State.refuse (s : State) (src va : Nat) : State := s.log 27 1 0x30 (src * 2 ^ 56 + va)

/-- Remember a unit that has been applied, with the bytes it wrote, and that it has settled (R424, R425). -/
def Hub.settleUnit (h : Hub) (u : RemoteUnit) (sec : Nat) (bytes : BitVec 64) (side : Bool) : Hub :=
  { h with applied := ⟨u.src, sec, u.stamp, bytes, side⟩ :: h.applied
           settled := (u.src, u.stamp) :: h.settled }

/-- The bytes of a unit, and its side-band, that no unit of a later stamp from its source has written: units of one source
to one sector are applied in stamp order, in whatever order they come (R165, R424). -/
def Hub.stillNew (h : Hub) (u : RemoteUnit) (sec : Nat) : BitVec 64 × Bool :=
  let later := h.applied.filter (fun a => a.src == u.src && a.sec == sec && stampAfter a.stamp u.stamp)
  (u.bytes &&& ~~~(later.foldl (fun m a => m ||| a.bytes) 0), u.withSide && !later.any Applied.withSide)

/-- A write of a device's engines, or of a peer's, has reached a line: it is in the L2, and its compression follows the
descriptor's CMP (R140). -/
def State.noteEngLine (s : State) (v : View) (db cmp : Bool) (va pa : Nat) : State :=
  let t := s.noteVa v (.engineWrite db) va
  let t := if db then t.afterSwap else t
  { t with caches := t.caches.setCmp (lineOf pa) cmp }

/-- The sectors that a unit brings, each as a unit of its own: one, or the four of a coded line (R423). -/
def unitSectors (u : RemoteUnit) : List RemoteUnit :=
  let one : RemoteUnit := { u with line := none }
  one :: (match u.line with
    | some l => l.rest.mapIdx (fun i x => { one with va := u.va + 64 * (i + 1), data := x.1, side := x.2 })
    | none => [])

/-- One sector of a unit is performed in stamp order at its physical address, or dropped as older (R138, R165, R424). -/
def State.applySector (s : State) (v : View) (u : RemoteUnit) (pa : Nat) : State :=
  let sec := pa / 64
  if u.gen.any (s.olderWrite v.rid u.va) then { s with hub := s.hub.settleUnit u sec 0 false }.dropWrite u.rid pa
  else
    let s := if u.gen.isSome then s.syncBefore v.rid u.va else s
    let new := s.hub.stillNew u sec
    let ws := ((List.range 64).filter (fun i => new.1.getLsbD i)).map (fun i =>
      (i, [BitVec.ofNat 8 (u.data.toNat / 2 ^ (8 * i))]))
    ({ s with hub := s.hub.settleUnit u sec new.1 new.2 }.patchSector (.dev (pa / 64 * 64)) ws
      (if new.2 then some u.side.toNat else none)).noteEngLine v u.gen.isSome u.cmp u.va pa

/-- A unit arrives: refused, or performed in stamp order, or dropped as older; whether it was accepted. A coded one is expanded here
at the latest (R141, R423). A unit that has been applied before is discarded, whatever its address has come to name (R424). -/
def State.receiveUnit (s : State) (u : RemoteUnit) : State × Bool :=
  if s.hub.applied.any (fun a => a.src == u.src && a.stamp == u.stamp) then (s, true)
  else
  let no := { s with hub := { s.hub with settled := (u.src, u.stamp) :: s.hub.settled } }.refuse u.src u.va
  match s.ridView u.rid with
  | none => (no, false)
  | some v =>
    match (unitSectors u).mapM (fun x => s.translate v (.engineWrite x.gen.isSome) x.va) with
    | .error _ => (no, false)
    | .ok pas =>
      let t := { s with hub := { s.hub with stampLast := max s.hub.stampLast (u.stamp / 2 ^ 16) } }
      (((unitSectors u).zip pas).foldl (fun t x => t.applySector v x.1 x.2) t, true)

/-- An increment of an arrival counter for a region's RID is allowed: the RID names a region, whose grant holds the counter (R337,
R425). -/
def State.incAllowed (s : State) (rid c : Nat) : Bool :=
  (s.regions.find? (fun r => r.rid == rid)).any (fun r => grants (s.region r.rcb) c)

/-- An arrival counter goes up by one, and the sends fire that wait for it (R327, R338). -/
def State.makeIncrement (s : State) (c : Nat) : State := (s.setCounter 0 c (s.arrival c + 1) false).fireArmed c

/-- This device increments an arrival counter of its own for a region's RID, as a receiver does (R337). -/
def State.receiveIncrement (s : State) (src rid c : Nat) : State × Bool :=
  if s.incAllowed rid c then (s.makeIncrement c, true) else (s.refuse src c, false)

/-! ### Accesses of a running command -/

/-- Why a command suspends: CAUSE, ADDR and SID of its record (R324). -/
structure EngErr where
  cause : Nat
  addr : Nat
  sid : Nat
  deriving DecidableEq, Repr

/-- A fault that the copy engine or the hub reports. -/
def engErr (cause addr : Nat) : EngErr := ⟨cause, addr, 0xFF⟩

/-- The state as a command sees it: its block and the rights of its team. -/
def State.asCmd (s : State) (c : Cmd) : State := s.asParty c.bid c.lid c.rcb c.core c.system c.eff c.prid

/-- Region id that a command's peer requests carry: its region's own, as its block was placed under it (R371, R425). -/
def State.cmdRid (s : State) (c : Cmd) : Nat := (s.asCmd c).ownRid

/-- A sector that a core's copy engine has moved counts there (R445). -/
def State.countMoved (s : State) (c : Cmd) : State :=
  if c.cpQueue.isSome || c.fired then s else s.countEvent c.core 13 (s.cmdRid c) 1

/-- The source unit that a command's stamps name (R168): its core group, the hub for a fired send, the CP for a COPY. -/
def Cmd.unit (c : Cmd) : Nat := if c.cpQueue.isSome then 0 else if c.fired then 26 else 2 + c.core / 16

/-- What a command remembers between its reads: OWNER entries (R136), the rows of the gather window under way (R334), and since
the last row the addresses read, with the XP they were read through (R141, R142), and those of duplicate rows (R445). -/
structure EngMem where
  owners : List (Nat × Nat)
  window : Nat × List (Nat × List RowPart)
  reads : List (Nat × Nat)
  again : List Nat

/-- A read of a running command: it may fault, and what it remembers stays. -/
abbrev EngM (α : Type) : Type := ExceptT EngErr (StateM EngMem) α

/-- A fault, or a value. -/
def EngM.ofExcept {α : Type} : Except EngErr α → EngM α
  | .ok x => pure x
  | .error e => throw e

/-- Check and translate `n` bytes of a sector, in a state seen as the command. A local address is checked as the sector is reached, and
one that fails suspends the command (log 123). -/
def State.engPlace (s : State) (k : AccKind) (a n : Nat) : Except EngErr Place :=
  match s.checkAddr (BitVec.ofNat 64 a) n 1 0 with
  | .error e => .error (engErr e.code a)
  | .ok t => match s.route k t with | .ok p => .ok p | .error e => .error (engErr e.code a)

/-- The OWNER entry of the chunk that holds an address, at address `e`. -/
def State.ownerEntry (s : State) (e : Nat) : Except EngErr Nat := do
  let p ← s.engPlace .engineRead e 2
  if s.poisonAt p then .error (engErr Cause.memoryPoison.code e)
  return s.readAt p 2

/-- A sector has been read at an address, through a descriptor of this XP. -/
def EngMem.note (m : EngMem) (a xp : Nat) : EngMem :=
  { m with reads := if m.reads.any (fun x => x.1 / 64 == a / 64) then m.reads else (a, xp) :: m.reads }

/-- The OWNER entry for an address of a distributed tensor. -/
def Desc.ownerAddr (d : Desc) (a : Nat) : Nat := d.owner * 256 + 2 * ((a - d.base.toNat) / 2 ^ 20)

/-- The peer that owns an address of a distributed tensor (R136), if it is not this device. The entry of a chunk is read when
the command first touches the chunk, and one that does not name a device again when it restarts (log 100). -/
def State.engOwner (s : State) (d : Desc) (a : Nat) : EngM (Option Nat) :=
  if d.owner = 0 then pure none
  else do
    let e := d.ownerAddr a
    let m ← get
    let v ← (match m.owners.find? (fun x => x.1 == e) with
      | some x => pure x.2
      | none => do
        let v ← EngM.ofExcept (s.ownerEntry e)
        if 1024 ≤ v then throw (engErr Cause.descriptor.code e)
        modify (fun m => { m.note e 0 with owners := (e, v) :: m.owners })
        pure v : EngM Nat)
    if v = s.amc.cfg.device then return none
    if Config.inPod v then return some v else throw (engErr 0x41 a)

/-- The pieces of `n` bytes at an address that cross no sector. -/
def sectorRuns (a n : Nat) : List (Nat × Nat) :=
  (List.range ((a % 64 + n + 63) / 64)).map (fun i =>
    let lo := max a ((a / 64 + i) * 64)
    (lo, min (a + n) ((a / 64 + i + 1) * 64) - lo))

/-- SID of a poisoned read: the stack of the base-die unit that reports it, a gather unit or the expander of a source with XP = 0
that meets a reserved selector, else 0xFF (R140, R324). -/
def State.baseDie (s : State) (d : Desc) (gather : Bool) : Place → Nat
  | .dev pa => if gather || (d.xp = 0 && s.caches.unreadable (lineOf pa)) then Config.stackOf pa % 12 else 0xFF
  | .spad _ _ => 0xFF

/-- Bytes of one sector, and its side-band. What a refused read of a peer's sector gives reaches no destination (R425). -/
def State.engRead (s : State) (d : Desc) (gather : Bool) (a n : Nat) : EngM (List Byte × Nat) := do
  match (← s.engOwner d a) with
  | some dev =>
    let x := Config.peerData dev (a / 64) s.free
    return (((natLe x 64).drop (a % 64)).take n, x / 2 ^ 512 % 2 ^ 64)
  | none =>
    let p ← EngM.ofExcept (s.engPlace .engineRead a n)
    if s.poisonAt p then
      throw ⟨Cause.memoryPoison.code, a, s.baseDie d gather p⟩
    modify (fun m => m.note a d.xp)
    return (s.bytesAt p n, (s.sideAt p).toNat)

/-- A row of a descriptor. `gather`: by the gather units. -/
def State.engRow (s : State) (d : Desc) (gather : Bool) (i : RowIx) : EngM (List RowPart) :=
  d.parts.mapM (fun p => do
    let xs ← (sectorRuns (d.rowAddr i + p.1) p.2).mapM (fun r => s.engRead d gather r.1 r.2)
    return { off := p.1, bytes := xs.flatMap Prod.fst, side := if d.native then some ((xs.head?.map Prod.snd).getD 0) else none })

/-- The local places that a source descriptor names, for destinations that share one with it (R330): of a distributed tensor the
chunks that this device owns. -/
def State.engSpans (s : State) (d : Desc) : List (Place × Nat) :=
  let here (a : Nat) : Bool := d.owner = 0 || match s.ownerEntry (d.ownerAddr a) with
    | .ok v => v == s.amc.cfg.device
    | .error _ => false
  d.rows.flatMap (fun i => d.parts.flatMap (fun p => (sectorRuns (d.rowAddr i + p.1) p.2).filterMap (fun r =>
    match here r.1, s.engPlace .engineRead r.1 r.2 with | true, .ok pl => some (pl, r.2) | _, _ => none)))

/-- A place lies in one of some spans. -/
def inSpans (ss : List (Place × Nat)) (p : Place) : Bool :=
  ss.any (fun x => match x.1, p with
    | .dev a, .dev b => a ≤ b && b < a + x.2
    | .spad i a, .spad j b => i == j && a ≤ b && b < a + x.2
    | _, _ => false)

/-! ### Destination sectors in order (R332) -/

/-- A destination sector to be written: pieces by address, the side-band of a native one, and the flags of its data. -/
structure OutUnit where
  pieces : List (Nat × List Byte)
  side : Option Nat
  flags : Byte
  /-- Whether some of its bytes depend on a refused read (R425). -/
  bad : Bool
  deriving DecidableEq, Repr

/-- Address of the unit's first byte. -/
def OutUnit.addr (u : OutUnit) : Nat := (u.pieces.head?.map Prod.fst).getD 0

/-- Number of the unit's sector. -/
def OutUnit.sec (u : OutUnit) : Nat := u.addr / 64

/-- A piece at an address with this side-band lies in the unit: in its sector, if that is no native one. -/
def OutUnit.holds (u : OutUnit) (a : Nat) (side : Option Nat) : Bool := side.isNone && u.side.isNone && u.sec = a / 64

/-- The unit with one more piece. -/
def OutUnit.plus (u : OutUnit) (p : OutUnit) : OutUnit :=
  { u with pieces := u.pieces ++ p.pieces, flags := u.flags ||| p.flags, bad := u.bad || p.bad }

/-- The bytes of the unit that a checksum covers (R331). -/
def OutUnit.crcBytes (u : OutUnit) : List Byte :=
  u.pieces.flatMap Prod.snd ++ match u.side with | some x => natLe x 8 | none => []

/-- What is written at a place, at offset `off` of a destination: a location shared with the source gets a value that is not
defined, the same in every run of the launch (R12, R330; log 104). -/
def State.openIfShared (s : State) (key : List Nat) (ss : List (Place × Nat)) (p : Place) (off : Nat) (b : Byte) : Byte :=
  if inSpans ss p then BitVec.ofNat 8 (Config.openValue (key ++ [0, off]) [(s.byteAt p).toNat, b.toNat]) else b

/-- The unit as it crosses a link (R423), on a path that is up, freely chosen (R424); 16 waits for one. -/
def State.linkUnit (s : State) (c : Cmd) (d : Desc) (va stamp : Nat) (u : OutUnit) : RemoteUnit :=
  let put (w : Nat) (p : Nat × List Byte) : Nat := leNat p.2 * 2 ^ (8 * (p.1 % 64)) + w
  { src := s.amc.cfg.device, rid := s.cmdRid c, va := va / 64 * 64, stamp := stamp
    path := s.hub.upPorts.getD (Config.free s.free % s.hub.upPorts.length) 16
    data := BitVec.ofNat 512 (u.pieces.foldl put 0), side := BitVec.ofNat 64 (u.side.getD 0)
    bytes := BitVec.ofNat 64 (u.pieces.foldl (fun m p => m ||| (2 ^ p.2.length - 1) * 2 ^ (p.1 % 64)) 0)
    withSide := u.side.isSome, cmp := d.cmp, late := d.xp = 3, gen := if d.db then some d.gen else none }

/-- Send a unit to a peer, which counts as written (R166); its stamp, and the state after. -/
def State.sendUnit (s : State) (c : Cmd) (d : Desc) (dev va : Nat) (u : OutUnit) : Nat × State :=
  let st := (s.countMoved c).stamp c.unit
  (st.1, { st.2 with
    free := st.2.free + 1
    hub := { st.2.hub with
      out := st.2.hub.out ++ [.unit dev (st.2.linkUnit c d va st.1 u)], written := setAdd st.2.hub.written dev } })

/-- An engine write of this device has reached a place. -/
def State.noteEngWrite (s : State) (v : View) (d : Desc) (va : Nat) : Place → State
  | .dev pa => s.noteEngLine v d.db d.cmp va pa
  | .spad _ _ => s

/-- What a walk needs: the command, the destination and its number, the shared places of its source and whether side-bands are
among them (R330), and whether a failed checksum makes each of its sectors old or new (R162). -/
structure EngCtx where
  c : Cmd
  d : Desc
  walk : Nat
  spans : List (Place × Nat)
  side : Bool
  loose : Bool
  /-- The rows of an XSCAT lie anywhere, so none shares a unit with the next. -/
  apart : Bool

/-- The name of a destination for values left open (log 104). -/
def EngCtx.key (x : EngCtx) : List Nat := x.c.key ++ [x.walk]

/-- Write one destination unit: the state after, and its stamp if it left for a peer. -/
def State.putUnit (s : State) (x : EngCtx) (u : OutUnit) : EngM (State × Option Nat) := do
  let s0 := s.asCmd x.c
  match (← s0.engOwner x.d u.addr) with
  | some dev =>
    let r := s.sendUnit x.c x.d dev u.addr u
    return (r.2, some r.1)
  | none =>
    let ps ← u.pieces.mapM (fun p => EngM.ofExcept (s0.engPlace (.engineWrite x.d.db) p.1 p.2.length))
    let v := s0.teamView
    match x.d.db && s.olderWrite v.rid x.d.base.toNat x.d.gen, ps.head? with
    | true, some (.dev pa) => return (s.dropWrite v.own pa, none)
    | _, some p0 =>
      let off := u.addr - x.d.base.toNat
      let pieces := (u.pieces.zip ps).map (fun y => (y.1.1 - u.addr, y.1.2.mapIdx (fun i b =>
        s.openIfShared x.key x.spans (y.2.plus i) (y.1.1 - x.d.base.toNat + i) b)))
      let side := u.side.map (fun b => if x.side && inSpans x.spans p0
        then Config.openValue (x.key ++ [1, off]) [(s.sideAt p0).toNat, b] % 2 ^ 64 else b)
      return (((s.patchSector p0 pieces side).noteEngWrite v x.d u.addr p0).countMoved x.c, none)
    | _, none => return (s, none)

/-- A sector of a destination whose source failed its checksum keeps its old contents: which of them do is not defined, the same
for every row that reaches the sector and in every run of the launch (R12, R162; log 104). -/
def EngCtx.keepsOld (x : EngCtx) (u : OutUnit) : Bool :=
  x.loose && Config.openValue (x.key ++ [2, u.sec - x.d.base.toNat / 64]) [] % 2 = 0

/-- A command in the middle of its destination walk. -/
structure EngRun where
  st : State
  /-- Units finished, those of an earlier run included, and their checksum. -/
  idx : Nat
  pend : Option OutUnit
  flags : Byte
  crc : Nat
  /-- Stamps of the units sent to peers. -/
  sent : List Nat
  mem : EngMem
  /-- The row under way, with the units finished before it; and the same where the pending unit began. -/
  here : EngMark
  began : EngMark
  /-- The rows read, from the one where the pending unit began on. -/
  kept : List ReadRow

/-- A walk that has met a fault, with the place where it goes on. -/
abbrev EngStop := EngRun × EngMark × EngErr

/-- The place where a run goes on at a mark: with the checksum of the units finished, and the rows read from there on. -/
def EngRun.mark (r : EngRun) (m : EngMark) : EngMark :=
  { m with crc := r.crc, kept := r.kept.filter (fun k => m.row ≤ k.row) }

/-- The unit under way is finished: it counts in the checksum, unless an earlier run has finished it. -/
def EngRun.finished (r : EngRun) (x : EngCtx) (u : OutUnit) : EngRun :=
  { r with idx := r.idx + 1, pend := none, flags := r.flags ||| u.flags
           crc := if r.idx < x.c.done then r.crc else Machine.crcBytes r.crc u.crcBytes }

/-- Finish the unit under way. One that depends on a refused read is not written (R425). -/
def EngRun.flush (r : EngRun) (x : EngCtx) : Except EngStop EngRun :=
  match r.pend with
  | none => .ok r
  | some u =>
    if r.idx < x.c.done || u.bad || x.keepsOld u then .ok (r.finished x u)
    else match (r.st.putUnit x u).run r.mem with
      | (.ok y, m) => .ok { r.finished x u with st := y.1, sent := r.sent ++ y.2.toList, mem := m }
      | (.error e, m) => .error ({ r with pend := none, mem := m }, r.mark r.began, e)

/-- Add a piece: to the unit under way when it lies in the same sector, else to a new one. -/
def EngRun.add (r : EngRun) (x : EngCtx) (p : OutUnit) : Except EngStop EngRun :=
  match r.pend with
  | some u =>
    if u.holds p.addr p.side then .ok { r with pend := some (u.plus p) }
    else do
      let r ← r.flush x
      return { r with pend := some p, began := r.here }
  | none => .ok { r with pend := some p, began := r.here }

/-- What a row of a destination gets: its address, its parts, their flags, and the source bytes that some bytes of it depend
on. -/
structure RowData where
  addr : Nat
  parts : List RowPart
  flags : Byte
  deps : Nat → Nat → List (Nat × Nat)

/-- A row, or none: it is dropped. -/
abbrev RowOut := Option RowData

/-- What makes one row, with the row's address unless its index decides it. -/
abbrev RowJob := Option Nat × (State → EngM RowOut)

/-- The pieces of row `n`, one for each sector that a part of it touches. -/
def RowData.read (y : RowData) (n : Nat) : ReadRow :=
  { row := n, flags := y.flags
    pieces := y.parts.flatMap (fun p => (sectorRuns (y.addr + p.off) p.bytes.length).map (fun q =>
      { addr := q.1, bytes := (p.bytes.drop (q.1 - y.addr - p.off)).take q.2, side := p.side, deps := y.deps (q.1 - y.addr) q.2 })) }

/-- A piece depends on a refused read (R425). -/
def RowPiece.refused (p : RowPiece) (c : Cmd) : Bool :=
  p.deps.any (fun q => c.refused.any (fun b => q.1 / 64 * 64 ≤ b && b < q.1 + q.2))

/-- Write the pieces of a row. -/
def EngRun.pieces (r : EngRun) (x : EngCtx) (y : ReadRow) : Except EngStop EngRun := do
  let r ← y.pieces.foldlM (fun r p => r.add x ⟨[(p.addr, p.bytes)], p.side, y.flags, p.refused x.c⟩) r
  if x.apart then r.flush x else return r

/-- Before a row is read, the unit under way is finished, unless the row has a part in its sector (R332). -/
def EngRun.before (r : EngRun) (x : EngCtx) (a : Option Nat) : Except EngStop EngRun :=
  match r.pend, a with
  | some u, some a => if u.holds a none then .ok r else r.flush x
  | _, _ => r.flush x

/-- A row cannot be made: the walk goes on at it, or where the unit under way began, which the row has a part in (R332). -/
def EngRun.stop (r : EngRun) (e : EngErr) : EngStop :=
  match r.pend with
  | some _ => ({ r with pend := none }, r.mark r.began, e)
  | none => (r, r.mark r.here, e)

/-- A walk has come to row `n`; rows before the one where the unit under way began are not needed again. -/
def EngRun.at_ (r : EngRun) (n : Nat) : EngRun :=
  { r with here := { r.here with row := n, idx := r.idx }
           kept := r.kept.filter (fun k => (if r.pend.isSome then r.began.row else n) ≤ k.row) }

/-- The expander may decode a line ahead of a stream of reads (R142), a free choice: it comes into the L2 in the stream class,
unless it is there. -/
def State.decodeAhead (s : State) (v : View) (va : Nat) : State :=
  match s.leaf v va, s.translate v .engineRead va with
  | .page e _, .ok pa =>
    let t := { s with free := s.free + 1 }
    let n := lineOf pa
    if Config.free s.free % 2 = 0 && pa < hbmEnd && !s.caches.unreadable n && !s.caches.inL2 n then
      ((t.countEvent (192 + s.homeDie pa) 8 v.own 1).countEvent (stackUnit pa) 9 v.own 4).bringLine
        { line := n, cls := .stream false, c := e.testBit 7, dirty := false }
    else t
  | _, _ => s

/-- The bytes of a source row reach a destination row unchanged (R330, R41). -/
def copiesRaw (d s : Desc) (trn : Bool) : Bool := d.elem = s.elem && (d.elem ≠ 0 || (d.fmt = s.fmt && !trn))

/-- The command converts what it reads, so that every line of it is expanded (R141). -/
def CmdKind.converts : CmdKind → Bool
  | .copy ds src tr => !(ds.mapIdx (fun n d => copiesRaw d src (if n = 0 then tr else !tr))).all id
  | .reduce _ _ => true
  | _ => false

/-- A line that an engine has read comes into the L2: through XP 2 or 3 it stays there as it came, unless the command converts it or it
is expanded already (R141). -/
def State.noteLine (s : State) (v : View) (k : CmdKind) (xp va : Nat) : State :=
  let u := s.noteVa v .engineRead va
  match s.translate v .engineRead va with
  | .ok pa => if 2 ≤ xp && !k.converts && s.caches.packed (lineOf pa) then { u with caches := u.caches.pack (lineOf pa) } else u
  | .error _ => u

/-- What a command has read comes into the L2, under R400; with XP = 1 the expander may decode the lines after it too. A duplicate
read saved counts at the die of its row's stack (R445). -/
def State.noteReads (s : State) (c : Cmd) (m : EngMem) : State :=
  let s0 := s.asCmd c
  let v := s0.teamView
  let one (t : State) (a : Nat × Nat) : State :=
    match s0.checkAddr (BitVec.ofNat 64 a.1) 1 1 0 with
    | .ok (.va va) =>
      let u := t.noteLine v c.kind a.2 va
      if a.2 = 1 then u.decodeAhead v (va + 256) else u
    | _ => t
  let saved (t : State) (a : Nat) : State :=
    match s0.engPlace .engineRead a 1 with
    | .ok (.dev pa) => t.countEvent (stackUnit pa) 13 v.own 1
    | _ => t
  m.again.foldl saved (m.reads.foldl one s)

/-- The reads of a row leave their marks. -/
def EngRun.note (r : EngRun) (x : EngCtx) : EngRun :=
  { r with st := r.st.noteReads x.c r.mem, mem := { r.mem with reads := [], again := [] } }

/-- Write one row, whose source a run before this one may have read already (R332). -/
def EngRun.row (r : EngRun) (x : EngCtx) (n : Nat) (job : RowJob) : Except EngStop EngRun := do
  let r := (← r.before x job.1).at_ n
  match r.kept.find? (fun k => k.row == n) with
  | some y => r.pieces x y
  | none =>
    match (job.2 (r.st.asCmd x.c)).run r.mem with
    | (.error e, m) => throw ({ r with mem := m }.stop e)
    | (.ok none, m) => return { r with mem := m }
    | (.ok (some y), m) =>
      let k := y.read n
      ({ r with mem := m, kept := r.kept ++ [k] }.note x).pieces x k

/-- The rows of a destination from one on, then the unit left over. -/
def EngRun.rows (r : EngRun) (x : EngCtx) (jobs : List RowJob) (first : Nat) : Except EngStop EngRun := do
  let r ← ((jobs.drop first).mapIdx (fun i j => (first + i, j))).foldlM (fun r j => r.row x j.1 j.2) r
  return (← r.flush x).note x

/-! ### What each command writes -/

/-- Element `k` of a row's bytes. -/
def elemBytes (d : Desc) (ps : List RowPart) (k : Nat) : List Byte :=
  ((ps.flatMap RowPart.bytes).drop (d.esize * k)).take d.esize

/-- The source bytes that bytes of a converted row depend on: those of the same elements, by whole blocks. -/
def convDeps (d src : Desc) (i : RowIx) (off n : Nat) : List (Nat × Nat) :=
  (d.elemsAt off n).flatMap (fun e => (src.elemSpans e.1 e.2).map (fun p => (src.rowAddr i + p.1, p.2)))

/-- Row `i` of a destination of XCPY; `trn`: its dimensions 0 and 1 are the source's exchanged (R330), and a global source with
COL is read by the stride-gather units. An OCP source that is transposed is requantised (log 48). -/
def copyRow (c : Cmd) (d src : Desc) (trn : Bool) (i : RowIx) (s : State) : EngM RowOut := do
  let a := d.rowAddr i
  if trn then
    let rows ← (List.range d.dim0).mapM (fun k => s.engRow src (src.col && src.space = 0) (k, i.2))
    let deps (off n : Nat) : List (Nat × Nat) := (d.elemsAt off n).flatMap (fun e =>
      (List.range (e.2 - e.1)).flatMap (fun k => (src.elemSpans i.1 (i.1 + 1)).map (fun p =>
        (src.rowAddr (e.1 + k, i.2) + p.1, p.2))))
    if copiesRaw d src trn then
      return some ⟨a, [{ off := 0, bytes := rows.flatMap (fun ps => elemBytes src ps i.1), side := none }], 0, deps⟩
    else
      let r := d.encode c.seed.toNat i (rows.map (fun ps => (src.values ps).getD i.1 (.fin false 0 0)))
      return some ⟨a, r.1, r.2, deps⟩
  else
    let ps ← s.engRow src false i
    if copiesRaw d src trn then return some ⟨a, ps, 0, fun off n => [(src.rowAddr i + off, n)]⟩
    else
      let r := if src.ocp && d.native && d.bf.sameElem src.bf then d.encodeFromOcp src c.seed.toNat i ps
        else d.encode c.seed.toNat i (src.values ps)
      return some ⟨a, r.1, r.2, convDeps d src i⟩

/-- Address of index `r` of an index list. -/
def indexAddr (x : Desc) (r : Nat) : Nat := x.base.toNat + 4 * r

/-- Index `r` of an index list (R131, R333). -/
def indexAt (x : Desc) (r : Nat) (s : State) : EngM Int := do
  let bs ← s.engRead x false (indexAddr x r) 4
  return if x.isgn then sextInt (leNat bs.1) 32 else (leNat bs.1 : Int)

/-- A row of zeros with scale 0. -/
def zeroRow (d : Desc) : List RowPart :=
  d.parts.map (fun p => { off := p.1, bytes := List.replicate p.2 0, side := if d.native then some 0 else none })

/-- The address an out-of-range row would have. -/
def rowAddrOf (t : Desc) (i : Int) : Nat := wrapNat ((t.base.toNat : Int) + i * (t.stride1 : Int)) 64

/-- A table row of XGATH, read once in each window of 4,096 list positions (R334). -/
def State.windowRow (s : State) (src : Desc) (r i : Nat) : EngM (List RowPart) := do
  let m ← get
  let kept := if m.window.1 = r / 4096 then m.window.2 else []
  match kept.find? (fun x => x.1 == i) with
  | some x =>
    modify (fun m => { m with again := src.rowAddr (i, 0, 0) :: m.again })
    return x.2
  | none =>
    let ps ← s.engRow src true (i, 0, 0)
    modify (fun m => { m with window := (r / 4096, (i, ps) :: kept) })
    return ps

/-- List row `r` of XGATH (R333, R135). -/
def gatherRow (d src x : Desc) (r : Nat) (s : State) : EngM RowOut := do
  let i ← indexAt x r s
  let a := d.rowAddr (r, 0, 0)
  let row (k : Nat) : EngM RowOut := do
    let ps ← s.windowRow src r k
    return some ⟨a, ps, 0, fun off n => [(indexAddr x r, 4), (src.rowAddr (k, 0, 0) + off, n)]⟩
  if 0 ≤ i ∧ i < src.dim1 then row i.toNat
  else match src.oor with
    | 0 => throw (engErr 0x41 (rowAddrOf src i))
    | 1 => return some ⟨a, zeroRow d, 0, fun _ _ => [(indexAddr x r, 4)]⟩
    | _ => row (if i < 0 then 0 else src.dim1 - 1)

/-- List row `r` of XSCAT: its table row, or nothing (R333, R135). -/
def scatterRow (d src x : Desc) (r : Nat) (s : State) : EngM RowOut := do
  let i ← indexAt x r s
  if 0 ≤ i ∧ i < d.dim1 then
    let ps ← s.engRow src false (r, 0, 0)
    return some ⟨d.rowAddr (i.toNat, 0, 0), ps, 0, fun off n => [(indexAddr x r, 4), (src.rowAddr (r, 0, 0) + off, n)]⟩
  else if d.oor = 0 then throw (engErr 0x41 (rowAddrOf d i))
  else return none

/-- Row `i` of CRED: rank order, rounded to binary32 at every step, then as XCPY writes an F32 source (R335). -/
def reduceRow (c : Cmd) (d : Desc) (cs : List Desc) (i : RowIx) (s : State) : EngM RowOut := do
  let rows ← cs.mapM (fun x => do return (x.values (← s.engRow x false i)).map (binary32.ofVal 0 0))
  let acc := (List.range d.dim0).map (fun k =>
    match rows.map (fun r => r.getD k (0, 0)) with
    | [] => ((0 : Nat), (0 : Byte))
    | h :: t => t.foldl (fun a y => let z := binary32.add 0 0 a.1 y.1; (z.1, a.2 ||| y.2 ||| z.2)) h)
  let r := d.encode c.seed.toNat i (acc.map (fun a => binary32.decode a.1))
  return some ⟨d.rowAddr i, r.1, r.2 ||| flagsOr (acc.map Prod.snd), fun off n => cs.flatMap (fun x => convDeps d x i off n)⟩

/-- The checksum of a source (R331). -/
def sourceCrc (d : Desc) (s : State) : EngM Nat := do
  let v ← d.rows.foldlM (fun x i => do return crcBytes x (rowCrcBytes (← s.engRow d false i))) 0xFFFFFFFF
  return crcFinal v

/-- The walks of a command: destinations in order with the jobs of their rows, and the source whose checksum is compared. R331 speaks
of the source S alone: the contributions of a CRED, several to one XCRC, and the source of a send, which has no XCTL, are compared
with no checksum when they have CRC = 1 (log 110). -/
def CmdKind.walks (k : CmdKind) (c : Cmd) : List (Desc × List RowJob) × Option Desc :=
  match k with
  | .copy ds src tr =>
    (ds.mapIdx (fun n d => (d, d.rows.map (fun i => (some (d.rowAddr i), copyRow c d src (if n = 0 then tr else !tr) i)))), some src)
  | .gather d src x => ([(d, (List.range x.dim0).map (fun r => (some (d.rowAddr (r, 0, 0)), gatherRow d src x r)))], some src)
  | .scatter d src x => ([(d, (List.range x.dim0).map (fun r => (none, scatterRow d src x r)))], some src)
  | .reduce d cs => ([(d, d.rows.map (fun i => (some (d.rowAddr i), reduceRow c d cs i)))], none)
  | .flush _ _ => ([], none)
  | .send _ => ([], none)

/-- The places of the source of an XCPY, which a destination may share with values that are not defined (R330), and whether
side-bands are among them. -/
def State.copySpans (s : State) : CmdKind → List (Place × Nat) × Bool
  | .copy _ src _ => (s.engSpans src, src.native)
  | _ => ([], false)

/-- Does the source fail its checksum (R331)? It is compared once. -/
def State.sourceBad (s : State) (c : Cmd) (d : Option Desc) : EngM Bool :=
  match c.loose, d with
  | some b, _ => pure b
  | none, some d => if d.crc then do return (← sourceCrc d s) != c.ctl.toNat / 2 ^ 32 else pure false
  | none, none => pure false

/-- What a command remembers. -/
def Cmd.mem (c : Cmd) : EngMem := { owners := c.owners, window := c.window, reads := [], again := [] }

/-- A command with what it now remembers. -/
def Cmd.keep (c : Cmd) (m : EngMem) : Cmd := { c with owners := m.owners, window := m.window }

/-- The walks of a command from its mark on: each destination, and the checksum of the first that asks for one. -/
def EngRun.walk (r : EngRun) (c : Cmd) (spans : List (Place × Nat) × Bool) (ws : List (Desc × List RowJob)) :
    Except EngStop (EngRun × Option Nat) :=
  ((ws.mapIdx (fun n w => (n, w))).drop c.mark.walk).foldlM (fun (r : EngRun × Option Nat) w => do
    let again := w.1 = c.mark.walk
    let at_ : EngMark := { walk := w.1, row := 0, idx := r.1.idx, crc := 0xFFFFFFFF, crc0 := r.2, kept := [] }
    let y ← { r.1 with crc := if again then c.mark.crc else 0xFFFFFFFF, here := at_
                       kept := if again then c.mark.kept else [] }.rows
      ⟨c, w.2.1, w.1, spans.1, spans.2, c.loose.getD false, c.op = 0x79⟩ w.2.2 (if again then c.mark.row else 0)
    return (y, if w.2.1.crc && r.2.isNone then some (crcFinal y.crc) else r.2)) (r, c.mark.crc0)

/-- A unit that is a whole native sector written through a descriptor with CMP = 1 and XP = 3: the form in which a line may cross coded,
to be expanded by the receiver; with another XP it has been expanded before it reaches a link (R141, R423, log 118). -/
def wholeUnit (m : LinkMsg) : Option (Nat × RemoteUnit) :=
  match m with
  | .unit d u => if u.cmp && u.late && u.withSide && u.bytes == BitVec.allOnes 64 && u.line.isNone then some (d, u) else none
  | _ => none

/-- Four units as one coded unit: whole sectors of one line for one peer, in order (R423). -/
def codedLine (a b c e : LinkMsg) : Option LinkMsg :=
  match wholeUnit a, wholeUnit b, wholeUnit c, wholeUnit e with
  | some (d, u), some (d1, u1), some (d2, u2), some (d3, u3) =>
    if d1 = d ∧ d2 = d ∧ d3 = d ∧ u.va % 256 = 0 ∧ u1.va = u.va + 64 ∧ u2.va = u.va + 128 ∧ u3.va = u.va + 192 then
      let data := ([u, u1, u2, u3].mapIdx (fun i x => x.data.toNat * 2 ^ (512 * i) + x.side.toNat * 2 ^ (2048 + 64 * i))).sum
      some (.unit d { u with line := some { granules := max 1 (encodingOf data).2
                                            rest := [u1, u2, u3].map (fun x => (x.data, x.side)) } })
    else none
  | _, _, _, _ => none

/-- Of the units that leave, whole lines may leave as coded units: a free choice for each (R423). A coded unit bears the stamp of its
first sector; at most `n` messages. -/
def codeLines (free : Nat) : Nat → List LinkMsg → List LinkMsg
  | 0, l => l
  | n + 1, a :: b :: c :: e :: l =>
    (match codedLine a b c e with
     | some m => if Config.free free % 2 = 0 then m :: codeLines (free + 1) n l else a :: codeLines (free + 1) n (b :: c :: e :: l)
     | none => a :: codeLines (free + 1) n (b :: c :: e :: l))
  | _ + 1, l => l

/-- The messages that have been added since there were `n` may be coded. -/
def State.codeUnits (s : State) (n : Nat) : State :=
  let new := s.hub.out.drop n
  { s with free := s.free + new.length, hub := { s.hub with out := s.hub.out.take n ++ codeLines s.free new.length new } }

/-- The checksum of what a command has written when it stops at a mark: that of an earlier destination that asks for one, else of the one
under way (R331). -/
def EngMark.crcSoFar (m : EngMark) (ws : List (Desc × List RowJob)) : Nat :=
  m.crc0.getD (if (ws[m.walk]?).any (fun w => w.1.crc) then crcFinal m.crc else 0)

/-- Run a command that walks destinations: the state, the command as it then stands, the fault that suspends it, and whether
units have left for peers. The record of a failed checksum has ADDR 0, for no address has faulted (log 131). -/
def State.runWalk (s : State) (c : Cmd) : State × Cmd × Option EngErr × Bool :=
  let w := c.kind.walks c
  let s0 := s.asCmd c
  match (s0.sourceBad c w.2).run c.mem with
  | (.error e, m) => (s.noteReads c m, c.keep m, some e, false)
  | (.ok bad, m) =>
    let c := { c.keep m with
      loose := some bad, poisoned := c.poisoned || bad, cause := if bad && c.cause = 0 then 0x40 else c.cause }
    let r0 : EngRun :=
      { st := s.noteReads c m, idx := c.mark.idx, pend := none, flags := c.flags, crc := c.mark.crc, sent := c.sentUnits
        mem := c.mem, here := c.mark, began := c.mark, kept := c.mark.kept }
    match r0.walk c (s0.copySpans c.kind) w.1 with
    | .ok (r, crc) =>
      (r.st.codeUnits s.hub.out.length, { c.keep r.mem with done := r.idx, flags := r.flags, crc := crc.getD 0, sentUnits := r.sent },
        none, !r.sent.isEmpty)
    | .error (r, at_, e) =>
      ((r.st.noteReads c r.mem).codeUnits s.hub.out.length,
        { c.keep r.mem with done := max c.done r.idx, flags := r.flags, crc := at_.crcSoFar w.1, mark := at_, sentUnits := r.sent },
        some e, !r.sent.isEmpty)

/-! ### Sends (R337) -/

/-- Pieces that follow one another in one sector form one unit (R423). -/
def mergeUnits : List OutUnit → List OutUnit
  | [] => []
  | u :: us => us.foldl (fun (r : List OutUnit × OutUnit) p =>
      if r.2.holds p.addr p.side then (r.1, r.2.plus p) else (r.1 ++ [r.2], p)) ([], u) |> fun r => r.1 ++ [r.2]

/-- The units of a send: each sector of the source's rows at the peer address, or the immediate sectors. One that depends on a refused
read is not sent (R425). -/
def State.sendUnits (s : State) (c : Cmd) (x : Send) : EngM (List OutUnit × Desc) :=
  match x.imm, x.src with
  | some secs, _ =>
    pure (secs.mapIdx (fun i z =>
      let a := x.peer + 64 * i
      ⟨[(a, natLe z.1.toNat 64)], some z.2.toNat, 0, false⟩), descOf [])
  | none, none => pure ([], descOf [])
  | none, some d => do
    let us ← d.rows.mapM (fun i => do
      let ps ← s.engRow d false i
      let a := d.rowAddr i - d.base.toNat + x.peer
      return ps.flatMap (fun p => (sectorRuns (a + p.off) p.bytes.length).map (fun q =>
        let read := q.1 - x.peer + d.base.toNat
        (⟨[(q.1, (p.bytes.drop (q.1 - a - p.off)).take q.2)], p.side, 0,
          c.refused.any (fun b => b / 64 == read / 64)⟩ : OutUnit))))
    return ((mergeUnits us.flatten).filter (fun u => !u.bad), d)

/-- Deliver a unit of a send to this device itself, as a receiver does; the first refused address poisons the command. -/
def State.selfUnit (s : State) (c : Cmd) (d : Desc) (u : OutUnit) : State × Cmd :=
  let st := (s.countMoved c).stamp c.unit
  let r := st.2.receiveUnit (st.2.linkUnit c d u.addr st.1 u)
  ({ r.1 with free := r.1.free + 1 }, if r.2 || c.cause ≠ 0 then c
        else { c with poisoned := true, cause := 0x43, addr := BitVec.ofNat 64 (u.addr / 64 * 64) })

/-- The source descriptor of a fired send whose reading at the firing failed, or that restarts, is read and checked again
(R134, R338). The record of one that fails the checks has ADDR 0: the rule gives its CAUSE and OFFSET (log 107). -/
def State.firedSource (s : State) (x : Send) : EngM Send :=
  if x.srcAddr = 0 || x.src.isSome then pure x
  else
    match s.loadUnit x.srcAddr 64 with
    | .error f => throw (engErr f.cause.code f.addr.toNat)
    | .ok bs => do
      modify (fun m => m.note x.srcAddr.toNat 0)
      let d := descOf bs
      if d.ok true then return { x with src := some d } else throw (engErr Cause.descriptor.code 0)

/-- The stamps of the units among some messages. -/
def unitStamps (l : List LinkMsg) : List Nat := l.filterMap (fun m => match m with | .unit _ u => some u.stamp | _ => none)

/-- Run a send: payload, then the receiver's increment, which names the payload's units (R337). Where this device is the receiver and
refuses the increment alone, the record has ADDR 0, for the increment has no address (log 107). -/
def State.runSend (s : State) (c : Cmd) (x : Send) : State × Cmd × Option EngErr × Bool :=
  let s0 := s.asCmd c
  match (do let y ← s0.firedSource x; return (y, ← s0.sendUnits c y) : EngM (Send × List OutUnit × Desc)).run c.mem with
  | (.error e, m) => (s.noteReads c m, c.keep m, some e, false)
  | (.ok (y, us, d), m) =>
    let s := s.noteReads c m
    let c := { c.keep m with kind := .send y, uses := s0.kindUses (.send y) }
    if x.dev = s.amc.cfg.device then
      let r := us.foldl (fun r u => r.1.selfUnit r.2 d u) (s, c)
      let y := if x.rinc then r.1.receiveIncrement x.dev (s.cmdRid c) x.rcnt else (r.1, true)
      (y.1, if y.2 || r.2.cause ≠ 0 then { r.2 with done := us.length }
            else { r.2 with poisoned := true, cause := 0x43, done := us.length }, none, false)
    else
      let n := s.hub.out.length
      let t := (us.foldl (fun t u => (t.sendUnit c d x.dev u.addr u).2) s).codeUnits n
      let sent := unitStamps (t.hub.out.drop n)
      let st := t.stamp 26
      let path := st.2.hub.upPorts.getD (Config.free st.2.free % st.2.hub.upPorts.length) 16
      let u := if x.rinc then
        { st.2 with free := st.2.free + 1
                    hub := { st.2.hub with out := st.2.hub.out ++ [.increment x.dev path (s.cmdRid c) x.rcnt st.1 sent] } }
        else t
      (u, { c with done := us.length, sentUnits := sent }, none, !us.isEmpty || x.rinc)

/-! ### Completion (R323, R324, R447) -/

/-- The completion record (R324). -/
def Cmd.record (c : Cmd) (stamp cause addr sid : Nat) : List Byte :=
  natLe stamp 8 ++ natLe c.off.toNat 4 ++ natLe c.op 1 ++ natLe cause 1 ++ natLe sid 1 ++ [c.flags] ++ natLe addr 8
    ++ natLe c.done 4 ++ natLe c.crc 4

/-- A record of a command to the fault domain that its block was placed under, or its region's (R332, R371). -/
def State.cmdRecord (s : State) (c : Cmd) (k : Cause) (e : EngErr) (info : Bool) : State :=
  let st := s.stamp c.unit
  st.2.queueRecord (match c.dom with | some d => some d | none => s.domRef c.rcb)
    { stamp := st.1, rcb := c.rcb, ticket := 0xFFFFFFFF, cause := k.code, kind := 1, restart := !info, spill := false
      teamId := c.teamId, plane := 0, body := c.record st.1 e.cause e.addr e.sid, uid := none
      cmd := if info then none else some c.id, fqSize := 0, fqBase := 0, fqRoot := 0, fqRid := 0 } info

/-- The informational record of a signal that failed: its CAUSE is the fault's, for nothing is suspended (R374, R447). -/
def State.signalFailed (s : State) (c : Cmd) (p : Word64) (k : Cause) : State := s.cmdRecord c k (engErr k.code p.toNat) true

/-- A place for a signal: checked and translated as the command; a poisoned sector or an ended block fails it. -/
def State.signalPlace (s : State) (c : Cmd) (k : AccKind) (p : Word64) (n : Nat) (barrier : Bool) : Except Cause Place := do
  let s0 := s.asCmd c
  let t ← s0.checkAddr p n n 0
  let pl ← s0.route k t
  if s.poisonAt pl then .error .memoryPoison
  match pl with
  | .spad bid _ => if barrier && (s.findBlock bid).all Block.ended then .error .spaceStale else return pl
  | .dev _ => return pl

/-- The write of a command's record makes its look-up and reaches the L2 (R445). -/
def State.noteSignal (s : State) (c : Cmd) : State :=
  let p := s.asCmd c
  match p.checkAddr c.recAddr 1 1 0 with
  | .ok (.va a) => s.noteVa p.teamView (.engineWrite false) a
  | _ => s

/-- The signals of a command that completes, in order, but for the last (R323). -/
def State.signals (s : State) (c : Cmd) : State :=
  let w := c.ctl.toNat
  let st := s.stamp c.unit
  let s := if w.testBit 9 then
      match st.2.signalPlace c (.engineWrite false) c.recAddr 32 false with
      | .ok p => (st.2.noteSignal c).writeAt p 32 (leNat (c.record st.1 c.cause c.addr.toNat 0xFF))
      | .error k => (st.2.noteSignal c).signalFailed c c.recAddr k
    else s
  let s := if w.testBit 7 then
      let sel := 1024 + field w 0 6
      let r := s.countErr c.bid sel
      s.setCounter c.bid sel (r.1 + 1) (r.2 || c.poisoned)
    else s
  if w.testBit 8 then
    match s.signalPlace c .atomic c.pbAddr 16 true with
    | .ok p => (s.arrivePhase p c.poisoned).2
    | .error k => s.signalFailed c c.pbAddr k
  else s

/-- The command increments an arrival counter when it completes (R322). -/
def Cmd.counts (c : Cmd) : Bool := c.ctl.toNat.testBit 21

/-- The last signal: the increment of the arrival counter (R323). -/
def State.countUp (s : State) (c : Cmd) : State :=
  let n := field c.ctl.toNat 22 10
  if c.counts then (s.setCounter c.bid n (s.arrival n + 1) false).fireArmed n else s

/-- Destinations of a command. -/
def CmdKind.dsts : CmdKind → List Desc
  | .copy ds _ _ => ds
  | .gather d _ _ | .scatter d _ _ | .reduce d _ => [d]
  | _ => []

/-- A send may write through a descriptor with DB = 1: its descriptor says so, or could not be read yet (log 109). -/
def Send.mayDb (x : Send) : Bool := match x.src with | some d => d.db | none => x.srcAddr ≠ 0

/-- The addresses of the double-backed buffers that a command writes on this device, `dev`. -/
def CmdKind.written (dev : Nat) : CmdKind → List Nat
  | .send x => if x.dev = dev && x.mayDb then [x.peer] else []
  | k => (k.dsts.filter Desc.db).map (fun d => d.base.toNat)

/-- STATUS that a command gives its launch when it ends: 2 abandoned, 5 refused by a peer (R381, R425). -/
def Cmd.launchStatus (c : Cmd) : Nat := if c.cause = 0x42 then 2 else if c.cause = 0x43 then 5 else 0

/-- Set a command's record. -/
def State.setCmd (s : State) (c : Cmd) : State := { s with cmds := s.cmds.map (fun x => if x.id = c.id then c else x) }

/-- A command has made its signals: it leaves the machine, and a poisoned one is remembered by the buffers it wrote. -/
def State.endCmd (s : State) (c : Cmd) : State :=
  let s := (s.countUp c)
  let s := { s with cmds := s.cmds.filter (fun x => x.id != c.id) }
  let bad := if c.poisoned then c.kind.written s.amc.cfg.device else []
  let s := s.modTeam c.uid (fun t => { t with badBuffers := bad.foldl setAdd t.badBuffers })
  let s := s.modLaunch c.lid (fun l => { l with status := max l.status c.launchStatus })
  match c.cpQueue with
  | some q => s.finishCommand q c.launchStatus 0 0 0
  | none => s

/-- A command completes: its signals, and last the increment of its arrival counter, a release at system scope, which waits
for a flush of every peer written (R161, R166, R323). -/
def State.finishCmd (s : State) (c : Cmd) : State :=
  let s := s.signals c
  if !c.counts || s.quiet then s.endCmd c
  else
    let f := s.startFlush s.hub.written none none
    f.2.setCmd { c with status := .releasing f.1 }

/-- The look-up at which a command has faulted counts (R445, log 66). -/
def State.noteStop (s : State) (c : Cmd) (e : EngErr) : State :=
  let p := s.asCmd c
  if lookupCode e.cause then
    (match p.checkAddr (BitVec.ofNat 64 e.addr) 1 1 0 with | .ok (.va a) => s.fillTlb p.teamView a | _ => s)
  else s

/-- A command suspends: ENGINE to the fault domain (R332). What a peer refused before stays for its own record (R425). -/
def State.suspendCmd (s : State) (c : Cmd) (e : EngErr) : State :=
  let s := s.noteStop c e
  let c := { c with status := .suspended, stopCause := e.cause, stopAddr := BitVec.ofNat 64 e.addr }
  (s.setCmd c).cmdRecord c .engine e false

/-! ### What a command waits for -/

/-- The range of addresses that a descriptor's walk may touch. -/
def Desc.range (d : Desc) : Nat × Nat :=
  (d.base.toNat, d.base.toNat + (d.dim1 - 1) * d.stride1 + (d.dim2 - 1) * d.stride2 + (d.dim3 - 1) * d.stride3 + d.rowBytes)

/-- What a command writes in global memory: the device, none where OWNER entries decide, and the range of addresses, without end where
the descriptor of a fired send could not be read yet (log 109); `db`: through a descriptor with DB = 1. -/
structure WriteSpan where
  dev : Option Nat
  db : Bool
  lo : Nat
  hi : Option Nat
  deriving DecidableEq, Repr

/-- What a command writes in global memory. -/
def State.cmdWrites (s : State) (c : Cmd) : List WriteSpan :=
  let home (d : Desc) : Option Nat := if d.owner = 0 then some s.amc.cfg.device else none
  match c.kind with
  | .send x =>
    (match x.imm, x.src with
     | some _, _ => [⟨some x.dev, false, x.peer, some (x.peer + 128)⟩]
     | none, some d => [⟨some x.dev, d.db, x.peer, some (x.peer + (d.range.2 - d.range.1))⟩]
     | none, none => if x.srcAddr = 0 then [] else [⟨some x.dev, true, x.peer, none⟩])
  | k => (k.dsts.filter (fun d => d.space = 0)).map (fun d => ⟨home d, d.db, d.range.1, some d.range.2⟩)

/-- The physical sectors of this device that a write may reach, as ranges: one for each 64 KiB of addresses that translates. -/
def State.physSectors (s : State) (w : WriteSpan) : List (Nat × Nat) :=
  match w.hi with
  | none => []
  | some hi =>
    (List.range (if hi ≤ w.lo then 0 else (hi - 1) / 65536 + 1 - w.lo / 65536)).filterMap (fun i =>
      let a := max w.lo ((w.lo / 65536 + i) * 65536)
      match s.translate s.teamView (.engineWrite w.db) a with
      | .ok pa => some (pa / 64, (pa + (min hi ((w.lo / 65536 + i + 1) * 65536) - a) + 63) / 64)
      | .error _ => none)

/-- Two writes of one team may share a sector: by their addresses, or on this device by the pages behind them (R325). What a peer's
pages are is not known here, so there addresses alone are compared (log 109). `s` is the state as one of the commands sees it. -/
def State.writesMeet (s : State) (a b : WriteSpan) : Bool :=
  let below (x y : WriteSpan) : Bool := y.hi.all (fun h => x.lo / 64 * 64 < h)
  let own (x : WriteSpan) : Bool := x.dev.all (fun d => d = s.amc.cfg.device)
  (a.dev.isNone || b.dev.isNone || a.dev == b.dev)
  && (a.hi.isNone || b.hi.isNone || (below a b && below b a)
      || (own a && own b && (s.physSectors a).any (fun x => (s.physSectors b).any (fun y => x.1 < y.2 && y.1 < x.2))))

/-- The descriptors that a command reads data through. -/
def CmdKind.srcs : CmdKind → List Desc
  | .copy _ s _ => [s]
  | .gather _ s x | .scatter _ s x => [s, x]
  | .reduce _ cs => cs
  | .flush _ _ => []
  | .send x => x.src.toList

/-- A later command of a team waits for an earlier one: they may write a common sector (R325), or touch a local region that one
of them writes (R158); or it is a send to a peer that an XFLUSH names, which is delivered after that completes (R166). -/
def State.cmdAfter (s : State) (c x : Cmd) : Bool :=
  match x.status, x.kind, c.kind with
  | .releasing _, _, _ => false
  | st, .flush all bm, .send y =>
    y.dev != s.amc.cfg.device && if all then st = .queued || x.peers.contains y.dev else bm.getLsbD y.dev
  | .sent, _, _ => false
  | _, _, _ =>
    (s.cmdWrites x).any (fun a => (s.cmdWrites c).any ((s.asCmd c).writesMeet a))
    || meets x.uses c.uses

/-- The flushes that an XFLUSH waits for: its own and the earlier ones to peers it names (R336), but for those lost (R427). -/
def State.flushPending (s : State) (c : Cmd) : Bool :=
  match c.kind, c.flushing with
  | .flush all bm, some st => s.hub.flushes.any (fun f =>
      (if f.lost then f.stamp == st else !stampAfter f.stamp st) && f.left.any (fun p => all || bm.getLsbD p))
  | _, _ => false

/-- The destination rows that a command has still to write, from its mark on (R332). -/
def State.rowsLeft (s : State) (c : Cmd) : List (Desc × Nat) :=
  match c.kind with
  | .scatter d _ x => ((List.range x.dim0).drop c.mark.row).filterMap (fun r =>
      match ((indexAt x r s).run c.mem).1 with
      | .ok i => if 0 ≤ i ∧ i < d.dim1 then some (d, d.rowAddr (i.toNat, 0, 0)) else none
      | .error _ => none)
  | k => (((k.walks c).1.mapIdx (fun n w => (n, w))).drop c.mark.walk).flatMap (fun w =>
      (w.2.2.drop (if w.1 = c.mark.walk then c.mark.row else 0)).filterMap (fun j => j.1.map (fun a => (w.2.1, a))))

/-- The first address of each destination unit in some rows, in order (R332). -/
def unitStarts (apart : Bool) (rows : List (Desc × Nat)) : List (Desc × Nat) :=
  let pieces (r : Desc × Nat) : List (Desc × Nat) :=
    r.1.parts.flatMap (fun p => (sectorRuns (r.2 + p.1) p.2).map (fun q => (r.1, q.1)))
  let new (l : List (Desc × Nat)) (p : Desc × Nat) : List (Desc × Nat) :=
    if p.1.native || l.head?.all (fun h => h.1 != p.1 || h.2 / 64 ≠ p.2 / 64) then p :: l else l
  if apart then rows.flatMap (fun r => ((pieces r).foldl new []).reverse)
  else ((rows.flatMap pieces).foldl new []).reverse

/-- The destination units that a command has still to write, from its mark on, but for those that it has finished since. -/
def State.unitsLeft (s : State) (c : Cmd) : List (Desc × Nat) :=
  (unitStarts (c.op = 0x79) (s.rowsLeft c)).drop (c.done - c.mark.idx)

/-- A command has units still to send to a device. -/
def State.sendsTo (s : State) (c : Cmd) (dev : Nat) : Bool :=
  match c.kind with
  | .send x => x.dev == dev
  | k =>
    k.dsts.any (fun d => d.owner ≠ 0) &&
    (let s0 := s.asCmd c
     (s0.unitsLeft c).any (fun u => u.1.owner ≠ 0 &&
      match ((s0.engOwner u.1 u.2).run c.mem).1 with | .ok (some x) => x == dev | _ => false))

/-- A command waits: for an earlier one of its team, for its own flush, for a background copy into a shadow it writes (R139), or
for a path to a peer, any or a certain one (R427). -/
def State.cmdWaits (s : State) (c : Cmd) : Bool :=
  s.cmds.any (fun x => x.id < c.id && x.uid = c.uid && x.cpQueue = c.cpQueue && s.cmdAfter c x)
  || s.flushPending c
  || c.kind.dsts.any (fun d => d.db && match s.hub.pubFind (s.asCmd c).teamRid d.base.toNat with
      | some i => s.hub.syncs.any (fun x => x.1 == i)
      | none => false)
  || (s.hub.ports = 0 && match c.kind with
      | .send y => y.dev != s.amc.cfg.device
      | k => k.dsts.any (fun d => d.owner != 0))
  || s.hub.pathless.any (s.sendsTo c)

/-! ### Events of the engine (R325, R323, R332) -/

/-- The command an event names. -/
def State.argCmd (s : State) : Option Cmd := s.cmds.find? (fun c => c.id == s.arg.id)

/-- The copy engine of a core starts no command while the core is halted (R240), unless its group is being drained for a
swap, when it finishes every command it holds (R418). -/
def State.engineStops (s : State) (core : Nat) : Bool := s.halted.contains core && s.swapping != some (core / 16)

/-- A queued command may start: it is the first of its core's queue. -/
def State.cmdFirst (s : State) (c : Cmd) : Bool :=
  c.fired || c.cpQueue.isSome
  || !s.engineStops c.core && !s.cmds.any (fun x =>
      x.core == c.core && x.status == .queued && x.id < c.id && !x.fired && x.cpQueue.isNone)

/-- The peers that an XFLUSH sends markers to: those of its set that have been written since the last flush (R336). -/
def State.flushPeers (s : State) (all : Bool) (bm : BitVec 1024) : List Nat :=
  s.hub.written.filter (fun d => d != s.amc.cfg.device && (all || bm.getLsbD d))

/-- ENGINE_COMMAND_START: commands of a core start in queue order; an XFLUSH sends its markers (R325, R336). -/
def execEngineCommandStart (s : State) : Host.Outcome State Fault Refusal :=
  .next (match s.argCmd with
    | none => s
    | some c =>
      if c.status = .queued && s.cmdFirst c then
        match c.kind with
        | .flush all bm =>
          let peers := s.flushPeers all bm
          let r := s.startFlush peers (some c.id) none
          let older := ((s.hub.flushes.filter (fun f => !f.lost)).flatMap Flush.left).filter (fun p => all || bm.getLsbD p)
          r.2.setCmd { c with status := .running, flushing := some r.1, peers := older.foldl setAdd peers }
        | _ => s.setCmd { c with status := .running }
      else s)

/-- Run a command to its end or its fault. -/
def State.runCmd (s : State) (c : Cmd) : State × Cmd × Option EngErr × Bool :=
  match c.kind with
  | .send x => s.runSend c x
  | .flush _ _ => (s, c, none, false)
  | _ => s.runWalk c

/-- A running command runs: it completes, or waits for refusals once its units have left, or suspends. A command that meets no fault
runs in one step, so that what a concurrent write could change between its reads, the index windows of an XGATH among them, agrees
throughout (R13; logs 6, 61). -/
def State.advanceCmd (s : State) (c : Cmd) : State :=
  if s.cmdWaits c then s
  else match s.runCmd c with
    | (t, c, some e, _) => t.suspendCmd c e
    | (t, c, none, true) => t.setCmd { c with status := .sent }
    | (t, c, none, false) => t.finishCmd c

/-- ENGINE_COMMAND_COMPLETE (R323). -/
def execEngineCommandComplete (s : State) : Host.Outcome State Fault Refusal :=
  .next (match s.argCmd with
    | none => s
    | some c =>
      match c.status with
      | .running => (s.advanceCmd c).settle
      | .sent => (s.finishCmd c).settle
      | .releasing st => if s.flushed st then (s.endCmd c).settle else s
      | _ => s)

/-- ENGINE_SUSPEND: a running command that meets a fault (R332). -/
def execEngineSuspend (s : State) : Host.Outcome State Fault Refusal :=
  .next (match s.argCmd with
    | none => s
    | some c =>
      if c.status = .running && !s.cmdWaits c then
        match s.runCmd c with
        | (t, c, some e, _) => t.suspendCmd c e
        | _ => s
      else s)

end Sys2Proof.Machine
end

