-- ==== Sys2Proof/Machine/Command.lean ====
section
/-!
DEFINITION. The words that queue engine commands (R320..R322, R330, R333, R335..R338), XPUB (R339), and the publish
table's events (R139, R403).
-/
namespace Sys2Proof.Machine

/-! ### Issue (R320..R322, R395) -/

/-- A descriptor read at issue (R320). -/
def State.readDesc (s : State) (p : Word64) : Except FaultInfo Desc := do return descOf (← s.loadUnit p 64)

/-- A control group: the control word, phase barrier, record and auxiliary registers (R321). -/
structure Control where
  ctl : Word64
  pb : Word64
  rec_ : Word64
  aux : Word64
  deriving DecidableEq, Repr

/-- The group read at issue; sz gives zeros. -/
def State.control (s : State) (c : Nat) : Control :=
  if c < 192 then ⟨s.getS c, s.getS (c + 1), s.getS (c + 2), s.getS (c + 3)⟩ else ⟨0, 0, 0, 0⟩

/-- The checks of R322; `tr`: the command may transpose. -/
def State.controlOk (s : State) (g : Control) (tr : Bool) : Bool :=
  let w := g.ctl.toNat
  field w 18 3 = 0 && field w 10 7 = 0 && !w.testBit 6 && (tr || !w.testBit 17)
  && (!w.testBit 7 || field w 0 6 < s.blk.d.ccount)
  && (!w.testBit 21 || s.grantOk (field w 22 10))
  && (!w.testBit 8 || ((g.pb.toNat / 2 ^ 56 = 0xF1 || g.pb.toNat / 2 ^ 56 = 0xF2) && (s.checkAddr g.pb 16 16 0).toBool))
  && (!w.testBit 9 || (g.rec_.toNat % 32 = 0 && [0, 2, 3].contains (spaceTest g.rec_.toNat)))

/-- DESCRIPTOR unless a check holds. -/
def State.needDesc (s : State) (ok : Bool) : Except FaultInfo Unit := need ok (s.flt .descriptor)

/-- What tells the commands of a save or restore routine from those of the program (R415). -/
def Preempt.engKey (p : Preempt) : List Nat :=
  if p.saving.isSome then [1, p.resOff.toNat, p.outer.length]
  else if p.restoring.isSome then [2, p.resOff.toNat, p.outer.length] else []

/-- The name of the engine command that the team in focus issues next, as two runs of its launch name it alike, pre-empted or not
(log 104). -/
def State.engKey (s : State) : List Nat :=
  [s.blk.d.khdr, s.blk.d.seed.toNat, s.team.teamId, s.team.engSeq] ++ s.team.pre.engKey

/-- The command of the team in focus, from what it read at issue. -/
def State.newCmd (s : State) (op : Nat) (g : Control) (kind : CmdKind) : Cmd :=
  { Cmd.fresh with
    id := s.nextId, uid := s.team.uid, bid := s.team.bid, lid := s.team.lid, rcb := s.team.rcb, core := s.team.core
    teamId := s.team.teamId, system := s.team.system, seed := s.blk.d.seed, off := s.team.pc, op := op, kind := kind
    ctl := g.ctl, pbAddr := g.pb, recAddr := g.rec_, dom := s.blk.dom, eff := s.blk.eff, prid := s.blk.prid
    uses := s.kindUses kind, key := s.engKey }

/-- Queue a command that moves some bytes: it stalls on a full queue (R320, log 96), and above 64 KiB on copy leave (R395).
`reads` are the addresses of what it has read at issue. -/
def State.enqueue (s : State) (op : Nat) (g : Control) (kind : CmdKind) (bytes : Nat) (reads : List Word64) : State :=
  let kib := if bytes ≤ 65536 then 0 else ceilDiv bytes 1024
  if 32 ≤ s.queueLength s.team.core then s.stall .queue
  else if s.team.tokCopy < kib && s.team.granted ≠ some s.team.pc then s.stall (.leave true kib)
  else
    let t := s.noteUnits reads
    ({ t with cmds := t.cmds ++ [s.newCmd op g kind], nextId := t.nextId + 1
              team := { t.team with tokCopy := t.team.tokCopy - kib, granted := none, engSeq := t.team.engSeq + 1 } } : State).retire

/-! ### XCPY (R330) -/

/-- The conversion between a destination and a source that holds or takes the OCP layout is possible: E8M0 scales, unless
the bytes are copied unchanged. -/
def ocpOk (d s : Desc) (trn : Bool) : Bool :=
  copiesRaw d s trn || ((!d.ocp || d.bf.sfmt = 1) && (!s.ocp || s.bf.sfmt = 1))

/-- The checks of XCPY's descriptors at issue (R134, R330). -/
def copyOk (ds : List Desc) (src : Desc) (tr : Bool) : Bool :=
  src.ok false && ds.all (fun d => d.ok true) && (!src.col || tr)
  && (ds.mapIdx (fun n d => ocpOk d src (if n = 0 then tr else !tr))).all (fun b => b)
  && match ds with
    | d0 :: more =>
      (if tr then src.dim1 = d0.dim0 && src.dim0 = d0.dim1 else src.dim0 = d0.dim0 && src.dim1 = d0.dim1)
      && src.dim2 = d0.dim2 && src.dim3 = d0.dim3
      && more.all (fun d1 => d1.dim0 = d0.dim1 && d1.dim1 = d0.dim0 && d1.dim2 = d0.dim2 && d1.dim3 = d0.dim3
          && d1.db == d0.db)
    | [] => true

/-- Link the publish entries of a paired copy until the next XPUB of either (R330, R339). -/
def State.linkPair (s : State) (ds : List Desc) : State :=
  match ds with
  | [a, b] =>
    if a.db then
      let rid := s.teamRid
      match s.hub.pubFind rid a.base.toNat, s.hub.pubFind rid b.base.toNat with
      | some i, some j =>
        let link (p : SMap Byte) (i j : Nat) : SMap Byte :=
          storeLe (storeLe p (64 * i + 0x22) 1 (loadLe p (64 * i + 0x22) 1 % 2 + 2)) (64 * i + 0x28) 2 j
        { s with hub := { s.hub with publish := link (link s.hub.publish i j) j i } }
      | _, _ => s
    else s
  | _ => s

/-- XCPY, with one destination or two. The bytes that it moves are those of its destinations (log 130). -/
def State.xcpy (s : State) (a b c : Nat) (pair : Bool) : Except FaultInfo State := do
  s.hazardCheck
  let g := s.control c
  let src ← s.readDesc (s.getS b)
  let d0 ← s.readDesc (s.getS a)
  let more ← if pair then (do return [← s.readDesc (s.getS a + 64)]) else .ok []
  s.needDesc (s.controlOk g true)
  let tr := g.ctl.getLsbD 17
  let ds := d0 :: more
  s.needDesc (copyOk ds src tr)
  let t := s.enqueue 0x77 g (.copy ds src tr) ((ds.map Desc.bytes).sum)
    ([s.getS b, s.getS a] ++ if pair then [s.getS a + 64] else [])
  return if t.nextId = s.nextId then t else t.linkPair ds

/-- XCPY: one destination. -/
def execXcpy (a b c : Nat) (s : State) : Host.Outcome State Fault Refusal := answer s (s.xcpy a b c false)

/-- XCPY.pair: plain and transposed. -/
def execXcpyPair (a b c : Nat) (s : State) : Host.Outcome State Fault Refusal := answer s (s.xcpy a b c true)

/-! ### XGATH, XSCAT, CRED, XFLUSH (R333, R335, R336) -/

/-- The checks of a gather or scatter (R333). -/
def gatherOk (table list x : Desc) : Bool :=
  x.elem = 4 && x.dim1 = 1 && x.dim2 = 1 && x.dim3 = 1 && table.space = 0
  && table.elem = list.elem && table.fmt = list.fmt && table.dim0 = list.dim0
  && list.dim1 = x.dim0 && list.dim2 = 1 && list.dim3 = 1 && table.dim2 = 1 && table.dim3 = 1

/-- XGATH or XSCAT up to the queue. The bytes that it moves are those of the list rows (log 130). -/
def State.xgath (s : State) (scatter : Bool) (a b c : Nat) : Except FaultInfo State := do
  s.hazardCheck
  let g := s.control c
  let d ← s.readDesc (s.getS a)
  let src ← s.readDesc (s.getS b)
  let x ← s.readDesc g.aux
  s.needDesc (s.controlOk g false && d.ok true && src.ok false && x.ok false)
  s.needDesc (if scatter then gatherOk d src x else gatherOk src d x)
  let list := if scatter then src else d
  return s.enqueue (if scatter then 0x79 else 0x78) g (if scatter then .scatter d src x else .gather d src x) list.bytes
    [s.getS a, s.getS b, g.aux]

/-- XGATH. -/
def execXgath (a b c : Nat) (s : State) : Host.Outcome State Fault Refusal := answer s (s.xgath false a b c)

/-- XSCAT. -/
def execXscat (a b c : Nat) (s : State) : Host.Outcome State Fault Refusal := answer s (s.xgath true a b c)

/-- The addresses of `n` units of `w` bytes that follow one another. -/
def unitAddrs (p : Word64) (w n : Nat) : List Word64 := (List.range n).map (fun i => p + BitVec.ofNat 64 (w * i))

/-- CRED. The bytes that it moves are those of its destination (log 130). -/
def execCred (a b c : Nat) (s : State) : Host.Outcome State Fault Refusal :=
  answer s (do
    s.hazardCheck
    let g := s.control c
    let d ← s.readDesc (s.getS a)
    let n := leNat (← s.loadUnit (s.getS b) 8)
    s.needDesc (1 ≤ n && n ≤ 16)
    let bs ← s.loadUnits (s.getS b + 8) 8 n
    let ps := (List.range n).map (fun h => BitVec.ofNat 64 (leNat ((bs.drop (8 * h)).take 8)))
    let cs ← ps.mapM s.readDesc
    s.needDesc (s.controlOk g false && d.ok true && cs.all (fun x => x.ok false))
    s.needDesc (cs.all (fun x => x.dim0 = d.dim0 && x.dim1 = d.dim1 && x.dim2 = d.dim2 && x.dim3 = d.dim3))
    return s.enqueue 0x7E g (.reduce d cs) d.bytes ([s.getS a] ++ unitAddrs (s.getS b) 8 (n + 1) ++ ps))

/-- XFLUSH: sz names every peer written since the last flush. -/
def execXflush (a c : Nat) (s : State) : Host.Outcome State Fault Refusal :=
  answer s (do
    s.hazardCheck
    let g := s.control c
    let bm ← if a = 255 then .ok [] else s.loadUnits (s.getS a) 64 2
    s.needDesc (s.controlOk g false)
    return s.enqueue 0xFE g (.flush (a = 255) (BitVec.ofNat 1024 (leNat bm))) 0
      (if a = 255 then [] else unitAddrs (s.getS a) 64 2))

/-! ### Sends (R337, R338) -/

/-- The fields of a send word. -/
def sendOf (w peer : Nat) (src : Option Desc) (imm : Option (List (BitVec 512 × SideBand))) : Send :=
  { src := src, srcAddr := 0, imm := imm, peer := peer, cen := w.testBit 27, cc := field w 21 6, rinc := w.testBit 20
    rcnt := field w 10 10, dev := field w 0 10 }

/-- The checks of a send at issue (R337). -/
def State.sendOk (s : State) (w peer : Nat) : Bool :=
  w < 2 ^ 28 && (field w 0 10 = s.amc.cfg.device || Config.inPod (field w 0 10))
  && (!w.testBit 27 || field w 21 6 < s.blk.d.ccount) && peer / 2 ^ 56 = 0 && peer % 64 = 0

/-- The control word that a send's completion follows: CEN and CC alone. -/
def sendControl (x : Send) : Control := ⟨if x.cen then BitVec.ofNat 64 (128 + x.cc) else 0, 0, 0, 0⟩

/-- NSEND: the buffer form. Its descriptor is checked as a destination too, for the data lands under it (R134, R354). -/
def execNsend (a b c : Nat) (s : State) : Host.Outcome State Fault Refusal :=
  answer s (do
    s.hazardCheck
    let src ← if s.getS a = 0 then .ok none else (do return some (← s.readDesc (s.getS a)))
    s.needDesc (s.sendOk (s.getS c).toNat (s.getS b).toNat && src.all (fun d => d.ok true))
    let x := sendOf (s.getS c).toNat (s.getS b).toNat src none
    return s.enqueue 0x7C (sendControl x) (.send x) 0 (if s.getS a = 0 then [] else [s.getS a]))

/-- NSEND.imm: lanes 0..31 of a register with the side-bands of groups 0 and 1. -/
def execNsendImm (v b c : Nat) (s : State) : Host.Outcome State Fault Refusal :=
  answer s (do
    s.hazardCheck
    need (s.windowOk false [v]) (s.flt .windowRange)
    s.needDesc (s.sendOk (s.getS c).toNat (s.getS b).toNat)
    let g (i : Nat) := (BitVec.ofNat 512 (s.group v i).data, BitVec.ofNat 64 (s.group v i).side)
    let x := sendOf (s.getS c).toNat (s.getS b).toNat none (some [g 0, g 1])
    return s.enqueue 0x7C (sendControl x) (.send x) 0 [])

/-- TSEND: arm an entry; it fires at once if its counter already meets the threshold. It is the last thing of its clk, so that
an update of the counter in that clk has come first (R353). -/
def execTsend (a b c : Nat) (s : State) : Host.Outcome State Fault Refusal :=
  answer s (do
    s.hazardCheck
    let r ← s.loadUnit (s.getS c) 32
    let f (o : Nat) := leNat ((r.drop o).take 8)
    s.needDesc ((s.getS a).toNat < 1024 && s.grantOk (s.getS a).toNat)
    s.needDesc (f 24 = 0 && !(f 16).testBit 27 && s.sendOk (f 16) (f 8))
    if 4096 ≤ s.tableUse then return s.stall .table
    else
      let n := (s.getS a).toNat
      let e : Armed :=
        { counter := n, threshold := (s.getS b).toNat, srcAddr := BitVec.ofNat 64 (f 0), peer := f 8
          word := BitVec.ofNat 64 (f 16), uid := s.team.uid, bid := s.team.bid, lid := s.team.lid, rcb := s.team.rcb
          teamId := s.team.teamId, system := s.team.system, core := s.team.core, seed := s.blk.d.seed, off := s.team.pc
          dom := s.blk.dom, eff := s.blk.eff, prid := s.blk.prid, key := s.engKey }
      let u := s.noteUnits [s.getS c]
      let t := (({ u with hub := { u.hub with armed := u.hub.armed ++ [e] }, lastOfClk := true
                          team := { u.team with engSeq := u.team.engSeq + 1 } } : State).fireArmed n)
      return t.retire)

/-! ### XPUB (R339, R163, R137..R139) -/

/-- Swap front and shadow of an entry, end its link, and set G when a generation is given. -/
def swapEntry (p : SMap Byte) (i : Nat) (gen : Option Nat) : SMap Byte :=
  let q := storeLe p (64 * i + 0x22) 1 (1 - loadLe p (64 * i + 0x22) 1 % 2)
  match gen with | some g => storeLe q (64 * i + 0x24) 4 g | none => q

/-- The swap of XPUB, both buffers of a linked pair in one write. The partner keeps its own G, and no background copy is made
of it (log 65). -/
def State.publishSwap (s : State) (i gen : Nat) : State :=
  let e := s.hub.pubEntry i
  let p := swapEntry s.hub.publish i (some gen)
  { s with hub := { s.hub with publish := if e.linked && e.link ≠ i then swapEntry p e.link none else p } }

/-- The background copies of an entry and of the partner that swaps with it go to their ends (R139). -/
def State.syncPair (s : State) (i : Nat) : State :=
  let e := s.hub.pubEntry i
  let t := s.syncTo i (e.size / 64)
  if e.linked then t.syncTo e.link ((s.hub.pubEntry e.link).size / 64) else t

/-- A command writes the double-backed buffer of a publish entry: through a destination, or by a send that this device delivers
to itself, one whose descriptor is still unread included (R337, R339, log 109). -/
def State.writesEntry (s : State) (i : Nat) (x : Cmd) : Bool :=
  let mine (b : Nat) : Bool := s.hub.pubFind s.teamRid b == some i
  match x.kind with
  | .send y => y.dev == s.amc.cfg.device && y.mayDb && mine y.peer
  | k => k.dsts.any (fun y => y.db && mine y.base.toNat)

/-- XPUB: the team stalls until its earlier commands that write the buffer have completed, and at system scope until every peer
written has been flushed (R166); then the swap, or status 1 when one of the commands was poisoned, which leaves a link (log 132). -/
def State.xpub (s : State) (a r c : Nat) (sync : Bool) : Except FaultInfo State := do
  s.hazardCheck
  let d ← s.readDesc (s.getS a)
  s.needDesc (d.ok false && d.db)
  match s.hub.pubFind s.teamRid d.base.toNat with
  | none => .error (s.flt .descriptor)
  | some i =>
    let mine (b : Nat) : Bool := s.hub.pubFind s.teamRid b == some i
    match s.cmds.filter (fun x => x.uid == s.team.uid && s.writesEntry i x) with
    | x :: xs => return s.stall (.publish ((x :: xs).map Cmd.id))
    | [] =>
      if r = 5 && !s.quiet then return s.systemRelease
      else
        let bad := s.team.badBuffers.any mine
        let v := s.noteUnits [s.getS a]
        let t : State := { v with team := { v.team with badBuffers := v.team.badBuffers.filter (fun b => !mine b) } }
        if bad then return (t.setS c 1).retire
        else
          let u := (t.syncPair i).publishSwap i d.gen
          let u : State := if sync then { u with hub := { u.hub with syncs := u.hub.syncs ++ [(i, 0)] } } else u
          return (u.setS c 0).retire

/-- XPUB at scope `r` (R163, R339). -/
def execXpub (a r c : Nat) (s : State) : Host.Outcome State Fault Refusal := answer s (s.xpub a r c false)

/-- XPUB.sync: the new front is copied into the new shadow in the background. -/
def execXpubSync (a r c : Nat) (s : State) : Host.Outcome State Fault Refusal := answer s (s.xpub a r c true)

/-- PUBLISH_SYNC_COPY: the background copy of entry `arg.id` moves on by `arg.len` sectors, or to its end (R139). -/
def execPublishSyncCopy (s : State) : Host.Outcome State Fault Refusal :=
  .next (match s.hub.syncs.find? (fun x => x.1 == s.arg.id) with
    | none => s
    | some x => s.syncTo x.1 (if s.arg.len = 0 then (s.hub.pubEntry x.1).size / 64 else x.2 + s.arg.len))

/-- PUBLISH_ENTRY_STORE: a store of the event's bytes, 1, 2, 4 or 8 of them, reaches byte `arg.addr` of the publish window
(R403). -/
def execPublishEntryStore (s : State) : Host.Outcome State Fault Refusal :=
  .next (
    let n := s.arg.bytes.length
    if s.arg.addr + n ≤ pubSize && [1, 2, 4, 8].contains n && s.arg.addr % n = 0
    then s.pubStore s.arg.addr n (leNat s.arg.bytes) else s)

end Sys2Proof.Machine
end

