-- ==== Sys2Proof/Decode.lean ====
section
/-!
DEFINITION. The decoder, total on every word, and the encoder, both from the tables of R172 and R185..R190.

A word that no row assigns, or whose fields R191 forbids, is rejected by name; the machine turns the rejection into the
fault R191 names. The words of FDACT_RESTART, FDACT_END and FDACT_RESPILL are one word: the ACTION that tells
them apart stands in the register (R368, R375), so the decoder answers the first of them.
-/
namespace Sys2Proof

/-- Why a word is no instruction (R191). -/
inductive DecodeError where
  /-- No row of R185..R190 assigns the word. -/
  | unassigned
  /-- A row assigns it, but a field breaks a rule. -/
  | illFormed (why : IllForm)
  deriving DecidableEq, Repr

/-- The rows with OP 0..7 (R185..R190). -/
def matchRow0 (w : Nat) : Option Instr :=
  match w / 2 ^ 25 with
  | 0 =>
    if field w 0 25 = 0 then some (.ill) else
    if field w 0 25 = 1048576 then some (.nop) else
    if field w 0 25 = 2097152 then some (.exit) else
    if field w 0 25 = 3145728 then some (.texit) else
    if field w 0 25 = 4194304 then some (.refill) else
    if field w 0 25 = 5242880 then some (.join) else
    if field w 0 25 = 6291456 then some (.disb) else
    if field w 0 25 = 7340032 then some (.ret) else
    if field w 0 25 = 8388608 then some (.uret) else
    if field w 0 25 = 9437184 then some (.tret) else
    if field w 0 25 = 10485760 then some (.haltc) else
    none
  | 1 =>
    some (.yield (field w 16 9) (field w 0 16))
  | 2 =>
    if field w 16 9 = 0 then some (.trap (field w 0 16)) else
    none
  | 3 =>
    some (.mode (field w 0 25))
  | 4 =>
    if field w 3 22 = 0 then some (.fenceRel (field w 0 3)) else
    if field w 3 22 = 1 then some (.fenceAcq (field w 0 3)) else
    if field w 3 22 = 2 then some (.fenceAr (field w 0 3)) else
    none
  | 5 =>
    if field w 8 17 = 0 then some (.conv (field w 6 2) (field w 3 3) (field w 0 3)) else
    none
  | 6 =>
    if field w 7 18 = 0 then some (.enter (field w 0 7)) else
    none
  | 7 =>
    if field w 4 21 = 1 then some (.barArrive (field w 0 4)) else
    if field w 4 2 = 0 ∧ field w 15 10 = 0 then some (.barSync (field w 10 5) (field w 6 4) (field w 0 4)) else
    if field w 4 2 = 2 ∧ field w 15 10 = 0 then some (.barWait (field w 10 5) (field w 6 4) (field w 0 4)) else
    none
  | _ => none

/-- The rows with OP 8..15 (R185..R190). -/
def matchRow1 (w : Nat) : Option Instr :=
  match w / 2 ^ 25 with
  | 8 =>
    if field w 20 5 = 0 then some (.setj (field w 0 20)) else
    none
  | 9 =>
    some (.bru (field w 21 4) (field w 20 1) (field w 0 20))
  | 10 =>
    some (.brm (field w 21 4) (field w 20 1) (field w 0 20))
  | 11 =>
    some (.eject (field w 21 4) (field w 20 1) (field w 0 20))
  | 12 =>
    if field w 20 5 = 0 then some (.jmp (field w 0 20)) else
    none
  | 13 =>
    some (.call (field w 21 4) (field w 0 21))
  | 14 =>
    if field w 0 14 = 0 then some (.calli (field w 21 4) (field w 14 7)) else
    none
  | 15 =>
    if field w 0 9 = 0 ∧ field w 17 8 = 0 then some (.jmpi (field w 9 8)) else
    if field w 0 1 = 1 ∧ field w 5 4 = 0 ∧ field w 17 8 = 0 then some (.calls (field w 9 8) (field w 1 4)) else
    none
  | _ => none

/-- The rows with OP 16..23 (R185..R190). -/
def matchRow2 (w : Nat) : Option Instr :=
  match w / 2 ^ 25 with
  | 16 =>
    if field w 0 11 = 0 ∧ field w 18 7 = 0 then some (.plset (field w 11 7)) else
    if field w 0 4 = 1 ∧ field w 11 14 = 0 then some (.plsetConst (field w 4 7)) else
    none
  | 17 =>
    if field w 8 17 = 0 then some (.plsel (field w 6 2) (field w 4 2) (field w 0 4)) else
    none
  | 18 =>
    if field w 0 17 = 0 then some (.plocc (field w 17 8)) else
    none
  | 19 =>
    if field w 8 9 = 0 then some (.srd (field w 17 8) (field w 0 8)) else
    none
  | 20 =>
    if field w 0 17 = 19 then some (.swrMode (field w 17 8)) else
    if field w 0 17 = 20 then some (.swrSticky (field w 17 8)) else
    if field w 0 17 = 21 then some (.swrSsp (field w 17 8)) else
    if field w 0 17 = 33 then some (.swrTrapoff (field w 17 8)) else
    if field w 8 9 = 0 then some (.swr (field w 17 8) (field w 0 8)) else
    none
  | 21 =>
    if field w 8 9 = 0 then some (.pushm (field w 17 8) (field w 0 8)) else
    none
  | 22 =>
    if field w 8 9 = 0 then some (.popm (field w 17 8) (field w 0 8)) else
    none
  | 23 =>
    if field w 4 21 = 0 then some (.cbara (field w 0 4)) else
    none
  | _ => none

/-- The rows with OP 24..31 (R185..R190). -/
def matchRow3 (w : Nat) : Option Instr :=
  match w / 2 ^ 25 with
  | 24 =>
    if field w 4 2 = 0 ∧ field w 15 10 = 0 then some (.cbarw (field w 10 5) (field w 6 4) (field w 0 4)) else
    none
  | 25 =>
    if field w 0 17 = 0 then some (.pbara (field w 17 8)) else
    none
  | 26 =>
    if field w 0 8 = 0 then some (.pbwait (field w 17 8) (field w 13 4) (field w 8 5)) else
    none
  | 27 =>
    if field w 18 7 = 0 then some (.leave (field w 16 2) (field w 0 16)) else
    none
  | 28 =>
    if field w 12 5 = 0 then some (.psrd (field w 17 8) (field w 0 12)) else
    none
  | 29 =>
    if field w 0 17 = 2 then some (.pswrFqhead (field w 17 8)) else
    if field w 0 17 = 4 then some (.fdactRestart (field w 17 8)) else
    if field w 12 5 = 0 then some (.pswr (field w 17 8) (field w 0 12)) else
    none
  | 30 =>
    if field w 0 9 = 0 ∧ field w 17 8 = 0 then some (.tlbiPage (field w 9 8)) else
    if field w 0 9 = 1 ∧ field w 17 8 = 0 then some (.tlbiRegion (field w 9 8)) else
    none
  | _ => none

/-- The rows with OP 32..39 (R185..R190). -/
def matchRow4 (w : Nat) : Option Instr :=
  match w / 2 ^ 25 with
  | 32 =>
    if field w 0 1 = 0 then some (.sadd (field w 17 8) (field w 9 8) (field w 1 8)) else
    if field w 0 1 = 1 then some (.ssub (field w 17 8) (field w 9 8) (field w 1 8)) else
    none
  | 33 =>
    if field w 0 1 = 0 then some (.smul (field w 17 8) (field w 9 8) (field w 1 8)) else
    if field w 0 1 = 1 then some (.smulh (field w 17 8) (field w 9 8) (field w 1 8)) else
    none
  | 34 =>
    if field w 0 1 = 0 then some (.sdiv (field w 17 8) (field w 9 8) (field w 1 8)) else
    if field w 0 1 = 1 then some (.sdivu (field w 17 8) (field w 9 8) (field w 1 8)) else
    none
  | 35 =>
    if field w 0 1 = 0 then some (.srem (field w 17 8) (field w 9 8) (field w 1 8)) else
    if field w 0 1 = 1 then some (.sremu (field w 17 8) (field w 9 8) (field w 1 8)) else
    none
  | 36 =>
    if field w 0 1 = 0 then some (.sand (field w 17 8) (field w 9 8) (field w 1 8)) else
    if field w 0 1 = 1 then some (.sor (field w 17 8) (field w 9 8) (field w 1 8)) else
    none
  | 37 =>
    if field w 0 1 = 0 then some (.sxor (field w 17 8) (field w 9 8) (field w 1 8)) else
    if field w 0 1 = 1 then some (.sandn (field w 17 8) (field w 9 8) (field w 1 8)) else
    none
  | 38 =>
    if field w 0 1 = 0 then some (.sshl (field w 17 8) (field w 9 8) (field w 1 8)) else
    if field w 0 1 = 1 then some (.sshr (field w 17 8) (field w 9 8) (field w 1 8)) else
    none
  | 39 =>
    if field w 0 1 = 0 then some (.ssra (field w 17 8) (field w 9 8) (field w 1 8)) else
    if field w 0 1 = 1 then some (.srotr (field w 17 8) (field w 9 8) (field w 1 8)) else
    none
  | _ => none

/-- The rows with OP 40..47 (R185..R190). -/
def matchRow5 (w : Nat) : Option Instr :=
  match w / 2 ^ 25 with
  | 40 =>
    if field w 0 1 = 0 then some (.smin (field w 17 8) (field w 9 8) (field w 1 8)) else
    if field w 0 1 = 1 then some (.smax (field w 17 8) (field w 9 8) (field w 1 8)) else
    none
  | 41 =>
    if field w 0 1 = 0 then some (.sminu (field w 17 8) (field w 9 8) (field w 1 8)) else
    if field w 0 1 = 1 then some (.smaxu (field w 17 8) (field w 9 8) (field w 1 8)) else
    none
  | 42 =>
    if field w 0 1 = 0 then some (.sslt (field w 17 8) (field w 9 8) (field w 1 8)) else
    if field w 0 1 = 1 then some (.ssltu (field w 17 8) (field w 9 8) (field w 1 8)) else
    none
  | 43 =>
    if field w 0 1 = 0 then some (.sseq (field w 17 8) (field w 9 8) (field w 1 8)) else
    if field w 0 1 = 1 then some (.ssne (field w 17 8) (field w 9 8) (field w 1 8)) else
    none
  | 44 =>
    if field w 0 1 = 0 then some (.ssel (field w 17 8) (field w 9 8) (field w 1 8)) else
    if field w 0 1 = 1 then some (.sselz (field w 17 8) (field w 9 8) (field w 1 8)) else
    none
  | 45 =>
    if field w 0 9 = 0 then some (.spopc (field w 17 8) (field w 9 8)) else
    if field w 0 9 = 1 then some (.sclz (field w 17 8) (field w 9 8)) else
    none
  | 46 =>
    if field w 0 9 = 0 then some (.sctz (field w 17 8) (field w 9 8)) else
    if field w 0 9 = 1 then some (.sbrev (field w 17 8) (field w 9 8)) else
    none
  | 47 =>
    some (.saddi (field w 17 8) (field w 9 8) (field w 0 9))
  | _ => none

/-- The rows with OP 48..55 (R185..R190). -/
def matchRow6 (w : Nat) : Option Instr :=
  match w / 2 ^ 25 with
  | 48 =>
    some (.sandi (field w 17 8) (field w 9 8) (field w 0 9))
  | 49 =>
    some (.sori (field w 17 8) (field w 9 8) (field w 0 9))
  | 50 =>
    some (.sxori (field w 17 8) (field w 9 8) (field w 0 9))
  | 51 =>
    if field w 6 3 = 0 then some (.sshli (field w 17 8) (field w 9 8) (field w 0 6)) else
    none
  | 52 =>
    if field w 6 3 = 0 then some (.sshri (field w 17 8) (field w 9 8) (field w 0 6)) else
    none
  | 53 =>
    if field w 6 3 = 0 then some (.ssrai (field w 17 8) (field w 9 8) (field w 0 6)) else
    none
  | 54 =>
    some (.sslti (field w 17 8) (field w 9 8) (field w 0 9))
  | 55 =>
    some (.sli (field w 17 8) (field w 0 17))
  | _ => none

/-- The rows with OP 56..63 (R185..R190). -/
def matchRow7 (w : Nat) : Option Instr :=
  match w / 2 ^ 25 with
  | 56 =>
    some (.slui (field w 17 8) (field w 0 17))
  | 57 =>
    some (.sld64 (field w 17 8) (field w 9 8) (field w 4 5) (field w 0 4))
  | 58 =>
    some (.sld32 (field w 17 8) (field w 9 8) (field w 4 5) (field w 0 4))
  | 59 =>
    some (.sst64 (field w 17 8) (field w 9 8) (field w 4 5) (field w 0 4))
  | 60 =>
    some (.sst32 (field w 17 8) (field w 9 8) (field w 4 5) (field w 0 4))
  | 61 =>
    some (.vld8 (field w 18 7) (field w 12 6) (field w 5 7) (field w 1 4) (field w 0 1))
  | 62 =>
    some (.vld16 (field w 18 7) (field w 12 6) (field w 5 7) (field w 1 4) (field w 0 1))
  | 63 =>
    some (.vld32 (field w 18 7) (field w 12 6) (field w 5 7) (field w 1 4) (field w 0 1))
  | _ => none

/-- The rows with OP 64..71 (R185..R190). -/
def matchRow8 (w : Nat) : Option Instr :=
  match w / 2 ^ 25 with
  | 64 =>
    some (.vld64 (field w 18 7) (field w 12 6) (field w 5 7) (field w 1 4) (field w 0 1))
  | 65 =>
    some (.vldb (field w 18 7) (field w 12 6) (field w 5 7) (field w 1 4) (field w 0 1))
  | 66 =>
    some (.vst8 (field w 18 7) (field w 12 6) (field w 5 7) (field w 1 4) (field w 0 1))
  | 67 =>
    some (.vst16 (field w 18 7) (field w 12 6) (field w 5 7) (field w 1 4) (field w 0 1))
  | 68 =>
    some (.vst32 (field w 18 7) (field w 12 6) (field w 5 7) (field w 1 4) (field w 0 1))
  | 69 =>
    some (.vst64 (field w 18 7) (field w 12 6) (field w 5 7) (field w 1 4) (field w 0 1))
  | 70 =>
    some (.vstb (field w 18 7) (field w 12 6) (field w 5 7) (field w 1 4) (field w 0 1))
  | 71 =>
    some (.vatom (field w 18 7) (field w 11 7) (field w 8 3) (field w 4 4) (field w 0 4))
  | _ => none

/-- The rows with OP 72..79 (R185..R190). -/
def matchRow9 (w : Nat) : Option Instr :=
  match w / 2 ^ 25 with
  | 72 =>
    some (.satom (field w 17 8) (field w 9 8) (field w 5 4) (field w 4 1) (field w 0 4))
  | 73 =>
    if field w 0 9 = 0 then some (.sptest (field w 17 8) (field w 9 8)) else
    none
  | 74 =>
    if field w 0 1 = 0 ∧ field w 5 4 = 0 then some (.spcast (field w 17 8) (field w 9 8) (field w 4 1) (field w 1 3)) else
    none
  | 75 =>
    if field w 0 11 = 0 then some (.vsptest (field w 18 7) (field w 11 7)) else
    none
  | 76 =>
    if field w 0 4 = 0 ∧ field w 8 3 = 0 then some (.vspcast (field w 18 7) (field w 11 7) (field w 7 1) (field w 4 3)) else
    none
  | 77 =>
    if field w 0 4 = 0 ∧ field w 17 8 = 0 then some (.prefL1 (field w 9 8) (field w 4 5)) else
    if field w 0 4 = 0 ∧ field w 17 8 = 1 then some (.prefL2 (field w 9 8) (field w 4 5)) else
    none
  | 78 =>
    if field w 0 25 = 2 then some (.cctlL1all) else
    if field w 0 9 = 0 ∧ field w 17 8 = 0 then some (.cctlL1line (field w 9 8)) else
    if field w 0 9 = 4 ∧ field w 17 8 = 0 then some (.cctlL2evict (field w 9 8)) else
    none
  | _ => none

/-- The rows with OP 80..87 (R185..R190). -/
def matchRow10 (w : Nat) : Option Instr :=
  match w / 2 ^ 25 with
  | 80 =>
    if field w 0 4 = 0 then some (.vadd (field w 18 7) (field w 11 7) (field w 4 7)) else
    if field w 0 4 = 1 then some (.vsub (field w 18 7) (field w 11 7) (field w 4 7)) else
    if field w 0 4 = 2 then some (.vmul (field w 18 7) (field w 11 7) (field w 4 7)) else
    if field w 0 4 = 3 then some (.vmulh (field w 18 7) (field w 11 7) (field w 4 7)) else
    if field w 0 4 = 4 then some (.vmin (field w 18 7) (field w 11 7) (field w 4 7)) else
    if field w 0 4 = 5 then some (.vmax (field w 18 7) (field w 11 7) (field w 4 7)) else
    if field w 0 4 = 6 then some (.vabsd (field w 18 7) (field w 11 7) (field w 4 7)) else
    if field w 0 4 = 7 then some (.vdiv (field w 18 7) (field w 11 7) (field w 4 7)) else
    if field w 0 4 = 8 then some (.vrem (field w 18 7) (field w 11 7) (field w 4 7)) else
    if field w 0 4 = 9 then some (.vfma (field w 18 7) (field w 11 7) (field w 4 7)) else
    if field w 0 4 = 10 then some (.vfms (field w 18 7) (field w 11 7) (field w 4 7)) else
    if field w 0 4 = 11 then some (.vfnma (field w 18 7) (field w 11 7) (field w 4 7)) else
    if field w 0 4 = 12 then some (.vaddsat (field w 18 7) (field w 11 7) (field w 4 7)) else
    if field w 0 4 = 13 then some (.vsubsat (field w 18 7) (field w 11 7) (field w 4 7)) else
    if field w 0 4 = 14 then some (.vavg (field w 18 7) (field w 11 7) (field w 4 7)) else
    if field w 0 4 = 15 then some (.vcopysign (field w 18 7) (field w 11 7) (field w 4 7)) else
    none
  | 81 =>
    if field w 0 4 = 0 then some (.vand (field w 18 7) (field w 11 7) (field w 4 7)) else
    if field w 0 4 = 1 then some (.vor (field w 18 7) (field w 11 7) (field w 4 7)) else
    if field w 0 4 = 2 then some (.vxor (field w 18 7) (field w 11 7) (field w 4 7)) else
    if field w 0 4 = 3 then some (.vandn (field w 18 7) (field w 11 7) (field w 4 7)) else
    if field w 0 4 = 4 then some (.vshl (field w 18 7) (field w 11 7) (field w 4 7)) else
    if field w 0 4 = 5 then some (.vshr (field w 18 7) (field w 11 7) (field w 4 7)) else
    if field w 0 4 = 6 then some (.vsra (field w 18 7) (field w 11 7) (field w 4 7)) else
    if field w 0 4 = 7 then some (.vrotr (field w 18 7) (field w 11 7) (field w 4 7)) else
    none
  | 82 =>
    some (.vaddi (field w 18 7) (field w 11 7) (field w 0 11))
  | 83 =>
    some (.vmuli (field w 18 7) (field w 11 7) (field w 0 11))
  | 84 =>
    some (.vandi (field w 18 7) (field w 11 7) (field w 0 11))
  | 85 =>
    some (.vori (field w 18 7) (field w 11 7) (field w 0 11))
  | 86 =>
    if field w 6 5 = 0 then some (.vshli (field w 18 7) (field w 11 7) (field w 0 6)) else
    if field w 6 5 = 1 then some (.vshri (field w 18 7) (field w 11 7) (field w 0 6)) else
    if field w 6 5 = 2 then some (.vsrai (field w 18 7) (field w 11 7) (field w 0 6)) else
    if field w 6 5 = 3 then some (.vrotri (field w 18 7) (field w 11 7) (field w 0 6)) else
    none
  | 87 =>
    if field w 11 7 = 0 then some (.vmovi (field w 18 7) (field w 0 11)) else
    none
  | _ => none

/-- The rows with OP 88..95 (R185..R190). -/
def matchRow11 (w : Nat) : Option Instr :=
  match w / 2 ^ 25 with
  | 88 =>
    if field w 0 11 = 0 then some (.vmov (field w 18 7) (field w 11 7)) else
    if field w 0 11 = 1 then some (.vneg (field w 18 7) (field w 11 7)) else
    if field w 0 11 = 2 then some (.vabs (field w 18 7) (field w 11 7)) else
    if field w 0 11 = 3 then some (.vnot (field w 18 7) (field w 11 7)) else
    if field w 0 11 = 4 then some (.vpopc (field w 18 7) (field w 11 7)) else
    if field w 0 11 = 5 then some (.vclz (field w 18 7) (field w 11 7)) else
    if field w 0 11 = 6 then some (.vsext8 (field w 18 7) (field w 11 7)) else
    if field w 0 11 = 7 then some (.vsext16 (field w 18 7) (field w 11 7)) else
    if field w 0 11 = 8 then some (.vrcp (field w 18 7) (field w 11 7)) else
    if field w 0 11 = 9 then some (.vrsq (field w 18 7) (field w 11 7)) else
    if field w 0 11 = 10 then some (.vsqrt (field w 18 7) (field w 11 7)) else
    if field w 0 11 = 11 then some (.vexp2 (field w 18 7) (field w 11 7)) else
    if field w 0 11 = 12 then some (.vlog2 (field w 18 7) (field w 11 7)) else
    if field w 0 11 = 13 then some (.vsin (field w 18 7) (field w 11 7)) else
    if field w 0 11 = 14 then some (.vcos (field w 18 7) (field w 11 7)) else
    if field w 0 11 = 15 then some (.vtanh (field w 18 7) (field w 11 7)) else
    none
  | 89 =>
    if field w 0 4 = 0 ∧ field w 8 3 = 0 then some (.vcvt (field w 18 7) (field w 11 7) (field w 4 4)) else
    none
  | 90 =>
    if field w 0 3 = 5 ∧ field w 11 7 = 0 then some (.vbcast (field w 18 7) (field w 3 8)) else
    if field w 0 3 = 0 then some (.vadds (field w 18 7) (field w 11 7) (field w 3 8)) else
    if field w 0 3 = 1 then some (.vmuls (field w 18 7) (field w 11 7) (field w 3 8)) else
    if field w 0 3 = 2 then some (.vfmas (field w 18 7) (field w 11 7) (field w 3 8)) else
    if field w 0 3 = 3 then some (.vmins (field w 18 7) (field w 11 7) (field w 3 8)) else
    if field w 0 3 = 4 then some (.vmaxs (field w 18 7) (field w 11 7) (field w 3 8)) else
    if field w 0 3 = 6 then some (.vshls (field w 18 7) (field w 11 7) (field w 3 8)) else
    if field w 0 3 = 7 then some (.vshrs (field w 18 7) (field w 11 7) (field w 3 8)) else
    none
  | 91 =>
    some (.vcmp (field w 21 4) (field w 14 7) (field w 7 7) (field w 3 4) (field w 0 3))
  | 92 =>
    some (.vcmps (field w 21 4) (field w 14 7) (field w 6 8) (field w 2 4) (field w 0 2))
  | 93 =>
    some (.vsel (field w 18 7) (field w 11 7) (field w 4 7) (field w 0 4))
  | 94 =>
    if field w 0 21 = 5120 then some (.pset (field w 21 4)) else
    if field w 0 21 = 6144 then some (.pclr (field w 21 4)) else
    if field w 0 17 = 4096 then some (.pnot (field w 21 4) (field w 17 4)) else
    if field w 0 17 = 7168 then some (.pmov (field w 21 4) (field w 17 4)) else
    if field w 0 13 = 0 then some (.pand (field w 21 4) (field w 17 4) (field w 13 4)) else
    if field w 0 13 = 1024 then some (.por (field w 21 4) (field w 17 4) (field w 13 4)) else
    if field w 0 13 = 2048 then some (.pxor (field w 21 4) (field w 17 4) (field w 13 4)) else
    if field w 0 13 = 3072 then some (.pandn (field w 21 4) (field w 17 4) (field w 13 4)) else
    none
  | 95 =>
    if field w 0 4 = 0 then some (.vshfl (field w 18 7) (field w 11 7) (field w 4 7)) else
    if field w 0 4 = 1 then some (.vshflTeam (field w 18 7) (field w 11 7) (field w 4 7)) else
    none
  | _ => none

/-- The rows with OP 96..103 (R185..R190). -/
def matchRow12 (w : Nat) : Option Instr :=
  match w / 2 ^ 25 with
  | 96 =>
    if field w 18 7 = 0 then some (.vred (field w 11 7) (field w 3 8) (field w 0 3)) else
    none
  | 97 =>
    some (.vscan (field w 18 7) (field w 11 7) (field w 3 8) (field w 0 3))
  | 98 =>
    if field w 15 3 = 0 then some (.vball (field w 18 7) (field w 11 4) (field w 3 8) (field w 0 3)) else
    none
  | 99 =>
    some (.vnzs (field w 18 7) (field w 11 7) (field w 3 8) (field w 0 3))
  | 100 =>
    if field w 0 4 = 0 then some (.visect (field w 18 7) (field w 11 7) (field w 4 7)) else
    none
  | 101 =>
    if field w 0 4 = 7 ∧ field w 8 3 = 0 ∧ field w 18 7 = 0 then some (.vhist (field w 11 7) (field w 4 4)) else
    if field w 0 11 = 0 then some (.vbmax (field w 18 7) (field w 11 7)) else
    if field w 0 4 = 1 ∧ field w 8 3 = 0 then some (.vscsel (field w 18 7) (field w 11 7) (field w 4 4)) else
    if field w 0 4 = 2 ∧ field w 8 3 = 0 then some (.vqnt (field w 18 7) (field w 11 7) (field w 4 4)) else
    if field w 0 4 = 3 ∧ field w 8 3 = 0 then some (.vdq (field w 18 7) (field w 11 7) (field w 4 4)) else
    if field w 0 4 = 6 ∧ field w 8 3 = 0 then some (.vreq (field w 18 7) (field w 11 7) (field w 4 4)) else
    if field w 0 4 = 4 then some (.vpack (field w 18 7) (field w 11 7) (field w 8 3) (field w 4 4)) else
    if field w 0 4 = 5 then some (.vunpk (field w 18 7) (field w 11 7) (field w 8 3) (field w 4 4)) else
    none
  | 102 =>
    if field w 0 1 = 0 then some (.spctl (field w 17 8) (field w 9 8) (field w 1 8)) else
    none
  | 103 =>
    if field w 4 14 = 0 then some (.vlane (field w 18 7) (field w 0 4)) else
    none
  | _ => none

/-- The rows with OP 104..111 (R185..R190). -/
def matchRow13 (w : Nat) : Option Instr :=
  match w / 2 ^ 25 with
  | 104 =>
    if field w 0 11 = 0 then some (.vsideRd (field w 18 7) (field w 11 7)) else
    if field w 0 11 = 1 then some (.vsideWr (field w 18 7) (field w 11 7)) else
    none
  | 105 =>
    if field w 0 1 = 0 then some (.xcntSet (field w 17 8) (field w 9 8) (field w 1 8)) else
    if field w 0 1 = 1 then some (.xcntAdd (field w 17 8) (field w 9 8) (field w 1 8)) else
    none
  | 108 =>
    if field w 11 1 = 0 ∧ field w 20 5 = 0 then some (.tclm (field w 12 8) (field w 5 6) (field w 0 5)) else
    if field w 11 1 = 1 ∧ field w 20 5 = 0 then some (.tclmTry (field w 12 8) (field w 5 6) (field w 0 5)) else
    none
  | 109 =>
    if field w 11 14 = 0 then some (.trel (field w 5 6) (field w 0 5)) else
    none
  | 110 =>
    if field w 11 1 = 0 ∧ field w 20 5 = 0 then some (.aclm (field w 12 8) (field w 5 6) (field w 0 5)) else
    if field w 11 1 = 1 ∧ field w 20 5 = 0 then some (.aclmTry (field w 12 8) (field w 5 6) (field w 0 5)) else
    none
  | 111 =>
    if field w 11 14 = 0 then some (.arel (field w 5 6) (field w 0 5)) else
    none
  | _ => none

/-- The rows with OP 112..119 (R185..R190). -/
def matchRow14 (w : Nat) : Option Instr :=
  match w / 2 ^ 25 with
  | 112 =>
    if field w 0 2 = 0 then some (.tldDense (field w 20 5) (field w 12 8) (field w 4 8) (field w 2 2)) else
    if field w 0 2 = 1 then some (.tldDec (field w 20 5) (field w 12 8) (field w 4 8) (field w 2 2)) else
    if field w 0 2 = 2 then some (.tldPcs (field w 20 5) (field w 12 8) (field w 4 8) (field w 2 2)) else
    none
  | 113 =>
    if field w 0 12 = 4080 then some (.tst (field w 20 5) (field w 12 8)) else
    none
  | 114 =>
    if field w 0 6 = 0 then some (.mma (field w 21 4) (field w 16 5) (field w 11 5) (field w 10 1) (field w 9 1) (field w 6 3)) else
    if field w 0 6 = 1 then some (.mmaZ (field w 21 4) (field w 16 5) (field w 11 5) (field w 10 1) (field w 9 1) (field w 6 3)) else
    none
  | 115 =>
    some (.mmas (field w 21 4) (field w 16 5) (field w 11 5) (field w 8 3) (field w 0 8))
  | 116 =>
    if field w 0 13 = 8 ∧ field w 18 7 = 0 then some (.azero (field w 13 5)) else
    if field w 0 5 = 0 then some (.ardr (field w 18 7) (field w 13 5) (field w 5 8)) else
    if field w 0 5 = 1 then some (.ardc (field w 18 7) (field w 13 5) (field w 5 8)) else
    if field w 0 5 = 2 then some (.awrr (field w 18 7) (field w 13 5) (field w 5 8)) else
    if field w 0 5 = 3 then some (.awrc (field w 18 7) (field w 13 5) (field w 5 8)) else
    if field w 0 5 = 4 then some (.trdr (field w 18 7) (field w 13 5) (field w 5 8)) else
    if field w 0 5 = 5 then some (.trdc (field w 18 7) (field w 13 5) (field w 5 8)) else
    if field w 0 5 = 6 then some (.twrr (field w 18 7) (field w 13 5) (field w 5 8)) else
    if field w 0 5 = 7 then some (.twrc (field w 18 7) (field w 13 5) (field w 5 8)) else
    none
  | 117 =>
    if field w 3 2 = 0 then some (.aqnt (field w 21 4) (field w 13 8) (field w 5 8) (field w 2 1) (field w 0 2)) else
    none
  | 118 =>
    if field w 8 9 = 0 then some (.tinfo (field w 17 8) (field w 5 3) (field w 0 5)) else
    none
  | 119 =>
    if field w 0 1 = 0 then some (.xcpy (field w 17 8) (field w 9 8) (field w 1 8)) else
    if field w 0 1 = 1 then some (.xcpyPair (field w 17 8) (field w 9 8) (field w 1 8)) else
    none
  | _ => none

/-- The rows with OP 120..127 (R185..R190). -/
def matchRow15 (w : Nat) : Option Instr :=
  match w / 2 ^ 25 with
  | 120 =>
    if field w 0 1 = 0 then some (.xgath (field w 17 8) (field w 9 8) (field w 1 8)) else
    none
  | 121 =>
    if field w 0 1 = 0 then some (.xscat (field w 17 8) (field w 9 8) (field w 1 8)) else
    none
  | 122 =>
    if field w 0 1 = 0 ∧ field w 12 5 = 0 then some (.xpub (field w 17 8) (field w 9 3) (field w 1 8)) else
    if field w 0 1 = 1 ∧ field w 12 5 = 0 then some (.xpubSync (field w 17 8) (field w 9 3) (field w 1 8)) else
    none
  | 123 =>
    if field w 0 1 = 0 then some (.xwait (field w 17 8) (field w 9 8) (field w 1 8)) else
    if field w 0 1 = 1 then some (.xwaitTest (field w 17 8) (field w 9 8) (field w 1 8)) else
    none
  | 124 =>
    if field w 0 1 = 1 ∧ field w 24 1 = 0 then some (.nsendImm (field w 17 7) (field w 9 8) (field w 1 8)) else
    if field w 0 1 = 0 then some (.nsend (field w 17 8) (field w 9 8) (field w 1 8)) else
    none
  | 125 =>
    if field w 0 1 = 0 then some (.tsend (field w 17 8) (field w 9 8) (field w 1 8)) else
    none
  | 126 =>
    if field w 0 1 = 1 ∧ field w 9 8 = 0 then some (.xflush (field w 17 8) (field w 1 8)) else
    if field w 0 1 = 0 then some (.cred (field w 17 8) (field w 9 8) (field w 1 8)) else
    none
  | _ => none

/-- The row that a word matches, with its raw fields (R185..R190). -/
def matchRow (w : Nat) : Option Instr :=
  match w / 2 ^ 28 with
  | 0 => matchRow0 w
  | 1 => matchRow1 w
  | 2 => matchRow2 w
  | 3 => matchRow3 w
  | 4 => matchRow4 w
  | 5 => matchRow5 w
  | 6 => matchRow6 w
  | 7 => matchRow7 w
  | 8 => matchRow8 w
  | 9 => matchRow9 w
  | 10 => matchRow10 w
  | 11 => matchRow11 w
  | 12 => matchRow12 w
  | 13 => matchRow13 w
  | 14 => matchRow14 w
  | 15 => matchRow15 w
  | _ => none

/-- The instruction a 32-bit word stands for, a prefix word apart (R191). -/
def decodeWord (w : Nat) : Except DecodeError Instr :=
  match matchRow w with
  | none => .error .unassigned
  | some i =>
    match i.illForm with
    | none => .ok i
    | some why => .error (.illFormed why)

/-- The fields of a prefix word (R179). -/
def decodePrefix (w : Nat) : Prefix :=
  { grd := field w 20 5, mz := field w 19 1, rnd := field w 16 3, d4 := field w 9 7,
    lps := field w 8 1, lp := field w 5 3, k := field w 0 5 }

/-- Whether a word is a prefix word (R179). -/
def isPrefixWord (w : Nat) : Bool := w / 2 ^ 25 = 0x7F

/-- The word of a prefix (R179). -/
def encodePrefix (p : Prefix) : Nat :=
  0xFE000000 + p.grd * 2 ^ 20 + p.mz * 2 ^ 19 + p.rnd * 2 ^ 16 + p.d4 * 2 ^ 9 + p.lps * 2 ^ 8 + p.lp * 2 ^ 5 + p.k

/-- The word of an instruction that is one word (R172); none for an event or a prefixed pair. -/
def encodeWord : Instr → Option Nat
  | .yield i d => some (33554432 + i * 65536 + d)
  | .trap c => some (67108864 + c)
  | .mode m => some (100663296 + m)
  | .fenceRel s => some (134217728 + s)
  | .fenceAcq s => some (134217736 + s)
  | .fenceAr s => some (134217744 + s)
  | .conv m n c => some (167772160 + m * 64 + n * 8 + c)
  | .enter n => some (201326592 + n)
  | .barSync w s i => some (234881024 + w * 1024 + s * 64 + i)
  | .barArrive i => some (234881040 + i)
  | .barWait w s i => some (234881056 + w * 1024 + s * 64 + i)
  | .setj o => some (268435456 + o)
  | .bru p n o => some (301989888 + p * 2097152 + n * 1048576 + o)
  | .brm p n o => some (335544320 + p * 2097152 + n * 1048576 + o)
  | .eject p n o => some (369098752 + p * 2097152 + n * 1048576 + o)
  | .jmp o => some (402653184 + o)
  | .call l o => some (436207616 + l * 2097152 + o)
  | .calli l a => some (469762048 + l * 2097152 + a * 16384)
  | .jmpi a => some (503316480 + a * 512)
  | .calls a l => some (503316481 + a * 512 + l * 2)
  | .plset a => some (536870912 + a * 2048)
  | .plsetConst b => some (536870913 + b * 16)
  | .plsel f t p => some (570425344 + f * 64 + t * 16 + p)
  | .plocc d => some (603979776 + d * 131072)
  | .srd d i => some (637534208 + d * 131072 + i)
  | .swr s i => some (671088640 + s * 131072 + i)
  | .swrMode s => some (671088659 + s * 131072)
  | .swrSticky s => some (671088660 + s * 131072)
  | .swrSsp s => some (671088661 + s * 131072)
  | .swrTrapoff s => some (671088673 + s * 131072)
  | .pushm f c => some (704643072 + f * 131072 + c)
  | .popm f c => some (738197504 + f * 131072 + c)
  | .cbara i => some (771751936 + i)
  | .cbarw w s i => some (805306368 + w * 1024 + s * 64 + i)
  | .pbara d => some (838860800 + d * 131072)
  | .pbwait d p w => some (872415232 + d * 131072 + p * 8192 + w * 256)
  | .leave k n => some (905969664 + k * 65536 + n)
  | .psrd d i => some (939524096 + d * 131072 + i)
  | .pswr s i => some (973078528 + s * 131072 + i)
  | .pswrFqhead s => some (973078530 + s * 131072)
  | .fdactRestart s => some (973078532 + s * 131072)
  | .fdactEnd s => some (973078532 + s * 131072)
  | .fdactRespill s => some (973078532 + s * 131072)
  | .tlbiPage a => some (1006632960 + a * 512)
  | .tlbiRegion a => some (1006632961 + a * 512)
  | .sadd d a b => some (1073741824 + d * 131072 + a * 512 + b * 2)
  | .ssub d a b => some (1073741825 + d * 131072 + a * 512 + b * 2)
  | .smul d a b => some (1107296256 + d * 131072 + a * 512 + b * 2)
  | .smulh d a b => some (1107296257 + d * 131072 + a * 512 + b * 2)
  | .sdiv d a b => some (1140850688 + d * 131072 + a * 512 + b * 2)
  | .sdivu d a b => some (1140850689 + d * 131072 + a * 512 + b * 2)
  | .srem d a b => some (1174405120 + d * 131072 + a * 512 + b * 2)
  | .sremu d a b => some (1174405121 + d * 131072 + a * 512 + b * 2)
  | .sand d a b => some (1207959552 + d * 131072 + a * 512 + b * 2)
  | .sor d a b => some (1207959553 + d * 131072 + a * 512 + b * 2)
  | .sxor d a b => some (1241513984 + d * 131072 + a * 512 + b * 2)
  | .sandn d a b => some (1241513985 + d * 131072 + a * 512 + b * 2)
  | .sshl d a b => some (1275068416 + d * 131072 + a * 512 + b * 2)
  | .sshr d a b => some (1275068417 + d * 131072 + a * 512 + b * 2)
  | .ssra d a b => some (1308622848 + d * 131072 + a * 512 + b * 2)
  | .srotr d a b => some (1308622849 + d * 131072 + a * 512 + b * 2)
  | .smin d a b => some (1342177280 + d * 131072 + a * 512 + b * 2)
  | .smax d a b => some (1342177281 + d * 131072 + a * 512 + b * 2)
  | .sminu d a b => some (1375731712 + d * 131072 + a * 512 + b * 2)
  | .smaxu d a b => some (1375731713 + d * 131072 + a * 512 + b * 2)
  | .sslt d a b => some (1409286144 + d * 131072 + a * 512 + b * 2)
  | .ssltu d a b => some (1409286145 + d * 131072 + a * 512 + b * 2)
  | .sseq d a b => some (1442840576 + d * 131072 + a * 512 + b * 2)
  | .ssne d a b => some (1442840577 + d * 131072 + a * 512 + b * 2)
  | .ssel d a b => some (1476395008 + d * 131072 + a * 512 + b * 2)
  | .sselz d a b => some (1476395009 + d * 131072 + a * 512 + b * 2)
  | .spopc d a => some (1509949440 + d * 131072 + a * 512)
  | .sclz d a => some (1509949441 + d * 131072 + a * 512)
  | .sctz d a => some (1543503872 + d * 131072 + a * 512)
  | .sbrev d a => some (1543503873 + d * 131072 + a * 512)
  | .saddi d a i => some (1577058304 + d * 131072 + a * 512 + i)
  | .sandi d a i => some (1610612736 + d * 131072 + a * 512 + i)
  | .sori d a i => some (1644167168 + d * 131072 + a * 512 + i)
  | .sxori d a i => some (1677721600 + d * 131072 + a * 512 + i)
  | .sshli d a n => some (1711276032 + d * 131072 + a * 512 + n)
  | .sshri d a n => some (1744830464 + d * 131072 + a * 512 + n)
  | .ssrai d a n => some (1778384896 + d * 131072 + a * 512 + n)
  | .sslti d a i => some (1811939328 + d * 131072 + a * 512 + i)
  | .sli d i => some (1845493760 + d * 131072 + i)
  | .slui d i => some (1879048192 + d * 131072 + i)
  | .sld64 t b o l => some (1912602624 + t * 131072 + b * 512 + o * 16 + l)
  | .sld32 t b o l => some (1946157056 + t * 131072 + b * 512 + o * 16 + l)
  | .sst64 t b o l => some (1979711488 + t * 131072 + b * 512 + o * 16 + l)
  | .sst32 t b o l => some (2013265920 + t * 131072 + b * 512 + o * 16 + l)
  | .vld8 t b x l u => some (2046820352 + t * 262144 + b * 4096 + x * 32 + l * 2 + u)
  | .vld16 t b x l u => some (2080374784 + t * 262144 + b * 4096 + x * 32 + l * 2 + u)
  | .vld32 t b x l u => some (2113929216 + t * 262144 + b * 4096 + x * 32 + l * 2 + u)
  | .vld64 t b x l u => some (2147483648 + t * 262144 + b * 4096 + x * 32 + l * 2 + u)
  | .vldb t b x l u => some (2181038080 + t * 262144 + b * 4096 + x * 32 + l * 2 + u)
  | .vst8 t b x l u => some (2214592512 + t * 262144 + b * 4096 + x * 32 + l * 2 + u)
  | .vst16 t b x l u => some (2248146944 + t * 262144 + b * 4096 + x * 32 + l * 2 + u)
  | .vst32 t b x l u => some (2281701376 + t * 262144 + b * 4096 + x * 32 + l * 2 + u)
  | .vst64 t b x l u => some (2315255808 + t * 262144 + b * 4096 + x * 32 + l * 2 + u)
  | .vstb t b x l u => some (2348810240 + t * 262144 + b * 4096 + x * 32 + l * 2 + u)
  | .vatom d x b o l => some (2382364672 + d * 262144 + x * 2048 + b * 256 + o * 16 + l)
  | .satom d a o w l => some (2415919104 + d * 131072 + a * 512 + o * 32 + w * 16 + l)
  | .sptest d a => some (2449473536 + d * 131072 + a * 512)
  | .spcast d a p t => some (2483027968 + d * 131072 + a * 512 + p * 16 + t * 2)
  | .vsptest d a => some (2516582400 + d * 262144 + a * 2048)
  | .vspcast d a p t => some (2550136832 + d * 262144 + a * 2048 + p * 128 + t * 16)
  | .prefL1 b o => some (2583691264 + b * 512 + o * 16)
  | .prefL2 b o => some (2583822336 + b * 512 + o * 16)
  | .cctlL1line a => some (2617245696 + a * 512)
  | .cctlL2evict a => some (2617245700 + a * 512)
  | .vadd d a b => some (2684354560 + d * 262144 + a * 2048 + b * 16)
  | .vsub d a b => some (2684354561 + d * 262144 + a * 2048 + b * 16)
  | .vmul d a b => some (2684354562 + d * 262144 + a * 2048 + b * 16)
  | .vmulh d a b => some (2684354563 + d * 262144 + a * 2048 + b * 16)
  | .vmin d a b => some (2684354564 + d * 262144 + a * 2048 + b * 16)
  | .vmax d a b => some (2684354565 + d * 262144 + a * 2048 + b * 16)
  | .vabsd d a b => some (2684354566 + d * 262144 + a * 2048 + b * 16)
  | .vdiv d a b => some (2684354567 + d * 262144 + a * 2048 + b * 16)
  | .vrem d a b => some (2684354568 + d * 262144 + a * 2048 + b * 16)
  | .vfma d a b => some (2684354569 + d * 262144 + a * 2048 + b * 16)
  | .vfms d a b => some (2684354570 + d * 262144 + a * 2048 + b * 16)
  | .vfnma d a b => some (2684354571 + d * 262144 + a * 2048 + b * 16)
  | .vaddsat d a b => some (2684354572 + d * 262144 + a * 2048 + b * 16)
  | .vsubsat d a b => some (2684354573 + d * 262144 + a * 2048 + b * 16)
  | .vavg d a b => some (2684354574 + d * 262144 + a * 2048 + b * 16)
  | .vcopysign d a b => some (2684354575 + d * 262144 + a * 2048 + b * 16)
  | .vand d a b => some (2717908992 + d * 262144 + a * 2048 + b * 16)
  | .vor d a b => some (2717908993 + d * 262144 + a * 2048 + b * 16)
  | .vxor d a b => some (2717908994 + d * 262144 + a * 2048 + b * 16)
  | .vandn d a b => some (2717908995 + d * 262144 + a * 2048 + b * 16)
  | .vshl d a b => some (2717908996 + d * 262144 + a * 2048 + b * 16)
  | .vshr d a b => some (2717908997 + d * 262144 + a * 2048 + b * 16)
  | .vsra d a b => some (2717908998 + d * 262144 + a * 2048 + b * 16)
  | .vrotr d a b => some (2717908999 + d * 262144 + a * 2048 + b * 16)
  | .vaddi d a i => some (2751463424 + d * 262144 + a * 2048 + i)
  | .vmuli d a i => some (2785017856 + d * 262144 + a * 2048 + i)
  | .vandi d a i => some (2818572288 + d * 262144 + a * 2048 + i)
  | .vori d a i => some (2852126720 + d * 262144 + a * 2048 + i)
  | .vshli d a n => some (2885681152 + d * 262144 + a * 2048 + n)
  | .vshri d a n => some (2885681216 + d * 262144 + a * 2048 + n)
  | .vsrai d a n => some (2885681280 + d * 262144 + a * 2048 + n)
  | .vrotri d a n => some (2885681344 + d * 262144 + a * 2048 + n)
  | .vmovi d i => some (2919235584 + d * 262144 + i)
  | .vmov d a => some (2952790016 + d * 262144 + a * 2048)
  | .vneg d a => some (2952790017 + d * 262144 + a * 2048)
  | .vabs d a => some (2952790018 + d * 262144 + a * 2048)
  | .vnot d a => some (2952790019 + d * 262144 + a * 2048)
  | .vpopc d a => some (2952790020 + d * 262144 + a * 2048)
  | .vclz d a => some (2952790021 + d * 262144 + a * 2048)
  | .vsext8 d a => some (2952790022 + d * 262144 + a * 2048)
  | .vsext16 d a => some (2952790023 + d * 262144 + a * 2048)
  | .vrcp d a => some (2952790024 + d * 262144 + a * 2048)
  | .vrsq d a => some (2952790025 + d * 262144 + a * 2048)
  | .vsqrt d a => some (2952790026 + d * 262144 + a * 2048)
  | .vexp2 d a => some (2952790027 + d * 262144 + a * 2048)
  | .vlog2 d a => some (2952790028 + d * 262144 + a * 2048)
  | .vsin d a => some (2952790029 + d * 262144 + a * 2048)
  | .vcos d a => some (2952790030 + d * 262144 + a * 2048)
  | .vtanh d a => some (2952790031 + d * 262144 + a * 2048)
  | .vcvt d a t => some (2986344448 + d * 262144 + a * 2048 + t * 16)
  | .vadds d a s => some (3019898880 + d * 262144 + a * 2048 + s * 8)
  | .vmuls d a s => some (3019898881 + d * 262144 + a * 2048 + s * 8)
  | .vfmas d a s => some (3019898882 + d * 262144 + a * 2048 + s * 8)
  | .vmins d a s => some (3019898883 + d * 262144 + a * 2048 + s * 8)
  | .vmaxs d a s => some (3019898884 + d * 262144 + a * 2048 + s * 8)
  | .vbcast d s => some (3019898885 + d * 262144 + s * 8)
  | .vshls d a s => some (3019898886 + d * 262144 + a * 2048 + s * 8)
  | .vshrs d a s => some (3019898887 + d * 262144 + a * 2048 + s * 8)
  | .vcmp p a b c f => some (3053453312 + p * 2097152 + a * 16384 + b * 128 + c * 8 + f)
  | .vcmps p a s c f => some (3087007744 + p * 2097152 + a * 16384 + s * 64 + c * 4 + f)
  | .vsel d a b p => some (3120562176 + d * 262144 + a * 2048 + b * 16 + p)
  | .pand d a b => some (3154116608 + d * 2097152 + a * 131072 + b * 8192)
  | .por d a b => some (3154117632 + d * 2097152 + a * 131072 + b * 8192)
  | .pxor d a b => some (3154118656 + d * 2097152 + a * 131072 + b * 8192)
  | .pandn d a b => some (3154119680 + d * 2097152 + a * 131072 + b * 8192)
  | .pnot d a => some (3154120704 + d * 2097152 + a * 131072)
  | .pset d => some (3154121728 + d * 2097152)
  | .pclr d => some (3154122752 + d * 2097152)
  | .pmov d a => some (3154123776 + d * 2097152 + a * 131072)
  | .vshfl d a b => some (3187671040 + d * 262144 + a * 2048 + b * 16)
  | .vshflTeam d a b => some (3187671041 + d * 262144 + a * 2048 + b * 16)
  | .vred a s f => some (3221225472 + a * 2048 + s * 8 + f)
  | .vscan d a s f => some (3254779904 + d * 262144 + a * 2048 + s * 8 + f)
  | .vball w p s f => some (3288334336 + w * 262144 + p * 2048 + s * 8 + f)
  | .vnzs d a s f => some (3321888768 + d * 262144 + a * 2048 + s * 8 + f)
  | .visect d a b => some (3355443200 + d * 262144 + a * 2048 + b * 16)
  | .vbmax d a => some (3388997632 + d * 262144 + a * 2048)
  | .vscsel d a f => some (3388997633 + d * 262144 + a * 2048 + f * 16)
  | .vqnt d a f => some (3388997634 + d * 262144 + a * 2048 + f * 16)
  | .vdq d a f => some (3388997635 + d * 262144 + a * 2048 + f * 16)
  | .vpack d a p f => some (3388997636 + d * 262144 + a * 2048 + p * 256 + f * 16)
  | .vunpk d a p f => some (3388997637 + d * 262144 + a * 2048 + p * 256 + f * 16)
  | .vreq d a f => some (3388997638 + d * 262144 + a * 2048 + f * 16)
  | .vhist a r => some (3388997639 + a * 2048 + r * 16)
  | .spctl d a b => some (3422552064 + d * 131072 + a * 512 + b * 2)
  | .vlane d f => some (3456106496 + d * 262144 + f)
  | .vsideRd d a => some (3489660928 + d * 262144 + a * 2048)
  | .vsideWr d a => some (3489660929 + d * 262144 + a * 2048)
  | .xcntSet a b c => some (3523215360 + a * 131072 + b * 512 + c * 2)
  | .xcntAdd a b c => some (3523215361 + a * 131072 + b * 512 + c * 2)
  | .tclm s n f => some (3623878656 + s * 4096 + n * 32 + f)
  | .tclmTry s n f => some (3623880704 + s * 4096 + n * 32 + f)
  | .trel n f => some (3657433088 + n * 32 + f)
  | .aclm s n f => some (3690987520 + s * 4096 + n * 32 + f)
  | .aclmTry s n f => some (3690989568 + s * 4096 + n * 32 + f)
  | .arel n f => some (3724541952 + n * 32 + f)
  | .tldDense t b f k => some (3758096384 + t * 1048576 + b * 4096 + f * 16 + k * 4)
  | .tldDec t b f k => some (3758096385 + t * 1048576 + b * 4096 + f * 16 + k * 4)
  | .tldPcs t b f k => some (3758096386 + t * 1048576 + b * 4096 + f * 16 + k * 4)
  | .tst t b => some (3791654896 + t * 1048576 + b * 4096)
  | .mma d a b x y c => some (3825205248 + d * 2097152 + a * 65536 + b * 2048 + x * 1024 + y * 512 + c * 64)
  | .mmaZ d a b x y c => some (3825205249 + d * 2097152 + a * 65536 + b * 2048 + x * 1024 + y * 512 + c * 64)
  | .mmas d a b n s => some (3858759680 + d * 2097152 + a * 65536 + b * 2048 + n * 256 + s)
  | .ardr d x s => some (3892314112 + d * 262144 + x * 8192 + s * 32)
  | .ardc d x s => some (3892314113 + d * 262144 + x * 8192 + s * 32)
  | .awrr d x s => some (3892314114 + d * 262144 + x * 8192 + s * 32)
  | .awrc d x s => some (3892314115 + d * 262144 + x * 8192 + s * 32)
  | .trdr d x s => some (3892314116 + d * 262144 + x * 8192 + s * 32)
  | .trdc d x s => some (3892314117 + d * 262144 + x * 8192 + s * 32)
  | .twrr d x s => some (3892314118 + d * 262144 + x * 8192 + s * 32)
  | .twrc d x s => some (3892314119 + d * 262144 + x * 8192 + s * 32)
  | .azero x => some (3892314120 + x * 8192)
  | .aqnt a b f r q => some (3925868544 + a * 2097152 + b * 8192 + f * 32 + r * 4 + q)
  | .tinfo d w s => some (3959422976 + d * 131072 + w * 32 + s)
  | .xcpy a b c => some (3992977408 + a * 131072 + b * 512 + c * 2)
  | .xcpyPair a b c => some (3992977409 + a * 131072 + b * 512 + c * 2)
  | .xgath a b c => some (4026531840 + a * 131072 + b * 512 + c * 2)
  | .xscat a b c => some (4060086272 + a * 131072 + b * 512 + c * 2)
  | .xpub a s c => some (4093640704 + a * 131072 + s * 512 + c * 2)
  | .xpubSync a s c => some (4093640705 + a * 131072 + s * 512 + c * 2)
  | .xwait a b c => some (4127195136 + a * 131072 + b * 512 + c * 2)
  | .xwaitTest a b c => some (4127195137 + a * 131072 + b * 512 + c * 2)
  | .nsend a b c => some (4160749568 + a * 131072 + b * 512 + c * 2)
  | .nsendImm v b c => some (4160749569 + v * 131072 + b * 512 + c * 2)
  | .tsend a b c => some (4194304000 + a * 131072 + b * 512 + c * 2)
  | .cred a b c => some (4227858432 + a * 131072 + b * 512 + c * 2)
  | .xflush a c => some (4227858433 + a * 131072 + c * 2)
  | .ill => some (0)
  | .nop => some (1048576)
  | .exit => some (2097152)
  | .texit => some (3145728)
  | .refill => some (4194304)
  | .join => some (5242880)
  | .disb => some (6291456)
  | .ret => some (7340032)
  | .uret => some (8388608)
  | .tret => some (9437184)
  | .haltc => some (10485760)
  | .cctlL1all => some (2617245698)
  | .prefixedInstruction _ _ | .ejectRecordWrite | .claimGrant | .loadDataReturn | .matrixStepDone | .spillAhead
  | .engineCommandStart | .engineCommandComplete | .engineSuspend | .faultRecordWrite | .handlerLaunch
  | .yieldOverrun | .barrierTimeout | .blockPlace | .clusterPlace | .blockRelease | .placementStarvation
  | .launchComplete | .doorbellWrite | .launch | .tapePop | .graph | .tableLoad | .tableDisable | .copy | .signalSet
  | .signalAdd | .signalWait | .signalStore | .regionCreate | .regionModify | .regionDestroy | .regionBind
  | .tableFiring | .teamResume | .leaveWindow | .coreGroupSwapOut | .coreGroupSwapIn | .haltRelease | .storageError
  | .publishEntryStore | .hostRdmaWrite | .hostRdmaRead | .remoteWriteUnit | .remoteRead | .remoteIncrement
  | .peerRefusal | .flushMarker | .flushAck | .pathDown | .peerPathLoss | .portTraining | .ptpMessage | .powerOnReset
  | .resetRequest | .floorCommand | .firmwareUpdate | .attestationRequest | .eventLogRead | .counterProgram
  | .counterRead | .sensorPoll | .spillTransferComplete | .tileTransferComplete | .publishSyncCopy => none

/-- The instruction that the decoder reads from the word of `i`: `i` itself, but for the words of FDACT, which are one
word for the three rows (the ACTION in the register tells them apart, R375). -/
def Instr.decoded : Instr → Instr
  | .fdactEnd r | .fdactRespill r => .fdactRestart r
  | i => i

/-- Byte `n` of a little-endian number (R2). -/
def leByte (x n : Nat) : Byte := BitVec.ofNat 8 (x / 2 ^ (8 * n))

/-- The four bytes of a word, lowest address first (R2, R170). -/
def wordBytes (w : Nat) : List Byte := [leByte w 0, leByte w 1, leByte w 2, leByte w 3]

/-- The number that four bytes hold, lowest address first (R2). -/
def bytesWord (b0 b1 b2 b3 : Byte) : Nat :=
  b0.toNat + b1.toNat * 2 ^ 8 + b2.toNat * 2 ^ 16 + b3.toNat * 2 ^ 24

/-- What `decode` rejects, by name. -/
inductive Reject where
  /-- Fewer bytes than the instruction needs. -/
  | short
  /-- The word is no instruction. -/
  | word (e : DecodeError)
  /-- The prefix's own fields are reserved (R180). -/
  | pfxField (why : IllForm)
  /-- A prefix before a word that takes none (R180). -/
  | misplaced
  deriving DecidableEq, Repr

/-- The OPs of format V, VI, VS, VP, VPS, M, AT or SAT in 0x39..0x68 (R188, R189): a prefix may stand before their words
(R180), whether or not they are assigned. -/
def prefixOp (op : Nat) : Bool :=
  (Nat.ble 0x3D op && Nat.ble op 0x48) || op.beq 0x4B || op.beq 0x4C || (Nat.ble 0x50 op && Nat.ble op 0x5D)
  || (Nat.ble 0x5F op && Nat.ble op 0x65) || op.beq 0x67 || op.beq 0x68

/-- The instruction that a prefix word and the word after it form, in the order of R192 steps 4 and 5: the prefix fields, the
prefix's place, then the word. -/
def decodePair (w1 w2 : Nat) : Except Reject Instr :=
  let p := decodePrefix w1
  match p.illForm with
  | some why => .error (.pfxField why)
  | none =>
    if prefixOp (w2 / 2 ^ 25) then
      match matchRow w2 with
      | none => .error (.word .unassigned)
      | some i =>
        match (Instr.prefixedInstruction p i).illForm with
        | none => .ok (.prefixedInstruction p i)
        | some why => .error (.word (.illFormed why))
    else .error .misplaced

/-- The instruction at the head of a list of code bytes, and the bytes after it (R170). -/
def decode : List Byte → Except Reject (Instr × List Byte)
  | b0 :: b1 :: b2 :: b3 :: rest =>
    let w := bytesWord b0 b1 b2 b3
    if isPrefixWord w then
      match rest with
      | c0 :: c1 :: c2 :: c3 :: rest' =>
        match decodePair w (bytesWord c0 c1 c2 c3) with
        | .ok i => .ok (i, rest')
        | .error e => .error e
      | _ => .error .misplaced
    else
      match decodeWord w with
      | .ok i => .ok (i, rest)
      | .error e => .error (.word e)
  | _ => .error .short

/-- The bytes of an instruction (R170); none for an event. -/
def encode : Instr → Option (List Byte)
  | .prefixedInstruction p i => (encodeWord i).map fun w => wordBytes (encodePrefix p) ++ wordBytes w
  | i => (encodeWord i).map wordBytes

/-- The instruction the decoder reads from the bits `w` of a row of `nbits` bits: the words are laid out little-endian,
the first at the lowest address (R2, R170), and every bit above `nbits` is 0. -/
def decodeTableWord (nbits w : Nat) : Option Instr :=
  let v := w % 2 ^ nbits
  match decode (wordBytes v ++ wordBytes (v / 2 ^ 32)) with
  | .ok (i, _) => some i
  | .error _ => none

end Sys2Proof
end

