-- ==== Sys2Proof/Machine/Preempt.lean ====
section
/-!
DEFINITION. Safepoints and pre-emption (R225..R227, R411..R417), and the spill engine's events (R101..R103).
-/
namespace Sys2Proof.Machine

/-! ### Residence on a core (R19) -/

/-- A team that takes part of its core's resources. -/
def Team.resident (t : Team) : Bool := t.phase ≠ .ended && t.phase ≠ .suspended && t.phase ≠ .swapped

/-- Lane-registers of a team: its lanes × (8 + W). -/
def State.laneRegs (s : State) (t : Team) : Nat :=
  t.size * (8 + match s.findBlock t.bid with | some b => b.k.ring | none => 0)

/-- The resident teams of a core. -/
def State.coreTeams (s : State) (core : Nat) : List Team := s.teams.filter (fun t => t.core == core && t.resident)

/-- `n` more teams of `size` lanes and ring size `ring` fit a core by R19, sections apart. -/
def State.coreRoom (s : State) (core n size ring : Nat) : Bool :=
  let ts := s.coreTeams core
  (ts.map Team.size).sum + n * size ≤ 2048 && ts.length + n ≤ 48
  && (ts.map s.laneRegs).sum + n * (size * (8 + ring)) ≤ 262144

/-- Teams in a section of a core. -/
def State.sectionCount (s : State) (core sec : Nat) : Nat := ((s.coreTeams core).filter (fun t => t.section_ == sec)).length

/-! ### Taking a request (R412..R415) -/

/-- Context bytes of the team in focus. -/
def State.ctxBytes (s : State) : Nat := Config.contextBytes (s.laneRegs s.team)

/-- The routines of a safepoint entry: save and restore. -/
def SafePoint.routines (e : SafePoint) : Option (Nat × Nat) :=
  if e.save = 0xFFFFFFFF then none else some (e.save, e.restore)

/-- The routine, if any, that a request taken now interrupts. -/
def Preempt.frame (p : Preempt) : Routine :=
  { resOff := p.resOff, smask := p.smask, saving := p.saving, restoring := p.restoring, wait := p.wait, routine := p.routine
    ctx := p.ctx, seq := p.seq }

/-- The team in focus takes its pending request at a safepoint: at once without routines, if it holds no claim; else by
a call of the save routine with every live lane active. `none`: the request stays pending. -/
def State.takeRequest (s : State) (e : Option SafePoint) (resOff : Word32) (w : Option (Wait × Option Nat)) :
    Except Halt (Option State) :=
  let t := s.team
  let pre := { t.pre with pending := false, resOff := resOff, smask := t.lanes.active, wait := w, savedSlots := []
                          savedTiles := [], saving := none, restoring := none, routine := none, ctx := s.ctxBytes
                          seq := t.engSeq
                          outer := t.pre.frame :: t.pre.outer }
  if s.amc.cfg.ctxSize < s.ctxUsed + s.ctxBytes then .ok none
  else match e.bind SafePoint.routines with
    | none =>
      if t.holdsClaims then .ok none
      else .ok (some { s.countCore 14 1 with team := { t with
        phase := .suspended, timeout := none, pre := pre, reqSteps := 0, reqCopy := 0 } })
    | some r => do
      let entry := BitVec.ofNat 32 r.1
      s.callChecks entry 0
      let u : State := { s.countCore 14 1 with team := { t with
        phase := .ready, timeout := none, nextPlane := 0, lanes := { t.lanes with active := t.live }
        pre := { pre with saving := some t.win.depth, routine := some r.2 } } }
      return some (← u.callEffect true entry 0 resOff false 0)

/-- The wait that a suspended team takes up again. -/
def Wait.resumed : Wait → Option Nat → Option (Wait × Option Nat)
  | .claim _ _ _ _, _ => none
  | .step _, _ => none
  | w, t => some (w, t)

/-- A fault of the call of a save or restore routine restarts at the safepoint (R415). It goes where any fault of its cause goes
(R230, R373); one of a spill transfer to the fault domain (R104). -/
def FaultInfo.ofSave (f : FaultInfo) (pc : Word32) (plane : Nat) : FaultInfo := { f with restart := pc, plane := plane }

/-- A Waiting team with a pending request takes it (R412); one that waits for its names goes back to Suspended. After a fault of
the save call the wait is taken up again when the team restarts, and the request stays pending (R415). A suspension ends its clk:
an event awaited that comes in the same clk comes first, and wins (R412). -/
def State.preemptWait (s : State) : State :=
  match s.team.phase, s.team.pre.pending with
  | .waiting .reclaim, true =>
    if s.amc.cfg.ctxSize < s.ctxUsed + s.ctxBytes then s
    else { s.countCore 14 1 with
      lastOfClk := true
      team := { s.team with phase := .suspended, pre := { s.team.pre with pending := false, ctx := s.ctxBytes } } }
  | .waiting w, true =>
    let e := s.blk.k.safePoints.find? (fun p => p.off == s.team.pc.toNat)
    (match s.takeRequest e s.team.pc (w.resumed s.team.timeout) with
     | .ok (some t) => { t.withdraw w with lastOfClk := true }
     | .error (.fault f) =>
       takeFault (f.ofSave s.team.pc s.wordPlane)
         { s with team := { s.team with pre := { s.team.pre with held := w.resumed s.team.timeout } } }
     | _ => s)
  | _, _ => s

/-- YIELD: the deadline check's arming, then a pending request (R225..R227). -/
def execYield (i d : Nat) (s : State) : Host.Outcome State Fault Refusal :=
  answer s (do
    need (d ≤ s.blk.k.yieldMax) (s.flt .illegalInstruction)
    let t := s.retireCtl
    let t : State := { t with team := { t.team with deadline := if d = 0 then none else some (d, 0) } }
    if t.team.pre.pending then
      match t.takeRequest (t.blk.k.safePoints.find? (fun p => p.id == i)) t.team.pc none with
      | .ok (some u) => return u
      | .error (.fault f) => .error (f.ofSave s.team.pc s.iss.plane)
      | _ => return t
    else return t)

/-- YIELD_OVERRUN: the watchdog, in place of the next instruction (R226). -/
def execYieldOverrun (s : State) : Host.Outcome State Fault Refusal :=
  .next (if s.team.phase = .ready && s.team.deadline.any (fun d => d.1 ≤ d.2) then takeFault (s.flt .yieldOverrun) s else s)

/-! ### Resuming (R413, R415) -/

/-- A section of the core with room where no other member of the team's convocation, formed or forming, is (R82, R413): its own
first. -/
def State.resumeSection (s : State) : Option Nat :=
  let t := s.team
  let mates := (s.blk.convs.filter (fun c => c.members.contains t.uid)).flatMap Convocation.members
  let taken (sec : Nat) : Bool := s.teams.any (fun u =>
    u.uid != t.uid && mates.contains u.uid && u.core == t.core && u.section_ == sec && u.resident)
  (t.section_ :: List.range 6).find? (fun sec => s.sectionCount t.core sec < 8 && !taken sec)

/-- The names of the saved claim set can all be bound at once. -/
def State.reclaimRoom (s : State) : Bool :=
  s.team.pre.savedSlots.length ≤ s.claimFree true s.team.bid s.team.core
  && s.team.pre.savedTiles.length ≤ s.claimFree false s.team.bid s.team.core

/-- The restored team calls its restore routine with every live lane active, or goes on if it has none (R415). After a fault of the
call it is made again when the team restarts. -/
def State.restoreCall (s : State) : State :=
  let t := { s.team with pc := s.team.pre.resOff, nextPlane := 0, timeout := none, phase := .ready }
  match t.pre.routine with
  | none => { s with team := { t.takeUp t.pre.wait with pre := t.pre.leave } }
  | some r =>
    let entry := BitVec.ofNat 32 r
    let u : State := { s with iss := .none, team := { t with
      lanes := { t.lanes with active := t.live }
      pre := { t.pre with smask := t.lanes.active, restoring := some t.win.depth, ctx := 0, seq := t.engSeq } } }
    match (do u.callChecks entry 0; u.callEffect true entry 0 t.pre.resOff false 0 : Except Halt State) with
    | .ok v => v
    | .error (.fault f) =>
      takeFault (f.ofSave t.pc u.wordPlane) { s with team := { t with pre := { t.pre with held := some (.restore, none), ctx := 0 } } }
    | .error .spill => u

/-- A Ready team that was Held in the call of a save routine goes back to the wait it was in: its arrival is not made again. One that
was Held in the call of its restore routine makes that call (R415). -/
def State.takeHeld (s : State) : State :=
  let t : State := { s with team := { s.team with pre := { s.team.pre with held := none } } }
  match s.team.pre.held with
  | some (.restore, _) => t.restoreCall
  | w => { t with team := t.team.takeUp w }

/-- The restored team binds its names, then restores (R415). -/
def State.resumeRun (s : State) : State :=
  ({ s with team := (s.team.bind true s.team.pre.savedSlots).bind false s.team.pre.savedTiles } : State).restoreCall

/-- TEAM_RESUME: a suspended team goes back to its core once the core admits it, and claims its names all at once, waiting
while they are not free; a team that waits for its names goes on once they are (R413, R415). -/
def execTeamResume (s : State) : Host.Outcome State Fault Refusal :=
  .next (
    let go (s : State) : State := if s.reclaimRoom then s.resumeRun
      else { s with team := { s.team with phase := .waiting .reclaim, timeout := none } }
    match s.team.phase with
    | .waiting .reclaim => go s
    | .suspended =>
      if s.coreRoom s.team.core 1 s.team.size s.blk.k.ring && !s.blk.swapped then
        match s.resumeSection with
        | some sec => go { s with team := { s.team with section_ := sec, pre := { s.team.pre with ctx := 0 } } }
        | none => s
      else s
    | _ => s)

/-! ### The spill engine (R101..R103) -/

/-- SPILL_TRANSFER_COMPLETE: the transfers that a stalled instruction needs are made and its effect finishes, an issue that counts as any
other (R445); a fault of them is the instruction's (R101, R103, R104). Poison found by a refill leaves the engine Faulted too (log 99). -/
def execSpillTransferComplete (s : State) : Host.Outcome State Fault Refusal :=
  .next (match s.team.win.spill, s.team.phase with
    | .needed word, .stalled .spill =>
      let idle := s.withWin { s.team.win with spill := .idle }
      let u : State := { idle.withPhase .ready with
        iss := { Issue.none with lanes := s.team.lanes.active, plane := s.wordPlane, word := word } }
      match decodeWord word with
      | .error _ => u
      | .ok i =>
        match u.windowOp i with
        | .ok t => countIssue s (word / 2 ^ 25) t
        | .error (.fault f) => s.noteFault (takeFault f (if f.spill then u.withWin { u.team.win with spill := .faulted } else u))
        | .error .spill => u
    | _, _ => s)

/-- An early spill of a resident granule below B, if its page is there: no item of R92 changes, and an instruction that comes to
spill it finds the transfer made (R102). -/
def State.earlySpill (s : State) (g : Nat) : State :=
  let w := s.team.win
  let off := granuleOff s.team.size g
  let n := 36 * s.team.size
  if w.lo ≤ 8 * g && 8 * g + 8 ≤ w.b && !w.earlyOut.contains g && off + n ≤ s.team.spillSz then
    match s.spillSpan off n with
    | .ok ps => ((s.spillGranule ps g).withWin { w with earlyOut := g :: w.earlyOut }).countCore 9 1
    | .error _ => s
  else s

/-- An early refill of a granule below LO into ring positions that hold no live register (R102); a page that is not there, or an
error in the data, leaves it where it was. -/
def State.earlyRefill (s : State) (g : Nat) : State :=
  let w := s.team.win
  let off := granuleOff s.team.size g
  let n := 36 * s.team.size
  if 8 * g + 8 ≤ w.lo && w.b + w.fs ≤ 8 * g + s.blk.k.ring && !w.earlyIn.contains g then
    match s.spillSpan off n with
    | .ok ps =>
      (match s.spillPoison ps off n with
       | .ok () => ((s.refillGranule ps g).withWin { w with earlyIn := g :: w.earlyIn }).countCore 10 1
       | .error _ => s)
    | .error _ => s
  else s

/-- SPILL_AHEAD: an idle spill engine begins to work early, and then spills (or, with `flag`, refills) the granule `arg.value`.
It does not begin on a halted core (R240). -/
def execSpillAhead (s : State) : Host.Outcome State Fault Refusal :=
  .next (match s.team.win.spill with
    | .idle => if s.halted.contains s.team.core then s else s.withWin { s.team.win with spill := .ahead }
    | .ahead =>
      let t := s.withWin { s.team.win with spill := .idle }
      if s.arg.flag then t.earlyRefill s.arg.value else t.earlySpill s.arg.value
    | _ => s)

end Sys2Proof.Machine
end

