-- ==== Sys2Proof/Machine/Privileged.lean ====
section
/-!
DEFINITION. Privileged words (R208, R238, R239, R405, R406), the fault queue of a domain (R373, R374) and FDACT (R375).
-/
namespace Sys2Proof.Machine

/-- The own domain of the team in focus (R368). -/
def State.ownDomain (s : State) : Option Domain := s.teamDomain.bind (fun d => s.findDomain d.rcb)

/-- A privileged special register as PSRD reads it (R368); FDACT is write only and reads zero (R5). -/
def State.privSpecial (s : State) (i : Nat) : Nat :=
  match i with
  | 0x000 => s.team.rcb
  | 0x001 => s.teamView.root
  | 0x002 => (match s.ownDomain with | some d => d.head.toNat | none => 0)
  | 0x003 => (match s.ownDomain with | some d => d.tail.toNat | none => 0)
  | 0x005 => s.team.fdStat.toNat
  | 0x006 => s.team.fdArg.toNat
  | _ => 0

/-- PSRD (R238). -/
def execPsrd (d i : Nat) (s : State) : Host.Outcome State Fault Refusal :=
  answer s (do
    s.privileged
    return (s.setS d (BitVec.ofNat 64 (s.privSpecial i))).retireCtl)

/-- PSWR of a register without behaviour of its own: FDARG is written, a read-only one stays (R5, R368). -/
def execPswr (r i : Nat) (s : State) : Host.Outcome State Fault Refusal :=
  answer s (do
    s.privileged
    return ({ s with team := { s.team with fdArg := if i = 0x006 then s.getS r else s.team.fdArg } } : State).retireCtl)

/-- HEAD after a write of FQHEAD: ignored outside HEAD..TAIL (R373). -/
def Domain.moveHead (d : Domain) (x : Word32) : Domain :=
  if (x - d.head).toNat ≤ (d.tail - d.head).toNat then { d with head := x } else d

/-- PSWR of FQHEAD (R373). -/
def execPswrFqhead (r : Nat) (s : State) : Host.Outcome State Fault Refusal :=
  answer s (do
    s.privileged
    let x := BitVec.ofNat 32 (s.getS r).toNat
    return (match s.teamDomain with
      | some d => s.modDomain d.rcb (fun d => d.moveHead x)
      | none => s).retireCtl)

/-! ### FDACT (R375) -/

/-- A Held team goes on at its restart offset (R407), its spill engine idle (R103). A team whose save call faulted in a wait is
Ready too (R87), and takes that wait up again at its next turn, in its issue slot (R86, R415; `State.takeHeld`, log 105). -/
def Team.restart (t : Team) : Team :=
  match t.fault, t.phase with
  | some f, .held =>
    { t with
      phase := .ready, timeout := none, fault := none, pc := f.restart
      nextPlane := if f.restart = t.pc then t.nextPlane else 0
      looks := if f.restart = t.pc then t.looks else []
      win := { t.win with spill := .idle } }
  | _, _ => t

/-- The phase that a team has, or had when its group was swapped out (R418). -/
def State.phaseOf (s : State) (t : Team) : Phase :=
  if t.phase = .swapped then
    ((s.hearths.flatMap Hearth.phases).find? (fun p => p.1 == t.uid)).map Prod.snd |>.getD .swapped
  else t.phase

/-- Something acts on a team, as it stood before a swap; on a swapped one it takes effect at swap-in (R408). -/
def State.resolveTeam (s : State) (uid : Nat) (f : Team → Team) : State :=
  match s.findTeam uid with
  | none => s
  | some t =>
    if t.phase = .swapped then
      let u := f { t with phase := s.phaseOf t }
      { s.modTeam uid (fun _ => { u with phase := .swapped }) with
        hearths := s.hearths.map (fun h =>
          { h with phases := h.phases.map (fun p => if p.1 = uid then (uid, u.phase) else p) }) }
    else s.modTeam uid f

/-- The command of a record, resumed at DONE (R332); what a peer refused before stays (R425). A fired send reads its descriptor
again (R338). -/
def State.resumeCmd (s : State) (id : Nat) : State :=
  let again (c : Cmd) : CmdKind := match c.kind with
    | .send x => .send { x with src := if x.srcAddr = 0 then x.src else (s.asCmd c).sourceDesc x.srcAddr }
    | k => k
  { s with cmds := s.cmds.map (fun c =>
      if c.id = id then { c with status := .running, stopCause := 0, stopAddr := 0, kind := again c } else c) }

/-- The command of a record is abandoned: it completes as poisoned with CAUSE 0x42, at the address where it stopped (R324,
R332; log 33). What it gave its launch for a refusal by a peer stays (R425). -/
def State.abandonCmd (s : State) (id : Nat) : State :=
  match s.cmds.find? (fun c => c.id == id) with
  | none => s
  | some c =>
    (s.modLaunch c.lid (fun l => { l with status := max l.status c.launchStatus })).finishCmd
      { c with poisoned := true, cause := 0x42, addr := c.stopAddr }

/-- Unresolved records of a team, written or waiting. -/
def State.heldBy (s : State) (uid : Nat) : Bool :=
  s.domains.any (fun d => (d.waiting ++ d.open_).any (fun r => r.uid == some uid))

/-- A team whose last unresolved record was resolved by a restart goes on (R375). -/
def State.letGo (s : State) (uid : Nat) (f : Team → Team) : State := if s.heldBy uid then s else s.resolveTeam uid f

/-- Action 0 on a record. -/
def State.actRestart (s : State) (r : FaultRec) : State :=
  let s := match r.uid with | some u => s.letGo u Team.restart | none => s
  match r.cmd with | some c => s.resumeCmd c | none => s

/-- Action 1 on a record: the launch then completes with STATUS 2 (R381). -/
def State.actEnd (s : State) (r : FaultRec) : State :=
  let s := match r.uid with
    | some u =>
      let lid := match s.findTeam u with | some t => t.lid | none => 0
      (s.resolveTeam u Team.finish).modLaunch lid (fun l => { l with status := max l.status 2 })
    | none => s
  match r.cmd with | some c => s.abandonCmd c | none => s

/-- The spill area gets `n` bytes in all: what is added lies at the virtual address `va` (R375, log 88). -/
def Team.growSpill (t : Team) (n va : Nat) : Team := { t with spillSz := n, spillExt := (t.spillSz, va) :: t.spillExt }

/-- Action 2 on a record: the spill area has `n` bytes, its contents kept, and the instruction restarts. What is added is device
memory like the rest, translated in the team's partition, at a 64 KiB boundary that no rule names: a free value (log 88). -/
def State.actRespill (s : State) (r : FaultRec) (n : Nat) : State :=
  match r.uid with
  | some u =>
    let x := s.draw
    (x.2.resolveTeam u (fun t => t.growSpill n (x.1 % 2 ^ 40 * 2 ^ 16))).letGo u Team.restart
  | none => s

/-- The old SPILLSZ of the team of a record. -/
def State.recSpill (s : State) (r : FaultRec) : Nat :=
  match r.uid.bind s.findTeam with | some t => t.spillSz | none => 0

/-- Resolve the record of a ticket; the FDSTAT that results; a stale ticket answers 1 whatever ACTION is (log 116). -/
def State.fdact (s : State) (x : Nat) : State × Nat :=
  match s.ownDomain with
  | none => (s, 1)
  | some d =>
    match d.open_.find? (fun r => r.ticket == x % 2 ^ 32) with
    | none => (s, 1)
    | some r =>
      let done := s.modDomain d.rcb (fun d => { d with open_ := d.open_.filter (fun y => y.ticket != r.ticket) })
      let arg := s.team.fdArg.toNat
      match field x 32 2 with
      | 0 => if r.restart then (done.actRestart r, 0) else (s, 2)
      | 1 => (done.actEnd r, 0)
      | 2 => if r.spill && arg % 65536 = 0 && s.recSpill r < arg then (done.actRespill r arg, 0) else (s, 2)
      | _ => (s, 3)

/-- PSWR of FDACT: the action in [33:32] of the register decides, and FDSTAT tells how it went. -/
def State.pswrFdact (s : State) (r : Nat) : Except FaultInfo State := do
  s.privileged
  let y := s.fdact (s.getS r).toNat
  return ({ y.1 with team := { y.1.team with fdStat := BitVec.ofNat 64 y.2 } } : State).retireCtl.settle

/-- PSWR of FDACT, ACTION 0: restart. -/
def execFdactRestart (r : Nat) (s : State) : Host.Outcome State Fault Refusal := answer s (s.pswrFdact r)

/-- PSWR of FDACT, ACTION 1: end or abandon. -/
def execFdactEnd (r : Nat) (s : State) : Host.Outcome State Fault Refusal := answer s (s.pswrFdact r)

/-- PSWR of FDACT, ACTION 2: restart with a new spill size. -/
def execFdactRespill (r : Nat) (s : State) : Host.Outcome State Fault Refusal := answer s (s.pswrFdact r)

/-! ### TLBI (R239, R405, R406) -/

/-- Keep the cached translations that pass a test. -/
def State.keepTlb (s : State) (f : TlbEntry → Bool) : State :=
  { s with caches := { s.caches with tlb := s.caches.tlb.filter f } }

/-- TLBI.page. -/
def execTlbiPage (a : Nat) (s : State) : Host.Outcome State Fault Refusal :=
  answer s (do
    s.privileged
    let va := (s.getS a).toNat
    need (va / 2 ^ 56 = 0) (s.fltAt .spaceInvalid 0 (s.getS a))
    let rid := s.teamRid
    return (s.keepTlb (fun e => !(e.rid == rid && e.va / 2 ^ e.bits == va / 2 ^ e.bits))).dropL1.retireCtl)

/-- TLBI.region: entries with G = 1 survive. -/
def execTlbiRegion (a : Nat) (s : State) : Host.Outcome State Fault Refusal :=
  answer s (do
    s.privileged
    let p := (s.getS a).toNat
    let rid := s.teamRid
    let mine : Bool := match s.partition p with | some r => r.rid == rid | none => false
    return (if mine then s.keepTlb (fun e => e.rid != rid || e.pte.testBit 5) else s).dropL1.retireCtl)

/-! ### The fault queue (R373, R374) -/

/-- What a record of a team tells is settled: the loads, steps and transfers that it issued before are over (R10). -/
def State.recordReady (s : State) (r : FaultRec) : Bool :=
  match r.uid.bind s.findTeam with
  | some t => t.loads.isEmpty && t.mat.steps.isEmpty && t.mat.transfers.isEmpty
  | none => true

/-- The waiting record of the smallest stamp (R373). -/
def Domain.first (d : Domain) : Option FaultRec :=
  d.waiting.foldl (fun b r => match b with
    | none => some r
    | some x => if stampAfter x.stamp r.stamp then some r else some x) none

/-- Write the first waiting record of a domain, in the queue and the page tables that its block was placed under (R371), and
advance TAIL; a write that those page tables refuse is logged (log 25). -/
def State.writeRecord (s : State) (d : Domain) (r : FaultRec) : State :=
  let v : View := { rid := r.fqRid, root := r.fqRoot, user := false, core := none, own := s.ridOf d.rcb }
  let s := match s.writeVa v .store (r.fqBase + 64 * (d.tail.toNat % r.fqSize)) r.bytes with
    | .ok t => t
    | .error _ => s.log 0 2 0x12 r.ticket
  s.modDomain d.rcb (fun d => { d with
    tail := d.tail + 1, waiting := d.waiting.filter (fun x => x.stamp != r.stamp)
    open_ := if r.ticket = 0xFFFFFFFF then d.open_ else d.open_ ++ [r] })

/-- FAULT_RECORD_WRITE: the waiting record of the smallest stamp of the domain of RCB `id` is written once a slot of its
queue is free (R373) and what its team issued before is over (R10). -/
def execFaultRecordWrite (s : State) : Host.Outcome State Fault Refusal :=
  .next (match s.findDomain s.arg.id with
    | some d =>
      (match d.first with
      | some r => if (d.tail - d.head).toNat < r.fqSize && s.recordReady r then s.writeRecord d r else s
      | none => s)
    | none => s)

end Sys2Proof.Machine
end

