-- ==== Sys2Proof/Machine/Launch.lean ====
section
/-!
DEFINITION. Launches: the descriptor and the kernel header as the CP reads and checks them (R60..R62, R382, R414), the
handler launch of a fault domain (R374), and the refusal reasons (R381).
-/
namespace Sys2Proof.Machine

/-! ### Fields of records in memory -/

/-- The field of `n` bytes at byte `o` of a record, little-endian (R2). -/
def fld (bs : List Byte) (o n : Nat) : Nat := leNat ((bs.drop o).take n)

/-- The bytes `o .. o+n-1` of a record are zero. -/
def zeros (bs : List Byte) (o n : Nat) : Bool := ((bs.drop o).take n).all (fun b => b == 0)

/-! ### The launch descriptor (R382) -/

/-- The fields of a launch descriptor. -/
def launchDescOf (b : List Byte) : LaunchDesc :=
  { khdr := fld b 0 8, rcb := fld b 8 8, gridX := fld b 0x10 4, gridY := fld b 0x14 2, gridZ := fld b 0x16 2
    clX := fld b 0x18 1, clY := fld b 0x19 1, clZ := fld b 0x1A 1, priv := (fld b 0x1B 1).testBit 0
    tape := (fld b 0x1B 1).testBit 1, items := fld b 0x1C 4, seed := BitVec.ofNat 64 (fld b 0x20 8), privSz := fld b 0x28 4
    ccount := fld b 0x2C 1, ppool := fld b 0x30 8, ppoolSz := fld b 0x38 8, spool := fld b 0x40 8, spoolSz := fld b 0x48 8
    result := fld b 0x50 8, crec := fld b 0x58 8, backrec := fld b 0x60 8
    args := (List.range 16).map (fun i => BitVec.ofNat 64 (fld b (0x80 + 8 * i) 8)) }

/-- The launch has cluster dimensions. -/
def LaunchDesc.clustered (d : LaunchDesc) : Bool := !(d.clX == 0 && d.clY == 0 && d.clZ == 0)

/-- Blocks along each dimension of a cluster. -/
def LaunchDesc.clDims (d : LaunchDesc) : Nat × Nat × Nat := if d.clustered then (d.clX, d.clY, d.clZ) else (1, 1, 1)

/-- Blocks of one cluster. -/
def LaunchDesc.clSize (d : LaunchDesc) : Nat := d.clDims.1 * d.clDims.2.1 * d.clDims.2.2

/-- Blocks of the launch; no grid dimension may be 0 unless GRIDX is. -/
def LaunchDesc.blockCount (d : LaunchDesc) : Nat := if d.gridX = 0 then 0 else d.gridX * d.gridY * d.gridZ

/-- Clusters of the launch. -/
def LaunchDesc.clusterCount (d : LaunchDesc) : Nat := d.blockCount / d.clSize

/-- Every field is in range and every reserved byte zero (R382). -/
def descInRange (b : List Byte) : Bool :=
  let d := launchDescOf b
  d.gridX < 2 ^ 31 && (d.gridX == 0 || (1 ≤ d.gridY && 1 ≤ d.gridZ))
  && (!d.clustered || (1 ≤ d.clX && 1 ≤ d.clY && 1 ≤ d.clZ && d.gridX % d.clX = 0 && d.gridY % d.clY = 0
      && d.gridZ % d.clZ = 0 && d.clX * d.clY * d.clZ ≤ 8))
  && fld b 0x1B 1 < 4 && d.privSz % 64 = 0 && d.ccount ≤ 64 && zeros b 0x2D 3
  && (d.privSz == 0 || d.ppool % 65536 = 0) && d.spool % 65536 = 0 && zeros b 0x68 24

/-! ### The kernel header (R60, R61) -/

/-- Plane-map entry `i` of a header. -/
def planeOf (b : List Byte) (i : Nat) : PlaneEntry :=
  let o := 0x80 + 12 * i
  { base := fld b o 4, len := fld b (o + 4) 4, n := fld b (o + 8) 1, stride := 2 ^ fld b (o + 9) 1 }

/-- The fields of a kernel header; the safepoint table is read apart. -/
def kernelOf (b : List Byte) : Kernel :=
  { entry := fld b 8 4, codeSize := fld b 0xC 4, lanes := 32 * 2 ^ fld b 0x10 1, teams := fld b 0x11 1
    ring := 8 * fld b 0x12 1, maxDepth := fld b 0x14 2, yieldMax := fld b 0x16 2, spillSz := fld b 0x18 4
    sstack := fld b 0x1C 4, spad := fld b 0x20 4, slots := fld b 0x24 1, accs := fld b 0x25 1, bars := fld b 0x26 1
    stations := (List.range (fld b 0x27 1)).map (fun i => fld b (0x40 + 4 * i) 4)
    entryStn := if fld b 0x28 1 = 0xFF then none else some (fld b 0x28 1)
    planes := (List.range (fld b 0x29 1)).map (planeOf b), spawn := fld b 0x2C 4
    trapEntry := if fld b 0x30 4 = 0xFFFFFFFF then none else some (fld b 0x30 4)
    safePoints := [], initMode := BitVec.ofNat 64 (fld b 0x3C 4) }

/-- Lanes of a block. -/
def Kernel.blockLanes (k : Kernel) : Nat := k.teams * k.lanes

/-- The copies of the planed regions: code ranges. -/
def planeCopies (ps : List PlaneEntry) : List (Nat × Nat) :=
  ps.flatMap (fun e => (List.range e.n).map (fun i => (e.base + i * e.stride, e.base + i * e.stride + e.len)))

/-- No two ranges of a list overlap. -/
def disjointRanges : List (Nat × Nat) → Bool
  | [] => true
  | r :: rs => rs.all (fun x => x.2 ≤ r.1 || r.2 ≤ x.1) && disjointRanges rs

/-- A plane-map entry is valid (R61). -/
def PlaneEntry.ok (e : PlaneEntry) (codeSize : Nat) : Bool :=
  e.base % 4 = 0 && e.len % 4 = 0 && 4 ≤ e.len && (e.n == 2 || e.n == 4) && e.len ≤ e.stride
  && e.base + (e.n - 1) * e.stride + e.len ≤ codeSize

/-- A code offset outside every copy of a planed region. -/
def Kernel.plainCode (k : Kernel) (off : Nat) : Bool :=
  off % 4 = 0 && off < k.codeSize && (planeCopies k.planes).all (fun r => off < r.1 || r.2 ≤ off)

/-- A block of the kernel has more lanes than one core can hold (R59). -/
def Kernel.twin (k : Kernel) : Bool := 2048 < k.blockLanes

/-- The header's own fields are in range (R60..R62, R122, R230). -/
def headerInRange (b : List Byte) : Bool :=
  let k := kernelOf b
  fld b 0 4 = 0x48594B37 && fld b 4 2 = 1 && zeros b 6 2 && k.entry % 4 = 0 && k.entry < k.codeSize && k.codeSize % 4 = 0
  && fld b 0x10 1 ≤ 5 && 1 ≤ k.teams && k.teams ≤ 96 && k.blockLanes ≤ 4096 && 32 ≤ k.ring && k.ring ≤ 256
  && zeros b 0x13 1 && k.maxDepth ≤ 4095 && k.spillSz % 65536 = 0 && k.sstack % 8 = 0 && k.spad % 64 = 0
  && k.spad ≤ 2097152 && (!k.twin || k.spad % 128 = 0) && k.slots ≤ 32 && k.accs ≤ 16 && k.bars ≤ 16
  && k.stations.length ≤ 16 && (match k.entryStn with | none => k.stations.isEmpty | some i => i < k.stations.length)
  && k.planes.length ≤ 4 && zeros b 0x2A 2 && (k.stations.isEmpty || k.lanes ≤ k.spawn)
  && (match k.trapEntry with | none => true | some e => k.plainCode e)
  && fld b 0x38 2 ≤ 512 && zeros b 0x3A 2 && fld b 0x3C 4 < 2 ^ 25 && modeValid k.initMode
  && zeros b (0x40 + 4 * k.stations.length) (64 - 4 * k.stations.length)
  && zeros b (0x80 + 12 * k.planes.length) (48 - 12 * k.planes.length) && zeros b 0xB0 80
  && (List.range k.planes.length).all (fun i => zeros b (0x80 + 12 * i + 10) 2)
  && k.planes.all (fun e => e.ok k.codeSize) && disjointRanges (planeCopies k.planes)

/-! ### Stations and safepoints (R62, R414) -/

/-- An instruction that can wait (R86). -/
def waitsAt : Instr → Bool
  | .barSync _ _ _ | .barWait _ _ _ | .cbarw _ _ _ | .pbwait _ _ _ | .conv _ _ _ | .tclm _ _ _ | .aclm _ _ _
  | .xwait _ _ _ | .eject _ _ _ | .mma _ _ _ _ _ _ | .mmaZ _ _ _ _ _ _ | .mmas _ _ _ _ _ => true
  | _ => false

/-- The instruction at a code offset. -/
def State.codeInstr (s : State) (rcb khdr : Nat) (k : Kernel) (off : Nat) : Option Instr :=
  if off % 4 = 0 && off < k.codeSize then
    (s.cpRead rcb (khdr + 256 + off) 4).bind (fun bs =>
      match decodeWord (leNat bs) with | .ok i => some i | .error _ => none)
  else none

/-- A safepoint entry of 16 bytes. -/
def safePointOf (b : List Byte) : SafePoint := { id := fld b 0 2, off := fld b 4 4, save := fld b 8 4, restore := fld b 12 4 }

/-- One safepoint entry is legal. -/
def State.safePointOk (s : State) (rcb khdr : Nat) (k : Kernel) (b : List Byte) : Bool :=
  let e := safePointOf b
  let at_ := match s.codeInstr rcb khdr k e.off with
    | some (.yield i _) => i == e.id
    | some i => waitsAt i
    | none => false
  let none_ (x : Nat) := x == 0xFFFFFFFF
  e.id < 512 && zeros b 2 2 && at_ && (none_ e.save == none_ e.restore)
  && (none_ e.save || (k.plainCode e.save && k.plainCode e.restore))

/-- Identifiers that ascend. -/
def ascending : List Nat → Bool
  | a :: b :: l => a < b && ascending (b :: l)
  | _ => true

/-- The safepoint table of a header, if it is legal. -/
def State.readSafePoints (s : State) (rcb khdr : Nat) (k : Kernel) (off n : Nat) : Option (List SafePoint) :=
  if off % 8 ≠ 0 || k.codeSize < off + 16 * n then none
  else
    match (List.range n).mapM (fun i => s.cpRead rcb (khdr + 256 + off + 16 * i) 16) with
    | none => none
    | some es =>
      let ps := es.map safePointOf
      if ascending (ps.map SafePoint.id) && es.all (s.safePointOk rcb khdr k) then some ps else none

/-- The kernel behind a header address, if R62, R122 and R414 accept it (residency apart). -/
def State.readKernel (s : State) (rcb khdr : Nat) : Option Kernel :=
  match s.cpRead rcb khdr 256 with
  | none => none
  | some b =>
    let k := kernelOf b
    if headerInRange b && k.stations.all (fun o => s.codeInstr rcb khdr k o == some .refill) then
      (s.readSafePoints rcb khdr k (fld b 0x34 4) (fld b 0x38 2)).map (fun ps => { k with safePoints := ps })
    else none

/-! ### Residency and pools (R19, R382 checks 5 and 6) -/

/-- Teams of a kernel that an empty core holds (R19). -/
def Kernel.perCore (k : Kernel) : Nat := min (min 48 (2048 / k.lanes)) (262144 / (k.lanes * (8 + k.ring)))

/-- Round up to 64 bytes. -/
def up64 (n : Nat) : Nat := ceilDiv n 64 * 64

/-- Scratchpad bytes of a block on one core, or on the even core (`odd` false) or odd core of a twin pair, with `n` teams
there (R392). -/
def Kernel.coreSpad (k : Kernel) (odd : Bool) (n : Nat) : Nat :=
  up64 (if k.twin then k.spad / 2 else k.spad) + (if odd then 0 else up64 (72 * k.spawn)) + up64 (n * k.sstack)

/-- Scratchpad bytes of a whole block. -/
def Kernel.totalSpad (k : Kernel) : Nat := up64 k.spad + up64 (72 * k.spawn) + up64 (k.teams * k.sstack)

/-- Bytes of a core's scratchpad (R18). -/
def coreSpadBytes : Nat := 1536 * 1024

/-- A block fits an empty core, or an empty twin pair. -/
def Kernel.residable (k : Kernel) : Bool :=
  if k.twin then
    let n := min k.perCore k.teams
    k.teams - n ≤ k.perCore && k.coreSpad false n ≤ coreSpadBytes && k.coreSpad true (k.teams - n) ≤ coreSpadBytes
  else k.teams ≤ k.perCore && k.coreSpad false k.teams ≤ coreSpadBytes

/-- A block's private memory and spill areas fit their pools (R385). -/
def poolsOk (k : Kernel) (d : LaunchDesc) : Bool :=
  (d.privSz == 0 || k.blockLanes * d.privSz ≤ d.ppoolSz) && (k.spillSz == 0 || k.teams * k.spillSz ≤ d.spoolSz)

/-! ### Reading a launch -/

/-- The launch is privileged as R367 allows. -/
def State.privOk (s : State) (d : LaunchDesc) (system handler : Bool) : Bool :=
  !d.priv || handler || (system && (s.findRegion d.rcb).any Region.priv)

/-- The checks 3 to 6 of R382 on a descriptor: the kernel, or the DETAIL of the first failure. -/
def State.checkDesc (s : State) (d : LaunchDesc) (system handler : Bool) : Except Nat Kernel :=
  if !s.privOk d system handler then .error 5
  else match s.readKernel d.rcb d.khdr with
    | none => .error 1
    | some k => if !k.residable then .error 4 else if !poolsOk k d then .error 6 else .ok k

/-- A launch descriptor read for a queue of region `rcb`; `system` for a system queue. A refusal gives its DETAIL, and the
CREC of the descriptor if it could be read. -/
def State.readLaunch (s : State) (rcb : Nat) (system : Bool) (addr : Nat) : Except (Nat × Nat) (Kernel × LaunchDesc) :=
  match (if addr % 64 = 0 then s.cpRead rcb addr 256 else none) with
  | none => .error (2, 0)
  | some b =>
    let d := launchDescOf b
    if !descInRange b then .error (2, d.crec)
    else if !s.inSubtree d.rcb rcb then .error (3, d.crec)
    else match s.checkDesc d system false with | .ok k => .ok (k, d) | .error e => .error (e, d.crec)

/-- What the CP reads of a kernel stands in the L2: its header, safepoint table, and the words at stations and safepoints (R445). -/
def State.noteKernel (s : State) (rcb khdr : Nat) : State :=
  let at_ (o : Nat) : Nat × Nat := (khdr + 256 + o, 4)
  let reads : List (Nat × Nat) := match s.cpRead rcb khdr 256 with
    | none => []
    | some b => (khdr + 256 + fld b 0x34 4, 16 * fld b 0x38 2) :: (kernelOf b).stations.map at_
      ++ match s.readKernel rcb khdr with | some k => k.safePoints.map (fun p => at_ p.off) | none => []
  ((khdr, 256) :: reads).foldl (fun t r => t.cpNote rcb r.1 r.2 .load) s

/-- What the CP reads of a launch descriptor, and of its kernel if it comes to that. -/
def State.noteLaunch (s : State) (rcb : Nat) (system : Bool) (addr : Nat) : State :=
  if addr % 64 ≠ 0 then s
  else
    let t := s.cpNote rcb addr 256 .load
    match s.cpRead rcb addr 256, s.readLaunch rcb system addr with
    | some b, .ok _ => t.noteKernel (launchDescOf b).rcb (launchDescOf b).khdr
    | some b, .error (e, _) => if e = 1 || e = 4 || e = 6 then t.noteKernel (launchDescOf b).rcb (launchDescOf b).khdr else t
    | none, _ => t

/-- Add a launch. A queue-one firing may be made without being ready (R390). -/
def State.addLaunch (s : State) (source : Nat) (from_ : LaunchSource) (k : Kernel) (d : LaunchDesc) (recRcb : Nat)
    (ready : Bool) : State :=
  let r := s.newId
  { r.2 with launches := r.2.launches ++ [
      { lid := r.1, source := source, from_ := from_, k := k, d := d, recRcb := recRcb, next := 0, ready := ready, status := 0
        waitSince := if ready && 0 < d.clusterCount then some s.clk else none, starved := false, closing := none
        readySeq := if ready then r.1 else 0, disc := 0 }] }

/-- A launch that was made earlier becomes ready (R390, R391). -/
def State.readyLaunch (s : State) (lid : Nat) : State :=
  let r := s.newId
  r.2.modLaunch lid (fun l => { l with ready := true, waitSince := if 0 < l.d.clusterCount then some s.clk else none, readySeq := r.1 })

/-! ### The handler of a fault domain (R374) -/

/-- The descriptor of a handler launch. -/
def handlerDesc (d : Domain) : LaunchDesc :=
  { LaunchDesc.absent with khdr := d.fdKernel, rcb := d.rcb, gridX := 1, gridY := 1, gridZ := 1, priv := true
                           args := [BitVec.ofNat 64 d.fqBase, BitVec.ofNat 64 d.fqSize] }

/-- HANDLER_LAUNCH: the domain of RCB `id` has records, no handler runs, and none is barred. A header that the checks
refuse launches nothing and is logged. -/
def execHandlerLaunch (s : State) : Host.Outcome State Fault Refusal :=
  .next (match s.findDomain s.arg.id with
    | some d =>
      let s' := s.noteKernel d.rcb d.fdKernel
      if d.head != d.tail && d.handler.isNone && !d.barred then
        match s.checkDesc (handlerDesc d) true true with
        | .ok k =>
          let t := s'.addLaunch d.fdKernel (.handler d.rcb) k (handlerDesc d) d.rcb true
          t.modDomain d.rcb (fun d => { d with handler := some s.nextId })
        | .error e => (s'.log 0 2 0x13 e).modDomain d.rcb (fun d => { d with barred := true })
      else s
    | none => s)

end Sys2Proof.Machine
end

