-- ==== Sys2Proof/Machine/Place.lean ====
section
/-!
DEFINITION. Placement (R59, R63, R118, R372, R385, R391..R393), release of blocks, and core-group swaps (R418, R419).
-/
namespace Sys2Proof.Machine

/-! ### What a core has left (R392) -/

/-- The blocks whose resources lie on a core. -/
def State.coreBlocks (s : State) (core : Nat) : List Block := s.allBlocks.filter (fun b => b.onCore core)

/-- Teams of a block that were placed on a core. -/
def State.teamsThere (s : State) (b : Block) (core : Nat) : Nat :=
  (s.teams.filter (fun t => t.bid == b.bid && t.core == core)).length

/-- Scratchpad bytes in use on a core. -/
def State.usedSpad (s : State) (core : Nat) : Nat :=
  ((s.coreBlocks core).map (fun b => b.k.coreSpad (b.core != core) (s.teamsThere b core))).sum

/-- A sum over the blocks whose barriers and counters lie on a core. -/
def State.usedEven (s : State) (core : Nat) (f : Block → Nat) : Nat :=
  (((s.coreBlocks core).filter (fun b => b.core == core)).map f).sum

/-- A sum over the blocks on a core, of one subtree if `top` names it. -/
def State.usedOn (s : State) (core : Nat) (top : Option Nat) (f : Block → Nat) : Nat :=
  (((s.coreBlocks core).filter (fun b => top.all (s.inSubtree b.rcb))).map f).sum

/-- Teams that land in section `sec` when `n` teams start at section `s0` (R59). -/
def sectionLoad (s0 n sec : Nat) : Nat := ((List.range n).filter (fun j => (s0 + j) % 6 == sec)).length

/-- A first section with which `n` teams fit the sections of a core, from a free start on. -/
def State.startSection (s : State) (core n start : Nat) : Option Nat :=
  ((List.range 6).map (fun i => (start + i) % 6)).find? (fun s0 =>
    (List.range 6).all (fun sec => s.sectionCount core sec + sectionLoad s0 n sec ≤ 8))

/-- `n` teams of a kernel fit a core by R19. -/
def State.teamRoom (s : State) (k : Kernel) (core n : Nat) : Bool :=
  s.coreRoom core n k.lanes k.ring && (s.startSection core n 0).isSome

/-- `n` teams of a kernel, and the scratchpad they need, fit a core (R19, R392). -/
def State.teamsFit (s : State) (k : Kernel) (core : Nat) (odd : Bool) (n : Nat) : Bool :=
  s.teamRoom k core n && s.usedSpad core + k.coreSpad odd n ≤ coreSpadBytes

/-- Teams that go to the first core: all, or on a twin pair as many as R19 allows there (R59). -/
def State.firstTeams (s : State) (k : Kernel) (core : Nat) : Nat :=
  if k.twin then (((List.range (k.teams + 1)).filter (s.teamRoom k core)).getLast?).getD 0
  else k.teams

/-- Block instance tags free on some cores (R118). -/
def State.freeTags (s : State) (cores : List Nat) : List Nat :=
  ((List.range 256).drop 1).filter (fun t => cores.all (fun c => (s.coreBlocks c).all (fun b => b.tag != t)))

/-- Cluster instance tags free on some cores. -/
def State.freeClusterTags (s : State) (cores : List Nat) : List Nat :=
  ((List.range 256).drop 1).filter (fun t =>
    s.clusters.all (fun x => x.tag != t || cores.all (fun c => !s.clusterOn x c)))

/-- Lowest free slot of a pool of `n` slots (R385). -/
def freeSlot (n : Nat) (used : List Nat) : Option Nat := (List.range n).find? (fun i => !used.contains i)

/-- The private and spill slots a block would take; `none`: it waits. A pool that is not used gives no slot. -/
def State.poolSlots (s : State) (lid : Nat) (k : Kernel) (d : LaunchDesc) : Option (Option Nat × Option Nat) :=
  let bs := s.allBlocks.filter (fun b => b.lid == lid)
  let take (size unit : Nat) (used : List Nat) : Option (Option Nat) :=
    if unit = 0 then some none else (freeSlot (size / unit) used).map some
  match take d.ppoolSz (k.blockLanes * d.privSz) (bs.filterMap Block.privSlot),
        take d.spoolSz (k.teams * k.spillSz) (bs.filterMap Block.spillSlot) with
  | some p, some q => some (p, q)
  | _, _ => none

/-- Room in the budgets of a region and of every ancestor (R372); a swapped-out block takes none (log 115). -/
def State.budgetOk (s : State) (k : Kernel) (rcb : Nat) (cores : List Nat) : Bool :=
  (s.path rcb).all (fun r =>
    match s.region r.rcb with
    | none => false
    | some e =>
      let bs := s.allBlocks.filter (fun b => !b.swapped && s.inSubtree b.rcb r.rcb)
      ((bs.filter (fun b => !b.ended)).map (fun b => b.k.blockLanes)).sum + k.blockLanes ≤ e.lanes
      && (bs.map (fun b => b.k.totalSpad)).sum + k.totalSpad ≤ e.spadKb * 1024
      && cores.all (fun c => e.cgmask.testBit (c / 16)
          && s.usedOn c (some r.rcb) (fun b => b.k.slots) + k.slots ≤ e.slotCap
          && s.usedOn c (some r.rcb) (fun b => b.k.accs) + k.accs ≤ e.accCap))

/-! ### What must go first (R391, R413, R418) -/

/-- Effective priority of a region. -/
def State.prio (s : State) (rcb : Nat) : Nat := match s.region rcb with | some r => r.prio | none => 0

/-- Effective values of a resident block's region: those it was placed under (R371). -/
def State.blockRegion (s : State) (b : Block) : Option Region := match b.eff with | some r => some r | none => s.region b.rcb

/-- Priority of a resident block. -/
def State.blockPrio (s : State) (b : Block) : Nat := match s.blockRegion b with | some r => r.prio | none => 0

/-- The launch has a block still to place. -/
def Launch.hasNext (l : Launch) : Bool := l.next < l.d.clusterCount

/-- The next block of a launch has waited 100 us: 175,000 clk (R391). -/
def State.starving (s : State) (l : Launch) : Bool :=
  l.hasNext && (l.starved || l.waitSince.any (fun c => c + 175000 ≤ s.clk))

/-- A starved block of another launch reserves the core group. -/
def State.starvedElsewhere (s : State) (lid prio group : Nat) : Bool :=
  s.launches.any (fun l => s.starving l && l.lid != lid && prio ≤ s.prio l.d.rcb
    && (s.region l.d.rcb).any (fun r => r.cgmask.testBit group))

/-- A suspended team of at least this priority resumes on the core first. -/
def State.suspendedFirst (s : State) (prio core : Nat) : Bool :=
  s.teams.any (fun t => t.core == core && t.phase == .suspended && (s.findBlock t.bid).any (fun b => prio ≤ s.blockPrio b))

/-- The blocks of a swapped group. -/
def State.hearthBlocks (s : State) (h : Hearth) : List Block := s.allBlocks.filter (fun b => b.swapped && b.core / 16 == h.group)

/-- A group holds no block. -/
def State.groupEmpty (s : State) (g : Nat) : Bool := s.allBlocks.all (fun b => b.swapped || b.core / 16 != g)

/-- A swapped group may come back in this group. -/
def State.hearthFits (s : State) (h : Hearth) (g : Nat) : Bool :=
  g / 6 == h.die && s.groupEmpty g && s.amc.cfg.cgen.testBit g
  && (s.hearthBlocks h).all (fun b => (s.blockRegion b).any (fun r => r.cgmask.testBit g))

/-- A swapped group of at least this priority comes back in the group first. -/
def State.hearthFirst (s : State) (prio group : Nat) : Bool :=
  s.hearths.any (fun h => s.hearthFits h group && (s.hearthBlocks h).any (fun b => prio ≤ s.blockPrio b))

/-! ### Fitting and placing one block -/

/-- The cores a block would use from a core on. -/
def Kernel.cores (k : Kernel) (core : Nat) : List Nat := if k.twin then [core, core + 1] else [core]

/-- A block of a launch fits a core, or the twin pair that a core begins (R392), in a core group that the configuration
record enables (R437) and that is not on its way out (R418). -/
def State.fits (s : State) (lid : Nat) (k : Kernel) (d : LaunchDesc) (core : Nat) : Bool :=
  let n := s.firstTeams k core
  let cores := k.cores core
  let prio := s.prio d.rcb
  (!k.twin || core % 2 = 0)
  && s.teamsFit k core false n && (!k.twin || s.teamsFit k (core + 1) true (k.teams - n))
  && s.usedEven core (fun b => b.k.bars) + k.bars ≤ 128
  && s.usedEven core (fun b => b.d.ccount) + d.ccount ≤ 64
  && cores.all (fun c => s.amc.cfg.cgen.testBit (c / 16) && s.usedOn c none (fun b => b.k.slots) + k.slots ≤ 96
      && s.usedOn c none (fun b => b.k.accs) + k.accs ≤ 96 && !s.suspendedFirst prio c)
  && s.swapping.all (fun g => g != core / 16) && s.budgetOk k d.rcb cores && !(s.freeTags cores).isEmpty && (s.poolSlots lid k d).isSome
  && !s.starvedElsewhere lid prio (core / 16) && !s.hearthFirst prio (core / 16)

/-- The start state of a team (R63). -/
def startTeam (k : Kernel) (d : LaunchDesc) (lid bid index tib uid core sec spillBase : Nat) : Team :=
  { Team.absent with
    uid := uid, bid := bid, lid := lid, teamId := index * k.teams + tib, tib := tib, size := k.lanes, core := core
    section_ := sec, system := d.priv, rcb := d.rcb, phase := .ready, pc := BitVec.ofNat 32 k.entry
    lanes := { Team.absent.lanes with active := firstLanes k.lanes }
    regs := { v := smTable 0 k.lanes (fun l => BitVec.ofNat 32 (tib * k.lanes + l)), side := []
              s := smTable 0 16 (fun i => d.args.getD i 0), p := [] }
    sp := { Team.absent.sp with mode := k.initMode }
    spillSz := k.spillSz, spillBase := spillBase, placed := bid }

/-- Drop the entries of a store whose keys lie in lo..hi-1. -/
def smDrop {α : Type} (m : SMap α) (lo hi : Nat) : SMap α := m.filter (fun c => !(decide (lo ≤ c.1) && decide (c.1 < hi)))

/-- Zero physical bytes with their side-bands. -/
def State.zeroPhys (s : State) (pa n : Nat) : State :=
  { s with mem := smDrop s.mem pa (pa + n), memSide := smDrop s.memSide (pa / 64) (ceilDiv (pa + n) 64)
           poison := s.poison.filter (fun x => !(decide (pa / 64 ≤ x) && decide (x < ceilDiv (pa + n) 64))) }

/-- Zero a virtual range page by page: private memory reads zero at placement, whatever the page permits (R120); where none is present
nothing can be zeroed (log 27). -/
def State.zeroVirt (s : State) (v : View) (va n : Nat) : State :=
  if n = 0 then s
  else
    (List.range ((va + n - 1) / 2 ^ 16 + 1 - va / 2 ^ 16)).foldl (fun s i =>
      let lo := max va ((va / 2 ^ 16 + i) * 2 ^ 16)
      let hi := min (va + n) ((va / 2 ^ 16 + i + 1) * 2 ^ 16)
      match s.behind v lo with
      | some pa => if pa + (hi - lo) ≤ hbmEnd then s.zeroPhys pa (hi - lo) else s
      | none => s) s

/-- Place one block of a launch on a core that it fits: tag, pool slots, sections and team start state. The block stands
in `blocks`, its teams in `others`. -/
def State.placeBlock (s : State) (l : Launch) (cid index x y z rank core : Nat) : State :=
  let k := l.k
  let d := l.d
  let n := s.firstTeams k core
  let r1 := s.draw
  let r2 := r1.2.draw
  let r3 := r2.2.draw
  let tags := s.freeTags (k.cores core)
  let slots := (s.poolSlots l.lid k d).getD (none, none)
  let sec (c first : Nat) (free j : Nat) : Nat := ((s.startSection c first free).getD 0 + j) % 6
  let id := r3.2.newId
  let bid := id.1
  let ids := (List.range k.teams).foldl (fun (r : List Nat × State) _ =>
    let x := r.2.newId
    (r.1 ++ [x.1], x.2)) ([], id.2)
  let team (j : Nat) : Team :=
    let on := if j < n then core else core + 1
    startTeam k d l.lid bid index j (ids.1.getD j 0) on
      (if j < n then sec core n r2.1 j else sec (core + 1) (k.teams - n) r3.1 (j - n))
      (d.spool + ((slots.2.getD 0) * k.teams + j) * k.spillSz)
  let pbase := d.ppool + (slots.1.getD 0) * (k.blockLanes * d.privSz)
  let b : Block :=
    { Block.absent with
      bid := bid, lid := l.lid, cid := cid, index := index, x := x, y := y, z := z, rank := rank
      tag := tags.getD (r1.1 % tags.length) 1, core := core, twin := k.twin, rcb := d.rcb, k := k, d := d
      pbase := pbase, privSlot := slots.1, spillSlot := slots.2, fresh := k.blockLanes, ended := false
      eff := s.region d.rcb, prid := (s.partition d.rcb).elim 0 Region.rid, dom := s.domRef d.rcb
      pwr := s.pathShares d.rcb }
  let t : State := { ids.2 with
    blocks := ids.2.blocks ++ [b]
    others := ids.2.others ++ (List.range k.teams).map team
    cursor := if k.twin then core + 1 else core }
  t.zeroVirt (t.view d.rcb true) pbase (k.blockLanes * d.privSz)

/-! ### Placing the next block or cluster of a launch (R58, R393) -/

/-- Coordinates of block `rank` of cluster `c`, and its linear index (R58, R235). -/
def LaunchDesc.blockOf (d : LaunchDesc) (c rank : Nat) : Nat × Nat × Nat × Nat :=
  let (lx, ly, lz) := d.clDims
  let nx := d.gridX / lx
  let ny := d.gridY / ly
  let x := c % nx * lx + rank % lx
  let y := c / nx % ny * ly + rank / lx % ly
  let z := c / (nx * ny) * lz + rank / (lx * ly)
  (x, y, z, x + d.gridX * (y + d.gridY * z))

/-- The first core of a list that the block fits, and the state with it placed there. -/
def State.placeFirst (s : State) (l : Launch) (cid rank : Nat) (cores : List Nat) : Option State :=
  (cores.find? (s.fits l.lid l.k l.d)).map (fun core =>
    let (x, y, z, i) := l.d.blockOf l.next rank
    s.placeBlock l cid i x y z rank core)

/-- The cores that blocks of a cluster lie on. -/
def State.clusterCores (s : State) (cid : Nat) : List Nat :=
  (s.allBlocks.filter (fun b => b.cid == cid)).flatMap (fun b => b.k.cores b.core)

/-- Blocks of a cluster one after another on the cores of a list, then the cluster's tag; `none` if one does not fit. -/
def State.placeUnit (s : State) (l : Launch) (cores : List Nat) : Option State :=
  let id := s.newId
  match (List.range l.d.clSize).foldlM (fun (t : State) r => t.placeFirst l id.1 r cores) id.2 with
  | none => none
  | some t =>
    let mine := t.clusterCores id.1
    let r := t.draw
    match t.freeClusterTags mine with
    | [] => none
    | tag :: tags =>
      some { r.2 with
        clusters := r.2.clusters ++ [
          { cid := id.1, lid := l.lid, index := l.next, tag := (tag :: tags).getD (r.1 % (tags.length + 1)) tag
            group := mine.headD 0 / 16, size := l.d.clSize, cores := mine, barC := [], barArr := [] }]
        cursor := mine.foldl max 0 }

/-- The next block or cluster of a launch placed, if it can be: cores from the cursor on, or whole core groups. -/
def State.tryPlace (s : State) (l : Launch) : Option State :=
  if l.d.clustered then
    (List.range 12).findSome? (fun i =>
      let g := ((s.cursor + 1) % 192 / 16 + i) % 12
      s.placeUnit l ((List.range 16).map (fun c => 16 * g + c)))
  else s.placeUnit l ((List.range 192).map (fun i => (s.cursor + 1 + i) % 192))

/-- Launches with a block left to place. -/
def State.unplaced (s : State) : List Launch := s.launches.filter (fun l => l.ready && l.next < l.d.clusterCount)

/-- Launch `a` is served before `b`: higher priority, then the region that follows the last one served at that priority, then
the earlier to become ready (R391). -/
def State.servedBefore (s : State) (a b : Launch) : Bool :=
  let turn (l : Launch) : Nat := (l.d.rcb + 2 ^ 64 - 1 - smGet 0 s.rrRegion (s.prio l.d.rcb)) % 2 ^ 64
  s.prio b.d.rcb < s.prio a.d.rcb || (s.prio a.d.rcb = s.prio b.d.rcb && (turn a < turn b
    || (turn a = turn b && a.readySeq < b.readySeq)))

/-- The launch whose next block the dispatcher places, with the state after it: the first in the order of R391 that can
be placed. -/
def State.choose (s : State) : Option (Launch × State) :=
  (s.unplaced.filterMap (fun l => (s.tryPlace l).map (fun t => (l, t)))).foldl (fun best x =>
    match best with
    | none => some x
    | some b => if s.servedBefore x.1 b.1 then some x else some b) none

/-- One placement is made, if the launch to be served places clusters, or single blocks, as asked. -/
def State.place (s : State) (clustered : Bool) : State :=
  match s.choose with
  | some (l, t) =>
    if l.d.clustered = clustered then
      { t.modLaunch l.lid (fun x => { x with
          next := x.next + 1, waitSince := if x.next + 1 < l.d.clusterCount then some s.clk else none, starved := false })
        with rrRegion := smSet 0 t.rrRegion (s.prio l.d.rcb) l.d.rcb }
    else s
  | none => s

/-- BLOCK_PLACE. -/
def execBlockPlace (s : State) : Host.Outcome State Fault Refusal := .next (s.place false)

/-- CLUSTER_PLACE. -/
def execClusterPlace (s : State) : Host.Outcome State Fault Refusal := .next (s.place true)

/-- PLACEMENT_STARVATION: the next block of launch `id` has waited 100 us, 175,000 clk (R391). -/
def execPlacementStarvation (s : State) : Host.Outcome State Fault Refusal :=
  .next (s.modLaunch s.arg.id (fun l =>
    { l with starved := s.starving l }))

/-! ### Release of a block (R211, R123) -/

/-- A transfer writes into the scratchpad of a block. -/
def TileTransfer.writesTo (bid : Nat) : TileTransfer → Bool
  | .load _ _ => false
  | .image b _ _ => b == bid

/-- A wait on a phase barrier in the scratchpad of a block. -/
def Wait.onBlock (bid : Nat) : Wait → Bool
  | .phase b _ _ _ _ => b == bid
  | _ => false

/-- The waits that a team will take up again. -/
def Preempt.waits (p : Preempt) : List Wait :=
  (p.wait.toList ++ p.held.toList ++ p.trapped.toList ++ p.outer.filterMap Routine.wait).map Prod.fst

/-- A team waits on a phase barrier of the block, on its core or away from it: that access has not completed (R123). -/
def State.phaseAwaited (s : State) (bid : Nat) : Bool :=
  let waits (p : Phase) : Bool := match p with | .waiting w => w.onBlock bid | _ => false
  s.teams.any (fun t => waits t.phase || t.pre.waits.any (Wait.onBlock bid))
  || s.hearths.any (fun h => h.phases.any (fun p => waits p.2))

/-- Every team of the block has ended, every command of it has completed, fired sends too, and so has every transfer of its teams or
into its scratchpad, and every wait on an object there (R123, R211, R320). -/
def State.blockDone (s : State) (b : Block) : Bool :=
  b.ended && s.cmds.all (fun c => c.bid != b.bid) && !s.phaseAwaited b.bid
  && s.teams.all (fun t => t.mat.transfers.all (fun x => t.bid != b.bid && !x.writesTo b.bid))

/-- Take a block, its teams, and a cluster without blocks out of the machine. -/
def State.dropBlock (s : State) (b : Block) : State :=
  let t : State := { s with
    blk := if s.blk.bid = b.bid then .absent else s.blk
    blocks := s.blocks.filter (fun x => x.bid != b.bid)
    team := if s.team.bid = b.bid then .absent else s.team
    others := s.others.filter (fun t => t.bid != b.bid) }
  if t.allBlocks.any (fun x => x.cid == b.cid) then t
  else { t with clusters := t.clusters.filter (fun c => c.cid != b.cid) }

/-- BLOCK_RELEASE of block `id`. -/
def execBlockRelease (s : State) : Host.Outcome State Fault Refusal :=
  .next (match s.findBlock s.arg.id with
    | some b => if b.bid ≠ 0 && s.blockDone b then s.dropBlock b else s
    | none => s)

/-! ### Core-group swap (R418, R419) -/

/-- A core group's cores. -/
def groupCores (g : Nat) : List Nat := (List.range 16).map (fun c => 16 * g + c)

/-- The group holds only blocks of priority below `prio`, its die's hearth is empty, and no command of it is suspended. -/
def State.swappable (s : State) (prio g : Nat) : Bool :=
  !s.groupEmpty g
  && s.allBlocks.all (fun b => b.swapped || b.core / 16 != g || s.blockPrio b < prio)
  && s.hearths.all (fun h => h.die != g / 6)
  && s.cmds.all (fun c => c.core / 16 != g || c.cpQueue.isSome || c.fired || c.status != .suspended)

/-- The group that a starved block makes the CP swap out: the first in the cursor's order. -/
def State.swapGroup (s : State) : Option Nat :=
  ((List.range 12).map (fun i => ((s.cursor + 1) % 192 / 16 + i) % 12)).find? (fun g =>
    s.launches.any (fun l => s.starving l && (s.region l.d.rcb).any (fun r => r.cgmask.testBit g) && s.swappable (s.prio l.d.rcb) g))

/-- The spill engine of a team has a transfer to make (R103); one that stopped with a Held team has none. -/
def Team.spilling (t : Team) : Bool := t.win.spill == .ahead || t.phase == .stalled .spill

/-- Nothing that has been issued in the group is still under way, in its cores or its engines (R418 step 1). -/
def State.groupIdle (s : State) (g : Nat) : Bool :=
  s.teams.all (fun t => t.core / 16 != g || t.phase == .swapped
    || (t.loads.isEmpty && t.mat.steps.isEmpty && t.mat.transfers.isEmpty && !t.spilling))
  && s.cmds.all (fun c => c.core / 16 != g || c.cpQueue.isSome || c.fired)

/-- The group goes to the hearth of its die, and its cores are free (R418 steps 2 and 3). -/
def State.swapOut (s : State) (g : Nat) : State :=
  let mine (t : Team) : Bool := t.core / 16 == g && t.phase != .ended && s.allBlocks.any (fun b => b.bid == t.bid && !b.swapped)
  let out (t : Team) : Team := if mine t then { t with phase := .swapped } else t
  let away (b : Block) : Block := if b.core / 16 = g && b.bid ≠ 0 then { b with swapped := true } else b
  { s with
    team := out s.team, others := s.others.map out, blk := away s.blk, blocks := s.blocks.map away
    hearths := s.hearths ++ [{ die := g / 6, group := g, phases := (s.teams.filter mine).map (fun t => (t.uid, t.phase)) }]
    halted := s.halted.filter (fun c => c / 16 != g), swapping := none }

/-- CORE_GROUP_SWAP_OUT: the CP chooses a group and halts its cores; once their engines are idle the group goes to the hearth. -/
def execCoreGroupSwapOut (s : State) : Host.Outcome State Fault Refusal :=
  .next (
    match (match s.swapping with | some g => some g | none => s.swapGroup) with
    | none => s
    | some g =>
      if s.groupIdle g then s.swapOut g
      else { s with halted := (groupCores g).foldl setAdd s.halted, swapping := some g })

/-- A swapped team comes back, on the same core of another group; an FDACT that ended it takes effect (R408). -/
def Team.swapIn (t : Team) (h : Hearth) (g : Nat) : Team :=
  match h.phases.find? (fun p => p.1 == t.uid) with
  | none => t
  | some p =>
    let u := { t with phase := p.2, core := 16 * g + t.core % 16 }
    if p.2 = .ended then u.finish else u

/-- The teams of a hearth. -/
def Hearth.holds (h : Hearth) (t : Team) : Bool := h.phases.any (fun p => p.1 == t.uid)

/-- CORE_GROUP_SWAP_IN: the first swapped group that an empty group of its die can take. -/
def execCoreGroupSwapIn (s : State) : Host.Outcome State Fault Refusal :=
  .next (
    match s.hearths.findSome? (fun h => ((List.range 12).find? (s.hearthFits h)).map (fun g => (h, g))) with
    | none => s
    | some (h, g) =>
      let bids := (s.hearthBlocks h).map Block.bid
      let back (b : Block) : Block :=
        if bids.contains b.bid then { b with swapped := false, core := 16 * g + b.core % 16 } else b
      let move (t : Team) : Team := if t.phase = .swapped then t.swapIn h g
        else if bids.contains t.bid then { t with core := 16 * g + t.core % 16 } else t
      { s with
        team := move s.team, others := s.others.map move, blk := back s.blk, blocks := s.blocks.map back
        cmds := s.cmds.map (fun c => if bids.contains c.bid && c.cpQueue.isNone then { c with core := 16 * g + c.core % 16 } else c)
        clusters := s.clusters.map (fun c => if s.allBlocks.any (fun b => bids.contains b.bid && b.cid == c.cid)
          then { c with group := g, cores := c.cores.map (fun x => 16 * g + x % 16) } else c)
        hearths := s.hearths.filter (fun x => x != h) })

/-- HALT_RELEASE: the CP releases core `id` (R240). -/
def execHaltRelease (s : State) : Host.Outcome State Fault Refusal := .next { s with halted := setDel s.halted s.arg.id }

end Sys2Proof.Machine
end

