-- ==== Sys2Proof/Machine/Cp.lean ====
section
/-!
DEFINITION. The command processor (R376..R390): doorbells, the commands of the host queues, task graphs, tapes, the time
table, regions, and the completion of launches.
-/
namespace Sys2Proof.Machine

/-! ### Launches from a queue, and the time-triggered table (R379, R390) -/

/-- Try to launch a descriptor for a queue; a refusal is reported by a record, a release at system scope (R381). -/
def State.tryLaunch (s : State) (rcb : Nat) (system : Bool) (addr : Nat) (from_ : LaunchSource) (ready : Bool) :
    State × Option Nat :=
  match s.readLaunch rcb system addr with
  | .ok (k, d) => ((s.noteLaunch rcb system addr).addLaunch addr from_ k d rcb ready, none)
  | .error (e, crec) => ((s.noteLaunch rcb system addr).postRecord rcb crec addr 1 e, some e)

/-- The slot of a number. -/
def State.findSlot (s : State) (i : Nat) : Option TimeSlot := (s.slots.find? (fun x => x.1 == i)).map Prod.snd

/-- Set a slot. -/
def State.setSlot (s : State) (i : Nat) (x : TimeSlot) : State := { s with slots := (i, x) :: s.slots.filter (fun y => y.1 != i) }

/-- Number of the first firing that lies after a time. -/
def firstFiring (start period now : Nat) : Nat := if now < start then 0 else if period = 0 then 1 else (now - start) / period + 1

/-- Launches from a slot that have not completed. -/
def State.slotLaunches (s : State) (i : Nat) : List Launch := s.launches.filter (fun l => l.from_ == .table i)

/-- A firing is skipped: a record with STATUS 4 where the descriptor says. -/
def State.skipFiring (s : State) (x : TimeSlot) : State :=
  let t := s.cpNote x.rcb x.ld 256 .load
  match s.cpRead x.rcb x.ld 256 with
  | some b => t.postRecord x.rcb (launchDescOf b).crec x.ld 4 0
  | none => t.log 0 2 0x11 x.ld

/-- Every team of some launches that has not ended gets a pre-emption request, one that is suspended or swapped too (R86, R412). -/
def State.requestYield (s : State) (lids : List Nat) : State :=
  s.mapTeams (fun t => if lids.contains t.lid && t.phase != .ended then { t with pre := { t.pre with pending := true } } else t)

/-- Make the firing's launch under the slot's overrun rule. -/
def State.fireSlot (s : State) (i : Nat) (x : TimeSlot) : State :=
  let old := s.slotLaunches i
  let go (s : State) (ready : Bool) : State := (s.tryLaunch x.rcb x.system x.ld (.table i) ready).1
  if old.isEmpty then go s true
  else match x.rule with
    | 1 => if old.any (fun l => !l.ready) then s.skipFiring x else go s false
    | 2 => if 2 ≤ old.length then s.skipFiring x else (go s true).requestYield (old.map Launch.lid)
    | _ => s.skipFiring x

/-- The time of the next firing of a slot, once the PTP clock has reached it; none before the first lock (R390, R434). -/
def State.dueTime (s : State) (x : TimeSlot) : Option Nat :=
  if s.hub.ptpLocked && x.on && x.start + x.m * x.period ≤ s.hub.ptp && (x.period ≠ 0 || x.m = 0)
  then some (x.start + x.m * x.period) else none

/-- The next firing of a slot, if its time has come. -/
def State.fireDue (s : State) (i : Nat) : State :=
  match s.findSlot i with
  | some x => if (s.dueTime x).isSome then (s.setSlot i { x with m := x.m + 1 }).fireSlot i x else s
  | none => s

/-- The slot whose firing has the earliest time of those that have come (R376). -/
def State.firstDue (s : State) : Option Nat :=
  ((s.slots.filterMap (fun y => (s.dueTime y.2).map (fun t => (t, y.1)))).foldl (fun best x =>
    match best with
    | none => some x
    | some b => if x.1 < b.1 then some x else some b) none).map Prod.snd

/-- The firings whose times have come, one after another in the order of their times, at most `n`. -/
def State.fireSome (s : State) : Nat → State
  | 0 => s
  | n + 1 => match s.firstDue with | none => s | some i => (s.fireDue i).fireSome n

/-- Every firing whose time has come: they precede what the CP handles now (R376, R390). -/
def State.fireAll (s : State) : State :=
  s.fireSome ((s.slots.map (fun y => if y.2.period = 0 then 1 else (s.hub.ptp - y.2.start) / y.2.period + 1 - y.2.m)).sum)

/-! ### Queues (R377, R378) -/

/-- DOORBELL_WRITE: a write of `len` bytes at offset `addr` of the doorbell page, by an endpoint of partition RID `rid`
(R378, R429). What is not a legal new TAIL is ignored and logged, and nothing comes of a write in the management VLAN
(R431), or in recovery, when the host port serves no transport (R435). -/
def execDoorbellWrite (s : State) : Host.Outcome State Fault Refusal :=
  .next (s.offVlan (
    let a := s.arg
    let q := a.addr / 8
    let bad := s.log 0 1 0x40 a.addr
    if s.amc.status ≠ .ready then s
    else match s.findQueue q with
    | some x =>
      let d := (BitVec.ofNat 32 a.value - x.head).toNat
      if a.len = 8 && a.addr % 8 = 0 && a.value < 2 ^ 32 && (s.view x.region true).rid = a.rid && d ≤ x.size
      then s.setQueue q { x with tail := BitVec.ofNat 32 a.value }
      else bad
    | none => bad))

/-- Queues 0 and 1 are system queues. -/
def systemQueue (q : Nat) : Bool := q < 2

/-- The sub-operations of an OPC (R379). -/
def subCount (opc : Nat) : Nat :=
  match opc with | 1 => 2 | 2 => 1 | 3 => 2 | 4 => 1 | 5 => 4 | 6 => 4 | _ => 0

/-- OPC, SUB and the reserved bytes of a command are legal (R379, R380). -/
def commandFormed (b : List Byte) : Bool := fld b 1 1 < subCount (fld b 0 1) && zeros b 2 6

/-- The running command of a queue is refused (R380). -/
def State.refuseCommand (s : State) (q detail : Nat) : State := s.finishCommand q 1 detail 0 0

/-- The running command of a queue is refused for a reason that has no DETAIL in the spec: the DETAIL is a free value
(log 28). -/
def State.refuseOpen (s : State) (q : Nat) : State := s.draw.2.refuseCommand q (s.draw.1 % 256)

/-- Queue `id` starts the command at its HEAD, if it is the one the event names; a command that cannot be read, or is
malformed, or a REGION command of a user queue, is refused by whatever event comes to it (R378, R380, log 28). The firings of the
time table whose times have come are handled before it (R376). -/
def State.startCommand (s0 : State) (opc sub : Nat) (f : State → Nat → Queue → List Byte → State) : State :=
  let s := s0.fireAll
  let q := s.arg.id
  match s.findQueue q with
  | none => s
  | some x =>
    if x.size = 0 || x.running.isSome || x.head = x.tail then s
    else match s.cpRead x.region x.headAddr 64 with
      | none => (s.cpNote x.region x.headAddr 64 .load).refuseOpen q
      | some b =>
        let y := { x with crec := fld b 8 8 }
        let t := (s.cpNote x.region x.headAddr 64 .load).setQueue q y
        if !commandFormed b then t.refuseOpen q
        else if fld b 0 1 = 6 && !systemQueue q then t.refuseOpen q
        else if fld b 0 1 = opc && fld b 1 1 = sub then f t q y b
        else s

/-- Set what the running command of a queue has left to do. -/
def State.run (s : State) (q : Nat) (r : RunCmd) : State :=
  match s.findQueue q with | some x => s.setQueue q { x with running := some r } | none => s

/-! ### Launches (R379, R382..R384) -/

/-- LAUNCH SUB 0. -/
def execLaunch (s : State) : Host.Outcome State Fault Refusal :=
  .next (s.startCommand 1 0 (fun t q x b =>
    match t.tryLaunch x.region (systemQueue q) (fld b 0x10 8) (.queue q) true with
    | (u, none) => u.run q .launch
    | (u, some e) => u.refuseCommand q e))

/-! ### Tapes (R389) -/

/-- The next launch of a popped list, passing over those refused; the command completes after the last. -/
def State.tapeNext (s : State) (q : Nat) (x : Queue) : List Nat → Nat → State
  | [], status => s.finishCommand q status 0 0 0
  | a :: rest, status =>
    match s.tryLaunch x.region (systemQueue q) a (.tape q) true with
    | (t, none) => t.run q (.tape rest status)
    | (t, some _) => t.tapeNext q x rest (max status 1)

/-- The tape stack of a region, newest first. -/
def State.tape (s : State) (rcb : Nat) : List (Nat × Nat) := ((s.tapes.find? (fun x => x.1 == rcb)).map Prod.snd).getD []

/-- Set the tape stack of a region. -/
def State.setTape (s : State) (rcb : Nat) (l : List (Nat × Nat)) : State :=
  { s with tapes := (rcb, l) :: s.tapes.filter (fun x => x.1 != rcb) }

/-- LAUNCH SUB 1. -/
def execTapePop (s : State) : Host.Outcome State Fault Refusal :=
  .next (s.startCommand 1 1 (fun t q x b =>
    let rcb := fld b 0x10 8
    if !t.inSubtree rcb x.region then t.refuseCommand q 3
    else
      let l := t.tape rcb
      let n := fld b 0x18 8
      (t.setTape rcb (l.drop n)).tapeNext q x (((l.take n).flatMap (fun r => [r.1, r.2])).filter (fun a => a != 0)) 0))

/-! ### Task graphs (R386..R388) -/

/-- A node as memory holds it. -/
def graphNodeOf (b : List Byte) : GraphNode :=
  { kind := fld b 0 1, npred := fld b 1 1, resNode := fld b 4 4, ld := fld b 8 8
    succ := (List.range (fld b 2 1)).map (fun i => fld b (0x10 + 4 * i) 4), count := fld b 1 1, anyRan := false, st := 0
    posted := 0, status := 0 }

/-- The reserved fields of a node. -/
def graphNodeFormed (b : List Byte) : Bool :=
  fld b 0 1 < 3 && fld b 2 1 ≤ 8 && zeros b 3 1 && zeros b (0x10 + 4 * fld b 2 1) (32 - 4 * fld b 2 1) && zeros b 0x30 16

/-- The nodes that list a node. -/
def predCount (ns : List GraphNode) (i : Nat) : Nat := (ns.filter (fun n => n.succ.contains i)).length

/-- Take nodes without remaining predecessors away until none is left; what remains lies on or behind a cycle. -/
def peelGraph (ns : List GraphNode) : Nat → List Nat → List Nat
  | 0, left => left
  | n + 1, left =>
    let next := left.filter (fun i => left.any (fun j => (ns[j]?).any (fun x => x.succ.contains i)))
    if next.length = left.length then left else peelGraph ns n next

/-- The checks of R386 on a whole graph. -/
def graphOk (ns : List GraphNode) : Bool :=
  let node (i : Nat) (f : GraphNode → Bool) : Bool := (ns[i]?).any f
  (List.range ns.length).all (fun i => node i (fun n =>
    n.succ.all (fun j => j < ns.length) && n.npred = predCount ns i
    && (n.kind != 1 || (!n.succ.isEmpty && node n.resNode (fun r => r.kind = 0 && r.succ.contains i)))))
  && (peelGraph ns ns.length (List.range ns.length)).isEmpty

/-- Bytes of a graph that the CP reads, up to the end of the first node that cannot be read. -/
def State.graphSpan (s : State) (rcb a : Nat) : Nat :=
  let n := match s.cpRead rcb a 8 with | some h => if leNat h < 65537 then leNat h else 0 | none => 0
  let ok := ((List.range n).takeWhile (fun i => (s.cpRead rcb (a + 8 + 64 * i) 64).isSome)).length
  8 + 64 * min n (ok + 1)

/-- The graph at an address, if it can be read and is legal. -/
def State.readGraph (s : State) (rcb a : Nat) : Option (List GraphNode) :=
  match s.cpRead rcb a 8 with
  | none => none
  | some h =>
    let n := leNat h
    if n < 1 || 65536 < n then none
    else match (List.range n).mapM (fun i => s.cpRead rcb (a + 8 + 64 * i) 64) with
      | none => none
      | some bs =>
        let ns := bs.map graphNodeOf
        if bs.all graphNodeFormed && graphOk ns then some ns else none

/-- Change node `i`. -/
def setNode (ns : List GraphNode) (i : Nat) (f : GraphNode → GraphNode) : List GraphNode :=
  ns.mapIdx (fun j n => if j = i then f n else n)

/-- One predecessor of a node has finished. -/
def GraphNode.dec (ran : Bool) (n : GraphNode) : GraphNode := { n with count := n.count - 1, anyRan := n.anyRan || ran }

/-- Node `i` finishes: its successors count down, or for a branch that ran the selected one, the others being marked to be
skipped (state 4). -/
def finishNode (ns : List GraphNode) (i : Nat) (ran : Bool) : List GraphNode :=
  match ns[i]? with
  | none => ns
  | some n =>
    if ran && n.kind = 1 then
      let v := match ns[n.resNode]? with | some r => r.posted.toNat | none => 0
      let sel := n.succ.getD (min v (n.succ.length - 1)) 0
      n.succ.eraseDups.foldl (fun ns j =>
        setNode ns j (fun x => if j = sel then x.dec true else if x.st = 0 then { x with st := 4 } else x)) ns
    else n.succ.eraseDups.foldl (fun ns j => setNode ns j (GraphNode.dec ran)) ns

/-- The next node to settle: one marked to be skipped, or one whose count is 0. -/
def dueNode (ns : List GraphNode) : Option Nat :=
  match ns.findIdx? (fun n => n.st == 4) with
  | some i => some i
  | none => ns.findIdx? (fun n => n.st == 0 && n.count == 0)

/-- Settle nodes until none is due: skip, finish at once, or start a launch (R387). -/
def State.graphGo (s : State) (q : Nat) (x : Queue) : Nat → List GraphNode → State × List GraphNode
  | 0, ns => (s, ns)
  | fuel + 1, ns =>
    match dueNode ns with
    | none => (s, ns)
    | some i =>
      match ns[i]? with
      | none => (s, ns)
      | some n =>
        if n.st = 4 || !(n.npred == 0 || n.anyRan) then
          s.graphGo q x fuel (finishNode (setNode ns i (fun n => { n with st := 3 })) i false)
        else if n.kind = 0 then
          match s.tryLaunch x.region (systemQueue q) n.ld (.graph q i) true with
          | (t, none) => t.graphGo q x fuel (setNode ns i (fun n => { n with st := 1 }))
          | (t, some _) => t.graphGo q x fuel (finishNode (setNode ns i (fun n => { n with st := 2, status := 1 })) i true)
        else s.graphGo q x fuel (finishNode (setNode ns i (fun n => { n with st := 2 })) i true)

/-- Go on with a graph: it completes when every node is settled and finished. -/
def State.graphStep (s : State) (q : Nat) (x : Queue) (ns : List GraphNode) : State :=
  let r := s.graphGo q x (ns.length + 1) ns
  if r.2.all (fun n => n.st == 2 || n.st == 3) then r.1.finishCommand q ((r.2.map GraphNode.status).foldl max 0) 0 0 0
  else r.1.run q (.graph r.2)

/-- GRAPH. -/
def execGraph (s : State) : Host.Outcome State Fault Refusal :=
  .next (s.startCommand 2 0 (fun t q x b =>
    let a := fld b 0x10 8
    let u := t.cpNote x.region a (t.graphSpan x.region a) .load
    match t.readGraph x.region a with
    | none => u.refuseCommand q 7
    | some ns => u.graphStep q x ns))

/-! ### TABLE commands and firings (R390) -/

/-- TABLE_FIRING of slot `id`: of the slots whose time has come, the one with the earliest fires first (R376). -/
def execTableFiring (s : State) : Host.Outcome State Fault Refusal :=
  .next (
    match (s.findSlot s.arg.id).bind s.dueTime with
    | some t => if s.slots.all (fun y => (s.dueTime y.2).all (fun u => t ≤ u)) then s.fireDue s.arg.id else s
    | none => s)

/-- TABLE SUB 0: the entry's times already past do not fire (log 29), but before the first lock, when none has been handled yet
(R434); those of the entry it replaces have fired before it. -/
def execTableLoad (s : State) : Host.Outcome State Fault Refusal :=
  .next (s.startCommand 3 0 (fun t q x b =>
    let i := fld b 0x10 8
    let entry := if i < 256 then t.cpRead x.region (fld b 0x18 8) 32 else none
    let t := if i < 256 then t.cpNote x.region (fld b 0x18 8) 32 .load else t
    match entry with
    | none => t.refuseOpen q
    | some e =>
      if fld e 0x18 1 < 3 && zeros e 0x19 7 then
        (t.setSlot i { start := fld e 0 8, period := fld e 8 8, ld := fld e 0x10 8, rule := fld e 0x18 1
                       m := if t.hub.ptpLocked then firstFiring (fld e 0 8) (fld e 8 8) t.hub.ptp else 0
                       on := true, rcb := x.region
                       system := systemQueue q }).finishCommand q 0 0 0 0
      else t.refuseOpen q))

/-- TABLE SUB 1, after the firings whose time has come (R390). -/
def execTableDisable (s : State) : Host.Outcome State Fault Refusal :=
  .next (s.startCommand 3 1 (fun t q _ b =>
    let i := fld b 0x10 8
    if i < 256 then
      (match t.findSlot i with | some y => t.setSlot i { y with on := false } | none => t).finishCommand q 0 0 0 0
    else t.refuseOpen q))

/-! ### Completion of a launch (R383, R384, R389) -/

/-- Every block has been placed and has ended, and every command and fired send is over. -/
def State.launchOver (s : State) (l : Launch) : Bool :=
  l.ready && l.next = l.d.clusterCount && s.allBlocks.all (fun b => b.lid != l.lid || b.ended)
  && s.cmds.all (fun c => c.lid != l.lid)

/-- The posted result word; a word that cannot be read posts a value left open, the same in each run of the launch (R12, log 104). -/
def State.resultWord (s : State) (l : Launch) : Nat :=
  if l.d.result = 0 then 0
  else match s.cpRead l.recRcb l.d.result 8 with
    | some b => leNat b
    | none => Config.openValue [l.d.khdr, l.d.seed.toNat, l.d.result] [] % 2 ^ 64

/-- A TAPE launch pushes its backward record; whether the stack was full. -/
def State.pushTape (s : State) (l : Launch) : State × Bool :=
  if !l.d.tape then (s, false)
  else if 4096 ≤ (s.tape l.d.rcb).length then (s, true)
  else match s.cpRead l.recRcb l.d.backrec 16 with
    | some b => ((s.cpNote l.recRcb l.d.backrec 16 .load).setTape l.d.rcb ((fld b 0 8, fld b 8 8) :: s.tape l.d.rcb), false)
    | none => ((s.cpNote l.recRcb l.d.backrec 16 .load).log 0 2 0x14 l.source, false)

/-- What follows from a launch's completion for the one who asked for it. -/
def State.launchSucceeds (s : State) (l : Launch) (status disc result : Nat) : State :=
  match l.from_ with
  | .queue q => s.finishCommand q status 0 disc result
  | .graph q i =>
    (match s.findQueue q with
     | some x =>
       (match x.running with
        | some (.graph ns) =>
          s.graphStep q x (finishNode (setNode ns i (fun n =>
            { n with st := 2, posted := BitVec.ofNat 64 result, status := status })) i true)
        | _ => s)
     | none => s)
  | .tape q =>
    (match s.findQueue q with
     | some x => (match x.running with | some (.tape rest st) => s.tapeNext q x rest (max st status) | _ => s)
     | none => s)
  | .table i =>
    if (s.slotLaunches i).any Launch.ready then s
    else match s.slotLaunches i with
      | y :: _ => s.readyLaunch y.lid
      | [] => s
  | .handler rcb => s.modDomain rcb (fun d => { d with handler := none })

/-- The launch completes: result, tape, record, and what follows. Firings whose time had come before find it
incomplete (R376, R390). -/
def State.completeLaunch (s0 : State) (l : Launch) : State :=
  let s := s0.fireAll
  let r := s.resultWord l
  let p := (if l.d.result = 0 then s else s.cpNote l.recRcb l.d.result 8 .load).pushTape l
  let status := if p.2 then max l.status 3 else l.status
  let t := p.1.completionRecord l.recRcb l.d.crec l.source status 0 l.disc r
  ({ t with launches := t.launches.filter (fun x => x.lid != l.lid) } : State).launchSucceeds l status l.disc r

/-- The sends that a launch armed and that have not fired are discarded and counted (R338, R384). -/
def State.discard (s : State) (l : Launch) : Launch × State :=
  ({ l with disc := (s.hub.armed.filter (fun a => a.lid == l.lid)).length },
   { s with hub := { s.hub with armed := s.hub.armed.filter (fun a => a.lid != l.lid) } })

/-- LAUNCH_COMPLETE of launch `id`: its record is a release at system scope, so peers it may have written are flushed
first (R166, R381). -/
def execLaunchComplete (s : State) : Host.Outcome State Fault Refusal :=
  .next (match s.findLaunch s.arg.id with
    | none => s
    | some l =>
      if !s.launchOver l then s
      else match l.closing with
        | none =>
          let d := s.discard l
          if s.quiet then d.2.completeLaunch d.1
          else
            let f := d.2.startFlush s.hub.written none none
            f.2.modLaunch l.lid (fun _ => { d.1 with closing := some f.1 })
        | some f => if s.flushed f then s.completeLaunch l else s)

/-! ### COPY and SIGNAL (R379) -/

/-- COPY: the CP's own engine copies under the queue's region. Descriptors that are not 64-byte aligned fail as unreadable ones
do (R128, log 28); the seed of stochastic rounding, which no launch gives, is a value left open (log 92). -/
def execCopy (s : State) : Host.Outcome State Fault Refusal :=
  .next (s.startCommand 4 0 (fun t q x b =>
    let read (a : Nat) : Option (List Byte) := if a % 64 = 0 then t.cpRead x.region a 64 else none
    let note (t : State) (a : Nat) : State := if a % 64 = 0 then t.cpNote x.region a 64 .load else t
    let dst := read (fld b 0x10 8)
    let t := note t (fld b 0x10 8)
    let t := if dst.isSome then note t (fld b 0x18 8) else t
    match dst, read (fld b 0x18 8) with
    | some db, some sb =>
      let d := descOf db
      let src := descOf sb
      if copyOk [d] src false && d.space = 0 && src.space = 0 then
        let c : Cmd :=
          { Cmd.fresh with
            id := t.nextId, rcb := x.region, system := systemQueue q, op := 0x77
            seed := BitVec.ofNat 64 (Config.openValue [0x77, fld b 0x10 8, fld b 0x18 8] [])
            kind := .copy [d] src false, cpQueue := some q, key := [0x77, fld b 0x10 8, fld b 0x18 8] }
        ({ t with cmds := t.cmds ++ [c], nextId := t.nextId + 1 } : State).run q (.copy c.id)
      else t.refuseCommand q 2
    | _, _ => t.refuseCommand q 2))

/-- A queue may use an arrival counter: a user queue only those of its region's grant (R380). -/
def State.signalOk (s : State) (q : Nat) (x : Queue) (c : Nat) : Bool :=
  c < 1024 && (systemQueue q || grants (s.region x.region) c)

/-- SIGNAL SUB 0 and 1: once what was written to peers has been flushed. -/
def State.signalCounter (s : State) (sub : Nat) : State :=
  s.startCommand 5 sub (fun t q x b =>
    let c := fld b 0x10 8
    let v := fld b 0x18 8
    if !t.signalOk q x c then t.refuseOpen q
    else if t.quiet then (t.postSignal c v (sub = 1)).finishCommand q 0 0 0 0
    else
      let f := t.startFlush t.hub.written none none
      f.2.run q (.signalPost f.1 c v (sub = 1)))

/-- SIGNAL SUB 0. -/
def execSignalSet (s : State) : Host.Outcome State Fault Refusal := .next (s.signalCounter 0)

/-- SIGNAL SUB 1. -/
def execSignalAdd (s : State) : Host.Outcome State Fault Refusal := .next (s.signalCounter 1)

/-- SIGNAL SUB 2. -/
def execSignalWait (s : State) : Host.Outcome State Fault Refusal :=
  .next (s.startCommand 5 2 (fun t q x b =>
    if t.signalOk q x (fld b 0x10 8) then (t.run q (.signalWait (fld b 0x10 8) (fld b 0x18 8))).settleQueues
    else t.refuseOpen q))

/-- SIGNAL SUB 3. -/
def execSignalStore (s : State) : Host.Outcome State Fault Refusal :=
  .next (s.startCommand 5 3 (fun t q x b =>
    let a := fld b 0x10 8
    if 2 ^ 56 ≤ a || a % 8 ≠ 0 then t.refuseCommand q 2
    else
      let v := t.view x.region (systemQueue q)
      match t.translate v .store a with
      | .ok pa => ((t.writeAt (.dev pa) 8 (fld b 0x18 8)).noteVa v .store a).finishCommand q 0 0 0 0
      | .error _ => (t.noteVa v .store a).refuseCommand q 8))

/-! ### Regions (R369..R371, R380) -/

/-- An RCB as memory holds it. -/
def regionOf (rcb : Nat) (b : List Byte) : Region :=
  { rcb := rcb, parent := fld b 0 8, ptroot := fld b 8 8, ovr := fld b 0x10 2, prio := fld b 0x12 1
    priv := (fld b 0x13 1).testBit 0, cgmask := fld b 0x14 2, rid := fld b 0x16 2, lanes := fld b 0x18 4
    spadKb := fld b 0x1C 4, slotCap := fld b 0x20 1, accCap := fld b 0x21 1, hbmSh := fld b 0x22 2, linkSh := fld b 0x24 2
    pwrSh := fld b 0x26 2, acBase := fld b 0x28 2, acCount := fld b 0x2A 2, fqSize := fld b 0x2C 4, fdKernel := fld b 0x30 8
    fqBase := fld b 0x38 8 }

/-- The RCB gives its own values for a group: a top-level region for every one (R370). -/
def Region.own (r : Region) (g : Nat) : Bool := r.parent = 0 || r.ovr.testBit g

/-- The fields of an RCB are in range (R369, R397). Of a group it inherits only the reserved bits are looked at (log 73). -/
def rcbInRange (r : Region) (b : List Byte) : Bool :=
  r.rcb % 128 = 0 && r.ovr < 2 ^ 10 && fld b 0x13 1 < 2 && zeros b 0x40 64 && 1 ≤ r.rid
  && (if r.parent = 0 then r.ptroot % 2 ^ 13 = 0 && r.ptroot < 2 ^ 52 else r.ptroot = 0)
  && r.prio < 16 && r.cgmask < 2 ^ 12 && (!r.own 4 || (r.slotCap ≤ 96 && r.accCap ≤ 96))
  && (!r.own 5 || r.hbmSh ≤ 1024) && (!r.own 6 || r.linkSh ≤ 1024) && (!r.own 7 || r.pwrSh ≤ 1024)
  && (!r.own 8 || r.acBase + r.acCount ≤ 1024)
  && (!r.own 9 || (1 ≤ r.fqSize && r.fqSize ≤ 2 ^ 20 && r.fqSize = 2 ^ ilog2 r.fqSize && r.fqBase % 64 = 0
      && r.fqBase < 2 ^ 56))

/-- A child's effective values lie within its parent's (R370). -/
def childWithin (c p : Region) (pPriv : Bool) : Bool :=
  c.cgmask &&& p.cgmask = c.cgmask && c.lanes ≤ p.lanes && c.spadKb ≤ p.spadKb && c.slotCap ≤ p.slotCap
  && c.accCap ≤ p.accCap && c.hbmSh ≤ p.hbmSh && c.linkSh ≤ p.linkSh && c.pwrSh ≤ p.pwrSh
  && (c.acCount = 0 || (p.acBase ≤ c.acBase && c.acBase + c.acCount ≤ p.acBase + p.acCount))
  && (!c.priv || pPriv)

/-- Two top-level regions share neither a core group nor an arrival counter (R371). -/
def topsApart (a b : Region) : Bool :=
  a.cgmask &&& b.cgmask = 0
  && (a.acCount = 0 || b.acCount = 0 || a.acBase + a.acCount ≤ b.acBase || b.acBase + b.acCount ≤ a.acBase)

/-- A region of a tree is legal: its parent exists, its depth is at most 8, its RID its own, its values within bounds. -/
def regionLegal (rs : List Region) (r : Region) : Bool :=
  rs.all (fun x => x.rcb = r.rcb || x.rid ≠ r.rid)
  && match effRegion rs 8 r.rcb with
    | none => false
    | some e =>
      if r.parent = 0 then rs.all (fun x => x.rcb = r.rcb || x.parent ≠ 0 || topsApart r x)
      else match effRegion rs 8 r.parent, rs.find? (fun x => x.rcb == r.parent) with
        | some p, some o => childWithin e p o.priv
        | _, _ => false

/-- The tree is legal in one region and in all below it. -/
def treeLegal (rs : List Region) (rcb : Nat) : Bool :=
  rs.all (fun r => !((ancestors rs 9 r.rcb).any (fun x => x.rcb == rcb)) || regionLegal rs r)

/-- A fault domain that has just been created. -/
def Domain.fresh (r : Region) : Domain :=
  { rcb := r.rcb, defined := true, fqSize := r.fqSize, fqBase := r.fqBase, fdKernel := r.fdKernel, head := 0, tail := 0
    waiting := [], open_ := [], nextTicket := 0, handler := none, barred := false }

/-- A domain after its RCB was put: defined anew, its queue is empty; taken away, it keeps what its queue owes (R371, log 93).
Its handler is allowed again (R374). -/
def Domain.put (d : Domain) (r : Region) : Domain :=
  if r.own 9 then
    { d with defined := true, fqSize := r.fqSize, fqBase := r.fqBase, fdKernel := r.fdKernel, barred := false
             head := if d.defined then d.head else 0, tail := if d.defined then d.tail else 0 }
  else { d with defined := false, barred := false }

/-- Put a region in the tree, and its fault domain if it defines one. -/
def State.putRegion (s : State) (r : Region) : State :=
  { s with
    regions := r :: s.regions.filter (fun x => x.rcb != r.rcb)
    domains := if r.own 9 && (s.findDomain r.rcb).isNone then Domain.fresh r :: s.domains
               else s.domains.map (fun d => if d.rcb = r.rcb then d.put r else d) }

/-- REGION create or modify of the RCB in the CP's own memory (R371). -/
def State.regionPut (s : State) (sub : Nat) : State :=
  s.startCommand 6 sub (fun t q _ b =>
    let rcb := fld b 0x10 8
    let image := t.cpRead 0 rcb 128
    let t := t.cpNote 0 rcb 128 .load
    match image with
    | none => t.refuseCommand q 3
    | some m =>
      let r := regionOf rcb m
      let known := (t.findRegion rcb).isSome
      if rcb ≠ 0 && known = (sub == 1) && rcbInRange r m && treeLegal (t.putRegion r).regions rcb
      then (t.putRegion r).finishCommand q 0 0 0 0
      else t.refuseCommand q 3)

/-- REGION SUB 0. -/
def execRegionCreate (s : State) : Host.Outcome State Fault Refusal := .next (s.regionPut 0)

/-- REGION SUB 1. -/
def execRegionModify (s : State) : Host.Outcome State Fault Refusal := .next (s.regionPut 1)

/-- A region's subtree has a launch that has not completed, or a queue bound to it (R380). -/
def State.regionBusy (s : State) (rcb : Nat) : Bool :=
  s.launches.any (fun l => s.inSubtree l.d.rcb rcb) || s.queues.any (fun x => x.2.size != 0 && s.inSubtree x.2.region rcb)

/-- REGION SUB 2: the subtree goes, and with a partition its cached translations (R405). -/
def execRegionDestroy (s : State) : Host.Outcome State Fault Refusal :=
  .next (s.startCommand 6 2 (fun t q _ b =>
    let rcb := fld b 0x10 8
    match t.findRegion rcb with
    | none => t.refuseCommand q 3
    | some r =>
      if t.regionBusy rcb then t.refuseCommand q 3
      else
        let gone (x : Nat) : Bool := t.inSubtree x rcb
        ({ t with
            regions := t.regions.filter (fun x => !gone x.rcb)
            domains := t.domains.filter (fun d => !gone d.rcb)
            tapes := t.tapes.filter (fun x => !gone x.1)
            caches := if r.parent = 0 then { t.caches with tlb := t.caches.tlb.filter (fun e => e.rid != r.rid) } else t.caches }
          : State).finishCommand q 0 0 0 0))

/-- A queue control entry from the first 40 bytes of its image (R377, log 28). -/
def queueOf (b : List Byte) : Queue :=
  { base := fld b 0 8, size := fld b 8 4, head := BitVec.ofNat 32 (fld b 0xC 4), tail := BitVec.ofNat 32 (fld b 0x10 4)
    region := fld b 0x18 8, running := none, crec := 0 }

/-- The entry is legal: alignment, size, reserved bytes, indices, a region that exists. -/
def State.queueLegal (s : State) (x : Queue) (b : List Byte) : Bool :=
  x.base % 64 = 0 && x.base < 2 ^ 56 && zeros b 0x14 4 && zeros b 0x20 8 && (x.tail - x.head).toNat ≤ x.size
  && (x.size = 0 || (16 ≤ x.size && x.size ≤ 65536 && x.size = 2 ^ ilog2 x.size && (s.findRegion x.region).isSome))

/-- REGION SUB 3: binds a user queue. -/
def execRegionBind (s : State) : Host.Outcome State Fault Refusal :=
  .next (s.startCommand 6 3 (fun t q _ b =>
    let n := fld b 0x10 8
    let im := b.drop 0x18
    let x := queueOf im
    if 2 ≤ n && n < 32 && t.queueLegal x im && !(t.findQueue n).any (fun y => y.running.isSome)
    then (t.setQueue n x).finishCommand q 0 0 0 0
    else t.refuseOpen q))

end Sys2Proof.Machine
end

