-- ==== Sys2Proof/Machine/Governor.lean ====
section
/-!
DEFINITION. The leave governor's window boundary (R395, R396): budgets, grants to stalled operations, advance requests.
-/
namespace Sys2Proof.Machine

/-- A part of a die budget: a share of each part above it, along a path from a region up to its partition (R396). -/
def budgetShare (shares : List Nat) (die : Nat) : Nat := shares.foldr (fun share b => b * share / 1024) die

/-- A team's region's part of a die budget, under the shares its block was placed under (R371, R396). -/
def State.teamBudget (s : State) (die : Nat) (t : Team) : Nat :=
  budgetShare (match s.findBlock t.bid with | some b => b.pwr | none => s.pathShares t.rcb) die

/-- A die's power limit as parts of 1,024. -/
def Amc.power (a : Amc) (die : Nat) : Nat := if die = 0 then a.power0 else a.power1

/-- Token budget of a die in one window, scaled by its power limit. -/
def State.dieBudget (s : State) (die : Nat) (copy : Bool) : Nat :=
  (if copy then s.amc.cfg.copyMax else s.amc.cfg.stepMax) * s.amc.power die / 1024

/-- Key of a region's debt. -/
def debtKey (rcb die : Nat) (copy : Bool) : Nat := 4 * rcb + 2 * die + (if copy then 1 else 0)

/-- Tokens of one kind that a team's stalled operation needs. -/
def Team.stalledFor (t : Team) (copy : Bool) : Nat :=
  match t.phase with
  | .stalled (.leave c n) => if c = copy then n else 0
  | _ => 0

/-- The advance request of a kind. -/
def Team.request (t : Team) (copy : Bool) : Nat := if copy then t.reqCopy else t.reqSteps

/-- The teams of a die in ascending CORE. -/
def State.dieTeams (s : State) (die : Nat) : List Team :=
  (List.range 96).flatMap (fun c => s.teams.filter (fun t => t.core == 96 * die + c && t.phase != .ended))

/-- A region's part of a die budget: the one that its teams on the die were placed under, the largest if a modify came between them,
and as the region stands now if it has none there (R371, log 106). -/
def State.regionBudget (s : State) (die rcb : Nat) (budget : Nat) : Nat :=
  match (s.dieTeams die).filter (fun t => t.rcb == rcb) with
  | [] => budgetShare (s.pathShares rcb) budget
  | ts => (ts.map (s.teamBudget budget)).foldl max 0

/-- Step 1 for one region of a die: what its stalled operations take, what is then used of its budget, and its debt after. -/
def State.stallGrants (s : State) (die rcb : Nat) (copy : Bool) : Nat × Nat × Nat :=
  let budget := s.regionBudget die rcb (s.dieBudget die copy)
  let debt := smGet 0 s.leaveDebt (debtKey rcb die copy)
  let taken := (((s.dieTeams die).filter (fun t => t.rcb == rcb)).map (fun t => t.stalledFor copy)).sum
  (taken, debt + taken, debt + taken - budget)

/-- Step 2 over the teams of a die: the request grants by uid, with what each team's region may use, what regions (by RCB) have used,
and what the die has left. -/
def advanceGrants (copy : Bool) (budget : Team → Nat) : List Team → SMap Nat → Nat → List (Nat × Nat)
  | [], _, _ => []
  | t :: ts, used, die =>
    let g := min (t.request copy) (min (budget t - smGet 0 used t.rcb) die)
    (t.uid, g) :: advanceGrants copy budget ts (smSet 0 used t.rcb (smGet 0 used t.rcb + g)) (die - g)

/-- The grants of one kind on one die, and the regions' debts. -/
def State.windowGrants (s : State) (copy : Bool) (die : Nat) : List (Nat × Nat) × SMap Nat :=
  let rcbs := s.regions.map Region.rcb
  let one := rcbs.map (fun r => (r, s.stallGrants die r copy))
  let taken := (one.map (fun x => x.2.1)).sum
  let used := one.foldl (fun m x => smSet 0 m x.1 x.2.2.1) ([] : SMap Nat)
  (advanceGrants copy (s.teamBudget (s.dieBudget die copy)) (s.dieTeams die) used (s.dieBudget die copy - taken),
   one.foldl (fun m x => smSet 0 m (debtKey x.1 die copy) x.2.2.2) s.leaveDebt)

/-- A team's tokens and requests after the boundary: what was left lapses, its stalled operation is granted in full and will issue,
and its request shrinks by what it gets. -/
def Team.newWindow (gs gc : List (Nat × Nat)) (t : Team) : Team :=
  let got (g : List (Nat × Nat)) : Nat := ((g.find? (fun x => x.1 == t.uid)).map Prod.snd).getD 0
  { t with
    tokSteps := t.stalledFor false + got gs, tokCopy := t.stalledFor true + got gc
    reqSteps := t.reqSteps - got gs, reqCopy := t.reqCopy - got gc
    granted := match t.phase with
      | .stalled (.leave _ _) => some t.pc
      | _ => if t.granted = some t.pc then t.granted else none
    phase := match t.phase with | .stalled (.leave _ _) => .ready | p => p }

/-- Step tokens granted to the teams of a die count at the die (R445). -/
def State.countGrants (s : State) (gs : List (Nat × Nat)) : State :=
  s.teams.foldl (fun u t =>
    let n := t.stalledFor false + ((gs.find? (fun x => x.1 == t.uid)).map Prod.snd).getD 0
    u.countEvent (192 + t.core / 96) 12 (s.placedRid t) n) s

/-- The clk in which the leave window under way ends: windows are 1,750 clk long (R395). -/
def State.windowEnd (s : State) : Nat := (s.leaveWin + 1) * 1750

/-- The leave window under way has ended, and its boundary has not been handled. -/
def State.windowDue (s : State) : Bool := s.windowEnd ≤ s.clk

/-- The boundary of a leave window: the grants of each die and kind, and a new window (R395, R396). -/
def State.closeWindow (s : State) : State :=
  let s0 := s.windowGrants false 0
  let s1 := ({ s with leaveDebt := s0.2 } : State).windowGrants false 1
  let c0 := ({ s with leaveDebt := s1.2 } : State).windowGrants true 0
  let c1 := ({ s with leaveDebt := c0.2 } : State).windowGrants true 1
  ({ s.countGrants (s0.1 ++ s1.1) with
      leaveWin := s.leaveWin + 1, freeSteps := [], leaveDebt := c1.2 } : State).mapTeams
    (Team.newWindow (s0.1 ++ s1.1) (c0.1 ++ c1.1))

/-- LEAVE_WINDOW: the boundary of the window under way, once its 1,750 clk have passed. The clock handles it in the clk in which it
falls (`State.tick`), so that no word issues between. -/
def execLeaveWindow (s : State) : Host.Outcome State Fault Refusal := .next (if s.windowDue then s.closeWindow else s)

end Sys2Proof.Machine
end

