-- ==== Sys2Proof/Machine/Links.lean ====
section
/-!
DEFINITION. What arrives over the links (R421..R427) and the host port (R429), and machine checks (R407, R410).
-/
namespace Sys2Proof.Machine

/-! ### Machine checks -/

/-- A machine check reaches a team (R407, R410, R427): at once, or once it is back if it is suspended or swapped (R87, R408; log
77). -/
def State.machineCheck (s : State) (uid : Nat) (addr : Nat) : State :=
  match s.findTeam uid with
  | none => s
  | some t =>
    match t.phase with
    | .ended => s
    | .suspended | .swapped => s.modTeam uid (fun t => { t with check := some (t.check.getD addr) })
    | _ => s.checkTeam uid addr

/-! ### Messages out -/

/-- Send a message. -/
def State.emit (s : State) (m : LinkMsg) : State := { s with hub := { s.hub with out := s.hub.out ++ [m] } }

/-! ### Requests of peers (R424, R425) -/

/-- Make the increments whose payload has settled, performed or refused (R337). One that is made is a stamped write that the device
applies: later stamps are larger (R169). -/
def State.settleIncs (s : State) : State :=
  let due (i : PendingInc) : Bool := i.units.all (fun u => s.hub.settled.contains (i.src, u))
  let t : State := { s with hub := { s.hub with incs := s.hub.incs.filter (fun i => !due i) } }
  ((s.hub.incs.filter due).foldl (fun t i =>
    let r := t.makeIncrement i.counter
    { r with hub := { r.hub with stampLast := max r.hub.stampLast (i.stamp / 2 ^ 16) } }) t).settle

/-- REMOTE_WRITE_UNIT: the unit in `unit`. -/
def execRemoteWriteUnit (s : State) : Host.Outcome State Fault Refusal :=
  .next (match s.arg.unit with
    | none => s
    | some u =>
      let r := s.receiveUnit u
      (if r.2 then r.1 else r.1.emit (.refusal u.src u.va)).settleIncs)

/-- REMOTE_READ: device `id` reads the unit at `addr` for region id `rid`. A poisoned unit is refused (log 31). -/
def execRemoteRead (s : State) : Host.Outcome State Fault Refusal :=
  .next (
    let a := s.arg
    let no := (s.refuse a.id a.addr).emit (.refusal a.id a.addr)
    match s.ridView a.rid with
    | none => no
    | some v =>
      match s.translate v .engineRead a.addr with
      | .error _ => no
      | .ok pa =>
        if s.poisonAt (.dev pa) then no
        else (s.noteVa v .engineRead a.addr).emit (.readReply a.id a.addr (s.sectorAt (.dev (pa / 64 * 64))) (s.sideAt (.dev pa))))

/-- REMOTE_INCREMENT: device `id` increments counter `value` for region id `rid`, with the increment's stamp `addr`, after the
units whose stamps `pairs` lists (R166, R337). It is checked when it arrives (R425), and made once the units have settled. One that
came before is discarded (R424). -/
def execRemoteIncrement (s : State) : Host.Outcome State Fault Refusal :=
  .next (
    let a := s.arg
    if s.hub.incSeen.contains (a.id, a.addr) then s
    else
      let t : State := { s with hub := { s.hub with incSeen := (a.id, a.addr) :: s.hub.incSeen } }
      if s.incAllowed a.rid a.value then
        let i : PendingInc := { src := a.id, counter := a.value, stamp := a.addr, units := a.pairs.map Prod.fst }
        ({ t with hub := { t.hub with incs := t.hub.incs ++ [i] } } : State).settleIncs
      else (t.refuse a.id a.value).emit (.refusal a.id a.value))

/-! ### Answers of peers -/

/-- The destination sectors of a command in the order of R332: what each writes, and what it depends on, as spans of addresses. -/
def State.unitSpans (s : State) (c : Cmd) : List (List (Nat × Nat)) :=
  match c.kind with
  | .send x =>
    (match x.src with
     | none => [[(x.peer, 128)]]
     | some d => d.rows.flatMap (fun i => d.parts.flatMap (fun p => (sectorRuns (d.rowAddr i + p.1) p.2).map (fun q =>
         [(q.1 - d.base.toNat + x.peer, q.2), q]))))
  | k => (k.walks c).1.flatMap (fun w => w.2.flatMap (fun j =>
      match (j.2 (s.asCmd c)).run c.mem with
      | (.ok (some y), _) => y.parts.flatMap (fun p => (sectorRuns (y.addr + p.off) p.bytes.length).map (fun q =>
          q :: y.deps (q.1 - y.addr) q.2))
      | _ => []))

/-- Place of a refused address in that order: the first sector that is written there or depends on it (R425). -/
def State.rank (s : State) (c : Cmd) (a : Nat) : Nat :=
  (s.unitSpans c).findIdx (fun qs => qs.any (fun q => q.1 / 64 * 64 ≤ a && a < q.1 + q.2))

/-- PEER_REFUSAL: a request of command `id` at peer address `addr` was refused; the first such address in the order of R332 is
kept, and what depends on a refused read is not written (R425). -/
def execPeerRefusal (s : State) : Host.Outcome State Fault Refusal :=
  .next { s with cmds := s.cmds.map (fun c =>
    if c.id = s.arg.id && c.status ≠ .queued then
      { c with poisoned := true, cause := 0x43, refused := c.refused ++ [s.arg.addr]
               addr := if c.cause = 0x43 && s.rank c c.addr.toNat ≤ s.rank c s.arg.addr then c.addr
                       else BitVec.ofNat 64 s.arg.addr }
    else c) }

/-! ### Flushes (R426) -/

/-- FLUSH_MARKER: source `id`, stamp `value`, the marker made for path `rid`, whichever path it came by; `pairs` lists the paths that
the source had up when the flush began. The last of their markers is acknowledged: a unit performs when it arrives, and a marker
replayed on another path is still the one it was (R426). -/
def execFlushMarker (s : State) : Host.Outcome State Fault Refusal :=
  .next (
    let a := s.arg
    let seen := (a.id, a.value, a.rid) :: s.hub.markers.filter (fun m => m != (a.id, a.value, a.rid))
    if a.pairs.all (fun p => seen.contains (a.id, a.value, p.1)) then
      ({ s with hub := { s.hub with markers := seen.filter (fun m => !(m.1 == a.id && m.2.1 == a.value)) } } : State).emit
        (.ack a.id a.value)
    else { s with hub := { s.hub with markers := seen } })

/-- A unit, increment or marker of a stamp up to this one, on its way to a peer. -/
def LinkMsg.sentTo (dev stamp : Nat) : LinkMsg → Bool
  | .unit d u => d == dev && !stampAfter u.stamp stamp
  | .increment d _ _ _ st _ => d == dev && !stampAfter st stamp
  | .marker d _ _ st => d == dev && !stampAfter st stamp
  | _ => false

/-- FLUSH_ACK: peer `id` acknowledges the flush of stamp `value`; what was sent to it before is settled. -/
def execFlushAck (s : State) : Host.Outcome State Fault Refusal :=
  .next (
    let a := s.arg
    let mine (f : Flush) : Bool := f.stamp == a.value && !f.lost && f.left.contains a.id
    if s.hub.flushes.any mine then
      ({ s with hub := { s.hub with
          flushes := (s.hub.flushes.map (fun f => if mine f then { f with left := f.left.filter (fun d => d != a.id) } else f)).filter
            (fun f => f.lost || !f.left.isEmpty)
          out := s.hub.out.filter (fun m => !(m.sentTo a.id a.value)) } } : State).settle
    else s)

/-! ### Paths and ports (R421, R422, R426, R427) -/

/-- The path that a message for a peer takes; 16: it waits for one. -/
def LinkMsg.path : LinkMsg → Option Nat
  | .unit _ u => some u.path
  | .increment _ p _ _ _ _ => some p
  | .marker _ _ p _ => some p
  | _ => none

/-- The device that a message goes to. -/
def LinkMsg.to_ : LinkMsg → Nat
  | .unit d _ | .increment d _ _ _ _ _ | .marker d _ _ _ | .ack d _ | .refusal d _ | .readReply d _ _ _ => d

/-- A message on another path; a marker keeps the number that it was made with. -/
def LinkMsg.onPath (m : LinkMsg) (q : Nat) : LinkMsg :=
  match m with
  | .unit d u => .unit d { u with path := q }
  | .increment d _ r c st us => .increment d q r c st us
  | .marker d p _ st => .marker d p q st
  | m => m

/-- What is not acknowledged on a path is sent again on one of some others, freely chosen and the same for all of it, so that units keep
their place before the marker that follows them (R424, R426). -/
def State.replay (s : State) (p : Nat) (paths : List Nat) : State :=
  let q := paths.getD (Config.free s.free % paths.length) 16
  { s with free := s.free + 1
           hub := { s.hub with out := s.hub.out.map (fun m => if m.path = some p then m.onPath q else m) } }

/-- PATH_DOWN: port `id` goes down; what was under way on it is replayed on another path, and the AMC logs it. -/
def execPathDown (s : State) : Host.Outcome State Fault Refusal :=
  .next (
    let p := s.arg.id
    let t : State := { s with hub := { s.hub with ports := s.hub.ports &&& ~~~(1#16 <<< p) } }
    (t.replay p t.hub.upPorts).log 27 1 0x60 p)

/-- PORT_TRAINING: port `id` trains (`flag`) and meets the id `value`. It stays down outside SKUPORT, on a failure, and on
an id equal to this device's (R421, R422, R437), and unless the module is Ready (R435). What waited for a path takes it, and every
peer has one again (R427, log 32). -/
def execPortTraining (s : State) : Host.Outcome State Fault Refusal :=
  .next (
    let a := s.arg
    if a.id < 16 && s.amc.status = .ready && s.amc.cfg.skuPort.testBit a.id then
      if a.flag && a.value ≠ s.amc.cfg.device then
        ({ s with hub := { s.hub with ports := s.hub.ports ||| (1#16 <<< a.id), pathless := [] } } : State).replay 16 [a.id]
      else
        ({ s with hub := { s.hub with ports := s.hub.ports &&& ~~~(1#16 <<< a.id) } } : State).log 27 1 0x61 a.id
    else s)

/-- The flushes that wait on a peer. -/
def State.flushesOf (s : State) (dev : Nat) : List Flush := s.hub.flushes.filter (fun f => !f.lost && f.left.contains dev)

/-- A release with a stamp waits on a peer. -/
def State.waitsOn (s : State) (dev stamp : Nat) : Bool := (s.flushesOf dev).any (fun f => !stampAfter f.stamp stamp)

/-- An XFLUSH waits on a peer. -/
def State.flushWaits (s : State) (dev : Nat) (c : Cmd) : Bool :=
  match c.kind, c.flushing with
  | .flush all bm, some st => c.status == .running && (all || bm.getLsbD dev) && s.waitsOn dev st
  | _, _ => false

/-- Stamps of the releases of the CP and of completing commands that wait on a peer: they never perform (log 91). -/
def State.lostStamps (s : State) (dev : Nat) : List Nat :=
  (s.records.map PendingRecord.flush ++ s.launches.filterMap Launch.closing
    ++ s.queues.filterMap (fun x => match x.2.running with
        | some (.signalPost f _ _ _) => some f | some (.closing f _ _ _ _) => some f | _ => none)
    ++ s.cmds.filterMap (fun c => match c.status with | .releasing st => some st | _ => none)
    ++ (s.cmds.filter (s.flushWaits dev)).filterMap Cmd.flushing).filter (s.waitsOn dev)

/-- PEER_PATH_LOSS: peer `id` has had no path for 10 ms (R427): machine checks to the teams whose XFLUSH or release waits on it, the
release with which a command of theirs completes among them (R161); the flushes that wait on it never complete, what
was sent is gone, and commands that still have units for it suspend, with the cause out of range, as for a device that cannot
be reached (R422; log 32). An XFLUSH suspends likewise (log 91). Until a path returns, what is to be sent to it waits. -/
def execPeerPathLoss (s : State) : Host.Outcome State Fault Refusal :=
  .next (
    let dev := s.arg.id
    let held := (s.teams.filter (fun t => match s.phaseOf t with | .stalled (.flush st) => s.waitsOn dev st | _ => false)).map Team.uid
    let ends := s.cmds.filter (fun c => c.cpQueue.isNone && match c.status with | .releasing st => s.waitsOn dev st | _ => false)
    let uids := (held ++ (s.cmds.filter (s.flushWaits dev) ++ ends).map Cmd.uid).foldl setAdd []
    let lost := (s.flushesOf dev).map (fun f => { f with lost := true })
      ++ (s.lostStamps dev).map (fun st => { stamp := st, left := [dev], cmd := none, uid := none, lost := true })
    let u := uids.foldl (fun t u => t.machineCheck u dev) s
    let t : State := { u with
      hub := { u.hub with
        flushes := s.hub.flushes.filter (fun f => f.lost || !f.left.contains dev) ++ lost
        out := s.hub.out.filter (fun m => !(m.path.isSome && m.to_ == dev))
        pathless := setAdd u.hub.pathless dev } }
    let stop := s.cmds.filter (fun c => c.status = .running && (s.sendsTo c dev || s.flushWaits dev c))
    (stop.foldl (fun t c => t.suspendCmd c (engErr 0x41 (match c.kind with
      | .send x => x.peer
      | k => (k.dsts.head?.map (fun d => d.base.toNat)).getD 0))) t).log 27 2 0x62 dev)

/-! ### The host port (R429) -/

/-- The view of an endpoint bound to the partition of a RID: user level. -/
def State.endpointView (s : State) (rid : Nat) : Option View :=
  (s.regions.find? (fun r => r.rid == rid && r.parent == 0)).map (fun r => s.view r.rcb false)

/-- The transport's completion to the host: the bytes read, none of them for a write, or an error. -/
def State.reply (s : State) (r : Option (List Byte)) : State := { s with amc := { s.amc with rdmaReply := r :: s.amc.rdmaReply } }

/-- HOST_RDMA_WRITE: `bytes` at `addr` of the partition of RID `rid`; nothing comes of it in the management VLAN (R431), nor outside
Ready, where the host port carries no traffic (R435). -/
def execHostRdmaWrite (s : State) : Host.Outcome State Fault Refusal :=
  .next (s.offVlan (
    let a := s.arg
    if s.amc.status ≠ .ready then s
    else if a.bytes.isEmpty then s.reply none
    else match s.endpointView a.rid with
      | none => s.reply none
      | some v =>
        match s.span v .store a.addr a.bytes.length with
        | .error _ => s.reply none
        | .ok ps => ((s.writeSpan ps a.addr a.bytes).noteRange v .store .store a.addr a.bytes.length).reply (some [])))

/-- HOST_RDMA_READ: `len` bytes at `addr`. A poisoned sector is refused (log 31), and a refused access changes no device state. -/
def execHostRdmaRead (s : State) : Host.Outcome State Fault Refusal :=
  .next (s.offVlan (
    let a := s.arg
    if s.amc.status ≠ .ready then s
    else if a.len = 0 then s.reply none
    else match s.endpointView a.rid with
      | none => s.reply none
      | some v =>
        match s.readVa v .load a.addr a.len with
        | .error _ => s.reply none
        | .ok bs => (s.noteRange v .load .load a.addr a.len).reply (some bs)))

end Sys2Proof.Machine
end

