-- ==== Sys2Proof/Machine/Sha.lean ====
section
/-!
DEFINITION. SHA-384, which the spec names for images, the configuration record and attestation (R436, R437, R441) and FIPS 180-4
defines (PRESUMED, log 81). Its constants are computed as that standard says: from roots of the first primes.
-/
namespace Sys2Proof.Machine

/-- The largest `r` below 2^`bits` whose `n`-th power is at most `x`. -/
def nthRoot (n x bits : Nat) : Nat :=
  (List.range bits).foldr (fun k r => if (r + 2 ^ k) ^ n ≤ x then r + 2 ^ k else r) 0

/-- The primes below 410: the first eighty. -/
def smallPrimes : List Nat :=
  (List.range 410).filter (fun p => 2 ≤ p && (List.range 19).all (fun d => d + 2 = p || p % (d + 2) ≠ 0))

/-- The first 64 bits of the fractional part of the `n`-th root of `p`. -/
def rootBits (n p : Nat) : Word64 := BitVec.ofNat 64 (nthRoot n (p * 2 ^ (64 * n)) 72)

/-- The eighty round constants: from cube roots. -/
def shaRounds : List Word64 := smallPrimes.map (rootBits 3)

/-- The eight chaining words at the start of SHA-384: from square roots of the ninth to sixteenth prime. -/
def shaStart : List Word64 := ((smallPrimes.drop 8).take 8).map (rootBits 2)

/-- Three rotations of a word, xored. -/
def rot3 (x : Word64) (a b c : Nat) : Word64 := x.rotateRight a ^^^ x.rotateRight b ^^^ x.rotateRight c

/-- Two rotations and a shift of a word, xored. -/
def mix (x : Word64) (a b c : Nat) : Word64 := x.rotateRight a ^^^ x.rotateRight b ^^^ (x >>> c)

/-- The message schedule from its first sixteen words, newest first. -/
def shaSchedule : Nat → List Word64 → List Word64
  | 0, w => w
  | n + 1, w =>
    shaSchedule n ((mix (w.getD 1 0) 19 61 6 + w.getD 6 0 + mix (w.getD 14 0) 1 8 7 + w.getD 15 0) :: w)

/-- One round on the eight working words, with its schedule word and constant added. -/
def shaRound (v : List Word64) (wk : Word64) : List Word64 :=
  match v with
  | [a, b, c, d, e, f, g, h] =>
    let t := h + rot3 e 14 18 41 + ((e &&& f) ^^^ (~~~e &&& g)) + wk
    [t + rot3 a 28 34 39 + ((a &&& b) ^^^ (a &&& c) ^^^ (b &&& c)), a, b, c, d + t, e, f, g]
  | v => v

/-- Sixteen big-endian words of a 128-byte block. -/
def shaWords (bs : List Byte) : List Word64 :=
  (List.range 16).map (fun i => ((bs.drop (8 * i)).take 8).foldl (fun x b => x <<< 8 ||| b.setWidth 64) 0)

/-- The chaining words after a block. -/
def shaBlock (h : List Word64) (bs : List Byte) : List Word64 :=
  let w := (shaSchedule 64 (shaWords bs).reverse).reverse
  List.zipWith (· + ·) h ((List.zipWith (· + ·) w shaRounds).foldl shaRound h)

/-- The message with its padding and its length in bits. -/
def shaPad (m : List Byte) : List Byte :=
  m ++ 0x80#8 :: List.replicate ((239 - m.length % 128) % 128) 0
    ++ ((List.range 16).map (fun i => BitVec.ofNat 8 (8 * m.length / 2 ^ (8 * i)))).reverse

/-- SHA-384 of a byte string: 48 bytes. -/
def sha384 (m : List Byte) : List Byte :=
  let p := shaPad m
  let h := (List.range (p.length / 128)).foldl (fun h i => shaBlock h ((p.drop (128 * i)).take 128)) shaStart
  (h.take 6).flatMap (fun (x : Word64) => ((List.range 8).map (fun i => (x >>> (8 * i)).setWidth 8)).reverse)

end Sys2Proof.Machine
end

