-- ==== Sys2Proof/Machine/Manage.lean ====
section
/-!
DEFINITION. The management controller (R432..R446): bring-up, firmware, attestation, sensors, the event log, event counters,
the clock; and errors in storage (R410).
-/
namespace Sys2Proof.Machine

/-! ### Signed images and the configuration record (R436..R438) -/

/-- Bytes of a signed header. -/
def headerBytes : Nat := 0x4200

/-- LENGTH bytes of a signed image after its header: the body. -/
def signedBody (b : List Byte) : List Byte := (b.drop headerBytes).take (fld b 8 4)

/-- A signed image holds together (R436): MAGIC, the reserved bytes, the digest of the whole body, and both signatures over the
first 64 bytes, under the ROM keys for firmware (`fw`) or for configuration. -/
def signedOk (fw : Bool) (magic : Nat) (b : List Byte) : Bool :=
  headerBytes + fld b 8 4 ≤ b.length && fld b 0 4 == magic && zeros b 0x0C 4 && zeros b 0x4120 0xE0
  && (b.drop 0x10).take 48 == sha384 (signedBody b)
  && Config.rsaVerifies fw (b.take 64) ((b.drop 0x40).take 384)
  && Config.slhVerifies fw (b.take 64) ((b.drop 0x1C0).take 16224)

/-- VERSION of a firmware image. -/
def imageVersion (b : List Byte) : Nat := fld b 4 4

/-- A firmware image is valid under a rollback floor (R436). -/
def imageValid (b : List Byte) (floor : Nat) : Bool :=
  signedOk true 0x46575A48 b && 1 ≤ imageVersion b && floor ≤ imageVersion b

/-- The fields of a configuration record's body (R437, R438): the repair maps fill it up to the home table at HOMEOFF, whose
length no field gives (log 81). -/
def configOf (b : List Byte) : ConfigRec :=
  { idHash := b.take 48, device := fld b 0x30 2, mvlan := fld b 0x32 2, cgen := fld b 0x34 2, pwrLim := fld b 0x36 2
    ctxBase := fld b 0x38 8, ctxSize := fld b 0x40 8, stepMax := fld b 0x48 4, copyMax := fld b 0x4C 4, tWarn := fld b 0xD1 1
    tThr := fld b 0xD2 1, tCrit := fld b 0xD3 1, skuCg := fld b 0xD4 1, skuPort := fld b 0xD6 2, skuClk := fld b 0xD8 2
    ptpDom := fld b 0xD0 1, sq0 := queueOf (b.drop 0x50), sq1 := queueOf (b.drop 0x90)
    repair := (b.take (fld b 0xDC 4)).drop 0x100
    home := ((b.drop (fld b 0xDC 4)).take 1024).map BitVec.toNat }

/-- The image of a system queue is one that R377 allows. -/
def queueImageOk (b : List Byte) : Bool :=
  let x := queueOf b
  x.base % 64 = 0 && x.base < 2 ^ 56 && zeros b 0x14 4 && zeros b 0x20 32
  && (x.size = 0 || (16 ≤ x.size && x.size ≤ 65536 && x.size = 2 ^ ilog2 x.size))

/-- The fields of a record's body are in range (R437). -/
def configInRange (b : List Byte) : Bool :=
  let c := configOf b
  c.device < 1024 && 1 ≤ c.mvlan && c.mvlan ≤ 4094 && c.cgen < 2 ^ 12 && c.pwrLim ≤ 2300 && c.ctxBase % 65536 = 0
  && 1 ≤ c.skuCg && c.skuCg ≤ 12 && zeros b 0xD5 1 && zeros b 0xDA 2 && zeros b 0xE0 32
  && queueImageOk ((b.drop 0x50).take 64) && queueImageOk ((b.drop 0x90).take 64)
  && fld b 0xDC 4 % 64 = 0 && 0x100 ≤ fld b 0xDC 4 && fld b 0xDC 4 + 1024 ≤ b.length

/-- IDHASH of the module: SHA-384 of the two identity public keys (R437, R441). -/
def Flash.idHash (f : Flash) : List Byte := sha384 (f.rsaKey ++ f.slhKey)

/-- The record in flash verifies, on this module (step 4 of R435, R437). -/
def Flash.recordOk (f : Flash) : Bool :=
  let b := signedBody f.record
  signedOk false 0x43465A48 f.record && configInRange b && (configOf b).idHash == f.idHash

/-- The record can be applied (step 5 of R435): the limits of R437, and the home table names every slice that the repair maps
enable and no other (R438). -/
def ConfigRec.applies (c : ConfigRec) : Bool :=
  popCount c.cgen 12 ≤ c.skuCg && c.skuClk ≤ 1750
  && c.home.all (fun x => x < 160 && !Config.sliceOff c.repair x)
  && (List.range 160).all (fun x => Config.sliceOff c.repair x || c.home.contains x)

/-! ### Bring-up (R435, R440) -/

/-- The bank A for `true`, else B. -/
def Amc.bank (a : Amc) (b : Bool) : Bank := if b then a.bankA else a.bankB

/-- Set a bank. -/
def Amc.setBank (a : Amc) (b : Bool) (x : Bank) : Amc := if b then { a with bankA := x } else { a with bankB := x }

/-- The bank in a state, `true` for A. -/
def Amc.bankIn (a : Amc) (x : BankState) : Option Bool :=
  if a.bankA.st = x then some true else if a.bankB.st = x then some false else none

/-- A bank that is erased. -/
def Bank.erased : Bank := ⟨.empty, 0, []⟩

/-- Step 2 of R435 verifies a bank's image. -/
def Amc.bankValid (a : Amc) (b : Bool) : Bool := (a.bank b).st ≠ .empty && imageValid (a.bank b).image a.floor

/-- A boot of the pending bank fails: its try count rises, and after the third failure it is empty (R440). -/
def Amc.failPending (a : Amc) (b : Bool) : Amc :=
  let x := a.bank b
  a.setBank b (if 3 ≤ x.tries + 1 then .erased else { x with tries := x.tries + 1 })

/-- Bank `b` becomes active and the other one, if it was active, standby. -/
def Amc.activate (a : Amc) (b : Bool) : Amc :=
  let o := a.bank (!b)
  (a.setBank b { a.bank b with st := .active, tries := 0 }).setBank (!b) (if o.st = .active then { o with st := .standby } else o)

/-- Steps 4 and 5 pass. -/
def Amc.configured (a : Amc) : Bool := a.flash.recordOk && (configOf (signedBody a.flash.record)).applies

/-- Steps 3 to 6 pass: the PUF, the record, and all twelve stacks. -/
def bringUpOk (a : Amc) (x : BringUp) : Bool := x.pufOk && a.configured && x.hbm == BitVec.allOnes 12

/-- Boot a bank that is not pending: the active one, else the standby one; `none`: recovery. -/
def Amc.bootOld (a : Amc) (ok : Bool) : Amc × Bool :=
  match a.bankIn .active with
  | some b =>
    if a.bankValid b then (a, ok)
    else (match a.bankIn .standby with
      | some c => if a.bankValid c then (if ok then a.activate c else a, ok) else (a, false)
      | none => (a, false))
  | none => (a, false)

/-- The banks after a reset, and whether step 7 is reached; `again` tells whether the PUF and the stacks pass at the boot of the old
bank that follows a third failure (log 76). -/
def Amc.boot (a : Amc) (x : BringUp) (again : Bool) : Amc × Bool :=
  match a.bankIn .pending with
  | some b =>
    if !a.bankValid b then (a.failPending b).bootOld (bringUpOk a x)
    else if bringUpOk a x then (a.activate b, true)
    else
      let f := a.failPending b
      if (f.bank b).st = .empty then f.bootOld (again && a.configured) else (f, false)
  | none => a.bootOld (bringUpOk a x)

/-- The system queues that the record configures (R377, R435 step 5). -/
def systemQueues (c : ConfigRec) : List (Nat × Queue) :=
  [(0, c.sq0), (1, c.sq1)].filter (fun q => q.2.size != 0)

/-- The module after a reset: what lives in flash stays, everything else is as after reset; in recovery nothing runs. The record
in flash is applied; one that does not verify leaves the AMC the VLAN that it had (log 4). The event log comes back from its mirror
(R443). A port that fails training is logged (R421). -/
def State.bringUp (s : State) : State :=
  let r := s.amc.boot s.arg.boot s.arg.flag
  let cfg := if s.amc.flash.recordOk then configOf (signedBody s.amc.flash.record) else s.amc.cfg
  let up : State :=
    { State.reset with
      agenda := s.agenda, free := s.free, nextId := s.nextId
      queues := if r.2 then systemQueues cfg else []
      hub := { Hub.reset with ports := if r.2 then s.arg.boot.ports &&& BitVec.ofNat 16 cfg.skuPort else 0 }
      amc := { Amc.reset with
        status := if r.2 then .ready else .recovery, bankA := r.1.bankA, bankB := r.1.bankB, floor := s.amc.floor
        flash := s.amc.flash, log := s.amc.flash.mirror, cfg := cfg } }
  (if r.2 then (List.range 16).filter (fun p => cfg.skuPort.testBit p && !s.arg.boot.ports.getLsbD p) else []).foldl
    (fun t p => t.log 27 1 0x61 p) up

/-- POWER_ON_RESET: `boot` says how the parts fare. -/
def execPowerOnReset (s : State) : Host.Outcome State Fault Refusal := .next s.bringUp

/-- RESET_REQUEST over the management VLAN. -/
def execResetRequest (s : State) : Host.Outcome State Fault Refusal := .next (s.onVlan s.bringUp)

/-! ### Floor and firmware (R436, R439, R440) -/

/-- VERSION of the bank in a state; 0 for none. -/
def Amc.versionOf (a : Amc) (x : BankState) : Nat := match a.bankIn x with | some b => imageVersion (a.bank b).image | none => 0

/-- FLOOR_COMMAND to `value`. -/
def execFloorCommand (s : State) : Host.Outcome State Fault Refusal :=
  .next (s.onVlan (
    let v := s.arg.value
    if s.amc.status = .ready && s.amc.floor ≤ v && v ≤ s.amc.versionOf .active then { s with amc := { s.amc with floor := v } }
    else s))

/-- The bank that an update writes: the one that is not active (R440). -/
def Amc.updateBank (a : Amc) : Bool := a.bankIn .active != some true

/-- An update session ends: the bank is pending if the whole image is valid, and that mark is the last flash write (R440). -/
def Amc.closeSession (a : Amc) (image : List Byte) : Amc :=
  { (a.setBank a.updateBank (if imageValid image a.floor then ⟨.pending, 0, image⟩ else .erased)) with session := none }

/-- The bytes that a session has received so far, with a further piece; `none`: the request is refused, for another session is
open, or because an image below the floor is refused at upload, before the bank is erased (R440, log 35). -/
def Amc.received (a : Amc) (who : Nat) (piece : List Byte) : Option (List Byte) :=
  match a.session with
  | some x => if x.1 = who then some (x.2 ++ piece) else none
  | none => if 8 ≤ piece.length && imageVersion piece < a.floor then none else some piece

/-- FIRMWARE_UPDATE: session `id` brings the bytes `bytes` of an image, the last ones with `flag`. From its first bytes on the bank
is empty, and stays so if a reset cuts the session off (R440). -/
def execFirmwareUpdate (s : State) : Host.Outcome State Fault Refusal :=
  .next (s.onVlan (match s.amc.received s.arg.id s.arg.bytes with
    | none => s
    | some image =>
      { s with amc := if s.arg.flag then s.amc.closeSession image
                      else { s.amc.setBank s.amc.updateBank .erased with session := some (s.arg.id, image) } }))

/-! ### Attestation, log, counters (R441, R443, R444..R446) -/

/-- The first 160 bytes of a report. -/
def Report.body (r : Report) : List Byte :=
  natLe r.nonce 32 ++ r.idHash ++ natLe r.version 4 ++ natLe r.standby 4 ++ natLe r.floor 4 ++ natLe r.device 4 ++ r.cfgHash
    ++ natLe r.ptpTime 8 ++ natLe r.stamp 8

/-- A report with its two signatures (R441). -/
def Report.bytes (r : Report) : List Byte :=
  r.body ++ ((Config.rsaSign r.body).take 384 ++ List.replicate 384 0).take 384
    ++ ((Config.slhSign r.body).take 16224 ++ List.replicate 16224 0).take 16224

/-- ATTESTATION_REQUEST with the nonce `value`: a report is signed, and sent with the certificates of both keys. -/
def execAttestationRequest (s : State) : Host.Outcome State Fault Refusal :=
  .next (s.onVlan (
    if s.amc.status = .ready then
      let st := s.stamp 1
      let a := s.amc
      { st.2 with amc := { a with reports :=
          { nonce := s.arg.value % 2 ^ 256, version := a.versionOf .active, standby := a.versionOf .standby, floor := a.floor
            device := a.cfg.device % 1024, ptpTime := s.hub.ptp, stamp := st.1
            idHash := a.flash.idHash, cfgHash := sha384 a.flash.record
            certs := [a.flash.rsaCert, a.flash.slhCert] } :: a.reports } }
    else s))

/-- EVENT_LOG_READ: `len` entries after the newest `id`. -/
def execEventLogRead (s : State) : Host.Outcome State Fault Refusal :=
  .next (s.onVlan { s with amc := { s.amc with logReply := (s.amc.log.drop s.arg.id).take s.arg.len } })

/-- A counter exists: 16 on each core, 32 on each die, at unit × 32 + index (R444). -/
def counterExists (k : Nat) : Bool := (k / 32 < 192 && k % 32 < 16) || k / 32 = 192 || k / 32 = 193

/-- A counter's control word names a source that it has (R445). -/
def sourceOk (k ctl : Nat) : Bool := ctl % 256 ≤ (if k / 32 < 192 then 15 else 13)

/-- A control word without its reserved bits (R444). -/
def ctlMask (x : Nat) : Nat := x % 2 ^ 32 / 2 ^ 14 * 2 ^ 14 + x % 2 ^ 8

/-- COUNTER_PROGRAM: `pairs` of counter and control word, all refused if one names a reserved source. It takes effect at the end
of a clk (R446). -/
def execCounterProgram (s : State) : Host.Outcome State Fault Refusal :=
  .next (s.onVlan (
    let ps := s.arg.pairs
    if s.amc.status = .ready && ps.all (fun p => counterExists p.1 && sourceOk p.1 p.2) then
      { s with lastOfClk := true, amc := { s.amc with
          evCtl := ps.foldl (fun m p => smSet 0 m p.1 (ctlMask p.2)) s.amc.evCtl
          evCount := ps.foldl (fun m p => smSet 0 m p.1 0) s.amc.evCount } }
    else s))

/-- The die that a counter belongs to. -/
def counterDie (k : Nat) : Nat := if k / 32 < 192 then k / 32 / 96 else k / 32 - 192

/-- COUNTER_READ of the counters `pairs` of die `id`, all at the end of one clk (R446). -/
def execCounterRead (s : State) : Host.Outcome State Fault Refusal :=
  .next (s.onVlan (
    let ks := (s.arg.pairs.map Prod.fst).filter (fun k => counterExists k && counterDie k == s.arg.id)
    if s.amc.status = .ready then
      { s with lastOfClk := true, amc := { s.amc with counterReply := ks.map (fun k => smGet 0 s.amc.evCount k) } }
    else s))

/-! ### Sensors (R442) -/

/-- Power is removed from the compute dies and stacks: what they held is lost, until a reset. -/
def State.powerDown (s : State) : State :=
  { State.reset with
    agenda := s.agenda, free := s.free, nextId := s.nextId, clk := s.clk, hub := { s.hub with armed := [], flushes := [] }
    amc := { s.amc with status := .down } }

/-- A die's power limit is lowered: by how much is not stated, so the new one is a free value below the old (log 34). -/
def Amc.throttle (a : Amc) (die free : Nat) : Amc :=
  if die = 0 then { a with power0 := if a.power0 = 0 then 0 else free % a.power0 }
  else { a with power1 := if a.power1 = 0 then 0 else free % a.power1 }

/-- The hottest of a compute die and the six stacks beside it (log 34). -/
def dieTemp (r : SensorReading) (die : Nat) : Nat := (((r.hbm.drop (6 * die)).take 6)).foldl max (r.dies.getD die 0)

/-- The hottest die or stack. -/
def hottest (r : SensorReading) : Nat := (r.dies ++ r.hbm).foldl max 0

/-- SENSOR_POLL: `sensor` gives the temperature of each die and stack, the supply rails and the module power, which the AMC keeps
as its latest reading; a compute die is throttled by its own temperature, and both by the module's power (R442, log 34). -/
def execSensorPoll (s : State) : Host.Outcome State Fault Refusal :=
  .next (
    let r := s.arg.sensor
    let c := s.amc.cfg
    let u : State := { s with amc := { s.amc with sensors := some r } }
    if c.tCrit ≤ hottest r then (u.log 1 3 0x70 (hottest r)).powerDown
    else
      let t := if c.tWarn ≤ hottest r then u.log 1 1 0x71 (hottest r) else u
      let low (t : State) (die : Nat) : State :=
        if c.tThr ≤ dieTemp r die || c.pwrLim < r.power then { t.draw.2 with amc := t.amc.throttle die t.draw.1 } else t
      low (low t 0) 1)

/-! ### The PTP clock (R432..R434) -/

/-- Number of the latest firing at or before a time, if one is left: the earlier ones are passed over at the first lock. -/
def TimeSlot.skipTo (x : TimeSlot) (now : Nat) : TimeSlot :=
  if now < x.start then x
  else if x.period = 0 then x
  else { x with m := max x.m ((now - x.start) / x.period) }

/-- PTP_MESSAGE, a frame for the AMC (R431), which in recovery keeps no clock (R435): the domain time is `value`.
Forward steps are made at the first lock, and for errors over 1 ms; a clock that is ahead is slowed until the error is gone. -/
def execPtpMessage (s : State) : Host.Outcome State Fault Refusal :=
  .next (s.onVlan (
    let v := s.arg.value % 2 ^ 64
    let h := s.hub
    if s.amc.status ≠ .ready then s
    else if !h.ptpLocked then
      let h1 := if h.ptp < v then { h with ptp := v } else { h with ptpHold := v }
      let h2 : Hub := { h1 with ptpLocked := true }
      ({ s with hub := h2, slots := s.slots.map (fun x => (x.1, x.2.skipTo h2.ptp)) } : State).log 1 0 0x80 0
    else if h.ptp + 1000000 < v then { s with hub := { h with ptp := v, ptpHold := 0 } }
    else if v + 1000000 < h.ptp then { s with hub := { h with ptpHold := v } }
    else { s with hub := { h with ptpHold := if h.ptp ≤ v then 0 else h.ptpHold } }))

/-! ### Errors in storage (R410) -/

/-- A team has begun a step that reads a slot or tile of another (R311). -/
def State.stepsWith (s : State) (uid name : Nat) (slot : Bool) : List Nat :=
  (s.teams.filter (fun u => u.mat.steps.any (fun x =>
    if slot then x.reads.contains (uid, name) else u.uid == uid && x.acc == name))).map Team.uid

/-- The steps that the word of a waiting member asks for; a convocation's bitmap is its leader's (R314). -/
def wordSteps (lead : Team) (w : Nat) : List StepReq :=
  match decodeWord w with
  | .ok (.mma d a b _ _ _) => [⟨a, b, d, false⟩]
  | .ok (.mmaZ d a b _ _ _) => [⟨a, b, d, true⟩]
  | .ok (.mmas d a b n k) => mmasSteps d a b n (lead.getS k)
  | _ => []

/-- A member's waiting word reads a slot or tile of a team (R311). -/
def StepIssue.uses (i : StepIssue) (mode : Nat) (ms : List Team) (uid name : Nat) (slot : Bool) : Bool :=
  match ms.head?, ms.find? (fun t => t.uid == i.uid) with
  | some lead, some t => (wordSteps lead i.word).any (fun r =>
      if slot then (stepReads mode ms t r).contains (uid, name)
      else r.d == name && uid == (if mode = 1 then lead.uid else t.uid))
  | _, _ => false

/-- The teams that an error in a slot or tile of a team reaches besides it: every member of its convocation once a step that reads
it has begun, before that those whose waiting word reads it. -/
def State.sharers (s : State) (uid name : Nat) (slot : Bool) : List Nat :=
  let begun := s.stepsWith uid name slot
  let conv : Option Convocation := do
    let t ← s.findTeam uid
    let m ← t.mat.member
    (← s.findBlock t.bid).findConv m.cv
  let mates := match conv with
    | some c =>
      if !begun.isEmpty then c.members
      else (c.issues.filter (fun i => i.uses c.mode (c.members.filterMap s.findTeam) uid name slot)).map StepIssue.uid
    | none => []
  setDel ((begun ++ mates).foldl setAdd []) uid

/-- A slot or tile of a team is bad: machine checks, if the name is bound. -/
def State.matrixError (s : State) (uid name : Nat) (slot : Bool) : State :=
  match s.findTeam uid with
  | none => s
  | some t =>
    if t.bound slot name then (uid :: s.sharers uid name slot).foldl (fun u x => u.machineCheck x 0) s else s

/-- STORAGE_ERROR: what `err` says. An error in the instruction cache has no effect of its own: the line is fetched again. -/
def execStorageError (s : State) : Host.Outcome State Fault Refusal :=
  .next (match s.arg.err with
    | .corrected true u => s.countEvent u 15 0 1
    | .corrected false u => s.countEvent (192 + u) 11 0 1
    | .memory pa => if pa < hbmEnd then { s with poison := setAdd s.poison (pa / 64) } else s
    | .scratchpad bid off => s.modBlock bid (fun b =>
        if off < b.k.stackOff b.k.teams then { b with spadPoison := setAdd b.spadPoison (off / 64) } else b)
    | .teamState uid => s.machineCheck uid 0
    | .slot uid n => s.matrixError uid n true
    | .tile uid n => s.matrixError uid n false
    | .icache _ => s
    | .hub => s.log 0 2 0x50 0
    | .hubTable => s.log 26 2 0x50 0)

end Sys2Proof.Machine
end

