-- ==== Sys2Proof/Machine/Memory.lean ====
section
/-!
DEFINITION. Loads, stores, atomics, space words, prefetch and cache control (R275..R286), and the return of load data
(R182, R277). A load reads memory when it issues; its registers are written when its data returns.
-/
namespace Sys2Proof.Machine

/-! ### Shared operations -/

/-- Address of a lane of an M word (R174). -/
def State.laneAddr (s : State) (b x u w l : Nat) : Word64 :=
  BitVec.ofInt 64 (((s.getS b).toNat : Int) + if u = 1 then (((l + x) * w : Nat) : Int) else sextInt (s.getV x l).toNat 32)

/-- The checks of a memory word with vector operands (R192, R90, R97). -/
def State.memChecks (s : State) (wide : Bool) (vs : List Nat) (idx : List Nat) : Except FaultInfo Unit := do
  s.vectorChecks true wide vs
  need (s.windowOk false idx) (s.flt .windowRange)

/-- The index register of an M word. -/
def indexRegs (x u : Nat) : List Nat := if u = 1 then [] else [x]

/-- The selected lanes with their addresses. -/
def State.laneAddrs (s : State) (b x u w : Nat) : List (Nat × Word64) :=
  (lanesOf s.team.size s.selected).map (fun l => (l, s.laneAddr b x u w l))

/-- The first place that is poisoned, with its lane and address. -/
def State.firstPoison (s : State) (as : List (Nat × Word64)) (ps : List (Nat × Place)) : Option (Nat × Word64) :=
  ((as.zip ps).find? (fun x => s.poisonAt x.2.2)).map Prod.fst

/-- The load being issued returns these register writes later (R182). -/
def State.startLoad (s : State) (la : Nat) (i : Instr) (writes : List RegWrite) (poison : Option (Nat × Word64)) : State :=
  let t := s.openWindow la false i
  { t with team := { t.team with
      loads := t.team.loads ++ [{ lid := s.team.nextLoad, off := t.team.pc, writes := writes, poison := poison
                                  plane := t.iss.plane }] } }

/-- Register writes that put lane images into a register or pair and clear side-bands (R29, R90). -/
def State.loadWrites (s : State) (wide : Bool) (n : Nat) (xs : List (Nat × Nat)) : List RegWrite :=
  xs.flatMap (fun x =>
    [.v (s.vpos n) x.1 (BitVec.ofNat 32 x.2), .side (s.vpos n) (x.1 / 16) 0]
    ++ if wide then [.v (s.vpos (n + 1)) x.1 (BitVec.ofNat 32 (x.2 / 2 ^ 32)), .side (s.vpos (n + 1)) (x.1 / 16) 0] else [])

/-- The zeros of the active lanes that are not selected, under MZ (R178). -/
def State.mzLanes (s : State) : List (Nat × Nat) :=
  if s.mz then (lanesOf s.team.size (s.iss.lanes &&& ~~~s.selected)).map (fun l => (l, 0)) else []

/-- One register write of returned data. -/
def Team.applyWrite (t : Team) (w : RegWrite) : Team :=
  match w with
  | .v pos l x => { t with regs := { t.regs with v := smSet 0 t.regs.v (pos * 1024 + l) x } }
  | .side pos g x => { t with regs := { t.regs with side := smSet 0 t.regs.side (pos * 64 + g) x } }
  | .s n x => t.setS n x

/-- LOAD_DATA_RETURN: the oldest load of the team in focus completes (R182, R277); poisoned data raises MEMORY_POISON at
the load. -/
def execLoadDataReturn (s : State) : Host.Outcome State Fault Refusal :=
  .next (match s.team.loads with
    | [] => s
    | l :: ls =>
      let looks := s.team.looks.map (fun w => if w.lid = l.lid then { w with done := true } else w)
      let t := { s.team with loads := ls, looks := looks }
      match l.poison with
      | none => { s with team := l.writes.foldl Team.applyWrite t }
      | some (lane, addr) =>
        takeFault { cause := .memoryPoison, plane := l.plane, lane := lane, addr := addr, code := 0, restart := l.off
                    spill := false }
          { s with team := t })

/-! ### Scalar loads and stores (R278) -/

/-- Address of an MS word. -/
def State.msAddr (s : State) (b o w : Nat) : Word64 := s.getS b + BitVec.ofNat 64 (o * w)

/-- A scalar load of `w` bytes. -/
def State.scalarLoad (s : State) (i : Instr) (t b o la w : Nat) : Except FaultInfo State := do
  s.hazardCheck
  let a := s.msAddr b o w
  let p ← s.accessOne .load a w w
  return (((s.noteTlb .load [(0, a)]).startLoad la i [.s t (BitVec.ofNat 64 (s.readAt p w))]
    (if s.poisonAt p then some (0, a) else none))).retire

/-- A scalar store of `w` bytes. -/
def State.scalarStore (s : State) (i : Instr) (t b o la w : Nat) : Except FaultInfo State := do
  s.hazardCheck
  let a := s.msAddr b o w
  let p ← s.accessOne .store a w w
  return (((s.noteTlb .store [(0, a)]).writeAt p w ((s.getS t).toNat % 2 ^ (8 * w))).openWindow la true i).retire

/-- SLD64. -/
def execSld64 (t b o l : Nat) (s : State) : Host.Outcome State Fault Refusal :=
  answer s (s.scalarLoad (.sld64 t b o l) t b o l 8)

/-- SLD32. -/
def execSld32 (t b o l : Nat) (s : State) : Host.Outcome State Fault Refusal :=
  answer s (s.scalarLoad (.sld32 t b o l) t b o l 4)

/-- SST64. -/
def execSst64 (t b o l : Nat) (s : State) : Host.Outcome State Fault Refusal :=
  answer s (s.scalarStore (.sst64 t b o l) t b o l 8)

/-- SST32. -/
def execSst32 (t b o l : Nat) (s : State) : Host.Outcome State Fault Refusal :=
  answer s (s.scalarStore (.sst32 t b o l) t b o l 4)

/-! ### Vector element loads and stores (R279) -/

/-- A vector element load of `w` bytes a lane. -/
def State.vectorLoad (s : State) (i : Instr) (t b x la u w : Nat) : Except FaultInfo State := do
  s.memChecks (w = 8) [t] (indexRegs x u)
  let as := s.laneAddrs b x u w
  let ps ← s.accessAll .load w w as
  let xs := ps.map (fun p => (p.1, s.readAt p.2 w)) ++ s.mzLanes
  return ((s.noteTlb .load as).startLoad la i (s.loadWrites (w = 8) t xs) (s.firstPoison as ps)).retire

/-- The sector that holds a place. -/
def Place.sector : Place → Place
  | .dev pa => .dev (pa / 64 * 64)
  | .spad bid off => .spad bid (off / 64 * 64)

/-- The sectors that stores of `w` bytes at some places cover whole lose their poison mark (R410). -/
def State.clearCovered (s : State) (ps : List Place) (w : Nat) : State :=
  ((ps.filter s.poisonAt).map Place.sector).foldl (fun t c =>
    if 64 ≤ w * ((ps.filter (fun p => p.sector == c)).eraseDups).length then t.clearPoison c else t) s

/-- A vector element store of `w` bytes a lane, lanes ascending (R148). -/
def State.vectorStore (s : State) (i : Instr) (t b x la u w : Nat) : Except FaultInfo State := do
  s.memChecks (w = 8) [t] (indexRegs x u)
  let as := s.laneAddrs b x u w
  let ps ← s.accessAll .store w w as
  let s1 := (ps.foldl (fun r p => r.writeAt p.2 w (s.laneImage (w = 8) t p.1 % 2 ^ (8 * w))) (s.noteTlb .store as)).clearCovered
    (ps.map Prod.snd) w
  return (s1.openWindow la true i).retire

/-- VLD8. -/
def execVld8 (t b x l u : Nat) (s : State) : Host.Outcome State Fault Refusal :=
  answer s (s.vectorLoad (.vld8 t b x l u) t b x l u 1)

/-- VLD16. -/
def execVld16 (t b x l u : Nat) (s : State) : Host.Outcome State Fault Refusal :=
  answer s (s.vectorLoad (.vld16 t b x l u) t b x l u 2)

/-- VLD32. -/
def execVld32 (t b x l u : Nat) (s : State) : Host.Outcome State Fault Refusal :=
  answer s (s.vectorLoad (.vld32 t b x l u) t b x l u 4)

/-- VLD64. -/
def execVld64 (t b x l u : Nat) (s : State) : Host.Outcome State Fault Refusal :=
  answer s (s.vectorLoad (.vld64 t b x l u) t b x l u 8)

/-- VST8. -/
def execVst8 (t b x l u : Nat) (s : State) : Host.Outcome State Fault Refusal :=
  answer s (s.vectorStore (.vst8 t b x l u) t b x l u 1)

/-- VST16. -/
def execVst16 (t b x l u : Nat) (s : State) : Host.Outcome State Fault Refusal :=
  answer s (s.vectorStore (.vst16 t b x l u) t b x l u 2)

/-- VST32. -/
def execVst32 (t b x l u : Nat) (s : State) : Host.Outcome State Fault Refusal :=
  answer s (s.vectorStore (.vst32 t b x l u) t b x l u 4)

/-- VST64. -/
def execVst64 (t b x l u : Nat) (s : State) : Host.Outcome State Fault Refusal :=
  answer s (s.vectorStore (.vst64 t b x l u) t b x l u 8)

/-! ### Sectors (R280) -/

/-- The groups that take part, each with its lowest selected lane and its sector's address. -/
def State.groupAddrs (s : State) (b x u : Nat) : List (Nat × Nat × Word64) :=
  (groupsOf s.team.size s.selected).map (fun g =>
    let l := lowestLane s.team.size (s.selected &&& groupMask g)
    (g, l, if u = 1 then s.getS b + BitVec.ofNat 64 ((g + x) * 64) else s.laneAddr b x 0 64 l))

/-- A whole group's register writes. -/
def State.groupWrites (s : State) (n : Nat) (g data side : Nat) : List RegWrite :=
  (List.range 16).map (fun j => RegWrite.v (s.vpos n) (16 * g + j) (BitVec.ofNat 32 (data / 2 ^ (32 * j))))
  ++ [.side (s.vpos n) g (BitVec.ofNat 64 side)]

/-- VLDB. -/
def execVldb (t b x l u : Nat) (s : State) : Host.Outcome State Fault Refusal :=
  answer s (do
    s.memChecks false [t] (indexRegs x u)
    let gs := s.groupAddrs b x u
    let as := gs.map Prod.snd
    let ps ← s.accessAll .load 64 64 as
    let part := gs.map Prod.fst
    let zeros := if s.mz then (groupsOf s.team.size s.iss.lanes).filter (fun g => !part.contains g) else []
    let ws := (part.zip ps).flatMap (fun p => s.groupWrites t p.1 (s.readAt p.2.2 64) (s.sideAt p.2.2).toNat)
      ++ zeros.flatMap (fun g => s.groupWrites t g 0 0)
    return ((s.noteTlb .load as).startLoad l (.vldb t b x l u) ws (s.firstPoison as ps)).retire)

/-- VSTB: each group as one unit, groups ascending (R147). -/
def execVstb (t b x l u : Nat) (s : State) : Host.Outcome State Fault Refusal :=
  answer s (do
    s.memChecks false [t] (indexRegs x u)
    let gs := s.groupAddrs b x u
    let as := gs.map Prod.snd
    let ps ← s.accessAll .store 64 64 as
    let s1 := ((gs.map Prod.fst).zip ps).foldl (fun r p =>
      let x := s.group t p.1
      r.writeSector p.2.2 (BitVec.ofNat 512 x.data) (BitVec.ofNat 64 x.side)) (s.noteTlb .store as)
    return (s1.openWindow l true (.vstb t b x l u)).retire)

/-! ### Atomics (R281..R283) -/

/-- The new value of an atomic on `n` bits; `none`: no write. -/
def atomOp (aop n m d c : Nat) : Option Nat :=
  let w (x : Int) : Option Nat := some (wrapNat x n)
  match aop with
  | 0 => w ((m : Int) + d)
  | 1 => w ((m : Int) - d)
  | 2 => some (if sextInt d n < sextInt m n then d else m)
  | 3 => some (if sextInt m n < sextInt d n then d else m)
  | 4 => some (min m d)
  | 5 => some (max m d)
  | 6 => some (m &&& d)
  | 7 => some (m ||| d)
  | 8 => some (m ^^^ d)
  | 9 => some d
  | 10 => if m = c then some d else none
  | 11 => some (binary32.add 0 0 m d).1
  | 12 => some (binary32.minMax false m d).1
  | 13 => some (binary32.minMax true m d).1
  | _ => some ((bfloat16.add 0 0 (field m 0 16) (field d 0 16)).1
              + (bfloat16.add 0 0 (field m 16 16) (field d 16 16)).1 * 2 ^ 16)

/-- Perform one atomic at a place: the old value, and the state after. -/
def State.atomicAt (s : State) (p : Place) (w aop d c : Nat) : Nat × State :=
  let m := s.readAt p w
  match atomOp aop (8 * w) m (d % 2 ^ (8 * w)) (c % 2 ^ (8 * w)) with
  | some x => (m, s.writeAt p w x)
  | none => (m, s)

/-- VATOM: lanes in ascending order, each returning the value before its own write (R148, R282). -/
def execVatom (d x b o l : Nat) (s : State) : Host.Outcome State Fault Refusal :=
  answer s (do
    need (o ≠ 10 || s.iss.pfx.isSome) (s.flt .illegalInstruction)
    s.memChecks false ([d] ++ if o = 10 then [s.d4] else []) [x]
    let as := s.laneAddrs b x 0 4
    let ps ← s.accessAll .atomic 4 4 as
    match s.firstPoison as ps with
    | some p => return ((s.noteTlb .atomic as).startLoad l (.vatom d x b o l) [] (some p)).retire
    | none =>
      let r := ps.foldl (fun (r : State × List (Nat × Nat)) p =>
        let y := r.1.atomicAt p.2 4 o (s.getV d p.1).toNat (s.getV s.d4 p.1).toNat
        (y.2, r.2 ++ [(p.1, y.1)])) (s.noteTlb .atomic as, [])
      return (r.1.startLoad l (.vatom d x b o l) (s.loadWrites false d (r.2 ++ s.mzLanes)) none).retire)

/-- SATOM. -/
def execSatom (d a o w l : Nat) (s : State) : Host.Outcome State Fault Refusal :=
  answer s (do
    need (o ≠ 10 || s.iss.pfx.isSome) (s.flt .illegalInstruction)
    s.hazardCheck
    let n := if w = 1 then 8 else 4
    let addr := s.getS a
    let p ← s.accessOne .atomic addr n n
    let s1 := s.noteTlb .atomic [(0, addr)]
    if s.poisonAt p then return (s1.startLoad l (.satom d a o w l) [] (some (0, addr))).retire
    else
      let y := s1.atomicAt p n o (s.getS d).toNat (s.getS s.d4).toNat
      return (y.2.startLoad l (.satom d a o w l) [.s d (BitVec.ofNat 64 y.1)] none).retire)

/-! ### Space test and cast (R284) -/

/-- SPTEST. -/
def execSptest (d a : Nat) (s : State) : Host.Outcome State Fault Refusal :=
  answer s (do
    s.hazardCheck
    return (s.setS d (BitVec.ofNat 64 (spaceTest (s.getS a).toNat))).retire)

/-- SPCAST acts for lane 0 of the team. -/
def execSpcast (d a p t : Nat) (s : State) : Host.Outcome State Fault Refusal :=
  answer s (do
    s.hazardCheck
    let x ← s.laneFault 0 (s.getS a) (s.spaceCast (s.getS a) t p 0)
    return (s.setS d x).retire)

/-- The pair of a lane as an address. -/
def State.pairAddr (s : State) (a l : Nat) : Word64 := BitVec.ofNat 64 (s.laneImage true a (s.srcLane 0 l))

/-- VSPTEST. -/
def execVsptest (d a : Nat) (s : State) : Host.Outcome State Fault Refusal :=
  answer s (do
    return (← s.lanewiseCore true true false d [a] (fun l => (spaceTest (s.pairAddr a l).toNat, 0))).retire)

/-- VSPCAST: under pol 0 the lowest failing lane raises the fault, and no lane is written. -/
def execVspcast (d a p t : Nat) (s : State) : Host.Outcome State Fault Refusal :=
  answer s (do
    let cast (l : Nat) := s.spaceCast (s.pairAddr a l) t p l
    let r ← s.lanewiseCore true true true d [a] (fun l => (match cast l with | .ok x => x.toNat | .error _ => 0, 0))
    let _ ← (lanesOf s.team.size s.selected).mapM (fun l => s.laneFault l (s.pairAddr a l) (cast l))
    return r.retire)

/-! ### Prefetch and cache control (R285, R286): they change no value -/

/-- A prefetch: the checks of R121 with w = 1, for lane 0 of the team (log 127); page faults but WINDOW_AREA are dropped, and so is poison in the
page tables (log 119). The line is named by its leaf and its address, and comes into the level that `f` fills; one that cannot be read stays away (R140). -/
def State.prefetch (s : State) (a : Word64) (f : State → Nat → Nat → State) : Except FaultInfo State := do
  s.hazardCheck
  let t ← s.laneFault 0 a (s.checkAddr a 1 1 0)
  match t, s.route .prefetch t with
  | _, .error .windowArea => .error (s.fltAt .windowArea 0 a)
  | .va va, .ok (.dev pa) =>
    (match s.leaf s.teamView va with
     | .page e _ => return (f (s.fillTlb s.teamView va) e pa).retire
     | _ => return s.retire)
  | .va va, _ => return (s.fillTlb s.teamView va).retire
  | _, _ => return s.retire

/-- PREF.l1: the line comes into the L2, and unless its page bypasses it (R400) into the L1, through which it is filled. -/
def execPrefL1 (b o : Nat) (s : State) : Host.Outcome State Fault Refusal :=
  answer s (s.prefetch (s.msAddr b o 256) (fun t e pa => t.touchLine .load t.teamView e pa))

/-- PREF.l2: the line comes into the L2. -/
def execPrefL2 (b o : Nat) (s : State) : Host.Outcome State Fault Refusal :=
  answer s (s.prefetch (s.msAddr b o 256) (fun t e pa => t.touchLine .prefetch t.teamView e pa))

/-- Virtual address of a global or private address for CCTL, which checks only the space code: the fields of a private
address name its lane, whatever its tag, and a self-relative one lane 0 of the team (log 129). -/
def State.cctlVa (s : State) (a : Word64) : Option Nat :=
  let p := a.toNat
  if p / 2 ^ 56 = 0 then some (p % 2 ^ 56)
  else if p / 2 ^ 56 = 0xF0 then
    let lane := if field p 36 8 = 0 then s.laneInBlock 0 else field p 44 12
    some (s.blk.pbase + lane * s.blk.d.privSz + p % 2 ^ 32)
  else none

/-- CCTL on a line: an address that is not global or private, or does not translate as a prefetch does, gives no effect (log 128). -/
def State.cacheLine (s : State) (a : Word64) (f : Nat → Caches → Caches) : Except FaultInfo State := do
  s.hazardCheck
  need ([0, 0xF0, 0xF1, 0xF2].contains (a.toNat / 2 ^ 56)) (s.fltAt .spaceInvalid 0 a)
  match s.cctlVa a with
  | none => return s.retire
  | some va =>
    match s.translate s.teamView .prefetch va with
    | .ok pa => return ({ s with caches := f (lineOf pa) s.caches } : State).retire
    | .error _ => return s.retire

/-- CCTL.l1line. -/
def execCctlL1line (a : Nat) (s : State) : Host.Outcome State Fault Refusal :=
  answer s (s.cacheLine (s.getS a) (fun n c => c.dropL1 s.team.core n))

/-- CCTL.l1all. -/
def execCctlL1all (s : State) : Host.Outcome State Fault Refusal :=
  answer s (do
    s.hazardCheck
    return ({ s with caches := s.caches.clearL1 s.team.core } : State).retire)

/-- CCTL.l2evict. -/
def execCctlL2evict (a : Nat) (s : State) : Host.Outcome State Fault Refusal :=
  answer s (s.cacheLine (s.getS a) (fun n c => c.toStream n))

end Sys2Proof.Machine
end

