-- ==== Sys2Proof/Machine/VecArith.lean ====
section
/-!
DEFINITION. The lane-wise vector instructions: VARITH, VLOGIC, immediates, VUNARY, VCVT, VSCALAR, compares, select,
predicate logic, shuffles and lane identity (R249..R259, R273).
-/
namespace Sys2Proof.Machine

/-! ### VARITH (R249) -/

/-- VADD: a + b. -/
def execVadd (d a b : Nat) (s : State) : Host.Outcome State Fault Refusal :=
  answer s (s.vec2 true d a b (addOp s.ty s.rm s.sat))

/-- VSUB: a - b. -/
def execVsub (d a b : Nat) (s : State) : Host.Outcome State Fault Refusal :=
  answer s (s.vec2 true d a b (subOp s.ty s.rm s.sat))

/-- VMUL: a · b. -/
def execVmul (d a b : Nat) (s : State) : Host.Outcome State Fault Refusal :=
  answer s (s.vec2 true d a b (mulOp s.ty s.rm s.sat))

/-- VMULH: the high half of the exact product. -/
def execVmulh (d a b : Nat) (s : State) : Host.Outcome State Fault Refusal :=
  answer s (s.vec2 (isInt s.ty) d a b (fun _ => mulhOp s.ty))

/-- VMIN: the smaller (R51). -/
def execVmin (d a b : Nat) (s : State) : Host.Outcome State Fault Refusal :=
  answer s (s.vec2 true d a b (fun _ => minMaxOp s.ty false))

/-- VMAX: the larger (R51). -/
def execVmax (d a b : Nat) (s : State) : Host.Outcome State Fault Refusal :=
  answer s (s.vec2 true d a b (fun _ => minMaxOp s.ty true))

/-- VABSD: |a - b|. -/
def execVabsd (d a b : Nat) (s : State) : Host.Outcome State Fault Refusal :=
  answer s (s.vec2 true d a b (absdOp s.ty s.rm s.sat))

/-- VDIV: a / b (R50, R54). -/
def execVdiv (d a b : Nat) (s : State) : Host.Outcome State Fault Refusal :=
  answer s (s.vec2 true d a b (divOp s.ty s.rm))

/-- VREM: the remainder (R54). -/
def execVrem (d a b : Nat) (s : State) : Host.Outcome State Fault Refusal :=
  answer s (s.vec2 (isInt s.ty) d a b (fun _ => remOp s.ty))

/-- VADDSAT: a + b saturated. -/
def execVaddsat (d a b : Nat) (s : State) : Host.Outcome State Fault Refusal :=
  answer s (s.vec2 (isInt s.ty) d a b (fun _ => addOp s.ty 0 true 0))

/-- VSUBSAT: a - b saturated. -/
def execVsubsat (d a b : Nat) (s : State) : Host.Outcome State Fault Refusal :=
  answer s (s.vec2 (isInt s.ty) d a b (fun _ => subOp s.ty 0 true 0))

/-- VAVG: floor((a + b + 1) / 2). -/
def execVavg (d a b : Nat) (s : State) : Host.Outcome State Fault Refusal :=
  answer s (s.vec2 (isInt s.ty) d a b (fun _ => avgOp s.ty))

/-- VCOPYSIGN: magnitude of a, sign of b. -/
def execVcopysign (d a b : Nat) (s : State) : Host.Outcome State Fault Refusal :=
  answer s (s.vec2 (isFloat s.ty) d a b (fun _ => copysignOp s.ty))

/-- VFMA: a · b + c. -/
def execVfma (d a b : Nat) (s : State) : Host.Outcome State Fault Refusal :=
  answer s (s.vec3 d a b (fmaOp s.ty s.rm s.sat false false))

/-- VFMS: a · b - c. -/
def execVfms (d a b : Nat) (s : State) : Host.Outcome State Fault Refusal :=
  answer s (s.vec3 d a b (fmaOp s.ty s.rm s.sat false true))

/-- VFNMA: -(a · b) + c. -/
def execVfnma (d a b : Nat) (s : State) : Host.Outcome State Fault Refusal :=
  answer s (s.vec3 d a b (fmaOp s.ty s.rm s.sat true false))

/-! ### VLOGIC (R250) -/

/-- VAND. -/
def execVand (d a b : Nat) (s : State) : Host.Outcome State Fault Refusal :=
  answer s (s.vecWhole d [a, b] (fun l => s.opA a l &&& s.opB b l))

/-- VOR. -/
def execVor (d a b : Nat) (s : State) : Host.Outcome State Fault Refusal :=
  answer s (s.vecWhole d [a, b] (fun l => s.opA a l ||| s.opB b l))

/-- VXOR. -/
def execVxor (d a b : Nat) (s : State) : Host.Outcome State Fault Refusal :=
  answer s (s.vecWhole d [a, b] (fun l => s.opA a l ^^^ s.opB b l))

/-- VANDN: a and not b. -/
def execVandn (d a b : Nat) (s : State) : Host.Outcome State Fault Refusal :=
  answer s (s.vecWhole d [a, b] (fun l => s.opA a l &&& (s.opB b l ^^^ (2 ^ 64 - 1))))

/-- VSHL: left shift, saturated under SAT (R53). -/
def execVshl (d a b : Nat) (s : State) : Host.Outcome State Fault Refusal :=
  answer s (s.vec2 (isInt s.ty) d a b (fun _ => shlOp s.ty s.sat))

/-- VSHR: right shift, zero fill. -/
def execVshr (d a b : Nat) (s : State) : Host.Outcome State Fault Refusal :=
  answer s (s.vec2 (isInt s.ty) d a b (fun _ => shrOp s.ty))

/-- VSRA: right shift, sign fill. -/
def execVsra (d a b : Nat) (s : State) : Host.Outcome State Fault Refusal :=
  answer s (s.vec2 (isInt s.ty) d a b (fun _ => sraOp s.ty))

/-- VROTR: rotation right. -/
def execVrotr (d a b : Nat) (s : State) : Host.Outcome State Fault Refusal :=
  answer s (s.vec2 (isInt s.ty) d a b (fun _ => rotrOp s.ty))

/-! ### Immediates (R251) -/

/-- VADDI: a + wrap(i, w). -/
def execVaddi (d a i : Nat) (s : State) : Host.Outcome State Fault Refusal :=
  answer s (s.vecX (isInt s.ty) d a (immElems s.ty (imm11 i)) (fun _ => addImmOp s.ty s.sat))

/-- VMULI: a · wrap(i, w). -/
def execVmuli (d a i : Nat) (s : State) : Host.Outcome State Fault Refusal :=
  answer s (s.vecX (isInt s.ty) d a (immElems s.ty (imm11 i)) (fun _ => mulImmOp s.ty s.sat))

/-- VANDI: a and sext(i). -/
def execVandi (d a i : Nat) (s : State) : Host.Outcome State Fault Refusal :=
  answer s (s.vecWhole d [a] (fun l => s.opA a l &&& immWhole s.ty i))

/-- VORI: a or sext(i). -/
def execVori (d a i : Nat) (s : State) : Host.Outcome State Fault Refusal :=
  answer s (s.vecWhole d [a] (fun l => s.opA a l ||| immWhole s.ty i))

/-- VSHLI: as VSHL by n mod w. -/
def execVshli (d a n : Nat) (s : State) : Host.Outcome State Fault Refusal :=
  answer s (s.vecX (isInt s.ty) d a (immElems s.ty n) (fun _ => shlOp s.ty s.sat))

/-- VSHRI: as VSHR by n mod w. -/
def execVshri (d a n : Nat) (s : State) : Host.Outcome State Fault Refusal :=
  answer s (s.vecX (isInt s.ty) d a (immElems s.ty n) (fun _ => shrOp s.ty))

/-- VSRAI: as VSRA by n mod w. -/
def execVsrai (d a n : Nat) (s : State) : Host.Outcome State Fault Refusal :=
  answer s (s.vecX (isInt s.ty) d a (immElems s.ty n) (fun _ => sraOp s.ty))

/-- VROTRI: as VROTR by n mod w. -/
def execVrotri (d a n : Nat) (s : State) : Host.Outcome State Fault Refusal :=
  answer s (s.vecX (isInt s.ty) d a (immElems s.ty n) (fun _ => rotrOp s.ty))

/-- VMOVI: wrap(i, w), or i rounded to a float type. -/
def execVmovi (d i : Nat) (s : State) : Host.Outcome State Fault Refusal :=
  answer s (s.lanewise true (isWide s.ty) (isWide s.ty) d [] (fun l => s.elemwise (fun _ r =>
    if isFloat s.ty then (floatFmt s.ty).ofInt s.rm r (imm11 i) else (wrapNat (imm11 i) (elemBits s.ty), 0)) l))

/-! ### VUNARY (R252, R253) -/

/-- VMOV: a bit for bit. -/
def execVmov (d a : Nat) (s : State) : Host.Outcome State Fault Refusal :=
  answer s (s.vecWhole d [a] (s.opA a))

/-- VNEG. -/
def execVneg (d a : Nat) (s : State) : Host.Outcome State Fault Refusal :=
  answer s (s.vec1 true d a (fun _ => negOp s.ty s.sat))

/-- VABS. -/
def execVabs (d a : Nat) (s : State) : Host.Outcome State Fault Refusal :=
  answer s (s.vec1 true d a (fun _ => absOp s.ty s.sat))

/-- VNOT: over the whole register or pair. -/
def execVnot (d a : Nat) (s : State) : Host.Outcome State Fault Refusal :=
  answer s (s.vecWhole d [a] (fun l => s.opA a l ^^^ (2 ^ 64 - 1)))

/-- VPOPC: one bits per sub-element. -/
def execVpopc (d a : Nat) (s : State) : Host.Outcome State Fault Refusal :=
  answer s (s.vec1 (isInt s.ty) d a (fun _ x => (popCount x (elemBits s.ty), 0)))

/-- VCLZ: leading zeros per sub-element. -/
def execVclz (d a : Nat) (s : State) : Host.Outcome State Fault Refusal :=
  answer s (s.vec1 (isInt s.ty) d a (fun _ x => (leadingZeros x (elemBits s.ty), 0)))

/-- VSEXT8, under I32 and U32. -/
def execVsext8 (d a : Nat) (s : State) : Host.Outcome State Fault Refusal :=
  answer s (s.vec1 (s.ty ≤ 1) d a (fun _ x => (wrapNat (sextInt x 8) 32, 0)))

/-- VSEXT16, under I32 and U32. -/
def execVsext16 (d a : Nat) (s : State) : Host.Outcome State Fault Refusal :=
  answer s (s.vec1 (s.ty ≤ 1) d a (fun _ x => (wrapNat (sextInt x 16) 32, 0)))

/-- VRCP: float types except F64. -/
def execVrcp (d a : Nat) (s : State) : Host.Outcome State Fault Refusal :=
  answer s (s.vec1 (isFloat s.ty && s.ty ≠ 13) d a ((floatFmt s.ty).special .rcp s.rm))

/-- VRSQ: float types except F64. -/
def execVrsq (d a : Nat) (s : State) : Host.Outcome State Fault Refusal :=
  answer s (s.vec1 (isFloat s.ty && s.ty ≠ 13) d a ((floatFmt s.ty).special .rsq s.rm))

/-- VSQRT: float types except F64. -/
def execVsqrt (d a : Nat) (s : State) : Host.Outcome State Fault Refusal :=
  answer s (s.vec1 (isFloat s.ty && s.ty ≠ 13) d a ((floatFmt s.ty).special .sqrt s.rm))

/-- VEXP2: float types except F64. -/
def execVexp2 (d a : Nat) (s : State) : Host.Outcome State Fault Refusal :=
  answer s (s.vec1 (isFloat s.ty && s.ty ≠ 13) d a ((floatFmt s.ty).special .exp2 s.rm))

/-- VLOG2: float types except F64. -/
def execVlog2 (d a : Nat) (s : State) : Host.Outcome State Fault Refusal :=
  answer s (s.vec1 (isFloat s.ty && s.ty ≠ 13) d a ((floatFmt s.ty).special .log2 s.rm))

/-- VSIN: float types except F64. -/
def execVsin (d a : Nat) (s : State) : Host.Outcome State Fault Refusal :=
  answer s (s.vec1 (isFloat s.ty && s.ty ≠ 13) d a ((floatFmt s.ty).special .sin s.rm))

/-- VCOS: float types except F64. -/
def execVcos (d a : Nat) (s : State) : Host.Outcome State Fault Refusal :=
  answer s (s.vec1 (isFloat s.ty && s.ty ≠ 13) d a ((floatFmt s.ty).special .cos s.rm))

/-- VTANH: float types except F64. -/
def execVtanh (d a : Nat) (s : State) : Host.Outcome State Fault Refusal :=
  answer s (s.vec1 (isFloat s.ty && s.ty ≠ 13) d a ((floatFmt s.ty).special .tanh s.rm))

/-! ### VCVT (R254) -/

/-- The result of VCVT for a lane: a copy where the types agree. -/
def State.convertLane (s : State) (a t l : Nat) : LaneOut :=
  if t = s.ty then (s.opA a l, 0)
  else
    let rs := (List.range (elemCount t)).map (fun j =>
      cvtOp s.ty t s.rm s.sat (s.random l j) (subElem s.ty (s.opA a l) j))
    (joinElems t (fun j => (rs.getD j (0, 0)).1), flagsOr (rs.map Prod.snd))

/-- VCVT: from the mode's type to t, within one set. -/
def execVcvt (d a t : Nat) (s : State) : Host.Outcome State Fault Refusal :=
  answer s (s.lanewise (cvtSet s.ty = cvtSet t) (isWide s.ty) (isWide t) d [a] (s.convertLane a t))

/-! ### VSCALAR (R255) -/

/-- VADDS. -/
def execVadds (d a b : Nat) (s : State) : Host.Outcome State Fault Refusal :=
  answer s (s.vecX true d a (s.scalarB b) (addOp s.ty s.rm s.sat))

/-- VMULS. -/
def execVmuls (d a b : Nat) (s : State) : Host.Outcome State Fault Refusal :=
  answer s (s.vecX true d a (s.scalarB b) (mulOp s.ty s.rm s.sat))

/-- VMINS. -/
def execVmins (d a b : Nat) (s : State) : Host.Outcome State Fault Refusal :=
  answer s (s.vecX true d a (s.scalarB b) (fun _ => minMaxOp s.ty false))

/-- VMAXS. -/
def execVmaxs (d a b : Nat) (s : State) : Host.Outcome State Fault Refusal :=
  answer s (s.vecX true d a (s.scalarB b) (fun _ => minMaxOp s.ty true))

/-- VSHLS: as VSHL with n the scalar's sub-element. -/
def execVshls (d a b : Nat) (s : State) : Host.Outcome State Fault Refusal :=
  answer s (s.vecX (isInt s.ty) d a (s.scalarB b) (fun _ => shlOp s.ty s.sat))

/-- VSHRS. -/
def execVshrs (d a b : Nat) (s : State) : Host.Outcome State Fault Refusal :=
  answer s (s.vecX (isInt s.ty) d a (s.scalarB b) (fun _ => shrOp s.ty))

/-- VFMAS: a · s + c. -/
def execVfmas (d a b : Nat) (s : State) : Host.Outcome State Fault Refusal :=
  answer s (s.lanewise true (isWide s.ty) (isWide s.ty) d [a, s.cReg d] (fun l => s.elemwise (fun j r =>
    fmaOp s.ty s.rm s.sat false false r (subElem s.ty (s.opA a l) j) (subElem s.ty (s.scalarB b) j)
      (subElem s.ty (s.opC d l) j)) l))

/-- VBCAST: the scalar in every sub-element it is read as. -/
def execVbcast (d b : Nat) (s : State) : Host.Outcome State Fault Refusal :=
  answer s (s.lanewise true (isWide s.ty) (isWide s.ty) d [] (fun l => s.elemwise (fun j _ =>
    (subElem s.ty (s.scalarB b) j, 0)) l))

/-! ### Compare, select, predicate logic (R256..R258) -/

/-- VCMP: condition c combined by f into a predicate. -/
def execVcmp (p a b c f : Nat) (s : State) : Host.Outcome State Fault Refusal :=
  answer s (s.compare p [a, b] c f (s.opB b) a)

/-- VCMPS: b is a uniform register. -/
def execVcmps (p a b c f : Nat) (s : State) : Host.Outcome State Fault Refusal :=
  answer s (s.compare p [a] c f (fun _ => s.scalarB b) a)

/-- VSEL: a where the predicate is true, else b. -/
def execVsel (d a b p : Nat) (s : State) : Host.Outcome State Fault Refusal :=
  answer s (s.vecWhole d [a, b] (fun l => if (s.getP p).getLsbD l then s.opA a l else s.opB b l))

/-- PLOG writes a predicate in every active lane of the plane issue, whatever the guard (R258). -/
def State.predLogic (s : State) (d : Nat) (x : Mask) : Except FaultInfo State := do
  s.hazardCheck
  return (s.setP d s.iss.lanes x).retireSr

/-- PAND. -/
def execPand (d a b : Nat) (s : State) : Host.Outcome State Fault Refusal :=
  answer s (s.predLogic d (s.getP a &&& s.getP b))

/-- POR. -/
def execPor (d a b : Nat) (s : State) : Host.Outcome State Fault Refusal :=
  answer s (s.predLogic d (s.getP a ||| s.getP b))

/-- PXOR. -/
def execPxor (d a b : Nat) (s : State) : Host.Outcome State Fault Refusal :=
  answer s (s.predLogic d (s.getP a ^^^ s.getP b))

/-- PANDN: a and not b. -/
def execPandn (d a b : Nat) (s : State) : Host.Outcome State Fault Refusal :=
  answer s (s.predLogic d (s.getP a &&& ~~~s.getP b))

/-- PNOT. -/
def execPnot (d a : Nat) (s : State) : Host.Outcome State Fault Refusal :=
  answer s (s.predLogic d (~~~s.getP a))

/-- PSET: true. -/
def execPset (d : Nat) (s : State) : Host.Outcome State Fault Refusal :=
  answer s (s.predLogic d (allLanes))

/-- PCLR: false. -/
def execPclr (d : Nat) (s : State) : Host.Outcome State Fault Refusal :=
  answer s (s.predLogic d (0))

/-- PMOV. -/
def execPmov (d a : Nat) (s : State) : Host.Outcome State Fault Refusal :=
  answer s (s.predLogic d (s.getP a))

/-! ### Shuffle and lane identity (R259, R273) -/

/-- A shuffle: each selected lane reads operand a at a source lane its index names (R259); a lane pattern of operand a acts on
that source lane (R180, log 103). -/
def State.shuffle (s : State) (d a b : Nat) (src : Nat → Nat → Nat) : Except FaultInfo State := do
  let t ← s.lanewise true (isWide s.ty) (isWide s.ty) d [a] (fun l =>
    (s.opA a (src l (s.getV b (s.srcLane 1 l)).toNat), 0))
  need (s.windowOk false [b]) (s.flt .windowRange)
  return t

/-- VSHFL: the source lane within the pass. -/
def execVshfl (d a b : Nat) (s : State) : Host.Outcome State Fault Refusal :=
  answer s (s.shuffle d a b (fun l x => l / 32 * 32 + x % 32))

/-- VSHFL.team: the source lane anywhere in the team. -/
def execVshflTeam (d a b : Nat) (s : State) : Host.Outcome State Fault Refusal :=
  answer s (s.shuffle d a b (fun _ x => x % s.team.size))

/-- VLANE: the lane's index in team or block, its plane, its pass. -/
def execVlane (d f : Nat) (s : State) : Host.Outcome State Fault Refusal :=
  answer s (s.lanewise true false false d [] (fun l =>
    (if f = 0 then l else if f = 1 then s.laneInBlock l else if f = 2 then s.team.lanes.plane l else l / 32, 0)))

end Sys2Proof.Machine
end

