-- ==== Sys2Proof/Machine/VecCross.lean ====
section
/-!
DEFINITION. The cross-lane anchors: VRED, VSCAN, VBALL, VNZS, VISECT (R260..R265). An absent operand is `none`.
-/
namespace Sys2Proof.Machine

/-- An operation on present operands, with its flags; an absent one gives the other (R260). -/
def combineAbsent {α : Type} (op : α → α → α × Byte) : Option α → Option α → Option α × Byte
  | some x, some y => let z := op x y; (some z.1, z.2)
  | some x, none => (some x, 0)
  | none, y => (y, 0)

/-- 32 operands, and the flags raised so far. -/
abbrev PassOps (α : Type) := List (Option α) × Byte

/-- One level over the 32 operands: operand `i` becomes `f i`. -/
def passLevel {α : Type} (x : PassOps α) (f : Nat → Option α × Byte) : PassOps α :=
  let ys := (List.range 32).map f
  (ys.map Prod.fst, x.2 ||| flagsOr (ys.map Prod.snd))

/-- Operand `i` of a pass. -/
def PassOps.at {α : Type} (x : PassOps α) (i : Nat) : Option α := (x.1[i]?).join

/-- The tree reduction of one pass (R261). -/
def reducePass {α : Type} (op : α → α → α × Byte) (xs : List (Option α)) : Option α × Byte :=
  let r := [1, 2, 4, 8, 16].foldl (fun (x : PassOps α) d =>
    passLevel x (fun i => if i % (2 * d) = 0 then combineAbsent op (x.at i) (x.at (i + d)) else (x.at i, 0))) (xs, 0)
  (PassOps.at r 0, r.2)

/-- The inclusive scan of one pass, each level on the previous level's values (R262). -/
def scanPass {α : Type} (op : α → α → α × Byte) (xs : List (Option α)) : PassOps α :=
  [1, 2, 4, 8, 16].foldl (fun (x : PassOps α) d =>
    passLevel x (fun i => if d ≤ i then combineAbsent op (x.at (i - d)) (x.at i) else (x.at i, 0))) (xs, 0)

/-- The selected lanes of pass `w` as present operands. -/
def State.passLanes {α : Type} (s : State) (w : Nat) (a : Nat → α) : List (Option α) :=
  (List.range 32).map (fun i => if s.selected.getLsbD (32 * w + i) then some (a (32 * w + i)) else none)

/-- A 32-bit lane operand a. -/
def State.laneA (s : State) (a l : Nat) : Nat := s.laneImage false a (s.srcLane 0 l)

/-- ⊕ of VRED (R261). -/
def redOp (t fn a b : Nat) : Nat × Byte :=
  match fn with
  | 0 => binary32.add 0 0 a b
  | 1 => ((a + b) % 2 ^ 32, 0)
  | 2 => minMaxOp t false a b
  | 3 => minMaxOp t true a b
  | 4 => (a &&& b, 0)
  | 5 => (a ||| b, 0)
  | _ => (a ^^^ b, 0)

/-- The identity of VRED (R261). -/
def redIdentity (t fn : Nat) : Nat :=
  match fn with
  | 2 => if t = 2 then 0x7F800000 else if t = 0 then 0x7FFFFFFF else 0xFFFFFFFF
  | 3 => if t = 2 then 0xFF800000 else if t = 0 then 0x80000000 else 0
  | 4 => 0xFFFFFFFF
  | _ => 0

/-- VRED: reduces the selected lanes of every pass in a fixed tree (R261). -/
def execVred (a b f : Nat) (s : State) : Host.Outcome State Fault Refusal :=
  answer s (do
    s.vectorChecks (!(f = 2 || f = 3) || s.ty ≤ 2) false [a]
    let op := redOp s.ty f
    let r := (List.range (s.team.size / 32)).foldl (fun (x : Option Nat × Byte) w =>
      let p := reducePass op (s.passLanes w (s.laneA a))
      let y := combineAbsent op x.1 p.1
      (y.1, x.2 ||| p.2 ||| y.2)) (none, 0)
    let x := r.1.getD (redIdentity s.ty f)
    let signed := f = 1 || ((f = 2 || f = 3) && s.ty = 0)
    return ((s.setS b (BitVec.ofNat 64 (if signed then wrapNat (sextInt x 32) 64 else x))).raise r.2).retire)

/-- ⊕ of VSCAN on 64-bit images; under linf a stands in the low half and b in the high one (R262). -/
def scanOp (fn a b : Nat) : Nat × Byte :=
  match fn with
  | 0 => binary32.add 0 0 a b
  | 1 => ((a + b) % 2 ^ 32, 0)
  | 2 => binary32.minMax true a b
  | 3 => binary32.minMax false a b
  | _ =>
    let x := binary32.mul 0 0 (field a 0 32) (field b 0 32)
    let y := binary32.fma 0 0 false false (field b 0 32) (field a 32 32) (field b 32 32)
    (x.1 + y.1 * 2 ^ 32, x.2 ||| y.2)

/-- What VSCAN carries from pass to pass: the carry, the results by lane, the flags. -/
structure ScanRun where
  carry : Nat
  out : List (Nat × Nat)
  flags : Byte
  deriving DecidableEq, Repr

/-- One pass of VSCAN. The flags of every combination enter STICKY, those of positions that deliver nothing too (log 125). -/
def State.scanStep (s : State) (fn : Nat) (a : Nat → Nat) (x : ScanRun) (w : Nat) : ScanRun :=
  let p := scanPass (scanOp fn) (s.passLanes w a)
  let rs := (List.range 32).filterMap (fun i =>
    if s.selected.getLsbD (32 * w + i) then (p.at i).map (fun v => (32 * w + i, scanOp fn x.carry v)) else none)
  { carry := ((rs.getLast?).map (fun r => r.2.1)).getD x.carry
    out := x.out ++ rs.map (fun r => (r.1, r.2.1))
    flags := x.flags ||| p.2 ||| flagsOr (rs.map (fun r => r.2.2)) }

/-- The image of a lane in a list of results. -/
def imageIn (out : List (Nat × Nat)) (l : Nat) : Nat := ((out.find? (fun x => x.1 == l)).map Prod.snd).getD 0

/-- VSCAN: an inclusive scan with a carry in and out (R262). -/
def execVscan (d a b f : Nat) (s : State) : Host.Outcome State Fault Refusal :=
  answer s (do
    let wide : Bool := f = 4
    s.vectorChecks true wide [a, d]
    let c := (s.getS b).toNat
    let start : ScanRun := { carry := if wide then c else c % 2 ^ 32, out := [], flags := 0 }
    let r := (List.range (s.team.size / 32)).foldl
      (s.scanStep f (fun l => s.laneImage wide a (s.srcLane 0 l))) start
    let t := (s.writeLanes wide d (s.laneResults (fun l => (imageIn r.out l, 0)))).raise r.flags
    let x := if f = 1 then wrapNat (sextInt r.carry 32) 64 else r.carry
    return (if r.out.isEmpty then t else t.setS b (BitVec.ofNat 64 x)).retire)

/-- VBALL: the team mask of selected lanes with the predicate true, as asked (R263). -/
def execVball (w p b f : Nat) (s : State) : Host.Outcome State Fault Refusal :=
  answer s (do
    s.hazardCheck
    let m := s.selected &&& s.getP p
    let x := match f with
      | 0 => field m.toNat (32 * w) 32
      | 1 => field m.toNat (64 * w) 64
      | 2 => (lanesOf s.team.size m).length
      | 3 => if m = 0 then 0 else 1
      | _ => if m = s.selected then 1 else 0
    return (s.setS b (BitVec.ofNat 64 x)).retireSr)

/-- VNZS: compacted positions of nonzero lanes (R264). -/
def execVnzs (d a b f : Nat) (s : State) : Host.Outcome State Fault Refusal :=
  answer s (do
    s.vectorChecks true false [a, d]
    let base := (s.getS b).toNat
    let nz (x : Nat) : Bool := if f = 0 then x != 0 else x % 2 ^ 31 != 0
    let r := (lanesOf s.team.size s.selected).foldl (fun (x : Nat × List (Nat × Nat)) l =>
      (if nz (s.laneA a l) then x.1 + 1 else x.1, x.2 ++ [(l, base + x.1)])) (0, [])
    let t := s.writeLanes false d (s.laneResults (fun l => (imageIn r.2 l, 0)))
    return (t.setS b (BitVec.ofNat 64 (base + r.1))).retireSr)

/-- The largest of some integers. -/
def maxInt : List Int → Int
  | [] => 0
  | x :: xs => xs.foldl max x

/-- VISECT: intersects two key lists; ISECTA and ISECTB count the keys up to the smaller maximum (R265). -/
def execVisect (d a b : Nat) (s : State) : Host.Outcome State Fault Refusal :=
  answer s (do
    s.vectorChecks (s.ty ≤ 1) false [a, b, d]
    let ls := lanesOf s.team.size s.selected
    let ka := ls.map (fun l => elemInt s.ty (s.laneA a l))
    let kb := ls.map (fun l => (l, elemInt s.ty (s.laneImage false b (s.srcLane 1 l))))
    let lim := min (maxInt ka) (maxInt (kb.map Prod.snd))
    let na := (ka.filter (fun x => x ≤ lim)).length
    let nb := (kb.filter (fun x => x.2 ≤ lim)).length
    let t := s.writeLanes false d (s.laneResults (fun l =>
      (((kb.find? (fun x => x.2 == elemInt s.ty (s.laneA a l))).map Prod.fst).getD 0xFFFFFFFF, 0)))
    return (t.withSp { t.team.sp with isectA := BitVec.ofNat 64 na, isectB := BitVec.ofNat 64 nb }).retireSr)

end Sys2Proof.Machine
end

