-- ==== Sys2Proof/Machine/Prefixed.lean ====
section
/-!
DEFINITION. A prefix word and the word after it issue as one instruction (R179, R180).
-/
namespace Sys2Proof.Machine

/-- The meaning of the word that a prefix precedes, with the prefix in the issue; the words that take none (R180). -/
def execPrefixed (i : Instr) (s : State) : Host.Outcome State Fault Refusal :=
  match i with
  | .vld8 t b x l u => execVld8 t b x l u s
  | .vld16 t b x l u => execVld16 t b x l u s
  | .vld32 t b x l u => execVld32 t b x l u s
  | .vld64 t b x l u => execVld64 t b x l u s
  | .vldb t b x l u => execVldb t b x l u s
  | .vst8 t b x l u => execVst8 t b x l u s
  | .vst16 t b x l u => execVst16 t b x l u s
  | .vst32 t b x l u => execVst32 t b x l u s
  | .vst64 t b x l u => execVst64 t b x l u s
  | .vstb t b x l u => execVstb t b x l u s
  | .vatom d x b o l => execVatom d x b o l s
  | .satom d a o w l => execSatom d a o w l s
  | .vsptest d a => execVsptest d a s
  | .vspcast d a p t => execVspcast d a p t s
  | .vadd d a b => execVadd d a b s
  | .vsub d a b => execVsub d a b s
  | .vmul d a b => execVmul d a b s
  | .vmulh d a b => execVmulh d a b s
  | .vmin d a b => execVmin d a b s
  | .vmax d a b => execVmax d a b s
  | .vabsd d a b => execVabsd d a b s
  | .vdiv d a b => execVdiv d a b s
  | .vrem d a b => execVrem d a b s
  | .vfma d a b => execVfma d a b s
  | .vfms d a b => execVfms d a b s
  | .vfnma d a b => execVfnma d a b s
  | .vaddsat d a b => execVaddsat d a b s
  | .vsubsat d a b => execVsubsat d a b s
  | .vavg d a b => execVavg d a b s
  | .vcopysign d a b => execVcopysign d a b s
  | .vand d a b => execVand d a b s
  | .vor d a b => execVor d a b s
  | .vxor d a b => execVxor d a b s
  | .vandn d a b => execVandn d a b s
  | .vshl d a b => execVshl d a b s
  | .vshr d a b => execVshr d a b s
  | .vsra d a b => execVsra d a b s
  | .vrotr d a b => execVrotr d a b s
  | .vaddi d a i => execVaddi d a i s
  | .vmuli d a i => execVmuli d a i s
  | .vandi d a i => execVandi d a i s
  | .vori d a i => execVori d a i s
  | .vshli d a n => execVshli d a n s
  | .vshri d a n => execVshri d a n s
  | .vsrai d a n => execVsrai d a n s
  | .vrotri d a n => execVrotri d a n s
  | .vmovi d i => execVmovi d i s
  | .vmov d a => execVmov d a s
  | .vneg d a => execVneg d a s
  | .vabs d a => execVabs d a s
  | .vnot d a => execVnot d a s
  | .vpopc d a => execVpopc d a s
  | .vclz d a => execVclz d a s
  | .vsext8 d a => execVsext8 d a s
  | .vsext16 d a => execVsext16 d a s
  | .vrcp d a => execVrcp d a s
  | .vrsq d a => execVrsq d a s
  | .vsqrt d a => execVsqrt d a s
  | .vexp2 d a => execVexp2 d a s
  | .vlog2 d a => execVlog2 d a s
  | .vsin d a => execVsin d a s
  | .vcos d a => execVcos d a s
  | .vtanh d a => execVtanh d a s
  | .vcvt d a t => execVcvt d a t s
  | .vadds d a r => execVadds d a r s
  | .vmuls d a r => execVmuls d a r s
  | .vfmas d a r => execVfmas d a r s
  | .vmins d a r => execVmins d a r s
  | .vmaxs d a r => execVmaxs d a r s
  | .vbcast d r => execVbcast d r s
  | .vshls d a r => execVshls d a r s
  | .vshrs d a r => execVshrs d a r s
  | .vcmp p a b c f => execVcmp p a b c f s
  | .vcmps p a r c f => execVcmps p a r c f s
  | .vsel d a b p => execVsel d a b p s
  | .vshfl d a b => execVshfl d a b s
  | .vshflTeam d a b => execVshflTeam d a b s
  | .vred a r f => execVred a r f s
  | .vscan d a r f => execVscan d a r f s
  | .vball w p r f => execVball w p r f s
  | .vnzs d a r f => execVnzs d a r f s
  | .visect d a b => execVisect d a b s
  | .vbmax d a => execVbmax d a s
  | .vscsel d a f => execVscsel d a f s
  | .vqnt d a f => execVqnt d a f s
  | .vdq d a f => execVdq d a f s
  | .vpack d a p f => execVpack d a p f s
  | .vunpk d a p f => execVunpk d a p f s
  | .vreq d a f => execVreq d a f s
  | .vhist a r => execVhist a r s
  | .vlane d f => execVlane d f s
  | .vsideRd d a => execVsideRd d a s
  | .vsideWr d a => execVsideWr d a s
  | .yield _ _ | .trap _ | .mode _ | .fenceRel _ | .fenceAcq _ | .fenceAr _ | .conv _ _ _ | .enter _ | .barSync _ _ _
  | .barArrive _ | .barWait _ _ _ | .setj _ | .bru _ _ _ | .brm _ _ _ | .eject _ _ _ | .jmp _ | .call _ _
  | .calli _ _ | .jmpi _ | .calls _ _ | .plset _ | .plsetConst _ | .plsel _ _ _ | .plocc _ | .srd _ _ | .swr _ _
  | .swrMode _ | .swrSticky _ | .swrSsp _ | .swrTrapoff _ | .pushm _ _ | .popm _ _ | .cbara _ | .cbarw _ _ _
  | .pbara _ | .pbwait _ _ _ | .leave _ _ | .psrd _ _ | .pswr _ _ | .pswrFqhead _ | .fdactRestart _ | .fdactEnd _
  | .fdactRespill _ | .tlbiPage _ | .tlbiRegion _ | .sadd _ _ _ | .ssub _ _ _ | .smul _ _ _ | .smulh _ _ _
  | .sdiv _ _ _ | .sdivu _ _ _ | .srem _ _ _ | .sremu _ _ _ | .sand _ _ _ | .sor _ _ _ | .sxor _ _ _ | .sandn _ _ _
  | .sshl _ _ _ | .sshr _ _ _ | .ssra _ _ _ | .srotr _ _ _ | .smin _ _ _ | .smax _ _ _ | .sminu _ _ _ | .smaxu _ _ _
  | .sslt _ _ _ | .ssltu _ _ _ | .sseq _ _ _ | .ssne _ _ _ | .ssel _ _ _ | .sselz _ _ _ | .spopc _ _ | .sclz _ _
  | .sctz _ _ | .sbrev _ _ | .saddi _ _ _ | .sandi _ _ _ | .sori _ _ _ | .sxori _ _ _ | .sshli _ _ _ | .sshri _ _ _
  | .ssrai _ _ _ | .sslti _ _ _ | .sli _ _ | .slui _ _ | .sld64 _ _ _ _ | .sld32 _ _ _ _ | .sst64 _ _ _ _
  | .sst32 _ _ _ _ | .sptest _ _ | .spcast _ _ _ _ | .prefL1 _ _ | .prefL2 _ _ | .cctlL1line _ | .cctlL2evict _
  | .pand _ _ _ | .por _ _ _ | .pxor _ _ _ | .pandn _ _ _ | .pnot _ _ | .pset _ | .pclr _ | .pmov _ _ | .spctl _ _ _
  | .xcntSet _ _ _ | .xcntAdd _ _ _ | .tclm _ _ _ | .tclmTry _ _ _ | .trel _ _ | .aclm _ _ _ | .aclmTry _ _ _
  | .arel _ _ | .tldDense _ _ _ _ | .tldDec _ _ _ _ | .tldPcs _ _ _ _ | .tst _ _ | .mma _ _ _ _ _ _
  | .mmaZ _ _ _ _ _ _ | .mmas _ _ _ _ _ | .ardr _ _ _ | .ardc _ _ _ | .awrr _ _ _ | .awrc _ _ _ | .trdr _ _ _
  | .trdc _ _ _ | .twrr _ _ _ | .twrc _ _ _ | .azero _ | .aqnt _ _ _ _ _ | .tinfo _ _ _ | .xcpy _ _ _
  | .xcpyPair _ _ _ | .xgath _ _ _ | .xscat _ _ _ | .xpub _ _ _ | .xpubSync _ _ _ | .xwait _ _ _ | .xwaitTest _ _ _
  | .nsend _ _ _ | .nsendImm _ _ _ | .tsend _ _ _ | .cred _ _ _ | .xflush _ _ | .prefixedInstruction _ _ | .ill
  | .nop | .exit | .texit | .refill | .join | .disb | .ret | .uret | .tret | .haltc | .cctlL1all | .ejectRecordWrite
  | .claimGrant | .loadDataReturn | .matrixStepDone | .spillAhead | .engineCommandStart | .engineCommandComplete
  | .engineSuspend | .faultRecordWrite | .handlerLaunch | .yieldOverrun | .barrierTimeout | .blockPlace
  | .clusterPlace | .blockRelease | .placementStarvation | .launchComplete | .doorbellWrite | .launch | .tapePop
  | .graph | .tableLoad | .tableDisable | .copy | .signalSet | .signalAdd | .signalWait | .signalStore
  | .regionCreate | .regionModify | .regionDestroy | .regionBind | .tableFiring | .teamResume | .leaveWindow
  | .coreGroupSwapOut | .coreGroupSwapIn | .haltRelease | .storageError | .publishEntryStore | .hostRdmaWrite
  | .hostRdmaRead | .remoteWriteUnit | .remoteRead | .remoteIncrement | .peerRefusal | .flushMarker | .flushAck
  | .pathDown | .peerPathLoss | .portTraining | .ptpMessage | .powerOnReset | .resetRequest | .floorCommand
  | .firmwareUpdate | .attestationRequest | .eventLogRead | .counterProgram | .counterRead | .sensorPoll
  | .spillTransferComplete | .tileTransferComplete | .publishSyncCopy =>
    answer s (.error (s.flt .prefixMisuse))

/-- PREFIXED_INSTRUCTION: guard, zeroing, rounding, fourth operand and lane pattern stand in the issue for the meaning of the
word (R178, R179, R181), and the pair is eight bytes long (R171). -/
def execPrefixedInstruction (pfx : Prefix) (i : Instr) (s : State) : Host.Outcome State Fault Refusal :=
  execPrefixed i { s with iss := { s.iss with pfx := some pfx, len := 8 } }

end Sys2Proof.Machine
end

