-- ==== Sys2Proof/Machine/Scalar.lean ====
section
/-!
DEFINITION. Scalar arithmetic on the 64-bit uniform registers (R241..R244).
-/
namespace Sys2Proof.Machine

/-- A register's value read as signed. -/
def sx (x : Nat) : Int := sextInt x 64

/-- sext(IMM9, 9) as 64 bits. -/
def imm9 (i : Nat) : Nat := wrapNat (sextInt i 9) 64

/-- A scalar word: the lookahead check, one write, its flags (R241). -/
def State.scalar (s : State) (d : Nat) (x : Nat × Byte) : Except FaultInfo State := do
  s.hazardCheck
  return ((s.setS d (BitVec.ofNat 64 x.1)).raise x.2).retire

/-- A scalar word of two sources. -/
def State.scalar2 (s : State) (d a b : Nat) (f : Nat → Nat → Nat × Byte) : Except FaultInfo State :=
  s.scalar d (f (s.getS a).toNat (s.getS b).toNat)

/-- A scalar word of one source. -/
def State.scalar1 (s : State) (d a : Nat) (f : Nat → Nat) : Except FaultInfo State := s.scalar d (f (s.getS a).toNat, 0)

/-- Scalar division: quotient, remainder and flags (R243). -/
def sdivCases (signed : Bool) (a b : Nat) : Int × Int × Byte :=
  if signed then divCases (-(2 ^ 63)) (sx a) (sx b) true else divCases 0 a b false

/-! ### Register words (R242, R243) -/

/-- SADD. -/
def execSadd (d a b : Nat) (s : State) : Host.Outcome State Fault Refusal :=
  answer s (s.scalar2 d a b (fun x y => (x + y, 0)))

/-- SSUB. -/
def execSsub (d a b : Nat) (s : State) : Host.Outcome State Fault Refusal :=
  answer s (s.scalar2 d a b (fun x y => (wrapNat ((x : Int) - y) 64, 0)))

/-- SMUL: the low 64 bits. -/
def execSmul (d a b : Nat) (s : State) : Host.Outcome State Fault Refusal :=
  answer s (s.scalar2 d a b (fun x y => (x * y, 0)))

/-- SMULH: the high 64 bits of the signed product. -/
def execSmulh (d a b : Nat) (s : State) : Host.Outcome State Fault Refusal :=
  answer s (s.scalar2 d a b (fun x y => (wrapNat (sx x * sx y / (2 ^ 64 : Nat)) 64, 0)))

/-- SDIV (R243). -/
def execSdiv (d a b : Nat) (s : State) : Host.Outcome State Fault Refusal :=
  answer s (s.scalar2 d a b (fun x y => (wrapNat (sdivCases true x y).1 64, (sdivCases true x y).2.2)))

/-- SDIVU (R243). -/
def execSdivu (d a b : Nat) (s : State) : Host.Outcome State Fault Refusal :=
  answer s (s.scalar2 d a b (fun x y => (wrapNat (sdivCases false x y).1 64, (sdivCases false x y).2.2)))

/-- SREM (R243). -/
def execSrem (d a b : Nat) (s : State) : Host.Outcome State Fault Refusal :=
  answer s (s.scalar2 d a b (fun x y => (wrapNat (sdivCases true x y).2.1 64, (sdivCases true x y).2.2)))

/-- SREMU (R243). -/
def execSremu (d a b : Nat) (s : State) : Host.Outcome State Fault Refusal :=
  answer s (s.scalar2 d a b (fun x y => (wrapNat (sdivCases false x y).2.1 64, (sdivCases false x y).2.2)))

/-- SAND. -/
def execSand (d a b : Nat) (s : State) : Host.Outcome State Fault Refusal :=
  answer s (s.scalar2 d a b (fun x y => (x &&& y, 0)))

/-- SOR. -/
def execSor (d a b : Nat) (s : State) : Host.Outcome State Fault Refusal :=
  answer s (s.scalar2 d a b (fun x y => (x ||| y, 0)))

/-- SXOR. -/
def execSxor (d a b : Nat) (s : State) : Host.Outcome State Fault Refusal :=
  answer s (s.scalar2 d a b (fun x y => (x ^^^ y, 0)))

/-- SANDN: a and not b. -/
def execSandn (d a b : Nat) (s : State) : Host.Outcome State Fault Refusal :=
  answer s (s.scalar2 d a b (fun x y => (x &&& (y ^^^ (2 ^ 64 - 1)), 0)))

/-- SSHL. -/
def execSshl (d a b : Nat) (s : State) : Host.Outcome State Fault Refusal :=
  answer s (s.scalar2 d a b (fun x y => (x * 2 ^ (y % 64), 0)))

/-- SSHR. -/
def execSshr (d a b : Nat) (s : State) : Host.Outcome State Fault Refusal :=
  answer s (s.scalar2 d a b (fun x y => (x / 2 ^ (y % 64), 0)))

/-- SSRA. -/
def execSsra (d a b : Nat) (s : State) : Host.Outcome State Fault Refusal :=
  answer s (s.scalar2 d a b (fun x y => (wrapNat (sx x / (2 ^ (y % 64) : Nat)) 64, 0)))

/-- SROTR. -/
def execSrotr (d a b : Nat) (s : State) : Host.Outcome State Fault Refusal :=
  answer s (s.scalar2 d a b (fun x y => (x / 2 ^ (y % 64) + x * 2 ^ (64 - y % 64), 0)))

/-- SMIN. -/
def execSmin (d a b : Nat) (s : State) : Host.Outcome State Fault Refusal :=
  answer s (s.scalar2 d a b (fun x y => (if sx x ≤ sx y then x else y, 0)))

/-- SMAX. -/
def execSmax (d a b : Nat) (s : State) : Host.Outcome State Fault Refusal :=
  answer s (s.scalar2 d a b (fun x y => (if sx x ≤ sx y then y else x, 0)))

/-- SMINU. -/
def execSminu (d a b : Nat) (s : State) : Host.Outcome State Fault Refusal :=
  answer s (s.scalar2 d a b (fun x y => (min x y, 0)))

/-- SMAXU. -/
def execSmaxu (d a b : Nat) (s : State) : Host.Outcome State Fault Refusal :=
  answer s (s.scalar2 d a b (fun x y => (max x y, 0)))

/-- SSLT. -/
def execSslt (d a b : Nat) (s : State) : Host.Outcome State Fault Refusal :=
  answer s (s.scalar2 d a b (fun x y => (if sx x < sx y then 1 else 0, 0)))

/-- SSLTU. -/
def execSsltu (d a b : Nat) (s : State) : Host.Outcome State Fault Refusal :=
  answer s (s.scalar2 d a b (fun x y => (if x < y then 1 else 0, 0)))

/-- SSEQ. -/
def execSseq (d a b : Nat) (s : State) : Host.Outcome State Fault Refusal :=
  answer s (s.scalar2 d a b (fun x y => (if x = y then 1 else 0, 0)))

/-- SSNE. -/
def execSsne (d a b : Nat) (s : State) : Host.Outcome State Fault Refusal :=
  answer s (s.scalar2 d a b (fun x y => (if x = y then 0 else 1, 0)))

/-- SSEL: a if the old destination is nonzero, else b. -/
def execSsel (d a b : Nat) (s : State) : Host.Outcome State Fault Refusal :=
  answer s (s.scalar2 d a b (fun x y => (if s.getS d = 0 then y else x, 0)))

/-- SSELZ: a if b is nonzero, else 0. -/
def execSselz (d a b : Nat) (s : State) : Host.Outcome State Fault Refusal :=
  answer s (s.scalar2 d a b (fun x y => (if y = 0 then 0 else x, 0)))

/-- SPOPC. -/
def execSpopc (d a : Nat) (s : State) : Host.Outcome State Fault Refusal :=
  answer s (s.scalar1 d a (fun x => popCount x 64))

/-- SCLZ. -/
def execSclz (d a : Nat) (s : State) : Host.Outcome State Fault Refusal :=
  answer s (s.scalar1 d a (fun x => leadingZeros x 64))

/-- SCTZ. -/
def execSctz (d a : Nat) (s : State) : Host.Outcome State Fault Refusal :=
  answer s (s.scalar1 d a (fun x => trailingZeros x 64))

/-- SBREV. -/
def execSbrev (d a : Nat) (s : State) : Host.Outcome State Fault Refusal :=
  answer s (s.scalar1 d a (fun x => bitReverse x 64))

/-! ### Immediate words (R244) -/

/-- SADDI. -/
def execSaddi (d a i : Nat) (s : State) : Host.Outcome State Fault Refusal :=
  answer s (s.scalar1 d a (fun x => x + imm9 i))

/-- SANDI. -/
def execSandi (d a i : Nat) (s : State) : Host.Outcome State Fault Refusal :=
  answer s (s.scalar1 d a (fun x => x &&& imm9 i))

/-- SORI. -/
def execSori (d a i : Nat) (s : State) : Host.Outcome State Fault Refusal :=
  answer s (s.scalar1 d a (fun x => x ||| imm9 i))

/-- SXORI. -/
def execSxori (d a i : Nat) (s : State) : Host.Outcome State Fault Refusal :=
  answer s (s.scalar1 d a (fun x => x ^^^ imm9 i))

/-- SSHLI. -/
def execSshli (d a n : Nat) (s : State) : Host.Outcome State Fault Refusal :=
  answer s (s.scalar1 d a (fun x => x * 2 ^ n))

/-- SSHRI. -/
def execSshri (d a n : Nat) (s : State) : Host.Outcome State Fault Refusal :=
  answer s (s.scalar1 d a (fun x => x / 2 ^ n))

/-- SSRAI. -/
def execSsrai (d a n : Nat) (s : State) : Host.Outcome State Fault Refusal :=
  answer s (s.scalar1 d a (fun x => wrapNat (sx x / (2 ^ n : Nat)) 64))

/-- SSLTI. -/
def execSslti (d a i : Nat) (s : State) : Host.Outcome State Fault Refusal :=
  answer s (s.scalar1 d a (fun x => if sx x < sextInt i 9 then 1 else 0))

/-- SLI: sext(IMM17, 17). -/
def execSli (d i : Nat) (s : State) : Host.Outcome State Fault Refusal :=
  answer s (s.scalar d (wrapNat (sextInt i 17) 64, 0))

/-- SLUI: the old value shifted left by 17 plus IMM17. -/
def execSlui (d i : Nat) (s : State) : Host.Outcome State Fault Refusal :=
  answer s (s.scalar1 d d (fun x => x * 2 ^ 17 + i))

end Sys2Proof.Machine
end

