-- ==== Sys2Proof/Machine/Dispatch.lean ====
section
/-! DEFINITION. The dispatch: one arm per constructor of `Instr`, each a direct call of the instruction's meaning. -/
namespace Sys2Proof.Machine

def exec (i : Instr) (s : State) : Host.Outcome State Fault Refusal :=
  match i with
  | .yield k d => Sys2Proof.Machine.execYield k d s
  | .trap c => Sys2Proof.Machine.execTrap c s
  | .mode m => Sys2Proof.Machine.execMode m s
  | .fenceRel r => Sys2Proof.Machine.execFenceRel r s
  | .fenceAcq r => Sys2Proof.Machine.execFenceAcq r s
  | .fenceAr r => Sys2Proof.Machine.execFenceAr r s
  | .conv m n c => Sys2Proof.Machine.execConv m n c s
  | .enter n => Sys2Proof.Machine.execEnter n s
  | .barSync w r k => Sys2Proof.Machine.execBarSync w r k s
  | .barArrive k => Sys2Proof.Machine.execBarArrive k s
  | .barWait w r k => Sys2Proof.Machine.execBarWait w r k s
  | .setj o => Sys2Proof.Machine.execSetj o s
  | .bru p n o => Sys2Proof.Machine.execBru p n o s
  | .brm p n o => Sys2Proof.Machine.execBrm p n o s
  | .eject p n o => Sys2Proof.Machine.execEject p n o s
  | .jmp o => Sys2Proof.Machine.execJmp o s
  | .call l o => Sys2Proof.Machine.execCall l o s
  | .calli l a => Sys2Proof.Machine.execCalli l a s
  | .jmpi a => Sys2Proof.Machine.execJmpi a s
  | .calls a l => Sys2Proof.Machine.execCalls a l s
  | .plset a => Sys2Proof.Machine.execPlset a s
  | .plsetConst b => Sys2Proof.Machine.execPlsetConst b s
  | .plsel f t p => Sys2Proof.Machine.execPlsel f t p s
  | .plocc d => Sys2Proof.Machine.execPlocc d s
  | .srd d k => Sys2Proof.Machine.execSrd d k s
  | .swr r k => Sys2Proof.Machine.execSwr r k s
  | .swrMode r => Sys2Proof.Machine.execSwrMode r s
  | .swrSticky r => Sys2Proof.Machine.execSwrSticky r s
  | .swrSsp r => Sys2Proof.Machine.execSwrSsp r s
  | .swrTrapoff r => Sys2Proof.Machine.execSwrTrapoff r s
  | .pushm f c => Sys2Proof.Machine.execPushm f c s
  | .popm f c => Sys2Proof.Machine.execPopm f c s
  | .cbara k => Sys2Proof.Machine.execCbara k s
  | .cbarw w r k => Sys2Proof.Machine.execCbarw w r k s
  | .pbara d => Sys2Proof.Machine.execPbara d s
  | .pbwait d p w => Sys2Proof.Machine.execPbwait d p w s
  | .leave k n => Sys2Proof.Machine.execLeave k n s
  | .psrd d k => Sys2Proof.Machine.execPsrd d k s
  | .pswr r k => Sys2Proof.Machine.execPswr r k s
  | .pswrFqhead r => Sys2Proof.Machine.execPswrFqhead r s
  | .fdactRestart r => Sys2Proof.Machine.execFdactRestart r s
  | .fdactEnd r => Sys2Proof.Machine.execFdactEnd r s
  | .fdactRespill r => Sys2Proof.Machine.execFdactRespill r s
  | .tlbiPage a => Sys2Proof.Machine.execTlbiPage a s
  | .tlbiRegion a => Sys2Proof.Machine.execTlbiRegion a s
  | .sadd d a b => Sys2Proof.Machine.execSadd d a b s
  | .ssub d a b => Sys2Proof.Machine.execSsub d a b s
  | .smul d a b => Sys2Proof.Machine.execSmul d a b s
  | .smulh d a b => Sys2Proof.Machine.execSmulh d a b s
  | .sdiv d a b => Sys2Proof.Machine.execSdiv d a b s
  | .sdivu d a b => Sys2Proof.Machine.execSdivu d a b s
  | .srem d a b => Sys2Proof.Machine.execSrem d a b s
  | .sremu d a b => Sys2Proof.Machine.execSremu d a b s
  | .sand d a b => Sys2Proof.Machine.execSand d a b s
  | .sor d a b => Sys2Proof.Machine.execSor d a b s
  | .sxor d a b => Sys2Proof.Machine.execSxor d a b s
  | .sandn d a b => Sys2Proof.Machine.execSandn d a b s
  | .sshl d a b => Sys2Proof.Machine.execSshl d a b s
  | .sshr d a b => Sys2Proof.Machine.execSshr d a b s
  | .ssra d a b => Sys2Proof.Machine.execSsra d a b s
  | .srotr d a b => Sys2Proof.Machine.execSrotr d a b s
  | .smin d a b => Sys2Proof.Machine.execSmin d a b s
  | .smax d a b => Sys2Proof.Machine.execSmax d a b s
  | .sminu d a b => Sys2Proof.Machine.execSminu d a b s
  | .smaxu d a b => Sys2Proof.Machine.execSmaxu d a b s
  | .sslt d a b => Sys2Proof.Machine.execSslt d a b s
  | .ssltu d a b => Sys2Proof.Machine.execSsltu d a b s
  | .sseq d a b => Sys2Proof.Machine.execSseq d a b s
  | .ssne d a b => Sys2Proof.Machine.execSsne d a b s
  | .ssel d a b => Sys2Proof.Machine.execSsel d a b s
  | .sselz d a b => Sys2Proof.Machine.execSselz d a b s
  | .spopc d a => Sys2Proof.Machine.execSpopc d a s
  | .sclz d a => Sys2Proof.Machine.execSclz d a s
  | .sctz d a => Sys2Proof.Machine.execSctz d a s
  | .sbrev d a => Sys2Proof.Machine.execSbrev d a s
  | .saddi d a k => Sys2Proof.Machine.execSaddi d a k s
  | .sandi d a k => Sys2Proof.Machine.execSandi d a k s
  | .sori d a k => Sys2Proof.Machine.execSori d a k s
  | .sxori d a k => Sys2Proof.Machine.execSxori d a k s
  | .sshli d a n => Sys2Proof.Machine.execSshli d a n s
  | .sshri d a n => Sys2Proof.Machine.execSshri d a n s
  | .ssrai d a n => Sys2Proof.Machine.execSsrai d a n s
  | .sslti d a k => Sys2Proof.Machine.execSslti d a k s
  | .sli d k => Sys2Proof.Machine.execSli d k s
  | .slui d k => Sys2Proof.Machine.execSlui d k s
  | .sld64 t b o l => Sys2Proof.Machine.execSld64 t b o l s
  | .sld32 t b o l => Sys2Proof.Machine.execSld32 t b o l s
  | .sst64 t b o l => Sys2Proof.Machine.execSst64 t b o l s
  | .sst32 t b o l => Sys2Proof.Machine.execSst32 t b o l s
  | .vld8 t b x l u => Sys2Proof.Machine.execVld8 t b x l u s
  | .vld16 t b x l u => Sys2Proof.Machine.execVld16 t b x l u s
  | .vld32 t b x l u => Sys2Proof.Machine.execVld32 t b x l u s
  | .vld64 t b x l u => Sys2Proof.Machine.execVld64 t b x l u s
  | .vldb t b x l u => Sys2Proof.Machine.execVldb t b x l u s
  | .vst8 t b x l u => Sys2Proof.Machine.execVst8 t b x l u s
  | .vst16 t b x l u => Sys2Proof.Machine.execVst16 t b x l u s
  | .vst32 t b x l u => Sys2Proof.Machine.execVst32 t b x l u s
  | .vst64 t b x l u => Sys2Proof.Machine.execVst64 t b x l u s
  | .vstb t b x l u => Sys2Proof.Machine.execVstb t b x l u s
  | .vatom d x b o l => Sys2Proof.Machine.execVatom d x b o l s
  | .satom d a o w l => Sys2Proof.Machine.execSatom d a o w l s
  | .sptest d a => Sys2Proof.Machine.execSptest d a s
  | .spcast d a p t => Sys2Proof.Machine.execSpcast d a p t s
  | .vsptest d a => Sys2Proof.Machine.execVsptest d a s
  | .vspcast d a p t => Sys2Proof.Machine.execVspcast d a p t s
  | .prefL1 b o => Sys2Proof.Machine.execPrefL1 b o s
  | .prefL2 b o => Sys2Proof.Machine.execPrefL2 b o s
  | .cctlL1line a => Sys2Proof.Machine.execCctlL1line a s
  | .cctlL2evict a => Sys2Proof.Machine.execCctlL2evict a s
  | .vadd d a b => Sys2Proof.Machine.execVadd d a b s
  | .vsub d a b => Sys2Proof.Machine.execVsub d a b s
  | .vmul d a b => Sys2Proof.Machine.execVmul d a b s
  | .vmulh d a b => Sys2Proof.Machine.execVmulh d a b s
  | .vmin d a b => Sys2Proof.Machine.execVmin d a b s
  | .vmax d a b => Sys2Proof.Machine.execVmax d a b s
  | .vabsd d a b => Sys2Proof.Machine.execVabsd d a b s
  | .vdiv d a b => Sys2Proof.Machine.execVdiv d a b s
  | .vrem d a b => Sys2Proof.Machine.execVrem d a b s
  | .vfma d a b => Sys2Proof.Machine.execVfma d a b s
  | .vfms d a b => Sys2Proof.Machine.execVfms d a b s
  | .vfnma d a b => Sys2Proof.Machine.execVfnma d a b s
  | .vaddsat d a b => Sys2Proof.Machine.execVaddsat d a b s
  | .vsubsat d a b => Sys2Proof.Machine.execVsubsat d a b s
  | .vavg d a b => Sys2Proof.Machine.execVavg d a b s
  | .vcopysign d a b => Sys2Proof.Machine.execVcopysign d a b s
  | .vand d a b => Sys2Proof.Machine.execVand d a b s
  | .vor d a b => Sys2Proof.Machine.execVor d a b s
  | .vxor d a b => Sys2Proof.Machine.execVxor d a b s
  | .vandn d a b => Sys2Proof.Machine.execVandn d a b s
  | .vshl d a b => Sys2Proof.Machine.execVshl d a b s
  | .vshr d a b => Sys2Proof.Machine.execVshr d a b s
  | .vsra d a b => Sys2Proof.Machine.execVsra d a b s
  | .vrotr d a b => Sys2Proof.Machine.execVrotr d a b s
  | .vaddi d a k => Sys2Proof.Machine.execVaddi d a k s
  | .vmuli d a k => Sys2Proof.Machine.execVmuli d a k s
  | .vandi d a k => Sys2Proof.Machine.execVandi d a k s
  | .vori d a k => Sys2Proof.Machine.execVori d a k s
  | .vshli d a n => Sys2Proof.Machine.execVshli d a n s
  | .vshri d a n => Sys2Proof.Machine.execVshri d a n s
  | .vsrai d a n => Sys2Proof.Machine.execVsrai d a n s
  | .vrotri d a n => Sys2Proof.Machine.execVrotri d a n s
  | .vmovi d k => Sys2Proof.Machine.execVmovi d k s
  | .vmov d a => Sys2Proof.Machine.execVmov d a s
  | .vneg d a => Sys2Proof.Machine.execVneg d a s
  | .vabs d a => Sys2Proof.Machine.execVabs d a s
  | .vnot d a => Sys2Proof.Machine.execVnot d a s
  | .vpopc d a => Sys2Proof.Machine.execVpopc d a s
  | .vclz d a => Sys2Proof.Machine.execVclz d a s
  | .vsext8 d a => Sys2Proof.Machine.execVsext8 d a s
  | .vsext16 d a => Sys2Proof.Machine.execVsext16 d a s
  | .vrcp d a => Sys2Proof.Machine.execVrcp d a s
  | .vrsq d a => Sys2Proof.Machine.execVrsq d a s
  | .vsqrt d a => Sys2Proof.Machine.execVsqrt d a s
  | .vexp2 d a => Sys2Proof.Machine.execVexp2 d a s
  | .vlog2 d a => Sys2Proof.Machine.execVlog2 d a s
  | .vsin d a => Sys2Proof.Machine.execVsin d a s
  | .vcos d a => Sys2Proof.Machine.execVcos d a s
  | .vtanh d a => Sys2Proof.Machine.execVtanh d a s
  | .vcvt d a t => Sys2Proof.Machine.execVcvt d a t s
  | .vadds d a r => Sys2Proof.Machine.execVadds d a r s
  | .vmuls d a r => Sys2Proof.Machine.execVmuls d a r s
  | .vfmas d a r => Sys2Proof.Machine.execVfmas d a r s
  | .vmins d a r => Sys2Proof.Machine.execVmins d a r s
  | .vmaxs d a r => Sys2Proof.Machine.execVmaxs d a r s
  | .vbcast d r => Sys2Proof.Machine.execVbcast d r s
  | .vshls d a r => Sys2Proof.Machine.execVshls d a r s
  | .vshrs d a r => Sys2Proof.Machine.execVshrs d a r s
  | .vcmp p a b c f => Sys2Proof.Machine.execVcmp p a b c f s
  | .vcmps p a r c f => Sys2Proof.Machine.execVcmps p a r c f s
  | .vsel d a b p => Sys2Proof.Machine.execVsel d a b p s
  | .pand d a b => Sys2Proof.Machine.execPand d a b s
  | .por d a b => Sys2Proof.Machine.execPor d a b s
  | .pxor d a b => Sys2Proof.Machine.execPxor d a b s
  | .pandn d a b => Sys2Proof.Machine.execPandn d a b s
  | .pnot d a => Sys2Proof.Machine.execPnot d a s
  | .pset d => Sys2Proof.Machine.execPset d s
  | .pclr d => Sys2Proof.Machine.execPclr d s
  | .pmov d a => Sys2Proof.Machine.execPmov d a s
  | .vshfl d a b => Sys2Proof.Machine.execVshfl d a b s
  | .vshflTeam d a b => Sys2Proof.Machine.execVshflTeam d a b s
  | .vred a r f => Sys2Proof.Machine.execVred a r f s
  | .vscan d a r f => Sys2Proof.Machine.execVscan d a r f s
  | .vball w p r f => Sys2Proof.Machine.execVball w p r f s
  | .vnzs d a r f => Sys2Proof.Machine.execVnzs d a r f s
  | .visect d a b => Sys2Proof.Machine.execVisect d a b s
  | .vbmax d a => Sys2Proof.Machine.execVbmax d a s
  | .vscsel d a f => Sys2Proof.Machine.execVscsel d a f s
  | .vqnt d a f => Sys2Proof.Machine.execVqnt d a f s
  | .vdq d a f => Sys2Proof.Machine.execVdq d a f s
  | .vpack d a p f => Sys2Proof.Machine.execVpack d a p f s
  | .vunpk d a p f => Sys2Proof.Machine.execVunpk d a p f s
  | .vreq d a f => Sys2Proof.Machine.execVreq d a f s
  | .vhist a r => Sys2Proof.Machine.execVhist a r s
  | .spctl d a b => Sys2Proof.Machine.execSpctl d a b s
  | .vlane d f => Sys2Proof.Machine.execVlane d f s
  | .vsideRd d a => Sys2Proof.Machine.execVsideRd d a s
  | .vsideWr d a => Sys2Proof.Machine.execVsideWr d a s
  | .xcntSet a b c => Sys2Proof.Machine.execXcntSet a b c s
  | .xcntAdd a b c => Sys2Proof.Machine.execXcntAdd a b c s
  | .tclm r n f => Sys2Proof.Machine.execTclm r n f s
  | .tclmTry r n f => Sys2Proof.Machine.execTclmTry r n f s
  | .trel n f => Sys2Proof.Machine.execTrel n f s
  | .aclm r n f => Sys2Proof.Machine.execAclm r n f s
  | .aclmTry r n f => Sys2Proof.Machine.execAclmTry r n f s
  | .arel n f => Sys2Proof.Machine.execArel n f s
  | .tldDense t b f k => Sys2Proof.Machine.execTldDense t b f k s
  | .tldDec t b f k => Sys2Proof.Machine.execTldDec t b f k s
  | .tldPcs t b f k => Sys2Proof.Machine.execTldPcs t b f k s
  | .tst t b => Sys2Proof.Machine.execTst t b s
  | .mma d a b x y c => Sys2Proof.Machine.execMma d a b x y c s
  | .mmaZ d a b x y c => Sys2Proof.Machine.execMmaZ d a b x y c s
  | .mmas d a b n r => Sys2Proof.Machine.execMmas d a b n r s
  | .ardr d x r => Sys2Proof.Machine.execArdr d x r s
  | .ardc d x r => Sys2Proof.Machine.execArdc d x r s
  | .awrr d x r => Sys2Proof.Machine.execAwrr d x r s
  | .awrc d x r => Sys2Proof.Machine.execAwrc d x r s
  | .trdr d x r => Sys2Proof.Machine.execTrdr d x r s
  | .trdc d x r => Sys2Proof.Machine.execTrdc d x r s
  | .twrr d x r => Sys2Proof.Machine.execTwrr d x r s
  | .twrc d x r => Sys2Proof.Machine.execTwrc d x r s
  | .azero x => Sys2Proof.Machine.execAzero x s
  | .aqnt a b f r q => Sys2Proof.Machine.execAqnt a b f r q s
  | .tinfo d w r => Sys2Proof.Machine.execTinfo d w r s
  | .xcpy a b c => Sys2Proof.Machine.execXcpy a b c s
  | .xcpyPair a b c => Sys2Proof.Machine.execXcpyPair a b c s
  | .xgath a b c => Sys2Proof.Machine.execXgath a b c s
  | .xscat a b c => Sys2Proof.Machine.execXscat a b c s
  | .xpub a r c => Sys2Proof.Machine.execXpub a r c s
  | .xpubSync a r c => Sys2Proof.Machine.execXpubSync a r c s
  | .xwait a b c => Sys2Proof.Machine.execXwait a b c s
  | .xwaitTest a b c => Sys2Proof.Machine.execXwaitTest a b c s
  | .nsend a b c => Sys2Proof.Machine.execNsend a b c s
  | .nsendImm v b c => Sys2Proof.Machine.execNsendImm v b c s
  | .tsend a b c => Sys2Proof.Machine.execTsend a b c s
  | .cred a b c => Sys2Proof.Machine.execCred a b c s
  | .xflush a c => Sys2Proof.Machine.execXflush a c s
  | .prefixedInstruction pfx k => Sys2Proof.Machine.execPrefixedInstruction pfx k s
  | .ill => Sys2Proof.Machine.execIll s
  | .nop => Sys2Proof.Machine.execNop s
  | .exit => Sys2Proof.Machine.execExit s
  | .texit => Sys2Proof.Machine.execTexit s
  | .refill => Sys2Proof.Machine.execRefill s
  | .join => Sys2Proof.Machine.execJoin s
  | .disb => Sys2Proof.Machine.execDisb s
  | .ret => Sys2Proof.Machine.execRet s
  | .uret => Sys2Proof.Machine.execUret s
  | .tret => Sys2Proof.Machine.execTret s
  | .haltc => Sys2Proof.Machine.execHaltc s
  | .cctlL1all => Sys2Proof.Machine.execCctlL1all s
  | .ejectRecordWrite => Sys2Proof.Machine.execEjectRecordWrite s
  | .claimGrant => Sys2Proof.Machine.execClaimGrant s
  | .loadDataReturn => Sys2Proof.Machine.execLoadDataReturn s
  | .matrixStepDone => Sys2Proof.Machine.execMatrixStepDone s
  | .spillAhead => Sys2Proof.Machine.execSpillAhead s
  | .engineCommandStart => Sys2Proof.Machine.execEngineCommandStart s
  | .engineCommandComplete => Sys2Proof.Machine.execEngineCommandComplete s
  | .engineSuspend => Sys2Proof.Machine.execEngineSuspend s
  | .faultRecordWrite => Sys2Proof.Machine.execFaultRecordWrite s
  | .handlerLaunch => Sys2Proof.Machine.execHandlerLaunch s
  | .yieldOverrun => Sys2Proof.Machine.execYieldOverrun s
  | .barrierTimeout => Sys2Proof.Machine.execBarrierTimeout s
  | .blockPlace => Sys2Proof.Machine.execBlockPlace s
  | .clusterPlace => Sys2Proof.Machine.execClusterPlace s
  | .blockRelease => Sys2Proof.Machine.execBlockRelease s
  | .placementStarvation => Sys2Proof.Machine.execPlacementStarvation s
  | .launchComplete => Sys2Proof.Machine.execLaunchComplete s
  | .doorbellWrite => Sys2Proof.Machine.execDoorbellWrite s
  | .launch => Sys2Proof.Machine.execLaunch s
  | .tapePop => Sys2Proof.Machine.execTapePop s
  | .graph => Sys2Proof.Machine.execGraph s
  | .tableLoad => Sys2Proof.Machine.execTableLoad s
  | .tableDisable => Sys2Proof.Machine.execTableDisable s
  | .copy => Sys2Proof.Machine.execCopy s
  | .signalSet => Sys2Proof.Machine.execSignalSet s
  | .signalAdd => Sys2Proof.Machine.execSignalAdd s
  | .signalWait => Sys2Proof.Machine.execSignalWait s
  | .signalStore => Sys2Proof.Machine.execSignalStore s
  | .regionCreate => Sys2Proof.Machine.execRegionCreate s
  | .regionModify => Sys2Proof.Machine.execRegionModify s
  | .regionDestroy => Sys2Proof.Machine.execRegionDestroy s
  | .regionBind => Sys2Proof.Machine.execRegionBind s
  | .tableFiring => Sys2Proof.Machine.execTableFiring s
  | .teamResume => Sys2Proof.Machine.execTeamResume s
  | .leaveWindow => Sys2Proof.Machine.execLeaveWindow s
  | .coreGroupSwapOut => Sys2Proof.Machine.execCoreGroupSwapOut s
  | .coreGroupSwapIn => Sys2Proof.Machine.execCoreGroupSwapIn s
  | .haltRelease => Sys2Proof.Machine.execHaltRelease s
  | .storageError => Sys2Proof.Machine.execStorageError s
  | .publishEntryStore => Sys2Proof.Machine.execPublishEntryStore s
  | .hostRdmaWrite => Sys2Proof.Machine.execHostRdmaWrite s
  | .hostRdmaRead => Sys2Proof.Machine.execHostRdmaRead s
  | .remoteWriteUnit => Sys2Proof.Machine.execRemoteWriteUnit s
  | .remoteRead => Sys2Proof.Machine.execRemoteRead s
  | .remoteIncrement => Sys2Proof.Machine.execRemoteIncrement s
  | .peerRefusal => Sys2Proof.Machine.execPeerRefusal s
  | .flushMarker => Sys2Proof.Machine.execFlushMarker s
  | .flushAck => Sys2Proof.Machine.execFlushAck s
  | .pathDown => Sys2Proof.Machine.execPathDown s
  | .peerPathLoss => Sys2Proof.Machine.execPeerPathLoss s
  | .portTraining => Sys2Proof.Machine.execPortTraining s
  | .ptpMessage => Sys2Proof.Machine.execPtpMessage s
  | .powerOnReset => Sys2Proof.Machine.execPowerOnReset s
  | .resetRequest => Sys2Proof.Machine.execResetRequest s
  | .floorCommand => Sys2Proof.Machine.execFloorCommand s
  | .firmwareUpdate => Sys2Proof.Machine.execFirmwareUpdate s
  | .attestationRequest => Sys2Proof.Machine.execAttestationRequest s
  | .eventLogRead => Sys2Proof.Machine.execEventLogRead s
  | .counterProgram => Sys2Proof.Machine.execCounterProgram s
  | .counterRead => Sys2Proof.Machine.execCounterRead s
  | .sensorPoll => Sys2Proof.Machine.execSensorPoll s
  | .spillTransferComplete => Sys2Proof.Machine.execSpillTransferComplete s
  | .tileTransferComplete => Sys2Proof.Machine.execTileTransferComplete s
  | .publishSyncCopy => Sys2Proof.Machine.execPublishSyncCopy s

end Sys2Proof.Machine
end

