-- ==== Sys2Proof/Machine/Local.lean ====
section
/-!
DEFINITION. What a word touches of its block's scratchpad when it issues, by which the range-overlap scoreboard tells whether an
engine command of its team must come first (R158).
-/
namespace Sys2Proof.Machine

/-- What the selected lanes of an M word touch, `w` bytes each. -/
def State.laneUses (s : State) (write : Bool) (b x u w : Nat) : List LocalUse :=
  (s.laneAddrs b x u w).flatMap (fun a => s.localUse write a.2 w)

/-- What the groups of VLDB and VSTB touch. -/
def State.groupUses (s : State) (write : Bool) (b x u : Nat) : List LocalUse :=
  (s.groupAddrs b x u).flatMap (fun g => s.localUse write g.2.2 64)

/-- Descriptors that a word reads at their addresses (R320). -/
def State.readUses (s : State) (as : List Word64) (n : Nat) : List LocalUse := as.flatMap (fun a => s.localUse false a n)

/-- The addresses that a contribution list of CRED names, as far as it can be read (R335). -/
def State.credList (s : State) (p : Word64) : List Word64 :=
  match s.loadUnit p 8 with
  | .error _ => []
  | .ok n =>
    if 16 < leNat n then []
    else match s.loadUnits (p + 8) 8 (leNat n) with
      | .error _ => []
      | .ok bs => (List.range (leNat n)).map (fun h => BitVec.ofNat 64 (leNat ((bs.drop (8 * h)).take 8)))

/-- What a word without a prefix touches of its block's scratchpad at named addresses. The scalar stack, the spawn area, slots and
tiles have none, and no engine command reaches them (R113, R158). -/
def State.wordUses (s : State) (i : Instr) : List LocalUse :=
  match i with
  | .sld64 _ b o _ => s.localUse false (s.msAddr b o 8) 8
  | .sld32 _ b o _ => s.localUse false (s.msAddr b o 4) 4
  | .sst64 _ b o _ => s.localUse true (s.msAddr b o 8) 8
  | .sst32 _ b o _ => s.localUse true (s.msAddr b o 4) 4
  | .vld8 _ b x _ u => s.laneUses false b x u 1
  | .vld16 _ b x _ u => s.laneUses false b x u 2
  | .vld32 _ b x _ u => s.laneUses false b x u 4
  | .vld64 _ b x _ u => s.laneUses false b x u 8
  | .vst8 _ b x _ u => s.laneUses true b x u 1
  | .vst16 _ b x _ u => s.laneUses true b x u 2
  | .vst32 _ b x _ u => s.laneUses true b x u 4
  | .vst64 _ b x _ u => s.laneUses true b x u 8
  | .vldb _ b x _ u => s.groupUses false b x u
  | .vstb _ b x _ u => s.groupUses true b x u
  | .vatom _ x b _ _ => s.laneUses true b x 0 4
  | .satom _ a _ w _ => s.localUse true (s.getS a) (if w = 1 then 8 else 4)
  | .vhist _ r => s.localUse true (s.getS r) 144
  | .spctl _ a _ => s.localUse false (s.getS a) 144
  | .pbara d => s.localUse true (s.getS d) 16
  | .pbwait d _ _ => s.localUse false (s.getS d) 16
  | .tldDense _ b _ _ | .tldDec _ b _ _ => s.localUse false (s.getS b) 2048
  | .tldPcs _ b _ _ => s.localUse false (s.getS b) 4096
  | .tst _ b | .aqnt _ b _ _ _ => s.localUse true (s.getS b) 2048
  | .xcpy a b _ => s.readUses [s.getS a, s.getS b] 64
  | .xcpyPair a b _ => s.readUses [s.getS a, s.getS a + 64, s.getS b] 64
  | .xgath a b c | .xscat a b c => s.readUses [s.getS a, s.getS b, (s.control c).aux] 64
  | .cred a b _ => s.readUses (s.getS a :: s.credList (s.getS b)) 64 ++ s.readUses (unitAddrs (s.getS b) 8 17) 8
  | .xflush a _ => if a = 255 then [] else s.readUses [s.getS a] 128
  | .xpub a _ _ | .xpubSync a _ _ | .nsend a _ _ => s.readUses [s.getS a] 64
  | .tsend _ _ c => s.readUses [s.getS c] 32
  | _ => []

/-- What a word touches at this issue of it. -/
def State.usesAt (s : State) (i : Instr) (iss : Issue) : List LocalUse :=
  match i with
  | .prefixedInstruction pfx j => ({ s with iss := { iss with pfx := some pfx, len := 8 } } : State).wordUses j
  | i => ({ s with iss := iss } : State).wordUses i

end Sys2Proof.Machine
end

