-- ==== Sys2Proof/Machine/Fetch.lean ====
section
/-!
DEFINITION. The fetch of the team in focus: the word of each occupied plane, the plane checks, the decoding and the issue
it makes (R67..R71, R171, R192 items 1 to 5), and the lookahead breach (R183).
-/
namespace Sys2Proof.Machine

/-- The code word at an offset (R171). Code offset 0 is KHDR + 256 (R382). -/
def State.fetchWord (s : State) (off : Nat) : Except FaultInfo Nat :=
  if s.blk.k.codeSize ≤ off then .error (s.flt .illegalInstruction)
  else
    let va := s.blk.d.khdr + 256 + off
    match s.translate s.teamView .fetch va with
    | .error c => .error (s.fltAt c 0 (BitVec.ofNat 64 va))
    | .ok pa =>
      if s.poisonAt (.dev pa) then .error (s.fltAt .memoryPoison 0 (BitVec.ofNat 64 va))
      else .ok (s.readAt (.dev pa) 4)

/-- The word at an offset, with the word after it if it is a prefix; a failure on that one is PREFIX_MISUSE (R180). -/
def State.fetchPair (s : State) (off : Nat) : Except FaultInfo (List Nat) :=
  match s.fetchWord off with
  | .error f => .error f
  | .ok w =>
    if isPrefixWord w then
      match s.fetchWord ((off + 4) % 2 ^ 32) with
      | .ok w2 => .ok [w, w2]
      | .error _ => .error (s.flt .prefixMisuse)
    else .ok [w]

/-- The instruction of one word or of a prefixed pair. -/
def decodeWords : List Nat → Except Cause Instr
  | [w] => match decodeWord w with | .ok i => .ok i | .error _ => .error .illegalInstruction
  | w1 :: w2 :: _ =>
    match decodePair w1 w2 with
    | .ok i => .ok i
    | .error .misplaced => .error .prefixMisuse
    | .error _ => .error .illegalInstruction
  | [] => .error .illegalInstruction

/-- OP of an instruction: of the word after its prefix (R69). -/
def wordsOp (ws : List Nat) : Nat := ws.getLastD 0 / 2 ^ 25

/-- The plane-variant OPs (R69). -/
def planeVariant (op : Nat) : Bool :=
  (0x3D ≤ op && op ≤ 0x47) || op = 0x4B || op = 0x4C || (0x50 ≤ op && op ≤ 0x5F) || op = 0x65 || op = 0x67 || op = 0x68

/-- The offset of the long-latency instruction whose window some word at this offset breaches (R183). -/
def State.hazardOf (s : State) (wss : List (List Nat)) : Option Word32 :=
  let uses := wss.map (fun ws =>
    match decodeWords ws with | .ok i => regUse (isWide s.ty) s.guardNo i | .error _ => ([], []))
  (s.team.looks.find? (fun x => x.off != s.team.pc && uses.any (fun u => breaches u x))).map LookWindow.off

/-- The issue of one word list over some lanes. -/
def State.issueOf (s : State) (ws : List Nat) (wss : List (List Nat)) (lanes : Mask) (plane : Nat) (next : Option Nat) :
    Except FaultInfo (Instr × Issue) :=
  match decodeWords ws with
  | .error c => .error { s.flt c with plane := plane }
  | .ok i =>
    .ok (i, { lanes := lanes, plane := plane
              pfx := match i with | .prefixedInstruction p _ => some p | _ => none
              len := 4 * ws.length, next := next
              hazard := if wordsOp ws ≤ 0x1E then none else s.hazardOf wss
              word := ws.getLastD 0 })

/-- The plane issue that comes next at a planed offset, of some occupied planes (R71). -/
def Team.issuePlane (t : Team) (planes : List Nat) : Nat :=
  (planes.find? (fun k => t.nextPlane ≤ k)).getD (planes.headD 0)

/-- The offsets of the words that the team in focus fetches: one outside planed regions, else one in the copy of each occupied plane
(R67, R70). -/
def State.fetchOffsets (s : State) : List Nat :=
  let pc := s.team.pc.toNat
  match planedEntry s.blk.k.planes pc with
  | none => if inUpperCopy s.blk.k.planes pc then [] else [pc]
  | some e =>
    if s.team.planes.any (fun k => e.n ≤ k) then []
    else (if s.team.planes.isEmpty then [0] else s.team.planes).map (fun k => (pc + k * e.stride) % 2 ^ 32)

/-- The addresses of the words fetched at some offsets, with the words behind prefixes, up to the first that fails (R180, R192). -/
def State.fetchedVas (s : State) : List Nat → List Nat
  | [] => []
  | off :: rest =>
    let va (off : Nat) : List Nat := if off < s.blk.k.codeSize then [s.blk.d.khdr + 256 + off] else []
    let off2 := (off + 4) % 2 ^ 32
    match s.fetchWord off with
    | .error _ => va off
    | .ok w =>
      if isPrefixWord w then
        (match s.fetchWord off2 with
         | .error _ => va off ++ va off2
         | .ok _ => va off ++ va off2 ++ s.fetchedVas rest)
      else va off ++ s.fetchedVas rest

/-- What the team in focus issues next, or the fault it raises first (R192 items 1 to 5). An issue that covers several
occupied planes names the lowest of them, and a fetch that fails at an offset of differing copies belongs to the plane issue that
comes next, whichever copy fails (R70, R71, R231; log 90). Where a trap return leaves no occupied plane from the one that TWR names
on, the offset begins anew with the lowest (log 122). -/
def State.fetchIssue (s : State) : Except FaultInfo (Instr × Issue) :=
  let t := s.team
  let pc := t.pc.toNat
  match planedEntry s.blk.k.planes pc with
  | none =>
    if inUpperCopy s.blk.k.planes pc then .error (s.flt .planeRange)
    else do
      let ws ← s.fetchPair pc
      s.issueOf ws [ws] t.lanes.active 0 none
  | some e =>
    match t.planes.filter (fun k => e.n ≤ k) with
    | k :: ks =>
      let bad := (k :: ks).foldl (fun m k => m ||| (t.lanes.active &&& t.lanes.inPlane k)) 0
      .error (s.fltAt .planeRange (lowestLane t.size bad) 0)
    | [] => do
      let planes := if t.planes.isEmpty then [0] else t.planes
      let wss ← planes.mapM (fun k => (s.fetchPair ((pc + k * e.stride) % 2 ^ 32)).mapError
        (fun f => { f with plane := t.issuePlane planes }))
      let first := wss.headD []
      if wss.all (fun ws => ws == first) then
        s.issueOf first wss t.lanes.active (planes.headD 0) none
      else if wss.all (fun ws => planeVariant (wordsOp ws)) then
        let todo := (planes.zip wss).filter (fun p => t.nextPlane ≤ p.1)
        match (if todo.isEmpty then planes.zip wss else todo) with
        | (k, ws) :: more =>
          s.issueOf ws wss (t.lanes.active &&& t.lanes.inPlane k) k (more.head?.map Prod.fst)
        | [] => .error (s.flt .illegalInstruction)
      else
        let differ := (planes.zip wss).find? (fun p => p.2 != first)
        .error { s.flt .planeAnchor with plane := (differ.map Prod.fst).getD 0 }

end Sys2Proof.Machine
end

