-- ==== Sys2Proof/Machine/Sched.lean ====
section
/-!
DEFINITION. Time, and which turn is taken when the agenda says nothing: any team that a group scheduler would pick (R394), or
any event that a unit of the module brings about by itself; which of them comes first is a free choice (log 1).
-/
namespace Sys2Proof.Machine

/-- A team that waits with a timeout loses the clk it has waited; a wait whose last clk has gone by without its completion has
timed out (R290). -/
def Team.tick (n : Nat) (t : Team) : Team :=
  match t.phase, t.timeout with
  | .waiting _, some x => if x < n then t.timeOut else { t with timeout := some (x - n) }
  | _, _ => t

/-- The clk that this step takes (log 7): at least one after an event that ends its clk (R290, R353), and no more than to the last clk
of the leave window under way, or from it to the first of the next. -/
def State.stepTime (s : State) : Nat :=
  let n := if s.lastOfClk then max 1 (Config.stepClk s.free) else Config.stepClk s.free
  min n (if s.clk + 1 < s.windowEnd then s.windowEnd - 1 - s.clk else 1)

/-- The clk of teams that stall on leave, or on operands and what was issued before, count at their cores (R158, R395, R445). -/
def State.countStalls (s : State) (n : Nat) : State :=
  s.teams.foldl (fun u t =>
    match t.phase with
    | .stalled (.leave _ _) => u.countEvent t.core 7 (s.placedRid t) n
    | .stalled (.issue _ _) => u.countEvent t.core 8 (s.placedRid t) n
    | _ => u) s

/-- The clk count, the PTP clock and the timeouts of waiting teams go on (R290, R432, log 7). -/
def State.elapse (s : State) : State :=
  let s1 := (s.countStalls s.stepTime).mapTeams (Team.tick s.stepTime)
  { s1 with clk := s.clk + s.stepTime
            hub := { s.hub with ptp := (s.hub.ptp + Config.stepNs s.free) % 2 ^ 64 }
            free := s.free + 1, lastOfClk := false }

/-- Time passes, and where a leave window ends its boundary is handled before anything else happens (R395). -/
def State.tick (s : State) : State :=
  if s.clk + 1 < s.windowEnd then s.elapse
  else if s.elapse.windowDue then s.elapse.closeWindow else s.elapse

/-- The team may issue: it is Ready, on a core that is not halted (R240, R394). -/
def State.canIssue (s : State) (t : Team) : Bool := !s.halted.contains t.core && t.phase == .ready

/-- The team's turn may do something else: it is Waiting with a request to take (R412). -/
def State.canYield (s : State) (t : Team) : Bool :=
  !s.halted.contains t.core && t.pre.pending && match t.phase with | .waiting _ => true | _ => false

/-- The team is held back by work that has been issued, or by its spill engine. -/
def Team.heldBack (t : Team) : Bool := match t.phase with | .stalled .spill => true | .stalled (.issue _ _) => true | _ => false

/-- OP of the next instruction of a team; none where its fetch fails. -/
def State.nextOp (s : State) (t : Team) : Option Nat :=
  match ({ s.focus t.uid with iss := .none } : State).fetchIssue with
  | .ok (_, iss) => some (iss.word / 2 ^ 25)
  | .error _ => none

/-- The team issues in slot A. -/
def State.slotA (s : State) (t : Team) : Bool := (s.nextOp t).any vectorClass

/-- A member of a convocation in which another member waits at a step (R84). -/
def State.awaitedMember (s : State) (t : Team) : Bool :=
  match t.mat.member, s.findBlock t.bid with
  | some m, some b => (b.findConv m.cv).any (fun c => c.issues.any (fun i => i.uid != t.uid))
  | _, _ => false

/-- The team has issued in this clk: it issues no more in it (R17). -/
def State.issuedNow (s : State) (t : Team) : Bool := t.lastIssue = s.clk + 1

/-- A team of this team's section has issued in this clk in the slot that its next instruction takes (R17). -/
def State.slotTaken (s : State) (t : Team) : Bool :=
  s.teams.any (fun u => u.core == t.core && u.section_ == t.section_ && s.issuedNow u && u.lastSlotA == s.slotA t)

/-- The keys of R394: an awaited member, the furthest last issue, placed earlier, the lower TEAMINBLOCK. Teams whose last issues fell in
one clk, in the two slots, tie on the second. -/
def State.before (s : State) (a b : Team) : Bool :=
  let x := s.awaitedMember a
  let y := s.awaitedMember b
  (x && !y) || (x == y && (a.lastIssue < b.lastIssue || (a.lastIssue = b.lastIssue &&
    (a.placed < b.placed || (a.placed = b.placed && a.tib < b.tib)))))

/-- The scheduler of the team's section picks it for its slot, if that is still to be filled in this clk, among the Ready teams that
have not issued in it (R17, R394). -/
def State.picked (s : State) (t : Team) : Bool :=
  s.canIssue t && !s.issuedNow t && !s.slotTaken t && s.teams.all (fun u =>
    u.uid == t.uid || u.core != t.core || u.section_ != t.section_ || !s.canIssue u || s.issuedNow u || s.slotA u != s.slotA t
    || !s.before u t)

/-- The events of a team's own units that may happen now, but for the work ahead of its spill engine. -/
def Team.events (t : Team) : List Instr :=
  let waits : List Instr := match t.phase with
    | .waiting (.claim _ _ _ _) => [.claimGrant]
    | .waiting (.spawnRoom _ _) => [.ejectRecordWrite]
    | .waiting .reclaim => [.teamResume]
    | .suspended => [.teamResume]
    | .stalled .spill => [.spillTransferComplete]
    | _ => []
  let can (c : Bool) (i : Instr) : List Instr := if c then [i] else []
  [can (!t.loads.isEmpty) .loadDataReturn, can (!t.mat.steps.isEmpty) .matrixStepDone,
   can (!t.mat.transfers.isEmpty) .tileTransferComplete, can (t.timeout = some 0) .barrierTimeout, waits].flatten

/-- The work ahead that the spill engine of a team may begin, or do: the spill of a resident granule below B, or the refill of one
below LO (R102). -/
def State.aheadEvents (s : State) (t : Team) : List (Instr × EventArg) :=
  let w := t.win
  let ring := match s.findBlock t.bid with | some b => b.k.ring | none => 0
  match w.spill with
  | .ahead =>
    ((List.range (w.b / 8)).filter (fun g => w.lo ≤ 8 * g && !w.earlyOut.contains g)).map (fun g =>
      (.spillAhead, { value := g }))
    ++ ((List.range (w.lo / 8)).filter (fun g => w.b + w.fs ≤ 8 * g + ring && !w.earlyIn.contains g)).map (fun g =>
      (.spillAhead, { flag := true, value := g }))
    ++ [(.spillAhead, { value := w.b / 8 })]
  | .idle => if t.resident && !s.halted.contains t.core then [(.spillAhead, {})] else []
  | _ => []

/-- The event that performs a command of OPC and SUB (R379). -/
def commandEvent (opc sub : Nat) : Instr :=
  match opc, sub with
  | 1, 1 => .tapePop
  | 2, _ => .graph
  | 3, 0 => .tableLoad
  | 3, _ => .tableDisable
  | 4, _ => .copy
  | 5, 0 => .signalSet
  | 5, 1 => .signalAdd
  | 5, 2 => .signalWait
  | 5, _ => .signalStore
  | 6, 0 => .regionCreate
  | 6, 1 => .regionModify
  | 6, 2 => .regionDestroy
  | 6, _ => .regionBind
  | _, _ => .launch

/-- The commands that the CP may start. -/
def State.queueEvents (s : State) : List (Instr × Nat) :=
  s.queues.filterMap (fun q =>
    let x := q.2
    if x.size = 0 || x.running.isSome || x.head = x.tail then none
    else some (match s.cpRead x.region x.headAddr 64 with
      | some b => (commandEvent (fld b 0 1) (fld b 1 1), q.1)
      | none => (.launch, q.1)))

/-- The events of the engines, the CP and the hub that may happen now, each with the object it names. -/
def State.unitEvents (s : State) : List (Instr × Nat) :=
  let each {α : Type} (xs : List α) (i : Instr) (key : α → Nat) : List (Instr × Nat) := xs.map (fun x => (i, key x))
  let once (c : Bool) (is : List Instr) : List (Instr × Nat) := if c then is.map (fun i => (i, 0)) else []
  let cmds : List (Instr × Nat) := s.cmds.filterMap (fun c => match c.status with
    | .queued => some (Instr.engineCommandStart, c.id)
    | .running | .sent | .releasing _ => some (Instr.engineCommandComplete, c.id)
    | .suspended => none)
  [cmds,
   each s.hub.syncs .publishSyncCopy (fun x => x.1),
   each (s.domains.filter (fun d => !d.waiting.isEmpty)) .faultRecordWrite Domain.rcb,
   each (s.domains.filter (fun d => d.head != d.tail && d.handler.isNone && !d.barred)) .handlerLaunch Domain.rcb,
   once (!s.unplaced.isEmpty) [.blockPlace, .clusterPlace],
   once (!s.unplaced.isEmpty || s.swapping.isSome) [.coreGroupSwapOut],
   each (s.unplaced.filter (fun l => !l.starved)) .placementStarvation Launch.lid,
   each (s.launches.filter s.launchOver) .launchComplete Launch.lid,
   each (s.allBlocks.filter s.blockDone) .blockRelease Block.bid,
   each (s.slots.filter (fun x => x.2.on)) .tableFiring (fun x => x.1),
   once (!s.hearths.isEmpty) [.coreGroupSwapIn],
   once s.windowDue [.leaveWindow],
   s.queueEvents].flatten

/-- The turns that could be taken now; some of them may turn out to do nothing. -/
def State.candidates (s : State) : List Turn :=
  (s.teams.filter (fun t => s.picked t || s.canYield t)).map (fun t => Turn.issue t.uid)
  ++ s.teams.flatMap (fun t => t.events.map (fun e => Turn.event t.uid e {}))
  ++ s.teams.flatMap (fun t => (s.aheadEvents t).map (fun e => Turn.event t.uid e.1 e.2))
  ++ s.unitEvents.map (fun e => Turn.event 0 e.1 { id := e.2 })

/-- The turn taken when the agenda is empty: a free choice. -/
def State.nextTurn (s : State) : Option Turn :=
  let cs := s.candidates
  cs[Config.free s.free % cs.length]?

end Sys2Proof.Machine
end

