-- ==== Sys2Proof/Machine/Turn.lean ====
section
/-!
DEFINITION. One turn of the agenda: a team issues one instruction, or an event happens; and the parts of the program that
`State.withFetchWord` places.
-/
namespace Sys2Proof.Machine

/-- An event, as opposed to an instruction word. -/
def isEvent (i : Instr) : Bool :=
  match i with
  | .prefixedInstruction _ _ => false
  | i => (encodeWord i).isNone

/-- The event that must come before an issue happens, in the team where it does. -/
def runBlocker (s : State) (b : Nat × Instr × Nat) : Host.Outcome State Fault Refusal :=
  if isEvent b.2.1 then exec b.2.1 { s.focus b.1 with arg := { id := b.2.2 }, iss := .none } else .next s

/-- Run what `fetchIssue` found, unless something must come first (R158, R182): then the team is Stalled, and that happens in
this step (log 9). -/
def runIssue (s : State) (i : Instr) (iss : Issue) : Host.Outcome State Fault Refusal :=
  let op := iss.word / 2 ^ 25
  let uses := s.usesAt i iss
  match s.blocker op uses with
  | none =>
    (match exec i { s with iss := iss } with
     | .next t => .next (countIssue s op t)
     | o => o)
  | some b => runBlocker (s.stall (.issue op uses)) b

/-- A fetch leaves its mark on TLBs and caches: of each word fetched, one access a sector (R402). -/
def State.noteFetch (s : State) : State :=
  (oneASector (s.fetchedVas s.fetchOffsets)).foldl (fun t a => t.noteVa t.teamView .fetch a) s

/-- A fault of the fetch is precise: what was issued before, apart from loads in an open window, comes first (R10). -/
def runFetchFault (s : State) (f : FaultInfo) : Host.Outcome State Fault Refusal :=
  match s.blocker 0x7F [] with
  | none => .next (takeFault f s.noteFetch)
  | some b => runBlocker (s.stall (.issue 0x7F [])) b

/-- The team in focus issues: the watchdog first (R226), then fetch and decode, then the instruction. -/
def issueFocused (s : State) : Host.Outcome State Fault Refusal :=
  if s.team.deadline.any (fun d => d.1 ≤ d.2) then exec .yieldOverrun s
  else
    let s := { s with iss := .none }
    match s.fetchIssue with
    | .error f => runFetchFault s f
    | .ok (i, iss) => runIssue s.noteFetch i iss

/-- What holds back the team in focus ends, if it can (R103, R158). -/
def releaseFocused (s : State) : Host.Outcome State Fault Refusal :=
  match s.team.phase with
  | .stalled (.issue op uses) => (match s.blocker op uses with | some b => runBlocker s b | none => .next s)
  | _ => exec .spillTransferComplete s

/-- Take one turn. A team that is Waiting takes a pre-emption request (R412), once the data of its loads has returned, for what was
issued comes first (log 108); a Ready one that was Held in the save call of a wait goes back to that wait, or to the call of its
restore routine (R415). -/
def takeTurn (s : State) : Turn → Host.Outcome State Fault Refusal
  | .issue uid =>
    let s := s.focus uid
    if s.team.uid ≠ uid then .next s
    else if s.canIssue s.team then (if s.team.pre.held.isSome then .next s.takeHeld else issueFocused s)
    else if s.canYield s.team then (if s.team.loads.isEmpty then .next s.preemptWait else exec .loadDataReturn s)
    else if s.team.heldBack then releaseFocused s
    else .next s
  | .event uid e arg => if isEvent e then exec e { s.focus uid with arg := arg, iss := .none } else .next s

/-- A turn is a reset (R435). -/
def Turn.isReset : Turn → Bool
  | .event _ .powerOnReset _ => true
  | .event _ .resetRequest _ => true
  | _ => false

/-- One step of a module that is shut down: turns go by until a reset (R442). -/
def downStep (s : State) : Host.Outcome State Fault Refusal :=
  match s.agenda with
  | [] => .fault .shutDown
  | t :: rest => if t.isReset then takeTurn { s with agenda := rest } t else .next { s with agenda := rest }

/-! ### A program placed for the next step (log 8) -/

/-- The kernel that `withFetchWord` launches: one system team of 32 lanes, entry at offset 0. -/
def loaderKernel : Kernel :=
  { Kernel.absent with codeSize := 8, ring := 32, maxDepth := 15, yieldMax := 65535, sstack := 2048, spad := 65536
                       slots := 32, accs := 16, bars := 16 }

/-- The launch descriptor of that kernel: its header at virtual address 0. -/
def loaderDesc : LaunchDesc :=
  { LaunchDesc.absent with rcb := 0x1000, gridX := 1, gridY := 1, gridZ := 1, clX := 1, clY := 1, clZ := 1, priv := true
                           ccount := 64 }

/-- The partition it runs in. -/
def loaderRegion : Region :=
  { rcb := 0x1000, parent := 0, ptroot := 0x200000, ovr := 0, prio := 0, priv := true, cgmask := 0xFFF, rid := 1
    lanes := 0xFFFFFFFF, spadKb := 0xFFFFFFFF, slotCap := 96, accCap := 96, hbmSh := 1024, linkSh := 1024, pwrSh := 1024
    acBase := 0, acCount := 1024, fqSize := 16, fdKernel := 0, fqBase := 0x300000 }

end Sys2Proof.Machine
end

