-- ==== Sys2Proof/Machine/Step.lean ====
section
/-!
DEFINITION. One step of the module: waits that have ended end, time passes, and one turn is taken.
-/
namespace Sys2Proof.Machine

/-- One step of the module. -/
def step (s : State) : Host.Outcome State Fault Refusal :=
  if s.amc.status = .down then downStep s
  else
    let s1 := s.settle.tick
    match s1.agenda with
    | t :: rest => takeTurn { s1 with agenda := rest } t
    | [] => match s1.nextTurn with | some t => takeTurn s1 t | none => .next s1

/-- `s` with the words of one instruction loaded as the next to run: a launch of one team is resident and in focus (R63),
its code at virtual address 256 through one 64 GiB page, and its turn stands first on the agenda. Nothing cached or poisoned
stands in the way of the fetch. -/
def State.withFetchWord (s : State) (nbits w : Nat) : State :=
  let n := s.nextId
  let mem := storeLe (storeLe (storeLe s.mem 0x200000 8 0x202001) 0x202000 8 0x11F) 0x100 8 (w % 2 ^ nbits % 2 ^ 64)
  { s with
    mem := mem
    nextId := n + 4
    regions := loaderRegion :: s.regions.filter (fun r => r.rcb ≠ loaderRegion.rcb)
    domains := { rcb := loaderRegion.rcb, defined := true, fqSize := loaderRegion.fqSize, fqBase := loaderRegion.fqBase
                 fdKernel := loaderRegion.fdKernel, head := 0, tail := 0, waiting := [], open_ := [], nextTicket := 0
                 handler := none, barred := false } :: s.domains.filter (fun d => d.rcb ≠ loaderRegion.rcb)
    launches := { lid := n, source := 0, from_ := .handler 0, k := loaderKernel, d := loaderDesc
                  recRcb := loaderRegion.rcb, next := 1, ready := true, status := 0, waitSince := none
                  starved := false, closing := none, readySeq := n, disc := 0 } :: s.launches
    clusters := { cid := n + 1, lid := n, index := 0, tag := 1, group := 0, size := 1, cores := [0], barC := []
                  barArr := [] } :: s.clusters
    caches := { s.caches with tlb := s.caches.tlb.filter (fun e => e.rid ≠ loaderRegion.rid)
                              coded := s.caches.coded.filter (fun x => x.line ≠ 1) }
    poison := setDel s.poison 4
    others := if s.team.uid = 0 then s.others else s.team :: s.others
    blocks := if s.blk.bid = 0 then s.blocks else s.blk :: s.blocks
    blk := { Block.absent with bid := n + 2, lid := n, cid := n + 1, tag := 1, rcb := loaderRegion.rcb, k := loaderKernel
                               d := loaderDesc, fresh := 32, ended := false, eff := some loaderRegion
                               prid := loaderRegion.rid
                               dom := some ⟨loaderRegion.rcb, loaderRegion.fqSize, loaderRegion.fqBase, loaderRegion.ptroot, loaderRegion.rid⟩
                               pwr := [loaderRegion.pwrSh] }
    team := { Team.absent with
              uid := n + 3, bid := n + 2, lid := n, rcb := loaderRegion.rcb, system := true, phase := .ready
              lanes := { Team.absent.lanes with active := firstLanes 32 }
              regs := { Team.absent.regs with v := (List.range 31).map (fun l => (l + 1, BitVec.ofNat 32 (l + 1))) } }
    amc := { s.amc with status := .ready }
    halted := setDel s.halted 0
    agenda := .issue (n + 3) :: s.agenda }

end Sys2Proof.Machine
end

