-- ==== Sys2Proof/Safety.lean ====
section
/-!
DEFINITION. What counts as a safe run, and the predicates that the statements share: the invariant of the stores, a step
that goes on, an instruction that took effect, unchanged memory, and which instructions a statement is about.
-/
namespace Sys2Proof

open Sys2Proof.Machine

/-- The step answers a next state. -/
def steps (s t : State) : Prop := step s = .next t

/-- The stores of the module's memory are in canonical form. -/
def memInv (s : State) : Bool := Memory.wf s.mem && smWf (0 : SideBand) s.memSide && smWf (0 : Byte) s.hub.publish

/-- The register files and the scalar stack of a team are in canonical form. -/
def teamWf (t : Team) : Bool :=
  smWf (0 : Word32) t.regs.v && smWf (0 : SideBand) t.regs.side && smWf (0 : Word64) t.regs.s && smWf (0 : Mask) t.regs.p
    && smWf (0 : Word64) t.sstack

/-- The scratchpad of a block is in canonical form. -/
def blockWf (b : Block) : Bool := smWf (0 : Byte) b.spad && smWf (0 : SideBand) b.spadSide

/-- Every sparse store of bytes and registers is in canonical form: keys strictly rising, no entry equal to what an
unlisted key reads as. -/
def storesWf (s : State) : Bool :=
  memInv s && (s.team :: s.others).all teamWf && (s.blk :: s.blocks).all blockWf

/-- The instruction took effect: its issue was counted (R394), and no fault was taken in its stead. -/
abbrev tookEffect (s t : State) : Prop := t.issued = s.issued + 1

/-- Every byte and every side-band of memory and of every scratchpad reads as before. -/
def sameBytes (s t : State) : Prop := ∀ p : Place, t.byteAt p = s.byteAt p ∧ t.sideAt p = s.sideAt p

/-- The bytes of the word `w` stand at a code offset below CODESIZE, and can be fetched (R171). -/
def codeWordAt (s : State) (off w : Nat) : Prop :=
  off < s.blk.k.codeSize ∧ w < 4294967296 ∧
  ∃ pa, s.translate s.teamView .fetch (s.blk.d.khdr + 256 + off) = .ok pa ∧ s.poisonAt (.dev pa) = false
    ∧ s.bytesAt (.dev pa) 4 = wordBytes w

/-- The issue of an instruction over all active lanes, outside planed regions (R67, R70). -/
def plainIssue (s : State) (p : Option Prefix) (len : Nat) (hazard : Option Word32) (w : Nat) : Issue :=
  { lanes := s.team.lanes.active, plane := 0, pfx := p, len := len, next := none, hazard := hazard, word := w }

/-- The destination of a scalar arithmetic word (R242..R244). -/
def scalarDest : Instr → Option Nat
  | .sadd d _ _ | .ssub d _ _ | .smul d _ _ | .smulh d _ _ | .sdiv d _ _ | .sdivu d _ _ | .srem d _ _ | .sremu d _ _
  | .sand d _ _ | .sor d _ _ | .sxor d _ _ | .sandn d _ _ | .sshl d _ _ | .sshr d _ _ | .ssra d _ _ | .srotr d _ _
  | .smin d _ _ | .smax d _ _ | .sminu d _ _ | .smaxu d _ _ | .sslt d _ _ | .ssltu d _ _ | .sseq d _ _ | .ssne d _ _
  | .ssel d _ _ | .sselz d _ _ | .spopc d _ | .sclz d _ | .sctz d _ | .sbrev d _ | .saddi d _ _ | .sandi d _ _
  | .sori d _ _ | .sxori d _ _ | .sshli d _ _ | .sshri d _ _ | .ssrai d _ _ | .sslti d _ _ | .sli d _ | .slui d _ => some d
  | _ => none

/-- The division words (R243). -/
def isDivision : Instr → Bool
  | .sdiv _ _ _ | .sdivu _ _ _ | .srem _ _ _ | .sremu _ _ _ => true
  | _ => false

/-- The privileged words (R208). -/
def isPrivileged : Instr → Bool
  | .tret | .haltc | .psrd _ _ | .pswr _ _ | .pswrFqhead _ | .fdactRestart _ | .fdactEnd _ | .fdactRespill _
  | .tlbiPage _ | .tlbiRegion _ => true
  | _ => false

/-- The checks that words with vector operands share hold (R90, R97, R177, R183): even registers for 64-bit operands, a
type that the word lists, no lookahead breach, every named register in the frame. -/
abbrev vecReady (s : State) (typeOk srcWide : Bool) (srcs : List Nat) (dstWide : Bool) (dst : List Nat) : Prop :=
  evenOk srcWide srcs = true ∧ evenOk dstWide dst = true ∧ typeOk = true ∧ s.iss.hazard = none
    ∧ s.windowOk srcWide srcs = true ∧ s.windowOk dstWide dst = true

/-- The next state of a lane-wise vector word with destination `d` that gives lane `l` the image and flags `f l`. -/
def vecDone (s : State) (wide : Bool) (d : Nat) (f : Nat → LaneOut) : State :=
  (s.writeLanes wide d (s.laneResults f)).retireSr

/-- A lane's image and flags from one result per element: lane, element, random value (R45). -/
def elemwiseAt (s : State) (op : Nat → Nat → Nat → LaneOut) (l : Nat) : LaneOut := s.elemwise (op l) l

/-- The same, for elements of another type `u` (R254). -/
def elemwiseAs (s : State) (u : Nat) (op : Nat → Nat → Nat → LaneOut) (l : Nat) : LaneOut :=
  let rs := (List.range (elemCount u)).map (fun j => op l j (s.random l j))
  (joinElems u (fun j => (rs.getD j (0, 0)).1), flagsOr (rs.map Prod.snd))

/-- The value and flags of the subtree of VRED over lanes `i .. i + 2^n - 1`, the lower half on the left (R261). -/
def redTree (op : Nat → Nat → Nat × Byte) (leaf : Nat → Option Nat) : Nat → Nat → Option Nat × Byte
  | 0, i => (leaf i, 0)
  | n + 1, i =>
    let l := redTree op leaf n i
    let r := redTree op leaf n (i + 2 ^ n)
    let c := combineAbsent op l.1 r.1
    (c.1, l.2 ||| r.2 ||| c.2)

/-- VRED over the first `w` passes: the trees of the passes, ascending (R261). -/
def redPasses (op : Nat → Nat → Nat × Byte) (leaf : Nat → Option Nat) : Nat → Option Nat × Byte
  | 0 => (none, 0)
  | w + 1 =>
    let l := redPasses op leaf w
    let r := redTree op leaf 5 (32 * w)
    let c := combineAbsent op l.1 r.1
    (c.1, l.2 ||| r.2 ||| c.2)

/-- Operand `i` of a pass after `n` levels of VSCAN (R262). -/
def scanTree (op : Nat → Nat → Nat) (leaf : Nat → Option Nat) : Nat → Nat → Option Nat
  | 0, i => leaf i
  | n + 1, i =>
    if 2 ^ n ≤ i then
      match scanTree op leaf n (i - 2 ^ n), scanTree op leaf n i with
      | some x, some y => some (op x y)
      | some x, none => some x
      | none, y => y
    else scanTree op leaf n i

/-- The carry of VSCAN into pass `w`: what the highest selected lane of the passes before it was given, or the carry-in
(R262). -/
def scanCarry (op : Nat → Nat → Nat) (leaf : Nat → Option Nat) (c : Nat) : Nat → Nat
  | 0 => c
  | w + 1 =>
    let pass (i : Nat) : Option Nat := leaf (32 * w + i)
    match ((List.range 32).filter (fun i => (pass i).isSome)).getLast? with
    | none => scanCarry op leaf c w
    | some i => op (scanCarry op leaf c w) ((scanTree op pass 5 i).getD 0)

/-- What VSCAN gives lane `l` (R262). -/
def scanLane (op : Nat → Nat → Nat) (leaf : Nat → Option Nat) (c l : Nat) : Nat :=
  op (scanCarry op leaf c (l / 32)) ((scanTree op (fun i => leaf (32 * (l / 32) + i)) 5 (l % 32)).getD 0)

/-- Bytes that a store writes as it says: HBM outside the publish window, whose table has rules of its own (R403), or the
scratchpad of a block that exists. -/
def ordinary (s : State) (p : Place) (n : Nat) : Prop :=
  match p with
  | .dev pa => pa + n ≤ pubBase ∨ pubBase + pubSize ≤ pa
  | .spad bid _ => (s.findBlock bid).isSome = true

/-- Two places lie in one sector (R28). -/
abbrev sameSector : Place → Place → Prop
  | .dev a, .dev b => a / 64 = b / 64
  | .spad x a, .spad y b => x = y ∧ a / 64 = b / 64
  | _, _ => False

/-- What an atomic leaves in memory for the old value `m`, data `d` and compare value `c` (R281). -/
def atomWord {w : Nat} (o : Nat) (m d c : BitVec w) : BitVec w :=
  match o with
  | 0 => m + d
  | 1 => m - d
  | 2 => if d.slt m then d else m
  | 3 => if m.slt d then d else m
  | 4 => if d.ult m then d else m
  | 5 => if m.ult d then d else m
  | 6 => m &&& d
  | 7 => m ||| d
  | 8 => m ^^^ d
  | 9 => d
  | 10 => if m = c then d else m
  | 11 => BitVec.ofNat w (binary32.add 0 0 m.toNat d.toNat).1
  | 12 => BitVec.ofNat w (binary32.minMax false m.toNat d.toNat).1
  | 13 => BitVec.ofNat w (binary32.minMax true m.toNat d.toNat).1
  | _ => BitVec.ofNat w ((bfloat16.add 0 0 (m.toNat % 2 ^ 16) (d.toNat % 2 ^ 16)).1
      + (bfloat16.add 0 0 (m.toNat / 2 ^ 16 % 2 ^ 16) (d.toNat / 2 ^ 16 % 2 ^ 16)).1 * 2 ^ 16)

/-- What a word with vector operands is checked for: the registers it names as even pairs, its other vector registers, and
whether it lists the type of the mode register (R90, R97, R177). -/
structure VecForm where
  pairs : List Nat
  singles : List Nat
  types : Bool
  deriving DecidableEq, Repr

/-- Registers of which each holds a 64-bit element or none: pairs under a 64-bit type. -/
def elemForm (t : Nat) (ns : List Nat) (types : Bool) : VecForm :=
  if isWide t then ⟨ns, [], types⟩ else ⟨[], ns, types⟩

/-- The checks of every word that writes or reads vector registers lane by lane or group by group (R249..R274), loads and
stores apart. -/
def vecForm (s : State) (i : Instr) : Option VecForm :=
  let t := s.ty
  let special := isFloat t && t ≠ 13
  match i with
  | .vadd d a b | .vsub d a b | .vmul d a b | .vmin d a b | .vmax d a b | .vabsd d a b | .vdiv d a b | .vand d a b
  | .vor d a b | .vxor d a b | .vandn d a b | .vsel d a b _ => some (elemForm t [d, a, b] true)
  | .vmulh d a b | .vrem d a b | .vaddsat d a b | .vsubsat d a b | .vavg d a b | .vshl d a b | .vshr d a b | .vsra d a b
  | .vrotr d a b => some (elemForm t [d, a, b] (isInt t))
  | .vcopysign d a b => some (elemForm t [d, a, b] (isFloat t))
  | .vfma d a b | .vfms d a b | .vfnma d a b => some (elemForm t [d, a, b, s.cReg d] true)
  | .vfmas d a _ => some (elemForm t [d, a, s.cReg d] true)
  | .vandi d a _ | .vori d a _ | .vmov d a | .vneg d a | .vabs d a | .vnot d a | .vadds d a _ | .vmuls d a _
  | .vmins d a _ | .vmaxs d a _ => some (elemForm t [d, a] true)
  | .vaddi d a _ | .vmuli d a _ | .vshli d a _ | .vshri d a _ | .vsrai d a _ | .vrotri d a _ | .vshls d a _ | .vshrs d a _
  | .vpopc d a | .vclz d a => some (elemForm t [d, a] (isInt t))
  | .vsext8 d a | .vsext16 d a => some (elemForm t [d, a] (t ≤ 1))
  | .vrcp d a | .vrsq d a | .vsqrt d a | .vexp2 d a | .vlog2 d a | .vsin d a | .vcos d a
  | .vtanh d a => some (elemForm t [d, a] special)
  | .vmovi d _ | .vbcast d _ => some (elemForm t [d] true)
  | .vcvt d a u =>
    let x := elemForm t [a] true
    let y := elemForm u [d] true
    some ⟨x.pairs ++ y.pairs, x.singles ++ y.singles, cvtSet t = cvtSet u⟩
  | .vcmp _ a b c _ => some (elemForm t [a, b] (!isPacked t && (isFloat t || c < 6)))
  | .vcmps _ a _ c _ => some (elemForm t [a] (!isPacked t && (isFloat t || c < 6)))
  | .vshfl d a b | .vshflTeam d a b =>
    let x := elemForm t [d, a] true
    some { x with singles := x.singles ++ [b] }
  | .vscan d a _ f => some (if f = 4 then ⟨[d, a], [], true⟩ else ⟨[], [d, a], true⟩)
  | .vred a _ f => some ⟨[], [a], !(f = 2 || f = 3) || t ≤ 2⟩
  | .visect d a b => some ⟨[], [d, a, b], t ≤ 1⟩
  | .vlane d _ => some ⟨[], [d], true⟩
  | .vhist a _ => some ⟨[], [a], true⟩
  | .vnzs d a _ _ | .vbmax d a | .vscsel d a _ | .vqnt d a _ | .vdq d a _ | .vpack d a _ _ | .vunpk d a _ _ | .vreq d a _
  | .vsideRd d a | .vsideWr d a => some ⟨[], [d, a], true⟩
  | _ => none

/-- The table of R125: address `y`, which lane `l` passes through the tag, owner and range rules of R121, in space `t`, or
the fault that a policy of 0 raises. -/
def castValue (s : State) (t y l : Nat) : Except Cause Nat :=
  let sp := y / 2 ^ 56
  let mine := s.team.tib * s.team.size + l
  let lo := s.blk.pbase + mine * s.blk.d.privSz
  let owner (b : Block) (off : Nat) : Nat := (if b.twin = true ∧ b.k.spad / 2 ≤ off then b.core + 1 else b.core) % 16
  let priv (off : Nat) := 0xF0 * 2 ^ 56 + mine * 2 ^ 44 + s.blk.tag * 2 ^ 36 + off
  let spad (off : Nat) := 0xF1 * 2 ^ 56 + owner s.blk off * 2 ^ 52 + s.blk.tag * 2 ^ 44 + off
  let shared (b : Block) (off : Nat) := 0xF2 * 2 ^ 56 + owner b off * 2 ^ 52
    + ((s.findCluster s.blk.cid).map Cluster.tag).getD 0 * 2 ^ 44 + b.rank * 2 ^ 21 + off
  match s.checkOwner y 1 l with
  | .error c => .error c
  | .ok g =>
    if t = 0 ∧ sp = 0 then .ok y
    else if t = 0 ∧ sp = 0xF0 then .ok (lo + y % 2 ^ 32)
    else if t = 1 ∧ sp = 0 ∧ lo ≤ y ∧ y < lo + s.blk.d.privSz then .ok (priv (y - lo))
    else if t = 1 ∧ sp = 0xF0 then .ok (priv (y % 2 ^ 32))
    else if t = 2 ∧ sp = 0xF1 then .ok (spad (y % 2 ^ 21))
    else if t = 3 ∧ sp = 0xF1 then .ok (shared s.blk (y % 2 ^ 21))
    else
      match g with
      | .spad bid off =>
        if t = 2 ∧ sp = 0xF2 then (if bid = s.blk.bid then .ok (spad off) else .error .spaceForeign)
        else if t = 3 ∧ sp = 0xF2 then
          (match s.findBlock bid with
           | some b => .ok (shared b off)
           | none => .error .spaceStale)
        else .error .spaceInvalid
      | .va _ => .error .spaceInvalid

end Sys2Proof
end

