-- ==== Sys2Proof/Certificates/Slice0/Obligations.lean ====
section
/-!
DEFINITION. The statements for the provers, each the meaning of one or more rules of the spec over this model.
-/

open Sys2Proof Sys2Proof.Machine

/-- R170, R172..R190: no bit of an encoding is dropped. `Instr.decoded` is the model's: the rows of FDACT share one
word. -/
def Obligations.EncodedInstructionDecodes : Prop :=
  ∀ (i : Instr) (bs rest : List Byte), i.WellFormed → encode i = some bs → decode (bs ++ rest) = .ok (i.decoded, rest)

/-- R172, R191: each word has one meaning; reserved bits and codes are refused. -/
def Obligations.DecodedWordReencodes : Prop :=
  ∀ (w : Nat) (i : Instr), w < 4294967296 → decodeWord w = .ok i → i.WellFormed ∧ encodeWord i = some w

/-- The worked words of the control-flow chapter (after R208), of R233 and R244. -/
def Obligations.SpecWordsDecode : Prop :=
  decodeWord 0x10000010 = .ok (.setj 16) ∧ decodeWord 0x14200007 = .ok (.brm 1 0 7)
  ∧ decodeWord 0x127FFFFC = .ok (.bru 3 1 0xFFFFC) ∧ decodeWord 0x16800010 = .ok (.eject 4 0 16)
  ∧ decodeWord 0x1A600040 = .ok (.call 3 64) ∧ decodeWord 0x1C224000 = .ok (.calli 1 9)
  ∧ decodeWord 0x1E003C05 = .ok (.calls 30 2) ∧ decodeWord 0x0C000020 = .ok (.enter 32)
  ∧ decodeWord 0x020307D0 = .ok (.yield 3 2000) ∧ decodeWord 0x22000015 = .ok (.plsel 0 1 5)
  ∧ decodeWord 0x20006000 = .ok (.plset 12) ∧ decodeWord 0x20000021 = .ok (.plsetConst 2)
  ∧ decodeWord 0x2A600010 = .ok (.pushm 48 16) ∧ decodeWord 0x2828001A = .ok (.swr 20 0x1A)
  ∧ decodeWord 0x40282A2C = .ok (.sadd 20 21 22) ∧ decodeWord 0x6E280005 = .ok (.sli 20 5)
  ∧ decodeWord 0x76280000 = .ok (.sst64 20 0 0 0) ∧ decodeWord 0x262A0020 = .ok (.srd 21 0x20)
  ∧ decodeWord 0x04000042 = .ok (.trap 0x42) ∧ decodeWord 0 = .ok .ill

/-- R170, R171, R179, R382: `codeWordAt` says that the bytes in memory at a code offset are a word. -/
def Obligations.FetchReadsTheCodeBytes : Prop :=
  ∀ (s : State) (w : Nat) (i : Instr), planedEntry s.blk.k.planes s.team.pc.toNat = none →
    inUpperCopy s.blk.k.planes s.team.pc.toNat = false → codeWordAt s s.team.pc.toNat w →
    (isPrefixWord w = false → decodeWord w = .ok i →
      s.fetchIssue = .ok (i, plainIssue s none 4 (if w / 2 ^ 25 ≤ 0x1E then none else s.hazardOf [[w]]) w)) ∧
    (∀ w2, isPrefixWord w = true → codeWordAt s ((s.team.pc.toNat + 4) % 2 ^ 32) w2 → decodePair w w2 = .ok i →
      s.fetchIssue = .ok (i, plainIssue s (some (decodePrefix w)) 8
        (if w2 / 2 ^ 25 ≤ 0x1E then none else s.hazardOf [[w, w2]]) w2))

/-- R86, R171, R192: the per-instruction statements reach a run through this one. The agenda is the model's (log 1),
and that what must come first happens in the same step is (log 9). A team with the wait of a faulted save call to take
up again spends its turn, an issue slot, on that (R86, R415, log 105). -/
def Obligations.StepRunsTheFetchedInstruction : Prop :=
  ∀ (s : State) (uid : Nat) (rest : List Turn), s.amc.status ≠ .down → s.settle.tick.agenda = .issue uid :: rest →
    let u := ({ s.settle.tick with agenda := rest } : State).focus uid
    u.team.uid = uid → u.canIssue u.team = true → u.team.pre.held = none → u.team.deadline.any (fun d => d.1 ≤ d.2) = false →
    let v : State := { u with iss := .none }
    (∀ i iss, v.fetchIssue = .ok (i, iss) →
      let x := v.noteFetch
      let op := iss.word / 2 ^ 25
      let uses := x.usesAt i iss
      (∀ t, x.blocker op uses = none → exec i { x with iss := iss } = .next t →
        step s = .next (countIssue x op t)) ∧
      (∀ b, x.blocker op uses = some b → step s = runBlocker (x.stall (.issue op uses)) b)) ∧
    (∀ f, v.fetchIssue = .error f → v.blocker 0x7F [] = none → step s = .next (takeFault f v.noteFetch))

/-- R435: reset writes zeros to memory. The canonical form is the model's. -/
def Obligations.ResetStoresAreCanonical : Prop :=
  storesWf State.reset = true ∧ ∀ pa, State.reset.byteAt (.dev pa) = 0 ∧ State.reset.sideAt (.dev pa) = 0

/-- The invariant of the stores, over every instruction and every event; that reset has it is ResetStoresAreCanonical.
-/
def Obligations.StepKeepsStoresCanonical : Prop :=
  ∀ s t : State, storesWf s = true → steps s t → storesWf t = true

/-- R230, R231 (the deliver procedure). The clauses on `tlooks`, `looks`, `tsr` and `srDue` are the model's (log 40,
DEDUCED): R230 does not list what they put aside. That a wait whose save call faulted is put aside too (`trapped`) is
R415, read with log 105. -/
def Obligations.TrapEntryDelivery : Prop :=
  ∀ (s : State) (f : FaultInfo) (entry : Nat), s.blk.k.trapEntry = some entry → s.team.trap.inTrap = false →
    s.team.phase ≠ .held → f.spill = false → deliverable s.team.system f.cause = true →
    let t := takeFault f s
    t.team.pc = BitVec.ofNat 32 entry ∧ t.team.nextPlane = 0 ∧ t.team.phase = .ready
    ∧ t.team.trap.info = f.cause.code + f.plane * 2 ^ 8 + f.lane * 2 ^ 16 + 2 ^ 31 + f.code * 2 ^ 32
    ∧ t.team.trap.off = BitVec.ofNat 64 f.restart.toNat ∧ t.team.trap.addr = f.addr ∧ t.team.trap.inTrap = true
    ∧ t.team.trap.tmask = s.team.lanes.active ∧ t.team.trap.tjd = s.team.lanes.stack.length
    ∧ t.team.trap.tdep = s.team.win.depth ∧ t.team.trap.tpl = f.plane ∧ t.team.trap.tcont = s.team.win.cont
    ∧ t.team.trap.tcontLast = s.team.win.contLast ∧ t.team.trap.twr = false
    ∧ t.team.trap.tlooks = s.team.looks ∧ t.team.looks = [] ∧ t.team.trap.tsr = s.team.srDue ∧ t.team.srDue = false
    ∧ t.team.win = { s.team.win with cont := false } ∧ t.team.lanes = s.team.lanes ∧ t.team.regs = s.team.regs
    ∧ t.team.sp = s.team.sp ∧ t.team.mat = s.team.mat ∧ sameBytes s t
    ∧ t.team.pre = { s.team.pre with held := none, trapped := s.team.pre.held }
    ∧ ((∀ w, s.team.phase ≠ .waiting w) → t.team.deadline = s.team.deadline ∧ t.blk = s.blk)

/-- R373, R374, R375; the record is written when a slot is free (FAULT_RECORD_WRITE). That a team already Held keeps
its first fault and queues a further record is the model's (log 77, DEDUCED). The domain values are those of the
placement (R371). -/
def Obligations.FaultDomainDelivery : Prop :=
  ∀ (s : State) (f : FaultInfo) (d : DomRef) (x : Domain),
    (s.blk.k.trapEntry = none ∨ s.team.trap.inTrap = true ∨ s.team.phase = .held ∨ f.spill = true
      ∨ deliverable s.team.system f.cause = false) →
    s.ownHandler = none → s.teamDomain = some d → s.findDomain d.rcb = some x →
    let t := takeFault f s
    let kind := if f.cause = .machineCheck then 2 else 0
    (∃ dl, t.team = { s.team with
        deadline := dl, phase := .held, timeout := none
        fault := if s.team.phase = .held then s.team.fault else some f }
      ∧ ((∀ w, s.team.phase ≠ .waiting w) → dl = s.team.deadline)) ∧ sameBytes s t
    ∧ (x.waiting.length + x.open_.length < 0xFFFFFFFF → ∀ z ∈ x.waiting ++ x.open_, z.ticket ≠ x.freeTicket)
    ∧ ∃ stamp, t.findDomain d.rcb = some { x with
        nextTicket := (x.freeTicket + 1) % 0xFFFFFFFF
        waiting := x.waiting ++ [{
          stamp := stamp, rcb := s.team.rcb, ticket := x.freeTicket, cause := f.cause.code, kind := kind
          restart := restartAllowed f.cause, spill := decide (f.cause = .windowSpillOverflow), teamId := s.team.teamId
          plane := f.plane
          body := natLe f.addr.toNat 8
            ++ (if kind = 0 then natLe f.restart.toNat 4 ++ natLe f.lane 4 else natLe 0 8) ++ natLe 0 16
          uid := some s.team.uid, cmd := none, fqSize := d.fqSize, fqBase := d.fqBase, fqRoot := d.root
          fqRid := d.rid }] }

/-- R10: a precise fault has none of the instruction's effect. -/
def Obligations.FaultsLeaveRegistersAndMemory : Prop :=
  ∀ (s : State) (f : FaultInfo), (takeFault f s).team.regs = s.team.regs ∧ (takeFault f s).team.sp = s.team.sp
    ∧ (takeFault f s).team.sstack = s.team.sstack ∧ sameBytes s (takeFault f s) ∧ (takeFault f s).issued = s.issued

/-- R233 (uret), R207, R208. The emptied active set is R75 and R110, stated with EXIT. That the check of R207 applies
to the return is the model's reading (log 94), and that a TRAPOFF that is no multiple of 4 is no fault is the model's
too (log 101). -/
def Obligations.TrapReturnRestores : Prop :=
  ∀ s : State,
    (s.team.trap.inTrap = false → exec .uret s = .next (takeFault (s.flt .illegalInstruction) s)) ∧
    (s.team.trap.inTrap = true → userDeliverable s.team.trap.cause = false →
      exec .uret s = .next (takeFault (s.flt .privilege) s)) ∧
    (s.team.trap.inTrap = true → userDeliverable s.team.trap.cause = true → s.team.win.depth ≠ s.team.trap.tdep →
      exec .uret s = .next (takeFault (s.flt .windowDepth) s)) ∧
    (s.team.trap.inTrap = true → userDeliverable s.team.trap.cause = true → s.team.win.depth = s.team.trap.tdep →
      s.team.lanes.stack.length ≠ s.team.trap.tjd → exec .uret s = .next (takeFault (s.flt .joinStack) s)) ∧
    (s.team.system = false → exec .tret s = .next (takeFault (s.flt .privilege) s)) ∧
    (s.team.trap.inTrap = true → s.team.win.depth = s.team.trap.tdep → s.team.lanes.stack.length = s.team.trap.tjd →
      s.team.trap.tmask &&& ~~~s.team.lanes.vacant ≠ 0 →
      inUpperCopy s.blk.k.planes (s.team.trap.off.toNat % 2 ^ 32) = true →
      (userDeliverable s.team.trap.cause = true → exec .uret s = .next (takeFault (s.flt .planeRange) s))
      ∧ (s.team.system = true → exec .tret s = .next (takeFault (s.flt .planeRange) s))) ∧
    (s.team.trap.inTrap = true → s.team.win.depth = s.team.trap.tdep → s.team.lanes.stack.length = s.team.trap.tjd →
      s.team.trap.tmask &&& ~~~s.team.lanes.vacant ≠ 0 →
      inUpperCopy s.blk.k.planes (s.team.trap.off.toNat % 2 ^ 32) = false →
      ∃ t, (userDeliverable s.team.trap.cause = true → exec .uret s = .next t)
        ∧ (s.team.system = true → exec .tret s = .next t)
        ∧ tookEffect s t ∧ t.team.lanes = { s.team.lanes with active := s.team.trap.tmask &&& ~~~s.team.lanes.vacant }
        ∧ t.team.trap.inTrap = false ∧ t.team.pc = BitVec.ofNat 32 s.team.trap.off.toNat
        ∧ (s.team.trap.twr = false → t.team.nextPlane = s.team.trap.tpl ∧
            t.team.win = { s.team.win with cont := s.team.trap.tcont, contLast := s.team.trap.tcontLast })
        ∧ (s.team.trap.twr = true → t.team.nextPlane = 0 ∧ t.team.win = { s.team.win with cont := false })
        ∧ t.team.regs = s.team.regs ∧ t.team.sp = s.team.sp ∧ sameBytes s t)

/-- R209 (ILL), R229, R230. That TRAP, a control word, ends every lookahead window before its fault is taken is the
model's reading of R206 (log 40, DEDUCED). What taking the fault does is TrapEntryDelivery and FaultDomainDelivery. -/
def Obligations.IllegalAndTrapWords : Prop :=
  ∀ (s : State) (c : Nat), exec .ill s = .next (takeFault (s.flt .illegalInstruction) s) ∧
    (∀ w, w / 2 ^ 25 = 2 → (w / 2 ^ 16 % 2 ^ 9 = 0 → decodeWord w = .ok (.trap (w % 2 ^ 16))) ∧
      (w / 2 ^ 16 % 2 ^ 9 ≠ 0 → ∃ e, decodeWord w = .error e)) ∧
    ∃ f : FaultInfo, exec (.trap c) s = .next (takeFault f { s with team := { s.team with looks := [] } }) ∧ f.cause = .trapInstruction ∧ f.code = c
      ∧ f.restart = s.team.pc + BitVec.ofNat 32 s.iss.len ∧ f.addr = 0 ∧ f.lane = 0 ∧ f.spill = false
      ∧ deliverable false .trapInstruction = true ∧
      (∀ entry, s.blk.k.trapEntry = some entry → s.team.trap.inTrap = false → s.team.phase ≠ .held →
        ∃ t, exec (.trap c) s = .next t ∧ t.team.pc = BitVec.ofNat 32 entry
          ∧ t.team.trap.off = BitVec.ofNat 64 f.restart.toNat ∧ t.team.trap.code = c)

/-- R208. -/
def Obligations.PrivilegedWordsAtUserLevel : Prop :=
  ∀ (i : Instr) (s : State), isPrivileged i = true → s.team.system = false →
    exec i s = .next (takeFault (s.flt .privilege) s)

/-- R71, R171, R182, R206: the two ends of an instruction that transfers no control. -/
def Obligations.RetireMovesOn : Prop :=
  ∀ s : State,
    (∀ k, s.iss.next = some k → s.retire.team.pc = s.team.pc ∧ s.retire.team.nextPlane = k) ∧
    (s.iss.next = none → s.retire.team.pc = s.team.pc + BitVec.ofNat 32 s.iss.len ∧ s.retire.team.nextPlane = 0) ∧
    s.retireCtl.team.pc = s.team.pc + BitVec.ofNat 32 s.iss.len ∧ s.retireCtl.team.looks = [] ∧
    s.retireCtl.team.nextPlane = 0 ∧ tookEffect s s.retire ∧ tookEffect s s.retireCtl
    ∧ exec .nop s = .next s.retireCtl

/-- R241, R242. A write to sz is discarded: ScalarWordsFrame. -/
def Obligations.ScalarRegisterWords : Prop :=
  ∀ (d a b : Nat) (s : State), s.iss.hazard = none →
    let x := s.getS a
    let y := s.getS b
    let n := y.toNat % 64
    exec (.sadd d a b) s = .next (s.setS d (x + y)).retire ∧
    exec (.ssub d a b) s = .next (s.setS d (x - y)).retire ∧
    exec (.smul d a b) s = .next (s.setS d (x * y)).retire ∧
    exec (.smulh d a b) s = .next (s.setS d (BitVec.ofInt 64 (x.toInt * y.toInt / 18446744073709551616))).retire ∧
    exec (.sand d a b) s = .next (s.setS d (x &&& y)).retire ∧
    exec (.sor d a b) s = .next (s.setS d (x ||| y)).retire ∧
    exec (.sxor d a b) s = .next (s.setS d (x ^^^ y)).retire ∧
    exec (.sandn d a b) s = .next (s.setS d (x &&& ~~~y)).retire ∧
    exec (.sshl d a b) s = .next (s.setS d (x <<< n)).retire ∧
    exec (.sshr d a b) s = .next (s.setS d (x >>> n)).retire ∧
    exec (.ssra d a b) s = .next (s.setS d (x.sshiftRight n)).retire ∧
    exec (.srotr d a b) s = .next (s.setS d (x.rotateRight n)).retire ∧
    exec (.smin d a b) s = .next (s.setS d (if y.slt x then y else x)).retire ∧
    exec (.smax d a b) s = .next (s.setS d (if x.slt y then y else x)).retire ∧
    exec (.sminu d a b) s = .next (s.setS d (if y.ult x then y else x)).retire ∧
    exec (.smaxu d a b) s = .next (s.setS d (if x.ult y then y else x)).retire ∧
    exec (.sslt d a b) s = .next (s.setS d (if x.slt y then 1 else 0)).retire ∧
    exec (.ssltu d a b) s = .next (s.setS d (if x.ult y then 1 else 0)).retire ∧
    exec (.sseq d a b) s = .next (s.setS d (if x = y then 1 else 0)).retire ∧
    exec (.ssne d a b) s = .next (s.setS d (if x = y then 0 else 1)).retire ∧
    exec (.ssel d a b) s = .next (s.setS d (if s.getS d = 0 then y else x)).retire ∧
    exec (.sselz d a b) s = .next (s.setS d (if y = 0 then 0 else x)).retire ∧
    exec (.spopc d a) s = .next (s.setS d x.cpop).retire ∧
    exec (.sclz d a) s = .next (s.setS d x.clz).retire ∧
    exec (.sctz d a) s = .next (s.setS d x.ctz).retire ∧
    exec (.sbrev d a) s = .next (s.setS d x.reverse).retire 

/-- R243, R54. -/
def Obligations.ScalarDivision : Prop :=
  ∀ (d a b : Nat) (s : State), s.iss.hazard = none →
    let x := s.getS a
    let y := s.getS b
    (y = 0 →
      exec (.sdiv d a b) s = .next ((s.setS d (BitVec.allOnes 64)).raise flagIDZ).retire ∧
      exec (.sdivu d a b) s = .next ((s.setS d (BitVec.allOnes 64)).raise flagIDZ).retire ∧
      exec (.srem d a b) s = .next ((s.setS d x).raise flagIDZ).retire ∧
      exec (.sremu d a b) s = .next ((s.setS d x).raise flagIDZ).retire) ∧
    (x = 0x8000000000000000 ∧ y = BitVec.allOnes 64 →
      exec (.sdiv d a b) s = .next ((s.setS d 0x8000000000000000).raise flagIOV).retire ∧
      exec (.srem d a b) s = .next ((s.setS d 0).raise flagIOV).retire) ∧
    (y ≠ 0 → ¬(x = 0x8000000000000000 ∧ y = BitVec.allOnes 64) →
      exec (.sdiv d a b) s = .next (s.setS d (BitVec.ofInt 64 (x.toInt.tdiv y.toInt))).retire ∧
      exec (.srem d a b) s = .next (s.setS d (BitVec.ofInt 64 (x.toInt.tmod y.toInt))).retire) ∧
    (y ≠ 0 →
      exec (.sdivu d a b) s = .next (s.setS d (x / y)).retire ∧
      exec (.sremu d a b) s = .next (s.setS d (x % y)).retire)

/-- R244. -/
def Obligations.ScalarImmediateWords : Prop :=
  ∀ (d a i n : Nat) (s : State), s.iss.hazard = none →
    let x := s.getS a
    let m := (BitVec.ofNat 9 i).signExtend 64
    exec (.saddi d a i) s = .next (s.setS d (x + m)).retire ∧
    exec (.sandi d a i) s = .next (s.setS d (x &&& m)).retire ∧
    exec (.sori d a i) s = .next (s.setS d (x ||| m)).retire ∧
    exec (.sxori d a i) s = .next (s.setS d (x ^^^ m)).retire ∧
    exec (.sshli d a n) s = .next (s.setS d (x <<< n)).retire ∧
    exec (.sshri d a n) s = .next (s.setS d (x >>> n)).retire ∧
    exec (.ssrai d a n) s = .next (s.setS d (x.sshiftRight n)).retire ∧
    exec (.sslti d a i) s = .next (s.setS d (if x.slt m then 1 else 0)).retire ∧
    exec (.sli d i) s = .next (s.setS d ((BitVec.ofNat 17 i).signExtend 64)).retire ∧
    exec (.slui d i) s = .next (s.setS d ((s.getS d <<< 17) + BitVec.ofNat 64 i)).retire

/-- R241, R55, R183: the frame of the scalar words. -/
def Obligations.ScalarWordsFrame : Prop :=
  ∀ (i : Instr) (d : Nat) (s t : State), scalarDest i = some d → storesWf s = true →
    (∀ off, s.iss.hazard = some off →
      exec i s = .next (takeFault (s.fltAt .lookaheadHazard 0 (BitVec.ofNat 64 off.toNat)) s)) ∧
    (s.iss.hazard = none → exec i s = .next t →
      (∀ n, n ≠ d → t.getS n = s.getS n) ∧ t.getS 255 = 0 ∧ t.team.regs.v = s.team.regs.v
      ∧ t.team.regs.side = s.team.regs.side ∧ t.team.regs.p = s.team.regs.p
      ∧ t.team.sp = { s.team.sp with sticky := t.team.sp.sticky, srStream := t.team.sp.srStream }
      ∧ (s.team.srDue = false → t.team.sp.srStream = s.team.sp.srStream)
      ∧ (isDivision i = false → t.team.sp.sticky = s.team.sp.sticky)
      ∧ (∃ f : Byte, (f = 0 ∨ f = flagIDZ ∨ f = flagIOV) ∧ t.team.sp.sticky = s.team.sp.sticky ||| f)
      ∧ t.team.lanes = s.team.lanes ∧ t.team.win = s.team.win ∧ t.team.mat = s.team.mat ∧ t.team.trap = s.team.trap
      ∧ sameBytes s t)

/-- R74, R171, R207, R213, R216, R218. The model's readings: the address that JMPI's ALIGN carries (log 49), what JOIN
does over empty entries and when none is left (log 50), that JOIN_STACK of a splitting BRM comes before its
PLANE_RANGE (log 102), and PLANE_RANGE at a JOIN whose entry resumes in an upper copy (log 94, DEDUCED). -/
def Obligations.BranchesAndSplits : Prop :=
  ∀ (p n o a : Nat) (s : State),
    let x := s.team.lanes
    let tgt := s.team.pc + ((BitVec.ofNat 20 o).signExtend 32 <<< 2)
    let ok := inUpperCopy s.blk.k.planes tgt.toNat = false
    let g := x.active &&& (if n = 1 then ~~~s.getP p else s.getP p)
    let rest := x.active &&& ~~~g
    let ind := BitVec.ofNat 32 (s.getS a).toNat
    (x.stack.length < 32 → exec (.setj o) s =
      .next (s.withLanes { x with stack := ⟨true, tgt, x.active⟩ :: x.stack }).retireCtl) ∧
    (32 ≤ x.stack.length → exec (.setj o) s = .next (takeFault (s.flt .joinStack) s)) ∧
    (g = x.active → ok → exec (.bru p n o) s = .next (s.goTo tgt)) ∧
    (g = x.active → ¬ok → exec (.bru p n o) s = .next (takeFault (s.flt .planeRange) s)) ∧
    (g = 0 → x.active ≠ 0 → exec (.bru p n o) s = .next s.retireCtl) ∧
    (g ≠ 0 → g ≠ x.active → exec (.bru p n o) s = .next (takeFault (s.flt .branchNonuniform) s)) ∧
    (g = 0 → exec (.brm p n o) s = .next s.retireCtl) ∧
    (g ≠ 0 → rest = 0 → ok → exec (.brm p n o) s = .next (s.goTo tgt)) ∧
    (g ≠ 0 → rest ≠ 0 → 32 ≤ x.stack.length → exec (.brm p n o) s = .next (takeFault (s.flt .joinStack) s)) ∧
    (g ≠ 0 → (rest = 0 ∨ x.stack.length < 32) → ¬ok →
      exec (.brm p n o) s = .next (takeFault (s.flt .planeRange) s)) ∧
    (g ≠ 0 → rest ≠ 0 → x.stack.length < 32 → ok → exec (.brm p n o) s =
      .next ((s.goTo tgt).withLanes { x with active := g, stack := ⟨false, s.nextPc, rest⟩ :: x.stack })) ∧
    (ok → exec (.jmp o) s = .next (s.goTo tgt)) ∧
    (¬ok → exec (.jmp o) s = .next (takeFault (s.flt .planeRange) s)) ∧
    (ind.toNat % 4 = 0 → inUpperCopy s.blk.k.planes ind.toNat = false → exec (.jmpi a) s = .next (s.goTo ind)) ∧
    (ind.toNat % 4 = 0 → inUpperCopy s.blk.k.planes ind.toNat = true →
      exec (.jmpi a) s = .next (takeFault (s.flt .planeRange) s)) ∧
    (ind.toNat % 4 ≠ 0 →
      exec (.jmpi a) s = .next (takeFault (s.fltAt .align 0 (BitVec.ofNat 64 ind.toNat)) s)) ∧
    ((∀ e ∈ x.stack.find? (fun e => e.isJoin), e.off ≠ s.team.pc) →
      exec .join s = .next (takeFault (s.flt .joinStack) s)) ∧
    (∀ skipped e below, x.stack = skipped ++ e :: below → (∀ y ∈ skipped, y.mask = 0) → e.mask ≠ 0 →
      (∃ j, x.stack.find? (fun e => e.isJoin) = some j ∧ j.off = s.team.pc) →
      let back := if e.isJoin then e.off + 4 else e.off
      (inUpperCopy s.blk.k.planes back.toNat = false →
        exec .join s = .next ((s.withLanes { x with active := e.mask, stack := below }).goTo back)) ∧
      (inUpperCopy s.blk.k.planes back.toNat = true → exec .join s = .next (takeFault (s.flt .planeRange) s))) ∧
    ((∀ y ∈ x.stack, y.mask = 0) → (∃ j, x.stack.find? (fun e => e.isJoin) = some j ∧ j.off = s.team.pc) →
      exec .join s = exec .texit s)

/-- R75, R96, R109, R110, R207, R210, R211, R214. PLANE_RANGE where an emptied active set resumes is the model's
reading (log 94), and so is which lanes of the J entry go on after a CALLI frame has returned by EXIT (log 41,
DEDUCED). `Window.trim` forgets early spill transfers that hold no longer (R102, log 42). -/
def Obligations.LanesEnd : Prop :=
  ∀ (s : State),
    let x := s.team.lanes
    let left := x.stack.map (fun e => { e with mask := e.mask &&& ~~~x.active })
    (∀ skipped e below jd, left = skipped ++ e :: below ++ jd → (∀ y ∈ skipped, y.mask = 0) → e.mask ≠ 0 →
      (s.team.win.depth = 0 ∧ jd = [] ∨
        s.team.win.depth ≠ 0 ∧ ∃ lk ls, s.team.win.links = lk :: ls ∧ lk.jd = jd.length) →
      let back := if e.isJoin then e.off + 4 else e.off
      (inUpperCopy s.blk.k.planes back.toNat = true → exec .exit s = .next (takeFault (s.flt .planeRange) s)) ∧
      (inUpperCopy s.blk.k.planes back.toNat = false → ∃ t, exec .exit s = .next t ∧ tookEffect s t
        ∧ t.team.lanes = { x with active := e.mask, vacant := x.vacant ||| x.active, stack := below ++ jd }
        ∧ t.team.pc = back ∧ t.team.win = s.team.win ∧ t.team.regs = s.team.regs
        ∧ sameBytes s t)) ∧
    (∀ lk ls dead jd, s.team.win.links = lk :: ls → s.team.win.depth ≠ 0 → left = dead ++ jd → (∀ y ∈ dead, y.mask = 0) →
      jd.length = lk.jd →
      let w := s.team.win
      let caller := ({ w with b := w.b - lk.k, fs := lk.cfs, ov := lk.cov, depth := w.depth - 1, links := ls
                              cont := w.cont || lk.calli
                              contLast := if lk.calli then lk.tv else w.contLast } : Window).trim s.blk.k.ring
      let goesOn (m : Mask) (st : List StackEntry) (pc : Word32) : Prop :=
        ∃ t, exec .exit s = .next t ∧ tookEffect s t ∧ t.team.pc = pc ∧ t.team.win = caller
          ∧ t.team.lanes = { x with active := m, vacant := x.vacant ||| x.active, stack := st }
          ∧ t.team.regs = s.team.regs ∧ sameBytes s t
      (inUpperCopy s.blk.k.planes lk.retOff.toNat = true → exec .exit s = .next (takeFault (s.flt .planeRange) s)) ∧
      (inUpperCopy s.blk.k.planes lk.retOff.toNat = false → w.lo ≤ w.b - lk.k → w.b - lk.k + lk.cfs ≤ w.lo + s.blk.k.ring →
        s.team.pre.saving = none → s.team.pre.restoring = none →
        (lk.calli = true → goesOn ((jd.head?.map StackEntry.mask).getD 0) jd lk.retOff) ∧
        (lk.calli = false → ∀ skipped e below rest, jd = skipped ++ e :: below ++ rest → (∀ y ∈ skipped, y.mask = 0) →
          e.mask ≠ 0 →
          (w.depth = 1 ∧ rest = [] ∨ 2 ≤ w.depth ∧ ∃ lk2 l2, ls = lk2 :: l2 ∧ lk2.jd = rest.length) →
          let back := if e.isJoin then e.off + 4 else e.off
          (inUpperCopy s.blk.k.planes back.toNat = true → exec .exit s = .next (takeFault (s.flt .planeRange) s)) ∧
          (inUpperCopy s.blk.k.planes back.toNat = false → goesOn e.mask (below ++ rest) back)) ∧
        (lk.calli = false → w.depth = 1 → (∀ y ∈ jd, y.mask = 0) →
          ∃ t, exec .exit s = .next t ∧ tookEffect s t ∧ t.team.phase = .ended
            ∧ t.team.lanes.vacant = firstLanes s.team.size ∧ sameBytes s t))) ∧
    (s.team.win.depth = 0 → (∀ y ∈ left, y.mask = 0) →
      ∃ t, exec .exit s = .next t ∧ tookEffect s t ∧ t.team.phase = .ended
        ∧ t.team.lanes.vacant = firstLanes s.team.size ∧ t.team.lanes.active = 0 ∧ t.team.lanes.stack = []
        ∧ t.team.mat.slots = [] ∧ t.team.mat.tiles = [] ∧ t.team.regs = s.team.regs ∧ sameBytes s t) ∧
    (∃ t, exec .texit s = .next t ∧ tookEffect s t ∧ t.team.phase = .ended
      ∧ t.team.lanes.vacant = firstLanes s.team.size ∧ t.team.lanes.active = 0 ∧ t.team.lanes.stack = []
      ∧ t.team.win.depth = 0 ∧ t.team.win.links = [] ∧ t.team.win.fs = 0
      ∧ t.team.mat.slots = [] ∧ t.team.mat.tiles = [] ∧ t.team.regs = s.team.regs ∧ sameBytes s t) ∧
    (s.team.mat.member = none → exec .disb s = .next s.retireCtl)

/-- R75..R80, R212, R217, R410. Which bytes of the spawn area hold a record is the layout of log 31. Which lane gets
which item is free (R79); PLANE_RANGE of the lanes that go on after EJECT is the model's reading (log 94). -/
def Obligations.EjectAndRefill : Prop :=
  ∀ (p n o stn : Nat) (s : State),
    let x := s.team.lanes
    let tgt := s.team.pc + ((BitVec.ofNat 20 o).signExtend 32 <<< 2)
    let g := x.active &&& (if n = 1 then ~~~s.getP p else s.getP p)
    let left := x.stack.map (fun e => { e with mask := e.mask &&& ~~~g })
    let recs (m : Mask) := (lanesOf s.team.size m).map (fun l => s.spawnRecord l stn)
    let vac := (lanesOf s.team.size x.vacant).length
    let mine := s.blk.spawn.filter (fun r => r.stn == stn)
    let given := if s.blk.k.entryStn.any (fun e => s.blk.k.stations[e]? == some s.team.pc.toNat) then min (vac - mine.length) (s.blk.d.items - s.blk.fresh) else 0
    (tgt.toNat ∉ s.blk.k.stations → exec (.eject p n o) s = .next (takeFault (s.flt .stationInvalid) s)) ∧
    (tgt.toNat ∈ s.blk.k.stations → s.team.win.depth ≠ 0 →
      exec (.eject p n o) s = .next (takeFault (s.flt .refillDepth) s)) ∧
    (s.blk.k.stations.findIdx? (fun y => y == tgt.toNat) = some stn → s.team.win.depth = 0 →
      (g = 0 → exec (.eject p n o) s = .next s.retireCtl) ∧
      (g ≠ 0 → (recs g).length + s.blk.spawn.length ≤ s.blk.k.spawn → x.active &&& ~~~g ≠ 0 →
        ∃ t, exec (.eject p n o) s = .next t ∧ tookEffect s t ∧ t.team.pc = s.nextPc
          ∧ t.blk.spawn = s.blk.spawn ++ recs g
          ∧ t.team.lanes = { x with active := x.active &&& ~~~g, vacant := x.vacant ||| g
                                    stack := left }) ∧
      (g ≠ 0 → (recs g).length + s.blk.spawn.length ≤ s.blk.k.spawn → x.active &&& ~~~g = 0 →
        (∀ skipped e below, left = skipped ++ e :: below → (∀ y ∈ skipped, y.mask = 0) → e.mask ≠ 0 →
          let back := if e.isJoin then e.off + 4 else e.off
          (inUpperCopy s.blk.k.planes back.toNat = true →
            exec (.eject p n o) s = .next (takeFault (s.flt .planeRange) s)) ∧
          (inUpperCopy s.blk.k.planes back.toNat = false →
            ∃ t, exec (.eject p n o) s = .next t ∧ tookEffect s t ∧ t.team.pc = back
              ∧ t.blk.spawn = s.blk.spawn ++ recs g
              ∧ t.team.lanes = { x with active := e.mask, vacant := x.vacant ||| g, stack := below })) ∧
        ((∀ y ∈ left, y.mask = 0) →
          ∃ t, exec (.eject p n o) s = .next t ∧ tookEffect s t ∧ t.team.phase = .ended
            ∧ t.blk.spawn = s.blk.spawn ++ recs g ∧ t.team.lanes.active = 0
            ∧ t.team.lanes.vacant = firstLanes s.team.size)) ∧
      (g ≠ 0 → s.blk.k.spawn < (recs g).length + s.blk.spawn.length →
        ∃ t, exec (.eject p n o) s = .next t ∧ tookEffect s t ∧ t.team.phase = .waiting (.spawnRoom g stn)
          ∧ t.team.pc = s.team.pc ∧ t.team.lanes = x ∧ t.blk = s.blk)) ∧
    (∀ m, s.team.phase = .waiting (.spawnRoom m stn) →
      (s.blk.k.spawn < (recs m).length + s.blk.spawn.length → exec .ejectRecordWrite s = .next s) ∧
      ((recs m).length + s.blk.spawn.length ≤ s.blk.k.spawn → x.active &&& ~~~m ≠ 0 →
        ∃ t, exec .ejectRecordWrite s = .next t ∧ t.team.phase = .ready ∧ t.team.pc = s.team.pc + 4
          ∧ t.blk.spawn = s.blk.spawn ++ recs m ∧ t.team.lanes.active = x.active &&& ~~~m
          ∧ t.team.lanes.vacant = x.vacant ||| m)) ∧
    (s.team.pc.toNat ∉ s.blk.k.stations → exec .refill s = .next (takeFault (s.flt .stationInvalid) s)) ∧
    (s.team.pc.toNat ∈ s.blk.k.stations → s.team.win.depth ≠ 0 →
      exec .refill s = .next (takeFault (s.flt .refillDepth) s)) ∧
    (s.team.pc.toNat ∈ s.blk.k.stations → s.team.win.depth = 0 → x.stack ≠ [] →
      exec .refill s = .next (takeFault (s.flt .joinStack) s)) ∧
    (s.blk.k.stations.findIdx? (fun y => y == s.team.pc.toNat) = some stn → s.team.win.depth = 0 → x.stack = [] →
      s.refillBad stn = true → exec .refill s = .next (takeFault (s.flt .memoryPoison) s)) ∧
    (s.blk.k.stations.findIdx? (fun y => y == s.team.pc.toNat) = some stn → s.team.win.depth = 0 → x.stack = [] →
      s.refillBad stn = false → storesWf s = true → ∃ t, exec .refill s = .next t ∧ tookEffect s t ∧ t.team.pc = s.nextPc
        ∧ t.team.lanes.active = firstLanes s.team.size &&& ~~~t.team.lanes.vacant
        ∧ t.blk.spawn.filter (fun r => r.stn == stn) = mine.drop vac
        ∧ t.blk.spawn.filter (fun r => r.stn != stn) = s.blk.spawn.filter (fun r => r.stn != stn)
        ∧ t.blk.fresh = s.blk.fresh + given
        ∧ ∃ fills : List (Nat × (SpawnRec ⊕ Nat)),
            fills.map Prod.snd = (mine.take vac).map Sum.inl ++ (List.range given).map (fun i => Sum.inr (s.blk.fresh + i))
            ∧ (fills.map Prod.fst).Nodup ∧ (∀ y ∈ fills, y.1 ∈ lanesOf s.team.size x.vacant)
            ∧ (∀ l, t.team.lanes.vacant.getLsbD l = (x.vacant.getLsbD l && !(fills.map Prod.fst).contains l))
            ∧ (∀ y ∈ fills,
                (∀ r, r < 8 + s.team.win.fs →
                  (∀ q, r < q → q < 8 + s.team.win.fs → s.vpos q ≠ s.vpos r) →
                  t.getV r y.1 = (match y.2 with
                    | .inl rec => rec.words.getD r 0
                    | .inr i => if r = 0 then BitVec.ofNat 32 i else 0)) ∧
                (∀ r, r < 8 + s.team.win.fs → t.getSide r (y.1 / 16) = 0) ∧
                (∀ q, 1 ≤ q → q < 16 → (t.getP q).getLsbD y.1 = (match y.2 with
                  | .inl rec => q == 1 && rec.p1 || q == 2 && rec.p2 || q == 3 && rec.p3
                  | .inr _ => false)) ∧
                t.team.lanes.plane y.1 = (match y.2 with | .inl rec => rec.plane % 4 | .inr _ => 0))
            ∧ (∀ l r, l < 1024 → l ∉ fills.map Prod.fst → t.getV r l = s.getV r l))

/-- R94, R96, R98, R99, R107, R108, R109, R207, R215, R218. The address that the ALIGN of CALLS carries is the model's
(log 49), and so is PLANE_RANGE at RET (log 94). `Window.trim` forgets early spill transfers that hold no longer
(R102, log 42). -/
def Obligations.CallsAndReturns : Prop :=
  ∀ (l a o : Nat) (s : State),
    let w := s.team.win
    let k := 8 * l
    let link (calli : Bool) (ret tv : Word32) : LinkRec :=
      { retOff := ret, k := k, cfs := w.fs, cov := w.ov, jd := s.team.lanes.stack.length, calli := calli, tv := tv }
    let called (r : LinkRec) : Window :=
      ({ w with depth := w.depth + 1, b := w.b + k, fs := w.fs - k, ov := w.fs - k
                links := r :: w.links } : Window).trim s.blk.k.ring
    let checks (i : Instr) (tgt : Word32) (passed : Prop) : Prop :=
      (l = 15 → exec i s = .next (takeFault (s.flt .illegalInstruction) s)) ∧
      (l ≠ 15 → w.fs < k → exec i s = .next (takeFault (s.flt .windowRange) s)) ∧
      (l ≠ 15 → k ≤ w.fs → w.depth = s.blk.k.maxDepth → exec i s = .next (takeFault (s.flt .windowDepth) s)) ∧
      (l ≠ 15 → k ≤ w.fs → w.depth ≠ s.blk.k.maxDepth →
        (tgt.toNat % 4 ≠ 0 → exec i s = .next (takeFault (s.fltAt .align 0 (BitVec.ofNat 64 tgt.toNat)) s)) ∧
        (tgt.toNat % 4 = 0 → inUpperCopy s.blk.k.planes tgt.toNat = true →
          exec i s = .next (takeFault (s.flt .planeRange) s)) ∧
        (tgt.toNat % 4 = 0 → inUpperCopy s.blk.k.planes tgt.toNat = false →
          (16 ≤ w.depth → s.team.spillSz = 0 → exec i s = .next (takeFault (s.flt .windowSpillOverflow) s)) ∧
          (¬(16 ≤ w.depth ∧ s.team.spillSz = 0) → passed)))
    let waits (i : Instr) : Prop :=
      16 ≤ w.links.length → ∃ t, exec i s = .next t ∧ t.team.phase = .stalled .spill
        ∧ t.team.pc = s.team.pc ∧ t.team.regs = s.team.regs ∧ t.team.lanes = s.team.lanes ∧ sameBytes s t
    let word (i : Instr) (tgt : Word32) : Prop := checks i tgt (
      (w.links.length < 16 → ∃ t, exec i s = .next t ∧ tookEffect s t ∧ t.team.pc = tgt
        ∧ t.team.win = called (link false (s.team.pc + 4) 0) ∧ t.team.regs = s.team.regs
        ∧ t.team.lanes = s.team.lanes ∧ sameBytes s t) ∧ waits i)
    word (.call l o) (s.team.pc + ((BitVec.ofNat 21 o).signExtend 32 <<< 2)) ∧
    word (.calls a l) (BitVec.ofNat 32 (s.getS a).toNat) ∧
    (w.depth = 0 → exec .ret s = .next (takeFault (s.flt .windowDepth) s)) ∧
    (∀ lk ls, w.links = lk :: ls → w.depth ≠ 0 →
      (s.team.lanes.stack.length ≠ lk.jd → exec .ret s = .next (takeFault (s.flt .joinStack) s)) ∧
      (s.team.lanes.stack.length = lk.jd → inUpperCopy s.blk.k.planes lk.retOff.toNat = true →
        exec .ret s = .next (takeFault (s.flt .planeRange) s)) ∧
      (s.team.lanes.stack.length = lk.jd → inUpperCopy s.blk.k.planes lk.retOff.toNat = false → w.lo ≤ w.b - lk.k → w.b - lk.k + lk.cfs ≤ w.lo + s.blk.k.ring →
        s.team.pre.saving = none → s.team.pre.restoring = none →
        ∃ t, exec .ret s = .next t ∧ tookEffect s t ∧ t.team.pc = lk.retOff
          ∧ t.team.win = ({ w with b := w.b - lk.k, fs := lk.cfs, ov := lk.cov, depth := w.depth - 1, links := ls
                                   cont := w.cont || lk.calli
                                   contLast := if lk.calli then lk.tv else w.contLast } : Window).trim s.blk.k.ring
          ∧ t.team.regs = s.team.regs ∧ t.team.lanes = s.team.lanes ∧ sameBytes s t)) ∧
    (w.cont = false → ¬(8 ≤ a ∧ a < 8 + k) → exec (.calli l a) s = .next (takeFault (s.flt .windowRange) s)) ∧
    (∀ (m : Mask) (below : List StackEntry) (tgt : Word32),
        (w.cont = false ∧ 8 ≤ a ∧ a < 8 + k ∧ m = s.team.lanes.active ∧ below = s.team.lanes.stack
          ∨ w.cont = true ∧ ∃ e, s.team.lanes.stack = e :: below ∧ m = e.mask) →
        (∃ lane, lane < s.team.size ∧ m.getLsbD lane = true ∧ s.getV a lane = tgt) →
        (w.cont = true → w.contLast.toNat < tgt.toNat) →
        (∀ lane, lane < s.team.size → m.getLsbD lane = true → (w.cont = true → w.contLast.toNat < (s.getV a lane).toNat) →
          tgt.toNat ≤ (s.getV a lane).toNat) →
        checks (.calli l a) tgt (
          (w.cont = false → 32 ≤ s.team.lanes.stack.length → exec (.calli l a) s = .next (takeFault (s.flt .joinStack) s)) ∧
          (w.cont = true ∨ s.team.lanes.stack.length < 32 → waits (.calli l a) ∧ (w.links.length < 16 →
        ∃ t, exec (.calli l a) s = .next t ∧ tookEffect s t ∧ t.team.pc = tgt
          ∧ t.team.lanes.stack = ⟨true, s.team.pc + 4, m⟩ :: below
          ∧ (∀ lane, lane < s.team.size →
              t.team.lanes.active.getLsbD lane = (m.getLsbD lane && s.getV a lane == tgt))
          ∧ t.team.win.depth = w.depth + 1 ∧ t.team.win.b = w.b + k ∧ t.team.win.fs = w.fs - k ∧ t.team.win.cont = false
          ∧ (t.team.win.links.head?).map LinkRec.calli = some true
          ∧ (t.team.win.links.head?).map LinkRec.tv = some tgt ∧ t.team.regs = s.team.regs)))) ∧
    (w.cont = true → ∀ e below, s.team.lanes.stack = e :: below → e.mask ≠ 0 →
      (∀ lane, lane < s.team.size → e.mask.getLsbD lane = true → (s.getV a lane).toNat ≤ w.contLast.toNat) →
      ∃ t, exec (.calli l a) s = .next t ∧ tookEffect s t ∧ t.team.pc = s.team.pc + 4
        ∧ t.team.lanes = { s.team.lanes with active := e.mask, stack := below }
        ∧ t.team.win = { w with cont := false })

/-- R95, R219. `Window.trim` forgets early spill transfers that hold no longer (R102, log 42). -/
def Obligations.EnterDeclaresFrame : Prop :=
  ∀ (n : Nat) (s : State),
    let w := s.team.win
    let ring := s.blk.k.ring
    (¬(n ≤ ring ∧ w.ov ≤ n) → exec (.enter n) s = .next (takeFault (s.flt .windowRange) s)) ∧
    (n ≤ ring → w.ov ≤ n → ring < w.b + n →
      s.team.spillSz < 65536 + (w.b + n - ring) / 8 * 36 * s.team.size →
      exec (.enter n) s = .next (takeFault (s.flt .windowSpillOverflow) s)) ∧
    (n ≤ ring → w.ov ≤ n →
      (w.b + n ≤ ring ∨ 65536 + (w.b + n - ring) / 8 * 36 * s.team.size ≤ s.team.spillSz) →
      w.lo ≤ w.b → w.b + n ≤ w.lo + ring →
      ∃ t, exec (.enter n) s = .next t ∧ tookEffect s t ∧ t.team.pc = s.nextPc ∧ t.team.win = ({ w with fs := n } : Window).trim ring
        ∧ (∀ r lane, w.b + w.fs ≤ r → r < w.b + n → lane < 1024 →
            smGet 0 t.team.regs.v ((8 + r % ring) * 1024 + lane) = 0)
        ∧ (∀ r g, w.b + w.fs ≤ r → r < w.b + n → g < 64 → smGet 0 t.team.regs.side ((8 + r % ring) * 64 + g) = 0)
        ∧ (∀ pos lane, (∀ r, w.b + w.fs ≤ r → r < w.b + n → pos ≠ 8 + r % ring) → lane < 1024 →
            storesWf s = true →
            smGet 0 t.team.regs.v (pos * 1024 + lane) = smGet 0 s.team.regs.v (pos * 1024 + lane))
        ∧ t.team.regs.s = s.team.regs.s ∧ t.team.regs.p = s.team.regs.p ∧ t.team.lanes = s.team.lanes ∧ sameBytes s t)

/-- R72, R221..R223. -/
def Obligations.PlaneWords : Prop :=
  ∀ (a b d f t p : Nat) (s : State), b < 4 → f < 4 → t < 4 →
    let x := s.team.lanes
    let same (u : State) : Prop := tookEffect s u ∧ u.team.pc = s.nextPc ∧ u.team.lanes.active = x.active
      ∧ u.team.lanes.vacant = x.vacant ∧ u.team.lanes.stack = x.stack ∧ sameBytes s u
    (s.vOk a = false → exec (.plset a) s = .next (takeFault (s.flt .windowRange) s)) ∧
    (s.vOk a = true → ∃ u, exec (.plset a) s = .next u ∧ same u ∧ u.team.regs = s.team.regs
      ∧ ∀ l, l < 1024 → u.team.lanes.plane l =
          if l < s.team.size ∧ s.selected.getLsbD l = true then (s.getV a l).toNat % 4 else x.plane l) ∧
    (∃ u, exec (.plsetConst b) s = .next u ∧ same u ∧ u.team.regs = s.team.regs
      ∧ ∀ l, l < 1024 → u.team.lanes.plane l = if s.selected.getLsbD l then b else x.plane l) ∧
    (∃ u, exec (.plsel f t p) s = .next u ∧ same u ∧ u.team.regs = s.team.regs
      ∧ ∀ l, l < 1024 → u.team.lanes.plane l =
          if x.active.getLsbD l then (if (s.getP p).getLsbD l then t else f) else x.plane l) ∧
    (∃ u v, exec (.plocc d) s = .next u ∧ same u ∧ u.team.lanes = x ∧ u = (s.setS d v).retireCtl
      ∧ ∀ k, v.getLsbD k = true ↔ k < 4 ∧ ∃ l, l < 1024 ∧ x.active.getLsbD l = true ∧ x.plane l = k)

/-- R6, R112, R114, R177, R224, R228, R231, R234..R236. That DCW keeps the reserved bits that SWR writes is the
model's (log 121). -/
def Obligations.ModeAndSpecialRegisters : Prop :=
  ∀ (d r n : Nat) (s : State),
    let rd (i : Nat) (v : Nat) : Prop := exec (.srd d i) s = .next (s.setS d (BitVec.ofNat 64 v)).retireCtl
    let sp := s.team.sp
    let x := s.getS r
    let bad (m : Word64) : Prop := 14 ≤ m.toNat % 16 ∨ 6 ≤ m.toNat / 2 ^ 8 % 8 ∨ 2 ^ 13 ≤ m.toNat
    let wr (i : Instr) (y : Special) : Prop := exec i s = .next (s.withSp y).retireCtl
    (rd 0 s.team.teamId ∧ rd 1 s.blk.x ∧ rd 2 s.blk.y ∧ rd 3 s.blk.z ∧ rd 5 s.blk.d.gridX ∧ rd 6 s.blk.d.gridY
      ∧ rd 7 s.blk.d.gridZ ∧ rd 8 s.team.size ∧ rd 9 s.team.tib ∧ rd 10 s.team.core ∧ rd 11 s.team.section_
      ∧ rd 12 s.amc.cfg.device ∧ rd 16 s.clk ∧ rd 17 s.hub.ptp ∧ rd 18 s.blk.d.seed.toNat ∧ rd 19 sp.mode.toNat
      ∧ rd 20 sp.sticky.toNat ∧ rd 21 sp.ssp ∧ rd 22 s.team.win.depth ∧ rd 23 sp.isectA.toNat ∧ rd 24 sp.isectB.toNat
      ∧ rd 25 sp.dcw.toNat ∧ rd 26 sp.srStream.toNat ∧ rd 33 s.team.trap.off.toNat ∧ rd 34 s.team.trap.addr.toNat
      ∧ rd 32 (s.team.trap.cause + s.team.trap.plane * 2 ^ 8 + s.team.trap.lane * 2 ^ 16
          + (if s.team.trap.inTrap then 2 ^ 31 else 0) + s.team.trap.code * 2 ^ 32)
      ∧ (∀ c, s.findCluster s.blk.cid = some c → rd 4 c.index) ∧ ∀ i, ∃ v, rd i v) ∧
    (wr (.swr r 0x17) { sp with isectA := x } ∧ wr (.swr r 0x18) { sp with isectB := x }
      ∧ wr (.swr r 0x19) { sp with dcw := x } ∧ wr (.swr r 0x1A) { sp with srStream := x }
      ∧ ∀ i, (i < 0x17 ∨ 0x1A < i) → exec (.swr r i) s = .next s.retireCtl) ∧
    (¬bad x → wr (.swrMode r) { sp with mode := x }) ∧
    (bad x → exec (.swrMode r) s = .next (takeFault (s.flt .illegalMode) s)) ∧
    (¬bad (BitVec.ofNat 64 n) → wr (.mode n) { sp with mode := BitVec.ofNat 64 n }) ∧
    (bad (BitVec.ofNat 64 n) → exec (.mode n) s = .next (takeFault (s.flt .illegalMode) s)) ∧
    wr (.swrSticky r) { sp with sticky := x.setWidth 8 } ∧
    (x.toNat % 8 = 0 → x.toNat ≤ s.blk.k.sstack → wr (.swrSsp r) { sp with ssp := x.toNat }) ∧
    (¬(x.toNat % 8 = 0 ∧ x.toNat ≤ s.blk.k.sstack) → exec (.swrSsp r) s = .next (takeFault (s.flt .stack) s)) ∧
    exec (.swrTrapoff r) s =
      .next ({ s with team := { s.team with trap := { s.team.trap with off := BitVec.ofNat 64 (x.toNat % 2 ^ 32), twr := true } } } : State).retireCtl ∧
    exec (.leave 0 n) s =
      .next ({ s with team := { s.team with reqSteps := min (s.team.reqSteps + n) 65535 } } : State).retireCtl ∧
    exec (.leave 1 n) s =
      .next ({ s with team := { s.team with reqCopy := min (s.team.reqCopy + n) 65535 } } : State).retireCtl

/-- R113, R237, R410. Where the stack lies in the scratchpad is the layout of log 31. -/
def Obligations.ScalarStackRoundTrip : Prop :=
  ∀ (f g c : Nat) (s : State), storesWf s = true → f + c ≤ 192 → g + c ≤ 192 → s.team.sp.ssp % 8 = 0 →
    let bad (o : Nat) : Bool := s.blk.badRange (s.blk.k.stackOff s.team.tib + o) (8 * c)
    (s.blk.k.sstack < s.team.sp.ssp + 8 * c → exec (.pushm f c) s = .next (takeFault (s.flt .stack) s)) ∧
    (s.team.sp.ssp < 8 * c → exec (.popm f c) s = .next (takeFault (s.flt .stack) s)) ∧
    (8 * c ≤ s.team.sp.ssp → bad (s.team.sp.ssp - 8 * c) = true →
      exec (.popm g c) s = .next (takeFault (s.flt .memoryPoison) s)) ∧
    (8 * c ≤ s.team.sp.ssp → bad (s.team.sp.ssp - 8 * c) = false → ∃ u, exec (.popm g c) s = .next u ∧ tookEffect s u ∧ u.team.sp.ssp = s.team.sp.ssp - 8 * c
      ∧ ∀ j, j < c → u.getS (g + j) = smGet 0 s.team.sstack ((s.team.sp.ssp - 8 * c) / 8 + j)) ∧
    (s.team.sp.ssp + 8 * c ≤ s.blk.k.sstack →
      ∃ t u, exec (.pushm f c) s = .next t ∧ tookEffect s t ∧ t.team.sp.ssp = s.team.sp.ssp + 8 * c
        ∧ t.team.regs = s.team.regs ∧ sameBytes s t
        ∧ (bad s.team.sp.ssp = false → exec (.popm g c) t = .next u ∧ tookEffect t u ∧ u.team.sp.ssp = s.team.sp.ssp
        ∧ (∀ j, j < c → u.getS (g + j) = s.getS (f + j))
        ∧ (∀ n, (n < g ∨ g + c ≤ n) → u.getS n = s.getS n) ∧ u.team.regs.v = s.team.regs.v
        ∧ u.team.regs.p = s.team.regs.p ∧ sameBytes s u))

/-- R225..R227, R412, R413. -/
def Obligations.YieldAndWatchdog : Prop :=
  ∀ (i d : Nat) (s : State),
    (s.blk.k.yieldMax < d → exec (.yield i d) s = .next (takeFault (s.flt .illegalInstruction) s)) ∧
    (d ≤ s.blk.k.yieldMax → s.team.pre.pending = false → exec (.yield i d) s =
      .next { s.retireCtl with team := { s.retireCtl.team with deadline := if d = 0 then none else some (d, 0) } }) ∧
    (d ≤ s.blk.k.yieldMax → s.team.pre.pending = true → s.blk.k.safePoints = [] →
      (s.team.mat.slots = [] → s.team.mat.tiles = [] → s.ctxUsed + s.ctxBytes ≤ s.amc.cfg.ctxSize → s.team.uid ≠ 0 →
        ∃ t, exec (.yield i d) s = .next t ∧ tookEffect s t ∧ t.team.phase = .suspended ∧ t.team.pre.pending = false
          ∧ t.team.pre.resOff = s.team.pc + BitVec.ofNat 32 s.iss.len ∧ t.team.pre.smask = s.team.lanes.active
          ∧ t.ctxUsed = s.ctxUsed + s.ctxBytes ∧ t.team.regs = s.team.regs ∧ t.team.lanes = s.team.lanes
          ∧ t.team.win = s.team.win ∧ sameBytes s t) ∧
      (s.team.mat.slots ≠ [] ∨ s.team.mat.tiles ≠ [] → exec (.yield i d) s =
        .next { s.retireCtl with team := { s.retireCtl.team with deadline := if d = 0 then none else some (d, 0) } })) ∧
    (∀ m c, s.team.phase = .ready → s.team.deadline = some (m, c) →
      (m ≤ c → exec .yieldOverrun s = .next (takeFault (s.flt .yieldOverrun) s)) ∧
      (c < m → exec .yieldOverrun s = .next s))

/-- R245, R29 (side-bands), R55, R56, R90, R178: the frame of every lane-wise word. -/
def Obligations.VectorWriteMeaning : Prop :=
  ∀ (s : State) (wide : Bool) (d : Nat) (f : Nat → LaneOut), storesWf s = true → s.team.size ≤ 1024 →
    let t := vecDone s wide d f
    let sel (l : Nat) : Prop := l < s.team.size ∧ s.selected.getLsbD l = true
    let zeroed (l : Nat) : Prop := l < s.team.size ∧ s.mz = true ∧ s.iss.lanes.getLsbD l = true
      ∧ s.selected.getLsbD l = false
    (∀ l, l < 1024 →
      (wide = false ∨ s.vpos d ≠ s.vpos (d + 1) →
        t.getV d l = if sel l then BitVec.ofNat 32 (f l).1 else if zeroed l then 0 else s.getV d l)
      ∧ (wide = true → t.getV (d + 1) l =
          if sel l then BitVec.ofNat 32 ((f l).1 / 2 ^ 32) else if zeroed l then 0 else s.getV (d + 1) l)) ∧
    (∀ g, g < 64 →
      ((∃ l, l / 16 = g ∧ (sel l ∨ zeroed l)) → t.getSide d g = 0) ∧
      (¬(∃ l, l / 16 = g ∧ (sel l ∨ zeroed l)) → t.getSide d g = s.getSide d g) ∧
      (wide = true →
        ((∃ l, l / 16 = g ∧ (sel l ∨ zeroed l)) → t.getSide (d + 1) g = 0) ∧
        (¬(∃ l, l / 16 = g ∧ (sel l ∨ zeroed l)) → t.getSide (d + 1) g = s.getSide (d + 1) g))) ∧
    (∀ pos l, l < 1024 → pos ≠ s.vpos d → (wide = true → pos ≠ s.vpos (d + 1)) →
      smGet 0 t.team.regs.v (pos * 1024 + l) = smGet 0 s.team.regs.v (pos * 1024 + l)) ∧
    (∀ pos g, g < 64 → pos ≠ s.vpos d → (wide = true → pos ≠ s.vpos (d + 1)) →
      smGet 0 t.team.regs.side (pos * 64 + g) = smGet 0 s.team.regs.side (pos * 64 + g)) ∧
    (∀ k : Nat, t.team.sp.sticky.getLsbD k = true ↔
      s.team.sp.sticky.getLsbD k = true ∨ ∃ l, sel l ∧ (f l).2.getLsbD k = true) ∧
    t.team.regs.s = s.team.regs.s ∧ t.team.regs.p = s.team.regs.p ∧ t.team.lanes = s.team.lanes
    ∧ t.team.win = s.team.win ∧ t.team.mat = s.team.mat ∧ t.team.trap = s.team.trap
    ∧ t.team.sp = { s.team.sp with sticky := t.team.sp.sticky, srStream := t.team.sp.srStream }
    ∧ sameBytes s t ∧ tookEffect s t

/-- R245, R249, R53, R54. What vecDone does: VectorWriteMeaning; integer values: VectorIntegerElements. -/
def Obligations.VectorArithmeticWords : Prop :=
  ∀ (d a b : Nat) (s : State),
    let T := s.ty
    let w := isWide T
    let A (l j : Nat) := subElem T (s.opA a l) j
    let B (l j : Nat) := subElem T (s.opB b l) j
    let C (l j : Nat) := subElem T (s.opC d l) j
    let I := elemInt T
    let F := floatFmt T
    let fit (x : Int) : LaneOut := (narrow T s.sat x, 0)
    let done (i : Instr) (op : Nat → Nat → Nat → LaneOut) : Prop :=
      exec i s = .next (vecDone s w d (elemwiseAt s (fun l j r => op r (A l j) (B l j))))
    let quot (x y : Nat) := divCases (elemMin T) (I x) (I y) (isSigned T)
    (vecReady s true w [a, b] w [d] →
      done (.vadd d a b) (fun r x y => if isFloat T then F.add s.rm r x y else fit (I x + I y)) ∧
      done (.vsub d a b) (fun r x y => if isFloat T then F.sub s.rm r x y else fit (I x - I y)) ∧
      done (.vmul d a b) (fun r x y => if isFloat T then F.mul s.rm r x y else fit (I x * I y)) ∧
      done (.vmin d a b) (fun _ x y => if isFloat T then F.minMax false x y else (if I y ≤ I x then y else x, 0)) ∧
      done (.vmax d a b) (fun _ x y => if isFloat T then F.minMax true x y else (if I x < I y then y else x, 0)) ∧
      done (.vabsd d a b) (fun r x y => if isFloat T then F.absDiff s.rm r x y else fit ((I x - I y).natAbs : Int)) ∧
      done (.vdiv d a b) (fun r x y => if isFloat T then F.div s.rm r x y
        else (wrapNat (quot x y).1 (elemBits T), (quot x y).2.2))) ∧
    (vecReady s (isInt T) w [a, b] w [d] →
      done (.vmulh d a b) (fun _ x y => (wrapNat (I x * I y / (2 ^ elemBits T : Nat)) (elemBits T), 0)) ∧
      done (.vrem d a b) (fun _ x y => (wrapNat (quot x y).2.1 (elemBits T), (quot x y).2.2)) ∧
      done (.vaddsat d a b) (fun _ x y => (narrow T true (I x + I y), 0)) ∧
      done (.vsubsat d a b) (fun _ x y => (narrow T true (I x - I y), 0)) ∧
      done (.vavg d a b) (fun _ x y => (wrapNat ((I x + I y + 1) / 2) (elemBits T), 0))) ∧
    (vecReady s (isFloat T) w [a, b] w [d] →
      done (.vcopysign d a b) (fun _ x y =>
        (x % 2 ^ (elemBits T - 1) + y % 2 ^ elemBits T / 2 ^ (elemBits T - 1) * 2 ^ (elemBits T - 1), 0))) ∧
    (vecReady s true w [a, b, s.cReg d] w [d] →
      let fma (i : Instr) (np nc : Bool) : Prop :=
        exec i s = .next (vecDone s w d (elemwiseAt s (fun l j r =>
          if isFloat T then F.fma s.rm r np nc (A l j) (B l j) (C l j)
          else fit ((if np then -(I (A l j) * I (B l j)) else I (A l j) * I (B l j))
            + (if nc then -I (C l j) else I (C l j))))))
      fma (.vfma d a b) false false ∧ fma (.vfms d a b) false true ∧ fma (.vfnma d a b) true false)

/-- R249, R250, R53, R54: element by element, so that no carry crosses a sub-element. -/
def Obligations.VectorIntegerElements : Prop :=
  ∀ (d a b : Nat) (s : State), isInt s.ty = true → storesWf s = true → s.team.size ≤ 1024 →
    vecReady s true (isWide s.ty) [a, b] (isWide s.ty) [d] → (isWide s.ty = true → s.vpos d ≠ s.vpos (d + 1)) →
    let T := s.ty
    let w := elemBits T
    let a' (l j : Nat) := subElem T (s.opA a l) j
    let b' (l j : Nat) := subElem T (s.opB b l) j
    let lo := elemMin T
    let hi := elemMax T
    let clamp (x : Int) : Int := min (max x lo) hi
    let fit (x : Int) : Int := if s.sat then clamp x else x
    let here (l j : Nat) : Prop := l < s.team.size ∧ s.selected.getLsbD l = true ∧ j < elemCount T
    let gives (i : Instr) (f : Nat → Nat → Int) (flags : State → Prop) : Prop :=
      ∃ t, exec i s = .next t ∧ tookEffect s t ∧ flags t ∧
        ∀ l j, here l j → (subElem T (t.laneImage (isWide T) d l) j : Int) = f (a' l j) (b' l j) % (2 ^ w : Nat)
    let quiet (t : State) : Prop := t.team.sp.sticky = s.team.sp.sticky
    let x := elemInt T
    let fixed (p q : Nat) : Prop := isSigned T = true ∧ x p = lo ∧ x q = -1
    let divFlags (t : State) : Prop :=
      (t.team.sp.sticky.getLsbD 5 = true ↔ s.team.sp.sticky.getLsbD 5 = true ∨ ∃ l j, here l j ∧ b' l j = 0) ∧
      (t.team.sp.sticky.getLsbD 6 = true ↔ s.team.sp.sticky.getLsbD 6 = true ∨ ∃ l j, here l j ∧ fixed (a' l j) (b' l j))
    gives (.vadd d a b) (fun p q => fit (x p + x q)) quiet ∧
    gives (.vsub d a b) (fun p q => fit (x p - x q)) quiet ∧
    gives (.vmul d a b) (fun p q => fit (x p * x q)) quiet ∧
    gives (.vmulh d a b) (fun p q => x p * x q / (2 ^ w : Nat)) quiet ∧
    gives (.vmin d a b) (fun p q => min (x p) (x q)) quiet ∧
    gives (.vmax d a b) (fun p q => max (x p) (x q)) quiet ∧
    gives (.vabsd d a b) (fun p q => fit ((x p - x q).natAbs : Int)) quiet ∧
    gives (.vaddsat d a b) (fun p q => clamp (x p + x q)) quiet ∧
    gives (.vsubsat d a b) (fun p q => clamp (x p - x q)) quiet ∧
    gives (.vavg d a b) (fun p q => (x p + x q + 1) / 2) quiet ∧
    gives (.vdiv d a b) (fun p q => if q = 0 then -1 else (x p).tdiv (x q)) divFlags ∧
    gives (.vrem d a b) (fun p q => if q = 0 then x p else (x p).tmod (x q)) divFlags ∧
    gives (.vshl d a b) (fun p q => fit (x p * (2 ^ (q % w) : Nat))) quiet ∧
    gives (.vshr d a b) (fun p q => (p / 2 ^ (q % w) : Nat)) quiet ∧
    gives (.vsra d a b) (fun p q => sextInt p w / (2 ^ (q % w) : Nat)) quiet ∧
    gives (.vrotr d a b) (fun p q => (p / 2 ^ (q % w) + p * 2 ^ (w - q % w) : Nat)) quiet

/-- R250..R252, R255, R259. That VSHFL and VSHFL.team read a through the lane pattern of a prefix at the shuffled
source lane is the model's reading (log 103, DEDUCED). -/
def Obligations.VectorLogicAndSelectWords : Prop :=
  ∀ (d a b n i : Nat) (s : State),
    let T := s.ty
    let w := isWide T
    let ones := if w then 2 ^ 64 - 1 else 2 ^ 32 - 1
    let imm := if w then ((BitVec.ofNat 11 i).signExtend 64).toNat else ((BitVec.ofNat 11 i).signExtend 32).toNat
    let whole (i : Instr) (f : Nat → Nat) : Prop := exec i s = .next (vecDone s w d (fun l => (f l, 0)))
    let done (i : Instr) (op : Nat → Nat → LaneOut) : Prop :=
      exec i s = .next (vecDone s w d (elemwiseAt s (fun l j _ => op l j)))
    let A (l j : Nat) := subElem T (s.opA a l) j
    let bits := elemBits T
    let shl (x k : Nat) : LaneOut := (narrow T s.sat (elemInt T x * (2 ^ (k % bits) : Nat)), 0)
    let shr (x k : Nat) : LaneOut := (x / 2 ^ (k % bits), 0)
    let sra (x k : Nat) : LaneOut := (wrapNat (sextInt x bits / (2 ^ (k % bits) : Nat)) bits, 0)
    let rot (x k : Nat) : LaneOut := ((x / 2 ^ (k % bits) + x * 2 ^ (bits - k % bits)) % 2 ^ bits, 0)
    (vecReady s true w [a, b] w [d] →
      whole (.vand d a b) (fun l => s.opA a l &&& s.opB b l) ∧
      whole (.vor d a b) (fun l => s.opA a l ||| s.opB b l) ∧
      whole (.vxor d a b) (fun l => s.opA a l ^^^ s.opB b l) ∧
      whole (.vandn d a b) (fun l => s.opA a l &&& (ones ^^^ s.opB b l))) ∧
    (vecReady s true w [a] w [d] →
      whole (.vmov d a) (fun l => s.opA a l) ∧
      whole (.vnot d a) (fun l => ones ^^^ s.opA a l) ∧
      whole (.vandi d a i) (fun l => s.opA a l &&& imm) ∧
      whole (.vori d a i) (fun l => s.opA a l ||| imm)) ∧
    (vecReady s true w [a] w [d] → s.windowOk false [b] = true →
      whole (.vshfl d a b) (fun l => s.opA a (l / 32 * 32 + (s.getV b (s.srcLane 1 l)).toNat % 32)) ∧
      whole (.vshflTeam d a b) (fun l => s.opA a ((s.getV b (s.srcLane 1 l)).toNat % s.team.size))) ∧
    (vecReady s (isInt T) w [a, b] w [d] →
      done (.vshl d a b) (fun l j => shl (A l j) (subElem T (s.opB b l) j)) ∧
      done (.vshr d a b) (fun l j => shr (A l j) (subElem T (s.opB b l) j)) ∧
      done (.vsra d a b) (fun l j => sra (A l j) (subElem T (s.opB b l) j)) ∧
      done (.vrotr d a b) (fun l j => rot (A l j) (subElem T (s.opB b l) j))) ∧
    (vecReady s (isInt T) w [a] w [d] →
      (n < 64 →
        done (.vshli d a n) (fun l j => shl (A l j) n) ∧ done (.vshri d a n) (fun l j => shr (A l j) n) ∧
        done (.vsrai d a n) (fun l j => sra (A l j) n) ∧ done (.vrotri d a n) (fun l j => rot (A l j) n)) ∧
      done (.vshls d a b) (fun l j => shl (A l j) (subElem T (s.getS b).toNat j)) ∧
      done (.vshrs d a b) (fun l j => shr (A l j) (subElem T (s.getS b).toNat j)))

/-- R251..R255. -/
def Obligations.VectorUnaryAndScalarWords : Prop :=
  ∀ (d a b i u : Nat) (s : State),
    let T := s.ty
    let w := isWide T
    let n := elemBits T
    let A (l j : Nat) := subElem T (s.opA a l) j
    let S (j : Nat) := subElem T (s.getS b).toNat j
    let I := elemInt T
    let F := floatFmt T
    let fit (x : Int) : LaneOut := (narrow T s.sat x, 0)
    let imm := (BitVec.ofNat 11 i).toInt
    let done (k : Instr) (op : Nat → Nat → Nat → LaneOut) : Prop :=
      exec k s = .next (vecDone s w d (elemwiseAt s op))
    (vecReady s (isInt T) w [a] w [d] →
      done (.vaddi d a i) (fun l j _ => fit (I (A l j) + sextInt (wrapNat imm n) n)) ∧
      done (.vmuli d a i) (fun l j _ => fit (I (A l j) * sextInt (wrapNat imm n) n)) ∧
      done (.vpopc d a) (fun l j _ => (popCount (A l j) n, 0)) ∧
      done (.vclz d a) (fun l j _ => (leadingZeros (A l j) n, 0))) ∧
    (vecReady s true w [] w [d] →
      done (.vmovi d i) (fun _ _ r => if isFloat T then F.ofInt s.rm r imm else (wrapNat imm n, 0)) ∧
      done (.vbcast d b) (fun _ j _ => (S j, 0))) ∧
    (vecReady s true w [a] w [d] →
      done (.vneg d a) (fun l j _ => if isFloat T then
          (if A l j / 2 ^ (n - 1) % 2 = 1 then A l j - 2 ^ (n - 1) else A l j + 2 ^ (n - 1), 0) else fit (-(I (A l j)))) ∧
      done (.vabs d a) (fun l j _ => if isFloat T then (A l j % 2 ^ (n - 1), 0) else fit ((I (A l j)).natAbs : Int)) ∧
      done (.vadds d a b) (fun l j r => if isFloat T then F.add s.rm r (A l j) (S j) else fit (I (A l j) + I (S j))) ∧
      done (.vmuls d a b) (fun l j r => if isFloat T then F.mul s.rm r (A l j) (S j) else fit (I (A l j) * I (S j))) ∧
      done (.vmins d a b) (fun l j _ => if isFloat T then F.minMax false (A l j) (S j)
        else (if I (S j) ≤ I (A l j) then S j else A l j, 0)) ∧
      done (.vmaxs d a b) (fun l j _ => if isFloat T then F.minMax true (A l j) (S j)
        else (if I (A l j) < I (S j) then S j else A l j, 0))) ∧
    (vecReady s true w [a, s.cReg d] w [d] →
      done (.vfmas d a b) (fun l j r => if isFloat T
        then F.fma s.rm r false false (A l j) (S j) (subElem T (s.opC d l) j)
        else fit (I (A l j) * I (S j) + I (subElem T (s.opC d l) j)))) ∧
    (vecReady s (decide (T ≤ 1)) w [a] w [d] →
      done (.vsext8 d a) (fun l j _ => (((BitVec.ofNat 8 (A l j)).signExtend 32).toNat, 0)) ∧
      done (.vsext16 d a) (fun l j _ => (((BitVec.ofNat 16 (A l j)).signExtend 32).toNat, 0))) ∧
    (vecReady s (isFloat T && T ≠ 13) w [a] w [d] →
      let fn (k : Instr) (g : SpecialFn) : Prop := done k (fun l j r => F.special g s.rm r (A l j))
      fn (.vrcp d a) .rcp ∧ fn (.vrsq d a) .rsq ∧ fn (.vsqrt d a) .sqrt ∧ fn (.vexp2 d a) .exp2 ∧ fn (.vlog2 d a) .log2
      ∧ fn (.vsin d a) .sin ∧ fn (.vcos d a) .cos ∧ fn (.vtanh d a) .tanh) ∧
    (vecReady s (cvtSet T = cvtSet u) w [a] (isWide u) [d] →
      (u = T → exec (.vcvt d a u) s = .next (vecDone s w d (fun l => (s.opA a l, 0)))) ∧
      (u ≠ T → exec (.vcvt d a u) s = .next (vecDone s (isWide u) d (elemwiseAs s u (fun l j r =>
        if isFloat T then (if isFloat u then (floatFmt u).ofVal s.rm r (F.decode (A l j))
          else
            let x := (F.decode (A l j)).toInt s.rm r (elemMin u) (elemMax u)
            (wrapNat x.1 (elemBits u), x.2))
        else if isFloat u then (floatFmt u).ofInt s.rm r (I (A l j)) else (narrow u s.sat (I (A l j)), 0))))))

/-- R257. -/
def Obligations.SelectWord : Prop :=
  decodeWord 0xBA2450B4 = .ok (.vsel 9 10 11 4) ∧
  (∀ w, w / 2 ^ 25 = 0x5D →
    decodeWord w = .ok (.vsel (w / 2 ^ 18 % 128) (w / 2 ^ 11 % 128) (w / 2 ^ 4 % 128) (w % 16))) ∧
  ∀ (d a b p : Nat) (s : State), vecReady s true (isWide s.ty) [a, b] (isWide s.ty) [d] →
    exec (.vsel d a b p) s = .next (vecDone s (isWide s.ty) d (fun l =>
      (if (s.getP p).getLsbD l then s.opA a l else s.opB b l, 0))) ∧
    (storesWf s = true → s.team.size ≤ 1024 → (isWide s.ty = true → s.vpos d ≠ s.vpos (d + 1)) →
      ∃ t, exec (.vsel d a b p) s = .next t ∧ tookEffect s t ∧
        ∀ l, l < s.team.size → s.selected.getLsbD l = true → t.laneImage (isWide s.ty) d l =
          if p = 0 ∨ (s.getP p).getLsbD l = true then s.opA a l else s.opB b l)

/-- R273, with R58 for the index in the block. -/
def Obligations.LaneIdentityWord : Prop :=
  decodeWord 0xCE240001 = .ok (.vlane 9 1) ∧
  (∀ w, w / 2 ^ 25 = 0x67 →
    (w / 2 ^ 4 % 2 ^ 14 = 0 → w % 16 < 4 → decodeWord w = .ok (.vlane (w / 2 ^ 18 % 128) (w % 16))) ∧
    (w / 2 ^ 4 % 2 ^ 14 ≠ 0 ∨ 4 ≤ w % 16 → ∃ e, decodeWord w = .error e)) ∧
  ∀ (d f : Nat) (s : State), f < 4 → storesWf s = true → s.team.size ≤ 1024 → vecReady s true false [] false [d] →
    ∃ t, exec (.vlane d f) s = .next t ∧ tookEffect s t ∧
      ∀ l, l < s.team.size → s.selected.getLsbD l = true → t.getV d l = BitVec.ofNat 32 (match f with
        | 0 => l
        | 1 => s.team.tib * s.team.size + l
        | 2 => s.team.lanes.plane l
        | _ => l / 32)

/-- R178, R256, R258. Their faults, ILLEGAL_MODE under CC 6 and 7 or a packed type among them: VectorFaults. -/
def Obligations.ComparesAndPredicateWords : Prop :=
  ∀ (p a b cc fn : Nat) (s : State), storesWf s = true → s.team.size ≤ 1024 →
    let T := s.ty
    let keep (t : State) : Prop := tookEffect s t ∧ (∀ q, q ≠ p → t.getP q = s.getP q) ∧ t.getP 0 = allLanes
      ∧ t.team.regs.v = s.team.regs.v ∧ t.team.regs.s = s.team.regs.s ∧ t.team.lanes = s.team.lanes ∧ sameBytes s t
    let cond (l y : Nat) : Bool × Byte :=
      let x := subElem T (s.opA a l) 0
      if isFloat T then (floatFmt T).cond cc x y
      else
        let m := elemInt T x
        let n := elemInt T y
        (match cc with
          | 0 => decide (m = n) | 1 => decide (m ≠ n) | 2 => decide (m < n) | 3 => decide (m ≤ n)
          | 4 => decide (n < m) | _ => decide (n ≤ m), 0)
    let compared (i : Instr) (y : Nat → Nat) : Prop :=
      ∃ t, exec i s = .next t ∧ keep t
        ∧ (p ≠ 0 → ∀ l, l < s.team.size → (t.getP p).getLsbD l =
            if s.selected.getLsbD l then
              (if fn = 0 then (cond l (y l)).1 else if fn = 1 then (s.getP p).getLsbD l && (cond l (y l)).1
               else (s.getP p).getLsbD l || (cond l (y l)).1)
            else if s.mz && s.iss.lanes.getLsbD l then false else (s.getP p).getLsbD l)
        ∧ (∀ k : Nat, t.team.sp.sticky.getLsbD k = true ↔ s.team.sp.sticky.getLsbD k = true ∨
            ∃ l, l < s.team.size ∧ s.selected.getLsbD l = true ∧ (cond l (y l)).2.getLsbD k = true)
    let logic (i : Instr) (x : Mask) : Prop :=
      ∃ t, exec i s = .next t ∧ keep t ∧ t.team.sp.sticky = s.team.sp.sticky ∧
        (p ≠ 0 → ∀ l, l < 1024 → (t.getP p).getLsbD l = if s.iss.lanes.getLsbD l then x.getLsbD l else (s.getP p).getLsbD l)
    (vecReady s (!isPacked T && (isFloat T || decide (cc < 6))) (isWide T) [a, b] false [] →
      compared (.vcmp p a b cc fn) (fun l => subElem T (s.opB b l) 0)) ∧
    (vecReady s (!isPacked T && (isFloat T || decide (cc < 6))) (isWide T) [a] false [] →
      compared (.vcmps p a b cc fn) (fun _ => subElem T (s.getS b).toNat 0)) ∧
    (s.iss.hazard = none →
      logic (.pand p a b) (s.getP a &&& s.getP b) ∧ logic (.por p a b) (s.getP a ||| s.getP b) ∧
      logic (.pxor p a b) (s.getP a ^^^ s.getP b) ∧ logic (.pandn p a b) (s.getP a &&& ~~~s.getP b) ∧
      logic (.pnot p a) (~~~s.getP a) ∧ logic (.pset p) allLanes ∧ logic (.pclr p) 0 ∧ logic (.pmov p a) (s.getP a))

/-- R260..R265. The trees are `redTree` and `scanTree`, written from R261 and R262 over single operations; a worked
float case stands in SpecArithmeticExamples. -/
def Obligations.CrossLaneWords : Prop :=
  ∀ (d a b p : Nat) (s : State), storesWf s = true → s.team.size ≤ 1024 → s.team.size % 32 = 0 →
    let ls := lanesOf s.team.size s.selected
    let x (l : Nat) : Nat := (s.getV a (s.srcLane 0 l)).toNat
    let y (l : Nat) : Nat := (s.getV b (s.srcLane 1 l)).toNat
    let leaf (l : Nat) : Option Nat := if s.selected.getLsbD l then some (x l) else none
    let vals := ls.map x
    let ints := ls.map (fun l => elemInt s.ty (x l))
    let red (f : Nat) (v : Word64) : Prop :=
      ∃ t, exec (.vred a b f) s = .next t ∧ t = (s.setS b v).retire
    let lane (t : State) (f : Nat → Nat) : Prop :=
      ∀ l, l < s.team.size → s.selected.getLsbD l = true → t.getV d l = BitVec.ofNat 32 (f l)
    (vecReady s true false [a] false [] →
      red 1 ((BitVec.ofNat 32 vals.sum).signExtend 64) ∧
      red 4 (BitVec.ofNat 64 (vals.foldl (fun u v => u &&& v) 0xFFFFFFFF)) ∧
      red 5 (BitVec.ofNat 64 (vals.foldl (fun u v => u ||| v) 0)) ∧
      red 6 (BitVec.ofNat 64 (vals.foldl (fun u v => u ^^^ v) 0)) ∧
      (s.ty ≤ 1 → ls ≠ [] →
        (∃ m, m ∈ ints ∧ (∀ z ∈ ints, m ≤ z) ∧ red 2 (BitVec.ofInt 64 m)) ∧
        (∃ m, m ∈ ints ∧ (∀ z ∈ ints, z ≤ m) ∧ red 3 (BitVec.ofInt 64 m))) ∧
      (s.ty = 0 → ls = [] → red 2 0x7FFFFFFF ∧ red 3 0xFFFFFFFF80000000) ∧
      (s.ty = 1 → ls = [] → red 2 0xFFFFFFFF ∧ red 3 0) ∧
      (let tree (f ident : Nat) (op : Nat → Nat → Nat × Byte) : Prop :=
        let r := redPasses op leaf (s.team.size / 32)
        exec (.vred a b f) s = .next ((s.setS b (BitVec.ofNat 64 (r.1.getD ident))).raise r.2).retire
      tree 0 0 (binary32.add 0 0) ∧
        (s.ty = 2 → tree 2 0x7F800000 (binary32.minMax false) ∧ tree 3 0xFF800000 (binary32.minMax true)))) ∧
    (vecReady s true false [a, d] false [] →
      (∃ t, exec (.vscan d a b 1) s = .next t ∧ tookEffect s t ∧
        lane t (fun l => (s.getS b).toNat + ((ls.filter (fun m => m ≤ l)).map x).sum) ∧
        (ls ≠ [] → b < 192 →
          t.getS b = (BitVec.ofNat 32 ((s.getS b).toNat + vals.sum)).signExtend 64)) ∧
      (let scan (f : Nat) (op : Nat → Nat → Nat) : Prop :=
        ∃ t, exec (.vscan d a b f) s = .next t ∧ tookEffect s t ∧
          let c := (s.getS b).toNat % 2 ^ 32
          lane t (scanLane op leaf c) ∧
          (ls = [] → t.getS b = s.getS b) ∧
          (ls ≠ [] → b < 192 → t.getS b = BitVec.ofNat 64 (scanCarry op leaf c (s.team.size / 32)))
      scan 0 (fun u v => (binary32.add 0 0 u v).1) ∧ scan 2 (fun u v => (binary32.minMax true u v).1)
        ∧ scan 3 (fun u v => (binary32.minMax false u v).1)) ∧
      (∀ f, ∃ t, exec (.vnzs d a b f) s = .next t ∧ tookEffect s t ∧
        let nz (l : Nat) : Bool := if f = 0 then x l != 0 else x l % 2 ^ 31 != 0
        lane t (fun l => (s.getS b).toNat + ((ls.filter (fun m => m < l)).filter nz).length) ∧
        (b < 192 → t.getS b = s.getS b + BitVec.ofNat 64 (ls.filter nz).length))) ∧
    (vecReady s true true [a, d] false [] → s.vpos d ≠ s.vpos (d + 1) →
      ∃ t, exec (.vscan d a b 4) s = .next t ∧ tookEffect s t ∧
        let pair (l : Nat) : Option Nat :=
          if s.selected.getLsbD l then
            some ((s.getV a (s.srcLane 0 l)).toNat + (s.getV (a + 1) (s.srcLane 0 l)).toNat * 2 ^ 32)
          else none
        let op (u v : Nat) : Nat :=
          (binary32.mul 0 0 (u % 2 ^ 32) (v % 2 ^ 32)).1
            + (binary32.fma 0 0 false false (v % 2 ^ 32) (u / 2 ^ 32 % 2 ^ 32) (v / 2 ^ 32 % 2 ^ 32)).1 * 2 ^ 32
        let c := (s.getS b).toNat
        lane t (scanLane op pair c) ∧
        (∀ l, l < s.team.size → s.selected.getLsbD l = true →
          t.getV (d + 1) l = BitVec.ofNat 32 (scanLane op pair c l / 2 ^ 32)) ∧
        (ls = [] → t.getS b = s.getS b) ∧
        (ls ≠ [] → b < 192 → t.getS b = BitVec.ofNat 64 (scanCarry op pair c (s.team.size / 32)))) ∧
    (s.iss.hazard = none →
      let m := s.selected &&& s.getP p
      let ball (w f : Nat) (v : Word64) : Prop := exec (.vball w p b f) s = .next (s.setS b v).retireSr
      (∀ w, ball w 0 (BitVec.ofNat 64 (m.toNat / 2 ^ (32 * w) % 2 ^ 32))
        ∧ ball w 1 (BitVec.ofNat 64 (m.toNat / 2 ^ (64 * w)))
        ∧ ball w 2 (BitVec.ofNat 64 (lanesOf s.team.size m).length)
        ∧ ball w 3 (if m = 0 then 0 else 1) ∧ ball w 4 (if m = s.selected then 1 else 0))) ∧
    (vecReady s (decide (s.ty ≤ 1)) false [a, b, d] false [] →
      ∃ t, exec (.visect d a b) s = .next t ∧ tookEffect s t ∧
        lane t (fun l => ((ls.find? (fun k => y k == x l)).getD 0xFFFFFFFF)) ∧
        (ls = [] → t.team.sp.isectA = 0 ∧ t.team.sp.isectB = 0) ∧
        let ka := ls.map (fun l => elemInt s.ty (x l))
        let kb := ls.map (fun l => elemInt s.ty (y l))
        (ls ≠ [] → ∀ ma mb, ma ∈ ka → (∀ z ∈ ka, z ≤ ma) → mb ∈ kb → (∀ z ∈ kb, z ≤ mb) →
          t.team.sp.isectA = BitVec.ofNat 64 (ka.filter (fun z => z ≤ min ma mb)).length ∧
          t.team.sp.isectB = BitVec.ofNat 64 (kb.filter (fun z => z ≤ min ma mb)).length))

/-- R33, R266..R269, R274; `blockwise` writes data and side-band of the groups and raises their flags. That VBMAX of a
signalling NaN raises no flag is the model's (log 126). -/
def Obligations.BlockWords : Prop :=
  ∀ (d a f p : Nat) (s : State), vecReady s true false [a, d] false [] →
    let fm := blockFmt (s.fmtWord f)
    let fd := blockFmt (s.fmtWord (f + 1))
    let ok (r : Nat) (given : Bool) : Prop := fmtValid (s.fmtWord r) false given = true
    let x (g : Nat) := s.group a g
    let f32 (g : Nat) := (x g).codes.map binary32.decode
    let vals (g : Nat) := fm.values ((x g).side % 256) (x g).codes
    exec (.vbmax d a) s = .next (s.blockwise d (fun g =>
      let m := ((x g).codes.map (fun y => y % 2 ^ 31)).foldl max 0
      groupOf (List.replicate 16 (if 0x7F800000 < m then 0x7FC00000 else m)) 0 0)) ∧
    exec (.vsideRd d a) s = .next (s.blockwise d (fun g =>
      groupOf ((List.range 16).map (fun j => if j < 8 then (x g).side / 2 ^ (8 * j) % 256 else 0)) 0 0)) ∧
    exec (.vsideWr d a) s = .next (s.blockwise d (fun g =>
      { s.group d g with side := (List.range 8).foldl (fun b j => b + (x g).lane j % 256 * 2 ^ (8 * j)) 0 })) ∧
    (ok f false →
      exec (.vscsel d a f) s = .next (s.blockwise d (fun g =>
        let c := fm.select (binary32.decode ((x g).lane 0 % 2 ^ 31))
        groupOf (List.replicate 16 c.1) 0 c.2)) ∧
      exec (.vdq d a f) s = .next (s.blockwise d (fun g =>
        let rs := (vals g).mapIdx (fun i v => binary32.ofVal s.rm (s.groupRandom g i) v)
        groupOf (rs.map Prod.fst) 0 (flagsOr (rs.map Prod.snd)))) ∧
      (p < fm.perSector →
        exec (.vpack d a p f) s =
          .next (s.blockwise d (fun g => fm.putBlock (s.group d g) p ((x g).side % 256) (x g).codes)) ∧
        exec (.vunpk d a p f) s = .next (s.blockwise d (fun g =>
          fm.codeForm { scale := (x g).side / 2 ^ (8 * p) % 256, codes := fm.blockCodes (x g).data p, flags := 0 }))) ∧
      (fm.perSector ≤ p →
        exec (.vpack d a p f) s = .next (takeFault (s.flt .slotState) s) ∧
        exec (.vunpk d a p f) s = .next (takeFault (s.flt .slotState) s))) ∧
    (ok f true → exec (.vqnt d a f) s = .next (s.blockwise d (fun g =>
      fm.codeForm (fm.quantise s.rm (s.groupRandom g) (s.givenCode fm d g) (f32 g))))) ∧
    (ok f true → ok (f + 1) true → exec (.vreq d a f) s = .next (s.blockwise d (fun g =>
      fd.codeForm (fd.quantise s.rm (s.groupRandom g) (s.givenCode fd d g) (vals g))))) ∧
    (¬ok f true → exec (.vqnt d a f) s = .next (takeFault (s.flt .slotState) s)) ∧
    (¬(ok f true ∧ ok (f + 1) true) → exec (.vreq d a f) s = .next (takeFault (s.flt .slotState) s)) ∧
    (¬ok f false →
      exec (.vscsel d a f) s = .next (takeFault (s.flt .slotState) s) ∧
      exec (.vdq d a f) s = .next (takeFault (s.flt .slotState) s) ∧
      exec (.vpack d a p f) s = .next (takeFault (s.flt .slotState) s) ∧
      exec (.vunpk d a p f) s = .next (takeFault (s.flt .slotState) s))

/-- R267, R29, R55, R56 (SRSTREAM). -/
def Obligations.BlockWriteFrame : Prop :=
  ∀ (s : State) (d : Nat) (f : Nat → Group), storesWf s = true → s.team.size ≤ 1024 →
    let t := s.blockwise d f
    let takes (g : Nat) : Prop := g < s.team.size / 16 ∧ s.selected &&& groupMask g ≠ 0
    let zeroed (g : Nat) : Prop := g < s.team.size / 16 ∧ s.mz = true ∧ s.iss.lanes &&& groupMask g ≠ 0
      ∧ s.selected &&& groupMask g = 0
    (∀ g j, g < 64 → j < 16 → t.getV d (16 * g + j) =
      if takes g then BitVec.ofNat 32 ((f g).data / 2 ^ (32 * j)) else if zeroed g then 0 else s.getV d (16 * g + j)) ∧
    (∀ g, g < 64 → t.getSide d g =
      if takes g then BitVec.ofNat 64 (f g).side else if zeroed g then 0 else s.getSide d g) ∧
    (∀ pos l, l < 1024 → pos ≠ s.vpos d →
      smGet 0 t.team.regs.v (pos * 1024 + l) = smGet 0 s.team.regs.v (pos * 1024 + l)) ∧
    (∀ k : Nat, t.team.sp.sticky.getLsbD k = true ↔
      s.team.sp.sticky.getLsbD k = true ∨ ∃ g, takes g ∧ (f g).flags.getLsbD k = true) ∧
    (∀ pos g, g < 64 → pos ≠ s.vpos d →
      smGet 0 t.team.regs.side (pos * 64 + g) = smGet 0 s.team.regs.side (pos * 64 + g)) ∧
    t.team.regs.s = s.team.regs.s ∧ t.team.regs.p = s.team.regs.p ∧ t.team.lanes = s.team.lanes
    ∧ t.team.win = s.team.win ∧ t.team.mat = s.team.mat ∧ t.team.trap = s.team.trap
    ∧ t.team.sp = { s.team.sp with sticky := t.team.sp.sticky, srStream := t.team.sp.srStream }
    ∧ sameBytes s t ∧ tookEffect s t

/-- R90, R97, R177, R183, R192, R256: the checks of the words of vecForm. -/
def Obligations.VectorFaults : Prop :=
  ∀ (i : Instr) (f : VecForm) (s : State), vecForm s i = some f →
    (evenOk true f.pairs = false → exec i s = .next (takeFault (s.flt .illegalInstruction) s)) ∧
    (evenOk true f.pairs = true → f.types = false → exec i s = .next (takeFault (s.flt .illegalMode) s)) ∧
    (evenOk true f.pairs = true → f.types = true → ∀ off, s.iss.hazard = some off →
      exec i s = .next (takeFault (s.fltAt .lookaheadHazard 0 (BitVec.ofNat 64 off.toNat)) s)) ∧
    (evenOk true f.pairs = true → f.types = true → s.iss.hazard = none →
      (s.windowOk true f.pairs && s.windowOk false f.singles) = false →
      exec i s = .next (takeFault (s.flt .windowRange) s))

/-- R178..R181. -/
def Obligations.PrefixedPairRuns : Prop :=
  ∀ (p : Prefix) (i : Instr) (s : State), s.iss.pfx = some p → s.iss.len = 8 →
    (takesPrefix i = true → exec (.prefixedInstruction p i) s = exec i s) ∧
    (∀ d a b, vecReady s true (isWide s.ty) [a, b] (isWide s.ty) [d] →
      ∃ t, exec (.prefixedInstruction p (.vadd d a b)) s = .next t ∧ exec (.vadd d a b) s = .next t ∧ tookEffect s t) ∧
    s.selected = s.iss.lanes &&& s.getP (if p.grd < 16 then p.grd else s.team.sp.mode.toNat / 2 ^ 4 % 2 ^ 4) ∧
    s.rm = (if p.rnd = 0 then s.team.sp.mode.toNat / 2 ^ 8 % 2 ^ 3 else p.rnd - 1) ∧
    (∀ d, s.cReg d = if p.d4 = 0 then d else p.d4) ∧ (s.mz = true ↔ p.mz = 1) ∧
    (∀ l, let k := p.k
      let r := l % 32
      s.srcLane p.lps l = l / 32 * 32 + (match p.lp with
        | 1 => 31 - r | 2 => (r + 32 - k % 32) % 32 | 3 => (r + k) % 32 | 4 => k % 32 | 5 => r ^^^ k % 8 | 6 => r ^^^ 7
        | _ => r))

/-- The worked cases after R249, R251, R261 and R262. -/
def Obligations.SpecArithmeticExamples : Prop :=
  (joinElems 9 (fun j => (narrow 9 false (elemInt 9 (subElem 9 0x7F01FF80 j) + elemInt 9 (subElem 9 0x01020180 j)))) = 0x80030000)
  ∧ (joinElems 9 (fun j => (narrow 9 true (elemInt 9 (subElem 9 0x7F01FF80 j) + elemInt 9 (subElem 9 0x01020180 j)))) = 0x7F030080)
  ∧ reducePass (redOp 2 0) ([some 0x4B800000, some 0x3F800000, some 0xCB800000] ++ List.replicate 29 none) = (some 0, flagNX)
  ∧ (reducePass (redOp 2 0) ([some 0x4B800000, some 0xCB800000, some 0x3F800000] ++ List.replicate 29 none)).1
      = some 0x3F800000
  ∧ (let p := scanPass (scanOp 4) ([some 0x3F8000003F000000, some 0x400000003F000000, some 0x40000000] ++ List.replicate 29 none)
     p.at 1 = some 0x402000003E800000 ∧ p.at 2 = some 0x40A000003F000000)
  ∧ bfloat16.ofInt 0 0 1023 = (0x4480, flagNX)

/-- R270..R272. That SPACE_INVALID comes ahead of every other check of the address is the model's (log 51, DEDUCED).
-/
def Obligations.HistogramWords : Prop :=
  ∀ (a r d : Nat) (s : State) (p : Place), storesWf s = true → ordinary s p 144 →
    let counts := [0x04, 0x08] ++ (List.range 32).map (fun i => 0x10 + 4 * i)
    let base := sextInt (s.readAt p 4) 32
    let slot (l : Nat) : Nat := histSlot base (s.getV a l).toNat
    let ls := lanesOf s.team.size s.selected
    (∀ x : Nat, binary32.decode x = .nan true ∨ binary32.decode x = .nan false → histSlot base x = 0x08) ∧
    (∀ (neg : Bool) (x : Nat), binary32.decode x = .inf neg → histSlot base x = 0x10 + 4 * 31) ∧
    (∀ neg m e x, binary32.decode x = .fin neg m e →
      histSlot base x = if m = 0 then 0x04 else 0x10 + 4 * (min (max ((Nat.log2 m : Int) + e - base) 0) 31).toNat) ∧
    (vecReady s true false [a] false [] → s.histPlace (s.getS r) = .ok p →
      ∃ t, exec (.vhist a r) s = .next t ∧ tookEffect s t ∧ t.team.regs = s.team.regs
        ∧ t.team.sp.sticky = s.team.sp.sticky
        ∧ (∀ o ∈ counts, t.readAt (p.plus o) 4 =
            min (s.readAt (p.plus o) 4 + (ls.filter (fun l => slot l == o)).length) 0xFFFFFFFF)
        ∧ (∀ q, (∀ o ∈ counts, ∀ k, k < 4 → q ≠ p.plus (o + k)) → t.byteAt q = s.byteAt q)) ∧
    (vecReady s true false [a] false [] → ((s.getS r).toNat / 2 ^ 56 = 0 ∨ (s.getS r).toNat / 2 ^ 56 = 0xF0) →
      exec (.vhist a r) s = .next (takeFault (s.fltAt .spaceInvalid 0 (s.getS r)) s)) ∧
    (s.iss.hazard = none → s.histPlace (s.getS a) = .ok p → 
      fmtValid (setField ((s.getS r).toNat % 2 ^ 32) 28 3 0) false false = true →
      let w := (s.getS r).toNat
      let f := blockFmt w
      let zeros := s.readAt (p.plus 4) 4
      let bins := (List.range 32).map (fun i => s.readAt (p.plus (0x10 + 4 * i)) 4)
      let t := ceilDiv (min (w / 2 ^ 32 % 2 ^ 17) 65536 * (zeros + bins.sum)) 65536
      let out (tsb : Int) : Nat := setField (setField (w % 2 ^ 32) 16 8 (wrapNat tsb 8)) 28 3 2
      (t ≤ zeros → exec (.spctl d a r) s = .next (s.setS d (BitVec.ofNat 64 (out f.tsb))).retire) ∧
      (zeros < t → f.maxQuanta ≠ 0 → ∀ b, b < 32 → t ≤ zeros + (bins.take (b + 1)).sum →
        (∀ k, k < b → zeros + (bins.take (k + 1)).sum < t) →
        exec (.spctl d a r) s = .next (s.setS d (BitVec.ofNat 64 (out
          (min (max (base + b - 15 - f.emax) (-128)) 127)))).retire))

/-- R29, R174, R178, R275, R277..R280. SLD into sz discards the value. -/
def Obligations.LoadsReturnData : Prop :=
  ∀ (t b o l x u w : Nat) (s : State), storesWf s = true → s.team.loads = [] → s.team.size ≤ 1024 →
    let returned (i : Instr) (got : State → Prop) : Prop :=
      ∃ r v, exec i s = .next r ∧ tookEffect s r ∧ r.team.regs = s.team.regs ∧ sameBytes s r
        ∧ exec .loadDataReturn r = .next v ∧ v.team.loads = [] ∧ v.team.regs.p = s.team.regs.p ∧ sameBytes s v ∧ got v
    let sAddr (n : Nat) : Word64 := s.getS b + BitVec.ofNat 64 (o * n)
    let lAddr (lane : Nat) : Word64 :=
      s.getS b + if u = 1 then BitVec.ofNat 64 ((lane + x) * w) else (s.getV x lane).signExtend 64
    let as := (lanesOf s.team.size s.selected).map (fun lane => (lane, lAddr lane))
    let zeroed (lane : Nat) : Prop := lane < s.team.size ∧ s.mz = true ∧ s.iss.lanes.getLsbD lane = true
      ∧ s.selected.getLsbD lane = false
    let sLoad (n : Nat) (i : Instr) : Prop := ∀ p, s.accessOne .load (sAddr n) n n = .ok p → s.poisonAt p = false →
      returned i (fun v => (t < 192 → v.getS t = BitVec.ofNat 64 (s.readAt p n)) ∧ (∀ m, m ≠ t → v.getS m = s.getS m)
        ∧ v.team.regs.v = s.team.regs.v)
    let vLoad (i : Instr) : Prop := ∀ ps, vecReady s true (w = 8) [t] false (indexRegs x u) →
      s.accessAll .load w w as = .ok ps → (∀ p ∈ ps, s.poisonAt p.2 = false) →
      returned i (fun v =>
        (∀ p ∈ ps, (w < 8 ∨ s.vpos t ≠ s.vpos (t + 1) → v.getV t p.1 = BitVec.ofNat 32 (s.readAt p.2 w))
          ∧ (w = 8 → v.getV (t + 1) p.1 = BitVec.ofNat 32 (s.readAt p.2 w / 2 ^ 32)))
        ∧ (∀ lane, lane < 1024 → (∀ p ∈ ps, p.1 ≠ lane) →
          v.getV t lane = (if zeroed lane then 0 else s.getV t lane)
          ∧ (w = 8 → v.getV (t + 1) lane = if zeroed lane then 0 else s.getV (t + 1) lane))
        ∧ (∀ g, g < 64 → ∀ m, m = t ∨ (w = 8 ∧ m = t + 1) →
          ((∃ lane, lane / 16 = g ∧ ((∃ p ∈ ps, p.1 = lane) ∨ zeroed lane)) → v.getSide m g = 0)
          ∧ (¬(∃ lane, lane / 16 = g ∧ ((∃ p ∈ ps, p.1 = lane) ∨ zeroed lane)) → v.getSide m g = s.getSide m g))
        ∧ v.team.regs.s = s.team.regs.s)
    (s.iss.hazard = none → sLoad 8 (.sld64 t b o l) ∧ sLoad 4 (.sld32 t b o l)) ∧
    (w = 1 → vLoad (.vld8 t b x l u)) ∧ (w = 2 → vLoad (.vld16 t b x l u)) ∧ (w = 4 → vLoad (.vld32 t b x l u)) ∧
    (w = 8 → vLoad (.vld64 t b x l u)) ∧
    (w = 64 → vecReady s true false [t] false (indexRegs x u) →
      s.groupAddrs b x u = (groupsOf s.team.size s.selected).map (fun g =>
        let lane := lowestLane s.team.size (s.selected &&& groupMask g)
        (g, lane, s.getS b + if u = 1 then BitVec.ofNat 64 ((g + x) * 64) else (s.getV x lane).signExtend 64)) ∧
      ∀ ps, s.accessAll .load 64 64 ((s.groupAddrs b x u).map Prod.snd) = .ok ps → (∀ p ∈ ps, s.poisonAt p.2 = false) →
        returned (.vldb t b x l u) (fun v =>
          (∀ (k g : Nat) (la : Nat × Word64) (p : Nat × Place), (s.groupAddrs b x u)[k]? = some (g, la) → ps[k]? = some p →
            (∀ j, j < 16 → v.getV t (16 * g + j) = BitVec.ofNat 32 (s.readAt p.2 64 / 2 ^ (32 * j)))
            ∧ v.getSide t g = s.sideAt p.2)
          ∧ (∀ g j, g < 64 → j < 16 → ¬(g < s.team.size / 16 ∧ s.selected &&& groupMask g ≠ 0) →
            let none_ := g < s.team.size / 16 ∧ s.mz = true ∧ s.iss.lanes &&& groupMask g ≠ 0
            v.getV t (16 * g + j) = (if none_ then 0 else s.getV t (16 * g + j))
            ∧ v.getSide t g = (if none_ then 0 else s.getSide t g))
          ∧ v.team.regs.s = s.team.regs.s)) ∧
    (∀ ld lane a, ∀ v : State, v.team.loads = [ld] → ld.poison = some (lane, a) →
      ∃ f : FaultInfo, f.cause = .memoryPoison ∧ f.lane = lane ∧ f.addr = a ∧ f.restart = ld.off ∧
        exec .loadDataReturn v = .next (takeFault f { v with team := { v.team with
          loads := [], looks := v.team.looks.map (fun y => if y.lid = ld.lid then { y with done := true } else y) } }))

/-- R29, R148, R174, R275, R278..R280. `ordinary`: HBM outside the publish window, or the scratchpad of a block. -/
def Obligations.StoresWriteMemory : Prop :=
  ∀ (t b o l x u w : Nat) (s : State), storesWf s = true → s.team.size ≤ 1024 →
    let sAddr (n : Nat) : Word64 := s.getS b + BitVec.ofNat 64 (o * n)
    let lAddr (lane : Nat) : Word64 :=
      s.getS b + if u = 1 then BitVec.ofNat 64 ((lane + x) * w) else (s.getV x lane).signExtend 64
    let as := (lanesOf s.team.size s.selected).map (fun lane => (lane, lAddr lane))
    let apart (p q : Place) (n : Nat) : Prop := ∀ i j, i < n → j < n → p.plus i ≠ q.plus j
    let sStore (n : Nat) (i : Instr) : Prop := ∀ p, s.accessOne .store (sAddr n) n n = .ok p →
      ∃ r, exec i s = .next r ∧ tookEffect s r ∧ r.team.regs = s.team.regs ∧ r.team.sp.sticky = s.team.sp.sticky
        ∧ (ordinary s p n → r.readAt p n = (s.getS t).toNat % 2 ^ (8 * n))
        ∧ (∀ q, (∀ k, k < n → q ≠ p.plus k) → r.byteAt q = s.byteAt q) ∧ (∀ q, r.sideAt q = s.sideAt q)
    let vStore (i : Instr) : Prop := ∀ ps, vecReady s true (w = 8) [t] false (indexRegs x u) →
      s.accessAll .store w w as = .ok ps →
      ∃ r, exec i s = .next r ∧ tookEffect s r ∧ r.team.regs = s.team.regs ∧ r.team.sp.sticky = s.team.sp.sticky
        ∧ (∀ (n : Nat) (p : Nat × Place), ps[n]? = some p → ordinary s p.2 w →
            (∀ (m : Nat) (q : Nat × Place), n < m → ps[m]? = some q → apart p.2 q.2 w) →
            r.readAt p.2 w = s.laneImage (w = 8) t p.1 % 2 ^ (8 * w))
        ∧ (∀ q, (∀ p ∈ ps, ∀ k, k < w → q ≠ p.2.plus k) → r.byteAt q = s.byteAt q) ∧ (∀ q, r.sideAt q = s.sideAt q)
    (s.iss.hazard = none → sStore 8 (.sst64 t b o l) ∧ sStore 4 (.sst32 t b o l)) ∧
    (w = 1 → vStore (.vst8 t b x l u)) ∧ (w = 2 → vStore (.vst16 t b x l u)) ∧ (w = 4 → vStore (.vst32 t b x l u)) ∧
    (w = 8 → vStore (.vst64 t b x l u)) ∧
    (∀ ps, vecReady s true false [t] false (indexRegs x u) →
      s.accessAll .store 64 64 ((s.groupAddrs b x u).map Prod.snd) = .ok ps →
      ∃ r, exec (.vstb t b x l u) s = .next r ∧ tookEffect s r ∧ r.team.regs = s.team.regs
        ∧ (∀ (n g : Nat) (la : Nat × Word64) (p : Nat × Place), (s.groupAddrs b x u)[n]? = some (g, la) →
            ps[n]? = some p → ordinary s p.2 64 →
            (∀ (m : Nat) (q : Nat × Place), n < m → ps[m]? = some q → apart p.2 q.2 64 ∧ ¬sameSector p.2 q.2) →
            r.sideAt p.2 = s.getSide t g ∧
            ∀ j, j < 16 → BitVec.ofNat 32 (r.readAt p.2 64 / 2 ^ (32 * j)) = s.getV t (16 * g + j))
        ∧ (∀ q, (∀ p ∈ ps, (∀ k, k < 64 → q ≠ p.2.plus k) ∧ ¬sameSector p.2 q) →
            r.byteAt q = s.byteAt q ∧ r.sideAt q = s.sideAt q))

/-- R148, R281..R283; `atomWord` gives the integer operations. -/
def Obligations.AtomicWords : Prop :=
  ∀ (d x b o l wide : Nat) (s : State), storesWf s = true → s.team.loads = [] → s.team.size ≤ 1024 → o < 15 →
    let as := (lanesOf s.team.size s.selected).map (fun lane => (lane, s.getS b + (s.getV x lane).signExtend 64))
    let apart (p q : Place) : Prop := ∀ i j, i < 4 → j < 4 → p.plus i ≠ q.plus j
    (o = 10 → s.iss.pfx = none →
      exec (.vatom d x b o l) s = .next (takeFault (s.flt .illegalInstruction) s) ∧
      exec (.satom d x o wide l) s = .next (takeFault (s.flt .illegalInstruction) s)) ∧
    (∀ ps, (o ≠ 10 ∨ s.iss.pfx ≠ none) →
      vecReady s true false ([d] ++ if o = 10 then [s.d4] else []) false [x] →
      s.accessAll .atomic 4 4 as = .ok ps → (∀ p ∈ ps, s.poisonAt p.2 = false) →
      ∃ r v, exec (.vatom d x b o l) s = .next r ∧ tookEffect s r ∧ r.team.regs = s.team.regs
        ∧ exec .loadDataReturn r = .next v ∧ v.team.loads = [] ∧ v.team.sp.sticky = s.team.sp.sticky
        ∧ (∀ (n : Nat) (p : Nat × Place), ps[n]? = some p →
            (∀ (m : Nat) (q : Nat × Place), m ≠ n → ps[m]? = some q → apart p.2 q.2) →
            v.getV d p.1 = BitVec.ofNat 32 (s.readAt p.2 4) ∧
            (ordinary s p.2 4 → BitVec.ofNat 32 (v.readAt p.2 4) =
              atomWord o (BitVec.ofNat 32 (s.readAt p.2 4)) (s.getV d p.1) (s.getV s.d4 p.1)))
        ∧ (∀ q, o = 0 → ordinary s q 4 → (∀ p ∈ ps, p.2 = q) →
            ∀ (n : Nat) (p : Nat × Place), ps[n]? = some p → v.getV d p.1 =
              BitVec.ofNat 32 (s.readAt q 4 + ((ps.take n).map (fun y => (s.getV d y.1).toNat)).sum))
        ∧ (∀ q, (∀ p ∈ ps, ∀ k, k < 4 → q ≠ p.2.plus k) → v.byteAt q = s.byteAt q)) ∧
    (∀ p, (o ≠ 10 ∨ s.iss.pfx ≠ none) → s.iss.hazard = none → (wide = 1 → o < 11) →
      let n := if wide = 1 then 8 else 4
      s.accessOne .atomic (s.getS x) n n = .ok p → s.poisonAt p = false →
      ∃ r v, exec (.satom d x o wide l) s = .next r ∧ tookEffect s r ∧ r.team.regs = s.team.regs
        ∧ exec .loadDataReturn r = .next v ∧ (d < 192 → v.getS d = BitVec.ofNat 64 (s.readAt p n))
        ∧ (ordinary s p n →
            (wide = 1 → BitVec.ofNat 64 (v.readAt p 8) = atomWord o (BitVec.ofNat 64 (s.readAt p 8)) (s.getS d) (s.getS s.d4)) ∧
            (wide ≠ 1 → BitVec.ofNat 32 (v.readAt p 4) =
              atomWord o (BitVec.ofNat 32 (s.readAt p 4)) ((s.getS d).setWidth 32) ((s.getS s.d4).setWidth 32)))
        ∧ (∀ q, (∀ k, k < n → q ≠ p.plus k) → v.byteAt q = s.byteAt q))

/-- R121, R122, R124, R125, R284..R286. That the fault of the address comes before that of a to of 4, and that PREF
and CCTL act for lane 0, are the model's (logs 124, 127, 129). -/
def Obligations.SpaceAndCacheWords : Prop :=
  ∀ (d a b o p t : Nat) (s : State), storesWf s = true → s.team.size ≤ 1024 → s.iss.hazard = none →
    let code (y : Nat) : Nat :=
      if y / 2 ^ 56 = 0 then 0
      else if y / 2 ^ 56 = 0xF0 ∧ y / 2 ^ 32 % 16 = 0 ∧ (y / 2 ^ 36 % 256 ≠ 0 ∨ y / 2 ^ 44 % 4096 = 0) then 1
      else if y / 2 ^ 56 = 0xF1 ∧ y / 2 ^ 21 % 2 ^ 23 = 0 ∧ (y / 2 ^ 44 % 256 ≠ 0 ∨ y / 2 ^ 52 % 16 = 0) then 2
      else if y / 2 ^ 56 = 0xF2 ∧ y / 2 ^ 24 % 2 ^ 20 = 0 ∧ (y / 2 ^ 44 % 256 ≠ 0 ∨ y / 2 ^ 52 % 16 = 0) then 3
      else 4
    let x := s.getS a
    let cast (y l : Nat) := castValue s t y l
    let pair (l : Nat) : Word64 := BitVec.ofNat 64 (s.laneImage true a (s.srcLane 0 l))
    let harmless (i : Instr) : Prop :=
      ∃ u, exec i s = .next u ∧ tookEffect s u ∧ u.team.regs = s.team.regs ∧ u.team.sp = s.retire.team.sp ∧ sameBytes s u
    let line : Word64 := s.getS b + BitVec.ofNat 64 (o * 256)
    exec (.sptest d a) s = .next (s.setS d (BitVec.ofNat 64 (code x.toNat))).retire ∧
    (vecReady s true true [a] false [d] → ∃ u, exec (.vsptest d a) s = .next u ∧ tookEffect s u ∧
      ∀ l, l < s.team.size → s.selected.getLsbD l = true → u.getV d l = BitVec.ofNat 32 (code (pair l).toNat)) ∧
    (∀ y, cast x.toNat 0 = .ok y → exec (.spcast d a p t) s = .next (s.setS d (BitVec.ofNat 64 y)).retire) ∧
    (∀ c, cast x.toNat 0 = .error c →
      (p = 1 → exec (.spcast d a p t) s = .next (s.setS d 0).retire) ∧
      (p ≠ 1 → exec (.spcast d a p t) s = .next (takeFault (s.fltAt c 0 x) s))) ∧
    (x.toNat / 2 ^ 56 = 0 → exec (.spcast d a p 0) s = .next (s.setS d x).retire) ∧
    (x.toNat / 2 ^ 56 = 0xF0 → code x.toNat = 1 → x.toNat / 2 ^ 36 % 256 = s.blk.tag →
      x.toNat / 2 ^ 44 % 4096 = s.team.tib * s.team.size → x.toNat % 2 ^ 32 < s.blk.d.privSz →
      exec (.spcast d a p 0) s = .next (s.setS d (BitVec.ofNat 64
        (s.blk.pbase + s.team.tib * s.team.size * s.blk.d.privSz + x.toNat % 2 ^ 32))).retire) ∧
    (vecReady s true true [a] true [d] → (s.vpos d ≠ s.vpos (d + 1)) →
      ((p = 1 ∨ ∀ l, l < s.team.size → s.selected.getLsbD l = true → ∃ y, cast (pair l).toNat l = .ok y) →
        ∃ u, exec (.vspcast d a p t) s = .next u ∧ tookEffect s u ∧
          ∀ l, l < s.team.size → s.selected.getLsbD l = true → u.laneImage true d l =
            match cast (pair l).toNat l with | .ok y => y % 2 ^ 64 | .error _ => 0) ∧
      (∀ l c, p ≠ 1 → l < s.team.size → s.selected.getLsbD l = true → cast (pair l).toNat l = .error c →
        (∀ m, m < l → s.selected.getLsbD m = true → ∃ y, cast (pair m).toNat m = .ok y) →
        exec (.vspcast d a p t) s = .next (takeFault (s.fltAt c l (pair l)) s))) ∧
    ((∃ tg, s.checkAddr line 1 1 0 = .ok tg ∧ s.route .prefetch tg ≠ .error .windowArea) →
      harmless (.prefL1 b o) ∧ harmless (.prefL2 b o)) ∧
    (x.toNat / 2 ^ 56 ∈ [0, 0xF0, 0xF1, 0xF2] → harmless (.cctlL1line a) ∧ harmless (.cctlL2evict a)) ∧
    harmless .cctlL1all

/-- R287..R291. That the PC moves on before the flush is acknowledged is the model's (log 56), and so is that a flush
which R427 lost holds up nothing (log 91). -/
def Obligations.FencesAndBarriers : Prop :=
  ∀ (r w p i : Nat) (s : State),
    let passes (k : Instr) : Prop := ∃ t, exec k s = .next t ∧ tookEffect s t ∧ t.team.pc = s.nextPc
      ∧ t.team.phase = s.team.phase ∧ t.team.regs = s.team.regs ∧ sameBytes s t
    let quiet := s.hub.written = [] ∧ ∀ f ∈ s.hub.flushes, f.lost = true
    let count (cl : Bool) := s.barCount s.team cl i
    let mine (cl : Bool) := smGet 0 (if cl then s.team.cbarA else s.team.barA) i
    let arrived (cl : Bool) (t : State) : Prop :=
      (cl = false → t.team.barA = smSet 0 s.team.barA i (count false + 1) ∧ t.blk.barArr = (i, s.team.uid) :: s.blk.barArr)
      ∧ (cl = true → t.team.cbarA = smSet 0 s.team.cbarA i (count true + 1) ∧ ∀ c, s.findCluster s.blk.cid = some c →
          (t.findCluster s.blk.cid).map Cluster.barArr = some ((i, s.team.uid) :: c.barArr))
    let arrives (k : Instr) (cl : Bool) : Prop :=
      (mine cl ≤ count cl → ∃ t, exec k s = .next t ∧ tookEffect s t ∧ arrived cl t ∧ t.team.pc = s.nextPc
        ∧ t.team.phase = s.team.phase) ∧
      (count cl < mine cl → exec k s = .next (s.stall (.arrive cl i)))
    let waits (k : Instr) (cl : Bool) : Prop :=
      (mine cl ≤ count cl → exec k s = .next (s.setP p s.team.lanes.active 0).retireCtl) ∧
      (count cl < mine cl → ∃ t, exec k s = .next t ∧ tookEffect s t ∧ t.team.phase = .waiting (.barrier cl i p)
        ∧ t.team.timeout = (if w = 0 then none else some (2 ^ w)) ∧ t.team.pc = s.team.pc)
    (r < 5 ∨ quiet → passes (.fenceRel r) ∧ passes (.fenceAr r)) ∧
    passes (.fenceAcq r) ∧
    (let dropped (k : Instr) : Prop := ∃ t, exec k s = .next t ∧ ∀ n, (s.team.core, n) ∉ t.caches.l1
     let held (k : Instr) : Prop := ∃ t f, exec k s = .next t ∧ t.team.phase = .stalled (.flush f) ∧ t.team.pc = s.nextPc
       ∧ tookEffect s t ∧ t.team.regs = s.team.regs ∧ sameBytes s t
     (2 ≤ r → dropped (.fenceAcq r) ∧ dropped (.fenceAr r)) ∧
     (r = 5 → ¬quiet → held (.fenceRel r) ∧ held (.fenceAr r))) ∧
    (s.blk.k.bars ≤ i → exec (.barSync w p i) s = .next (takeFault (s.flt .illegalInstruction) s)
      ∧ exec (.barArrive i) s = .next (takeFault (s.flt .illegalInstruction) s)
      ∧ exec (.barWait w p i) s = .next (takeFault (s.flt .illegalInstruction) s)) ∧
    (i < s.blk.k.bars → arrives (.barArrive i) false ∧ waits (.barWait w p i) false ∧
      (mine false ≤ count false → ∃ t, exec (.barSync w p i) s = .next t ∧ tookEffect s t ∧ arrived false t
        ∧ t.team.phase = .waiting (.barrier false i p) ∧ t.team.timeout = (if w = 0 then none else some (2 ^ w))) ∧
      (count false < mine false → exec (.barSync w p i) s = .next (s.stall (.arrive false i)))) ∧
    arrives (.cbara i) true ∧ waits (.cbarw w p i) true ∧
    (∀ bl : Block, (∀ t ∈ s.blockTeams bl.bid, t.phase = .ended ∨ (i, t.uid) ∈ bl.barArr) →
      (∃ u, (i, u) ∈ bl.barArr) → smWf (0 : Nat) bl.barC = true →
      smGet 0 (s.settleBlockBars bl).barC i = smGet 0 bl.barC i + 1
        ∧ ∀ u, (i, u) ∉ (s.settleBlockBars bl).barArr) ∧
    (∀ cl, s.team.phase = .waiting (.barrier cl i p) →
      (s.team.timeout = some 0 → ∃ t, exec .barrierTimeout s = .next t ∧ t.team.phase = .ready
        ∧ t.team.pc = s.team.pc + 4 ∧ (storesWf s = true → p ≠ 0 →
          ∀ l, s.team.lanes.active.getLsbD l = true → (t.getP p).getLsbD l = true)) ∧
      (s.team.timeout ≠ some 0 → exec .barrierTimeout s = .next s))

/-- R82..R85, R292..R294. That PBARA and PBWAIT raise SPACE_INVALID on such an address ahead of the checks of R121,
ALIGN among them, is the model's reading (log 51, DEDUCED). A waiting team that is suspended counts with the section
and core it last had (log 98). -/
def Obligations.PhaseBarriersAndConvocations : Prop :=
  ∀ (d p w m n c : Nat) (s : State), storesWf s = true →
    let at_ := s.getS d
    let word (pl : Place) (i : Nat) : Nat := s.readAt (pl.plus (4 * i)) 4
    let pending (pl : Place) : Nat := if word pl 1 = 0 then 1 else word pl 1
    let expect (pl : Place) : Nat := if word pl 0 = 0 then 1 else word pl 0
    let x : Word32 := BitVec.ofNat 32 (s.getS (d + 1)).toNat
    let diff (pl : Place) : Nat := (BitVec.ofNat 32 (word pl 2) - x).toNat
    (at_.toNat / 2 ^ 56 ≠ 0xF1 → at_.toNat / 2 ^ 56 ≠ 0xF2 →
      exec (.pbara d) s = .next (takeFault (s.fltAt .spaceInvalid 0 at_) s) ∧
      exec (.pbwait d p w) s = .next (takeFault (s.fltAt .spaceInvalid 0 at_) s)) ∧
    (∀ bid off, (at_.toNat / 2 ^ 56 = 0xF1 ∨ at_.toNat / 2 ^ 56 = 0xF2) →
      let pl : Place := .spad bid off
      s.accessOne .atomic at_ 16 16 = .ok pl → s.poisonAt pl = false → ordinary s pl 16 →
      (∃ t, exec (.pbara d) s = .next t ∧ tookEffect s t ∧ t.team.pc = s.nextPc
        ∧ (d + 1 < 192 → t.getS (d + 1) = BitVec.ofNat 64 (word pl 2))
        ∧ (1 < pending pl → t.readAt (pl.plus 4) 4 = pending pl - 1 ∧ t.readAt (pl.plus 8) 4 = word pl 2)
        ∧ (pending pl = 1 → t.readAt (pl.plus 4) 4 = expect pl ∧ t.readAt (pl.plus 8) 4 = (word pl 2 + 1) % 2 ^ 32)
        ∧ (∀ q, (∀ k, 4 ≤ k → k < 12 → q ≠ pl.plus k) → t.byteAt q = s.byteAt q)) ∧
      (0 < diff pl → diff pl < 2 ^ 31 → exec (.pbwait d p w) s = .next
        (s.setP p s.team.lanes.active (if (word pl 3).testBit 0 then allLanes else 0)).retireCtl) ∧
      (¬(0 < diff pl ∧ diff pl < 2 ^ 31) → ∃ t, exec (.pbwait d p w) s = .next t ∧ tookEffect s t
        ∧ t.team.phase = .waiting (.phase bid off x p at_) ∧ t.team.timeout = (if w = 0 then none else some (2 ^ w))
        ∧ t.team.pc = s.team.pc ∧ sameBytes s t)) ∧
    (c ≠ 0 → s.team.mat.member ≠ none → exec (.conv m n c) s = .next (takeFault (s.flt .convMismatch) s)) ∧
    (c ≠ 0 → s.team.mat.member = none → (∃ y, s.blk.findConv c = some y ∧ y.formed = true) →
      exec (.conv m n c) s = .next (takeFault (s.flt .convMismatch) s)) ∧
    (s.team.mat.member = none → exec (.conv m n 0) s = .next s.retireCtl) ∧ exec (.conv m n 0) s = exec .disb s ∧
    (c ≠ 0 → s.team.mat.member = none → s.blk.findConv c = none → s.findTeam s.team.uid = some s.team →
      ∃ t z, exec (.conv m 1 c) s = .next t ∧ tookEffect s t ∧ t.team.pc = s.nextPc
        ∧ t.team.mat.member = some { cv := c, index := 0, step := 0 } ∧ z ∈ t.blk.convs ∧ z.cv = c ∧ z.formed = true
        ∧ z.members = [s.team.uid]) ∧
    (c ≠ 0 → s.team.mat.member = none → s.blk.findConv c = none → n ≠ 1 →
      ∃ t, exec (.conv m n c) s = .next t ∧ tookEffect s t ∧ t.team.phase = .waiting (.conv c n m)
        ∧ t.team.pc = s.team.pc ∧ ∃ y, t.blk.convs = s.blk.convs ++ [y] ∧ y.cv = c ∧ y.n = n ∧ y.members = [s.team.uid]
          ∧ y.formed = false) ∧
    (∀ y, c ≠ 0 → s.team.mat.member = none → s.blk.findConv c = some y → y.formed = false →
      (s.convConflict y n m = true ↔ y.n ≠ n ∨ y.mode ≠ m ∨
        ∃ u ∈ y.members, ∃ v, s.findTeam u = some v ∧ (v.section_ = s.team.section_ ∨ v.core ≠ s.team.core))) ∧
    (∀ y, c ≠ 0 → s.team.mat.member = none → s.blk.findConv c = some y → y.formed = false →
      s.convConflict y n m = true → s.blk.k.trapEntry = none → s.blk.bid = s.team.bid →
      (∀ l ∈ s.launches, ∀ rcb, l.from_ ≠ .handler rcb) →
      (s.teams.map Team.uid).Nodup → s.team.uid ≠ 0 → s.team.phase = .ready → s.team.uid ∉ y.members → y.members.Nodup →
      (∀ u ∈ y.members, ∃ v, s.findTeam u = some v ∧ u ≠ 0 ∧ v.bid = s.team.bid ∧ v.phase = .waiting (.conv c y.n y.mode)) →
      ∃ t, exec (.conv m n c) s = .next t ∧ t.blk.findConv c = none
        ∧ ∀ u ∈ y.members ++ [s.team.uid], ∃ w, t.findTeam u = some w ∧ w.phase = .held
          ∧ w.fault.map FaultInfo.cause = some .convMismatch ∧ (s.findTeam u).map Team.pc = some w.pc) ∧
    (∀ y, c ≠ 0 → s.team.mat.member = none → s.blk.findConv c = some y → y.formed = false →
      s.convConflict y n m = false → y.members.length + 1 ≠ n →
      ∃ t, exec (.conv m n c) s = .next t ∧ tookEffect s t ∧ t.team.phase = .waiting (.conv c n m)
        ∧ t.team.pc = s.team.pc ∧ t.team.mat.member = none
        ∧ t.blk.findConv c = some { y with members := y.members ++ [s.team.uid] }) ∧
    (∀ y, c ≠ 0 → s.team.mat.member = none → s.blk.findConv c = some y → y.formed = false →
      s.convConflict y n m = false → y.members.length + 1 = n →
      ∃ t z, exec (.conv m n c) s = .next t ∧ tookEffect s t ∧ t.team.pc = s.nextPc ∧ z ∈ t.blk.convs ∧ z.cv = c
        ∧ z.formed = true ∧ z.members = s.bySection (y.members ++ [s.team.uid])
        ∧ (s.team.uid ∈ z.members → t.team.mat.member =
            some { cv := c, index := z.members.findIdx (fun u => u == s.team.uid), step := 0 })
        ∧ (∀ u ∈ t.others, u.uid ∈ z.members → u.mat.member =
            some { cv := c, index := z.members.findIdx (fun v => v == u.uid), step := 0 })) ∧
    (∀ k y, s.team.mat.member = some k → s.blk.findConv k.cv = some y → y.issues = [] →
      ∃ t, exec .disb s = .next t ∧ tookEffect s t ∧ t.team.pc = s.nextPc ∧ t.team.mat.member = none
        ∧ (∀ z ∈ t.blk.convs, z.cv = k.cv → s.team.uid ∉ z.members ∧ z.dissolved = true))

/-- R326..R329; the chain of R340 rests on the end of the wait. The sends that an arrival counter fires are R338. An
XCNT next to a releasing fence is a release at the scope of its counter (R152, R166). That a flush which R427 lost
holds up nothing is the model's (log 91, DESIGN CHOICE), and that the team stalls and issues the word again after the
flush its reading (log 56). -/
def Obligations.CounterWords : Prop :=
  ∀ (a b c : Nat) (s : State), s.iss.hazard = none →
    let sel := (s.getS a).toNat
    let k := sel % 1024
    let v := (s.getS b).toNat
    let block := sel.testBit 10 = true
    let okSel : Prop := sel < 2048 ∧
      (block → k < s.blk.d.ccount ∧ k < 64) ∧
      (¬block → ∃ r, s.teamRegion = some r ∧ r.acBase ≤ k ∧ k < r.acBase + r.acCount)
    let cnt := if block then (smGet 0 s.blk.counters k) % 2 ^ 32 else smGet 0 s.hub.arrival k
    let err := block ∧ (smGet 0 s.blk.counters k).testBit 63 = true
    let after (t : State) (n : Nat) (e : Prop) : Prop :=
      (block → smGet 0 t.blk.counters k % 2 ^ 32 = n % 2 ^ 32 ∧ ((smGet 0 t.blk.counters k).testBit 63 = true ↔ e)) ∧
      (¬block → smGet 0 t.hub.arrival k = n % 2 ^ 64)
    let inFocus := s.blk.bid = s.team.bid ∧ s.blk.bid ≠ 0
    let quiet := s.hub.written = [] ∧ ∀ f ∈ s.hub.flushes, f.lost = true
    let wf := storesWf s = true ∧ smWf (0 : Nat) s.blk.counters = true ∧ smWf (0 : Nat) s.hub.arrival = true
    (¬okSel → exec (.xcntSet a b c) s = .next (takeFault (s.flt .descriptor) s)
      ∧ exec (.xcntAdd a b c) s = .next (takeFault (s.flt .descriptor) s)
      ∧ exec (.xwait a b c) s = .next (takeFault (s.flt .descriptor) s)
      ∧ exec (.xwaitTest a b c) s = .next (takeFault (s.flt .descriptor) s)) ∧
    (okSel → ¬block → s.team.fenced = true → ¬quiet →
      (∃ t f, exec (.xcntSet a b c) s = .next t ∧ t.team.phase = .stalled (.flush f) ∧ t.team.pc = s.team.pc
        ∧ t.team.fenced = false ∧ t.hub.arrival = s.hub.arrival ∧ t.team.regs = s.team.regs) ∧
      (∃ t f, exec (.xcntAdd a b c) s = .next t ∧ t.team.phase = .stalled (.flush f) ∧ t.team.pc = s.team.pc
        ∧ t.team.fenced = false ∧ t.hub.arrival = s.hub.arrival ∧ t.team.regs = s.team.regs)) ∧
    (okSel → inFocus → wf → (block ∨ s.team.fenced = false ∨ quiet) →
      (∃ t, exec (.xcntSet a b c) s = .next t ∧ tookEffect s t ∧ after t v False
        ∧ (c < 192 → ¬err → t.getS c = BitVec.ofNat 64 cnt)
        ∧ (c < 192 → err → t.getS c = BitVec.ofNat 64 (cnt + 2 ^ 63)) ∧ sameBytes s t) ∧
      (∃ t, exec (.xcntAdd a b c) s = .next t ∧ tookEffect s t ∧ after t (cnt + v) err
        ∧ (c < 192 → ¬err → t.getS c = BitVec.ofNat 64 cnt)
        ∧ (c < 192 → err → t.getS c = BitVec.ofNat 64 (cnt + 2 ^ 63)) ∧ sameBytes s t)) ∧
    (okSel → inFocus → wf →
      (v ≤ cnt → ¬err → exec (.xwait a b c) s = .next (s.setS c 0).retire
        ∧ exec (.xwaitTest a b c) s = .next (s.setS c 0).retire) ∧
      (v ≤ cnt → err → exec (.xwait a b c) s = .next (s.setS c 2).retire
        ∧ exec (.xwaitTest a b c) s = .next (s.setS c 2).retire) ∧
      (cnt < v → exec (.xwaitTest a b c) s = .next (s.setS c 1).retire
        ∧ ∃ t, exec (.xwait a b c) s = .next t ∧ tookEffect s t ∧ t.team.phase = .waiting (.counter c sel v)
          ∧ t.team.pc = s.team.pc)) ∧
    (okSel → inFocus → wf → s.team.phase = .waiting (.counter c sel v) →
      let t := s.wake.team
      (cnt < v → t.phase = s.team.phase ∧ t.pc = s.team.pc ∧ t.regs = s.team.regs) ∧
      (v ≤ cnt → t.phase = .ready ∧ t.pc = s.team.pc + 4 ∧ (c < 192 → ¬err → smGet 0 t.regs.s c = 0)
        ∧ (c < 192 → err → smGet 0 t.regs.s c = 2)))

/-- R295..R297, R307, R315..R317. That TRDC gives the code modulo its width, where TWRC and TWRR keep all bits of the
storage width, is the model's reading (log 113, DEDUCED). -/
def Obligations.MatrixClaimsAndTiles : Prop :=
  ∀ (n f d x r : Nat) (s : State), s.iss.hazard = none →
    let cap (sl : Bool) := if sl then 32 else 16
    let resv (sl : Bool) := if sl then s.blk.k.slots else s.blk.k.accs
    let names := (List.range n).map (fun i => f + i)
    let slotNames (t : State) := t.team.mat.slots.map Prod.fst
    let tileNames (t : State) := t.team.mat.tiles.map Prod.fst
    let bad (sl : Bool) := cap sl < f + n ∨ resv sl < n
    let held (sl : Bool) := ∃ k, k ∈ names ∧ k ∈ (if sl then slotNames s else tileNames s)
    let tib (uid : Nat) : Nat := match s.findTeam uid with | some v => v.tib | none => 0
    let joins (q r : List (Nat × Nat)) : Prop := ∃ front back, q = front ++ back
      ∧ r = front ++ (s.team.uid, s.clk) :: back
      ∧ (∀ y ∈ front, y.2 < s.clk ∨ tib y.1 < s.team.tib)
      ∧ ∀ y ∈ back.head?, ¬(y.2 < s.clk ∨ tib y.1 < s.team.tib)
    let claim (sl try_ : Bool) (i : Instr) : Prop :=
      (bad sl → exec i s = .next (takeFault (s.flt .claimRange) s)) ∧
      (¬bad sl → try_ = false → s.team.mat.slots ≠ [] ∨ s.team.mat.tiles ≠ [] →
        exec i s = .next (takeFault (s.flt .claimNested) s)) ∧
      (¬bad sl → try_ = true ∨ (s.team.mat.slots = [] ∧ s.team.mat.tiles = []) →
        (held sl → exec i s = .next (s.setS d 2).retire) ∧
        (¬held sl → n ≤ s.claimFree sl s.team.bid s.team.core → ∃ t, exec i s = .next t ∧ tookEffect s t
          ∧ (sl = true → t.team.mat.slots = s.team.mat.slots ++ names.map (fun k => (k, Slot.zero)))
          ∧ (sl = false → t.team.mat.tiles = s.team.mat.tiles ++ names.map (fun k => (k, [])))
          ∧ (storesWf s = true → d < 192 → t.getS d = 0) ∧ sameBytes s t) ∧
        (¬held sl → s.claimFree sl s.team.bid s.team.core < n →
          (try_ = true → exec i s = .next (s.setS d 1).retire) ∧
          (try_ = false → ∃ t, exec i s = .next t ∧ tookEffect s t ∧ t.team.phase = .waiting (.claim sl f n d)
            ∧ (sl = true → joins s.blk.slotQueue t.blk.slotQueue)
            ∧ (sl = false → joins s.blk.tileQueue t.blk.tileQueue))))
    let release (sl : Bool) (i : Instr) : Prop :=
      (cap sl < f + n → exec i s = .next (takeFault (s.flt .claimRange) s)) ∧
      (f + n ≤ cap sl → (∃ k, k ∈ names ∧ k ∉ (if sl then slotNames s else tileNames s)) →
        exec i s = .next (takeFault (s.flt .slotState) s)) ∧
      (f + n ≤ cap sl → (∀ k ∈ names, k ∈ (if sl then slotNames s else tileNames s)) →
        ∃ t, exec i s = .next t ∧ tookEffect s t
          ∧ (sl = true → t.team.mat.slots = s.team.mat.slots.filter (fun y => decide (y.1 ∉ names))
              ∧ t.team.mat.tiles = s.team.mat.tiles)
          ∧ (sl = false → t.team.mat.tiles = s.team.mat.tiles.filter (fun y => decide (y.1 ∉ names))
              ∧ t.team.mat.slots = s.team.mat.slots))
    let line (l : Nat) := (s.getS r).toNat + l / 32
    let act (l m : Nat) : Prop := l < s.team.size ∧ s.team.lanes.active.getLsbD l = true ∧ line l < m
    let row (l : Nat) := 32 * line l + l % 32
    let col (l : Nat) := 32 * (l % 32) + line l
    let tile (t : State) : Option Tile := (t.team.mat.tiles.find? (fun y => y.1 == x)).map Prod.snd
    let slot (t : State) : Option Slot := (t.team.mat.slots.find? (fun y => y.1 == x)).map Prod.snd
    let reads (i : Instr) (at_ : Nat → Nat) : Prop := ∀ y, tile s = some y → ∃ t, exec i s = .next t ∧ tookEffect s t
      ∧ (∀ l, l < 1024 → (act l 32 → t.getV d l = smGet 0 y (at_ l)) ∧ (¬act l 32 → t.getV d l = s.getV d l))
      ∧ t.team.mat = s.team.mat ∧ sameBytes s t
    let writes (i : Instr) (at_ : Nat → Nat) : Prop := ∀ y, tile s = some y → smWf (0 : Word32) y = true →
      ∃ t z, exec i s = .next t ∧ tookEffect s t ∧ tile t = some z ∧ t.team.regs = s.team.regs ∧ sameBytes s t
        ∧ (∀ l, act l 32 → smGet 0 z (at_ l) = s.getV d l)
        ∧ (∀ e, (∀ l, act l 32 → e ≠ at_ l) → smGet 0 z e = smGet 0 y e)
    let first (q : List (Nat × Nat)) : Option Nat :=
      (q.map Prod.fst).find? (fun u => match s.findTeam u with | some v => v.core == s.team.core | none => false)
    let unbound (i : Instr) (isTile : Bool) : Prop := (if isTile then tile s = none else slot s = none) →
      exec i s = .next (takeFault (s.flt .slotState) s)
    claim true false (.tclm d n f) ∧ claim true true (.tclmTry d n f) ∧ claim false false (.aclm d n f) ∧
    claim false true (.aclmTry d n f) ∧ release true (.trel n f) ∧ release false (.arel n f) ∧
    (∀ sl, s.team.phase = .waiting (.claim sl f n d) →
      let q := if sl then s.blk.slotQueue else s.blk.tileQueue
      (first q = some s.team.uid → n ≤ s.claimFree sl s.team.bid s.team.core → ∃ t, exec .claimGrant s = .next t
        ∧ t.team.phase = .ready ∧ t.team.pc = s.team.pc + 4
        ∧ (sl = true → t.team.mat.slots = s.team.mat.slots ++ names.map (fun k => (k, Slot.zero)))
        ∧ (sl = false → t.team.mat.tiles = s.team.mat.tiles ++ names.map (fun k => (k, [])))) ∧
      (first q ≠ some s.team.uid → exec .claimGrant s = .next s) ∧
      (s.claimFree sl s.team.bid s.team.core < n → exec .claimGrant s = .next s)) ∧
    (s.vOk d = true → storesWf s = true → s.team.size ≤ 1024 →
      unbound (.ardr d x r) true ∧ unbound (.ardc d x r) true ∧ unbound (.awrr d x r) true ∧ unbound (.awrc d x r) true ∧
      unbound (.trdr d x r) false ∧ unbound (.trdc d x r) false ∧ unbound (.twrr d x r) false ∧ unbound (.twrc d x r) false ∧
      reads (.ardr d x r) row ∧ reads (.ardc d x r) col ∧ writes (.awrr d x r) row ∧ writes (.awrc d x r) col ∧
      (∀ y, slot s = some y →
        (∃ t, exec (.trdr d x r) s = .next t ∧ tookEffect s t ∧
          ∀ l, l < 1024 → (s.getS r).toNat + l / 16 < 32 → l / 16 < s.team.size / 16 →
            s.team.lanes.active &&& groupMask (l / 16) ≠ 0 → t.getV d l =
              BitVec.ofNat 32 ((y.sector ((s.getS r).toNat + l / 16)).1.toNat / 2 ^ (32 * (l % 16)))) ∧
        (∃ t, exec (.trdc d x r) s = .next t ∧ tookEffect s t ∧
          ∀ l, act l (if y.kind = .zero then 64 else 32 * 2 ^ y.kc) →
            t.getV d l = BitVec.ofNat 32 (smGet 0 y.codes (128 * (l % 32) + line l) % 2 ^ y.width)) ∧
        (∃ t, exec (.trdc d x r) s = .next t ∧ ∀ g, g < s.team.size / 16 → t.getSide d g = 0) ∧
        (y.kind ≠ .dense → exec (.twrr d x r) s = .next (takeFault (s.flt .slotState) s)
          ∧ exec (.twrc d x r) s = .next (takeFault (s.flt .slotState) s)) ∧
        (y.kind = .dense → smWf (0 : Nat) y.codes = true →
          (∃ t z, exec (.twrc d x r) s = .next t ∧ tookEffect s t ∧ slot t = some z ∧
            (∀ l, act l (32 * 2 ^ y.kc) → smGet 0 z.codes (128 * (l % 32) + line l) = (s.getV d l).toNat % 2 ^ y.store) ∧
            (∀ e, (∀ l, act l (32 * 2 ^ y.kc) → e ≠ 128 * (l % 32) + line l) → smGet 0 z.codes e = smGet 0 y.codes e) ∧
            z.scales = y.scales) ∧
          (smWf (0 : Nat) y.scales = true → y.kc < 3 →
            ∃ t z, exec (.twrr d x r) s = .next t ∧ tookEffect s t ∧ slot t = some z ∧ z.kind = .dense
            ∧ t.team.regs = s.team.regs ∧
            let g (i : Nat) : Nat := i - (s.getS r).toNat
            let given (i : Nat) : Prop := (s.getS r).toNat ≤ i ∧ i < 32 ∧ g i < s.team.size / 16
              ∧ s.team.lanes.active &&& groupMask (g i) ≠ 0
            ∀ i, i < 32 →
              (given i →
                (∀ e, e < 32 * 2 ^ y.kc → smGet 0 z.codes (128 * i + e) =
                  (s.group d (g i)).data / 2 ^ (y.store * e) % 2 ^ y.store) ∧
                (∀ e, e < 2 * 2 ^ y.kc → smGet 0 z.scales (8 * i + e) =
                  if y.scaled then (s.group d (g i)).side / 2 ^ (8 * e) % 256 else 0)) ∧
              (¬given i → (∀ e, e < 128 → smGet 0 z.codes (128 * i + e) = smGet 0 y.codes (128 * i + e)) ∧
                ∀ e, e < 8 → smGet 0 z.scales (8 * i + e) = smGet 0 y.scales (8 * i + e)))))) ∧
    (tile s ≠ none → ∃ t, exec (.azero x) s = .next t ∧ tookEffect s t ∧ tile t = some [] ∧ t.team.regs = s.team.regs) ∧
    (∀ y, slot s = some y → exec (.tinfo d 0 x) s = .next (s.setS d y.word0).retire
      ∧ exec (.tinfo d 1 x) s = .next (s.setS d y.word1).retire ∧ exec (.tinfo d 2 x) s = .next (s.setS d y.word2).retire
      ∧ exec (.tinfo d 3 x) s = .next (s.setS d y.word3).retire) ∧
    unbound (.azero x) true ∧ (∀ k, unbound (.tinfo d k x) false)

/-- R48, R84, R299..R302, R304, R308..R314, R318, R319, R395. That the words of the members are compared when the last
member issues is log 53, that leave is charged to each member at its own core and counted by member 0's bitmap is log
54 (both DEDUCED). That leave is asked for before the binding check is the model's order (log 117, DEDUCED); a word
that has been granted issues. -/
def Obligations.MatrixStepsAndTransfers : Prop :=
  ∀ (d a b x y c n k t f r q : Nat) (s : State), s.iss.hazard = none → s.team.uid ≠ 0 →
    (∀ u ∈ s.others, u.uid ≠ s.team.uid) →
    let whole := s.team.lanes.active = firstLanes s.team.size
    let slot (u : State) (m : Nat) : Option Slot := (u.team.mat.slots.find? (fun z => z.1 == m)).map Prod.snd
    let tile (u : State) (m : Nat) : Option Tile := (u.team.mat.tiles.find? (fun z => z.1 == m)).map Prod.snd
    let solo := s.team.mat.member = none
    let leave (m : Nat) : Prop := m ≤ s.team.tokSteps + (256 - smGet 0 s.freeSteps s.team.core) ∨ s.team.granted = some s.team.pc
    let pairOk (p p' : Slot) : Prop := (p.kind = .zero ∨ p'.kind = .zero ∨ p.kc = p'.kc) ∧
      ¬((p.kind = .decomposed ∨ p.kind = .structured) ∧ (p'.kind = .decomposed ∨ p'.kind = .structured))
    let begins (i : Instr) (z : Bool) : Prop :=
      (whole → ¬leave 1 → exec i s = .next (s.stall (.leave false 1))) ∧
      (whole → leave 1 → slot s a = none ∨ slot s b = none ∨ tile s d = none →
        exec i s = .next (takeFault (s.flt .slotState) s)) ∧
      (∀ p p' acc, whole → leave 1 → slot s a = some p → slot s b = some p' → tile s d = some acc → pairOk p p' →
        ∃ u, exec i s = .next u ∧ tookEffect s u ∧ u.team.regs = s.team.regs ∧ sameBytes s u
          ∧ u.team.mat.steps = s.team.mat.steps ++
              [{ acc := d, fromZero := z, reads := [(s.team.uid, a), (s.team.uid, b)], chunks := [(p, p')] }]
          ∧ u.team.mat.tiles = s.team.mat.tiles)
    (solo → begins (.mma d a b x y 0) false ∧ begins (.mmaZ d a b x y 0) true) ∧
    (let mine := match s.team.mat.member with | some m => m.cv | none => 0
     (c ≠ mine → exec (.mma d a b x y c) s = .next (takeFault (s.flt .convMismatch) s)
       ∧ exec (.mmaZ d a b x y c) s = .next (takeFault (s.flt .convMismatch) s)) ∧
     (¬whole → exec (.mma d a b x y mine) s = .next (takeFault (s.flt .illegalConvergence) s)
       ∧ exec (.mmaZ d a b x y mine) s = .next (takeFault (s.flt .illegalConvergence) s)
       ∧ exec (.mmas d a b n k) s = .next (takeFault (s.flt .illegalConvergence) s))) ∧
    (solo → let kept := (List.range (n + 1)).filter (fun i => !(s.getS k).getLsbD i)
     (whole → ¬leave kept.length → exec (.mmas d a b n k) s = .next (s.stall (.leave false
       (kept.length - min kept.length (256 - smGet 0 s.freeSteps s.team.core))))) ∧
     (whole → leave kept.length → (∃ i ∈ kept, slot s (a + i) = none ∨ slot s (b + i) = none) →
       exec (.mmas d a b n k) s = .next (takeFault (s.flt .slotState) s)) ∧
     (∀ P Q : Nat → Slot, whole → leave kept.length → tile s d ≠ none →
       (∀ i ∈ kept, slot s (a + i) = some (P i) ∧ slot s (b + i) = some (Q i) ∧ pairOk (P i) (Q i)) →
       ∃ u, exec (.mmas d a b n k) s = .next u ∧ tookEffect s u ∧ u.team.regs = s.team.regs ∧ sameBytes s u
         ∧ u.team.mat.tiles = s.team.mat.tiles
         ∧ u.team.mat.steps = s.team.mat.steps ++ kept.map (fun i =>
             { acc := d, fromZero := false, reads := [(s.team.uid, a + i), (s.team.uid, b + i)], chunks := [(P i, Q i)] }))) ∧
    (∀ me v, s.team.mat.member = some me → s.blk.findConv me.cv = some v → v.dissolved = false → v.broken = false → whole →
      let team (u : State) (i : Nat) : Option Team := u.findTeam i
      let own (h : Team) (m : Nat) : Option Slot := (h.mat.slots.find? (fun z => z.1 == m)).map Prod.snd
      let others := v.members.filter (fun i => i != s.team.uid)
      let last := v.issues.length + 1 = v.n ∧ v.members.Nodup ∧ s.team.uid ∈ v.members ∧ team s s.team.uid = some s.team
        ∧ ∀ i ∈ others, ∃ h, team s i = some h ∧ h.uid = i ∧ i ≠ 0 ∧ ∃ w, h.phase = .waiting (.step w)
      let refused (i : Instr) (cause : Cause) : Prop :=
        s.blk.k.trapEntry = none → s.blk.bid = s.team.bid → s.team.phase = .ready → (∀ l ∈ s.launches, ∀ rcb, l.from_ ≠ .handler rcb) →
        (s.teams.map Team.uid).Nodup → (∀ j ∈ others, ∀ h, team s j = some h → h.bid = s.team.bid) →
        ∃ u, exec i s = .next u ∧ ∀ j ∈ v.members, ∃ g h, team s j = some g ∧ team u j = some h ∧ h.phase = .held
          ∧ h.fault.map FaultInfo.cause = some cause ∧ h.pc = g.pc ∧ h.mat.steps = g.mat.steps
      let gang (i : Instr) (z : Bool) (js : List Nat) : Prop :=
        (¬leave js.length → exec i s = .next (s.stall (.leave false
          (js.length - min js.length (256 - smGet 0 s.freeSteps s.team.core))))) ∧
        (leave js.length → v.issues.length + 1 ≠ v.n → ∃ u, exec i s = .next u ∧ tookEffect s u
          ∧ u.team.phase = .waiting (.step s.iss.word) ∧ u.team.pc = s.team.pc ∧ u.team.mat = s.team.mat ∧ sameBytes s u
          ∧ u.blk.findConv me.cv = some { v with issues := v.issues ++ [⟨s.team.uid, s.iss.word⟩] }) ∧
        (leave js.length → last → (∃ y ∈ v.issues, y.word ≠ s.iss.word) → refused i .convMismatch) ∧
        (leave js.length → last → (∀ y ∈ v.issues, y.word = s.iss.word) →
          let step (o : Nat) (m : Nat) (reads : List (Nat × Nat)) (chunks : List (Slot × Slot)) : List StepInFlight :=
            if o = m then [{ acc := d, fromZero := z, reads := reads, chunks := chunks }] else []
          let begun (due : Nat → Nat → List StepInFlight) : Prop := ∃ u, exec i s = .next u ∧ tookEffect s u ∧ sameBytes s u
            ∧ u.team.pc = s.retire.team.pc ∧ ∀ o ∈ v.members, ∃ g h, team s o = some g ∧ team u o = some h ∧ h.regs = g.regs
              ∧ h.mat.tiles = g.mat.tiles ∧ h.mat.slots = g.mat.slots ∧ h.mat.steps = g.mat.steps ++ js.flatMap (due o)
              ∧ (o ≠ s.team.uid → h.phase = .ready ∧ h.pc = g.pc + 4)
          (∀ P Q : Nat → Nat → Slot, ∀ kc m0,
            (∀ o ∈ v.members, ∀ g, team s o = some g → ∀ j ∈ js, own g (b + j) = some (Q o j)) → v.members.head? = some m0 →
            (∀ o ∈ v.members, ∀ j ∈ js, (P o j).kind = .zero ∨ (P o j).kc = kc) →
            (∀ o ∈ v.members, ∀ j ∈ js, (Q o j).kind = .zero ∨ (Q o j).kc = kc) →
            let apart (p p' : Slot) : Prop := ¬((p.kind = .decomposed ∨ p.kind = .structured)
              ∧ (p'.kind = .decomposed ∨ p'.kind = .structured))
            let bound (o : Nat) : Prop := ∀ g, team s o = some g → ∃ z, (d, z) ∈ g.mat.tiles
            (v.mode ≠ 1 → (∀ g, team s m0 = some g → ∀ j ∈ js, own g (a + j) = some (P m0 j)) → (∀ o ∈ v.members, bound o) →
              (∀ o ∈ v.members, ∀ j ∈ js, apart (P m0 j) (Q o j)) →
              begun (fun o j => step o o [(m0, a + j), (o, b + j)] [(P m0 j, Q o j)])) ∧
            (v.mode = 1 → (∀ o ∈ v.members, ∀ g, team s o = some g → ∀ j ∈ js, own g (a + j) = some (P o j)) → bound m0 →
              (∀ o ∈ v.members, ∀ j ∈ js, apart (P o j) (Q o j)) →
              begun (fun o j => step o m0 (v.members.flatMap (fun q => [(q, a + j), (q, b + j)]))
                (v.members.map (fun q => (P q j, Q q j)))))) ∧
          ((∃ o ∈ v.members, ∃ j ∈ js, ∀ g, team s o = some g → own g (b + j) = none) → refused i .slotState))
      gang (.mma d a b x y me.cv) false [0] ∧ gang (.mmaZ d a b x y me.cv) true [0] ∧
      ∀ m0 g, v.members.head? = some m0 → team s m0 = some g →
        gang (.mmas d a b n k) false ((List.range (n + 1)).filter (fun i => !(g.getS k).getLsbD i))) ∧
    (∀ st rest acc kc, s.team.mat.steps = st :: rest → tile s st.acc = some acc →
      (∀ p ∈ st.chunks, (p.1.kind = .zero ∨ p.1.kc = kc) ∧ (p.2.kind = .zero ∨ p.2.kc = kc)) →
      (kc = 0 ∨ ∃ p ∈ st.chunks, p.1.kind ≠ .zero ∨ p.2.kind ≠ .zero) →
      let sum (i j : Nat) : Nat × Byte := fusedSum (s.team.sp.mode.getLsbD 12)
        (st.chunks.flatMap (fun p => (List.range (2 * 2 ^ kc)).map (fun h => blockValue (p.1.values i h) (p.2.values j h))))
        (if st.fromZero then 0 else (smGet 0 acc (32 * i + j)).toNat)
      ∃ u z, exec .matrixStepDone s = .next u ∧ u.team.mat.steps = rest ∧ tile u st.acc = some z
        ∧ (∀ i j, i < 32 → j < 32 → smGet 0 z (32 * i + j) = BitVec.ofNat 32 (sum i j).1)
        ∧ (∀ m : Nat, u.team.sp.sticky.getLsbD m = true ↔
            s.team.sp.sticky.getLsbD m = true ∨ ∃ i j, i < 32 ∧ j < 32 ∧ (sum i j).2.getLsbD m = true)
        ∧ (∀ m, m ≠ st.acc → tile u m = tile s m) ∧ u.team.mat.slots = s.team.mat.slots ∧ u.team.regs = s.team.regs
        ∧ sameBytes s u) ∧
    (∀ at_ sl, slot s t = some sl → s.imagePlace .load (s.getS b) 2048 = .ok at_ → slotFormatOk k (s.getS f) = true →
      (∀ j, j < 32 → s.poisonAt (.spad at_.1 (at_.2 + 64 * j)) = false) → s.team.mat.transfers = [] →
      ∃ u v z, exec (.tldDense t b f k) s = .next u ∧ tookEffect s u ∧ slot u t = some sl
        ∧ exec .tileTransferComplete u = .next v ∧ v.team.mat.transfers = [] ∧ slot v t = some z ∧ z.kind = .dense
        ∧ z.kc = k ∧ z.fmt = (s.getS f).toNat % 2 ^ 32 ∧ v.team.regs = s.team.regs ∧ sameBytes s v
        ∧ (∀ i e, i < 32 → e < 32 * 2 ^ k → k < 3 → smGet 0 z.codes (128 * i + e) =
            s.readAt (.spad at_.1 (at_.2 + 64 * i)) 64 / 2 ^ (z.store * e) % 2 ^ z.width)) ∧
    (∀ at_ sl, slot s t = some sl → slotFormatOk k (s.getS f) = true → dcwOk s.team.sp.dcw = true →
      let took (u v : State) (z : Slot) (mode : Nat) : Prop := tookEffect s u ∧ u.team.mat.slots = s.team.mat.slots
        ∧ u.team.regs = s.team.regs ∧ sameBytes s u ∧ u.team.mat.transfers.length = s.team.mat.transfers.length + 1
        ∧ (s.team.mat.transfers = [] → exec .tileTransferComplete u = .next v ∧ v.team.mat.transfers = []
            ∧ slot v t = some z ∧ z.kc = k ∧ z.fmt = (s.getS f).toNat % 2 ^ 32 ∧ v.team.regs = s.team.regs ∧ sameBytes s v
            ∧ z.word0 = BitVec.ofNat 64 ((s.getS f).toNat % 2 ^ 32 + mode * 2 ^ 32 + k * 2 ^ 34))
      let word (j : Nat) : Nat := s.readAt (.spad at_.1 (at_.2 + 64 * j)) 64
      (s.imagePlace .load (s.getS b) 2048 = .ok at_ →
        (∀ j, j < 32 → s.poisonAt (.spad at_.1 (at_.2 + 64 * j)) = false) →
        ∃ u v z, exec (.tldDec t b f k) s = .next u ∧ took u v z 1 ∧
          (s.team.mat.transfers = [] → (z.kind = .dense ∨ z.kind = .decomposed) ∧
            ∀ y, (∃ u' v', exec (.tldDense t b f k) s = .next u' ∧ exec .tileTransferComplete u' = .next v'
                ∧ slot v' t = some y) → k < 3 → ∀ i e, i < 32 → e < 32 * 2 ^ k →
              let m := dcwM s.team.sp.dcw
              let key (j : Nat) : Nat := magKey ((y.values i (j / 16)).getD (j % 16) (.fin false 0 0))
              let rank := ((List.range m).filter (fun j =>
                let j := e / m * m + j
                decide (key e < key j) || (key j == key e && decide (j < e)))).length
              smGet 0 z.codes (128 * i + e) =
                if z.word1.getLsbD 10 = true ∧ key e ≠ 0 ∧ s.team.sp.dcw.toNat / 2 ^ 4 % 8 * dcwN s.team.sp.dcw ≤ rank
                then 0 else smGet 0 y.codes (128 * i + e))) ∧
      (s.imagePlace .load (s.getS b) 4096 = .ok at_ →
        (∀ j, j < 64 → s.poisonAt (.spad at_.1 (at_.2 + 64 * j)) = false) →
        (∀ j, j < 32 → positionsOk (dcwN s.team.sp.dcw) (dcwM s.team.sp.dcw)
          (32 * 2 ^ k * dcwN s.team.sp.dcw / dcwM s.team.sp.dcw) (s.readAt (.spad at_.1 (at_.2 + 64 * (32 + j))) 64) = true) →
        ∃ u v z, exec (.tldPcs t b f k) s = .next u ∧ took u v z 2 ∧
          (s.team.mat.transfers = [] → z.kind = .structured ∧
            ∀ i e, i < 32 → e < 32 * 2 ^ k → k < 3 → smGet 0 z.codes (128 * i + e) =
              expandLine z.store (dcwN s.team.sp.dcw) (dcwM s.team.sp.dcw)
                (32 * 2 ^ k * dcwN s.team.sp.dcw / dcwM s.team.sp.dcw) (word i) (word (32 + i))
              / 2 ^ (z.store * e) % 2 ^ z.width))) ∧
    (∀ at_ sl, slot s t = some sl → s.imagePlace .store (s.getS b) 2048 = .ok at_ → s.team.mat.transfers = [] →
      storesWf s = true → ordinary s (.spad at_.1 at_.2) 2048 → at_.2 % 64 = 0 →
      ∃ u v, exec (.tst t b) s = .next u ∧ tookEffect s u ∧ sameBytes s u ∧ exec .tileTransferComplete u = .next v
        ∧ (∀ j, j < 32 → v.readAt (.spad at_.1 (at_.2 + 64 * j)) 64 = (sl.sector j).1.toNat
            ∧ v.sideAt (.spad at_.1 (at_.2 + 64 * j)) = (sl.sector j).2)
        ∧ (∀ p, (∀ j, j < 2048 → p ≠ .spad at_.1 (at_.2 + j)) → v.byteAt p = s.byteAt p)) ∧
    (∀ at_ acc, tile s a = some acc → s.imagePlace .store (s.getS b) 2048 = .ok at_ →
      fmtValid (s.fmtWord f) false false = true → q < (blockFmt (s.fmtWord f)).perSector / 2 →
      let fm := blockFmt (s.fmtWord f)
      let relu (x : FloatVal) : FloatVal := match x with
        | .fin n m e => if n || m == 0 then .fin false 0 0 else .fin n m e
        | .inf true => .fin false 0 0
        | z => z
      let block (i h : Nat) : QuantBlock := fm.quantise s.rm (fun j => s.aqntRandom i (16 * h + j)) none
        ((List.range 16).map (fun j =>
          let z := binary32.decode (smGet 0 acc (32 * i + 16 * h + j)).toNat
          if r = 1 then relu z else z))
      ∃ u fl secs, exec (.aqnt a b f r q) s = .next u ∧ tookEffect s u ∧ sameBytes s u ∧ u.team.regs = s.team.regs
        ∧ u.team.mat.tiles = s.team.mat.tiles ∧ u.team.mat.transfers = s.team.mat.transfers ++ [.image at_.1 secs fl]
        ∧ secs.length = 32
        ∧ (∀ n : Nat, fl.getLsbD n = true ↔ ∃ i h, i < 32 ∧ h < 2 ∧ (block i h).flags.getLsbD n = true)
        ∧ ∀ i, i < 32 → ∃ x, secs[i]? = some x ∧ x.off = at_.2 + 64 * i
          ∧ (∀ n, n < 512 → (x.mask.getLsbD n = true ↔ (32 * fm.storage * q ≤ n ∧ n < 32 * fm.storage * (q + 1))
              ∨ (fm.storage = 6 ∧ 384 ≤ n)))
          ∧ (∀ n, n < 64 → (x.sideMask.getLsbD n = true ↔ 16 * q ≤ n ∧ n < 16 * (q + 1)))
          ∧ (fm.storage = 6 → ∀ n, 384 ≤ n → x.data.getLsbD n = false)
          ∧ ∀ h, h < 2 → x.side.toNat / 2 ^ (8 * (2 * q + h)) % 256 = fm.sideByte (block i h).scale % 256
            ∧ ∀ j, j < 16 → x.data.toNat / 2 ^ (fm.storage * (16 * (2 * q + h) + j)) % 2 ^ fm.storage =
                (block i h).codes.getD j 0 % 2 ^ fm.width)

/-- R320..R322, R330, R333, R335..R339, R395, R163, R166. These are the model's: a queue entry frees at completion
(log 96), NSEND checks its source descriptor as a destination too (log 95), how XPUB releases (log 56), that an unread
send may write a published buffer (log 109), which bytes count against the 64 KiB (log 130), that a failed XPUB keeps
the link (log 132), its partner keeps its G and a background copy under way ends first (log 65), lost flushes hold
nothing up (log 91). -/
def Obligations.EngineCommandWords : Prop :=
  ∀ (a b c v r : Nat) (s : State), s.iss.hazard = none →
    let g := s.control c
    let slots := (s.cmds.filter (fun x => x.core == s.team.core && !x.fired && x.cpQueue.isNone)).length
    let kib (n : Nat) : Nat := if n ≤ 65536 then 0 else (n + 1023) / 1024
    let bad (i : Instr) : Prop := exec i s = .next (takeFault (s.flt .descriptor) s)
    let queues (i : Instr) (op n : Nat) (g : Control) (kind : CmdKind) : Prop :=
      (32 ≤ slots → exec i s = .next (s.stall .queue)) ∧
      (slots < 32 → s.team.tokCopy < kib n → s.team.granted ≠ some s.team.pc → exec i s = .next (s.stall (.leave true (kib n)))) ∧
      (slots < 32 → (kib n ≤ s.team.tokCopy ∨ s.team.granted = some s.team.pc) → ∃ t x, exec i s = .next t ∧ tookEffect s t ∧ t.cmds = s.cmds ++ [x]
        ∧ x.id = s.nextId ∧ x.kind = kind ∧ x.op = op ∧ x.ctl = g.ctl ∧ x.pbAddr = g.pb ∧ x.recAddr = g.rec_
        ∧ x.uid = s.team.uid ∧ x.off = s.team.pc ∧ x.status = .queued ∧ x.done = 0
        ∧ t.team.tokCopy = s.team.tokCopy - kib n ∧ t.team.regs = s.team.regs
        ∧ (∀ p, ordinary s p 1 → t.byteAt p = s.byteAt p) ∧ ∀ p, t.sideAt p = s.sideAt p)
    let tr := g.ctl.getLsbD 17
    (∀ d src, s.readDesc (s.getS b) = .ok src → s.readDesc (s.getS a) = .ok d →
      (s.controlOk g true = true ∧ copyOk [d] src tr = true → queues (.xcpy a b c) 0x77 d.bytes g (.copy [d] src tr)) ∧
      (¬(s.controlOk g true = true ∧ copyOk [d] src tr = true) → bad (.xcpy a b c)) ∧
      (∀ e, s.readDesc (s.getS a + 64) = .ok e →
        (s.controlOk g true = true ∧ copyOk [d, e] src tr = true →
          queues (.xcpyPair a b c) 0x77 (d.bytes + e.bytes) g (.copy [d, e] src tr)) ∧
        (¬(s.controlOk g true = true ∧ copyOk [d, e] src tr = true) → bad (.xcpyPair a b c)))) ∧
    (∀ d src x, s.readDesc (s.getS a) = .ok d → s.readDesc (s.getS b) = .ok src → s.readDesc g.aux = .ok x →
      let ok := s.controlOk g false = true ∧ d.ok true = true ∧ src.ok false = true ∧ x.ok false = true
      (ok ∧ gatherOk src d x = true → queues (.xgath a b c) 0x78 d.bytes g (.gather d src x)) ∧
      (¬(ok ∧ gatherOk src d x = true) → bad (.xgath a b c)) ∧
      (ok ∧ gatherOk d src x = true → queues (.xscat a b c) 0x79 src.bytes g (.scatter d src x)) ∧
      (¬(ok ∧ gatherOk d src x = true) → bad (.xscat a b c))) ∧
    (∀ d h, s.readDesc (s.getS a) = .ok d → s.loadUnit (s.getS b) 8 = .ok h →
      (leNat h < 1 ∨ 16 < leNat h → bad (.cred a b c)) ∧
      (∀ bs cs, 1 ≤ leNat h → leNat h ≤ 16 → s.loadUnits (s.getS b + 8) 8 (leNat h) = .ok bs →
        (List.range (leNat h)).mapM (fun k => s.readDesc (BitVec.ofNat 64 (leNat ((bs.drop (8 * k)).take 8)))) = .ok cs →
        let ok := s.controlOk g false = true ∧ d.ok true = true ∧ ∀ x ∈ cs, x.ok false = true ∧ x.dim0 = d.dim0
          ∧ x.dim1 = d.dim1 ∧ x.dim2 = d.dim2 ∧ x.dim3 = d.dim3
        (ok → queues (.cred a b c) 0x7E d.bytes g (.reduce d cs)) ∧ (¬ok → bad (.cred a b c)))) ∧
    ((s.controlOk g false = true → queues (.xflush 255 c) 0xFE 0 g (.flush true 0)) ∧
      (s.controlOk g false = false → bad (.xflush 255 c))) ∧
    (∀ bm, a ≠ 255 → s.loadUnits (s.getS a) 64 2 = .ok bm → s.controlOk g false = true →
      queues (.xflush a c) 0xFE 0 g (.flush false (BitVec.ofNat 1024 (leNat bm)))) ∧
    (let w := (s.getS c).toNat
     let peer := (s.getS b).toNat
     let send (src : Option Desc) (imm : Option (List (BitVec 512 × SideBand))) : Send := sendOf w peer src imm
     (s.getS a = 0 → (s.sendOk w peer = true →
        queues (.nsend a b c) 0x7C 0 (sendControl (send none none)) (.send (send none none))) ∧
      (s.sendOk w peer = false → bad (.nsend a b c))) ∧
     (∀ d, s.getS a ≠ 0 → s.readDesc (s.getS a) = .ok d →
      (s.sendOk w peer = true ∧ d.ok true = true →
        queues (.nsend a b c) 0x7C 0 (sendControl (send (some d) none)) (.send (send (some d) none))) ∧
      (¬(s.sendOk w peer = true ∧ d.ok true = true) → bad (.nsend a b c))) ∧
     (let imm := some [(BitVec.ofNat 512 (s.group v 0).data, BitVec.ofNat 64 (s.group v 0).side),
        (BitVec.ofNat 512 (s.group v 1).data, BitVec.ofNat 64 (s.group v 1).side)]
      (s.windowOk false [v] = false → exec (.nsendImm v b c) s = .next (takeFault (s.flt .windowRange) s)) ∧
      (s.windowOk false [v] = true → s.sendOk w peer = true →
        queues (.nsendImm v b c) 0x7C 0 (sendControl (send none imm)) (.send (send none imm))) ∧
      (s.windowOk false [v] = true → s.sendOk w peer = false → bad (.nsendImm v b c)))) ∧
    (∀ bs, s.loadUnit (s.getS c) 32 = .ok bs →
      let f (o : Nat) := leNat ((bs.drop o).take 8)
      let n := (s.getS a).toNat
      let ok := n < 1024 ∧ s.grantOk n = true ∧ f 24 = 0 ∧ (f 16).testBit 27 = false ∧ s.sendOk (f 16) (f 8) = true
      (¬ok → bad (.tsend a b c)) ∧
      (ok → 4096 ≤ s.tableUse → exec (.tsend a b c) s = .next (s.stall .table)) ∧
      (ok → s.tableUse < 4096 → (∀ e ∈ s.hub.armed, e.counter = n → s.arrival n < e.threshold) →
        (s.arrival n < (s.getS b).toNat → ∃ t e, exec (.tsend a b c) s = .next t ∧ tookEffect s t
          ∧ t.hub.armed = s.hub.armed ++ [e] ∧ e.counter = n ∧ e.threshold = (s.getS b).toNat ∧ e.srcAddr.toNat = f 0
          ∧ e.peer = f 8 ∧ e.word.toNat = f 16 ∧ e.off = s.team.pc ∧ t.cmds = s.cmds ∧ t.team.regs = s.team.regs ∧ sameBytes s t) ∧
        ((s.getS b).toNat ≤ s.arrival n → ∃ t x y, exec (.tsend a b c) s = .next t ∧ tookEffect s t
          ∧ t.hub.armed = s.hub.armed ∧ t.cmds = s.cmds ++ [x] ∧ x.fired = true ∧ x.op = 0x7D ∧ x.off = s.team.pc
          ∧ x.kind = .send y ∧ y.srcAddr.toNat = f 0 ∧ y.peer = f 8 ∧ y.dev = f 16 % 1024
          ∧ t.team.regs = s.team.regs ∧ sameBytes s t))) ∧
    (∀ d, s.readDesc (s.getS a) = .ok d →
      (d.ok false = false ∨ d.db = false ∨ s.hub.pubFind s.teamRid d.base.toNat = none →
        bad (.xpub a r c) ∧ bad (.xpubSync a r c)) ∧
      (∀ i, d.ok false = true → d.db = true → s.hub.pubFind s.teamRid d.base.toNat = some i → storesWf s = true →
        let mine (x : Nat) : Prop := s.hub.pubFind s.teamRid x = some i
        let writes (x : Cmd) : Prop := x.uid = s.team.uid ∧ ((∃ y ∈ x.kind.dsts, y.db = true ∧ mine y.base.toNat)
          ∨ ∃ y, x.kind = .send y ∧ y.dev = s.amc.cfg.device ∧ mine y.peer
            ∧ ((∃ d', y.src = some d' ∧ d'.db = true) ∨ (y.src = none ∧ y.srcAddr ≠ 0)))
        let writing := ∃ x ∈ s.cmds, writes x
        let flushed := s.hub.written = [] ∧ ∀ f ∈ s.hub.flushes, f.lost = true
        let waits (i : Instr) : Prop := ∃ t f, exec i s = .next t ∧ t.team.phase = .stalled (.flush f) ∧ t.team.pc = s.team.pc
          ∧ t.team.regs = s.team.regs ∧ t.hub.publish = s.hub.publish ∧ t.hub.written = []
        let e := s.hub.pubEntry i
        let swapped (t : State) : Prop :=
          let f := t.hub.pubEntry i
          f.front = !e.front ∧ f.gen = BitVec.ofNat 32 d.gen ∧ f.linked = false ∧ f.vbase = e.vbase ∧ f.size = e.size
          ∧ f.pa0 = e.pa0 ∧ f.pa1 = e.pa1 ∧ f.rid = e.rid
          ∧ (e.linked = true → e.link ≠ i → (t.hub.pubEntry e.link).front = !(s.hub.pubEntry e.link).front
              ∧ (t.hub.pubEntry e.link).linked = false)
        let status (i : Instr) (x : Word64) (got : State → Prop) : Prop := ∃ t, exec i s = .next t ∧ tookEffect s t
          ∧ (c < 192 → t.getS c = x) ∧ (∀ n, n ≠ c → t.getS n = s.getS n) ∧ t.team.regs.v = s.team.regs.v
          ∧ t.team.regs.p = s.team.regs.p ∧ (∀ p, ordinary s p 1 → t.byteAt p = s.byteAt p) ∧ got t
        (writing → ∃ ids, (∀ k, k ∈ ids ↔ ∃ x ∈ s.cmds, writes x ∧ x.id = k)
          ∧ exec (.xpub a r c) s = .next (s.stall (.publish ids))
          ∧ exec (.xpubSync a r c) s = .next (s.stall (.publish ids))) ∧
        (¬writing → r = 5 → ¬flushed → waits (.xpub a r c) ∧ waits (.xpubSync a r c)) ∧
        (¬writing → (r ≠ 5 ∨ flushed) → (∃ x ∈ s.team.badBuffers, mine x) →
          status (.xpub a r c) 1 (fun t => t.hub.publish = s.hub.publish)
          ∧ status (.xpubSync a r c) 1 (fun t => t.hub.publish = s.hub.publish)) ∧
        (¬writing → (r ≠ 5 ∨ flushed) → (∀ x ∈ s.team.badBuffers, ¬mine x) →
          (∀ x ∈ s.hub.syncs, x.1 ≠ i ∧ (e.linked = true → x.1 ≠ e.link)) →
          status (.xpub a r c) 0 (fun t => swapped t ∧ t.hub.syncs = s.hub.syncs)
          ∧ status (.xpubSync a r c) 0 (fun t => swapped t ∧ t.hub.syncs = s.hub.syncs ++ [(i, 0)]))))

/-- R323..R325, R332, R336, R139, R403, R407, R410, R445. Markers on every path that is up are R426; that with none up
they wait as on a path 16, and when an XFLUSH sends them, is the model's (log 78). A KIND 1 record is R374; events
name their command in the argument of the step. That a hub storage error is logged with UNIT 0 (CP, shadow storage) or
26 (hub tables) and severity 2 is the model's (log 20). -/
def Obligations.EngineCommandRuns : Prop :=
  ∀ (s : State) (c : Cmd),
    (s.argCmd = some c → c.status = .queued →
      (s.cmdFirst c = false → exec .engineCommandStart s = .next s) ∧
      (s.cmdFirst c = true → (∀ all bm, c.kind ≠ .flush all bm) →
        exec .engineCommandStart s = .next (s.setCmd { c with status := .running })) ∧
      (∀ all bm, s.cmdFirst c = true → c.kind = .flush all bm →
        let peers := s.hub.written.filter (fun d => d != s.amc.cfg.device && (all || bm.getLsbD d))
        let up := (List.range 16).filter (fun q => s.hub.ports.getLsbD q)
        let paths := if up = [] then [16] else up
        ∃ t st, exec .engineCommandStart s = .next t
          ∧ t.hub.written = s.hub.written.filter (fun d => !peers.contains d)
          ∧ t.hub.out = s.hub.out ++ peers.flatMap (fun d => paths.map (fun q => LinkMsg.marker d q q st))
          ∧ (∀ x ∈ t.cmds, x.id = c.id → x = { c with status := .running, flushing := some st, peers := x.peers }
              ∧ ∀ p, p ∈ x.peers ↔ p ∈ peers ∨ ∃ f ∈ s.hub.flushes, f.lost = false ∧ p ∈ f.left ∧ (all || bm.getLsbD p) = true)
          ∧ (peers ≠ [] → t.hub.flushes = s.hub.flushes ++ [
              { stamp := st, left := peers, cmd := some c.id, uid := none, lost := false }]))) ∧
    (∀ d src n pa pb, s.argCmd = some c → c.status = .running → c.kind = .copy [d] src false → c.ctl = 0 → c.cpQueue = none →
      c.done = 0 → c.cause = 0 → c.poisoned = false → c.mark = Cmd.fresh.mark → c.mem = Cmd.fresh.mem → c.loose = none → c.refused = [] →
      c.sentUnits = [] → s.cmdWaits c = false → s.queues = [] → s.records = [] →
      (∀ b ∈ s.allBlocks, b.convs = []) → (∀ x ∈ s.teams, x.phase ≠ .waiting .mismatch ∧ x.check = none) → storesWf s = true →
      let v : View := (s.asCmd c).teamView
      d.elem ≠ 0 → src.elem = d.elem → d.rowBytes = n → src.rowBytes = n → 0 < n →
      d.dim1 = 1 → d.dim2 = 1 → d.dim3 = 1 → src.dim1 = 1 → src.dim2 = 1 → src.dim3 = 1 →
      d.flags = 0 → src.flags = 0 → d.owner = 0 → src.owner = 0 → d.base.toNat < 2 ^ 56 → src.base.toNat < 2 ^ 56 →
      d.base.toNat % 64 + n ≤ 64 → src.base.toNat % 64 + n ≤ 64 →
      s.translate v .engineRead src.base.toNat = .ok pa → s.poisonAt (.dev pa) = false →
      (s.noteVa v .engineRead src.base.toNat).translate v (.engineWrite false) d.base.toNat = .ok pb →
      ordinary s (.dev pb) n →
      (pa + n ≤ pb ∨ pb + n ≤ pa) →
      ∃ t, exec .engineCommandComplete s = .next t ∧ t.readAt (.dev pb) n = s.readAt (.dev pa) n
        ∧ (∀ p, (∀ k, k < n → p ≠ .dev (pb + k)) → t.byteAt p = s.byteAt p) ∧ ∀ x ∈ t.cmds, x.id ≠ c.id) ∧
    (∀ x cc, s.argCmd = some c → c.status = .running → c.kind = .send x → x.src = none → x.imm = none → x.srcAddr = 0 →
      x.rinc = false → x.dev ≠ s.amc.cfg.device → cc < 64 → c.ctl = BitVec.ofNat 64 (128 + cc) → c.cpQueue = none →
      s.cmdWaits c = false → s.queues = [] → s.records = [] → c.bid = s.blk.bid → c.bid ≠ 0 → c.sentUnits = [] →
      (∀ b ∈ s.allBlocks, b.convs = []) → (∀ y ∈ s.teams, y.phase ≠ .waiting .mismatch ∧ y.check = none) →
      smWf (0 : Nat) s.blk.counters = true →
      ∃ t, exec .engineCommandComplete s = .next t ∧ (∀ y ∈ t.cmds, y.id ≠ c.id)
        ∧ smGet 0 t.blk.counters cc % 2 ^ 32 = (smGet 0 s.blk.counters cc + 1) % 2 ^ 32
        ∧ ((smGet 0 t.blk.counters cc).testBit 63 = true ↔
            (smGet 0 s.blk.counters cc).testBit 63 = true ∨ c.poisoned = true)) ∧
    (∀ u c' e sent k x, s.argCmd = some c → c.status = .running → s.cmdWaits c = false →
      s.runCmd c = (u, c', some e, sent) → (match c'.dom with | some d => some d | none => u.domRef c'.rcb) = some k →
      u.findDomain k.rcb = some x →
      ∃ t r, exec .engineSuspend s = .next t ∧ t.mem = u.mem ∧ t.blk = u.blk ∧ t.hub.arrival = u.hub.arrival
        ∧ (∀ y ∈ t.cmds, y.id = c.id → y = { c' with status := .suspended, stopCause := e.cause, stopAddr := BitVec.ofNat 64 e.addr })
        ∧ t.findDomain k.rcb = some { x with waiting := x.waiting ++ [r], nextTicket := (r.ticket + 1) % 0xFFFFFFFF }
        ∧ r.cause = 0x1E ∧ r.kind = 1 ∧ r.cmd = some c.id ∧ r.uid = none ∧ r.restart = true
        ∧ r.fqSize = k.fqSize ∧ r.fqBase = k.fqBase ∧ r.fqRoot = k.root ∧ r.fqRid = k.rid ∧ r.body = c'.record r.stamp e.cause e.addr e.sid
        ∧ ((∀ y, (y ∈ x.waiting ∨ y ∈ x.open_) → y.ticket ≠ x.nextTicket) → x.nextTicket < 0xFFFFFFFF →
            r.ticket = x.nextTicket)
        ∧ (x.waiting.length + x.open_.length < 0xFFFFFFFF →
            ∀ y, (y ∈ x.waiting ∨ y ∈ x.open_) → y.ticket ≠ r.ticket)) ∧
    (∀ i k, storesWf s = true → s.hub.syncs = [(i, k)] → s.arg.id = i → s.arg.len = 1 →
      let e := s.hub.pubEntry i
      let f := e.backings.1 + 64 * k
      let g := e.backings.2 + 64 * k
      k < e.size / 64 → f % 64 = 0 → g % 64 = 0 → f ≠ g → ordinary s (.dev f) 64 → ordinary s (.dev g) 64 →
      ∃ t, exec .publishSyncCopy s = .next t ∧ t.readAt (.dev g) 64 = s.readAt (.dev f) 64
        ∧ t.sideAt (.dev g) = s.sideAt (.dev f)
        ∧ (∀ p, ¬sameSector p (.dev g) → t.byteAt p = s.byteAt p ∧ t.sideAt p = s.sideAt p)
        ∧ t.hub.syncs = if k + 1 = e.size / 64 then [] else [(i, k + 1)]) ∧
    (let o := s.arg.addr
     let n := s.arg.bytes.length
     let old := s.hub.pubField (o / 64) 8 8
     storesWf s = true → (n = 1 ∨ n = 2 ∨ n = 4 ∨ n = 8) → o % n = 0 → o + n ≤ pubSize →
      (old = 0 → (o % 64 + n ≤ 8 ∨ 16 ≤ o % 64) → ∃ t, exec .publishEntryStore s = .next t
        ∧ t.readAt (.dev (pubBase + o)) n = leNat s.arg.bytes
        ∧ ∀ p, (∀ k, k < n → p ≠ .dev (pubBase + o + k)) → t.byteAt p = s.byteAt p) ∧
      (old ≠ 0 → (o % 64 + n ≤ 8 ∨ 16 ≤ o % 64) → exec .publishEntryStore s = .next s) ∧
      (old ≠ 0 → o % 64 = 8 → n = 8 → leNat s.arg.bytes = 0 → ∃ t, exec .publishEntryStore s = .next t
        ∧ t.hub.pubField (o / 64) 8 8 = 0) ∧
      (let i := o / 64
       let size := leNat s.arg.bytes
       let e := s.hub.pubEntry i
       let base (x : Nat) : Prop := x % 65536 = 0 ∧ x + size ≤ hbmEnd
       let legal : Prop := e.vbase % 65536 = 0 ∧ e.vbase < 2 ^ 56 ∧ size % 65536 = 0 ∧ base e.pa0 ∧ base e.pa1
         ∧ s.hub.pubField i 0x22 1 < 4 ∧ (e.linked = true → e.link < 4096) ∧ s.hub.pubField i 0x23 1 = 0
         ∧ s.hub.pubField i 0x2A 22 = 0
         ∧ ∀ j, j ≠ i → let f := s.hub.pubEntry j
             f.size = 0 ∨ f.rid ≠ e.rid ∨ f.vbase + f.size ≤ e.vbase ∨ e.vbase + size ≤ f.vbase
       old = 0 → o % 64 = 8 → n = 8 → size ≠ 0 →
         (legal → ∃ t, exec .publishEntryStore s = .next t ∧ t.hub.pubField i 8 8 = size ∧ t.amc.log = s.amc.log
           ∧ ∀ p, (∀ k, k < 8 → p ≠ .dev (pubBase + o + k)) → t.byteAt p = s.byteAt p) ∧
         (¬legal → ∃ t x, exec .publishEntryStore s = .next t ∧ t.hub.publish = s.hub.publish ∧ sameBytes s t
           ∧ t.amc.log = (x :: s.amc.log).take 65536))) ∧
    (∀ pa, s.arg.err = .memory pa → pa < hbmEnd → ∃ t, exec .storageError s = .next t ∧ t.poisonAt (.dev pa) = true
      ∧ sameBytes s t ∧ ∀ q, q / 64 ≠ pa / 64 → t.poisonAt (.dev q) = s.poisonAt (.dev q)) ∧
    (∀ core, s.arg.err = .icache core → exec .storageError s = .next s) ∧
    (∀ table : Bool, s.arg.err = (if table then .hubTable else .hub) → ∃ t x, exec .storageError s = .next t
      ∧ t.amc.log = (x :: s.amc.log).take 65536 ∧ x.unit = (if table then 26 else 0) ∧ x.severity = 2 ∧ sameBytes s t) ∧
    (∀ core n, s.arg.err = .corrected core n → (s.amc.evCtl.map Prod.fst).Nodup → smWf (0 : Nat) s.amc.evCount = true →
      ∃ t, exec .storageError s = .next t ∧ t.team = s.team ∧ t.others = s.others ∧ t.poison = s.poison ∧ sameBytes s t
        ∧ t.amc.evCtl = s.amc.evCtl ∧ ∀ k,
          let on := ∃ w, (k, w) ∈ s.amc.evCtl ∧ k / 32 = (if core then n else 192 + n) ∧ w % 2 ^ 8 = (if core then 15 else 11)
            ∧ w.testBit 15 = true ∧ w.testBit 14 = false
          (on → smGet 0 t.amc.evCount k = (smGet 0 s.amc.evCount k + 1) % 2 ^ 64)
          ∧ (¬on → smGet 0 t.amc.evCount k = smGet 0 s.amc.evCount k)) ∧
    (s.arg.err = .teamState s.team.uid → s.team.uid ≠ 0 → s.team.phase = .ready → s.ownHandler = none →
      ∃ t f, exec .storageError s = .next t ∧ t.team.phase = .held ∧ t.team.fault = some f ∧ f.cause = .machineCheck
        ∧ t.team.regs = s.team.regs ∧ sameBytes s t)

/-- R208, R238..R240, R324, R332, R368, R373..R375, R381, R405, R407, R408. What these words do at user level is
PrivilegedWordsAtUserLevel. These are the model's: another record keeps the team Held, a ticket not yet written is
none, a refused handler launch bars the domain (log 67), the three rows of FDACT act alike (log 36), the zeros of the
handler launch (log 68), that a stale ticket answers 1 whatever ACTION is (log 116), where the bytes lie that a new
spill size adds (log 88), the ADDR of an abandoned command (log 33). The values of the domain are those of the
placement (R371). -/
def Obligations.PrivilegedWordsAndFaultQueue : Prop :=
  ∀ (d r i a : Nat) (s : State), s.team.system = true → storesWf s = true →
    let regs (t : State) : Prop := t.team.regs = s.team.regs ∧ t.team.sp = s.team.sp ∧ sameBytes s t
    (let reads (k x : Nat) : Prop := exec (.psrd d k) s = .next (s.setS d (BitVec.ofNat 64 x)).retireCtl
     reads 0 s.team.rcb ∧ (∀ r, s.blk.eff = some r → reads 1 r.ptroot)
     ∧ (∀ p, s.blk.eff = none → s.partition s.team.rcb = some p → reads 1 p.ptroot) ∧
     (∀ x, s.ownDomain = some x → reads 2 x.head.toNat ∧ reads 3 x.tail.toNat) ∧
     reads 5 s.team.fdStat.toNat ∧ reads 6 s.team.fdArg.toNat) ∧
    (∃ t, exec (.pswr r i) s = .next t ∧ tookEffect s t ∧ regs t
      ∧ (i = 6 → t.team.fdArg = s.getS r) ∧ (i ≠ 6 → t.team.fdArg = s.team.fdArg)) ∧
    (∀ k x, s.teamDomain = some k → s.findDomain k.rcb = some x →
      let y := BitVec.ofNat 32 (s.getS r).toNat
      ∃ t, exec (.pswrFqhead r) s = .next t ∧ tookEffect s t ∧ regs t
        ∧ t.findDomain k.rcb = some { x with head := if (y - x.head).toNat ≤ (x.tail - x.head).toNat then y else x.head }) ∧
    (∀ k x, s.teamDomain = some k → s.findDomain k.rcb = some x →
      let fd (j : Instr) : Prop :=
        let w := (s.getS r).toNat
        let stat (n : Nat) (got : State → Prop) : Prop :=
          ∃ v, exec j s = .next v.settle ∧ tookEffect s v ∧ v.team.fdStat = BitVec.ofNat 64 n ∧ got v
        ((∀ y ∈ x.open_, y.ticket ≠ w % 2 ^ 32) → stat 1 regs) ∧
        (∀ y, x.open_.find? (fun z => z.ticket == w % 2 ^ 32) = some y →
          (w / 2 ^ 32 % 4 = 3 → stat 3 regs) ∧
          (w / 2 ^ 32 % 4 = 0 → y.restart = false → stat 2 regs) ∧
          (w / 2 ^ 32 % 4 = 2 → (y.spill = false ∨ s.team.fdArg.toNat % 65536 ≠ 0) → stat 2 regs) ∧
          (∀ u h f, y.uid = some u → y.cmd = none → u ≠ s.team.uid → s.findTeam u = some h → h.phase = .held → h.fault = some f →
            let closed (v : State) : Prop := v.findDomain k.rcb = some { x with open_ := x.open_.filter (fun z => z.ticket != y.ticket) }
            let other := ∃ m ∈ s.domains, ∃ z, z.uid = some u ∧ (z ∈ m.waiting ∨ (z ∈ m.open_ ∧ ¬(m.rcb = k.rcb ∧ z.ticket = y.ticket)))
            let resumed (v : State) (n : Nat) : Prop := closed v ∧ ∃ h', v.findTeam u = some h' ∧ h'.regs = h.regs
              ∧ h'.spillSz = n ∧ (other → h'.phase = .held ∧ h'.fault = some f)
              ∧ (¬other → h'.pc = f.restart ∧ h'.fault = none ∧ h'.phase = .ready ∧ h'.pre = h.pre)
            (w / 2 ^ 32 % 4 = 0 → y.restart = true → stat 0 (fun v => resumed v h.spillSz)) ∧
            (w / 2 ^ 32 % 4 = 2 → y.spill = true → s.team.fdArg.toNat % 65536 = 0 → h.spillSz < s.team.fdArg.toNat →
              stat 0 (fun v => resumed v s.team.fdArg.toNat ∧ ∃ h' va, v.findTeam u = some h' ∧ va % 65536 = 0
                ∧ h'.spillExt = (h.spillSz, va) :: h.spillExt)) ∧
            (w / 2 ^ 32 % 4 = 2 → s.team.fdArg.toNat ≤ h.spillSz → stat 2 regs) ∧
            (w / 2 ^ 32 % 4 = 1 → stat 0 (fun v => closed v ∧ ∃ h', v.findTeam u = some h' ∧ h'.phase = .ended
              ∧ h'.lanes.active = 0 ∧ h'.mat.slots = [] ∧ h'.mat.tiles = []))) ∧
          (∀ u h f, y.uid = some u → y.cmd = none → u ≠ s.team.uid → s.findTeam u = some h → h.phase = .swapped → h.fault = some f →
            (s.hearths.flatMap Hearth.phases).find? (fun p => p.1 == u) = some (u, .held) →
            let other := ∃ m ∈ s.domains, ∃ z, z.uid = some u ∧ (z ∈ m.waiting ∨ (z ∈ m.open_ ∧ ¬(m.rcb = k.rcb ∧ z.ticket = y.ticket)))
            let out (v : State) (ph : Phase) (got : Team → Prop) : Prop :=
              v.hearths = s.hearths.map (fun e => { e with phases := e.phases.map (fun p => if p.1 = u then (u, ph) else p) })
              ∧ ∃ h', v.findTeam u = some h' ∧ h'.phase = .swapped ∧ got h'
            (w / 2 ^ 32 % 4 = 0 → y.restart = true → ¬other →
              stat 0 (fun v => out v .ready (fun h' => h'.pc = f.restart ∧ h'.fault = none ∧ h'.regs = h.regs))) ∧
            (w / 2 ^ 32 % 4 = 1 → stat 0 (fun v => out v .ended (fun h' => h'.lanes.active = 0)))) ∧
          (∀ id c, y.uid = none → y.cmd = some id → s.cmds.find? (fun z => z.id == id) = some c →
            let closed (v : State) : Prop := v.findDomain k.rcb = some { x with open_ := x.open_.filter (fun z => z.ticket != y.ticket) }
            let rest (v : State) : Prop := closed v ∧ ∀ z ∈ s.cmds, z.id ≠ id → z ∈ v.cmds
            let u : State := (s.modDomain k.rcb (fun m => { m with open_ := m.open_.filter (fun z => z.ticket != y.ticket) })).modLaunch
              c.lid (fun l => { l with status := max l.status c.launchStatus })
            let st := (u.stamp c.unit).1
            (w / 2 ^ 32 % 4 = 0 → y.restart = true → stat 0 (fun v => rest v ∧ sameBytes s v ∧ ∃ z ∈ v.cmds,
              z = { c with status := .running, stopCause := 0, stopAddr := 0, kind := z.kind }
              ∧ ((∀ q, c.kind ≠ .send q) → z.kind = c.kind))) ∧
            (w / 2 ^ 32 % 4 = 1 → c.cpQueue = none → c.ctl = 0 → stat 0 (fun v => rest v ∧ sameBytes s v
              ∧ (∀ z ∈ v.cmds, z.id ≠ id) ∧ ∀ l, s.findLaunch c.lid = some l → ∃ l', v.findLaunch c.lid = some l' ∧ 2 ≤ l'.status)) ∧
            (∀ p, w / 2 ^ 32 % 4 = 1 → c.cpQueue = none → c.ctl = BitVec.ofNat 64 512 → ordinary s p 32 →
              (u.stamp c.unit).2.signalPlace c (.engineWrite false) c.recAddr 32 false = .ok p →
              stat 0 (fun v => (∀ z ∈ v.cmds, z.id ≠ id)
                ∧ v.bytesAt p 32 = natLe st 8 ++ natLe c.off.toNat 4 ++ natLe c.op 1 ++ [0x42, 0xFF, c.flags] ++ natLe c.stopAddr.toNat 8
                  ++ natLe c.done 4 ++ natLe c.crc 4)) ∧
            (∀ cc, w / 2 ^ 32 % 4 = 1 → c.cpQueue = none → c.bid = s.blk.bid → c.bid ≠ 0 → cc < 64 → c.ctl = BitVec.ofNat 64 (128 + cc) →
              smWf (0 : Nat) s.blk.counters = true → stat 0 (fun v => (∀ z ∈ v.cmds, z.id ≠ id)
                ∧ smGet 0 v.blk.counters cc % 2 ^ 32 = (smGet 0 s.blk.counters cc + 1) % 2 ^ 32
                ∧ (smGet 0 v.blk.counters cc).testBit 63 = true))))
      fd (.fdactRestart r) ∧ fd (.fdactEnd r) ∧ fd (.fdactRespill r)) ∧
    (let va := (s.getS a).toNat
     (2 ^ 56 ≤ va → exec (.tlbiPage a) s = .next (takeFault (s.fltAt .spaceInvalid 0 (s.getS a)) s)) ∧
     (va < 2 ^ 56 → ∃ t, exec (.tlbiPage a) s = .next t ∧ tookEffect s t ∧ regs t ∧ ∀ e, e ∈ t.caches.tlb ↔
        e ∈ s.caches.tlb ∧ ¬(e.rid = s.teamRid ∧ e.va / 2 ^ e.bits = va / 2 ^ e.bits)) ∧
     (∀ p, s.partition va = some p → p.rid = s.teamRid → ∃ t, exec (.tlbiRegion a) s = .next t ∧ tookEffect s t ∧ regs t
        ∧ ∀ e, e ∈ t.caches.tlb ↔ e ∈ s.caches.tlb ∧ (e.rid ≠ s.teamRid ∨ e.pte.testBit 5 = true))) ∧
    (∃ t, exec .haltc s = .next t ∧ tookEffect s t ∧ t.team.phase = .ended ∧ t.team.lanes.active = 0
      ∧ s.team.core ∈ t.halted ∧ (∀ x ∈ s.halted, x ∈ t.halted) ∧ regs t) ∧
    (∃ t, exec .haltRelease s = .next t ∧ s.arg.id ∉ t.halted ∧ (∀ x ∈ s.halted, x ≠ s.arg.id → x ∈ t.halted) ∧ regs t) ∧
    (∀ x y, s.findDomain s.arg.id = some x → y ∈ x.waiting → (∀ z ∈ x.waiting, z = y ∨ stampAfter z.stamp y.stamp = true) →
      let done := ∀ h, y.uid.bind s.findTeam = some h → h.loads = [] ∧ h.mat.steps = [] ∧ h.mat.transfers = []
      (y.fqSize ≤ (x.tail - x.head).toNat ∨ ¬done → exec .faultRecordWrite s = .next s) ∧
      (∀ u, (x.tail - x.head).toNat < y.fqSize → done →
        s.writeVa { rid := y.fqRid, root := y.fqRoot, user := false, core := none, own := s.ridOf x.rcb } .store (y.fqBase + 64 * (x.tail.toNat % y.fqSize)) y.bytes = .ok u →
        y.bytes.length = 64 ∧ ∃ t, exec .faultRecordWrite s = .next t ∧ sameBytes u t
          ∧ t.findDomain s.arg.id = some { x with
              tail := x.tail + 1, waiting := x.waiting.filter (fun z => z.stamp != y.stamp)
              open_ := if y.ticket = 0xFFFFFFFF then x.open_ else x.open_ ++ [y] })) ∧
    (∀ x, s.findDomain s.arg.id = some x →
      (x.head = x.tail ∨ x.handler ≠ none ∨ x.barred = true → exec .handlerLaunch s = .next s) ∧
      (∀ k, x.head ≠ x.tail → x.handler = none → x.barred = false →
        s.checkDesc (handlerDesc x) true true = .ok k →
        ∃ t l, exec .handlerLaunch s = .next t ∧ t.launches = s.launches ++ [l] ∧ l.from_ = .handler x.rcb ∧ l.k = k
          ∧ l.ready = true ∧ l.d.priv = true ∧ l.d.rcb = x.rcb ∧ l.d.khdr = x.fdKernel ∧ l.d.blockCount = 1
          ∧ l.d.args = [BitVec.ofNat 64 x.fqBase, BitVec.ofNat 64 x.fqSize]
          ∧ t.findDomain s.arg.id = some { x with handler := some l.lid }) ∧
      (∀ e, x.head ≠ x.tail → x.handler = none → x.barred = false → s.checkDesc (handlerDesc x) true true = .error e →
        ∃ t, exec .handlerLaunch s = .next t ∧ t.launches = s.launches
          ∧ t.findDomain s.arg.id = some { x with barred := true }))

/-- R58, R59, R63, R118, R391..R393, R211. The order of regions of one priority is the model's (log 71, DEDUCED). 100
us at 1.75 GHz are 175,000 clk. -/
def Obligations.PlacementOfBlocks : Prop :=
  ∀ s : State,
    let turn (l : Launch) : Nat := (l.d.rcb + 2 ^ 64 - 1 - smGet 0 s.rrRegion (s.prio l.d.rcb)) % 2 ^ 64
    let group (g : Nat) : List Nat := (List.range 16).map (fun c => 16 * g + c)
    let starved (m : Launch) : Prop := m.next < m.d.clusterCount ∧ (m.starved = true ∨ ∃ c, m.waitSince = some c ∧ c + 175000 ≤ s.clk)
    (s.choose = none → exec .blockPlace s = .next s ∧ exec .clusterPlace s = .next s) ∧
    (∀ l t0, s.choose = some (l, t0) →
      l ∈ s.launches ∧ l.ready = true ∧ l.next < l.d.clusterCount ∧
      (∀ m ∈ s.unplaced, (s.tryPlace m).isSome = true → s.prio m.d.rcb ≤ s.prio l.d.rcb
        ∧ (s.prio m.d.rcb = s.prio l.d.rcb → turn l < turn m ∨ (turn l = turn m ∧ l.readySeq ≤ m.readySeq))) ∧
      (l.d.clustered = true → exec .blockPlace s = .next s) ∧ (l.d.clustered = false → exec .clusterPlace s = .next s) ∧
      ∃ t, exec (if l.d.clustered then .clusterPlace else .blockPlace) s = .next t
        ∧ t.blocks.length = s.blocks.length + l.d.clSize ∧ t.others.length = s.others.length + l.d.clSize * l.k.teams
        ∧ t.clusters.length = s.clusters.length + 1 ∧ t.rrRegion = smSet 0 s.rrRegion (s.prio l.d.rcb) l.d.rcb ∧ t.team = s.team ∧ t.blk = s.blk
        ∧ (∀ x ∈ s.others, x ∈ t.others) ∧ (∀ x ∈ s.blocks, x ∈ t.blocks)
        ∧ (∀ m ∈ t.launches, m.lid = l.lid → ∃ m0 ∈ s.launches, m0.lid = l.lid ∧ m.next = m0.next + 1 ∧ m.starved = false)
        ∧ (∀ b ∈ t.blocks, b ∉ s.blocks → b.lid = l.lid ∧ b.k = l.k ∧ b.d = l.d ∧ b.ended = false ∧ b.swapped = false
            ∧ b.core < 192 ∧ 1 ≤ b.tag ∧ b.tag ≤ 255 ∧ b.spad = [] ∧ b.counters = []
            ∧ b.eff = s.region l.d.rcb ∧ b.dom = s.domRef l.d.rcb ∧ b.prid = (s.partition l.d.rcb).elim 0 Region.rid
            ∧ (l.d.clustered = false → b.index = l.next))
        ∧ (∀ x ∈ t.others, x ∉ s.others → x.lid = l.lid ∧ x.phase = .ready ∧ x.pc = BitVec.ofNat 32 l.k.entry
            ∧ x.lanes.active = firstLanes l.k.lanes ∧ x.lanes.vacant = 0 ∧ x.lanes.stack = [] ∧ x.win.depth = 0 ∧ x.win.fs = 0
            ∧ x.sp.mode = l.k.initMode ∧ x.sp.sticky = 0 ∧ x.system = l.d.priv ∧ x.size = l.k.lanes
            ∧ (∀ n, n < 16 → smGet 0 x.regs.s n = l.d.args.getD n 0) ∧ (∀ n, 16 ≤ n → smGet 0 x.regs.s n = 0)
            ∧ (∀ n, n < l.k.lanes → smGet 0 x.regs.v n = BitVec.ofNat 32 (x.tib * l.k.lanes + n))
            ∧ (∀ n, l.k.lanes ≤ n → smGet 0 x.regs.v n = 0) ∧ x.regs.side = [] ∧ x.regs.p = [] ∧ (∀ n, x.lanes.plane n = 0)
            ∧ x.win.b = 0 ∧ x.sp.srStream = 0 ∧ x.sp.ssp = 0 ∧ x.sstack = [] ∧ x.mat.slots = [] ∧ x.mat.tiles = []
            ∧ x.mat.member = none ∧ x.fault = none ∧ x.loads = [])
        ∧ ((∀ y ∈ s.allBlocks, y.cid ≠ s.nextId) →
          (l.d.clustered = false → ∀ b ∈ t.blocks, b ∉ s.blocks → ∃ i, i < 192 ∧ b.core = (s.cursor + 1 + i) % 192
            ∧ s.fits l.lid l.k l.d b.core = true ∧ (∀ j, j < i → s.fits l.lid l.k l.d ((s.cursor + 1 + j) % 192) = false)
            ∧ t.cursor = (if l.k.twin = true then b.core + 1 else b.core)) ∧
          (l.d.clustered = true → 0 < l.d.clSize → ∃ i, i < 12 ∧
            let g := ((s.cursor + 1) % 192 / 16 + i) % 12
            s.placeUnit l (group g) = some t0 ∧ (∀ j, j < i → s.placeUnit l (group (((s.cursor + 1) % 192 / 16 + j) % 12)) = none)
            ∧ (∀ b ∈ t.blocks, b ∉ s.blocks → b.core / 16 = g ∧ b.core + (if l.k.twin = true then 1 else 0) ≤ t.cursor)
            ∧ ∃ b ∈ t.blocks, b ∉ s.blocks ∧ t.cursor = b.core + (if l.k.twin = true then 1 else 0)))) ∧
    (∀ lid k d c, s.fits lid k d c = true →
      (k.twin = true → c % 2 = 0) ∧ (∀ r, s.region d.rcb = some r → s.findRegion d.rcb ≠ none → r.cgmask.testBit (c / 16) = true)
      ∧ (∀ m ∈ s.launches, starved m → m.lid ≠ lid → s.prio d.rcb ≤ s.prio m.d.rcb →
          ∀ r, s.region m.d.rcb = some r → r.cgmask.testBit (c / 16) = false)
      ∧ s.usedSpad c + k.coreSpad false (s.firstTeams k c) ≤ 1536 * 1024
      ∧ s.usedEven c (fun b => b.k.bars) + k.bars ≤ 128 ∧ s.usedEven c (fun b => b.d.ccount) + d.ccount ≤ 64
      ∧ s.usedOn c none (fun b => b.k.slots) + k.slots ≤ 96 ∧ s.usedOn c none (fun b => b.k.accs) + k.accs ≤ 96
      ∧ ∃ tag, 1 ≤ tag ∧ tag ≤ 255 ∧ ∀ b ∈ s.coreBlocks c, b.tag ≠ tag) ∧
    (∀ l, s.findLaunch s.arg.id = some l → ∃ t, exec .placementStarvation s = .next t
      ∧ t.findLaunch s.arg.id = some { l with starved := decide (l.next < l.d.clusterCount) &&
          (l.starved || l.waitSince.any (fun c => decide (c + 175000 ≤ s.clk))) }) ∧
    (∀ b, s.findBlock s.arg.id = some b →
      let moving := ∃ x ∈ s.teams, ∃ y ∈ x.mat.transfers, x.bid = b.bid ∨ y.writesTo b.bid = true
      (b.ended = false ∨ (∃ c ∈ s.cmds, c.bid = b.bid) ∨ moving ∨ s.phaseAwaited b.bid = true → exec .blockRelease s = .next s) ∧
      (b.bid ≠ 0 → b.ended = true → (∀ c ∈ s.cmds, c.bid ≠ b.bid) → ¬moving → s.phaseAwaited b.bid = false →
        ∃ t, exec .blockRelease s = .next t ∧ (∀ x ∈ t.allBlocks, x.bid ≠ b.bid) ∧ (∀ x ∈ t.teams, x.bid ≠ b.bid)
          ∧ (∀ x ∈ s.blocks, x.bid ≠ b.bid → x ∈ t.blocks) ∧ (∀ x ∈ s.others, x.bid ≠ b.bid → x ∈ t.others) ∧ t.mem = s.mem))

/-- R101..R104, R395, R396, R413, R415, R418, R419, R445. These are the model's: that the engine is Faulted after
poison too (log 99), what early transfers leave and when they are made (log 42), how the context room is counted (log
59), that a swap halts the group and lets its engines finish, and clears the group's halts (log 75). -/
def Obligations.SuspensionSwapAndLeave : Prop :=
  ∀ s : State,
    let w := s.team.win
    let live := s.team.live
    let called (ret : Word32) : Window :=
      ({ w with depth := w.depth + 1, ov := w.fs, links :=
          { retOff := ret, k := 0, cfs := w.fs, cov := w.ov, jd := s.team.lanes.stack.length, calli := false, tv := 0 } :: w.links
          : Window }).trim s.blk.k.ring
    let callable (entry : Nat) : Prop := w.depth ≠ s.blk.k.maxDepth ∧ (BitVec.ofNat 32 entry).toNat % 4 = 0
      ∧ inUpperCopy s.blk.k.planes (BitVec.ofNat 32 entry).toNat = false ∧ ¬(16 ≤ w.depth ∧ s.team.spillSz = 0) ∧ w.links.length < 16
    (∀ sec, s.team.phase = .suspended → s.coreRoom s.team.core 1 s.team.size s.blk.k.ring = true → s.blk.swapped = false →
      s.resumeSection = some sec →
      let v : State := { s with team := { s.team with section_ := sec, pre := { s.team.pre with ctx := 0 } } }
      (s.team.pre.savedSlots = [] → s.team.pre.savedTiles = [] → s.team.pre.routine = none → s.team.pre.wait = none →
        ∃ t, exec .teamResume s = .next t ∧ t.team.phase = .ready ∧ t.team.pc = s.team.pre.resOff
          ∧ t.team.regs = s.team.regs ∧ t.team.lanes = s.team.lanes ∧ t.team.sp = s.team.sp ∧ t.team.win = s.team.win
          ∧ t.team.section_ = sec ∧ sameBytes s t
          ∧ (s.team.uid ≠ 0 → t.ctxUsed + s.team.pre.ctx = s.ctxUsed)) ∧
      (v.reclaimRoom = false → ∃ t, exec .teamResume s = .next t ∧ t.team.phase = .waiting .reclaim
        ∧ t.team.regs = s.team.regs ∧ t.team.mat = s.team.mat) ∧
      (v.reclaimRoom = true → s.team.pre.routine = none → s.team.pre.wait = none → s.team.mat.slots = [] → s.team.mat.tiles = [] →
        ∃ t, exec .teamResume s = .next t ∧ t.team.phase = .ready ∧ t.team.pc = s.team.pre.resOff ∧ t.team.regs = s.team.regs
          ∧ t.team.mat.slots = s.team.pre.savedSlots.map (fun n => (n, Slot.zero))
          ∧ t.team.mat.tiles = s.team.pre.savedTiles.map (fun n => (n, []))) ∧
      (∀ r, v.reclaimRoom = true → s.team.pre.routine = some r → callable r → ∃ t, exec .teamResume s = .next t ∧ t.team.phase = .ready
        ∧ t.team.pc = BitVec.ofNat 32 r ∧ t.team.lanes = { s.team.lanes with active := live } ∧ t.team.win = called s.team.pre.resOff
        ∧ t.team.pre.restoring = some w.depth ∧ t.team.pre.smask = s.team.lanes.active ∧ t.team.pre.wait = s.team.pre.wait
        ∧ t.team.regs = s.team.regs ∧ sameBytes s t)) ∧
    (∀ i d e, s.blk.k.safePoints.find? (fun p => p.id == i) = some e → d ≤ s.blk.k.yieldMax → s.team.pre.pending = true →
      e.save ≠ 0xFFFFFFFF → s.ctxUsed + s.ctxBytes ≤ s.amc.cfg.ctxSize →
      (w.depth = s.blk.k.maxDepth → exec (.yield i d) s = .next (takeFault (s.flt .windowDepth) s)) ∧
      (callable e.save → ∃ t, exec (.yield i d) s = .next t ∧ tookEffect s t ∧ t.team.phase = .ready
        ∧ t.team.pc = BitVec.ofNat 32 e.save ∧ t.team.lanes = { s.team.lanes with active := live } ∧ t.team.win = called s.nextPc
        ∧ t.team.pre.pending = false ∧ t.team.pre.saving = some w.depth ∧ t.team.pre.smask = s.team.lanes.active
        ∧ t.team.pre.resOff = s.nextPc ∧ t.team.pre.routine = some e.restore ∧ t.team.regs = s.team.regs ∧ t.team.mat = s.team.mat
        ∧ sameBytes s t)) ∧
    (∀ lk ls, w.links = lk :: ls → w.depth ≠ 0 → s.team.lanes.stack.length = lk.jd →
      inUpperCopy s.blk.k.planes lk.retOff.toNat = false → w.lo ≤ w.b - lk.k → w.b - lk.k + lk.cfs ≤ w.lo + s.blk.k.ring →
      let ended (t : State) : Prop := exec .ret s = .next t ∧ tookEffect s t ∧ t.team.pc = lk.retOff ∧ t.team.win.depth = w.depth - 1
        ∧ t.team.lanes = { s.team.lanes with active := s.team.pre.smask &&& ~~~s.team.lanes.vacant } ∧ t.team.regs = s.team.regs ∧ sameBytes s t
      (s.team.pre.saving = some (w.depth - 1) → ∃ t, ended t ∧ t.team.phase = .suspended ∧ t.team.mat.slots = [] ∧ t.team.mat.tiles = []
        ∧ t.team.pre.saving = none ∧ t.team.pre.savedSlots = s.team.mat.slots.map Prod.fst
        ∧ t.team.pre.savedTiles = s.team.mat.tiles.map Prod.fst) ∧
      (s.team.pre.saving = none → s.team.pre.restoring = some (w.depth - 1) → ∃ t, ended t ∧ t.team.mat = s.team.mat
        ∧ (s.team.pre.wait = none → t.team.phase = .ready)
        ∧ (∀ x n, s.team.pre.wait = some (x, n) → t.team.phase = .waiting x ∧ t.team.timeout = n)
        ∧ (s.team.pre.outer = [] → t.team.pre.restoring = none ∧ t.team.pre.wait = none))) ∧
    (s.team.phase = .suspended → (s.coreRoom s.team.core 1 s.team.size s.blk.k.ring = false ∨ s.blk.swapped = true
        ∨ s.resumeSection = none) → exec .teamResume s = .next s) ∧
    (s.swapping = none → s.swapGroup = none → exec .coreGroupSwapOut s = .next s) ∧
    (∀ g, s.swapping = some g ∨ (s.swapping = none ∧ s.swapGroup = some g) →
      (s.groupIdle g = false → ∃ t, exec .coreGroupSwapOut s = .next t ∧ (∀ c, c / 16 = g → c ∈ t.halted)
        ∧ (∀ c ∈ s.halted, c ∈ t.halted) ∧ t.swapping = some g ∧ t.others = s.others ∧ t.team = s.team ∧ t.blocks = s.blocks) ∧
      (s.groupIdle g = true → ∃ t h, exec .coreGroupSwapOut s = .next t ∧ t.hearths = s.hearths ++ [h] ∧ h.group = g
        ∧ h.die = g / 6 ∧ (∀ c ∈ t.halted, c / 16 ≠ g) ∧ t.swapping = none ∧ t.mem = s.mem
        ∧ (∀ b ∈ t.blocks, b.core / 16 = g → b.bid ≠ 0 → b.swapped = true)
        ∧ (∀ x ∈ s.teams, x.core / 16 = g → x.phase ≠ .ended → (∃ b ∈ s.allBlocks, b.bid = x.bid ∧ b.swapped = false) →
            (x.uid, x.phase) ∈ h.phases)
        ∧ (∀ x ∈ s.others, x.core / 16 = g → x.phase ≠ .ended → (∃ b ∈ s.allBlocks, b.bid = x.bid ∧ b.swapped = false) →
            { x with phase := .swapped } ∈ t.others))) ∧
    (∀ h g, s.hearths.findSome? (fun h => ((List.range 12).find? (s.hearthFits h)).map (fun g => (h, g))) = some (h, g) →
      ∃ t, exec .coreGroupSwapIn s = .next t ∧ h ∉ t.hearths ∧ t.mem = s.mem
        ∧ (∀ b ∈ s.blocks, b.swapped = true → b.core / 16 = h.group → b.bid ≠ 0 →
            { b with swapped := false, core := 16 * g + b.core % 16 } ∈ t.blocks)
        ∧ (∀ x ∈ s.others, ∀ ph, x.phase = .swapped → h.phases.find? (fun p => p.1 == x.uid) = some (x.uid, ph) → ph ≠ .ended →
            { x with phase := ph, core := 16 * g + x.core % 16 } ∈ t.others)
        ∧ (∀ x ∈ s.others, x.phase = .swapped → h.phases.find? (fun p => p.1 == x.uid) = some (x.uid, .ended) →
            ({ x with phase := .ended, core := 16 * g + x.core % 16 } : Team).finish ∈ t.others)
        ∧ (∀ c ∈ s.cmds, c.cpQueue = none → (∃ b ∈ s.blocks, b.swapped = true ∧ b.core / 16 = h.group ∧ b.bid ≠ 0 ∧ b.bid = c.bid) →
            { c with core := 16 * g + c.core % 16 } ∈ t.cmds)) ∧
    (s.clk / 1750 ≤ s.leaveWin → exec .leaveWindow s = .next s) ∧
    (s.leaveWin < s.clk / 1750 → ∃ t, exec .leaveWindow s = .next t ∧ t.leaveWin = s.leaveWin + 1 ∧ t.freeSteps = [] ∧ t.team.regs = s.team.regs ∧ sameBytes s t
      ∧ (∀ c n, s.team.phase = .stalled (.leave c n) → t.team.phase = .ready
          ∧ t.team.granted = some s.team.pc ∧ n ≤ (if c then t.team.tokCopy else t.team.tokSteps))
      ∧ (∀ x ∈ s.others, ∀ c n, x.phase = .stalled (.leave c n) → ∃ y ∈ t.others, y.uid = x.uid ∧ y.phase = .ready
          ∧ y.regs = x.regs ∧ y.pc = x.pc ∧ y.granted = some x.pc ∧ n ≤ (if c then y.tokCopy else y.tokSteps))) ∧
    (s.clk < s.windowEnd → s.tick.clk < s.tick.windowEnd) ∧
    (∀ w i, s.team.win.spill = .needed w → s.team.phase = .stalled .spill → decodeWord w = .ok i →
      let u : State := { s with team := { s.team with win := { s.team.win with spill := .idle }, phase := .ready }
                                iss := { Issue.none with lanes := s.team.lanes.active, plane := s.wordPlane, word := w } }
      (∀ t, u.windowOp i = .ok t → exec .spillTransferComplete s = .next (countIssue s (w / 2 ^ 25) t)
        ∧ (countIssue s (w / 2 ^ 25) t).team = t.team ∧ sameBytes t (countIssue s (w / 2 ^ 25) t)) ∧
      (∀ f, u.windowOp i = .error (.fault f) → exec .spillTransferComplete s =
        .next (s.noteFault (takeFault f (if f.spill then u.withWin { u.team.win with spill := .faulted } else u))))) ∧
    (s.team.win.spill = .idle → s.team.core ∈ s.halted → exec .spillAhead s = .next s) ∧
    (s.team.win.spill = .idle → s.team.core ∉ s.halted →
      exec .spillAhead s = .next { s with team := { s.team with win := { s.team.win with spill := .ahead } } }) ∧
    (s.team.win.spill = .ahead → ∃ t, exec .spillAhead s = .next t ∧ t.team.win = { s.team.win with spill := .idle, earlyOut := t.team.win.earlyOut, earlyIn := t.team.win.earlyIn }
      ∧ t.team.regs.s = s.team.regs.s ∧ t.team.regs.p = s.team.regs.p ∧ t.team.pc = s.team.pc ∧ t.team.lanes = s.team.lanes
      ∧ (s.arg.flag = false → t.team.regs = s.team.regs) ∧ (s.arg.flag = true → sameBytes s t) ∧
      (storesWf s = true → s.team.size ≤ 1024 → s.team.win.lo ≤ s.team.win.b → 0 < s.blk.k.ring →
        (∀ n l, s.vOk n = true → l < 1024 → t.getV n l = s.getV n l)
        ∧ ∀ n k, s.vOk n = true → k < 64 → t.getSide n k = s.getSide n k)) ∧
    (s.team.win.spill ≠ .idle → s.team.win.spill ≠ .ahead → exec .spillAhead s = .next s)

/-- R376..R389, R390 (a waiting firing), R374 (handlers), R435 (recovery). That a malformed command and one that
cannot be read are refused by any event, with a DETAIL left open, is the model's (log 28). The event names the queue,
and `starts` says what stands at its HEAD. A doorbell of another partition is R429, one in the management VLAN R431.
That descriptors of COPY that are not 64-byte aligned are refused is the model's (log 28, DEDUCED). -/
def Obligations.HostQueueCommands : Prop :=
  ∀ (s : State) (q : Nat) (x : Queue) (b : List Byte),
    let z := s.fireAll
    z.findQueue q = some x →
    let arg (n : Nat) : Nat := fld b (0x10 + 8 * n) 8
    let t0 := (z.cpNote x.region x.headAddr 64 .load).setQueue q { x with crec := fld b 8 8 }
    let starts (opc sub : Nat) : Prop := z.arg.id = q ∧ x.size ≠ 0 ∧ x.running = none ∧ x.head ≠ x.tail
      ∧ z.cpRead x.region x.headAddr 64 = some b ∧ commandFormed b = true ∧ fld b 0 1 = opc ∧ fld b 1 1 = sub
      ∧ z.hub.written = [] ∧ z.hub.flushes = []
    let ended (t : State) : Prop := t.findQueue q = some { x with head := x.head + 1, running := none, crec := 0 }
    let running (t : State) (r : RunCmd) : Prop := t.findQueue q = some { x with crec := fld b 8 8, running := some r }
    let quiet := fld b 8 8 = 0
    let added (t : State) (f : LaunchSource) (k : Kernel) (d : LaunchDesc) : Prop := ∃ l, t.launches = z.launches ++ [l]
      ∧ l.k = k ∧ l.d = d ∧ l.from_ = f ∧ l.ready = true ∧ l.next = 0 ∧ l.status = 0 ∧ l.lid = z.nextId ∧ l.disc = 0
    let as (y t : State) : Prop := t.launches = y.launches ∧ t.cmds = y.cmds ∧ t.hub.arrival = y.hub.arrival ∧ sameBytes y t
    let same (t : State) : Prop := as z t
    (s.arg.vlan = s.amc.cfg.mvlan ∨ s.amc.status ≠ .ready → exec .doorbellWrite s = .next s) ∧
    (∀ x, s.findQueue q = some x → s.arg.vlan ≠ s.amc.cfg.mvlan → s.amc.status = .ready → s.arg.addr / 8 = q →
      let legal := s.arg.len = 8 ∧ s.arg.addr % 8 = 0 ∧ s.arg.value < 2 ^ 32 ∧ (s.view x.region true).rid = s.arg.rid
        ∧ (BitVec.ofNat 32 s.arg.value - x.head).toNat ≤ x.size
      ∃ t, exec .doorbellWrite s = .next t ∧ as s t ∧
        (legal → t.findQueue q = some { x with tail := BitVec.ofNat 32 s.arg.value }) ∧
        (¬legal → t.findQueue q = some x)) ∧
    (starts 1 0 →
      (∀ k d, t0.readLaunch x.region (systemQueue q) (arg 0) = .ok (k, d) → ∃ t, exec .launch s = .next t
        ∧ added t (.queue q) k d ∧ running t .launch ∧ sameBytes z t) ∧
      (∀ e, quiet → t0.readLaunch x.region (systemQueue q) (arg 0) = .error (e, 0) → ∃ t, exec .launch s = .next t
        ∧ ended t ∧ same t)) ∧
    (z.arg.id = q → x.size ≠ 0 → x.running = none → x.head ≠ x.tail → z.hub.written = [] → z.hub.flushes = [] →
      ∀ i ∈ [Instr.launch, .tapePop, .graph, .copy, .signalSet, .signalAdd, .signalWait, .signalStore, .tableLoad, .tableDisable,
          .regionCreate, .regionModify, .regionDestroy, .regionBind],
        (z.cpRead x.region x.headAddr 64 = some b → (commandFormed b = false ∨ (fld b 0 1 = 6 ∧ 2 ≤ q)) → quiet →
          ∃ t, exec i s = .next t ∧ ended t ∧ same t ∧ t.regions = z.regions) ∧
        (z.cpRead x.region x.headAddr 64 = none → x.crec = 0 → ∃ t, exec i s = .next t ∧ ended t ∧ same t)) ∧
    (starts 1 1 → z.inSubtree (arg 0) x.region = true →
      let popped := (((z.tape (arg 0)).take (arg 1)).flatMap (fun r => [r.1, r.2])).filter (fun a => a != 0)
      (∀ g rest k d, popped = g :: rest → (t0.setTape (arg 0) ((z.tape (arg 0)).drop (arg 1))).readLaunch x.region (systemQueue q) g = .ok (k, d) →
        ∃ t, exec .tapePop s = .next t ∧ added t (.tape q) k d ∧ running t (.tape rest 0) ∧ sameBytes z t) ∧
      (popped = [] → quiet → ∃ t, exec .tapePop s = .next t ∧ ended t ∧ same t)) ∧
    (starts 1 1 → ∃ t, exec .tapePop s = .next t ∧
      (z.inSubtree (arg 0) x.region = true → t.tape (arg 0) = (z.tape (arg 0)).drop (arg 1)) ∧
      (z.inSubtree (arg 0) x.region = false → quiet → ended t ∧ same t ∧ t.tapes = z.tapes)) ∧
    (starts 2 0 →
      (∀ n k d, t0.readGraph x.region (arg 0) = some [n] → n.kind = 0 → n.npred = 0 → n.count = 0 → n.st = 0 →
        (t0.cpNote x.region (arg 0) 72 .load).readLaunch x.region (systemQueue q) n.ld = .ok (k, d) → ∃ t, exec .graph s = .next t
          ∧ added t (.graph q 0) k d ∧ running t (.graph [{ n with st := 1 }])) ∧
      (quiet → t0.readGraph x.region (arg 0) = none → ∃ t, exec .graph s = .next t ∧ ended t ∧ same t)) ∧
    (starts 4 0 → (arg 0 % 64 ≠ 0 ∨ arg 1 % 64 ≠ 0) → quiet → ∃ t, exec .copy s = .next t ∧ ended t ∧ same t) ∧
    (starts 4 0 → arg 0 % 64 = 0 → arg 1 % 64 = 0 → ∀ db sb, t0.cpRead x.region (arg 0) 64 = some db → t0.cpRead x.region (arg 1) 64 = some sb →
      let ok := copyOk [descOf db] (descOf sb) false = true ∧ (descOf db).space = 0 ∧ (descOf sb).space = 0
      (ok → ∃ t c, exec .copy s = .next t ∧ t.cmds = z.cmds ++ [c] ∧ c.kind = .copy [descOf db] (descOf sb) false
        ∧ c.cpQueue = some q ∧ c.status = .queued ∧ c.rcb = x.region ∧ c.op = 0x77 ∧ running t (.copy c.id)) ∧
      (¬ok → quiet → ∃ t, exec .copy s = .next t ∧ ended t ∧ same t)) ∧
    (smWf (0 : Nat) z.hub.arrival = true →
      (starts 5 0 → quiet → z.signalOk q x (arg 0) = true → ∃ t, exec .signalSet s = .next t ∧ ended t
        ∧ smGet 0 t.hub.arrival (arg 0) = arg 1 ∧ sameBytes z t
        ∧ ∀ n, n ≠ arg 0 → smGet 0 t.hub.arrival n = smGet 0 z.hub.arrival n) ∧
      (starts 5 1 → quiet → z.signalOk q x (arg 0) = true → ∃ t, exec .signalAdd s = .next t ∧ ended t
        ∧ smGet 0 t.hub.arrival (arg 0) = (smGet 0 z.hub.arrival (arg 0) + arg 1) % 2 ^ 64 ∧ sameBytes z t
        ∧ ∀ n, n ≠ arg 0 → smGet 0 t.hub.arrival n = smGet 0 z.hub.arrival n)) ∧
    (starts 5 0 → quiet → z.signalOk q x (arg 0) = false → ∃ t, exec .signalSet s = .next t ∧ ended t ∧ same t) ∧
    (starts 5 2 → z.queues = [(q, x)] → z.signalOk q x (arg 0) = true →
      (arg 1 ≤ smGet 0 z.hub.arrival (arg 0) → quiet → ∃ t, exec .signalWait s = .next t ∧ ended t ∧ same t) ∧
      (smGet 0 z.hub.arrival (arg 0) < arg 1 → ∃ t, exec .signalWait s = .next t
        ∧ running t (.signalWait (arg 0) (arg 1)) ∧ same t)) ∧
    (starts 5 3 → quiet → storesWf z = true →
      (∀ pa, arg 0 < 2 ^ 56 → arg 0 % 8 = 0 → t0.translate (t0.view x.region (systemQueue q)) .store (arg 0) = .ok pa →
        ordinary z (.dev pa) 8 → ∃ t, exec .signalStore s = .next t ∧ ended t ∧ t.readAt (.dev pa) 8 = arg 1
          ∧ ∀ p, (∀ k, k < 8 → p ≠ .dev (pa + k)) → t.byteAt p = z.byteAt p) ∧
      (2 ^ 56 ≤ arg 0 ∨ arg 0 % 8 ≠ 0 → ∃ t, exec .signalStore s = .next t ∧ ended t ∧ same t)) ∧
    (starts 5 3 → 2 ^ 56 ≤ arg 0 → fld b 8 8 ≠ 0 →
      ∀ u, (t0.stamp 0).2.cpWrite x.region (fld b 8 8) (recordBytes (t0.stamp 0).1 x.headAddr 1 2 0 0) = some u →
        ∃ t, exec .signalStore s = .next t ∧ ended t ∧ sameBytes u t) ∧
    (∀ l, s.findLaunch s.arg.id = some l →
      let y := ({ s with hub := { s.hub with armed := s.hub.armed.filter (fun a => a.lid != l.lid) } } : State).fireAll
      (s.launchOver l = false → exec .launchComplete s = .next s) ∧
      (s.launchOver l = true → l.closing = none → s.hub.written = [] → s.hub.flushes = [] → y.hub.written = [] →
        y.hub.flushes = [] → l.from_ = .queue q → l.d.result = 0 → l.d.tape = false → l.d.crec = 0 →
        ∀ x, y.findQueue q = some x → x.crec = 0 → ∃ t, exec .launchComplete s = .next t
          ∧ t.findQueue q = some { x with head := x.head + 1, running := none, crec := 0 }
          ∧ t.launches = y.launches.filter (fun m => m.lid != l.lid) ∧ t.hub.armed = y.hub.armed ∧ sameBytes y t) ∧
      (s.launchOver l = true → l.closing = none → s.hub.written = [] → s.hub.flushes = [] → y.hub.written = [] →
        y.hub.flushes = [] → l.d.tape = false → l.d.crec = 0 →
        let y1 := if l.d.result = 0 then y else y.cpNote l.recRcb l.d.result 8 .load
        let y2 : State := { y1 with launches := y1.launches.filter (fun m => m.lid != l.lid) }
        let follows (t : State) (f : LaunchSource) (k : Kernel) (d : LaunchDesc) : Prop := ∃ m, t.launches = y2.launches ++ [m]
          ∧ m.k = k ∧ m.d = d ∧ m.from_ = f ∧ m.ready = true ∧ m.next = 0 ∧ m.status = 0
        (∀ i m, l.from_ = .table i → y2.slotLaunches i = [m] → m.ready = false → ∃ t, exec .launchComplete s = .next t
          ∧ ∀ n ∈ y2.launches, n.lid = m.lid → ∃ n' ∈ t.launches, n' = { n with
              ready := true, waitSince := n'.waitSince, readySeq := n'.readySeq }) ∧
        (∀ rcb d, l.from_ = .handler rcb → y2.findDomain rcb = some d → ∃ t, exec .launchComplete s = .next t
          ∧ t.findDomain rcb = some { d with handler := none }) ∧
        (∀ x, y.findQueue q = some x →
          let goes (t : State) (r : RunCmd) : Prop := t.findQueue q = some { x with running := some r }
          let closes (t : State) : Prop := t.findQueue q = some { x with head := x.head + 1, running := none, crec := 0 }
          (∀ a rest st k d, l.from_ = .tape q → x.running = some (.tape (a :: rest) st) →
            y2.readLaunch x.region (systemQueue q) a = .ok (k, d) → ∃ t, exec .launchComplete s = .next t
              ∧ follows t (.tape q) k d ∧ goes t (.tape rest (max st l.status))) ∧
          (∀ st, l.from_ = .tape q → x.running = some (.tape [] st) → x.crec = 0 → ∃ t, exec .launchComplete s = .next t
            ∧ closes t ∧ t.launches = y2.launches) ∧
          (∀ n, l.from_ = .graph q 0 → x.running = some (.graph [n]) → n.kind = 0 → n.succ = [] → x.crec = 0 →
            ∃ t, exec .launchComplete s = .next t ∧ closes t ∧ t.launches = y2.launches) ∧
          (∀ n0 n1 n2 n3 n4 rb, l.from_ = .graph q 0 → x.running = some (.graph [n0, n1, n2, n3, n4]) → l.d.result ≠ 0 →
            y.cpRead l.recRcb l.d.result 8 = some rb → n0.kind = 0 → n0.succ = [1] →
            n1.kind = 1 → n1.resNode = 0 → n1.succ = [2, 3] → n1.count = 1 → n1.st = 0 →
            n2.kind = 0 → n2.succ = [4] → n2.count = 1 → n2.st = 0 → n3.kind = 0 → n3.succ = [] → n3.count = 1 → n3.st = 0 →
            n4.succ = [] → n4.npred = 1 → n4.count = 1 → n4.st = 0 → n4.anyRan = false →
            let v := BitVec.ofNat 64 (leNat rb)
            let m0 : GraphNode := { n0 with st := 2, posted := v, status := l.status }
            let m1 : GraphNode := { n1 with count := 0, anyRan := true, st := 2 }
            let on (n : GraphNode) : GraphNode := { n with count := 0, anyRan := true, st := 1 }
            let off (n : GraphNode) : GraphNode := { n with st := 3 }
            (∀ k d, v = 0 → y2.readLaunch x.region (systemQueue q) n2.ld = .ok (k, d) → ∃ t, exec .launchComplete s = .next t
              ∧ follows t (.graph q 2) k d ∧ goes t (.graph [m0, m1, on n2, off n3, n4])) ∧
            (∀ k d, v ≠ 0 → y2.readLaunch x.region (systemQueue q) n3.ld = .ok (k, d) → ∃ t, exec .launchComplete s = .next t
              ∧ follows t (.graph q 3) k d ∧ goes t (.graph [m0, m1, off n2, on n3, { n4 with count := 0, st := 3 }]))))))

/-- R369..R371, R374, R376, R377, R379, R380, R390, R412, R434. These are the model's: that bind takes the control
entry from bytes 0x18 to 0x3F of the command, as the table of R379 lays it out (log 28, DEDUCED), what a domain keeps
when it is taken away, and its empty queue when it is defined anew (log 93, DESIGN CHOICE), that destroy takes the
subtree (log 73), and which times already past do not fire (log 29). -/
def Obligations.RegionsAndTimeTable : Prop :=
  ∀ (s : State) (q : Nat) (x : Queue) (b : List Byte),
    let z := s.fireAll
    z.findQueue q = some x →
    let arg (n : Nat) : Nat := fld b (0x10 + 8 * n) 8
    let t0 := (z.cpNote x.region x.headAddr 64 .load).setQueue q { x with crec := fld b 8 8 }
    let starts (opc sub : Nat) : Prop := z.arg.id = q ∧ (opc = 6 → q < 2) ∧ x.size ≠ 0 ∧ x.running = none ∧ x.head ≠ x.tail
      ∧ z.cpRead x.region x.headAddr 64 = some b ∧ commandFormed b = true ∧ fld b 0 1 = opc ∧ fld b 1 1 = sub
      ∧ z.hub.written = [] ∧ z.hub.flushes = [] ∧ fld b 8 8 = 0
    let ended (t : State) : Prop := t.findQueue q = some { x with head := x.head + 1, running := none, crec := 0 }
    let rcb := arg 0
    (∀ m, t0.cpRead 0 rcb 128 = some m → rcb ≠ 0 →
      let r := regionOf rcb m
      let legal := rcbInRange r m = true ∧ treeLegal (r :: z.regions.filter (fun y => y.rcb != rcb)) rcb = true
      let put (t : State) : Prop := ended t ∧ t.findRegion rcb = some r
        ∧ (∀ y ∈ z.regions, y.rcb ≠ rcb → y ∈ t.regions) ∧ sameBytes z t
      let kept (t : State) : Prop := ended t ∧ t.regions = z.regions ∧ t.domains = z.domains ∧ sameBytes z t
      (starts 6 0 → ∃ t, exec .regionCreate s = .next t ∧
        (z.findRegion rcb = none → legal → put t
          ∧ (r.own 9 = true → z.findDomain rcb = none → t.findDomain rcb = some (Domain.fresh r))) ∧
        (z.findRegion rcb ≠ none ∨ ¬legal → kept t)) ∧
      (starts 6 1 → ∃ t, exec .regionModify s = .next t ∧
        (z.findRegion rcb ≠ none → legal → put t
          ∧ (r.own 9 = true → z.findDomain rcb = none → t.findDomain rcb = some (Domain.fresh r))
          ∧ ∀ d, z.findDomain rcb = some d →
            (r.own 9 = true → t.findDomain rcb = some { d with
              defined := true, fqSize := r.fqSize, fqBase := r.fqBase, fdKernel := r.fdKernel, barred := false
              head := if d.defined then d.head else 0, tail := if d.defined then d.tail else 0 })
            ∧ (r.own 9 = false → t.findDomain rcb = some { d with defined := false, barred := false })) ∧
        (z.findRegion rcb = none ∨ ¬legal → kept t))) ∧
    (starts 6 2 → ∃ t, exec .regionDestroy s = .next t ∧ ended t ∧ sameBytes z t ∧
      (z.findRegion rcb = none ∨ t0.regionBusy rcb = true → t.regions = z.regions ∧ t.domains = z.domains) ∧
      (z.findRegion rcb ≠ none → t0.regionBusy rcb = false → ∀ y, y ∈ t.regions ↔ y ∈ z.regions ∧ z.inSubtree y.rcb rcb = false)) ∧
    (starts 6 3 → 2 ≤ arg 0 → arg 0 < 32 → z.queueLegal (queueOf (b.drop 0x18)) (b.drop 0x18) = true →
      (∀ y, z.findQueue (arg 0) = some y → y.running = none) →
      ∃ t, exec .regionBind s = .next t ∧ ended t ∧ t.findQueue (arg 0) = some (queueOf (b.drop 0x18))) ∧
    (∀ e, starts 3 0 → arg 0 < 256 → t0.cpRead x.region (arg 1) 32 = some e → fld e 0x18 1 < 3 → zeros e 0x19 7 = true →
      ∃ t y, exec .tableLoad s = .next t ∧ ended t ∧ t.findSlot (arg 0) = some y ∧ y.start = fld e 0 8 ∧ y.period = fld e 8 8
        ∧ y.ld = fld e 0x10 8 ∧ y.rule = fld e 0x18 1 ∧ y.on = true ∧ y.rcb = x.region ∧ (y.system = true ↔ q < 2)
        ∧ (z.hub.ptpLocked = false → y.m = 0)
        ∧ (z.hub.ptpLocked = true → z.hub.ptp < y.start + y.m * y.period ∨ (y.period = 0 ∧ y.m ≠ 0))) ∧
    let due (y : TimeSlot) : Prop :=
      s.hub.ptpLocked = true ∧ y.on = true ∧ y.start + y.m * y.period ≤ s.hub.ptp ∧ (y.period ≠ 0 ∨ y.m = 0)
    (∀ y, starts 3 1 → arg 0 < 256 → z.findSlot (arg 0) = some y → ∃ t, exec .tableDisable s = .next t ∧ ended t
      ∧ t.findSlot (arg 0) = some { y with on := false } ∧ t.launches = z.launches) ∧
    ((∀ y ∈ s.slots, ¬due y.2) → z = s) ∧
    (∀ i y, s.slots = [(i, y)] → due y → (y.period = 0 ∨ s.hub.ptp < y.start + (y.m + 1) * y.period) →
      z = (s.setSlot i { y with m := y.m + 1 }).fireSlot i y) ∧
    (∀ y, s.findSlot s.arg.id = some y →
      let first := ∀ z ∈ s.slots, due z.2 → y.start + y.m * y.period ≤ z.2.start + z.2.m * z.2.period
      let old := s.launches.filter (fun l => l.from_ == .table s.arg.id)
      let s1 := s.setSlot s.arg.id { y with m := y.m + 1 }
      (¬due y ∨ ¬first → exec .tableFiring s = .next s) ∧
      let counted (t : State) : Prop := t.findSlot s.arg.id = some { y with m := y.m + 1 }
      (∀ k d, due y → first → s1.readLaunch y.rcb y.system y.ld = .ok (k, d) →
        let makes (ready : Bool) (t : State) : Prop := counted t ∧ ∃ l, t.launches = s.launches ++ [l] ∧ l.k = k ∧ l.d = d
          ∧ l.from_ = .table s.arg.id ∧ l.ready = ready
        let asks (u u' : Team) : Prop := if u.phase ≠ .ended ∧ u.lid ∈ old.map Launch.lid
          then u' = { u with pre := { u.pre with pending := true } } else u' = u
        (old = [] → ∃ t, exec .tableFiring s = .next t ∧ makes true t) ∧
        (old ≠ [] → y.rule = 1 → (∀ l ∈ old, l.ready = true) → ∃ t, exec .tableFiring s = .next t ∧ makes false t) ∧
        (old.length = 1 → y.rule = 2 → ∃ t, exec .tableFiring s = .next t ∧ makes true t ∧ asks s.team t.team
          ∧ t.others.length = s.others.length ∧ ∀ (i : Nat) u u', s.others[i]? = some u → t.others[i]? = some u' → asks u u')) ∧
      (due y → first → old ≠ [] → (y.rule = 0 ∨ (y.rule = 1 ∧ ∃ l ∈ old, l.ready = false) ∨ (y.rule = 2 ∧ 2 ≤ old.length)) →
        ∃ t, exec .tableFiring s = .next t ∧ t.launches = s.launches ∧ counted t ∧
          ∀ db, s1.cpRead y.rcb y.ld 256 = some db → s.hub.written = [] → s.hub.flushes = [] →
            let n := s1.cpNote y.rcb y.ld 256 .load
            let crec := (launchDescOf db).crec
            (crec = 0 → sameBytes s t) ∧
            (∀ u, crec ≠ 0 → (n.stamp 0).2.cpWrite y.rcb crec (recordBytes (n.stamp 0).1 y.ld 4 0 0 0) = some u → sameBytes u t)))

/-- R138, R337, R421..R427, R429, R431, R435. These are the model's: CAUSE 0x41 of what suspends at the loss of the
last path, and that any port that trains gives every peer a path (log 32), the path 16 of what waits for one, that the
messages of a path go on over one other, and what FLUSH_ACK settles (log 78), that a poisoned sector is refused (log
31); that a unit whose source and stamp were applied before changes nothing wherever its address leads, that an
earlier unit writes only bytes that no later one wrote, and which commands a refusal reaches (log 64, DEDUCED). -/
def Obligations.LinkAndHostPortEvents : Prop :=
  ∀ s : State,
    (let a := s.arg
     let calm := s.queues = [] ∧ s.records = [] ∧ s.hub.incs = []
     let on := a.vlan ≠ s.amc.cfg.mvlan
     (¬on ∨ s.amc.status ≠ .ready → exec .hostRdmaWrite s = .next s ∧ exec .hostRdmaRead s = .next s) ∧
     (∀ v pa, on → s.amc.status = .ready → a.bytes ≠ [] → s.endpointView a.rid = some v →
       a.addr % 65536 + a.bytes.length ≤ 65536 → s.translate v .store (a.addr / 65536 * 65536) = .ok pa →
       ordinary s (.dev (pa + a.addr % 65536)) a.bytes.length → storesWf s = true →
       ∃ t, exec .hostRdmaWrite s = .next t ∧ t.bytesAt (.dev (pa + a.addr % 65536)) a.bytes.length = a.bytes
         ∧ t.amc.rdmaReply = some [] :: s.amc.rdmaReply
         ∧ ∀ p, (∀ k, k < a.bytes.length → p ≠ .dev (pa + a.addr % 65536 + k)) → t.byteAt p = s.byteAt p) ∧
     (on → s.amc.status = .ready → (a.bytes = [] ∨ s.endpointView a.rid = none ∨
        ∃ v e, s.endpointView a.rid = some v ∧ s.span v .store a.addr a.bytes.length = .error e) →
       ∃ t, exec .hostRdmaWrite s = .next t ∧ t.amc.rdmaReply = none :: s.amc.rdmaReply ∧ sameBytes s t) ∧
     (on → s.amc.status = .ready → ∃ t, exec .hostRdmaRead s = .next t ∧ sameBytes s t ∧
       (∀ v bs, a.len ≠ 0 → s.endpointView a.rid = some v →
         s.readVa v .load a.addr a.len = .ok bs → t.amc.rdmaReply = some bs :: s.amc.rdmaReply) ∧
       (s.endpointView a.rid = none ∨ a.len = 0 ∨
         (∃ v e, s.endpointView a.rid = some v ∧ s.readVa v .load a.addr a.len = .error e) →
         t.amc.rdmaReply = none :: s.amc.rdmaReply)) ∧
     (∀ u v pa, a.unit = some u → s.ridView u.rid = some v → u.line = none → storesWf s = true → calm →
       s.translate v (.engineWrite u.gen.isSome) u.va = .ok pa → pa % 64 = 0 → ordinary s (.dev pa) 64 →
       (u.gen = none ∨ s.hub.syncs = []) →
       let older := ∃ g i, u.gen = some g ∧ s.hub.pubFind v.rid u.va = some i
         ∧ 1 ≤ ((s.hub.pubEntry i).gen - BitVec.ofNat 32 g).toNat ∧ ((s.hub.pubEntry i).gen - BitVec.ofNat 32 g).toNat < 2 ^ 31
       let before := ∃ x ∈ s.hub.applied, x.src = u.src ∧ x.stamp = u.stamp
       let mine (x : Applied) : Prop := x ∈ s.hub.applied ∧ x.src = u.src ∧ x.sec = pa / 64
       let newer (x : Applied) : Prop := mine x ∧ stampAfter x.stamp u.stamp = true
       let hidden (i : Nat) : Prop := ∃ x, newer x ∧ x.bytes.getLsbD i = true
       (¬before → older → smWf (0 : Nat) s.hub.dropped = true → ∃ t, exec .remoteWriteUnit s = .next t ∧ sameBytes s t
         ∧ t.hub.out = s.hub.out ∧ (u.src, u.stamp) ∈ t.hub.settled
         ∧ ∀ n, smGet 0 t.hub.dropped n = smGet 0 s.hub.dropped n + (if n = s.homeDie pa then 1 else 0)) ∧
       (¬before → ¬older → ∃ t, exec .remoteWriteUnit s = .next t ∧ t.hub.out = s.hub.out
         ∧ (∃ x ∈ t.hub.applied, x.src = u.src ∧ x.sec = pa / 64 ∧ x.stamp = u.stamp) ∧ (u.src, u.stamp) ∈ t.hub.settled
         ∧ (∀ i, i < 64 → u.bytes.getLsbD i = true → ¬hidden i →
              t.byteAt (.dev (pa + i)) = BitVec.ofNat 8 (u.data.toNat / 2 ^ (8 * i)))
         ∧ (∀ i, i < 64 → (u.bytes.getLsbD i = false ∨ hidden i) → t.byteAt (.dev (pa + i)) = s.byteAt (.dev (pa + i)))
         ∧ (u.withSide = true → (∀ x, newer x → x.withSide = false) → t.sideAt (.dev pa) = u.side)
         ∧ ((u.withSide = false ∨ ∃ x, newer x ∧ x.withSide = true) → t.sideAt (.dev pa) = s.sideAt (.dev pa))
         ∧ ∀ p, ¬sameSector p (.dev pa) → t.byteAt p = s.byteAt p ∧ t.sideAt p = s.sideAt p) ∧
       (before → ∃ t, exec .remoteWriteUnit s = .next t ∧ sameBytes s t
         ∧ t.hub.out = s.hub.out)) ∧
     (∀ u v l x1 x2 x3 pa, a.unit = some u → s.ridView u.rid = some v → u.line = some l → l.rest = [x1, x2, x3] → u.gen = none →
       calm → storesWf s = true → s.hub.applied = [] → u.bytes = BitVec.allOnes 64 → u.withSide = true → pa % 256 = 0 →
       (∀ i, i < 4 → s.translate v (.engineWrite false) (u.va + 64 * i) = .ok (pa + 64 * i)) → ordinary s (.dev pa) 256 →
       ∃ t, exec .remoteWriteUnit s = .next t ∧ t.hub.out = s.hub.out ∧ (u.src, u.stamp) ∈ t.hub.settled
         ∧ (∀ (i : Nat) x, [(u.data, u.side), x1, x2, x3][i]? = some x → t.sideAt (.dev (pa + 64 * i)) = x.2
             ∧ ∀ k, k < 64 → t.byteAt (.dev (pa + 64 * i + k)) = BitVec.ofNat 8 (x.1.toNat / 2 ^ (8 * k)))
         ∧ ∀ p, (∀ i, i < 4 → ¬sameSector p (.dev (pa + 64 * i))) → t.byteAt p = s.byteAt p ∧ t.sideAt p = s.sideAt p) ∧
     (∀ u, a.unit = some u → calm → (∀ x ∈ s.hub.applied, x.src = u.src → x.stamp ≠ u.stamp) → (s.ridView u.rid = none ∨
         ∃ v e, s.ridView u.rid = some v ∧ s.translate v (.engineWrite u.gen.isSome) u.va = .error e) →
       ∃ t, exec .remoteWriteUnit s = .next t ∧ sameBytes s t ∧ t.hub.out = s.hub.out ++ [.refusal u.src u.va]
         ∧ t.hub.applied = s.hub.applied) ∧
     (∃ t, exec .remoteRead s = .next t ∧ sameBytes s t ∧
       (s.ridView a.rid = none → t.hub.out = s.hub.out ++ [.refusal a.id a.addr]) ∧
       (∀ v e, s.ridView a.rid = some v → s.translate v .engineRead a.addr = .error e →
         t.hub.out = s.hub.out ++ [.refusal a.id a.addr]) ∧
       (∀ v pa, s.ridView a.rid = some v → s.translate v .engineRead a.addr = .ok pa → s.poisonAt (.dev pa) = false →
         pa % 64 = 0 → t.hub.out = s.hub.out ++ [.readReply a.id a.addr (s.sectorAt (.dev pa)) (s.sideAt (.dev pa))])) ∧
     ((a.id, a.addr) ∈ s.hub.incSeen → exec .remoteIncrement s = .next s) ∧
     (a.value < 1024 → calm → (a.id, a.addr) ∉ s.hub.incSeen → smWf (0 : Nat) s.hub.arrival = true →
       let settled := ∀ p ∈ a.pairs, (a.id, p.1) ∈ s.hub.settled
       let allowed := ∃ r, s.regions.find? (fun y => y.rid == a.rid) = some r ∧ grants (s.region r.rcb) a.value = true
       ∃ t, exec .remoteIncrement s = .next t ∧ (a.id, a.addr) ∈ t.hub.incSeen ∧ sameBytes s t ∧
       (allowed → settled → smGet 0 t.hub.arrival a.value = (smGet 0 s.hub.arrival a.value + 1) % 2 ^ 64) ∧
       (¬allowed → t.hub.arrival = s.hub.arrival ∧ t.hub.incs = s.hub.incs
         ∧ t.hub.out = s.hub.out ++ [.refusal a.id a.value]) ∧
       (allowed → ¬settled → t.hub.arrival = s.hub.arrival ∧ t.hub.out = s.hub.out ∧ t.hub.incs =
         [{ src := a.id, counter := a.value, stamp := a.addr, units := a.pairs.map Prod.fst }])) ∧
     (∃ t, exec .peerRefusal s = .next t ∧ t.cmds.length = s.cmds.length ∧ sameBytes s t ∧
       ∀ c ∈ s.cmds, (c.id ≠ a.id → c ∈ t.cmds) ∧
         (c.id = a.id → c.status = .queued → c ∈ t.cmds) ∧
         (c.id = a.id → c.status ≠ .queued → ∃ x, x ∈ t.cmds ∧
           x = { c with poisoned := true, cause := 0x43, addr := x.addr, refused := c.refused ++ [a.addr] }
           ∧ (c.cause ≠ 0x43 ∨ s.rank c a.addr < s.rank c c.addr.toNat → x.addr = BitVec.ofNat 64 a.addr)
           ∧ (c.cause = 0x43 → s.rank c c.addr.toNat ≤ s.rank c a.addr → x.addr = c.addr))) ∧
     (let seen := (a.id, a.value, a.rid) :: s.hub.markers
      ∃ t, exec .flushMarker s = .next t ∧ sameBytes s t ∧
       ((∀ p ∈ a.pairs, (a.id, a.value, p.1) ∈ seen) → t.hub.out = s.hub.out ++ [.ack a.id a.value]) ∧
       ((∃ p ∈ a.pairs, (a.id, a.value, p.1) ∉ seen) → t.hub.out = s.hub.out ∧ ∀ m, m ∈ t.hub.markers ↔ m ∈ seen)) ∧
     (∀ f, s.hub.flushes = [f] → f.stamp = a.value → f.lost = false → calm →
       (f.left = [a.id] → ∃ t, exec .flushAck s = .next t ∧ t.hub.flushes = []
         ∧ t.hub.out = s.hub.out.filter (fun m => !m.sentTo a.id a.value)) ∧
       (∀ d, d ≠ a.id → f.left = [a.id, d] → ∃ t, exec .flushAck s = .next t ∧ t.hub.flushes = [{ f with left := [d] }]) ∧
       (a.id ∉ f.left → exec .flushAck s = .next s)) ∧
     (∃ t, exec .pathDown s = .next t ∧ (a.id < 16 → t.hub.ports.getLsbD a.id = false)
       ∧ t.hub.out.length = s.hub.out.length
       ∧ (∃ q, ((q < 16 ∧ t.hub.ports.getLsbD q = true) ∨ (q = 16 ∧ t.hub.ports = 0)) ∧
           ∀ (i : Nat) m, s.hub.out[i]? = some m → t.hub.out[i]? = some (if m.path = some a.id then m.onPath q else m))
       ∧ (∀ n, n < 16 → n ≠ a.id → t.hub.ports.getLsbD n = s.hub.ports.getLsbD n) ∧ sameBytes s t) ∧
     (∃ t, exec .portTraining s = .next t ∧
       (a.id < 16 → s.amc.status = .ready → s.amc.cfg.skuPort.testBit a.id = true →
         t.hub.ports.getLsbD a.id = (a.flag && decide (a.value ≠ s.amc.cfg.device))
         ∧ (a.flag = true → a.value ≠ s.amc.cfg.device → t.hub.pathless = [] ∧
             ∀ (i : Nat) m, s.hub.out[i]? = some m → m.path = some 16 → t.hub.out[i]? = some (m.onPath a.id))) ∧
       (s.amc.cfg.skuPort.testBit a.id = false ∨ s.amc.status ≠ .ready → t = s)) ∧
     (∃ t, exec .peerPathLoss s = .next t ∧ t.mem = s.mem ∧ a.id ∈ t.hub.pathless ∧ (∀ d ∈ s.hub.pathless, d ∈ t.hub.pathless) ∧
       (∀ c ∈ s.cmds, ∀ x, c.status = .running → c.kind = .send x → x.dev = a.id →
         ∀ y ∈ t.cmds, y.id = c.id → y.status = .suspended ∧ y.stopCause = 0x41) ∧
       (∀ c x, c.kind = .send x → x.dev = a.id → t.cmdWaits c = true) ∧
       (∀ f ∈ s.hub.flushes, f.lost = false → a.id ∈ f.left → s.team.uid ≠ 0 → s.blk.bid ≠ 0 → s.team.bid = s.blk.bid →
         s.team.phase = .stalled (.flush f.stamp) → s.ownHandler = none →
         t.team.phase = .held ∧ ∃ y, t.team.fault = some y ∧ y.cause = .machineCheck ∧ y.addr = BitVec.ofNat 64 a.id)))

/-- R431..R446. These are the model's: the data of log entries (log 20), when an image below the floor is refused (log
35), the boot after the third failed try and what survives (log 76), what a record that fails leaves configured (log
4), the values of flash and the functions behind signatures (log 81). Which die a throttle lowers (its own temperature
with that of its six stacks, or the module power) is log 34's reading, and by how much is a free value (log 34). -/
def Obligations.ManagementEvents : Prop :=
  ∀ s : State,
    let a := s.arg
    let on := a.vlan = s.amc.cfg.mvlan
    let both (got : State → Prop) : Prop :=
      (∃ t, exec .powerOnReset s = .next t ∧ got t) ∧ (on → ∃ t, exec .resetRequest s = .next t ∧ got t)
    (¬on → exec .resetRequest s = .next s ∧ exec .floorCommand s = .next s ∧ exec .firmwareUpdate s = .next s
      ∧ exec .attestationRequest s = .next s ∧ exec .eventLogRead s = .next s ∧ exec .counterProgram s = .next s
      ∧ exec .counterRead s = .next s ∧ exec .ptpMessage s = .next s) ∧
    let flash := s.amc.flash
    let cfg := if flash.recordOk = true then configOf (signedBody flash.record) else s.amc.cfg
    let fails := (List.range 16).filter (fun p => cfg.skuPort.testBit p && !a.boot.ports.getLsbD p)
    let ok := a.boot.pufOk = true ∧ s.amc.configured = true ∧ a.boot.hbm = BitVec.allOnes 12
    let valid (x : Bank) : Prop := imageValid x.image s.amc.floor = true
    both (fun t => t.teams = [] ∧ t.allBlocks = [] ∧ t.launches = [] ∧ t.cmds = [] ∧ t.regions = [] ∧ t.domains = []
      ∧ t.hub.ptp = 0 ∧ t.hub.armed = [] ∧ (fails = [] → t.hub.stampLast = 0 ∧ t.amc.log = flash.mirror)
      ∧ (∀ p, t.byteAt p = 0 ∧ t.sideAt p = 0 ∧ t.poisonAt p = false)
      ∧ t.amc.cfg = cfg ∧ t.amc.floor = s.amc.floor ∧ t.amc.flash = { flash with mirror := t.amc.log } ∧ t.amc.session = none
      ∧ (t.amc.status = .recovery → t.amc.log = flash.mirror ∧ t.queues = [])
      ∧ (t.amc.status = .ready → fails ≠ [] → ∃ more, t.amc.log = (more ++ flash.mirror).take 65536
          ∧ more.map (fun e => e.data.toNat) = fails.reverse ∧ ∀ e ∈ more, e.unit = 27 ∧ e.severity = 1)) ∧
    (∀ b : Bool, let x := s.amc.bank b
     let y := s.amc.bank (!b)
     x.st = .active → (b = true ∨ y.st ≠ .active) →
     (valid x → y.st ≠ .pending →
        (ok → both (fun t => t.amc.status = .ready ∧ t.amc.bank b = x ∧ t.amc.bank (!b) = y)) ∧
        (¬ok → both (fun t => t.amc.status = .recovery))) ∧
     (valid x → y.st = .pending → valid y →
        (ok → both (fun t => t.amc.status = .ready ∧ t.amc.bank (!b) = { y with st := .active, tries := 0 }
          ∧ t.amc.bank b = { x with st := .standby })) ∧
        (¬ok → y.tries < 2 → both (fun t => t.amc.status = .recovery ∧ t.amc.bank b = x
          ∧ t.amc.bank (!b) = { y with tries := y.tries + 1 })) ∧
        (¬ok → 2 ≤ y.tries → both (fun t => t.amc.bank (!b) = Bank.erased ∧ t.amc.bank b = x
          ∧ (t.amc.status = .ready ↔ a.flag = true ∧ s.amc.configured = true)))) ∧
     (valid x → y.st = .pending → ¬valid y → both (fun t => t.amc.bank b = x ∧ (t.amc.status = .ready ↔ ok)
        ∧ t.amc.bank (!b) = if 2 ≤ y.tries then Bank.erased else { y with tries := y.tries + 1 })) ∧
     (¬valid x → y.st ≠ .pending →
        (y.st = .standby → valid y → ok → both (fun t => t.amc.status = .ready
          ∧ t.amc.bank (!b) = { y with st := .active, tries := 0 } ∧ t.amc.bank b = { x with st := .standby })) ∧
        (y.st ≠ .standby ∨ ¬valid y ∨ ¬ok → both (fun t => t.amc.status = .recovery)))) ∧
    (let may := s.amc.status = .ready ∧ s.amc.floor ≤ a.value ∧ a.value ≤ s.amc.versionOf .active
     (on → may → ∃ t, exec .floorCommand s = .next t ∧ t.amc = { s.amc with floor := a.value } ∧ sameBytes s t) ∧
     (¬may → exec .floorCommand s = .next s)) ∧
    (let other (m : Amc) : Bank × Bank := if s.amc.bankA.st = .active then (m.bankB, m.bankA) else (m.bankA, m.bankB)
     (∀ x, s.amc.session = some x → x.1 ≠ a.id → exec .firmwareUpdate s = .next s) ∧
     (s.amc.session = none → 8 ≤ a.bytes.length → imageVersion a.bytes < s.amc.floor → exec .firmwareUpdate s = .next s) ∧
     (∀ image, on → ((s.amc.session = none ∧ image = a.bytes ∧ (a.bytes.length < 8 ∨ s.amc.floor ≤ imageVersion a.bytes))
         ∨ ∃ old, s.amc.session = some (a.id, old) ∧ image = old ++ a.bytes) →
       ∃ t, exec .firmwareUpdate s = .next t ∧ (other t.amc).2 = (other s.amc).2 ∧
         (a.flag = false → (other t.amc).1 = Bank.erased ∧ t.amc.session = some (a.id, image)) ∧
         (a.flag = true → t.amc.session = none ∧
           (imageValid image s.amc.floor = true → (other t.amc).1 = ⟨.pending, 0, image⟩) ∧
           (imageValid image s.amc.floor = false → (other t.amc).1 = Bank.erased)))) ∧
    (on → s.amc.status = .ready → ∃ t r, exec .attestationRequest s = .next t ∧ t.amc.reports = r :: s.amc.reports
      ∧ r.nonce = a.value % 2 ^ 256 ∧ r.version = s.amc.versionOf .active ∧ r.standby = s.amc.versionOf .standby
      ∧ r.floor = s.amc.floor ∧ r.device = s.amc.cfg.device % 1024 ∧ r.ptpTime = s.hub.ptp
      ∧ r.idHash = sha384 (flash.rsaKey ++ flash.slhKey) ∧ r.cfgHash = sha384 flash.record
      ∧ r.certs = [flash.rsaCert, flash.slhCert]) ∧
    (on → ∃ t, exec .eventLogRead s = .next t ∧ t.amc.logReply = (s.amc.log.drop a.id).take a.len ∧ t.amc.log = s.amc.log) ∧
    (∀ k w, on → a.pairs = [(k, w)] → s.amc.status = .ready → smWf (0 : Nat) s.amc.evCount = true →
      smWf (0 : Nat) s.amc.evCtl = true →
      (counterExists k = true → sourceOk k w = true → ∃ t, exec .counterProgram s = .next t ∧ t.lastOfClk = true
        ∧ smGet 0 t.amc.evCount k = 0 ∧ smGet 0 t.amc.evCtl k = w % 2 ^ 8 + w / 2 ^ 14 % 2 ^ 18 * 2 ^ 14
        ∧ ∀ n, n ≠ k → smGet 0 t.amc.evCount n = smGet 0 s.amc.evCount n ∧ smGet 0 t.amc.evCtl n = smGet 0 s.amc.evCtl n) ∧
      (counterExists k = false ∨ sourceOk k w = false → exec .counterProgram s = .next s) ∧
      (counterExists k = true → counterDie k = a.id → ∃ t, exec .counterRead s = .next t ∧ t.lastOfClk = true
        ∧ t.amc.evCount = s.amc.evCount ∧ t.amc.evCtl = s.amc.evCtl ∧ t.amc.counterReply = [smGet 0 s.amc.evCount k])) ∧
    (let c := s.amc.cfg
     let r := a.sensor
     let seen : State := { s with amc := { s.amc with sensors := some r } }
     (c.tCrit ≤ hottest r → ∃ t, exec .sensorPoll s = .next t ∧ t.amc.status = .down ∧ t.teams = [] ∧ t.mem = []
       ∧ t.amc.sensors = some r) ∧
     (hottest r < c.tCrit → hottest r < c.tWarn → dieTemp r 0 < c.tThr → dieTemp r 1 < c.tThr → r.power ≤ c.pwrLim →
       exec .sensorPoll s = .next seen) ∧
     (hottest r < c.tCrit → ∃ t, exec .sensorPoll s = .next t ∧ sameBytes s t ∧ t.amc.sensors = some r ∧
       let low (die new old : Nat) : Prop :=
         (c.tThr ≤ dieTemp r die ∨ c.pwrLim < r.power → new ≤ old ∧ (old ≠ 0 → new < old))
         ∧ (dieTemp r die < c.tThr → r.power ≤ c.pwrLim → new = old)
       low 0 t.amc.power0 s.amc.power0 ∧ low 1 t.amc.power1 s.amc.power1)) ∧
    (s.amc.status ≠ .ready → exec .ptpMessage s = .next s) ∧
    (on → s.amc.status = .ready → let v := a.value % 2 ^ 64
     ∃ t, exec .ptpMessage s = .next t ∧ s.hub.ptp ≤ t.hub.ptp ∧ t.hub.ptpLocked = true ∧
       (s.hub.ptpLocked = false → t.hub.ptp = max s.hub.ptp v ∧ t.slots.map Prod.fst = s.slots.map Prod.fst
         ∧ ∀ x ∈ s.slots, ∃ y, (x.1, y) ∈ t.slots ∧ y = { x.2 with m := y.m }
           ∧ (t.hub.ptp < y.start ∨ y.period = 0 → y.m = x.2.m)
           ∧ (y.start ≤ t.hub.ptp → y.period ≠ 0 → y.m = max x.2.m ((t.hub.ptp - y.start) / y.period))) ∧
       (s.hub.ptpLocked = true → t.slots = s.slots) ∧
       (s.hub.ptpLocked = true → s.hub.ptp + 1000000 < v → t.hub.ptp = v) ∧
       (s.hub.ptpLocked = true → v ≤ s.hub.ptp + 1000000 → t.hub.ptp = s.hub.ptp))
end

