-- ==== Sys2Proof/Laws/State.lean ====
section
/-!
SUPPORT. The fields of the state under each of the small updates: one lemma per field that an update leaves alone.
-/
namespace Sys2Proof.Machine

/-! ### `withRegs` -/

@[simp] theorem State.withRegs_blk (s : State) (r : Regs) : (s.withRegs r).blk = s.blk := rfl
@[simp] theorem State.withRegs_others (s : State) (r : Regs) : (s.withRegs r).others = s.others := rfl
@[simp] theorem State.withRegs_blocks (s : State) (r : Regs) : (s.withRegs r).blocks = s.blocks := rfl
@[simp] theorem State.withRegs_clusters (s : State) (r : Regs) : (s.withRegs r).clusters = s.clusters := rfl
@[simp] theorem State.withRegs_launches (s : State) (r : Regs) : (s.withRegs r).launches = s.launches := rfl
@[simp] theorem State.withRegs_cmds (s : State) (r : Regs) : (s.withRegs r).cmds = s.cmds := rfl
@[simp] theorem State.withRegs_regions (s : State) (r : Regs) : (s.withRegs r).regions = s.regions := rfl
@[simp] theorem State.withRegs_domains (s : State) (r : Regs) : (s.withRegs r).domains = s.domains := rfl
@[simp] theorem State.withRegs_queues (s : State) (r : Regs) : (s.withRegs r).queues = s.queues := rfl
@[simp] theorem State.withRegs_tapes (s : State) (r : Regs) : (s.withRegs r).tapes = s.tapes := rfl
@[simp] theorem State.withRegs_slots (s : State) (r : Regs) : (s.withRegs r).slots = s.slots := rfl
@[simp] theorem State.withRegs_hearths (s : State) (r : Regs) : (s.withRegs r).hearths = s.hearths := rfl
@[simp] theorem State.withRegs_halted (s : State) (r : Regs) : (s.withRegs r).halted = s.halted := rfl
@[simp] theorem State.withRegs_swapping (s : State) (r : Regs) : (s.withRegs r).swapping = s.swapping := rfl
@[simp] theorem State.withRegs_cursor (s : State) (r : Regs) : (s.withRegs r).cursor = s.cursor := rfl
@[simp] theorem State.withRegs_rrRegion (s : State) (r : Regs) : (s.withRegs r).rrRegion = s.rrRegion := rfl
@[simp] theorem State.withRegs_records (s : State) (r : Regs) : (s.withRegs r).records = s.records := rfl
@[simp] theorem State.withRegs_freeSteps (s : State) (r : Regs) : (s.withRegs r).freeSteps = s.freeSteps := rfl
@[simp] theorem State.withRegs_leaveDebt (s : State) (r : Regs) : (s.withRegs r).leaveDebt = s.leaveDebt := rfl
@[simp] theorem State.withRegs_hub (s : State) (r : Regs) : (s.withRegs r).hub = s.hub := rfl
@[simp] theorem State.withRegs_amc (s : State) (r : Regs) : (s.withRegs r).amc = s.amc := rfl
@[simp] theorem State.withRegs_caches (s : State) (r : Regs) : (s.withRegs r).caches = s.caches := rfl
@[simp] theorem State.withRegs_mem (s : State) (r : Regs) : (s.withRegs r).mem = s.mem := rfl
@[simp] theorem State.withRegs_memSide (s : State) (r : Regs) : (s.withRegs r).memSide = s.memSide := rfl
@[simp] theorem State.withRegs_poison (s : State) (r : Regs) : (s.withRegs r).poison = s.poison := rfl
@[simp] theorem State.withRegs_clk (s : State) (r : Regs) : (s.withRegs r).clk = s.clk := rfl
@[simp] theorem State.withRegs_leaveWin (s : State) (r : Regs) : (s.withRegs r).leaveWin = s.leaveWin := rfl
@[simp] theorem State.withRegs_nextId (s : State) (r : Regs) : (s.withRegs r).nextId = s.nextId := rfl
@[simp] theorem State.withRegs_issued (s : State) (r : Regs) : (s.withRegs r).issued = s.issued := rfl
@[simp] theorem State.withRegs_free (s : State) (r : Regs) : (s.withRegs r).free = s.free := rfl
@[simp] theorem State.withRegs_lastOfClk (s : State) (r : Regs) : (s.withRegs r).lastOfClk = s.lastOfClk := rfl
@[simp] theorem State.withRegs_iss (s : State) (r : Regs) : (s.withRegs r).iss = s.iss := rfl
@[simp] theorem State.withRegs_arg (s : State) (r : Regs) : (s.withRegs r).arg = s.arg := rfl
@[simp] theorem State.withRegs_agenda (s : State) (r : Regs) : (s.withRegs r).agenda = s.agenda := rfl
@[simp] theorem State.withRegs_team_uid (s : State) (r : Regs) : (s.withRegs r).team.uid = s.team.uid := rfl
@[simp] theorem State.withRegs_team_bid (s : State) (r : Regs) : (s.withRegs r).team.bid = s.team.bid := rfl
@[simp] theorem State.withRegs_team_lid (s : State) (r : Regs) : (s.withRegs r).team.lid = s.team.lid := rfl
@[simp] theorem State.withRegs_team_teamId (s : State) (r : Regs) : (s.withRegs r).team.teamId = s.team.teamId := rfl
@[simp] theorem State.withRegs_team_tib (s : State) (r : Regs) : (s.withRegs r).team.tib = s.team.tib := rfl
@[simp] theorem State.withRegs_team_size (s : State) (r : Regs) : (s.withRegs r).team.size = s.team.size := rfl
@[simp] theorem State.withRegs_team_core (s : State) (r : Regs) : (s.withRegs r).team.core = s.team.core := rfl
@[simp] theorem State.withRegs_team_section_ (s : State) (r : Regs) : (s.withRegs r).team.section_ = s.team.section_ := rfl
@[simp] theorem State.withRegs_team_system (s : State) (r : Regs) : (s.withRegs r).team.system = s.team.system := rfl
@[simp] theorem State.withRegs_team_rcb (s : State) (r : Regs) : (s.withRegs r).team.rcb = s.team.rcb := rfl
@[simp] theorem State.withRegs_team_phase (s : State) (r : Regs) : (s.withRegs r).team.phase = s.team.phase := rfl
@[simp] theorem State.withRegs_team_pc (s : State) (r : Regs) : (s.withRegs r).team.pc = s.team.pc := rfl
@[simp] theorem State.withRegs_team_nextPlane (s : State) (r : Regs) : (s.withRegs r).team.nextPlane = s.team.nextPlane := rfl
@[simp] theorem State.withRegs_team_lanes (s : State) (r : Regs) : (s.withRegs r).team.lanes = s.team.lanes := rfl
@[simp] theorem State.withRegs_team_win (s : State) (r : Regs) : (s.withRegs r).team.win = s.team.win := rfl
@[simp] theorem State.withRegs_team_sp (s : State) (r : Regs) : (s.withRegs r).team.sp = s.team.sp := rfl
@[simp] theorem State.withRegs_team_trap (s : State) (r : Regs) : (s.withRegs r).team.trap = s.team.trap := rfl
@[simp] theorem State.withRegs_team_looks (s : State) (r : Regs) : (s.withRegs r).team.looks = s.team.looks := rfl
@[simp] theorem State.withRegs_team_loads (s : State) (r : Regs) : (s.withRegs r).team.loads = s.team.loads := rfl
@[simp] theorem State.withRegs_team_nextLoad (s : State) (r : Regs) : (s.withRegs r).team.nextLoad = s.team.nextLoad := rfl
@[simp] theorem State.withRegs_team_deadline (s : State) (r : Regs) : (s.withRegs r).team.deadline = s.team.deadline := rfl
@[simp] theorem State.withRegs_team_barA (s : State) (r : Regs) : (s.withRegs r).team.barA = s.team.barA := rfl
@[simp] theorem State.withRegs_team_cbarA (s : State) (r : Regs) : (s.withRegs r).team.cbarA = s.team.cbarA := rfl
@[simp] theorem State.withRegs_team_timeout (s : State) (r : Regs) : (s.withRegs r).team.timeout = s.team.timeout := rfl
@[simp] theorem State.withRegs_team_mat (s : State) (r : Regs) : (s.withRegs r).team.mat = s.team.mat := rfl
@[simp] theorem State.withRegs_team_pre (s : State) (r : Regs) : (s.withRegs r).team.pre = s.team.pre := rfl
@[simp] theorem State.withRegs_team_fault (s : State) (r : Regs) : (s.withRegs r).team.fault = s.team.fault := rfl
@[simp] theorem State.withRegs_team_fdStat (s : State) (r : Regs) : (s.withRegs r).team.fdStat = s.team.fdStat := rfl
@[simp] theorem State.withRegs_team_fdArg (s : State) (r : Regs) : (s.withRegs r).team.fdArg = s.team.fdArg := rfl
@[simp] theorem State.withRegs_team_reqSteps (s : State) (r : Regs) : (s.withRegs r).team.reqSteps = s.team.reqSteps := rfl
@[simp] theorem State.withRegs_team_reqCopy (s : State) (r : Regs) : (s.withRegs r).team.reqCopy = s.team.reqCopy := rfl
@[simp] theorem State.withRegs_team_tokSteps (s : State) (r : Regs) : (s.withRegs r).team.tokSteps = s.team.tokSteps := rfl
@[simp] theorem State.withRegs_team_tokCopy (s : State) (r : Regs) : (s.withRegs r).team.tokCopy = s.team.tokCopy := rfl
@[simp] theorem State.withRegs_team_granted (s : State) (r : Regs) : (s.withRegs r).team.granted = s.team.granted := rfl
@[simp] theorem State.withRegs_team_spillSz (s : State) (r : Regs) : (s.withRegs r).team.spillSz = s.team.spillSz := rfl
@[simp] theorem State.withRegs_team_spillBase (s : State) (r : Regs) : (s.withRegs r).team.spillBase = s.team.spillBase := rfl
@[simp] theorem State.withRegs_team_spillExt (s : State) (r : Regs) : (s.withRegs r).team.spillExt = s.team.spillExt := rfl
@[simp] theorem State.withRegs_team_sstack (s : State) (r : Regs) : (s.withRegs r).team.sstack = s.team.sstack := rfl
@[simp] theorem State.withRegs_team_badBuffers (s : State) (r : Regs) : (s.withRegs r).team.badBuffers = s.team.badBuffers := rfl
@[simp] theorem State.withRegs_team_lastIssue (s : State) (r : Regs) : (s.withRegs r).team.lastIssue = s.team.lastIssue := rfl
@[simp] theorem State.withRegs_team_lastSlotA (s : State) (r : Regs) : (s.withRegs r).team.lastSlotA = s.team.lastSlotA := rfl
@[simp] theorem State.withRegs_team_placed (s : State) (r : Regs) : (s.withRegs r).team.placed = s.team.placed := rfl
@[simp] theorem State.withRegs_team_srDue (s : State) (r : Regs) : (s.withRegs r).team.srDue = s.team.srDue := rfl
@[simp] theorem State.withRegs_team_engSeq (s : State) (r : Regs) : (s.withRegs r).team.engSeq = s.team.engSeq := rfl
@[simp] theorem State.withRegs_team_fenced (s : State) (r : Regs) : (s.withRegs r).team.fenced = s.team.fenced := rfl
@[simp] theorem State.withRegs_team_check (s : State) (r : Regs) : (s.withRegs r).team.check = s.team.check := rfl

/-! ### `withSp` -/

@[simp] theorem State.withSp_blk (s : State) (x : Special) : (s.withSp x).blk = s.blk := rfl
@[simp] theorem State.withSp_others (s : State) (x : Special) : (s.withSp x).others = s.others := rfl
@[simp] theorem State.withSp_blocks (s : State) (x : Special) : (s.withSp x).blocks = s.blocks := rfl
@[simp] theorem State.withSp_clusters (s : State) (x : Special) : (s.withSp x).clusters = s.clusters := rfl
@[simp] theorem State.withSp_launches (s : State) (x : Special) : (s.withSp x).launches = s.launches := rfl
@[simp] theorem State.withSp_cmds (s : State) (x : Special) : (s.withSp x).cmds = s.cmds := rfl
@[simp] theorem State.withSp_regions (s : State) (x : Special) : (s.withSp x).regions = s.regions := rfl
@[simp] theorem State.withSp_domains (s : State) (x : Special) : (s.withSp x).domains = s.domains := rfl
@[simp] theorem State.withSp_queues (s : State) (x : Special) : (s.withSp x).queues = s.queues := rfl
@[simp] theorem State.withSp_tapes (s : State) (x : Special) : (s.withSp x).tapes = s.tapes := rfl
@[simp] theorem State.withSp_slots (s : State) (x : Special) : (s.withSp x).slots = s.slots := rfl
@[simp] theorem State.withSp_hearths (s : State) (x : Special) : (s.withSp x).hearths = s.hearths := rfl
@[simp] theorem State.withSp_halted (s : State) (x : Special) : (s.withSp x).halted = s.halted := rfl
@[simp] theorem State.withSp_swapping (s : State) (x : Special) : (s.withSp x).swapping = s.swapping := rfl
@[simp] theorem State.withSp_cursor (s : State) (x : Special) : (s.withSp x).cursor = s.cursor := rfl
@[simp] theorem State.withSp_rrRegion (s : State) (x : Special) : (s.withSp x).rrRegion = s.rrRegion := rfl
@[simp] theorem State.withSp_records (s : State) (x : Special) : (s.withSp x).records = s.records := rfl
@[simp] theorem State.withSp_freeSteps (s : State) (x : Special) : (s.withSp x).freeSteps = s.freeSteps := rfl
@[simp] theorem State.withSp_leaveDebt (s : State) (x : Special) : (s.withSp x).leaveDebt = s.leaveDebt := rfl
@[simp] theorem State.withSp_hub (s : State) (x : Special) : (s.withSp x).hub = s.hub := rfl
@[simp] theorem State.withSp_amc (s : State) (x : Special) : (s.withSp x).amc = s.amc := rfl
@[simp] theorem State.withSp_caches (s : State) (x : Special) : (s.withSp x).caches = s.caches := rfl
@[simp] theorem State.withSp_mem (s : State) (x : Special) : (s.withSp x).mem = s.mem := rfl
@[simp] theorem State.withSp_memSide (s : State) (x : Special) : (s.withSp x).memSide = s.memSide := rfl
@[simp] theorem State.withSp_poison (s : State) (x : Special) : (s.withSp x).poison = s.poison := rfl
@[simp] theorem State.withSp_clk (s : State) (x : Special) : (s.withSp x).clk = s.clk := rfl
@[simp] theorem State.withSp_leaveWin (s : State) (x : Special) : (s.withSp x).leaveWin = s.leaveWin := rfl
@[simp] theorem State.withSp_nextId (s : State) (x : Special) : (s.withSp x).nextId = s.nextId := rfl
@[simp] theorem State.withSp_issued (s : State) (x : Special) : (s.withSp x).issued = s.issued := rfl
@[simp] theorem State.withSp_free (s : State) (x : Special) : (s.withSp x).free = s.free := rfl
@[simp] theorem State.withSp_lastOfClk (s : State) (x : Special) : (s.withSp x).lastOfClk = s.lastOfClk := rfl
@[simp] theorem State.withSp_iss (s : State) (x : Special) : (s.withSp x).iss = s.iss := rfl
@[simp] theorem State.withSp_arg (s : State) (x : Special) : (s.withSp x).arg = s.arg := rfl
@[simp] theorem State.withSp_agenda (s : State) (x : Special) : (s.withSp x).agenda = s.agenda := rfl
@[simp] theorem State.withSp_team_uid (s : State) (x : Special) : (s.withSp x).team.uid = s.team.uid := rfl
@[simp] theorem State.withSp_team_bid (s : State) (x : Special) : (s.withSp x).team.bid = s.team.bid := rfl
@[simp] theorem State.withSp_team_lid (s : State) (x : Special) : (s.withSp x).team.lid = s.team.lid := rfl
@[simp] theorem State.withSp_team_teamId (s : State) (x : Special) : (s.withSp x).team.teamId = s.team.teamId := rfl
@[simp] theorem State.withSp_team_tib (s : State) (x : Special) : (s.withSp x).team.tib = s.team.tib := rfl
@[simp] theorem State.withSp_team_size (s : State) (x : Special) : (s.withSp x).team.size = s.team.size := rfl
@[simp] theorem State.withSp_team_core (s : State) (x : Special) : (s.withSp x).team.core = s.team.core := rfl
@[simp] theorem State.withSp_team_section_ (s : State) (x : Special) : (s.withSp x).team.section_ = s.team.section_ := rfl
@[simp] theorem State.withSp_team_system (s : State) (x : Special) : (s.withSp x).team.system = s.team.system := rfl
@[simp] theorem State.withSp_team_rcb (s : State) (x : Special) : (s.withSp x).team.rcb = s.team.rcb := rfl
@[simp] theorem State.withSp_team_phase (s : State) (x : Special) : (s.withSp x).team.phase = s.team.phase := rfl
@[simp] theorem State.withSp_team_pc (s : State) (x : Special) : (s.withSp x).team.pc = s.team.pc := rfl
@[simp] theorem State.withSp_team_nextPlane (s : State) (x : Special) : (s.withSp x).team.nextPlane = s.team.nextPlane := rfl
@[simp] theorem State.withSp_team_lanes (s : State) (x : Special) : (s.withSp x).team.lanes = s.team.lanes := rfl
@[simp] theorem State.withSp_team_win (s : State) (x : Special) : (s.withSp x).team.win = s.team.win := rfl
@[simp] theorem State.withSp_team_regs (s : State) (x : Special) : (s.withSp x).team.regs = s.team.regs := rfl
@[simp] theorem State.withSp_team_trap (s : State) (x : Special) : (s.withSp x).team.trap = s.team.trap := rfl
@[simp] theorem State.withSp_team_looks (s : State) (x : Special) : (s.withSp x).team.looks = s.team.looks := rfl
@[simp] theorem State.withSp_team_loads (s : State) (x : Special) : (s.withSp x).team.loads = s.team.loads := rfl
@[simp] theorem State.withSp_team_nextLoad (s : State) (x : Special) : (s.withSp x).team.nextLoad = s.team.nextLoad := rfl
@[simp] theorem State.withSp_team_deadline (s : State) (x : Special) : (s.withSp x).team.deadline = s.team.deadline := rfl
@[simp] theorem State.withSp_team_barA (s : State) (x : Special) : (s.withSp x).team.barA = s.team.barA := rfl
@[simp] theorem State.withSp_team_cbarA (s : State) (x : Special) : (s.withSp x).team.cbarA = s.team.cbarA := rfl
@[simp] theorem State.withSp_team_timeout (s : State) (x : Special) : (s.withSp x).team.timeout = s.team.timeout := rfl
@[simp] theorem State.withSp_team_mat (s : State) (x : Special) : (s.withSp x).team.mat = s.team.mat := rfl
@[simp] theorem State.withSp_team_pre (s : State) (x : Special) : (s.withSp x).team.pre = s.team.pre := rfl
@[simp] theorem State.withSp_team_fault (s : State) (x : Special) : (s.withSp x).team.fault = s.team.fault := rfl
@[simp] theorem State.withSp_team_fdStat (s : State) (x : Special) : (s.withSp x).team.fdStat = s.team.fdStat := rfl
@[simp] theorem State.withSp_team_fdArg (s : State) (x : Special) : (s.withSp x).team.fdArg = s.team.fdArg := rfl
@[simp] theorem State.withSp_team_reqSteps (s : State) (x : Special) : (s.withSp x).team.reqSteps = s.team.reqSteps := rfl
@[simp] theorem State.withSp_team_reqCopy (s : State) (x : Special) : (s.withSp x).team.reqCopy = s.team.reqCopy := rfl
@[simp] theorem State.withSp_team_tokSteps (s : State) (x : Special) : (s.withSp x).team.tokSteps = s.team.tokSteps := rfl
@[simp] theorem State.withSp_team_tokCopy (s : State) (x : Special) : (s.withSp x).team.tokCopy = s.team.tokCopy := rfl
@[simp] theorem State.withSp_team_granted (s : State) (x : Special) : (s.withSp x).team.granted = s.team.granted := rfl
@[simp] theorem State.withSp_team_spillSz (s : State) (x : Special) : (s.withSp x).team.spillSz = s.team.spillSz := rfl
@[simp] theorem State.withSp_team_spillBase (s : State) (x : Special) : (s.withSp x).team.spillBase = s.team.spillBase := rfl
@[simp] theorem State.withSp_team_spillExt (s : State) (x : Special) : (s.withSp x).team.spillExt = s.team.spillExt := rfl
@[simp] theorem State.withSp_team_sstack (s : State) (x : Special) : (s.withSp x).team.sstack = s.team.sstack := rfl
@[simp] theorem State.withSp_team_badBuffers (s : State) (x : Special) : (s.withSp x).team.badBuffers = s.team.badBuffers := rfl
@[simp] theorem State.withSp_team_lastIssue (s : State) (x : Special) : (s.withSp x).team.lastIssue = s.team.lastIssue := rfl
@[simp] theorem State.withSp_team_lastSlotA (s : State) (x : Special) : (s.withSp x).team.lastSlotA = s.team.lastSlotA := rfl
@[simp] theorem State.withSp_team_placed (s : State) (x : Special) : (s.withSp x).team.placed = s.team.placed := rfl
@[simp] theorem State.withSp_team_srDue (s : State) (x : Special) : (s.withSp x).team.srDue = s.team.srDue := rfl
@[simp] theorem State.withSp_team_engSeq (s : State) (x : Special) : (s.withSp x).team.engSeq = s.team.engSeq := rfl
@[simp] theorem State.withSp_team_fenced (s : State) (x : Special) : (s.withSp x).team.fenced = s.team.fenced := rfl
@[simp] theorem State.withSp_team_check (s : State) (x : Special) : (s.withSp x).team.check = s.team.check := rfl

/-! ### `withWin` -/

@[simp] theorem State.withWin_blk (s : State) (w : Window) : (s.withWin w).blk = s.blk := rfl
@[simp] theorem State.withWin_others (s : State) (w : Window) : (s.withWin w).others = s.others := rfl
@[simp] theorem State.withWin_blocks (s : State) (w : Window) : (s.withWin w).blocks = s.blocks := rfl
@[simp] theorem State.withWin_clusters (s : State) (w : Window) : (s.withWin w).clusters = s.clusters := rfl
@[simp] theorem State.withWin_launches (s : State) (w : Window) : (s.withWin w).launches = s.launches := rfl
@[simp] theorem State.withWin_cmds (s : State) (w : Window) : (s.withWin w).cmds = s.cmds := rfl
@[simp] theorem State.withWin_regions (s : State) (w : Window) : (s.withWin w).regions = s.regions := rfl
@[simp] theorem State.withWin_domains (s : State) (w : Window) : (s.withWin w).domains = s.domains := rfl
@[simp] theorem State.withWin_queues (s : State) (w : Window) : (s.withWin w).queues = s.queues := rfl
@[simp] theorem State.withWin_tapes (s : State) (w : Window) : (s.withWin w).tapes = s.tapes := rfl
@[simp] theorem State.withWin_slots (s : State) (w : Window) : (s.withWin w).slots = s.slots := rfl
@[simp] theorem State.withWin_hearths (s : State) (w : Window) : (s.withWin w).hearths = s.hearths := rfl
@[simp] theorem State.withWin_halted (s : State) (w : Window) : (s.withWin w).halted = s.halted := rfl
@[simp] theorem State.withWin_swapping (s : State) (w : Window) : (s.withWin w).swapping = s.swapping := rfl
@[simp] theorem State.withWin_cursor (s : State) (w : Window) : (s.withWin w).cursor = s.cursor := rfl
@[simp] theorem State.withWin_rrRegion (s : State) (w : Window) : (s.withWin w).rrRegion = s.rrRegion := rfl
@[simp] theorem State.withWin_records (s : State) (w : Window) : (s.withWin w).records = s.records := rfl
@[simp] theorem State.withWin_freeSteps (s : State) (w : Window) : (s.withWin w).freeSteps = s.freeSteps := rfl
@[simp] theorem State.withWin_leaveDebt (s : State) (w : Window) : (s.withWin w).leaveDebt = s.leaveDebt := rfl
@[simp] theorem State.withWin_hub (s : State) (w : Window) : (s.withWin w).hub = s.hub := rfl
@[simp] theorem State.withWin_amc (s : State) (w : Window) : (s.withWin w).amc = s.amc := rfl
@[simp] theorem State.withWin_caches (s : State) (w : Window) : (s.withWin w).caches = s.caches := rfl
@[simp] theorem State.withWin_mem (s : State) (w : Window) : (s.withWin w).mem = s.mem := rfl
@[simp] theorem State.withWin_memSide (s : State) (w : Window) : (s.withWin w).memSide = s.memSide := rfl
@[simp] theorem State.withWin_poison (s : State) (w : Window) : (s.withWin w).poison = s.poison := rfl
@[simp] theorem State.withWin_clk (s : State) (w : Window) : (s.withWin w).clk = s.clk := rfl
@[simp] theorem State.withWin_leaveWin (s : State) (w : Window) : (s.withWin w).leaveWin = s.leaveWin := rfl
@[simp] theorem State.withWin_nextId (s : State) (w : Window) : (s.withWin w).nextId = s.nextId := rfl
@[simp] theorem State.withWin_issued (s : State) (w : Window) : (s.withWin w).issued = s.issued := rfl
@[simp] theorem State.withWin_free (s : State) (w : Window) : (s.withWin w).free = s.free := rfl
@[simp] theorem State.withWin_lastOfClk (s : State) (w : Window) : (s.withWin w).lastOfClk = s.lastOfClk := rfl
@[simp] theorem State.withWin_iss (s : State) (w : Window) : (s.withWin w).iss = s.iss := rfl
@[simp] theorem State.withWin_arg (s : State) (w : Window) : (s.withWin w).arg = s.arg := rfl
@[simp] theorem State.withWin_agenda (s : State) (w : Window) : (s.withWin w).agenda = s.agenda := rfl
@[simp] theorem State.withWin_team_uid (s : State) (w : Window) : (s.withWin w).team.uid = s.team.uid := rfl
@[simp] theorem State.withWin_team_bid (s : State) (w : Window) : (s.withWin w).team.bid = s.team.bid := rfl
@[simp] theorem State.withWin_team_lid (s : State) (w : Window) : (s.withWin w).team.lid = s.team.lid := rfl
@[simp] theorem State.withWin_team_teamId (s : State) (w : Window) : (s.withWin w).team.teamId = s.team.teamId := rfl
@[simp] theorem State.withWin_team_tib (s : State) (w : Window) : (s.withWin w).team.tib = s.team.tib := rfl
@[simp] theorem State.withWin_team_size (s : State) (w : Window) : (s.withWin w).team.size = s.team.size := rfl
@[simp] theorem State.withWin_team_core (s : State) (w : Window) : (s.withWin w).team.core = s.team.core := rfl
@[simp] theorem State.withWin_team_section_ (s : State) (w : Window) : (s.withWin w).team.section_ = s.team.section_ := rfl
@[simp] theorem State.withWin_team_system (s : State) (w : Window) : (s.withWin w).team.system = s.team.system := rfl
@[simp] theorem State.withWin_team_rcb (s : State) (w : Window) : (s.withWin w).team.rcb = s.team.rcb := rfl
@[simp] theorem State.withWin_team_phase (s : State) (w : Window) : (s.withWin w).team.phase = s.team.phase := rfl
@[simp] theorem State.withWin_team_pc (s : State) (w : Window) : (s.withWin w).team.pc = s.team.pc := rfl
@[simp] theorem State.withWin_team_nextPlane (s : State) (w : Window) : (s.withWin w).team.nextPlane = s.team.nextPlane := rfl
@[simp] theorem State.withWin_team_lanes (s : State) (w : Window) : (s.withWin w).team.lanes = s.team.lanes := rfl
@[simp] theorem State.withWin_team_regs (s : State) (w : Window) : (s.withWin w).team.regs = s.team.regs := rfl
@[simp] theorem State.withWin_team_sp (s : State) (w : Window) : (s.withWin w).team.sp = s.team.sp := rfl
@[simp] theorem State.withWin_team_trap (s : State) (w : Window) : (s.withWin w).team.trap = s.team.trap := rfl
@[simp] theorem State.withWin_team_looks (s : State) (w : Window) : (s.withWin w).team.looks = s.team.looks := rfl
@[simp] theorem State.withWin_team_loads (s : State) (w : Window) : (s.withWin w).team.loads = s.team.loads := rfl
@[simp] theorem State.withWin_team_nextLoad (s : State) (w : Window) : (s.withWin w).team.nextLoad = s.team.nextLoad := rfl
@[simp] theorem State.withWin_team_deadline (s : State) (w : Window) : (s.withWin w).team.deadline = s.team.deadline := rfl
@[simp] theorem State.withWin_team_barA (s : State) (w : Window) : (s.withWin w).team.barA = s.team.barA := rfl
@[simp] theorem State.withWin_team_cbarA (s : State) (w : Window) : (s.withWin w).team.cbarA = s.team.cbarA := rfl
@[simp] theorem State.withWin_team_timeout (s : State) (w : Window) : (s.withWin w).team.timeout = s.team.timeout := rfl
@[simp] theorem State.withWin_team_mat (s : State) (w : Window) : (s.withWin w).team.mat = s.team.mat := rfl
@[simp] theorem State.withWin_team_pre (s : State) (w : Window) : (s.withWin w).team.pre = s.team.pre := rfl
@[simp] theorem State.withWin_team_fault (s : State) (w : Window) : (s.withWin w).team.fault = s.team.fault := rfl
@[simp] theorem State.withWin_team_fdStat (s : State) (w : Window) : (s.withWin w).team.fdStat = s.team.fdStat := rfl
@[simp] theorem State.withWin_team_fdArg (s : State) (w : Window) : (s.withWin w).team.fdArg = s.team.fdArg := rfl
@[simp] theorem State.withWin_team_reqSteps (s : State) (w : Window) : (s.withWin w).team.reqSteps = s.team.reqSteps := rfl
@[simp] theorem State.withWin_team_reqCopy (s : State) (w : Window) : (s.withWin w).team.reqCopy = s.team.reqCopy := rfl
@[simp] theorem State.withWin_team_tokSteps (s : State) (w : Window) : (s.withWin w).team.tokSteps = s.team.tokSteps := rfl
@[simp] theorem State.withWin_team_tokCopy (s : State) (w : Window) : (s.withWin w).team.tokCopy = s.team.tokCopy := rfl
@[simp] theorem State.withWin_team_granted (s : State) (w : Window) : (s.withWin w).team.granted = s.team.granted := rfl
@[simp] theorem State.withWin_team_spillSz (s : State) (w : Window) : (s.withWin w).team.spillSz = s.team.spillSz := rfl
@[simp] theorem State.withWin_team_spillBase (s : State) (w : Window) : (s.withWin w).team.spillBase = s.team.spillBase := rfl
@[simp] theorem State.withWin_team_spillExt (s : State) (w : Window) : (s.withWin w).team.spillExt = s.team.spillExt := rfl
@[simp] theorem State.withWin_team_sstack (s : State) (w : Window) : (s.withWin w).team.sstack = s.team.sstack := rfl
@[simp] theorem State.withWin_team_badBuffers (s : State) (w : Window) : (s.withWin w).team.badBuffers = s.team.badBuffers := rfl
@[simp] theorem State.withWin_team_lastIssue (s : State) (w : Window) : (s.withWin w).team.lastIssue = s.team.lastIssue := rfl
@[simp] theorem State.withWin_team_lastSlotA (s : State) (w : Window) : (s.withWin w).team.lastSlotA = s.team.lastSlotA := rfl
@[simp] theorem State.withWin_team_placed (s : State) (w : Window) : (s.withWin w).team.placed = s.team.placed := rfl
@[simp] theorem State.withWin_team_srDue (s : State) (w : Window) : (s.withWin w).team.srDue = s.team.srDue := rfl
@[simp] theorem State.withWin_team_engSeq (s : State) (w : Window) : (s.withWin w).team.engSeq = s.team.engSeq := rfl
@[simp] theorem State.withWin_team_fenced (s : State) (w : Window) : (s.withWin w).team.fenced = s.team.fenced := rfl
@[simp] theorem State.withWin_team_check (s : State) (w : Window) : (s.withWin w).team.check = s.team.check := rfl

/-! ### `withLanes` -/

@[simp] theorem State.withLanes_blk (s : State) (l : Lanes) : (s.withLanes l).blk = s.blk := rfl
@[simp] theorem State.withLanes_others (s : State) (l : Lanes) : (s.withLanes l).others = s.others := rfl
@[simp] theorem State.withLanes_blocks (s : State) (l : Lanes) : (s.withLanes l).blocks = s.blocks := rfl
@[simp] theorem State.withLanes_clusters (s : State) (l : Lanes) : (s.withLanes l).clusters = s.clusters := rfl
@[simp] theorem State.withLanes_launches (s : State) (l : Lanes) : (s.withLanes l).launches = s.launches := rfl
@[simp] theorem State.withLanes_cmds (s : State) (l : Lanes) : (s.withLanes l).cmds = s.cmds := rfl
@[simp] theorem State.withLanes_regions (s : State) (l : Lanes) : (s.withLanes l).regions = s.regions := rfl
@[simp] theorem State.withLanes_domains (s : State) (l : Lanes) : (s.withLanes l).domains = s.domains := rfl
@[simp] theorem State.withLanes_queues (s : State) (l : Lanes) : (s.withLanes l).queues = s.queues := rfl
@[simp] theorem State.withLanes_tapes (s : State) (l : Lanes) : (s.withLanes l).tapes = s.tapes := rfl
@[simp] theorem State.withLanes_slots (s : State) (l : Lanes) : (s.withLanes l).slots = s.slots := rfl
@[simp] theorem State.withLanes_hearths (s : State) (l : Lanes) : (s.withLanes l).hearths = s.hearths := rfl
@[simp] theorem State.withLanes_halted (s : State) (l : Lanes) : (s.withLanes l).halted = s.halted := rfl
@[simp] theorem State.withLanes_swapping (s : State) (l : Lanes) : (s.withLanes l).swapping = s.swapping := rfl
@[simp] theorem State.withLanes_cursor (s : State) (l : Lanes) : (s.withLanes l).cursor = s.cursor := rfl
@[simp] theorem State.withLanes_rrRegion (s : State) (l : Lanes) : (s.withLanes l).rrRegion = s.rrRegion := rfl
@[simp] theorem State.withLanes_records (s : State) (l : Lanes) : (s.withLanes l).records = s.records := rfl
@[simp] theorem State.withLanes_freeSteps (s : State) (l : Lanes) : (s.withLanes l).freeSteps = s.freeSteps := rfl
@[simp] theorem State.withLanes_leaveDebt (s : State) (l : Lanes) : (s.withLanes l).leaveDebt = s.leaveDebt := rfl
@[simp] theorem State.withLanes_hub (s : State) (l : Lanes) : (s.withLanes l).hub = s.hub := rfl
@[simp] theorem State.withLanes_amc (s : State) (l : Lanes) : (s.withLanes l).amc = s.amc := rfl
@[simp] theorem State.withLanes_caches (s : State) (l : Lanes) : (s.withLanes l).caches = s.caches := rfl
@[simp] theorem State.withLanes_mem (s : State) (l : Lanes) : (s.withLanes l).mem = s.mem := rfl
@[simp] theorem State.withLanes_memSide (s : State) (l : Lanes) : (s.withLanes l).memSide = s.memSide := rfl
@[simp] theorem State.withLanes_poison (s : State) (l : Lanes) : (s.withLanes l).poison = s.poison := rfl
@[simp] theorem State.withLanes_clk (s : State) (l : Lanes) : (s.withLanes l).clk = s.clk := rfl
@[simp] theorem State.withLanes_leaveWin (s : State) (l : Lanes) : (s.withLanes l).leaveWin = s.leaveWin := rfl
@[simp] theorem State.withLanes_nextId (s : State) (l : Lanes) : (s.withLanes l).nextId = s.nextId := rfl
@[simp] theorem State.withLanes_issued (s : State) (l : Lanes) : (s.withLanes l).issued = s.issued := rfl
@[simp] theorem State.withLanes_free (s : State) (l : Lanes) : (s.withLanes l).free = s.free := rfl
@[simp] theorem State.withLanes_lastOfClk (s : State) (l : Lanes) : (s.withLanes l).lastOfClk = s.lastOfClk := rfl
@[simp] theorem State.withLanes_iss (s : State) (l : Lanes) : (s.withLanes l).iss = s.iss := rfl
@[simp] theorem State.withLanes_arg (s : State) (l : Lanes) : (s.withLanes l).arg = s.arg := rfl
@[simp] theorem State.withLanes_agenda (s : State) (l : Lanes) : (s.withLanes l).agenda = s.agenda := rfl
@[simp] theorem State.withLanes_team_uid (s : State) (l : Lanes) : (s.withLanes l).team.uid = s.team.uid := rfl
@[simp] theorem State.withLanes_team_bid (s : State) (l : Lanes) : (s.withLanes l).team.bid = s.team.bid := rfl
@[simp] theorem State.withLanes_team_lid (s : State) (l : Lanes) : (s.withLanes l).team.lid = s.team.lid := rfl
@[simp] theorem State.withLanes_team_teamId (s : State) (l : Lanes) : (s.withLanes l).team.teamId = s.team.teamId := rfl
@[simp] theorem State.withLanes_team_tib (s : State) (l : Lanes) : (s.withLanes l).team.tib = s.team.tib := rfl
@[simp] theorem State.withLanes_team_size (s : State) (l : Lanes) : (s.withLanes l).team.size = s.team.size := rfl
@[simp] theorem State.withLanes_team_core (s : State) (l : Lanes) : (s.withLanes l).team.core = s.team.core := rfl
@[simp] theorem State.withLanes_team_section_ (s : State) (l : Lanes) : (s.withLanes l).team.section_ = s.team.section_ := rfl
@[simp] theorem State.withLanes_team_system (s : State) (l : Lanes) : (s.withLanes l).team.system = s.team.system := rfl
@[simp] theorem State.withLanes_team_rcb (s : State) (l : Lanes) : (s.withLanes l).team.rcb = s.team.rcb := rfl
@[simp] theorem State.withLanes_team_phase (s : State) (l : Lanes) : (s.withLanes l).team.phase = s.team.phase := rfl
@[simp] theorem State.withLanes_team_pc (s : State) (l : Lanes) : (s.withLanes l).team.pc = s.team.pc := rfl
@[simp] theorem State.withLanes_team_nextPlane (s : State) (l : Lanes) : (s.withLanes l).team.nextPlane = s.team.nextPlane := rfl
@[simp] theorem State.withLanes_team_win (s : State) (l : Lanes) : (s.withLanes l).team.win = s.team.win := rfl
@[simp] theorem State.withLanes_team_regs (s : State) (l : Lanes) : (s.withLanes l).team.regs = s.team.regs := rfl
@[simp] theorem State.withLanes_team_sp (s : State) (l : Lanes) : (s.withLanes l).team.sp = s.team.sp := rfl
@[simp] theorem State.withLanes_team_trap (s : State) (l : Lanes) : (s.withLanes l).team.trap = s.team.trap := rfl
@[simp] theorem State.withLanes_team_looks (s : State) (l : Lanes) : (s.withLanes l).team.looks = s.team.looks := rfl
@[simp] theorem State.withLanes_team_loads (s : State) (l : Lanes) : (s.withLanes l).team.loads = s.team.loads := rfl
@[simp] theorem State.withLanes_team_nextLoad (s : State) (l : Lanes) : (s.withLanes l).team.nextLoad = s.team.nextLoad := rfl
@[simp] theorem State.withLanes_team_deadline (s : State) (l : Lanes) : (s.withLanes l).team.deadline = s.team.deadline := rfl
@[simp] theorem State.withLanes_team_barA (s : State) (l : Lanes) : (s.withLanes l).team.barA = s.team.barA := rfl
@[simp] theorem State.withLanes_team_cbarA (s : State) (l : Lanes) : (s.withLanes l).team.cbarA = s.team.cbarA := rfl
@[simp] theorem State.withLanes_team_timeout (s : State) (l : Lanes) : (s.withLanes l).team.timeout = s.team.timeout := rfl
@[simp] theorem State.withLanes_team_mat (s : State) (l : Lanes) : (s.withLanes l).team.mat = s.team.mat := rfl
@[simp] theorem State.withLanes_team_pre (s : State) (l : Lanes) : (s.withLanes l).team.pre = s.team.pre := rfl
@[simp] theorem State.withLanes_team_fault (s : State) (l : Lanes) : (s.withLanes l).team.fault = s.team.fault := rfl
@[simp] theorem State.withLanes_team_fdStat (s : State) (l : Lanes) : (s.withLanes l).team.fdStat = s.team.fdStat := rfl
@[simp] theorem State.withLanes_team_fdArg (s : State) (l : Lanes) : (s.withLanes l).team.fdArg = s.team.fdArg := rfl
@[simp] theorem State.withLanes_team_reqSteps (s : State) (l : Lanes) : (s.withLanes l).team.reqSteps = s.team.reqSteps := rfl
@[simp] theorem State.withLanes_team_reqCopy (s : State) (l : Lanes) : (s.withLanes l).team.reqCopy = s.team.reqCopy := rfl
@[simp] theorem State.withLanes_team_tokSteps (s : State) (l : Lanes) : (s.withLanes l).team.tokSteps = s.team.tokSteps := rfl
@[simp] theorem State.withLanes_team_tokCopy (s : State) (l : Lanes) : (s.withLanes l).team.tokCopy = s.team.tokCopy := rfl
@[simp] theorem State.withLanes_team_granted (s : State) (l : Lanes) : (s.withLanes l).team.granted = s.team.granted := rfl
@[simp] theorem State.withLanes_team_spillSz (s : State) (l : Lanes) : (s.withLanes l).team.spillSz = s.team.spillSz := rfl
@[simp] theorem State.withLanes_team_spillBase (s : State) (l : Lanes) : (s.withLanes l).team.spillBase = s.team.spillBase := rfl
@[simp] theorem State.withLanes_team_spillExt (s : State) (l : Lanes) : (s.withLanes l).team.spillExt = s.team.spillExt := rfl
@[simp] theorem State.withLanes_team_sstack (s : State) (l : Lanes) : (s.withLanes l).team.sstack = s.team.sstack := rfl
@[simp] theorem State.withLanes_team_badBuffers (s : State) (l : Lanes) : (s.withLanes l).team.badBuffers = s.team.badBuffers := rfl
@[simp] theorem State.withLanes_team_lastIssue (s : State) (l : Lanes) : (s.withLanes l).team.lastIssue = s.team.lastIssue := rfl
@[simp] theorem State.withLanes_team_lastSlotA (s : State) (l : Lanes) : (s.withLanes l).team.lastSlotA = s.team.lastSlotA := rfl
@[simp] theorem State.withLanes_team_placed (s : State) (l : Lanes) : (s.withLanes l).team.placed = s.team.placed := rfl
@[simp] theorem State.withLanes_team_srDue (s : State) (l : Lanes) : (s.withLanes l).team.srDue = s.team.srDue := rfl
@[simp] theorem State.withLanes_team_engSeq (s : State) (l : Lanes) : (s.withLanes l).team.engSeq = s.team.engSeq := rfl
@[simp] theorem State.withLanes_team_fenced (s : State) (l : Lanes) : (s.withLanes l).team.fenced = s.team.fenced := rfl
@[simp] theorem State.withLanes_team_check (s : State) (l : Lanes) : (s.withLanes l).team.check = s.team.check := rfl

/-! ### `withMat` -/

@[simp] theorem State.withMat_blk (s : State) (m : Matrix) : (s.withMat m).blk = s.blk := rfl
@[simp] theorem State.withMat_others (s : State) (m : Matrix) : (s.withMat m).others = s.others := rfl
@[simp] theorem State.withMat_blocks (s : State) (m : Matrix) : (s.withMat m).blocks = s.blocks := rfl
@[simp] theorem State.withMat_clusters (s : State) (m : Matrix) : (s.withMat m).clusters = s.clusters := rfl
@[simp] theorem State.withMat_launches (s : State) (m : Matrix) : (s.withMat m).launches = s.launches := rfl
@[simp] theorem State.withMat_cmds (s : State) (m : Matrix) : (s.withMat m).cmds = s.cmds := rfl
@[simp] theorem State.withMat_regions (s : State) (m : Matrix) : (s.withMat m).regions = s.regions := rfl
@[simp] theorem State.withMat_domains (s : State) (m : Matrix) : (s.withMat m).domains = s.domains := rfl
@[simp] theorem State.withMat_queues (s : State) (m : Matrix) : (s.withMat m).queues = s.queues := rfl
@[simp] theorem State.withMat_tapes (s : State) (m : Matrix) : (s.withMat m).tapes = s.tapes := rfl
@[simp] theorem State.withMat_slots (s : State) (m : Matrix) : (s.withMat m).slots = s.slots := rfl
@[simp] theorem State.withMat_hearths (s : State) (m : Matrix) : (s.withMat m).hearths = s.hearths := rfl
@[simp] theorem State.withMat_halted (s : State) (m : Matrix) : (s.withMat m).halted = s.halted := rfl
@[simp] theorem State.withMat_swapping (s : State) (m : Matrix) : (s.withMat m).swapping = s.swapping := rfl
@[simp] theorem State.withMat_cursor (s : State) (m : Matrix) : (s.withMat m).cursor = s.cursor := rfl
@[simp] theorem State.withMat_rrRegion (s : State) (m : Matrix) : (s.withMat m).rrRegion = s.rrRegion := rfl
@[simp] theorem State.withMat_records (s : State) (m : Matrix) : (s.withMat m).records = s.records := rfl
@[simp] theorem State.withMat_freeSteps (s : State) (m : Matrix) : (s.withMat m).freeSteps = s.freeSteps := rfl
@[simp] theorem State.withMat_leaveDebt (s : State) (m : Matrix) : (s.withMat m).leaveDebt = s.leaveDebt := rfl
@[simp] theorem State.withMat_hub (s : State) (m : Matrix) : (s.withMat m).hub = s.hub := rfl
@[simp] theorem State.withMat_amc (s : State) (m : Matrix) : (s.withMat m).amc = s.amc := rfl
@[simp] theorem State.withMat_caches (s : State) (m : Matrix) : (s.withMat m).caches = s.caches := rfl
@[simp] theorem State.withMat_mem (s : State) (m : Matrix) : (s.withMat m).mem = s.mem := rfl
@[simp] theorem State.withMat_memSide (s : State) (m : Matrix) : (s.withMat m).memSide = s.memSide := rfl
@[simp] theorem State.withMat_poison (s : State) (m : Matrix) : (s.withMat m).poison = s.poison := rfl
@[simp] theorem State.withMat_clk (s : State) (m : Matrix) : (s.withMat m).clk = s.clk := rfl
@[simp] theorem State.withMat_leaveWin (s : State) (m : Matrix) : (s.withMat m).leaveWin = s.leaveWin := rfl
@[simp] theorem State.withMat_nextId (s : State) (m : Matrix) : (s.withMat m).nextId = s.nextId := rfl
@[simp] theorem State.withMat_issued (s : State) (m : Matrix) : (s.withMat m).issued = s.issued := rfl
@[simp] theorem State.withMat_free (s : State) (m : Matrix) : (s.withMat m).free = s.free := rfl
@[simp] theorem State.withMat_lastOfClk (s : State) (m : Matrix) : (s.withMat m).lastOfClk = s.lastOfClk := rfl
@[simp] theorem State.withMat_iss (s : State) (m : Matrix) : (s.withMat m).iss = s.iss := rfl
@[simp] theorem State.withMat_arg (s : State) (m : Matrix) : (s.withMat m).arg = s.arg := rfl
@[simp] theorem State.withMat_agenda (s : State) (m : Matrix) : (s.withMat m).agenda = s.agenda := rfl
@[simp] theorem State.withMat_team_uid (s : State) (m : Matrix) : (s.withMat m).team.uid = s.team.uid := rfl
@[simp] theorem State.withMat_team_bid (s : State) (m : Matrix) : (s.withMat m).team.bid = s.team.bid := rfl
@[simp] theorem State.withMat_team_lid (s : State) (m : Matrix) : (s.withMat m).team.lid = s.team.lid := rfl
@[simp] theorem State.withMat_team_teamId (s : State) (m : Matrix) : (s.withMat m).team.teamId = s.team.teamId := rfl
@[simp] theorem State.withMat_team_tib (s : State) (m : Matrix) : (s.withMat m).team.tib = s.team.tib := rfl
@[simp] theorem State.withMat_team_size (s : State) (m : Matrix) : (s.withMat m).team.size = s.team.size := rfl
@[simp] theorem State.withMat_team_core (s : State) (m : Matrix) : (s.withMat m).team.core = s.team.core := rfl
@[simp] theorem State.withMat_team_section_ (s : State) (m : Matrix) : (s.withMat m).team.section_ = s.team.section_ := rfl
@[simp] theorem State.withMat_team_system (s : State) (m : Matrix) : (s.withMat m).team.system = s.team.system := rfl
@[simp] theorem State.withMat_team_rcb (s : State) (m : Matrix) : (s.withMat m).team.rcb = s.team.rcb := rfl
@[simp] theorem State.withMat_team_phase (s : State) (m : Matrix) : (s.withMat m).team.phase = s.team.phase := rfl
@[simp] theorem State.withMat_team_pc (s : State) (m : Matrix) : (s.withMat m).team.pc = s.team.pc := rfl
@[simp] theorem State.withMat_team_nextPlane (s : State) (m : Matrix) : (s.withMat m).team.nextPlane = s.team.nextPlane := rfl
@[simp] theorem State.withMat_team_lanes (s : State) (m : Matrix) : (s.withMat m).team.lanes = s.team.lanes := rfl
@[simp] theorem State.withMat_team_win (s : State) (m : Matrix) : (s.withMat m).team.win = s.team.win := rfl
@[simp] theorem State.withMat_team_regs (s : State) (m : Matrix) : (s.withMat m).team.regs = s.team.regs := rfl
@[simp] theorem State.withMat_team_sp (s : State) (m : Matrix) : (s.withMat m).team.sp = s.team.sp := rfl
@[simp] theorem State.withMat_team_trap (s : State) (m : Matrix) : (s.withMat m).team.trap = s.team.trap := rfl
@[simp] theorem State.withMat_team_looks (s : State) (m : Matrix) : (s.withMat m).team.looks = s.team.looks := rfl
@[simp] theorem State.withMat_team_loads (s : State) (m : Matrix) : (s.withMat m).team.loads = s.team.loads := rfl
@[simp] theorem State.withMat_team_nextLoad (s : State) (m : Matrix) : (s.withMat m).team.nextLoad = s.team.nextLoad := rfl
@[simp] theorem State.withMat_team_deadline (s : State) (m : Matrix) : (s.withMat m).team.deadline = s.team.deadline := rfl
@[simp] theorem State.withMat_team_barA (s : State) (m : Matrix) : (s.withMat m).team.barA = s.team.barA := rfl
@[simp] theorem State.withMat_team_cbarA (s : State) (m : Matrix) : (s.withMat m).team.cbarA = s.team.cbarA := rfl
@[simp] theorem State.withMat_team_timeout (s : State) (m : Matrix) : (s.withMat m).team.timeout = s.team.timeout := rfl
@[simp] theorem State.withMat_team_pre (s : State) (m : Matrix) : (s.withMat m).team.pre = s.team.pre := rfl
@[simp] theorem State.withMat_team_fault (s : State) (m : Matrix) : (s.withMat m).team.fault = s.team.fault := rfl
@[simp] theorem State.withMat_team_fdStat (s : State) (m : Matrix) : (s.withMat m).team.fdStat = s.team.fdStat := rfl
@[simp] theorem State.withMat_team_fdArg (s : State) (m : Matrix) : (s.withMat m).team.fdArg = s.team.fdArg := rfl
@[simp] theorem State.withMat_team_reqSteps (s : State) (m : Matrix) : (s.withMat m).team.reqSteps = s.team.reqSteps := rfl
@[simp] theorem State.withMat_team_reqCopy (s : State) (m : Matrix) : (s.withMat m).team.reqCopy = s.team.reqCopy := rfl
@[simp] theorem State.withMat_team_tokSteps (s : State) (m : Matrix) : (s.withMat m).team.tokSteps = s.team.tokSteps := rfl
@[simp] theorem State.withMat_team_tokCopy (s : State) (m : Matrix) : (s.withMat m).team.tokCopy = s.team.tokCopy := rfl
@[simp] theorem State.withMat_team_granted (s : State) (m : Matrix) : (s.withMat m).team.granted = s.team.granted := rfl
@[simp] theorem State.withMat_team_spillSz (s : State) (m : Matrix) : (s.withMat m).team.spillSz = s.team.spillSz := rfl
@[simp] theorem State.withMat_team_spillBase (s : State) (m : Matrix) : (s.withMat m).team.spillBase = s.team.spillBase := rfl
@[simp] theorem State.withMat_team_spillExt (s : State) (m : Matrix) : (s.withMat m).team.spillExt = s.team.spillExt := rfl
@[simp] theorem State.withMat_team_sstack (s : State) (m : Matrix) : (s.withMat m).team.sstack = s.team.sstack := rfl
@[simp] theorem State.withMat_team_badBuffers (s : State) (m : Matrix) : (s.withMat m).team.badBuffers = s.team.badBuffers := rfl
@[simp] theorem State.withMat_team_lastIssue (s : State) (m : Matrix) : (s.withMat m).team.lastIssue = s.team.lastIssue := rfl
@[simp] theorem State.withMat_team_lastSlotA (s : State) (m : Matrix) : (s.withMat m).team.lastSlotA = s.team.lastSlotA := rfl
@[simp] theorem State.withMat_team_placed (s : State) (m : Matrix) : (s.withMat m).team.placed = s.team.placed := rfl
@[simp] theorem State.withMat_team_srDue (s : State) (m : Matrix) : (s.withMat m).team.srDue = s.team.srDue := rfl
@[simp] theorem State.withMat_team_engSeq (s : State) (m : Matrix) : (s.withMat m).team.engSeq = s.team.engSeq := rfl
@[simp] theorem State.withMat_team_fenced (s : State) (m : Matrix) : (s.withMat m).team.fenced = s.team.fenced := rfl
@[simp] theorem State.withMat_team_check (s : State) (m : Matrix) : (s.withMat m).team.check = s.team.check := rfl

/-! ### `withPhase` -/

@[simp] theorem State.withPhase_blk (s : State) (p : Phase) : (s.withPhase p).blk = s.blk := rfl
@[simp] theorem State.withPhase_others (s : State) (p : Phase) : (s.withPhase p).others = s.others := rfl
@[simp] theorem State.withPhase_blocks (s : State) (p : Phase) : (s.withPhase p).blocks = s.blocks := rfl
@[simp] theorem State.withPhase_clusters (s : State) (p : Phase) : (s.withPhase p).clusters = s.clusters := rfl
@[simp] theorem State.withPhase_launches (s : State) (p : Phase) : (s.withPhase p).launches = s.launches := rfl
@[simp] theorem State.withPhase_cmds (s : State) (p : Phase) : (s.withPhase p).cmds = s.cmds := rfl
@[simp] theorem State.withPhase_regions (s : State) (p : Phase) : (s.withPhase p).regions = s.regions := rfl
@[simp] theorem State.withPhase_domains (s : State) (p : Phase) : (s.withPhase p).domains = s.domains := rfl
@[simp] theorem State.withPhase_queues (s : State) (p : Phase) : (s.withPhase p).queues = s.queues := rfl
@[simp] theorem State.withPhase_tapes (s : State) (p : Phase) : (s.withPhase p).tapes = s.tapes := rfl
@[simp] theorem State.withPhase_slots (s : State) (p : Phase) : (s.withPhase p).slots = s.slots := rfl
@[simp] theorem State.withPhase_hearths (s : State) (p : Phase) : (s.withPhase p).hearths = s.hearths := rfl
@[simp] theorem State.withPhase_halted (s : State) (p : Phase) : (s.withPhase p).halted = s.halted := rfl
@[simp] theorem State.withPhase_swapping (s : State) (p : Phase) : (s.withPhase p).swapping = s.swapping := rfl
@[simp] theorem State.withPhase_cursor (s : State) (p : Phase) : (s.withPhase p).cursor = s.cursor := rfl
@[simp] theorem State.withPhase_rrRegion (s : State) (p : Phase) : (s.withPhase p).rrRegion = s.rrRegion := rfl
@[simp] theorem State.withPhase_records (s : State) (p : Phase) : (s.withPhase p).records = s.records := rfl
@[simp] theorem State.withPhase_freeSteps (s : State) (p : Phase) : (s.withPhase p).freeSteps = s.freeSteps := rfl
@[simp] theorem State.withPhase_leaveDebt (s : State) (p : Phase) : (s.withPhase p).leaveDebt = s.leaveDebt := rfl
@[simp] theorem State.withPhase_hub (s : State) (p : Phase) : (s.withPhase p).hub = s.hub := rfl
@[simp] theorem State.withPhase_amc (s : State) (p : Phase) : (s.withPhase p).amc = s.amc := rfl
@[simp] theorem State.withPhase_caches (s : State) (p : Phase) : (s.withPhase p).caches = s.caches := rfl
@[simp] theorem State.withPhase_mem (s : State) (p : Phase) : (s.withPhase p).mem = s.mem := rfl
@[simp] theorem State.withPhase_memSide (s : State) (p : Phase) : (s.withPhase p).memSide = s.memSide := rfl
@[simp] theorem State.withPhase_poison (s : State) (p : Phase) : (s.withPhase p).poison = s.poison := rfl
@[simp] theorem State.withPhase_clk (s : State) (p : Phase) : (s.withPhase p).clk = s.clk := rfl
@[simp] theorem State.withPhase_leaveWin (s : State) (p : Phase) : (s.withPhase p).leaveWin = s.leaveWin := rfl
@[simp] theorem State.withPhase_nextId (s : State) (p : Phase) : (s.withPhase p).nextId = s.nextId := rfl
@[simp] theorem State.withPhase_issued (s : State) (p : Phase) : (s.withPhase p).issued = s.issued := rfl
@[simp] theorem State.withPhase_free (s : State) (p : Phase) : (s.withPhase p).free = s.free := rfl
@[simp] theorem State.withPhase_lastOfClk (s : State) (p : Phase) : (s.withPhase p).lastOfClk = s.lastOfClk := rfl
@[simp] theorem State.withPhase_iss (s : State) (p : Phase) : (s.withPhase p).iss = s.iss := rfl
@[simp] theorem State.withPhase_arg (s : State) (p : Phase) : (s.withPhase p).arg = s.arg := rfl
@[simp] theorem State.withPhase_agenda (s : State) (p : Phase) : (s.withPhase p).agenda = s.agenda := rfl
@[simp] theorem State.withPhase_team_uid (s : State) (p : Phase) : (s.withPhase p).team.uid = s.team.uid := rfl
@[simp] theorem State.withPhase_team_bid (s : State) (p : Phase) : (s.withPhase p).team.bid = s.team.bid := rfl
@[simp] theorem State.withPhase_team_lid (s : State) (p : Phase) : (s.withPhase p).team.lid = s.team.lid := rfl
@[simp] theorem State.withPhase_team_teamId (s : State) (p : Phase) : (s.withPhase p).team.teamId = s.team.teamId := rfl
@[simp] theorem State.withPhase_team_tib (s : State) (p : Phase) : (s.withPhase p).team.tib = s.team.tib := rfl
@[simp] theorem State.withPhase_team_size (s : State) (p : Phase) : (s.withPhase p).team.size = s.team.size := rfl
@[simp] theorem State.withPhase_team_core (s : State) (p : Phase) : (s.withPhase p).team.core = s.team.core := rfl
@[simp] theorem State.withPhase_team_section_ (s : State) (p : Phase) : (s.withPhase p).team.section_ = s.team.section_ := rfl
@[simp] theorem State.withPhase_team_system (s : State) (p : Phase) : (s.withPhase p).team.system = s.team.system := rfl
@[simp] theorem State.withPhase_team_rcb (s : State) (p : Phase) : (s.withPhase p).team.rcb = s.team.rcb := rfl
@[simp] theorem State.withPhase_team_pc (s : State) (p : Phase) : (s.withPhase p).team.pc = s.team.pc := rfl
@[simp] theorem State.withPhase_team_nextPlane (s : State) (p : Phase) : (s.withPhase p).team.nextPlane = s.team.nextPlane := rfl
@[simp] theorem State.withPhase_team_lanes (s : State) (p : Phase) : (s.withPhase p).team.lanes = s.team.lanes := rfl
@[simp] theorem State.withPhase_team_win (s : State) (p : Phase) : (s.withPhase p).team.win = s.team.win := rfl
@[simp] theorem State.withPhase_team_regs (s : State) (p : Phase) : (s.withPhase p).team.regs = s.team.regs := rfl
@[simp] theorem State.withPhase_team_sp (s : State) (p : Phase) : (s.withPhase p).team.sp = s.team.sp := rfl
@[simp] theorem State.withPhase_team_trap (s : State) (p : Phase) : (s.withPhase p).team.trap = s.team.trap := rfl
@[simp] theorem State.withPhase_team_looks (s : State) (p : Phase) : (s.withPhase p).team.looks = s.team.looks := rfl
@[simp] theorem State.withPhase_team_loads (s : State) (p : Phase) : (s.withPhase p).team.loads = s.team.loads := rfl
@[simp] theorem State.withPhase_team_nextLoad (s : State) (p : Phase) : (s.withPhase p).team.nextLoad = s.team.nextLoad := rfl
@[simp] theorem State.withPhase_team_deadline (s : State) (p : Phase) : (s.withPhase p).team.deadline = s.team.deadline := rfl
@[simp] theorem State.withPhase_team_barA (s : State) (p : Phase) : (s.withPhase p).team.barA = s.team.barA := rfl
@[simp] theorem State.withPhase_team_cbarA (s : State) (p : Phase) : (s.withPhase p).team.cbarA = s.team.cbarA := rfl
@[simp] theorem State.withPhase_team_timeout (s : State) (p : Phase) : (s.withPhase p).team.timeout = s.team.timeout := rfl
@[simp] theorem State.withPhase_team_mat (s : State) (p : Phase) : (s.withPhase p).team.mat = s.team.mat := rfl
@[simp] theorem State.withPhase_team_pre (s : State) (p : Phase) : (s.withPhase p).team.pre = s.team.pre := rfl
@[simp] theorem State.withPhase_team_fault (s : State) (p : Phase) : (s.withPhase p).team.fault = s.team.fault := rfl
@[simp] theorem State.withPhase_team_fdStat (s : State) (p : Phase) : (s.withPhase p).team.fdStat = s.team.fdStat := rfl
@[simp] theorem State.withPhase_team_fdArg (s : State) (p : Phase) : (s.withPhase p).team.fdArg = s.team.fdArg := rfl
@[simp] theorem State.withPhase_team_reqSteps (s : State) (p : Phase) : (s.withPhase p).team.reqSteps = s.team.reqSteps := rfl
@[simp] theorem State.withPhase_team_reqCopy (s : State) (p : Phase) : (s.withPhase p).team.reqCopy = s.team.reqCopy := rfl
@[simp] theorem State.withPhase_team_tokSteps (s : State) (p : Phase) : (s.withPhase p).team.tokSteps = s.team.tokSteps := rfl
@[simp] theorem State.withPhase_team_tokCopy (s : State) (p : Phase) : (s.withPhase p).team.tokCopy = s.team.tokCopy := rfl
@[simp] theorem State.withPhase_team_granted (s : State) (p : Phase) : (s.withPhase p).team.granted = s.team.granted := rfl
@[simp] theorem State.withPhase_team_spillSz (s : State) (p : Phase) : (s.withPhase p).team.spillSz = s.team.spillSz := rfl
@[simp] theorem State.withPhase_team_spillBase (s : State) (p : Phase) : (s.withPhase p).team.spillBase = s.team.spillBase := rfl
@[simp] theorem State.withPhase_team_spillExt (s : State) (p : Phase) : (s.withPhase p).team.spillExt = s.team.spillExt := rfl
@[simp] theorem State.withPhase_team_sstack (s : State) (p : Phase) : (s.withPhase p).team.sstack = s.team.sstack := rfl
@[simp] theorem State.withPhase_team_badBuffers (s : State) (p : Phase) : (s.withPhase p).team.badBuffers = s.team.badBuffers := rfl
@[simp] theorem State.withPhase_team_lastIssue (s : State) (p : Phase) : (s.withPhase p).team.lastIssue = s.team.lastIssue := rfl
@[simp] theorem State.withPhase_team_lastSlotA (s : State) (p : Phase) : (s.withPhase p).team.lastSlotA = s.team.lastSlotA := rfl
@[simp] theorem State.withPhase_team_placed (s : State) (p : Phase) : (s.withPhase p).team.placed = s.team.placed := rfl
@[simp] theorem State.withPhase_team_srDue (s : State) (p : Phase) : (s.withPhase p).team.srDue = s.team.srDue := rfl
@[simp] theorem State.withPhase_team_engSeq (s : State) (p : Phase) : (s.withPhase p).team.engSeq = s.team.engSeq := rfl
@[simp] theorem State.withPhase_team_fenced (s : State) (p : Phase) : (s.withPhase p).team.fenced = s.team.fenced := rfl
@[simp] theorem State.withPhase_team_check (s : State) (p : Phase) : (s.withPhase p).team.check = s.team.check := rfl

/-! ### `setV` -/

@[simp] theorem State.setV_blk (s : State) (n : Nat) (xs : List (Nat × Word32)) : (s.setV n xs).blk = s.blk := rfl
@[simp] theorem State.setV_others (s : State) (n : Nat) (xs : List (Nat × Word32)) : (s.setV n xs).others = s.others := rfl
@[simp] theorem State.setV_blocks (s : State) (n : Nat) (xs : List (Nat × Word32)) : (s.setV n xs).blocks = s.blocks := rfl
@[simp] theorem State.setV_clusters (s : State) (n : Nat) (xs : List (Nat × Word32)) : (s.setV n xs).clusters = s.clusters := rfl
@[simp] theorem State.setV_launches (s : State) (n : Nat) (xs : List (Nat × Word32)) : (s.setV n xs).launches = s.launches := rfl
@[simp] theorem State.setV_cmds (s : State) (n : Nat) (xs : List (Nat × Word32)) : (s.setV n xs).cmds = s.cmds := rfl
@[simp] theorem State.setV_regions (s : State) (n : Nat) (xs : List (Nat × Word32)) : (s.setV n xs).regions = s.regions := rfl
@[simp] theorem State.setV_domains (s : State) (n : Nat) (xs : List (Nat × Word32)) : (s.setV n xs).domains = s.domains := rfl
@[simp] theorem State.setV_queues (s : State) (n : Nat) (xs : List (Nat × Word32)) : (s.setV n xs).queues = s.queues := rfl
@[simp] theorem State.setV_tapes (s : State) (n : Nat) (xs : List (Nat × Word32)) : (s.setV n xs).tapes = s.tapes := rfl
@[simp] theorem State.setV_slots (s : State) (n : Nat) (xs : List (Nat × Word32)) : (s.setV n xs).slots = s.slots := rfl
@[simp] theorem State.setV_hearths (s : State) (n : Nat) (xs : List (Nat × Word32)) : (s.setV n xs).hearths = s.hearths := rfl
@[simp] theorem State.setV_halted (s : State) (n : Nat) (xs : List (Nat × Word32)) : (s.setV n xs).halted = s.halted := rfl
@[simp] theorem State.setV_swapping (s : State) (n : Nat) (xs : List (Nat × Word32)) : (s.setV n xs).swapping = s.swapping := rfl
@[simp] theorem State.setV_cursor (s : State) (n : Nat) (xs : List (Nat × Word32)) : (s.setV n xs).cursor = s.cursor := rfl
@[simp] theorem State.setV_rrRegion (s : State) (n : Nat) (xs : List (Nat × Word32)) : (s.setV n xs).rrRegion = s.rrRegion := rfl
@[simp] theorem State.setV_records (s : State) (n : Nat) (xs : List (Nat × Word32)) : (s.setV n xs).records = s.records := rfl
@[simp] theorem State.setV_freeSteps (s : State) (n : Nat) (xs : List (Nat × Word32)) : (s.setV n xs).freeSteps = s.freeSteps := rfl
@[simp] theorem State.setV_leaveDebt (s : State) (n : Nat) (xs : List (Nat × Word32)) : (s.setV n xs).leaveDebt = s.leaveDebt := rfl
@[simp] theorem State.setV_hub (s : State) (n : Nat) (xs : List (Nat × Word32)) : (s.setV n xs).hub = s.hub := rfl
@[simp] theorem State.setV_amc (s : State) (n : Nat) (xs : List (Nat × Word32)) : (s.setV n xs).amc = s.amc := rfl
@[simp] theorem State.setV_caches (s : State) (n : Nat) (xs : List (Nat × Word32)) : (s.setV n xs).caches = s.caches := rfl
@[simp] theorem State.setV_mem (s : State) (n : Nat) (xs : List (Nat × Word32)) : (s.setV n xs).mem = s.mem := rfl
@[simp] theorem State.setV_memSide (s : State) (n : Nat) (xs : List (Nat × Word32)) : (s.setV n xs).memSide = s.memSide := rfl
@[simp] theorem State.setV_poison (s : State) (n : Nat) (xs : List (Nat × Word32)) : (s.setV n xs).poison = s.poison := rfl
@[simp] theorem State.setV_clk (s : State) (n : Nat) (xs : List (Nat × Word32)) : (s.setV n xs).clk = s.clk := rfl
@[simp] theorem State.setV_leaveWin (s : State) (n : Nat) (xs : List (Nat × Word32)) : (s.setV n xs).leaveWin = s.leaveWin := rfl
@[simp] theorem State.setV_nextId (s : State) (n : Nat) (xs : List (Nat × Word32)) : (s.setV n xs).nextId = s.nextId := rfl
@[simp] theorem State.setV_issued (s : State) (n : Nat) (xs : List (Nat × Word32)) : (s.setV n xs).issued = s.issued := rfl
@[simp] theorem State.setV_free (s : State) (n : Nat) (xs : List (Nat × Word32)) : (s.setV n xs).free = s.free := rfl
@[simp] theorem State.setV_lastOfClk (s : State) (n : Nat) (xs : List (Nat × Word32)) : (s.setV n xs).lastOfClk = s.lastOfClk := rfl
@[simp] theorem State.setV_iss (s : State) (n : Nat) (xs : List (Nat × Word32)) : (s.setV n xs).iss = s.iss := rfl
@[simp] theorem State.setV_arg (s : State) (n : Nat) (xs : List (Nat × Word32)) : (s.setV n xs).arg = s.arg := rfl
@[simp] theorem State.setV_agenda (s : State) (n : Nat) (xs : List (Nat × Word32)) : (s.setV n xs).agenda = s.agenda := rfl
@[simp] theorem State.setV_team_uid (s : State) (n : Nat) (xs : List (Nat × Word32)) : (s.setV n xs).team.uid = s.team.uid := rfl
@[simp] theorem State.setV_team_bid (s : State) (n : Nat) (xs : List (Nat × Word32)) : (s.setV n xs).team.bid = s.team.bid := rfl
@[simp] theorem State.setV_team_lid (s : State) (n : Nat) (xs : List (Nat × Word32)) : (s.setV n xs).team.lid = s.team.lid := rfl
@[simp] theorem State.setV_team_teamId (s : State) (n : Nat) (xs : List (Nat × Word32)) : (s.setV n xs).team.teamId = s.team.teamId := rfl
@[simp] theorem State.setV_team_tib (s : State) (n : Nat) (xs : List (Nat × Word32)) : (s.setV n xs).team.tib = s.team.tib := rfl
@[simp] theorem State.setV_team_size (s : State) (n : Nat) (xs : List (Nat × Word32)) : (s.setV n xs).team.size = s.team.size := rfl
@[simp] theorem State.setV_team_core (s : State) (n : Nat) (xs : List (Nat × Word32)) : (s.setV n xs).team.core = s.team.core := rfl
@[simp] theorem State.setV_team_section_ (s : State) (n : Nat) (xs : List (Nat × Word32)) : (s.setV n xs).team.section_ = s.team.section_ := rfl
@[simp] theorem State.setV_team_system (s : State) (n : Nat) (xs : List (Nat × Word32)) : (s.setV n xs).team.system = s.team.system := rfl
@[simp] theorem State.setV_team_rcb (s : State) (n : Nat) (xs : List (Nat × Word32)) : (s.setV n xs).team.rcb = s.team.rcb := rfl
@[simp] theorem State.setV_team_phase (s : State) (n : Nat) (xs : List (Nat × Word32)) : (s.setV n xs).team.phase = s.team.phase := rfl
@[simp] theorem State.setV_team_pc (s : State) (n : Nat) (xs : List (Nat × Word32)) : (s.setV n xs).team.pc = s.team.pc := rfl
@[simp] theorem State.setV_team_nextPlane (s : State) (n : Nat) (xs : List (Nat × Word32)) : (s.setV n xs).team.nextPlane = s.team.nextPlane := rfl
@[simp] theorem State.setV_team_lanes (s : State) (n : Nat) (xs : List (Nat × Word32)) : (s.setV n xs).team.lanes = s.team.lanes := rfl
@[simp] theorem State.setV_team_win (s : State) (n : Nat) (xs : List (Nat × Word32)) : (s.setV n xs).team.win = s.team.win := rfl
@[simp] theorem State.setV_team_sp (s : State) (n : Nat) (xs : List (Nat × Word32)) : (s.setV n xs).team.sp = s.team.sp := rfl
@[simp] theorem State.setV_team_trap (s : State) (n : Nat) (xs : List (Nat × Word32)) : (s.setV n xs).team.trap = s.team.trap := rfl
@[simp] theorem State.setV_team_looks (s : State) (n : Nat) (xs : List (Nat × Word32)) : (s.setV n xs).team.looks = s.team.looks := rfl
@[simp] theorem State.setV_team_loads (s : State) (n : Nat) (xs : List (Nat × Word32)) : (s.setV n xs).team.loads = s.team.loads := rfl
@[simp] theorem State.setV_team_nextLoad (s : State) (n : Nat) (xs : List (Nat × Word32)) : (s.setV n xs).team.nextLoad = s.team.nextLoad := rfl
@[simp] theorem State.setV_team_deadline (s : State) (n : Nat) (xs : List (Nat × Word32)) : (s.setV n xs).team.deadline = s.team.deadline := rfl
@[simp] theorem State.setV_team_barA (s : State) (n : Nat) (xs : List (Nat × Word32)) : (s.setV n xs).team.barA = s.team.barA := rfl
@[simp] theorem State.setV_team_cbarA (s : State) (n : Nat) (xs : List (Nat × Word32)) : (s.setV n xs).team.cbarA = s.team.cbarA := rfl
@[simp] theorem State.setV_team_timeout (s : State) (n : Nat) (xs : List (Nat × Word32)) : (s.setV n xs).team.timeout = s.team.timeout := rfl
@[simp] theorem State.setV_team_mat (s : State) (n : Nat) (xs : List (Nat × Word32)) : (s.setV n xs).team.mat = s.team.mat := rfl
@[simp] theorem State.setV_team_pre (s : State) (n : Nat) (xs : List (Nat × Word32)) : (s.setV n xs).team.pre = s.team.pre := rfl
@[simp] theorem State.setV_team_fault (s : State) (n : Nat) (xs : List (Nat × Word32)) : (s.setV n xs).team.fault = s.team.fault := rfl
@[simp] theorem State.setV_team_fdStat (s : State) (n : Nat) (xs : List (Nat × Word32)) : (s.setV n xs).team.fdStat = s.team.fdStat := rfl
@[simp] theorem State.setV_team_fdArg (s : State) (n : Nat) (xs : List (Nat × Word32)) : (s.setV n xs).team.fdArg = s.team.fdArg := rfl
@[simp] theorem State.setV_team_reqSteps (s : State) (n : Nat) (xs : List (Nat × Word32)) : (s.setV n xs).team.reqSteps = s.team.reqSteps := rfl
@[simp] theorem State.setV_team_reqCopy (s : State) (n : Nat) (xs : List (Nat × Word32)) : (s.setV n xs).team.reqCopy = s.team.reqCopy := rfl
@[simp] theorem State.setV_team_tokSteps (s : State) (n : Nat) (xs : List (Nat × Word32)) : (s.setV n xs).team.tokSteps = s.team.tokSteps := rfl
@[simp] theorem State.setV_team_tokCopy (s : State) (n : Nat) (xs : List (Nat × Word32)) : (s.setV n xs).team.tokCopy = s.team.tokCopy := rfl
@[simp] theorem State.setV_team_granted (s : State) (n : Nat) (xs : List (Nat × Word32)) : (s.setV n xs).team.granted = s.team.granted := rfl
@[simp] theorem State.setV_team_spillSz (s : State) (n : Nat) (xs : List (Nat × Word32)) : (s.setV n xs).team.spillSz = s.team.spillSz := rfl
@[simp] theorem State.setV_team_spillBase (s : State) (n : Nat) (xs : List (Nat × Word32)) : (s.setV n xs).team.spillBase = s.team.spillBase := rfl
@[simp] theorem State.setV_team_spillExt (s : State) (n : Nat) (xs : List (Nat × Word32)) : (s.setV n xs).team.spillExt = s.team.spillExt := rfl
@[simp] theorem State.setV_team_sstack (s : State) (n : Nat) (xs : List (Nat × Word32)) : (s.setV n xs).team.sstack = s.team.sstack := rfl
@[simp] theorem State.setV_team_badBuffers (s : State) (n : Nat) (xs : List (Nat × Word32)) : (s.setV n xs).team.badBuffers = s.team.badBuffers := rfl
@[simp] theorem State.setV_team_lastIssue (s : State) (n : Nat) (xs : List (Nat × Word32)) : (s.setV n xs).team.lastIssue = s.team.lastIssue := rfl
@[simp] theorem State.setV_team_lastSlotA (s : State) (n : Nat) (xs : List (Nat × Word32)) : (s.setV n xs).team.lastSlotA = s.team.lastSlotA := rfl
@[simp] theorem State.setV_team_placed (s : State) (n : Nat) (xs : List (Nat × Word32)) : (s.setV n xs).team.placed = s.team.placed := rfl
@[simp] theorem State.setV_team_srDue (s : State) (n : Nat) (xs : List (Nat × Word32)) : (s.setV n xs).team.srDue = s.team.srDue := rfl
@[simp] theorem State.setV_team_engSeq (s : State) (n : Nat) (xs : List (Nat × Word32)) : (s.setV n xs).team.engSeq = s.team.engSeq := rfl
@[simp] theorem State.setV_team_fenced (s : State) (n : Nat) (xs : List (Nat × Word32)) : (s.setV n xs).team.fenced = s.team.fenced := rfl
@[simp] theorem State.setV_team_check (s : State) (n : Nat) (xs : List (Nat × Word32)) : (s.setV n xs).team.check = s.team.check := rfl

/-! ### `setSide` -/

@[simp] theorem State.setSide_blk (s : State) (n : Nat) (xs : List (Nat × SideBand)) : (s.setSide n xs).blk = s.blk := rfl
@[simp] theorem State.setSide_others (s : State) (n : Nat) (xs : List (Nat × SideBand)) : (s.setSide n xs).others = s.others := rfl
@[simp] theorem State.setSide_blocks (s : State) (n : Nat) (xs : List (Nat × SideBand)) : (s.setSide n xs).blocks = s.blocks := rfl
@[simp] theorem State.setSide_clusters (s : State) (n : Nat) (xs : List (Nat × SideBand)) : (s.setSide n xs).clusters = s.clusters := rfl
@[simp] theorem State.setSide_launches (s : State) (n : Nat) (xs : List (Nat × SideBand)) : (s.setSide n xs).launches = s.launches := rfl
@[simp] theorem State.setSide_cmds (s : State) (n : Nat) (xs : List (Nat × SideBand)) : (s.setSide n xs).cmds = s.cmds := rfl
@[simp] theorem State.setSide_regions (s : State) (n : Nat) (xs : List (Nat × SideBand)) : (s.setSide n xs).regions = s.regions := rfl
@[simp] theorem State.setSide_domains (s : State) (n : Nat) (xs : List (Nat × SideBand)) : (s.setSide n xs).domains = s.domains := rfl
@[simp] theorem State.setSide_queues (s : State) (n : Nat) (xs : List (Nat × SideBand)) : (s.setSide n xs).queues = s.queues := rfl
@[simp] theorem State.setSide_tapes (s : State) (n : Nat) (xs : List (Nat × SideBand)) : (s.setSide n xs).tapes = s.tapes := rfl
@[simp] theorem State.setSide_slots (s : State) (n : Nat) (xs : List (Nat × SideBand)) : (s.setSide n xs).slots = s.slots := rfl
@[simp] theorem State.setSide_hearths (s : State) (n : Nat) (xs : List (Nat × SideBand)) : (s.setSide n xs).hearths = s.hearths := rfl
@[simp] theorem State.setSide_halted (s : State) (n : Nat) (xs : List (Nat × SideBand)) : (s.setSide n xs).halted = s.halted := rfl
@[simp] theorem State.setSide_swapping (s : State) (n : Nat) (xs : List (Nat × SideBand)) : (s.setSide n xs).swapping = s.swapping := rfl
@[simp] theorem State.setSide_cursor (s : State) (n : Nat) (xs : List (Nat × SideBand)) : (s.setSide n xs).cursor = s.cursor := rfl
@[simp] theorem State.setSide_rrRegion (s : State) (n : Nat) (xs : List (Nat × SideBand)) : (s.setSide n xs).rrRegion = s.rrRegion := rfl
@[simp] theorem State.setSide_records (s : State) (n : Nat) (xs : List (Nat × SideBand)) : (s.setSide n xs).records = s.records := rfl
@[simp] theorem State.setSide_freeSteps (s : State) (n : Nat) (xs : List (Nat × SideBand)) : (s.setSide n xs).freeSteps = s.freeSteps := rfl
@[simp] theorem State.setSide_leaveDebt (s : State) (n : Nat) (xs : List (Nat × SideBand)) : (s.setSide n xs).leaveDebt = s.leaveDebt := rfl
@[simp] theorem State.setSide_hub (s : State) (n : Nat) (xs : List (Nat × SideBand)) : (s.setSide n xs).hub = s.hub := rfl
@[simp] theorem State.setSide_amc (s : State) (n : Nat) (xs : List (Nat × SideBand)) : (s.setSide n xs).amc = s.amc := rfl
@[simp] theorem State.setSide_caches (s : State) (n : Nat) (xs : List (Nat × SideBand)) : (s.setSide n xs).caches = s.caches := rfl
@[simp] theorem State.setSide_mem (s : State) (n : Nat) (xs : List (Nat × SideBand)) : (s.setSide n xs).mem = s.mem := rfl
@[simp] theorem State.setSide_memSide (s : State) (n : Nat) (xs : List (Nat × SideBand)) : (s.setSide n xs).memSide = s.memSide := rfl
@[simp] theorem State.setSide_poison (s : State) (n : Nat) (xs : List (Nat × SideBand)) : (s.setSide n xs).poison = s.poison := rfl
@[simp] theorem State.setSide_clk (s : State) (n : Nat) (xs : List (Nat × SideBand)) : (s.setSide n xs).clk = s.clk := rfl
@[simp] theorem State.setSide_leaveWin (s : State) (n : Nat) (xs : List (Nat × SideBand)) : (s.setSide n xs).leaveWin = s.leaveWin := rfl
@[simp] theorem State.setSide_nextId (s : State) (n : Nat) (xs : List (Nat × SideBand)) : (s.setSide n xs).nextId = s.nextId := rfl
@[simp] theorem State.setSide_issued (s : State) (n : Nat) (xs : List (Nat × SideBand)) : (s.setSide n xs).issued = s.issued := rfl
@[simp] theorem State.setSide_free (s : State) (n : Nat) (xs : List (Nat × SideBand)) : (s.setSide n xs).free = s.free := rfl
@[simp] theorem State.setSide_lastOfClk (s : State) (n : Nat) (xs : List (Nat × SideBand)) : (s.setSide n xs).lastOfClk = s.lastOfClk := rfl
@[simp] theorem State.setSide_iss (s : State) (n : Nat) (xs : List (Nat × SideBand)) : (s.setSide n xs).iss = s.iss := rfl
@[simp] theorem State.setSide_arg (s : State) (n : Nat) (xs : List (Nat × SideBand)) : (s.setSide n xs).arg = s.arg := rfl
@[simp] theorem State.setSide_agenda (s : State) (n : Nat) (xs : List (Nat × SideBand)) : (s.setSide n xs).agenda = s.agenda := rfl
@[simp] theorem State.setSide_team_uid (s : State) (n : Nat) (xs : List (Nat × SideBand)) : (s.setSide n xs).team.uid = s.team.uid := rfl
@[simp] theorem State.setSide_team_bid (s : State) (n : Nat) (xs : List (Nat × SideBand)) : (s.setSide n xs).team.bid = s.team.bid := rfl
@[simp] theorem State.setSide_team_lid (s : State) (n : Nat) (xs : List (Nat × SideBand)) : (s.setSide n xs).team.lid = s.team.lid := rfl
@[simp] theorem State.setSide_team_teamId (s : State) (n : Nat) (xs : List (Nat × SideBand)) : (s.setSide n xs).team.teamId = s.team.teamId := rfl
@[simp] theorem State.setSide_team_tib (s : State) (n : Nat) (xs : List (Nat × SideBand)) : (s.setSide n xs).team.tib = s.team.tib := rfl
@[simp] theorem State.setSide_team_size (s : State) (n : Nat) (xs : List (Nat × SideBand)) : (s.setSide n xs).team.size = s.team.size := rfl
@[simp] theorem State.setSide_team_core (s : State) (n : Nat) (xs : List (Nat × SideBand)) : (s.setSide n xs).team.core = s.team.core := rfl
@[simp] theorem State.setSide_team_section_ (s : State) (n : Nat) (xs : List (Nat × SideBand)) : (s.setSide n xs).team.section_ = s.team.section_ := rfl
@[simp] theorem State.setSide_team_system (s : State) (n : Nat) (xs : List (Nat × SideBand)) : (s.setSide n xs).team.system = s.team.system := rfl
@[simp] theorem State.setSide_team_rcb (s : State) (n : Nat) (xs : List (Nat × SideBand)) : (s.setSide n xs).team.rcb = s.team.rcb := rfl
@[simp] theorem State.setSide_team_phase (s : State) (n : Nat) (xs : List (Nat × SideBand)) : (s.setSide n xs).team.phase = s.team.phase := rfl
@[simp] theorem State.setSide_team_pc (s : State) (n : Nat) (xs : List (Nat × SideBand)) : (s.setSide n xs).team.pc = s.team.pc := rfl
@[simp] theorem State.setSide_team_nextPlane (s : State) (n : Nat) (xs : List (Nat × SideBand)) : (s.setSide n xs).team.nextPlane = s.team.nextPlane := rfl
@[simp] theorem State.setSide_team_lanes (s : State) (n : Nat) (xs : List (Nat × SideBand)) : (s.setSide n xs).team.lanes = s.team.lanes := rfl
@[simp] theorem State.setSide_team_win (s : State) (n : Nat) (xs : List (Nat × SideBand)) : (s.setSide n xs).team.win = s.team.win := rfl
@[simp] theorem State.setSide_team_sp (s : State) (n : Nat) (xs : List (Nat × SideBand)) : (s.setSide n xs).team.sp = s.team.sp := rfl
@[simp] theorem State.setSide_team_trap (s : State) (n : Nat) (xs : List (Nat × SideBand)) : (s.setSide n xs).team.trap = s.team.trap := rfl
@[simp] theorem State.setSide_team_looks (s : State) (n : Nat) (xs : List (Nat × SideBand)) : (s.setSide n xs).team.looks = s.team.looks := rfl
@[simp] theorem State.setSide_team_loads (s : State) (n : Nat) (xs : List (Nat × SideBand)) : (s.setSide n xs).team.loads = s.team.loads := rfl
@[simp] theorem State.setSide_team_nextLoad (s : State) (n : Nat) (xs : List (Nat × SideBand)) : (s.setSide n xs).team.nextLoad = s.team.nextLoad := rfl
@[simp] theorem State.setSide_team_deadline (s : State) (n : Nat) (xs : List (Nat × SideBand)) : (s.setSide n xs).team.deadline = s.team.deadline := rfl
@[simp] theorem State.setSide_team_barA (s : State) (n : Nat) (xs : List (Nat × SideBand)) : (s.setSide n xs).team.barA = s.team.barA := rfl
@[simp] theorem State.setSide_team_cbarA (s : State) (n : Nat) (xs : List (Nat × SideBand)) : (s.setSide n xs).team.cbarA = s.team.cbarA := rfl
@[simp] theorem State.setSide_team_timeout (s : State) (n : Nat) (xs : List (Nat × SideBand)) : (s.setSide n xs).team.timeout = s.team.timeout := rfl
@[simp] theorem State.setSide_team_mat (s : State) (n : Nat) (xs : List (Nat × SideBand)) : (s.setSide n xs).team.mat = s.team.mat := rfl
@[simp] theorem State.setSide_team_pre (s : State) (n : Nat) (xs : List (Nat × SideBand)) : (s.setSide n xs).team.pre = s.team.pre := rfl
@[simp] theorem State.setSide_team_fault (s : State) (n : Nat) (xs : List (Nat × SideBand)) : (s.setSide n xs).team.fault = s.team.fault := rfl
@[simp] theorem State.setSide_team_fdStat (s : State) (n : Nat) (xs : List (Nat × SideBand)) : (s.setSide n xs).team.fdStat = s.team.fdStat := rfl
@[simp] theorem State.setSide_team_fdArg (s : State) (n : Nat) (xs : List (Nat × SideBand)) : (s.setSide n xs).team.fdArg = s.team.fdArg := rfl
@[simp] theorem State.setSide_team_reqSteps (s : State) (n : Nat) (xs : List (Nat × SideBand)) : (s.setSide n xs).team.reqSteps = s.team.reqSteps := rfl
@[simp] theorem State.setSide_team_reqCopy (s : State) (n : Nat) (xs : List (Nat × SideBand)) : (s.setSide n xs).team.reqCopy = s.team.reqCopy := rfl
@[simp] theorem State.setSide_team_tokSteps (s : State) (n : Nat) (xs : List (Nat × SideBand)) : (s.setSide n xs).team.tokSteps = s.team.tokSteps := rfl
@[simp] theorem State.setSide_team_tokCopy (s : State) (n : Nat) (xs : List (Nat × SideBand)) : (s.setSide n xs).team.tokCopy = s.team.tokCopy := rfl
@[simp] theorem State.setSide_team_granted (s : State) (n : Nat) (xs : List (Nat × SideBand)) : (s.setSide n xs).team.granted = s.team.granted := rfl
@[simp] theorem State.setSide_team_spillSz (s : State) (n : Nat) (xs : List (Nat × SideBand)) : (s.setSide n xs).team.spillSz = s.team.spillSz := rfl
@[simp] theorem State.setSide_team_spillBase (s : State) (n : Nat) (xs : List (Nat × SideBand)) : (s.setSide n xs).team.spillBase = s.team.spillBase := rfl
@[simp] theorem State.setSide_team_spillExt (s : State) (n : Nat) (xs : List (Nat × SideBand)) : (s.setSide n xs).team.spillExt = s.team.spillExt := rfl
@[simp] theorem State.setSide_team_sstack (s : State) (n : Nat) (xs : List (Nat × SideBand)) : (s.setSide n xs).team.sstack = s.team.sstack := rfl
@[simp] theorem State.setSide_team_badBuffers (s : State) (n : Nat) (xs : List (Nat × SideBand)) : (s.setSide n xs).team.badBuffers = s.team.badBuffers := rfl
@[simp] theorem State.setSide_team_lastIssue (s : State) (n : Nat) (xs : List (Nat × SideBand)) : (s.setSide n xs).team.lastIssue = s.team.lastIssue := rfl
@[simp] theorem State.setSide_team_lastSlotA (s : State) (n : Nat) (xs : List (Nat × SideBand)) : (s.setSide n xs).team.lastSlotA = s.team.lastSlotA := rfl
@[simp] theorem State.setSide_team_placed (s : State) (n : Nat) (xs : List (Nat × SideBand)) : (s.setSide n xs).team.placed = s.team.placed := rfl
@[simp] theorem State.setSide_team_srDue (s : State) (n : Nat) (xs : List (Nat × SideBand)) : (s.setSide n xs).team.srDue = s.team.srDue := rfl
@[simp] theorem State.setSide_team_engSeq (s : State) (n : Nat) (xs : List (Nat × SideBand)) : (s.setSide n xs).team.engSeq = s.team.engSeq := rfl
@[simp] theorem State.setSide_team_fenced (s : State) (n : Nat) (xs : List (Nat × SideBand)) : (s.setSide n xs).team.fenced = s.team.fenced := rfl
@[simp] theorem State.setSide_team_check (s : State) (n : Nat) (xs : List (Nat × SideBand)) : (s.setSide n xs).team.check = s.team.check := rfl

/-! ### `putV` -/

@[simp] theorem State.putV_blk (s : State) (n : Nat) (xs : List (Nat × Word32)) : (s.putV n xs).blk = s.blk := rfl
@[simp] theorem State.putV_others (s : State) (n : Nat) (xs : List (Nat × Word32)) : (s.putV n xs).others = s.others := rfl
@[simp] theorem State.putV_blocks (s : State) (n : Nat) (xs : List (Nat × Word32)) : (s.putV n xs).blocks = s.blocks := rfl
@[simp] theorem State.putV_clusters (s : State) (n : Nat) (xs : List (Nat × Word32)) : (s.putV n xs).clusters = s.clusters := rfl
@[simp] theorem State.putV_launches (s : State) (n : Nat) (xs : List (Nat × Word32)) : (s.putV n xs).launches = s.launches := rfl
@[simp] theorem State.putV_cmds (s : State) (n : Nat) (xs : List (Nat × Word32)) : (s.putV n xs).cmds = s.cmds := rfl
@[simp] theorem State.putV_regions (s : State) (n : Nat) (xs : List (Nat × Word32)) : (s.putV n xs).regions = s.regions := rfl
@[simp] theorem State.putV_domains (s : State) (n : Nat) (xs : List (Nat × Word32)) : (s.putV n xs).domains = s.domains := rfl
@[simp] theorem State.putV_queues (s : State) (n : Nat) (xs : List (Nat × Word32)) : (s.putV n xs).queues = s.queues := rfl
@[simp] theorem State.putV_tapes (s : State) (n : Nat) (xs : List (Nat × Word32)) : (s.putV n xs).tapes = s.tapes := rfl
@[simp] theorem State.putV_slots (s : State) (n : Nat) (xs : List (Nat × Word32)) : (s.putV n xs).slots = s.slots := rfl
@[simp] theorem State.putV_hearths (s : State) (n : Nat) (xs : List (Nat × Word32)) : (s.putV n xs).hearths = s.hearths := rfl
@[simp] theorem State.putV_halted (s : State) (n : Nat) (xs : List (Nat × Word32)) : (s.putV n xs).halted = s.halted := rfl
@[simp] theorem State.putV_swapping (s : State) (n : Nat) (xs : List (Nat × Word32)) : (s.putV n xs).swapping = s.swapping := rfl
@[simp] theorem State.putV_cursor (s : State) (n : Nat) (xs : List (Nat × Word32)) : (s.putV n xs).cursor = s.cursor := rfl
@[simp] theorem State.putV_rrRegion (s : State) (n : Nat) (xs : List (Nat × Word32)) : (s.putV n xs).rrRegion = s.rrRegion := rfl
@[simp] theorem State.putV_records (s : State) (n : Nat) (xs : List (Nat × Word32)) : (s.putV n xs).records = s.records := rfl
@[simp] theorem State.putV_freeSteps (s : State) (n : Nat) (xs : List (Nat × Word32)) : (s.putV n xs).freeSteps = s.freeSteps := rfl
@[simp] theorem State.putV_leaveDebt (s : State) (n : Nat) (xs : List (Nat × Word32)) : (s.putV n xs).leaveDebt = s.leaveDebt := rfl
@[simp] theorem State.putV_hub (s : State) (n : Nat) (xs : List (Nat × Word32)) : (s.putV n xs).hub = s.hub := rfl
@[simp] theorem State.putV_amc (s : State) (n : Nat) (xs : List (Nat × Word32)) : (s.putV n xs).amc = s.amc := rfl
@[simp] theorem State.putV_caches (s : State) (n : Nat) (xs : List (Nat × Word32)) : (s.putV n xs).caches = s.caches := rfl
@[simp] theorem State.putV_mem (s : State) (n : Nat) (xs : List (Nat × Word32)) : (s.putV n xs).mem = s.mem := rfl
@[simp] theorem State.putV_memSide (s : State) (n : Nat) (xs : List (Nat × Word32)) : (s.putV n xs).memSide = s.memSide := rfl
@[simp] theorem State.putV_poison (s : State) (n : Nat) (xs : List (Nat × Word32)) : (s.putV n xs).poison = s.poison := rfl
@[simp] theorem State.putV_clk (s : State) (n : Nat) (xs : List (Nat × Word32)) : (s.putV n xs).clk = s.clk := rfl
@[simp] theorem State.putV_leaveWin (s : State) (n : Nat) (xs : List (Nat × Word32)) : (s.putV n xs).leaveWin = s.leaveWin := rfl
@[simp] theorem State.putV_nextId (s : State) (n : Nat) (xs : List (Nat × Word32)) : (s.putV n xs).nextId = s.nextId := rfl
@[simp] theorem State.putV_issued (s : State) (n : Nat) (xs : List (Nat × Word32)) : (s.putV n xs).issued = s.issued := rfl
@[simp] theorem State.putV_free (s : State) (n : Nat) (xs : List (Nat × Word32)) : (s.putV n xs).free = s.free := rfl
@[simp] theorem State.putV_lastOfClk (s : State) (n : Nat) (xs : List (Nat × Word32)) : (s.putV n xs).lastOfClk = s.lastOfClk := rfl
@[simp] theorem State.putV_iss (s : State) (n : Nat) (xs : List (Nat × Word32)) : (s.putV n xs).iss = s.iss := rfl
@[simp] theorem State.putV_arg (s : State) (n : Nat) (xs : List (Nat × Word32)) : (s.putV n xs).arg = s.arg := rfl
@[simp] theorem State.putV_agenda (s : State) (n : Nat) (xs : List (Nat × Word32)) : (s.putV n xs).agenda = s.agenda := rfl
@[simp] theorem State.putV_team_uid (s : State) (n : Nat) (xs : List (Nat × Word32)) : (s.putV n xs).team.uid = s.team.uid := rfl
@[simp] theorem State.putV_team_bid (s : State) (n : Nat) (xs : List (Nat × Word32)) : (s.putV n xs).team.bid = s.team.bid := rfl
@[simp] theorem State.putV_team_lid (s : State) (n : Nat) (xs : List (Nat × Word32)) : (s.putV n xs).team.lid = s.team.lid := rfl
@[simp] theorem State.putV_team_teamId (s : State) (n : Nat) (xs : List (Nat × Word32)) : (s.putV n xs).team.teamId = s.team.teamId := rfl
@[simp] theorem State.putV_team_tib (s : State) (n : Nat) (xs : List (Nat × Word32)) : (s.putV n xs).team.tib = s.team.tib := rfl
@[simp] theorem State.putV_team_size (s : State) (n : Nat) (xs : List (Nat × Word32)) : (s.putV n xs).team.size = s.team.size := rfl
@[simp] theorem State.putV_team_core (s : State) (n : Nat) (xs : List (Nat × Word32)) : (s.putV n xs).team.core = s.team.core := rfl
@[simp] theorem State.putV_team_section_ (s : State) (n : Nat) (xs : List (Nat × Word32)) : (s.putV n xs).team.section_ = s.team.section_ := rfl
@[simp] theorem State.putV_team_system (s : State) (n : Nat) (xs : List (Nat × Word32)) : (s.putV n xs).team.system = s.team.system := rfl
@[simp] theorem State.putV_team_rcb (s : State) (n : Nat) (xs : List (Nat × Word32)) : (s.putV n xs).team.rcb = s.team.rcb := rfl
@[simp] theorem State.putV_team_phase (s : State) (n : Nat) (xs : List (Nat × Word32)) : (s.putV n xs).team.phase = s.team.phase := rfl
@[simp] theorem State.putV_team_pc (s : State) (n : Nat) (xs : List (Nat × Word32)) : (s.putV n xs).team.pc = s.team.pc := rfl
@[simp] theorem State.putV_team_nextPlane (s : State) (n : Nat) (xs : List (Nat × Word32)) : (s.putV n xs).team.nextPlane = s.team.nextPlane := rfl
@[simp] theorem State.putV_team_lanes (s : State) (n : Nat) (xs : List (Nat × Word32)) : (s.putV n xs).team.lanes = s.team.lanes := rfl
@[simp] theorem State.putV_team_win (s : State) (n : Nat) (xs : List (Nat × Word32)) : (s.putV n xs).team.win = s.team.win := rfl
@[simp] theorem State.putV_team_sp (s : State) (n : Nat) (xs : List (Nat × Word32)) : (s.putV n xs).team.sp = s.team.sp := rfl
@[simp] theorem State.putV_team_trap (s : State) (n : Nat) (xs : List (Nat × Word32)) : (s.putV n xs).team.trap = s.team.trap := rfl
@[simp] theorem State.putV_team_looks (s : State) (n : Nat) (xs : List (Nat × Word32)) : (s.putV n xs).team.looks = s.team.looks := rfl
@[simp] theorem State.putV_team_loads (s : State) (n : Nat) (xs : List (Nat × Word32)) : (s.putV n xs).team.loads = s.team.loads := rfl
@[simp] theorem State.putV_team_nextLoad (s : State) (n : Nat) (xs : List (Nat × Word32)) : (s.putV n xs).team.nextLoad = s.team.nextLoad := rfl
@[simp] theorem State.putV_team_deadline (s : State) (n : Nat) (xs : List (Nat × Word32)) : (s.putV n xs).team.deadline = s.team.deadline := rfl
@[simp] theorem State.putV_team_barA (s : State) (n : Nat) (xs : List (Nat × Word32)) : (s.putV n xs).team.barA = s.team.barA := rfl
@[simp] theorem State.putV_team_cbarA (s : State) (n : Nat) (xs : List (Nat × Word32)) : (s.putV n xs).team.cbarA = s.team.cbarA := rfl
@[simp] theorem State.putV_team_timeout (s : State) (n : Nat) (xs : List (Nat × Word32)) : (s.putV n xs).team.timeout = s.team.timeout := rfl
@[simp] theorem State.putV_team_mat (s : State) (n : Nat) (xs : List (Nat × Word32)) : (s.putV n xs).team.mat = s.team.mat := rfl
@[simp] theorem State.putV_team_pre (s : State) (n : Nat) (xs : List (Nat × Word32)) : (s.putV n xs).team.pre = s.team.pre := rfl
@[simp] theorem State.putV_team_fault (s : State) (n : Nat) (xs : List (Nat × Word32)) : (s.putV n xs).team.fault = s.team.fault := rfl
@[simp] theorem State.putV_team_fdStat (s : State) (n : Nat) (xs : List (Nat × Word32)) : (s.putV n xs).team.fdStat = s.team.fdStat := rfl
@[simp] theorem State.putV_team_fdArg (s : State) (n : Nat) (xs : List (Nat × Word32)) : (s.putV n xs).team.fdArg = s.team.fdArg := rfl
@[simp] theorem State.putV_team_reqSteps (s : State) (n : Nat) (xs : List (Nat × Word32)) : (s.putV n xs).team.reqSteps = s.team.reqSteps := rfl
@[simp] theorem State.putV_team_reqCopy (s : State) (n : Nat) (xs : List (Nat × Word32)) : (s.putV n xs).team.reqCopy = s.team.reqCopy := rfl
@[simp] theorem State.putV_team_tokSteps (s : State) (n : Nat) (xs : List (Nat × Word32)) : (s.putV n xs).team.tokSteps = s.team.tokSteps := rfl
@[simp] theorem State.putV_team_tokCopy (s : State) (n : Nat) (xs : List (Nat × Word32)) : (s.putV n xs).team.tokCopy = s.team.tokCopy := rfl
@[simp] theorem State.putV_team_granted (s : State) (n : Nat) (xs : List (Nat × Word32)) : (s.putV n xs).team.granted = s.team.granted := rfl
@[simp] theorem State.putV_team_spillSz (s : State) (n : Nat) (xs : List (Nat × Word32)) : (s.putV n xs).team.spillSz = s.team.spillSz := rfl
@[simp] theorem State.putV_team_spillBase (s : State) (n : Nat) (xs : List (Nat × Word32)) : (s.putV n xs).team.spillBase = s.team.spillBase := rfl
@[simp] theorem State.putV_team_spillExt (s : State) (n : Nat) (xs : List (Nat × Word32)) : (s.putV n xs).team.spillExt = s.team.spillExt := rfl
@[simp] theorem State.putV_team_sstack (s : State) (n : Nat) (xs : List (Nat × Word32)) : (s.putV n xs).team.sstack = s.team.sstack := rfl
@[simp] theorem State.putV_team_badBuffers (s : State) (n : Nat) (xs : List (Nat × Word32)) : (s.putV n xs).team.badBuffers = s.team.badBuffers := rfl
@[simp] theorem State.putV_team_lastIssue (s : State) (n : Nat) (xs : List (Nat × Word32)) : (s.putV n xs).team.lastIssue = s.team.lastIssue := rfl
@[simp] theorem State.putV_team_lastSlotA (s : State) (n : Nat) (xs : List (Nat × Word32)) : (s.putV n xs).team.lastSlotA = s.team.lastSlotA := rfl
@[simp] theorem State.putV_team_placed (s : State) (n : Nat) (xs : List (Nat × Word32)) : (s.putV n xs).team.placed = s.team.placed := rfl
@[simp] theorem State.putV_team_srDue (s : State) (n : Nat) (xs : List (Nat × Word32)) : (s.putV n xs).team.srDue = s.team.srDue := rfl
@[simp] theorem State.putV_team_engSeq (s : State) (n : Nat) (xs : List (Nat × Word32)) : (s.putV n xs).team.engSeq = s.team.engSeq := rfl
@[simp] theorem State.putV_team_fenced (s : State) (n : Nat) (xs : List (Nat × Word32)) : (s.putV n xs).team.fenced = s.team.fenced := rfl
@[simp] theorem State.putV_team_check (s : State) (n : Nat) (xs : List (Nat × Word32)) : (s.putV n xs).team.check = s.team.check := rfl

/-! ### `setS` -/

@[simp] theorem State.setS_blk (s : State) (n : Nat) (x : Word64) : (s.setS n x).blk = s.blk := by unfold State.setS; split <;> rfl
@[simp] theorem State.setS_others (s : State) (n : Nat) (x : Word64) : (s.setS n x).others = s.others := by unfold State.setS; split <;> rfl
@[simp] theorem State.setS_blocks (s : State) (n : Nat) (x : Word64) : (s.setS n x).blocks = s.blocks := by unfold State.setS; split <;> rfl
@[simp] theorem State.setS_clusters (s : State) (n : Nat) (x : Word64) : (s.setS n x).clusters = s.clusters := by unfold State.setS; split <;> rfl
@[simp] theorem State.setS_launches (s : State) (n : Nat) (x : Word64) : (s.setS n x).launches = s.launches := by unfold State.setS; split <;> rfl
@[simp] theorem State.setS_cmds (s : State) (n : Nat) (x : Word64) : (s.setS n x).cmds = s.cmds := by unfold State.setS; split <;> rfl
@[simp] theorem State.setS_regions (s : State) (n : Nat) (x : Word64) : (s.setS n x).regions = s.regions := by unfold State.setS; split <;> rfl
@[simp] theorem State.setS_domains (s : State) (n : Nat) (x : Word64) : (s.setS n x).domains = s.domains := by unfold State.setS; split <;> rfl
@[simp] theorem State.setS_queues (s : State) (n : Nat) (x : Word64) : (s.setS n x).queues = s.queues := by unfold State.setS; split <;> rfl
@[simp] theorem State.setS_tapes (s : State) (n : Nat) (x : Word64) : (s.setS n x).tapes = s.tapes := by unfold State.setS; split <;> rfl
@[simp] theorem State.setS_slots (s : State) (n : Nat) (x : Word64) : (s.setS n x).slots = s.slots := by unfold State.setS; split <;> rfl
@[simp] theorem State.setS_hearths (s : State) (n : Nat) (x : Word64) : (s.setS n x).hearths = s.hearths := by unfold State.setS; split <;> rfl
@[simp] theorem State.setS_halted (s : State) (n : Nat) (x : Word64) : (s.setS n x).halted = s.halted := by unfold State.setS; split <;> rfl
@[simp] theorem State.setS_swapping (s : State) (n : Nat) (x : Word64) : (s.setS n x).swapping = s.swapping := by unfold State.setS; split <;> rfl
@[simp] theorem State.setS_cursor (s : State) (n : Nat) (x : Word64) : (s.setS n x).cursor = s.cursor := by unfold State.setS; split <;> rfl
@[simp] theorem State.setS_rrRegion (s : State) (n : Nat) (x : Word64) : (s.setS n x).rrRegion = s.rrRegion := by unfold State.setS; split <;> rfl
@[simp] theorem State.setS_records (s : State) (n : Nat) (x : Word64) : (s.setS n x).records = s.records := by unfold State.setS; split <;> rfl
@[simp] theorem State.setS_freeSteps (s : State) (n : Nat) (x : Word64) : (s.setS n x).freeSteps = s.freeSteps := by unfold State.setS; split <;> rfl
@[simp] theorem State.setS_leaveDebt (s : State) (n : Nat) (x : Word64) : (s.setS n x).leaveDebt = s.leaveDebt := by unfold State.setS; split <;> rfl
@[simp] theorem State.setS_hub (s : State) (n : Nat) (x : Word64) : (s.setS n x).hub = s.hub := by unfold State.setS; split <;> rfl
@[simp] theorem State.setS_amc (s : State) (n : Nat) (x : Word64) : (s.setS n x).amc = s.amc := by unfold State.setS; split <;> rfl
@[simp] theorem State.setS_caches (s : State) (n : Nat) (x : Word64) : (s.setS n x).caches = s.caches := by unfold State.setS; split <;> rfl
@[simp] theorem State.setS_mem (s : State) (n : Nat) (x : Word64) : (s.setS n x).mem = s.mem := by unfold State.setS; split <;> rfl
@[simp] theorem State.setS_memSide (s : State) (n : Nat) (x : Word64) : (s.setS n x).memSide = s.memSide := by unfold State.setS; split <;> rfl
@[simp] theorem State.setS_poison (s : State) (n : Nat) (x : Word64) : (s.setS n x).poison = s.poison := by unfold State.setS; split <;> rfl
@[simp] theorem State.setS_clk (s : State) (n : Nat) (x : Word64) : (s.setS n x).clk = s.clk := by unfold State.setS; split <;> rfl
@[simp] theorem State.setS_leaveWin (s : State) (n : Nat) (x : Word64) : (s.setS n x).leaveWin = s.leaveWin := by unfold State.setS; split <;> rfl
@[simp] theorem State.setS_nextId (s : State) (n : Nat) (x : Word64) : (s.setS n x).nextId = s.nextId := by unfold State.setS; split <;> rfl
@[simp] theorem State.setS_issued (s : State) (n : Nat) (x : Word64) : (s.setS n x).issued = s.issued := by unfold State.setS; split <;> rfl
@[simp] theorem State.setS_free (s : State) (n : Nat) (x : Word64) : (s.setS n x).free = s.free := by unfold State.setS; split <;> rfl
@[simp] theorem State.setS_lastOfClk (s : State) (n : Nat) (x : Word64) : (s.setS n x).lastOfClk = s.lastOfClk := by unfold State.setS; split <;> rfl
@[simp] theorem State.setS_iss (s : State) (n : Nat) (x : Word64) : (s.setS n x).iss = s.iss := by unfold State.setS; split <;> rfl
@[simp] theorem State.setS_arg (s : State) (n : Nat) (x : Word64) : (s.setS n x).arg = s.arg := by unfold State.setS; split <;> rfl
@[simp] theorem State.setS_agenda (s : State) (n : Nat) (x : Word64) : (s.setS n x).agenda = s.agenda := by unfold State.setS; split <;> rfl
@[simp] theorem State.setS_team_uid (s : State) (n : Nat) (x : Word64) : (s.setS n x).team.uid = s.team.uid := by unfold State.setS; split <;> rfl
@[simp] theorem State.setS_team_bid (s : State) (n : Nat) (x : Word64) : (s.setS n x).team.bid = s.team.bid := by unfold State.setS; split <;> rfl
@[simp] theorem State.setS_team_lid (s : State) (n : Nat) (x : Word64) : (s.setS n x).team.lid = s.team.lid := by unfold State.setS; split <;> rfl
@[simp] theorem State.setS_team_teamId (s : State) (n : Nat) (x : Word64) : (s.setS n x).team.teamId = s.team.teamId := by unfold State.setS; split <;> rfl
@[simp] theorem State.setS_team_tib (s : State) (n : Nat) (x : Word64) : (s.setS n x).team.tib = s.team.tib := by unfold State.setS; split <;> rfl
@[simp] theorem State.setS_team_size (s : State) (n : Nat) (x : Word64) : (s.setS n x).team.size = s.team.size := by unfold State.setS; split <;> rfl
@[simp] theorem State.setS_team_core (s : State) (n : Nat) (x : Word64) : (s.setS n x).team.core = s.team.core := by unfold State.setS; split <;> rfl
@[simp] theorem State.setS_team_section_ (s : State) (n : Nat) (x : Word64) : (s.setS n x).team.section_ = s.team.section_ := by unfold State.setS; split <;> rfl
@[simp] theorem State.setS_team_system (s : State) (n : Nat) (x : Word64) : (s.setS n x).team.system = s.team.system := by unfold State.setS; split <;> rfl
@[simp] theorem State.setS_team_rcb (s : State) (n : Nat) (x : Word64) : (s.setS n x).team.rcb = s.team.rcb := by unfold State.setS; split <;> rfl
@[simp] theorem State.setS_team_phase (s : State) (n : Nat) (x : Word64) : (s.setS n x).team.phase = s.team.phase := by unfold State.setS; split <;> rfl
@[simp] theorem State.setS_team_pc (s : State) (n : Nat) (x : Word64) : (s.setS n x).team.pc = s.team.pc := by unfold State.setS; split <;> rfl
@[simp] theorem State.setS_team_nextPlane (s : State) (n : Nat) (x : Word64) : (s.setS n x).team.nextPlane = s.team.nextPlane := by unfold State.setS; split <;> rfl
@[simp] theorem State.setS_team_lanes (s : State) (n : Nat) (x : Word64) : (s.setS n x).team.lanes = s.team.lanes := by unfold State.setS; split <;> rfl
@[simp] theorem State.setS_team_win (s : State) (n : Nat) (x : Word64) : (s.setS n x).team.win = s.team.win := by unfold State.setS; split <;> rfl
@[simp] theorem State.setS_team_sp (s : State) (n : Nat) (x : Word64) : (s.setS n x).team.sp = s.team.sp := by unfold State.setS; split <;> rfl
@[simp] theorem State.setS_team_trap (s : State) (n : Nat) (x : Word64) : (s.setS n x).team.trap = s.team.trap := by unfold State.setS; split <;> rfl
@[simp] theorem State.setS_team_looks (s : State) (n : Nat) (x : Word64) : (s.setS n x).team.looks = s.team.looks := by unfold State.setS; split <;> rfl
@[simp] theorem State.setS_team_loads (s : State) (n : Nat) (x : Word64) : (s.setS n x).team.loads = s.team.loads := by unfold State.setS; split <;> rfl
@[simp] theorem State.setS_team_nextLoad (s : State) (n : Nat) (x : Word64) : (s.setS n x).team.nextLoad = s.team.nextLoad := by unfold State.setS; split <;> rfl
@[simp] theorem State.setS_team_deadline (s : State) (n : Nat) (x : Word64) : (s.setS n x).team.deadline = s.team.deadline := by unfold State.setS; split <;> rfl
@[simp] theorem State.setS_team_barA (s : State) (n : Nat) (x : Word64) : (s.setS n x).team.barA = s.team.barA := by unfold State.setS; split <;> rfl
@[simp] theorem State.setS_team_cbarA (s : State) (n : Nat) (x : Word64) : (s.setS n x).team.cbarA = s.team.cbarA := by unfold State.setS; split <;> rfl
@[simp] theorem State.setS_team_timeout (s : State) (n : Nat) (x : Word64) : (s.setS n x).team.timeout = s.team.timeout := by unfold State.setS; split <;> rfl
@[simp] theorem State.setS_team_mat (s : State) (n : Nat) (x : Word64) : (s.setS n x).team.mat = s.team.mat := by unfold State.setS; split <;> rfl
@[simp] theorem State.setS_team_pre (s : State) (n : Nat) (x : Word64) : (s.setS n x).team.pre = s.team.pre := by unfold State.setS; split <;> rfl
@[simp] theorem State.setS_team_fault (s : State) (n : Nat) (x : Word64) : (s.setS n x).team.fault = s.team.fault := by unfold State.setS; split <;> rfl
@[simp] theorem State.setS_team_fdStat (s : State) (n : Nat) (x : Word64) : (s.setS n x).team.fdStat = s.team.fdStat := by unfold State.setS; split <;> rfl
@[simp] theorem State.setS_team_fdArg (s : State) (n : Nat) (x : Word64) : (s.setS n x).team.fdArg = s.team.fdArg := by unfold State.setS; split <;> rfl
@[simp] theorem State.setS_team_reqSteps (s : State) (n : Nat) (x : Word64) : (s.setS n x).team.reqSteps = s.team.reqSteps := by unfold State.setS; split <;> rfl
@[simp] theorem State.setS_team_reqCopy (s : State) (n : Nat) (x : Word64) : (s.setS n x).team.reqCopy = s.team.reqCopy := by unfold State.setS; split <;> rfl
@[simp] theorem State.setS_team_tokSteps (s : State) (n : Nat) (x : Word64) : (s.setS n x).team.tokSteps = s.team.tokSteps := by unfold State.setS; split <;> rfl
@[simp] theorem State.setS_team_tokCopy (s : State) (n : Nat) (x : Word64) : (s.setS n x).team.tokCopy = s.team.tokCopy := by unfold State.setS; split <;> rfl
@[simp] theorem State.setS_team_granted (s : State) (n : Nat) (x : Word64) : (s.setS n x).team.granted = s.team.granted := by unfold State.setS; split <;> rfl
@[simp] theorem State.setS_team_spillSz (s : State) (n : Nat) (x : Word64) : (s.setS n x).team.spillSz = s.team.spillSz := by unfold State.setS; split <;> rfl
@[simp] theorem State.setS_team_spillBase (s : State) (n : Nat) (x : Word64) : (s.setS n x).team.spillBase = s.team.spillBase := by unfold State.setS; split <;> rfl
@[simp] theorem State.setS_team_spillExt (s : State) (n : Nat) (x : Word64) : (s.setS n x).team.spillExt = s.team.spillExt := by unfold State.setS; split <;> rfl
@[simp] theorem State.setS_team_sstack (s : State) (n : Nat) (x : Word64) : (s.setS n x).team.sstack = s.team.sstack := by unfold State.setS; split <;> rfl
@[simp] theorem State.setS_team_badBuffers (s : State) (n : Nat) (x : Word64) : (s.setS n x).team.badBuffers = s.team.badBuffers := by unfold State.setS; split <;> rfl
@[simp] theorem State.setS_team_lastIssue (s : State) (n : Nat) (x : Word64) : (s.setS n x).team.lastIssue = s.team.lastIssue := by unfold State.setS; split <;> rfl
@[simp] theorem State.setS_team_lastSlotA (s : State) (n : Nat) (x : Word64) : (s.setS n x).team.lastSlotA = s.team.lastSlotA := by unfold State.setS; split <;> rfl
@[simp] theorem State.setS_team_placed (s : State) (n : Nat) (x : Word64) : (s.setS n x).team.placed = s.team.placed := by unfold State.setS; split <;> rfl
@[simp] theorem State.setS_team_srDue (s : State) (n : Nat) (x : Word64) : (s.setS n x).team.srDue = s.team.srDue := by unfold State.setS; split <;> rfl
@[simp] theorem State.setS_team_engSeq (s : State) (n : Nat) (x : Word64) : (s.setS n x).team.engSeq = s.team.engSeq := by unfold State.setS; split <;> rfl
@[simp] theorem State.setS_team_fenced (s : State) (n : Nat) (x : Word64) : (s.setS n x).team.fenced = s.team.fenced := by unfold State.setS; split <;> rfl
@[simp] theorem State.setS_team_check (s : State) (n : Nat) (x : Word64) : (s.setS n x).team.check = s.team.check := by unfold State.setS; split <;> rfl

/-! ### `setP` -/

@[simp] theorem State.setP_blk (s : State) (n : Nat) (m x : Mask) : (s.setP n m x).blk = s.blk := by unfold State.setP; split <;> rfl
@[simp] theorem State.setP_others (s : State) (n : Nat) (m x : Mask) : (s.setP n m x).others = s.others := by unfold State.setP; split <;> rfl
@[simp] theorem State.setP_blocks (s : State) (n : Nat) (m x : Mask) : (s.setP n m x).blocks = s.blocks := by unfold State.setP; split <;> rfl
@[simp] theorem State.setP_clusters (s : State) (n : Nat) (m x : Mask) : (s.setP n m x).clusters = s.clusters := by unfold State.setP; split <;> rfl
@[simp] theorem State.setP_launches (s : State) (n : Nat) (m x : Mask) : (s.setP n m x).launches = s.launches := by unfold State.setP; split <;> rfl
@[simp] theorem State.setP_cmds (s : State) (n : Nat) (m x : Mask) : (s.setP n m x).cmds = s.cmds := by unfold State.setP; split <;> rfl
@[simp] theorem State.setP_regions (s : State) (n : Nat) (m x : Mask) : (s.setP n m x).regions = s.regions := by unfold State.setP; split <;> rfl
@[simp] theorem State.setP_domains (s : State) (n : Nat) (m x : Mask) : (s.setP n m x).domains = s.domains := by unfold State.setP; split <;> rfl
@[simp] theorem State.setP_queues (s : State) (n : Nat) (m x : Mask) : (s.setP n m x).queues = s.queues := by unfold State.setP; split <;> rfl
@[simp] theorem State.setP_tapes (s : State) (n : Nat) (m x : Mask) : (s.setP n m x).tapes = s.tapes := by unfold State.setP; split <;> rfl
@[simp] theorem State.setP_slots (s : State) (n : Nat) (m x : Mask) : (s.setP n m x).slots = s.slots := by unfold State.setP; split <;> rfl
@[simp] theorem State.setP_hearths (s : State) (n : Nat) (m x : Mask) : (s.setP n m x).hearths = s.hearths := by unfold State.setP; split <;> rfl
@[simp] theorem State.setP_halted (s : State) (n : Nat) (m x : Mask) : (s.setP n m x).halted = s.halted := by unfold State.setP; split <;> rfl
@[simp] theorem State.setP_swapping (s : State) (n : Nat) (m x : Mask) : (s.setP n m x).swapping = s.swapping := by unfold State.setP; split <;> rfl
@[simp] theorem State.setP_cursor (s : State) (n : Nat) (m x : Mask) : (s.setP n m x).cursor = s.cursor := by unfold State.setP; split <;> rfl
@[simp] theorem State.setP_rrRegion (s : State) (n : Nat) (m x : Mask) : (s.setP n m x).rrRegion = s.rrRegion := by unfold State.setP; split <;> rfl
@[simp] theorem State.setP_records (s : State) (n : Nat) (m x : Mask) : (s.setP n m x).records = s.records := by unfold State.setP; split <;> rfl
@[simp] theorem State.setP_freeSteps (s : State) (n : Nat) (m x : Mask) : (s.setP n m x).freeSteps = s.freeSteps := by unfold State.setP; split <;> rfl
@[simp] theorem State.setP_leaveDebt (s : State) (n : Nat) (m x : Mask) : (s.setP n m x).leaveDebt = s.leaveDebt := by unfold State.setP; split <;> rfl
@[simp] theorem State.setP_hub (s : State) (n : Nat) (m x : Mask) : (s.setP n m x).hub = s.hub := by unfold State.setP; split <;> rfl
@[simp] theorem State.setP_amc (s : State) (n : Nat) (m x : Mask) : (s.setP n m x).amc = s.amc := by unfold State.setP; split <;> rfl
@[simp] theorem State.setP_caches (s : State) (n : Nat) (m x : Mask) : (s.setP n m x).caches = s.caches := by unfold State.setP; split <;> rfl
@[simp] theorem State.setP_mem (s : State) (n : Nat) (m x : Mask) : (s.setP n m x).mem = s.mem := by unfold State.setP; split <;> rfl
@[simp] theorem State.setP_memSide (s : State) (n : Nat) (m x : Mask) : (s.setP n m x).memSide = s.memSide := by unfold State.setP; split <;> rfl
@[simp] theorem State.setP_poison (s : State) (n : Nat) (m x : Mask) : (s.setP n m x).poison = s.poison := by unfold State.setP; split <;> rfl
@[simp] theorem State.setP_clk (s : State) (n : Nat) (m x : Mask) : (s.setP n m x).clk = s.clk := by unfold State.setP; split <;> rfl
@[simp] theorem State.setP_leaveWin (s : State) (n : Nat) (m x : Mask) : (s.setP n m x).leaveWin = s.leaveWin := by unfold State.setP; split <;> rfl
@[simp] theorem State.setP_nextId (s : State) (n : Nat) (m x : Mask) : (s.setP n m x).nextId = s.nextId := by unfold State.setP; split <;> rfl
@[simp] theorem State.setP_issued (s : State) (n : Nat) (m x : Mask) : (s.setP n m x).issued = s.issued := by unfold State.setP; split <;> rfl
@[simp] theorem State.setP_free (s : State) (n : Nat) (m x : Mask) : (s.setP n m x).free = s.free := by unfold State.setP; split <;> rfl
@[simp] theorem State.setP_lastOfClk (s : State) (n : Nat) (m x : Mask) : (s.setP n m x).lastOfClk = s.lastOfClk := by unfold State.setP; split <;> rfl
@[simp] theorem State.setP_iss (s : State) (n : Nat) (m x : Mask) : (s.setP n m x).iss = s.iss := by unfold State.setP; split <;> rfl
@[simp] theorem State.setP_arg (s : State) (n : Nat) (m x : Mask) : (s.setP n m x).arg = s.arg := by unfold State.setP; split <;> rfl
@[simp] theorem State.setP_agenda (s : State) (n : Nat) (m x : Mask) : (s.setP n m x).agenda = s.agenda := by unfold State.setP; split <;> rfl
@[simp] theorem State.setP_team_uid (s : State) (n : Nat) (m x : Mask) : (s.setP n m x).team.uid = s.team.uid := by unfold State.setP; split <;> rfl
@[simp] theorem State.setP_team_bid (s : State) (n : Nat) (m x : Mask) : (s.setP n m x).team.bid = s.team.bid := by unfold State.setP; split <;> rfl
@[simp] theorem State.setP_team_lid (s : State) (n : Nat) (m x : Mask) : (s.setP n m x).team.lid = s.team.lid := by unfold State.setP; split <;> rfl
@[simp] theorem State.setP_team_teamId (s : State) (n : Nat) (m x : Mask) : (s.setP n m x).team.teamId = s.team.teamId := by unfold State.setP; split <;> rfl
@[simp] theorem State.setP_team_tib (s : State) (n : Nat) (m x : Mask) : (s.setP n m x).team.tib = s.team.tib := by unfold State.setP; split <;> rfl
@[simp] theorem State.setP_team_size (s : State) (n : Nat) (m x : Mask) : (s.setP n m x).team.size = s.team.size := by unfold State.setP; split <;> rfl
@[simp] theorem State.setP_team_core (s : State) (n : Nat) (m x : Mask) : (s.setP n m x).team.core = s.team.core := by unfold State.setP; split <;> rfl
@[simp] theorem State.setP_team_section_ (s : State) (n : Nat) (m x : Mask) : (s.setP n m x).team.section_ = s.team.section_ := by unfold State.setP; split <;> rfl
@[simp] theorem State.setP_team_system (s : State) (n : Nat) (m x : Mask) : (s.setP n m x).team.system = s.team.system := by unfold State.setP; split <;> rfl
@[simp] theorem State.setP_team_rcb (s : State) (n : Nat) (m x : Mask) : (s.setP n m x).team.rcb = s.team.rcb := by unfold State.setP; split <;> rfl
@[simp] theorem State.setP_team_phase (s : State) (n : Nat) (m x : Mask) : (s.setP n m x).team.phase = s.team.phase := by unfold State.setP; split <;> rfl
@[simp] theorem State.setP_team_pc (s : State) (n : Nat) (m x : Mask) : (s.setP n m x).team.pc = s.team.pc := by unfold State.setP; split <;> rfl
@[simp] theorem State.setP_team_nextPlane (s : State) (n : Nat) (m x : Mask) : (s.setP n m x).team.nextPlane = s.team.nextPlane := by unfold State.setP; split <;> rfl
@[simp] theorem State.setP_team_lanes (s : State) (n : Nat) (m x : Mask) : (s.setP n m x).team.lanes = s.team.lanes := by unfold State.setP; split <;> rfl
@[simp] theorem State.setP_team_win (s : State) (n : Nat) (m x : Mask) : (s.setP n m x).team.win = s.team.win := by unfold State.setP; split <;> rfl
@[simp] theorem State.setP_team_sp (s : State) (n : Nat) (m x : Mask) : (s.setP n m x).team.sp = s.team.sp := by unfold State.setP; split <;> rfl
@[simp] theorem State.setP_team_trap (s : State) (n : Nat) (m x : Mask) : (s.setP n m x).team.trap = s.team.trap := by unfold State.setP; split <;> rfl
@[simp] theorem State.setP_team_looks (s : State) (n : Nat) (m x : Mask) : (s.setP n m x).team.looks = s.team.looks := by unfold State.setP; split <;> rfl
@[simp] theorem State.setP_team_loads (s : State) (n : Nat) (m x : Mask) : (s.setP n m x).team.loads = s.team.loads := by unfold State.setP; split <;> rfl
@[simp] theorem State.setP_team_nextLoad (s : State) (n : Nat) (m x : Mask) : (s.setP n m x).team.nextLoad = s.team.nextLoad := by unfold State.setP; split <;> rfl
@[simp] theorem State.setP_team_deadline (s : State) (n : Nat) (m x : Mask) : (s.setP n m x).team.deadline = s.team.deadline := by unfold State.setP; split <;> rfl
@[simp] theorem State.setP_team_barA (s : State) (n : Nat) (m x : Mask) : (s.setP n m x).team.barA = s.team.barA := by unfold State.setP; split <;> rfl
@[simp] theorem State.setP_team_cbarA (s : State) (n : Nat) (m x : Mask) : (s.setP n m x).team.cbarA = s.team.cbarA := by unfold State.setP; split <;> rfl
@[simp] theorem State.setP_team_timeout (s : State) (n : Nat) (m x : Mask) : (s.setP n m x).team.timeout = s.team.timeout := by unfold State.setP; split <;> rfl
@[simp] theorem State.setP_team_mat (s : State) (n : Nat) (m x : Mask) : (s.setP n m x).team.mat = s.team.mat := by unfold State.setP; split <;> rfl
@[simp] theorem State.setP_team_pre (s : State) (n : Nat) (m x : Mask) : (s.setP n m x).team.pre = s.team.pre := by unfold State.setP; split <;> rfl
@[simp] theorem State.setP_team_fault (s : State) (n : Nat) (m x : Mask) : (s.setP n m x).team.fault = s.team.fault := by unfold State.setP; split <;> rfl
@[simp] theorem State.setP_team_fdStat (s : State) (n : Nat) (m x : Mask) : (s.setP n m x).team.fdStat = s.team.fdStat := by unfold State.setP; split <;> rfl
@[simp] theorem State.setP_team_fdArg (s : State) (n : Nat) (m x : Mask) : (s.setP n m x).team.fdArg = s.team.fdArg := by unfold State.setP; split <;> rfl
@[simp] theorem State.setP_team_reqSteps (s : State) (n : Nat) (m x : Mask) : (s.setP n m x).team.reqSteps = s.team.reqSteps := by unfold State.setP; split <;> rfl
@[simp] theorem State.setP_team_reqCopy (s : State) (n : Nat) (m x : Mask) : (s.setP n m x).team.reqCopy = s.team.reqCopy := by unfold State.setP; split <;> rfl
@[simp] theorem State.setP_team_tokSteps (s : State) (n : Nat) (m x : Mask) : (s.setP n m x).team.tokSteps = s.team.tokSteps := by unfold State.setP; split <;> rfl
@[simp] theorem State.setP_team_tokCopy (s : State) (n : Nat) (m x : Mask) : (s.setP n m x).team.tokCopy = s.team.tokCopy := by unfold State.setP; split <;> rfl
@[simp] theorem State.setP_team_granted (s : State) (n : Nat) (m x : Mask) : (s.setP n m x).team.granted = s.team.granted := by unfold State.setP; split <;> rfl
@[simp] theorem State.setP_team_spillSz (s : State) (n : Nat) (m x : Mask) : (s.setP n m x).team.spillSz = s.team.spillSz := by unfold State.setP; split <;> rfl
@[simp] theorem State.setP_team_spillBase (s : State) (n : Nat) (m x : Mask) : (s.setP n m x).team.spillBase = s.team.spillBase := by unfold State.setP; split <;> rfl
@[simp] theorem State.setP_team_spillExt (s : State) (n : Nat) (m x : Mask) : (s.setP n m x).team.spillExt = s.team.spillExt := by unfold State.setP; split <;> rfl
@[simp] theorem State.setP_team_sstack (s : State) (n : Nat) (m x : Mask) : (s.setP n m x).team.sstack = s.team.sstack := by unfold State.setP; split <;> rfl
@[simp] theorem State.setP_team_badBuffers (s : State) (n : Nat) (m x : Mask) : (s.setP n m x).team.badBuffers = s.team.badBuffers := by unfold State.setP; split <;> rfl
@[simp] theorem State.setP_team_lastIssue (s : State) (n : Nat) (m x : Mask) : (s.setP n m x).team.lastIssue = s.team.lastIssue := by unfold State.setP; split <;> rfl
@[simp] theorem State.setP_team_lastSlotA (s : State) (n : Nat) (m x : Mask) : (s.setP n m x).team.lastSlotA = s.team.lastSlotA := by unfold State.setP; split <;> rfl
@[simp] theorem State.setP_team_placed (s : State) (n : Nat) (m x : Mask) : (s.setP n m x).team.placed = s.team.placed := by unfold State.setP; split <;> rfl
@[simp] theorem State.setP_team_srDue (s : State) (n : Nat) (m x : Mask) : (s.setP n m x).team.srDue = s.team.srDue := by unfold State.setP; split <;> rfl
@[simp] theorem State.setP_team_engSeq (s : State) (n : Nat) (m x : Mask) : (s.setP n m x).team.engSeq = s.team.engSeq := by unfold State.setP; split <;> rfl
@[simp] theorem State.setP_team_fenced (s : State) (n : Nat) (m x : Mask) : (s.setP n m x).team.fenced = s.team.fenced := by unfold State.setP; split <;> rfl
@[simp] theorem State.setP_team_check (s : State) (n : Nat) (m x : Mask) : (s.setP n m x).team.check = s.team.check := by unfold State.setP; split <;> rfl

/-! ### `raise` -/

@[simp] theorem State.raise_blk (s : State) (f : Byte) : (s.raise f).blk = s.blk := rfl
@[simp] theorem State.raise_others (s : State) (f : Byte) : (s.raise f).others = s.others := rfl
@[simp] theorem State.raise_blocks (s : State) (f : Byte) : (s.raise f).blocks = s.blocks := rfl
@[simp] theorem State.raise_clusters (s : State) (f : Byte) : (s.raise f).clusters = s.clusters := rfl
@[simp] theorem State.raise_launches (s : State) (f : Byte) : (s.raise f).launches = s.launches := rfl
@[simp] theorem State.raise_cmds (s : State) (f : Byte) : (s.raise f).cmds = s.cmds := rfl
@[simp] theorem State.raise_regions (s : State) (f : Byte) : (s.raise f).regions = s.regions := rfl
@[simp] theorem State.raise_domains (s : State) (f : Byte) : (s.raise f).domains = s.domains := rfl
@[simp] theorem State.raise_queues (s : State) (f : Byte) : (s.raise f).queues = s.queues := rfl
@[simp] theorem State.raise_tapes (s : State) (f : Byte) : (s.raise f).tapes = s.tapes := rfl
@[simp] theorem State.raise_slots (s : State) (f : Byte) : (s.raise f).slots = s.slots := rfl
@[simp] theorem State.raise_hearths (s : State) (f : Byte) : (s.raise f).hearths = s.hearths := rfl
@[simp] theorem State.raise_halted (s : State) (f : Byte) : (s.raise f).halted = s.halted := rfl
@[simp] theorem State.raise_swapping (s : State) (f : Byte) : (s.raise f).swapping = s.swapping := rfl
@[simp] theorem State.raise_cursor (s : State) (f : Byte) : (s.raise f).cursor = s.cursor := rfl
@[simp] theorem State.raise_rrRegion (s : State) (f : Byte) : (s.raise f).rrRegion = s.rrRegion := rfl
@[simp] theorem State.raise_records (s : State) (f : Byte) : (s.raise f).records = s.records := rfl
@[simp] theorem State.raise_freeSteps (s : State) (f : Byte) : (s.raise f).freeSteps = s.freeSteps := rfl
@[simp] theorem State.raise_leaveDebt (s : State) (f : Byte) : (s.raise f).leaveDebt = s.leaveDebt := rfl
@[simp] theorem State.raise_hub (s : State) (f : Byte) : (s.raise f).hub = s.hub := rfl
@[simp] theorem State.raise_amc (s : State) (f : Byte) : (s.raise f).amc = s.amc := rfl
@[simp] theorem State.raise_caches (s : State) (f : Byte) : (s.raise f).caches = s.caches := rfl
@[simp] theorem State.raise_mem (s : State) (f : Byte) : (s.raise f).mem = s.mem := rfl
@[simp] theorem State.raise_memSide (s : State) (f : Byte) : (s.raise f).memSide = s.memSide := rfl
@[simp] theorem State.raise_poison (s : State) (f : Byte) : (s.raise f).poison = s.poison := rfl
@[simp] theorem State.raise_clk (s : State) (f : Byte) : (s.raise f).clk = s.clk := rfl
@[simp] theorem State.raise_leaveWin (s : State) (f : Byte) : (s.raise f).leaveWin = s.leaveWin := rfl
@[simp] theorem State.raise_nextId (s : State) (f : Byte) : (s.raise f).nextId = s.nextId := rfl
@[simp] theorem State.raise_issued (s : State) (f : Byte) : (s.raise f).issued = s.issued := rfl
@[simp] theorem State.raise_free (s : State) (f : Byte) : (s.raise f).free = s.free := rfl
@[simp] theorem State.raise_lastOfClk (s : State) (f : Byte) : (s.raise f).lastOfClk = s.lastOfClk := rfl
@[simp] theorem State.raise_iss (s : State) (f : Byte) : (s.raise f).iss = s.iss := rfl
@[simp] theorem State.raise_arg (s : State) (f : Byte) : (s.raise f).arg = s.arg := rfl
@[simp] theorem State.raise_agenda (s : State) (f : Byte) : (s.raise f).agenda = s.agenda := rfl
@[simp] theorem State.raise_team_uid (s : State) (f : Byte) : (s.raise f).team.uid = s.team.uid := rfl
@[simp] theorem State.raise_team_bid (s : State) (f : Byte) : (s.raise f).team.bid = s.team.bid := rfl
@[simp] theorem State.raise_team_lid (s : State) (f : Byte) : (s.raise f).team.lid = s.team.lid := rfl
@[simp] theorem State.raise_team_teamId (s : State) (f : Byte) : (s.raise f).team.teamId = s.team.teamId := rfl
@[simp] theorem State.raise_team_tib (s : State) (f : Byte) : (s.raise f).team.tib = s.team.tib := rfl
@[simp] theorem State.raise_team_size (s : State) (f : Byte) : (s.raise f).team.size = s.team.size := rfl
@[simp] theorem State.raise_team_core (s : State) (f : Byte) : (s.raise f).team.core = s.team.core := rfl
@[simp] theorem State.raise_team_section_ (s : State) (f : Byte) : (s.raise f).team.section_ = s.team.section_ := rfl
@[simp] theorem State.raise_team_system (s : State) (f : Byte) : (s.raise f).team.system = s.team.system := rfl
@[simp] theorem State.raise_team_rcb (s : State) (f : Byte) : (s.raise f).team.rcb = s.team.rcb := rfl
@[simp] theorem State.raise_team_phase (s : State) (f : Byte) : (s.raise f).team.phase = s.team.phase := rfl
@[simp] theorem State.raise_team_pc (s : State) (f : Byte) : (s.raise f).team.pc = s.team.pc := rfl
@[simp] theorem State.raise_team_nextPlane (s : State) (f : Byte) : (s.raise f).team.nextPlane = s.team.nextPlane := rfl
@[simp] theorem State.raise_team_lanes (s : State) (f : Byte) : (s.raise f).team.lanes = s.team.lanes := rfl
@[simp] theorem State.raise_team_win (s : State) (f : Byte) : (s.raise f).team.win = s.team.win := rfl
@[simp] theorem State.raise_team_regs (s : State) (f : Byte) : (s.raise f).team.regs = s.team.regs := rfl
@[simp] theorem State.raise_team_trap (s : State) (f : Byte) : (s.raise f).team.trap = s.team.trap := rfl
@[simp] theorem State.raise_team_looks (s : State) (f : Byte) : (s.raise f).team.looks = s.team.looks := rfl
@[simp] theorem State.raise_team_loads (s : State) (f : Byte) : (s.raise f).team.loads = s.team.loads := rfl
@[simp] theorem State.raise_team_nextLoad (s : State) (f : Byte) : (s.raise f).team.nextLoad = s.team.nextLoad := rfl
@[simp] theorem State.raise_team_deadline (s : State) (f : Byte) : (s.raise f).team.deadline = s.team.deadline := rfl
@[simp] theorem State.raise_team_barA (s : State) (f : Byte) : (s.raise f).team.barA = s.team.barA := rfl
@[simp] theorem State.raise_team_cbarA (s : State) (f : Byte) : (s.raise f).team.cbarA = s.team.cbarA := rfl
@[simp] theorem State.raise_team_timeout (s : State) (f : Byte) : (s.raise f).team.timeout = s.team.timeout := rfl
@[simp] theorem State.raise_team_mat (s : State) (f : Byte) : (s.raise f).team.mat = s.team.mat := rfl
@[simp] theorem State.raise_team_pre (s : State) (f : Byte) : (s.raise f).team.pre = s.team.pre := rfl
@[simp] theorem State.raise_team_fault (s : State) (f : Byte) : (s.raise f).team.fault = s.team.fault := rfl
@[simp] theorem State.raise_team_fdStat (s : State) (f : Byte) : (s.raise f).team.fdStat = s.team.fdStat := rfl
@[simp] theorem State.raise_team_fdArg (s : State) (f : Byte) : (s.raise f).team.fdArg = s.team.fdArg := rfl
@[simp] theorem State.raise_team_reqSteps (s : State) (f : Byte) : (s.raise f).team.reqSteps = s.team.reqSteps := rfl
@[simp] theorem State.raise_team_reqCopy (s : State) (f : Byte) : (s.raise f).team.reqCopy = s.team.reqCopy := rfl
@[simp] theorem State.raise_team_tokSteps (s : State) (f : Byte) : (s.raise f).team.tokSteps = s.team.tokSteps := rfl
@[simp] theorem State.raise_team_tokCopy (s : State) (f : Byte) : (s.raise f).team.tokCopy = s.team.tokCopy := rfl
@[simp] theorem State.raise_team_granted (s : State) (f : Byte) : (s.raise f).team.granted = s.team.granted := rfl
@[simp] theorem State.raise_team_spillSz (s : State) (f : Byte) : (s.raise f).team.spillSz = s.team.spillSz := rfl
@[simp] theorem State.raise_team_spillBase (s : State) (f : Byte) : (s.raise f).team.spillBase = s.team.spillBase := rfl
@[simp] theorem State.raise_team_spillExt (s : State) (f : Byte) : (s.raise f).team.spillExt = s.team.spillExt := rfl
@[simp] theorem State.raise_team_sstack (s : State) (f : Byte) : (s.raise f).team.sstack = s.team.sstack := rfl
@[simp] theorem State.raise_team_badBuffers (s : State) (f : Byte) : (s.raise f).team.badBuffers = s.team.badBuffers := rfl
@[simp] theorem State.raise_team_lastIssue (s : State) (f : Byte) : (s.raise f).team.lastIssue = s.team.lastIssue := rfl
@[simp] theorem State.raise_team_lastSlotA (s : State) (f : Byte) : (s.raise f).team.lastSlotA = s.team.lastSlotA := rfl
@[simp] theorem State.raise_team_placed (s : State) (f : Byte) : (s.raise f).team.placed = s.team.placed := rfl
@[simp] theorem State.raise_team_srDue (s : State) (f : Byte) : (s.raise f).team.srDue = s.team.srDue := rfl
@[simp] theorem State.raise_team_engSeq (s : State) (f : Byte) : (s.raise f).team.engSeq = s.team.engSeq := rfl
@[simp] theorem State.raise_team_fenced (s : State) (f : Byte) : (s.raise f).team.fenced = s.team.fenced := rfl
@[simp] theorem State.raise_team_check (s : State) (f : Byte) : (s.raise f).team.check = s.team.check := rfl

/-! ### `stall` -/

@[simp] theorem State.stall_blk (s : State) (w : Stall) : (s.stall w).blk = s.blk := rfl
@[simp] theorem State.stall_others (s : State) (w : Stall) : (s.stall w).others = s.others := rfl
@[simp] theorem State.stall_blocks (s : State) (w : Stall) : (s.stall w).blocks = s.blocks := rfl
@[simp] theorem State.stall_clusters (s : State) (w : Stall) : (s.stall w).clusters = s.clusters := rfl
@[simp] theorem State.stall_launches (s : State) (w : Stall) : (s.stall w).launches = s.launches := rfl
@[simp] theorem State.stall_cmds (s : State) (w : Stall) : (s.stall w).cmds = s.cmds := rfl
@[simp] theorem State.stall_regions (s : State) (w : Stall) : (s.stall w).regions = s.regions := rfl
@[simp] theorem State.stall_domains (s : State) (w : Stall) : (s.stall w).domains = s.domains := rfl
@[simp] theorem State.stall_queues (s : State) (w : Stall) : (s.stall w).queues = s.queues := rfl
@[simp] theorem State.stall_tapes (s : State) (w : Stall) : (s.stall w).tapes = s.tapes := rfl
@[simp] theorem State.stall_slots (s : State) (w : Stall) : (s.stall w).slots = s.slots := rfl
@[simp] theorem State.stall_hearths (s : State) (w : Stall) : (s.stall w).hearths = s.hearths := rfl
@[simp] theorem State.stall_halted (s : State) (w : Stall) : (s.stall w).halted = s.halted := rfl
@[simp] theorem State.stall_swapping (s : State) (w : Stall) : (s.stall w).swapping = s.swapping := rfl
@[simp] theorem State.stall_cursor (s : State) (w : Stall) : (s.stall w).cursor = s.cursor := rfl
@[simp] theorem State.stall_rrRegion (s : State) (w : Stall) : (s.stall w).rrRegion = s.rrRegion := rfl
@[simp] theorem State.stall_records (s : State) (w : Stall) : (s.stall w).records = s.records := rfl
@[simp] theorem State.stall_freeSteps (s : State) (w : Stall) : (s.stall w).freeSteps = s.freeSteps := rfl
@[simp] theorem State.stall_leaveDebt (s : State) (w : Stall) : (s.stall w).leaveDebt = s.leaveDebt := rfl
@[simp] theorem State.stall_hub (s : State) (w : Stall) : (s.stall w).hub = s.hub := rfl
@[simp] theorem State.stall_amc (s : State) (w : Stall) : (s.stall w).amc = s.amc := rfl
@[simp] theorem State.stall_caches (s : State) (w : Stall) : (s.stall w).caches = s.caches := rfl
@[simp] theorem State.stall_mem (s : State) (w : Stall) : (s.stall w).mem = s.mem := rfl
@[simp] theorem State.stall_memSide (s : State) (w : Stall) : (s.stall w).memSide = s.memSide := rfl
@[simp] theorem State.stall_poison (s : State) (w : Stall) : (s.stall w).poison = s.poison := rfl
@[simp] theorem State.stall_clk (s : State) (w : Stall) : (s.stall w).clk = s.clk := rfl
@[simp] theorem State.stall_leaveWin (s : State) (w : Stall) : (s.stall w).leaveWin = s.leaveWin := rfl
@[simp] theorem State.stall_nextId (s : State) (w : Stall) : (s.stall w).nextId = s.nextId := rfl
@[simp] theorem State.stall_issued (s : State) (w : Stall) : (s.stall w).issued = s.issued := rfl
@[simp] theorem State.stall_free (s : State) (w : Stall) : (s.stall w).free = s.free := rfl
@[simp] theorem State.stall_lastOfClk (s : State) (w : Stall) : (s.stall w).lastOfClk = s.lastOfClk := rfl
@[simp] theorem State.stall_iss (s : State) (w : Stall) : (s.stall w).iss = s.iss := rfl
@[simp] theorem State.stall_arg (s : State) (w : Stall) : (s.stall w).arg = s.arg := rfl
@[simp] theorem State.stall_agenda (s : State) (w : Stall) : (s.stall w).agenda = s.agenda := rfl
@[simp] theorem State.stall_team_uid (s : State) (w : Stall) : (s.stall w).team.uid = s.team.uid := rfl
@[simp] theorem State.stall_team_bid (s : State) (w : Stall) : (s.stall w).team.bid = s.team.bid := rfl
@[simp] theorem State.stall_team_lid (s : State) (w : Stall) : (s.stall w).team.lid = s.team.lid := rfl
@[simp] theorem State.stall_team_teamId (s : State) (w : Stall) : (s.stall w).team.teamId = s.team.teamId := rfl
@[simp] theorem State.stall_team_tib (s : State) (w : Stall) : (s.stall w).team.tib = s.team.tib := rfl
@[simp] theorem State.stall_team_size (s : State) (w : Stall) : (s.stall w).team.size = s.team.size := rfl
@[simp] theorem State.stall_team_core (s : State) (w : Stall) : (s.stall w).team.core = s.team.core := rfl
@[simp] theorem State.stall_team_section_ (s : State) (w : Stall) : (s.stall w).team.section_ = s.team.section_ := rfl
@[simp] theorem State.stall_team_system (s : State) (w : Stall) : (s.stall w).team.system = s.team.system := rfl
@[simp] theorem State.stall_team_rcb (s : State) (w : Stall) : (s.stall w).team.rcb = s.team.rcb := rfl
@[simp] theorem State.stall_team_pc (s : State) (w : Stall) : (s.stall w).team.pc = s.team.pc := rfl
@[simp] theorem State.stall_team_nextPlane (s : State) (w : Stall) : (s.stall w).team.nextPlane = s.team.nextPlane := rfl
@[simp] theorem State.stall_team_lanes (s : State) (w : Stall) : (s.stall w).team.lanes = s.team.lanes := rfl
@[simp] theorem State.stall_team_win (s : State) (w : Stall) : (s.stall w).team.win = s.team.win := rfl
@[simp] theorem State.stall_team_regs (s : State) (w : Stall) : (s.stall w).team.regs = s.team.regs := rfl
@[simp] theorem State.stall_team_sp (s : State) (w : Stall) : (s.stall w).team.sp = s.team.sp := rfl
@[simp] theorem State.stall_team_trap (s : State) (w : Stall) : (s.stall w).team.trap = s.team.trap := rfl
@[simp] theorem State.stall_team_looks (s : State) (w : Stall) : (s.stall w).team.looks = s.team.looks := rfl
@[simp] theorem State.stall_team_loads (s : State) (w : Stall) : (s.stall w).team.loads = s.team.loads := rfl
@[simp] theorem State.stall_team_nextLoad (s : State) (w : Stall) : (s.stall w).team.nextLoad = s.team.nextLoad := rfl
@[simp] theorem State.stall_team_deadline (s : State) (w : Stall) : (s.stall w).team.deadline = s.team.deadline := rfl
@[simp] theorem State.stall_team_barA (s : State) (w : Stall) : (s.stall w).team.barA = s.team.barA := rfl
@[simp] theorem State.stall_team_cbarA (s : State) (w : Stall) : (s.stall w).team.cbarA = s.team.cbarA := rfl
@[simp] theorem State.stall_team_timeout (s : State) (w : Stall) : (s.stall w).team.timeout = s.team.timeout := rfl
@[simp] theorem State.stall_team_mat (s : State) (w : Stall) : (s.stall w).team.mat = s.team.mat := rfl
@[simp] theorem State.stall_team_pre (s : State) (w : Stall) : (s.stall w).team.pre = s.team.pre := rfl
@[simp] theorem State.stall_team_fault (s : State) (w : Stall) : (s.stall w).team.fault = s.team.fault := rfl
@[simp] theorem State.stall_team_fdStat (s : State) (w : Stall) : (s.stall w).team.fdStat = s.team.fdStat := rfl
@[simp] theorem State.stall_team_fdArg (s : State) (w : Stall) : (s.stall w).team.fdArg = s.team.fdArg := rfl
@[simp] theorem State.stall_team_reqSteps (s : State) (w : Stall) : (s.stall w).team.reqSteps = s.team.reqSteps := rfl
@[simp] theorem State.stall_team_reqCopy (s : State) (w : Stall) : (s.stall w).team.reqCopy = s.team.reqCopy := rfl
@[simp] theorem State.stall_team_tokSteps (s : State) (w : Stall) : (s.stall w).team.tokSteps = s.team.tokSteps := rfl
@[simp] theorem State.stall_team_tokCopy (s : State) (w : Stall) : (s.stall w).team.tokCopy = s.team.tokCopy := rfl
@[simp] theorem State.stall_team_granted (s : State) (w : Stall) : (s.stall w).team.granted = s.team.granted := rfl
@[simp] theorem State.stall_team_spillSz (s : State) (w : Stall) : (s.stall w).team.spillSz = s.team.spillSz := rfl
@[simp] theorem State.stall_team_spillBase (s : State) (w : Stall) : (s.stall w).team.spillBase = s.team.spillBase := rfl
@[simp] theorem State.stall_team_spillExt (s : State) (w : Stall) : (s.stall w).team.spillExt = s.team.spillExt := rfl
@[simp] theorem State.stall_team_sstack (s : State) (w : Stall) : (s.stall w).team.sstack = s.team.sstack := rfl
@[simp] theorem State.stall_team_badBuffers (s : State) (w : Stall) : (s.stall w).team.badBuffers = s.team.badBuffers := rfl
@[simp] theorem State.stall_team_lastIssue (s : State) (w : Stall) : (s.stall w).team.lastIssue = s.team.lastIssue := rfl
@[simp] theorem State.stall_team_lastSlotA (s : State) (w : Stall) : (s.stall w).team.lastSlotA = s.team.lastSlotA := rfl
@[simp] theorem State.stall_team_placed (s : State) (w : Stall) : (s.stall w).team.placed = s.team.placed := rfl
@[simp] theorem State.stall_team_srDue (s : State) (w : Stall) : (s.stall w).team.srDue = s.team.srDue := rfl
@[simp] theorem State.stall_team_engSeq (s : State) (w : Stall) : (s.stall w).team.engSeq = s.team.engSeq := rfl
@[simp] theorem State.stall_team_fenced (s : State) (w : Stall) : (s.stall w).team.fenced = s.team.fenced := rfl
@[simp] theorem State.stall_team_check (s : State) (w : Stall) : (s.stall w).team.check = s.team.check := rfl

/-! ### `issueDone` -/

@[simp] theorem State.issueDone_blk (s : State) : s.issueDone.blk = s.blk := rfl
@[simp] theorem State.issueDone_others (s : State) : s.issueDone.others = s.others := rfl
@[simp] theorem State.issueDone_blocks (s : State) : s.issueDone.blocks = s.blocks := rfl
@[simp] theorem State.issueDone_clusters (s : State) : s.issueDone.clusters = s.clusters := rfl
@[simp] theorem State.issueDone_launches (s : State) : s.issueDone.launches = s.launches := rfl
@[simp] theorem State.issueDone_cmds (s : State) : s.issueDone.cmds = s.cmds := rfl
@[simp] theorem State.issueDone_regions (s : State) : s.issueDone.regions = s.regions := rfl
@[simp] theorem State.issueDone_domains (s : State) : s.issueDone.domains = s.domains := rfl
@[simp] theorem State.issueDone_queues (s : State) : s.issueDone.queues = s.queues := rfl
@[simp] theorem State.issueDone_tapes (s : State) : s.issueDone.tapes = s.tapes := rfl
@[simp] theorem State.issueDone_slots (s : State) : s.issueDone.slots = s.slots := rfl
@[simp] theorem State.issueDone_hearths (s : State) : s.issueDone.hearths = s.hearths := rfl
@[simp] theorem State.issueDone_halted (s : State) : s.issueDone.halted = s.halted := rfl
@[simp] theorem State.issueDone_swapping (s : State) : s.issueDone.swapping = s.swapping := rfl
@[simp] theorem State.issueDone_cursor (s : State) : s.issueDone.cursor = s.cursor := rfl
@[simp] theorem State.issueDone_rrRegion (s : State) : s.issueDone.rrRegion = s.rrRegion := rfl
@[simp] theorem State.issueDone_records (s : State) : s.issueDone.records = s.records := rfl
@[simp] theorem State.issueDone_freeSteps (s : State) : s.issueDone.freeSteps = s.freeSteps := rfl
@[simp] theorem State.issueDone_leaveDebt (s : State) : s.issueDone.leaveDebt = s.leaveDebt := rfl
@[simp] theorem State.issueDone_hub (s : State) : s.issueDone.hub = s.hub := rfl
@[simp] theorem State.issueDone_amc (s : State) : s.issueDone.amc = s.amc := rfl
@[simp] theorem State.issueDone_caches (s : State) : s.issueDone.caches = s.caches := rfl
@[simp] theorem State.issueDone_mem (s : State) : s.issueDone.mem = s.mem := rfl
@[simp] theorem State.issueDone_memSide (s : State) : s.issueDone.memSide = s.memSide := rfl
@[simp] theorem State.issueDone_poison (s : State) : s.issueDone.poison = s.poison := rfl
@[simp] theorem State.issueDone_clk (s : State) : s.issueDone.clk = s.clk := rfl
@[simp] theorem State.issueDone_leaveWin (s : State) : s.issueDone.leaveWin = s.leaveWin := rfl
@[simp] theorem State.issueDone_nextId (s : State) : s.issueDone.nextId = s.nextId := rfl
@[simp] theorem State.issueDone_free (s : State) : s.issueDone.free = s.free := rfl
@[simp] theorem State.issueDone_lastOfClk (s : State) : s.issueDone.lastOfClk = s.lastOfClk := rfl
@[simp] theorem State.issueDone_iss (s : State) : s.issueDone.iss = s.iss := rfl
@[simp] theorem State.issueDone_arg (s : State) : s.issueDone.arg = s.arg := rfl
@[simp] theorem State.issueDone_agenda (s : State) : s.issueDone.agenda = s.agenda := rfl
@[simp] theorem State.issueDone_team_uid (s : State) : s.issueDone.team.uid = s.team.uid := rfl
@[simp] theorem State.issueDone_team_bid (s : State) : s.issueDone.team.bid = s.team.bid := rfl
@[simp] theorem State.issueDone_team_lid (s : State) : s.issueDone.team.lid = s.team.lid := rfl
@[simp] theorem State.issueDone_team_teamId (s : State) : s.issueDone.team.teamId = s.team.teamId := rfl
@[simp] theorem State.issueDone_team_tib (s : State) : s.issueDone.team.tib = s.team.tib := rfl
@[simp] theorem State.issueDone_team_size (s : State) : s.issueDone.team.size = s.team.size := rfl
@[simp] theorem State.issueDone_team_core (s : State) : s.issueDone.team.core = s.team.core := rfl
@[simp] theorem State.issueDone_team_section_ (s : State) : s.issueDone.team.section_ = s.team.section_ := rfl
@[simp] theorem State.issueDone_team_system (s : State) : s.issueDone.team.system = s.team.system := rfl
@[simp] theorem State.issueDone_team_rcb (s : State) : s.issueDone.team.rcb = s.team.rcb := rfl
@[simp] theorem State.issueDone_team_phase (s : State) : s.issueDone.team.phase = s.team.phase := rfl
@[simp] theorem State.issueDone_team_pc (s : State) : s.issueDone.team.pc = s.team.pc := rfl
@[simp] theorem State.issueDone_team_nextPlane (s : State) : s.issueDone.team.nextPlane = s.team.nextPlane := rfl
@[simp] theorem State.issueDone_team_lanes (s : State) : s.issueDone.team.lanes = s.team.lanes := rfl
@[simp] theorem State.issueDone_team_win (s : State) : s.issueDone.team.win = s.team.win := rfl
@[simp] theorem State.issueDone_team_regs (s : State) : s.issueDone.team.regs = s.team.regs := rfl
@[simp] theorem State.issueDone_team_sp (s : State) : s.issueDone.team.sp = s.team.sp := rfl
@[simp] theorem State.issueDone_team_trap (s : State) : s.issueDone.team.trap = s.team.trap := rfl
@[simp] theorem State.issueDone_team_looks (s : State) : s.issueDone.team.looks = s.team.looks := rfl
@[simp] theorem State.issueDone_team_loads (s : State) : s.issueDone.team.loads = s.team.loads := rfl
@[simp] theorem State.issueDone_team_nextLoad (s : State) : s.issueDone.team.nextLoad = s.team.nextLoad := rfl
@[simp] theorem State.issueDone_team_barA (s : State) : s.issueDone.team.barA = s.team.barA := rfl
@[simp] theorem State.issueDone_team_cbarA (s : State) : s.issueDone.team.cbarA = s.team.cbarA := rfl
@[simp] theorem State.issueDone_team_timeout (s : State) : s.issueDone.team.timeout = s.team.timeout := rfl
@[simp] theorem State.issueDone_team_mat (s : State) : s.issueDone.team.mat = s.team.mat := rfl
@[simp] theorem State.issueDone_team_pre (s : State) : s.issueDone.team.pre = s.team.pre := rfl
@[simp] theorem State.issueDone_team_fault (s : State) : s.issueDone.team.fault = s.team.fault := rfl
@[simp] theorem State.issueDone_team_fdStat (s : State) : s.issueDone.team.fdStat = s.team.fdStat := rfl
@[simp] theorem State.issueDone_team_fdArg (s : State) : s.issueDone.team.fdArg = s.team.fdArg := rfl
@[simp] theorem State.issueDone_team_reqSteps (s : State) : s.issueDone.team.reqSteps = s.team.reqSteps := rfl
@[simp] theorem State.issueDone_team_reqCopy (s : State) : s.issueDone.team.reqCopy = s.team.reqCopy := rfl
@[simp] theorem State.issueDone_team_tokSteps (s : State) : s.issueDone.team.tokSteps = s.team.tokSteps := rfl
@[simp] theorem State.issueDone_team_tokCopy (s : State) : s.issueDone.team.tokCopy = s.team.tokCopy := rfl
@[simp] theorem State.issueDone_team_granted (s : State) : s.issueDone.team.granted = s.team.granted := rfl
@[simp] theorem State.issueDone_team_spillSz (s : State) : s.issueDone.team.spillSz = s.team.spillSz := rfl
@[simp] theorem State.issueDone_team_spillBase (s : State) : s.issueDone.team.spillBase = s.team.spillBase := rfl
@[simp] theorem State.issueDone_team_spillExt (s : State) : s.issueDone.team.spillExt = s.team.spillExt := rfl
@[simp] theorem State.issueDone_team_sstack (s : State) : s.issueDone.team.sstack = s.team.sstack := rfl
@[simp] theorem State.issueDone_team_badBuffers (s : State) : s.issueDone.team.badBuffers = s.team.badBuffers := rfl
@[simp] theorem State.issueDone_team_placed (s : State) : s.issueDone.team.placed = s.team.placed := rfl
@[simp] theorem State.issueDone_team_srDue (s : State) : s.issueDone.team.srDue = s.team.srDue := rfl
@[simp] theorem State.issueDone_team_engSeq (s : State) : s.issueDone.team.engSeq = s.team.engSeq := rfl
@[simp] theorem State.issueDone_team_check (s : State) : s.issueDone.team.check = s.team.check := rfl

/-! ### `goTo` -/

@[simp] theorem State.goTo_blk (s : State) (pc : Word32) : (s.goTo pc).blk = s.blk := rfl
@[simp] theorem State.goTo_others (s : State) (pc : Word32) : (s.goTo pc).others = s.others := rfl
@[simp] theorem State.goTo_blocks (s : State) (pc : Word32) : (s.goTo pc).blocks = s.blocks := rfl
@[simp] theorem State.goTo_clusters (s : State) (pc : Word32) : (s.goTo pc).clusters = s.clusters := rfl
@[simp] theorem State.goTo_launches (s : State) (pc : Word32) : (s.goTo pc).launches = s.launches := rfl
@[simp] theorem State.goTo_cmds (s : State) (pc : Word32) : (s.goTo pc).cmds = s.cmds := rfl
@[simp] theorem State.goTo_regions (s : State) (pc : Word32) : (s.goTo pc).regions = s.regions := rfl
@[simp] theorem State.goTo_domains (s : State) (pc : Word32) : (s.goTo pc).domains = s.domains := rfl
@[simp] theorem State.goTo_queues (s : State) (pc : Word32) : (s.goTo pc).queues = s.queues := rfl
@[simp] theorem State.goTo_tapes (s : State) (pc : Word32) : (s.goTo pc).tapes = s.tapes := rfl
@[simp] theorem State.goTo_slots (s : State) (pc : Word32) : (s.goTo pc).slots = s.slots := rfl
@[simp] theorem State.goTo_hearths (s : State) (pc : Word32) : (s.goTo pc).hearths = s.hearths := rfl
@[simp] theorem State.goTo_halted (s : State) (pc : Word32) : (s.goTo pc).halted = s.halted := rfl
@[simp] theorem State.goTo_swapping (s : State) (pc : Word32) : (s.goTo pc).swapping = s.swapping := rfl
@[simp] theorem State.goTo_cursor (s : State) (pc : Word32) : (s.goTo pc).cursor = s.cursor := rfl
@[simp] theorem State.goTo_rrRegion (s : State) (pc : Word32) : (s.goTo pc).rrRegion = s.rrRegion := rfl
@[simp] theorem State.goTo_records (s : State) (pc : Word32) : (s.goTo pc).records = s.records := rfl
@[simp] theorem State.goTo_freeSteps (s : State) (pc : Word32) : (s.goTo pc).freeSteps = s.freeSteps := rfl
@[simp] theorem State.goTo_leaveDebt (s : State) (pc : Word32) : (s.goTo pc).leaveDebt = s.leaveDebt := rfl
@[simp] theorem State.goTo_hub (s : State) (pc : Word32) : (s.goTo pc).hub = s.hub := rfl
@[simp] theorem State.goTo_amc (s : State) (pc : Word32) : (s.goTo pc).amc = s.amc := rfl
@[simp] theorem State.goTo_caches (s : State) (pc : Word32) : (s.goTo pc).caches = s.caches := rfl
@[simp] theorem State.goTo_mem (s : State) (pc : Word32) : (s.goTo pc).mem = s.mem := rfl
@[simp] theorem State.goTo_memSide (s : State) (pc : Word32) : (s.goTo pc).memSide = s.memSide := rfl
@[simp] theorem State.goTo_poison (s : State) (pc : Word32) : (s.goTo pc).poison = s.poison := rfl
@[simp] theorem State.goTo_clk (s : State) (pc : Word32) : (s.goTo pc).clk = s.clk := rfl
@[simp] theorem State.goTo_leaveWin (s : State) (pc : Word32) : (s.goTo pc).leaveWin = s.leaveWin := rfl
@[simp] theorem State.goTo_nextId (s : State) (pc : Word32) : (s.goTo pc).nextId = s.nextId := rfl
@[simp] theorem State.goTo_free (s : State) (pc : Word32) : (s.goTo pc).free = s.free := rfl
@[simp] theorem State.goTo_lastOfClk (s : State) (pc : Word32) : (s.goTo pc).lastOfClk = s.lastOfClk := rfl
@[simp] theorem State.goTo_iss (s : State) (pc : Word32) : (s.goTo pc).iss = s.iss := rfl
@[simp] theorem State.goTo_arg (s : State) (pc : Word32) : (s.goTo pc).arg = s.arg := rfl
@[simp] theorem State.goTo_agenda (s : State) (pc : Word32) : (s.goTo pc).agenda = s.agenda := rfl
@[simp] theorem State.goTo_team_uid (s : State) (pc : Word32) : (s.goTo pc).team.uid = s.team.uid := rfl
@[simp] theorem State.goTo_team_bid (s : State) (pc : Word32) : (s.goTo pc).team.bid = s.team.bid := rfl
@[simp] theorem State.goTo_team_lid (s : State) (pc : Word32) : (s.goTo pc).team.lid = s.team.lid := rfl
@[simp] theorem State.goTo_team_teamId (s : State) (pc : Word32) : (s.goTo pc).team.teamId = s.team.teamId := rfl
@[simp] theorem State.goTo_team_tib (s : State) (pc : Word32) : (s.goTo pc).team.tib = s.team.tib := rfl
@[simp] theorem State.goTo_team_size (s : State) (pc : Word32) : (s.goTo pc).team.size = s.team.size := rfl
@[simp] theorem State.goTo_team_core (s : State) (pc : Word32) : (s.goTo pc).team.core = s.team.core := rfl
@[simp] theorem State.goTo_team_section_ (s : State) (pc : Word32) : (s.goTo pc).team.section_ = s.team.section_ := rfl
@[simp] theorem State.goTo_team_system (s : State) (pc : Word32) : (s.goTo pc).team.system = s.team.system := rfl
@[simp] theorem State.goTo_team_rcb (s : State) (pc : Word32) : (s.goTo pc).team.rcb = s.team.rcb := rfl
@[simp] theorem State.goTo_team_phase (s : State) (pc : Word32) : (s.goTo pc).team.phase = s.team.phase := rfl
@[simp] theorem State.goTo_team_lanes (s : State) (pc : Word32) : (s.goTo pc).team.lanes = s.team.lanes := rfl
@[simp] theorem State.goTo_team_win (s : State) (pc : Word32) : (s.goTo pc).team.win = s.team.win := rfl
@[simp] theorem State.goTo_team_regs (s : State) (pc : Word32) : (s.goTo pc).team.regs = s.team.regs := rfl
@[simp] theorem State.goTo_team_sp (s : State) (pc : Word32) : (s.goTo pc).team.sp = s.team.sp := rfl
@[simp] theorem State.goTo_team_trap (s : State) (pc : Word32) : (s.goTo pc).team.trap = s.team.trap := rfl
@[simp] theorem State.goTo_team_loads (s : State) (pc : Word32) : (s.goTo pc).team.loads = s.team.loads := rfl
@[simp] theorem State.goTo_team_nextLoad (s : State) (pc : Word32) : (s.goTo pc).team.nextLoad = s.team.nextLoad := rfl
@[simp] theorem State.goTo_team_barA (s : State) (pc : Word32) : (s.goTo pc).team.barA = s.team.barA := rfl
@[simp] theorem State.goTo_team_cbarA (s : State) (pc : Word32) : (s.goTo pc).team.cbarA = s.team.cbarA := rfl
@[simp] theorem State.goTo_team_timeout (s : State) (pc : Word32) : (s.goTo pc).team.timeout = s.team.timeout := rfl
@[simp] theorem State.goTo_team_mat (s : State) (pc : Word32) : (s.goTo pc).team.mat = s.team.mat := rfl
@[simp] theorem State.goTo_team_pre (s : State) (pc : Word32) : (s.goTo pc).team.pre = s.team.pre := rfl
@[simp] theorem State.goTo_team_fault (s : State) (pc : Word32) : (s.goTo pc).team.fault = s.team.fault := rfl
@[simp] theorem State.goTo_team_fdStat (s : State) (pc : Word32) : (s.goTo pc).team.fdStat = s.team.fdStat := rfl
@[simp] theorem State.goTo_team_fdArg (s : State) (pc : Word32) : (s.goTo pc).team.fdArg = s.team.fdArg := rfl
@[simp] theorem State.goTo_team_reqSteps (s : State) (pc : Word32) : (s.goTo pc).team.reqSteps = s.team.reqSteps := rfl
@[simp] theorem State.goTo_team_reqCopy (s : State) (pc : Word32) : (s.goTo pc).team.reqCopy = s.team.reqCopy := rfl
@[simp] theorem State.goTo_team_tokSteps (s : State) (pc : Word32) : (s.goTo pc).team.tokSteps = s.team.tokSteps := rfl
@[simp] theorem State.goTo_team_tokCopy (s : State) (pc : Word32) : (s.goTo pc).team.tokCopy = s.team.tokCopy := rfl
@[simp] theorem State.goTo_team_granted (s : State) (pc : Word32) : (s.goTo pc).team.granted = s.team.granted := rfl
@[simp] theorem State.goTo_team_spillSz (s : State) (pc : Word32) : (s.goTo pc).team.spillSz = s.team.spillSz := rfl
@[simp] theorem State.goTo_team_spillBase (s : State) (pc : Word32) : (s.goTo pc).team.spillBase = s.team.spillBase := rfl
@[simp] theorem State.goTo_team_spillExt (s : State) (pc : Word32) : (s.goTo pc).team.spillExt = s.team.spillExt := rfl
@[simp] theorem State.goTo_team_sstack (s : State) (pc : Word32) : (s.goTo pc).team.sstack = s.team.sstack := rfl
@[simp] theorem State.goTo_team_badBuffers (s : State) (pc : Word32) : (s.goTo pc).team.badBuffers = s.team.badBuffers := rfl
@[simp] theorem State.goTo_team_placed (s : State) (pc : Word32) : (s.goTo pc).team.placed = s.team.placed := rfl
@[simp] theorem State.goTo_team_engSeq (s : State) (pc : Word32) : (s.goTo pc).team.engSeq = s.team.engSeq := rfl
@[simp] theorem State.goTo_team_check (s : State) (pc : Word32) : (s.goTo pc).team.check = s.team.check := rfl

/-! ### `retireCtl` -/

@[simp] theorem State.retireCtl_blk (s : State) : s.retireCtl.blk = s.blk := rfl
@[simp] theorem State.retireCtl_others (s : State) : s.retireCtl.others = s.others := rfl
@[simp] theorem State.retireCtl_blocks (s : State) : s.retireCtl.blocks = s.blocks := rfl
@[simp] theorem State.retireCtl_clusters (s : State) : s.retireCtl.clusters = s.clusters := rfl
@[simp] theorem State.retireCtl_launches (s : State) : s.retireCtl.launches = s.launches := rfl
@[simp] theorem State.retireCtl_cmds (s : State) : s.retireCtl.cmds = s.cmds := rfl
@[simp] theorem State.retireCtl_regions (s : State) : s.retireCtl.regions = s.regions := rfl
@[simp] theorem State.retireCtl_domains (s : State) : s.retireCtl.domains = s.domains := rfl
@[simp] theorem State.retireCtl_queues (s : State) : s.retireCtl.queues = s.queues := rfl
@[simp] theorem State.retireCtl_tapes (s : State) : s.retireCtl.tapes = s.tapes := rfl
@[simp] theorem State.retireCtl_slots (s : State) : s.retireCtl.slots = s.slots := rfl
@[simp] theorem State.retireCtl_hearths (s : State) : s.retireCtl.hearths = s.hearths := rfl
@[simp] theorem State.retireCtl_halted (s : State) : s.retireCtl.halted = s.halted := rfl
@[simp] theorem State.retireCtl_swapping (s : State) : s.retireCtl.swapping = s.swapping := rfl
@[simp] theorem State.retireCtl_cursor (s : State) : s.retireCtl.cursor = s.cursor := rfl
@[simp] theorem State.retireCtl_rrRegion (s : State) : s.retireCtl.rrRegion = s.rrRegion := rfl
@[simp] theorem State.retireCtl_records (s : State) : s.retireCtl.records = s.records := rfl
@[simp] theorem State.retireCtl_freeSteps (s : State) : s.retireCtl.freeSteps = s.freeSteps := rfl
@[simp] theorem State.retireCtl_leaveDebt (s : State) : s.retireCtl.leaveDebt = s.leaveDebt := rfl
@[simp] theorem State.retireCtl_hub (s : State) : s.retireCtl.hub = s.hub := rfl
@[simp] theorem State.retireCtl_amc (s : State) : s.retireCtl.amc = s.amc := rfl
@[simp] theorem State.retireCtl_caches (s : State) : s.retireCtl.caches = s.caches := rfl
@[simp] theorem State.retireCtl_mem (s : State) : s.retireCtl.mem = s.mem := rfl
@[simp] theorem State.retireCtl_memSide (s : State) : s.retireCtl.memSide = s.memSide := rfl
@[simp] theorem State.retireCtl_poison (s : State) : s.retireCtl.poison = s.poison := rfl
@[simp] theorem State.retireCtl_clk (s : State) : s.retireCtl.clk = s.clk := rfl
@[simp] theorem State.retireCtl_leaveWin (s : State) : s.retireCtl.leaveWin = s.leaveWin := rfl
@[simp] theorem State.retireCtl_nextId (s : State) : s.retireCtl.nextId = s.nextId := rfl
@[simp] theorem State.retireCtl_free (s : State) : s.retireCtl.free = s.free := rfl
@[simp] theorem State.retireCtl_lastOfClk (s : State) : s.retireCtl.lastOfClk = s.lastOfClk := rfl
@[simp] theorem State.retireCtl_iss (s : State) : s.retireCtl.iss = s.iss := rfl
@[simp] theorem State.retireCtl_arg (s : State) : s.retireCtl.arg = s.arg := rfl
@[simp] theorem State.retireCtl_agenda (s : State) : s.retireCtl.agenda = s.agenda := rfl
@[simp] theorem State.retireCtl_team_uid (s : State) : s.retireCtl.team.uid = s.team.uid := rfl
@[simp] theorem State.retireCtl_team_bid (s : State) : s.retireCtl.team.bid = s.team.bid := rfl
@[simp] theorem State.retireCtl_team_lid (s : State) : s.retireCtl.team.lid = s.team.lid := rfl
@[simp] theorem State.retireCtl_team_teamId (s : State) : s.retireCtl.team.teamId = s.team.teamId := rfl
@[simp] theorem State.retireCtl_team_tib (s : State) : s.retireCtl.team.tib = s.team.tib := rfl
@[simp] theorem State.retireCtl_team_size (s : State) : s.retireCtl.team.size = s.team.size := rfl
@[simp] theorem State.retireCtl_team_core (s : State) : s.retireCtl.team.core = s.team.core := rfl
@[simp] theorem State.retireCtl_team_section_ (s : State) : s.retireCtl.team.section_ = s.team.section_ := rfl
@[simp] theorem State.retireCtl_team_system (s : State) : s.retireCtl.team.system = s.team.system := rfl
@[simp] theorem State.retireCtl_team_rcb (s : State) : s.retireCtl.team.rcb = s.team.rcb := rfl
@[simp] theorem State.retireCtl_team_phase (s : State) : s.retireCtl.team.phase = s.team.phase := rfl
@[simp] theorem State.retireCtl_team_lanes (s : State) : s.retireCtl.team.lanes = s.team.lanes := rfl
@[simp] theorem State.retireCtl_team_win (s : State) : s.retireCtl.team.win = s.team.win := rfl
@[simp] theorem State.retireCtl_team_regs (s : State) : s.retireCtl.team.regs = s.team.regs := rfl
@[simp] theorem State.retireCtl_team_sp (s : State) : s.retireCtl.team.sp = s.team.sp := rfl
@[simp] theorem State.retireCtl_team_trap (s : State) : s.retireCtl.team.trap = s.team.trap := rfl
@[simp] theorem State.retireCtl_team_loads (s : State) : s.retireCtl.team.loads = s.team.loads := rfl
@[simp] theorem State.retireCtl_team_nextLoad (s : State) : s.retireCtl.team.nextLoad = s.team.nextLoad := rfl
@[simp] theorem State.retireCtl_team_barA (s : State) : s.retireCtl.team.barA = s.team.barA := rfl
@[simp] theorem State.retireCtl_team_cbarA (s : State) : s.retireCtl.team.cbarA = s.team.cbarA := rfl
@[simp] theorem State.retireCtl_team_timeout (s : State) : s.retireCtl.team.timeout = s.team.timeout := rfl
@[simp] theorem State.retireCtl_team_mat (s : State) : s.retireCtl.team.mat = s.team.mat := rfl
@[simp] theorem State.retireCtl_team_pre (s : State) : s.retireCtl.team.pre = s.team.pre := rfl
@[simp] theorem State.retireCtl_team_fault (s : State) : s.retireCtl.team.fault = s.team.fault := rfl
@[simp] theorem State.retireCtl_team_fdStat (s : State) : s.retireCtl.team.fdStat = s.team.fdStat := rfl
@[simp] theorem State.retireCtl_team_fdArg (s : State) : s.retireCtl.team.fdArg = s.team.fdArg := rfl
@[simp] theorem State.retireCtl_team_reqSteps (s : State) : s.retireCtl.team.reqSteps = s.team.reqSteps := rfl
@[simp] theorem State.retireCtl_team_reqCopy (s : State) : s.retireCtl.team.reqCopy = s.team.reqCopy := rfl
@[simp] theorem State.retireCtl_team_tokSteps (s : State) : s.retireCtl.team.tokSteps = s.team.tokSteps := rfl
@[simp] theorem State.retireCtl_team_tokCopy (s : State) : s.retireCtl.team.tokCopy = s.team.tokCopy := rfl
@[simp] theorem State.retireCtl_team_granted (s : State) : s.retireCtl.team.granted = s.team.granted := rfl
@[simp] theorem State.retireCtl_team_spillSz (s : State) : s.retireCtl.team.spillSz = s.team.spillSz := rfl
@[simp] theorem State.retireCtl_team_spillBase (s : State) : s.retireCtl.team.spillBase = s.team.spillBase := rfl
@[simp] theorem State.retireCtl_team_spillExt (s : State) : s.retireCtl.team.spillExt = s.team.spillExt := rfl
@[simp] theorem State.retireCtl_team_sstack (s : State) : s.retireCtl.team.sstack = s.team.sstack := rfl
@[simp] theorem State.retireCtl_team_badBuffers (s : State) : s.retireCtl.team.badBuffers = s.team.badBuffers := rfl
@[simp] theorem State.retireCtl_team_placed (s : State) : s.retireCtl.team.placed = s.team.placed := rfl
@[simp] theorem State.retireCtl_team_engSeq (s : State) : s.retireCtl.team.engSeq = s.team.engSeq := rfl
@[simp] theorem State.retireCtl_team_check (s : State) : s.retireCtl.team.check = s.team.check := rfl

/-! ### `beginWait` -/

@[simp] theorem State.beginWait_blk (s : State) (ends : Bool) (w : Wait) : (s.beginWait ends w).blk = s.blk := rfl
@[simp] theorem State.beginWait_others (s : State) (ends : Bool) (w : Wait) : (s.beginWait ends w).others = s.others := rfl
@[simp] theorem State.beginWait_blocks (s : State) (ends : Bool) (w : Wait) : (s.beginWait ends w).blocks = s.blocks := rfl
@[simp] theorem State.beginWait_clusters (s : State) (ends : Bool) (w : Wait) : (s.beginWait ends w).clusters = s.clusters := rfl
@[simp] theorem State.beginWait_launches (s : State) (ends : Bool) (w : Wait) : (s.beginWait ends w).launches = s.launches := rfl
@[simp] theorem State.beginWait_cmds (s : State) (ends : Bool) (w : Wait) : (s.beginWait ends w).cmds = s.cmds := rfl
@[simp] theorem State.beginWait_regions (s : State) (ends : Bool) (w : Wait) : (s.beginWait ends w).regions = s.regions := rfl
@[simp] theorem State.beginWait_domains (s : State) (ends : Bool) (w : Wait) : (s.beginWait ends w).domains = s.domains := rfl
@[simp] theorem State.beginWait_queues (s : State) (ends : Bool) (w : Wait) : (s.beginWait ends w).queues = s.queues := rfl
@[simp] theorem State.beginWait_tapes (s : State) (ends : Bool) (w : Wait) : (s.beginWait ends w).tapes = s.tapes := rfl
@[simp] theorem State.beginWait_slots (s : State) (ends : Bool) (w : Wait) : (s.beginWait ends w).slots = s.slots := rfl
@[simp] theorem State.beginWait_hearths (s : State) (ends : Bool) (w : Wait) : (s.beginWait ends w).hearths = s.hearths := rfl
@[simp] theorem State.beginWait_halted (s : State) (ends : Bool) (w : Wait) : (s.beginWait ends w).halted = s.halted := rfl
@[simp] theorem State.beginWait_swapping (s : State) (ends : Bool) (w : Wait) : (s.beginWait ends w).swapping = s.swapping := rfl
@[simp] theorem State.beginWait_cursor (s : State) (ends : Bool) (w : Wait) : (s.beginWait ends w).cursor = s.cursor := rfl
@[simp] theorem State.beginWait_rrRegion (s : State) (ends : Bool) (w : Wait) : (s.beginWait ends w).rrRegion = s.rrRegion := rfl
@[simp] theorem State.beginWait_records (s : State) (ends : Bool) (w : Wait) : (s.beginWait ends w).records = s.records := rfl
@[simp] theorem State.beginWait_freeSteps (s : State) (ends : Bool) (w : Wait) : (s.beginWait ends w).freeSteps = s.freeSteps := rfl
@[simp] theorem State.beginWait_leaveDebt (s : State) (ends : Bool) (w : Wait) : (s.beginWait ends w).leaveDebt = s.leaveDebt := rfl
@[simp] theorem State.beginWait_hub (s : State) (ends : Bool) (w : Wait) : (s.beginWait ends w).hub = s.hub := rfl
@[simp] theorem State.beginWait_amc (s : State) (ends : Bool) (w : Wait) : (s.beginWait ends w).amc = s.amc := rfl
@[simp] theorem State.beginWait_caches (s : State) (ends : Bool) (w : Wait) : (s.beginWait ends w).caches = s.caches := rfl
@[simp] theorem State.beginWait_mem (s : State) (ends : Bool) (w : Wait) : (s.beginWait ends w).mem = s.mem := rfl
@[simp] theorem State.beginWait_memSide (s : State) (ends : Bool) (w : Wait) : (s.beginWait ends w).memSide = s.memSide := rfl
@[simp] theorem State.beginWait_poison (s : State) (ends : Bool) (w : Wait) : (s.beginWait ends w).poison = s.poison := rfl
@[simp] theorem State.beginWait_clk (s : State) (ends : Bool) (w : Wait) : (s.beginWait ends w).clk = s.clk := rfl
@[simp] theorem State.beginWait_leaveWin (s : State) (ends : Bool) (w : Wait) : (s.beginWait ends w).leaveWin = s.leaveWin := rfl
@[simp] theorem State.beginWait_nextId (s : State) (ends : Bool) (w : Wait) : (s.beginWait ends w).nextId = s.nextId := rfl
@[simp] theorem State.beginWait_free (s : State) (ends : Bool) (w : Wait) : (s.beginWait ends w).free = s.free := rfl
@[simp] theorem State.beginWait_lastOfClk (s : State) (ends : Bool) (w : Wait) : (s.beginWait ends w).lastOfClk = s.lastOfClk := rfl
@[simp] theorem State.beginWait_iss (s : State) (ends : Bool) (w : Wait) : (s.beginWait ends w).iss = s.iss := rfl
@[simp] theorem State.beginWait_arg (s : State) (ends : Bool) (w : Wait) : (s.beginWait ends w).arg = s.arg := rfl
@[simp] theorem State.beginWait_agenda (s : State) (ends : Bool) (w : Wait) : (s.beginWait ends w).agenda = s.agenda := rfl
@[simp] theorem State.beginWait_team_uid (s : State) (ends : Bool) (w : Wait) : (s.beginWait ends w).team.uid = s.team.uid := rfl
@[simp] theorem State.beginWait_team_bid (s : State) (ends : Bool) (w : Wait) : (s.beginWait ends w).team.bid = s.team.bid := rfl
@[simp] theorem State.beginWait_team_lid (s : State) (ends : Bool) (w : Wait) : (s.beginWait ends w).team.lid = s.team.lid := rfl
@[simp] theorem State.beginWait_team_teamId (s : State) (ends : Bool) (w : Wait) : (s.beginWait ends w).team.teamId = s.team.teamId := rfl
@[simp] theorem State.beginWait_team_tib (s : State) (ends : Bool) (w : Wait) : (s.beginWait ends w).team.tib = s.team.tib := rfl
@[simp] theorem State.beginWait_team_size (s : State) (ends : Bool) (w : Wait) : (s.beginWait ends w).team.size = s.team.size := rfl
@[simp] theorem State.beginWait_team_core (s : State) (ends : Bool) (w : Wait) : (s.beginWait ends w).team.core = s.team.core := rfl
@[simp] theorem State.beginWait_team_section_ (s : State) (ends : Bool) (w : Wait) : (s.beginWait ends w).team.section_ = s.team.section_ := rfl
@[simp] theorem State.beginWait_team_system (s : State) (ends : Bool) (w : Wait) : (s.beginWait ends w).team.system = s.team.system := rfl
@[simp] theorem State.beginWait_team_rcb (s : State) (ends : Bool) (w : Wait) : (s.beginWait ends w).team.rcb = s.team.rcb := rfl
@[simp] theorem State.beginWait_team_pc (s : State) (ends : Bool) (w : Wait) : (s.beginWait ends w).team.pc = s.team.pc := rfl
@[simp] theorem State.beginWait_team_nextPlane (s : State) (ends : Bool) (w : Wait) : (s.beginWait ends w).team.nextPlane = s.team.nextPlane := rfl
@[simp] theorem State.beginWait_team_lanes (s : State) (ends : Bool) (w : Wait) : (s.beginWait ends w).team.lanes = s.team.lanes := rfl
@[simp] theorem State.beginWait_team_win (s : State) (ends : Bool) (w : Wait) : (s.beginWait ends w).team.win = s.team.win := rfl
@[simp] theorem State.beginWait_team_regs (s : State) (ends : Bool) (w : Wait) : (s.beginWait ends w).team.regs = s.team.regs := rfl
@[simp] theorem State.beginWait_team_sp (s : State) (ends : Bool) (w : Wait) : (s.beginWait ends w).team.sp = s.team.sp := rfl
@[simp] theorem State.beginWait_team_trap (s : State) (ends : Bool) (w : Wait) : (s.beginWait ends w).team.trap = s.team.trap := rfl
@[simp] theorem State.beginWait_team_loads (s : State) (ends : Bool) (w : Wait) : (s.beginWait ends w).team.loads = s.team.loads := rfl
@[simp] theorem State.beginWait_team_nextLoad (s : State) (ends : Bool) (w : Wait) : (s.beginWait ends w).team.nextLoad = s.team.nextLoad := rfl
@[simp] theorem State.beginWait_team_barA (s : State) (ends : Bool) (w : Wait) : (s.beginWait ends w).team.barA = s.team.barA := rfl
@[simp] theorem State.beginWait_team_cbarA (s : State) (ends : Bool) (w : Wait) : (s.beginWait ends w).team.cbarA = s.team.cbarA := rfl
@[simp] theorem State.beginWait_team_timeout (s : State) (ends : Bool) (w : Wait) : (s.beginWait ends w).team.timeout = s.team.timeout := rfl
@[simp] theorem State.beginWait_team_mat (s : State) (ends : Bool) (w : Wait) : (s.beginWait ends w).team.mat = s.team.mat := rfl
@[simp] theorem State.beginWait_team_pre (s : State) (ends : Bool) (w : Wait) : (s.beginWait ends w).team.pre = s.team.pre := rfl
@[simp] theorem State.beginWait_team_fault (s : State) (ends : Bool) (w : Wait) : (s.beginWait ends w).team.fault = s.team.fault := rfl
@[simp] theorem State.beginWait_team_fdStat (s : State) (ends : Bool) (w : Wait) : (s.beginWait ends w).team.fdStat = s.team.fdStat := rfl
@[simp] theorem State.beginWait_team_fdArg (s : State) (ends : Bool) (w : Wait) : (s.beginWait ends w).team.fdArg = s.team.fdArg := rfl
@[simp] theorem State.beginWait_team_reqSteps (s : State) (ends : Bool) (w : Wait) : (s.beginWait ends w).team.reqSteps = s.team.reqSteps := rfl
@[simp] theorem State.beginWait_team_reqCopy (s : State) (ends : Bool) (w : Wait) : (s.beginWait ends w).team.reqCopy = s.team.reqCopy := rfl
@[simp] theorem State.beginWait_team_tokSteps (s : State) (ends : Bool) (w : Wait) : (s.beginWait ends w).team.tokSteps = s.team.tokSteps := rfl
@[simp] theorem State.beginWait_team_tokCopy (s : State) (ends : Bool) (w : Wait) : (s.beginWait ends w).team.tokCopy = s.team.tokCopy := rfl
@[simp] theorem State.beginWait_team_granted (s : State) (ends : Bool) (w : Wait) : (s.beginWait ends w).team.granted = s.team.granted := rfl
@[simp] theorem State.beginWait_team_spillSz (s : State) (ends : Bool) (w : Wait) : (s.beginWait ends w).team.spillSz = s.team.spillSz := rfl
@[simp] theorem State.beginWait_team_spillBase (s : State) (ends : Bool) (w : Wait) : (s.beginWait ends w).team.spillBase = s.team.spillBase := rfl
@[simp] theorem State.beginWait_team_spillExt (s : State) (ends : Bool) (w : Wait) : (s.beginWait ends w).team.spillExt = s.team.spillExt := rfl
@[simp] theorem State.beginWait_team_sstack (s : State) (ends : Bool) (w : Wait) : (s.beginWait ends w).team.sstack = s.team.sstack := rfl
@[simp] theorem State.beginWait_team_badBuffers (s : State) (ends : Bool) (w : Wait) : (s.beginWait ends w).team.badBuffers = s.team.badBuffers := rfl
@[simp] theorem State.beginWait_team_placed (s : State) (ends : Bool) (w : Wait) : (s.beginWait ends w).team.placed = s.team.placed := rfl
@[simp] theorem State.beginWait_team_srDue (s : State) (ends : Bool) (w : Wait) : (s.beginWait ends w).team.srDue = s.team.srDue := rfl
@[simp] theorem State.beginWait_team_engSeq (s : State) (ends : Bool) (w : Wait) : (s.beginWait ends w).team.engSeq = s.team.engSeq := rfl
@[simp] theorem State.beginWait_team_check (s : State) (ends : Bool) (w : Wait) : (s.beginWait ends w).team.check = s.team.check := rfl

/-! ### `retire` -/

@[simp] theorem State.retire_blk (s : State) : s.retire.blk = s.blk := by unfold State.retire; dsimp only; split <;> rfl
@[simp] theorem State.retire_others (s : State) : s.retire.others = s.others := by unfold State.retire; dsimp only; split <;> rfl
@[simp] theorem State.retire_blocks (s : State) : s.retire.blocks = s.blocks := by unfold State.retire; dsimp only; split <;> rfl
@[simp] theorem State.retire_clusters (s : State) : s.retire.clusters = s.clusters := by unfold State.retire; dsimp only; split <;> rfl
@[simp] theorem State.retire_launches (s : State) : s.retire.launches = s.launches := by unfold State.retire; dsimp only; split <;> rfl
@[simp] theorem State.retire_cmds (s : State) : s.retire.cmds = s.cmds := by unfold State.retire; dsimp only; split <;> rfl
@[simp] theorem State.retire_regions (s : State) : s.retire.regions = s.regions := by unfold State.retire; dsimp only; split <;> rfl
@[simp] theorem State.retire_domains (s : State) : s.retire.domains = s.domains := by unfold State.retire; dsimp only; split <;> rfl
@[simp] theorem State.retire_queues (s : State) : s.retire.queues = s.queues := by unfold State.retire; dsimp only; split <;> rfl
@[simp] theorem State.retire_tapes (s : State) : s.retire.tapes = s.tapes := by unfold State.retire; dsimp only; split <;> rfl
@[simp] theorem State.retire_slots (s : State) : s.retire.slots = s.slots := by unfold State.retire; dsimp only; split <;> rfl
@[simp] theorem State.retire_hearths (s : State) : s.retire.hearths = s.hearths := by unfold State.retire; dsimp only; split <;> rfl
@[simp] theorem State.retire_halted (s : State) : s.retire.halted = s.halted := by unfold State.retire; dsimp only; split <;> rfl
@[simp] theorem State.retire_swapping (s : State) : s.retire.swapping = s.swapping := by unfold State.retire; dsimp only; split <;> rfl
@[simp] theorem State.retire_cursor (s : State) : s.retire.cursor = s.cursor := by unfold State.retire; dsimp only; split <;> rfl
@[simp] theorem State.retire_rrRegion (s : State) : s.retire.rrRegion = s.rrRegion := by unfold State.retire; dsimp only; split <;> rfl
@[simp] theorem State.retire_records (s : State) : s.retire.records = s.records := by unfold State.retire; dsimp only; split <;> rfl
@[simp] theorem State.retire_freeSteps (s : State) : s.retire.freeSteps = s.freeSteps := by unfold State.retire; dsimp only; split <;> rfl
@[simp] theorem State.retire_leaveDebt (s : State) : s.retire.leaveDebt = s.leaveDebt := by unfold State.retire; dsimp only; split <;> rfl
@[simp] theorem State.retire_hub (s : State) : s.retire.hub = s.hub := by unfold State.retire; dsimp only; split <;> rfl
@[simp] theorem State.retire_amc (s : State) : s.retire.amc = s.amc := by unfold State.retire; dsimp only; split <;> rfl
@[simp] theorem State.retire_caches (s : State) : s.retire.caches = s.caches := by unfold State.retire; dsimp only; split <;> rfl
@[simp] theorem State.retire_mem (s : State) : s.retire.mem = s.mem := by unfold State.retire; dsimp only; split <;> rfl
@[simp] theorem State.retire_memSide (s : State) : s.retire.memSide = s.memSide := by unfold State.retire; dsimp only; split <;> rfl
@[simp] theorem State.retire_poison (s : State) : s.retire.poison = s.poison := by unfold State.retire; dsimp only; split <;> rfl
@[simp] theorem State.retire_clk (s : State) : s.retire.clk = s.clk := by unfold State.retire; dsimp only; split <;> rfl
@[simp] theorem State.retire_leaveWin (s : State) : s.retire.leaveWin = s.leaveWin := by unfold State.retire; dsimp only; split <;> rfl
@[simp] theorem State.retire_nextId (s : State) : s.retire.nextId = s.nextId := by unfold State.retire; dsimp only; split <;> rfl
@[simp] theorem State.retire_free (s : State) : s.retire.free = s.free := by unfold State.retire; dsimp only; split <;> rfl
@[simp] theorem State.retire_lastOfClk (s : State) : s.retire.lastOfClk = s.lastOfClk := by unfold State.retire; dsimp only; split <;> rfl
@[simp] theorem State.retire_iss (s : State) : s.retire.iss = s.iss := by unfold State.retire; dsimp only; split <;> rfl
@[simp] theorem State.retire_arg (s : State) : s.retire.arg = s.arg := by unfold State.retire; dsimp only; split <;> rfl
@[simp] theorem State.retire_agenda (s : State) : s.retire.agenda = s.agenda := by unfold State.retire; dsimp only; split <;> rfl
@[simp] theorem State.retire_team_uid (s : State) : s.retire.team.uid = s.team.uid := by unfold State.retire; dsimp only; split <;> rfl
@[simp] theorem State.retire_team_bid (s : State) : s.retire.team.bid = s.team.bid := by unfold State.retire; dsimp only; split <;> rfl
@[simp] theorem State.retire_team_lid (s : State) : s.retire.team.lid = s.team.lid := by unfold State.retire; dsimp only; split <;> rfl
@[simp] theorem State.retire_team_teamId (s : State) : s.retire.team.teamId = s.team.teamId := by unfold State.retire; dsimp only; split <;> rfl
@[simp] theorem State.retire_team_tib (s : State) : s.retire.team.tib = s.team.tib := by unfold State.retire; dsimp only; split <;> rfl
@[simp] theorem State.retire_team_size (s : State) : s.retire.team.size = s.team.size := by unfold State.retire; dsimp only; split <;> rfl
@[simp] theorem State.retire_team_core (s : State) : s.retire.team.core = s.team.core := by unfold State.retire; dsimp only; split <;> rfl
@[simp] theorem State.retire_team_section_ (s : State) : s.retire.team.section_ = s.team.section_ := by unfold State.retire; dsimp only; split <;> rfl
@[simp] theorem State.retire_team_system (s : State) : s.retire.team.system = s.team.system := by unfold State.retire; dsimp only; split <;> rfl
@[simp] theorem State.retire_team_rcb (s : State) : s.retire.team.rcb = s.team.rcb := by unfold State.retire; dsimp only; split <;> rfl
@[simp] theorem State.retire_team_phase (s : State) : s.retire.team.phase = s.team.phase := by unfold State.retire; dsimp only; split <;> rfl
@[simp] theorem State.retire_team_lanes (s : State) : s.retire.team.lanes = s.team.lanes := by unfold State.retire; dsimp only; split <;> rfl
@[simp] theorem State.retire_team_win (s : State) : s.retire.team.win = s.team.win := by unfold State.retire; dsimp only; split <;> rfl
@[simp] theorem State.retire_team_regs (s : State) : s.retire.team.regs = s.team.regs := by unfold State.retire; dsimp only; split <;> rfl
@[simp] theorem State.retire_team_trap (s : State) : s.retire.team.trap = s.team.trap := by unfold State.retire; dsimp only; split <;> rfl
@[simp] theorem State.retire_team_loads (s : State) : s.retire.team.loads = s.team.loads := by unfold State.retire; dsimp only; split <;> rfl
@[simp] theorem State.retire_team_nextLoad (s : State) : s.retire.team.nextLoad = s.team.nextLoad := by unfold State.retire; dsimp only; split <;> rfl
@[simp] theorem State.retire_team_barA (s : State) : s.retire.team.barA = s.team.barA := by unfold State.retire; dsimp only; split <;> rfl
@[simp] theorem State.retire_team_cbarA (s : State) : s.retire.team.cbarA = s.team.cbarA := by unfold State.retire; dsimp only; split <;> rfl
@[simp] theorem State.retire_team_timeout (s : State) : s.retire.team.timeout = s.team.timeout := by unfold State.retire; dsimp only; split <;> rfl
@[simp] theorem State.retire_team_mat (s : State) : s.retire.team.mat = s.team.mat := by unfold State.retire; dsimp only; split <;> rfl
@[simp] theorem State.retire_team_pre (s : State) : s.retire.team.pre = s.team.pre := by unfold State.retire; dsimp only; split <;> rfl
@[simp] theorem State.retire_team_fault (s : State) : s.retire.team.fault = s.team.fault := by unfold State.retire; dsimp only; split <;> rfl
@[simp] theorem State.retire_team_fdStat (s : State) : s.retire.team.fdStat = s.team.fdStat := by unfold State.retire; dsimp only; split <;> rfl
@[simp] theorem State.retire_team_fdArg (s : State) : s.retire.team.fdArg = s.team.fdArg := by unfold State.retire; dsimp only; split <;> rfl
@[simp] theorem State.retire_team_reqSteps (s : State) : s.retire.team.reqSteps = s.team.reqSteps := by unfold State.retire; dsimp only; split <;> rfl
@[simp] theorem State.retire_team_reqCopy (s : State) : s.retire.team.reqCopy = s.team.reqCopy := by unfold State.retire; dsimp only; split <;> rfl
@[simp] theorem State.retire_team_tokSteps (s : State) : s.retire.team.tokSteps = s.team.tokSteps := by unfold State.retire; dsimp only; split <;> rfl
@[simp] theorem State.retire_team_tokCopy (s : State) : s.retire.team.tokCopy = s.team.tokCopy := by unfold State.retire; dsimp only; split <;> rfl
@[simp] theorem State.retire_team_granted (s : State) : s.retire.team.granted = s.team.granted := by unfold State.retire; dsimp only; split <;> rfl
@[simp] theorem State.retire_team_spillSz (s : State) : s.retire.team.spillSz = s.team.spillSz := by unfold State.retire; dsimp only; split <;> rfl
@[simp] theorem State.retire_team_spillBase (s : State) : s.retire.team.spillBase = s.team.spillBase := by unfold State.retire; dsimp only; split <;> rfl
@[simp] theorem State.retire_team_spillExt (s : State) : s.retire.team.spillExt = s.team.spillExt := by unfold State.retire; dsimp only; split <;> rfl
@[simp] theorem State.retire_team_sstack (s : State) : s.retire.team.sstack = s.team.sstack := by unfold State.retire; dsimp only; split <;> rfl
@[simp] theorem State.retire_team_badBuffers (s : State) : s.retire.team.badBuffers = s.team.badBuffers := by unfold State.retire; dsimp only; split <;> rfl
@[simp] theorem State.retire_team_placed (s : State) : s.retire.team.placed = s.team.placed := by unfold State.retire; dsimp only; split <;> rfl
@[simp] theorem State.retire_team_engSeq (s : State) : s.retire.team.engSeq = s.team.engSeq := by unfold State.retire; dsimp only; split <;> rfl
@[simp] theorem State.retire_team_check (s : State) : s.retire.team.check = s.team.check := by unfold State.retire; dsimp only; split <;> rfl

/-! ### `retireSr` -/

@[simp] theorem State.retireSr_blk (s : State) : s.retireSr.blk = s.blk := by unfold State.retireSr State.retire; dsimp only; split <;> rfl
@[simp] theorem State.retireSr_others (s : State) : s.retireSr.others = s.others := by unfold State.retireSr State.retire; dsimp only; split <;> rfl
@[simp] theorem State.retireSr_blocks (s : State) : s.retireSr.blocks = s.blocks := by unfold State.retireSr State.retire; dsimp only; split <;> rfl
@[simp] theorem State.retireSr_clusters (s : State) : s.retireSr.clusters = s.clusters := by unfold State.retireSr State.retire; dsimp only; split <;> rfl
@[simp] theorem State.retireSr_launches (s : State) : s.retireSr.launches = s.launches := by unfold State.retireSr State.retire; dsimp only; split <;> rfl
@[simp] theorem State.retireSr_cmds (s : State) : s.retireSr.cmds = s.cmds := by unfold State.retireSr State.retire; dsimp only; split <;> rfl
@[simp] theorem State.retireSr_regions (s : State) : s.retireSr.regions = s.regions := by unfold State.retireSr State.retire; dsimp only; split <;> rfl
@[simp] theorem State.retireSr_domains (s : State) : s.retireSr.domains = s.domains := by unfold State.retireSr State.retire; dsimp only; split <;> rfl
@[simp] theorem State.retireSr_queues (s : State) : s.retireSr.queues = s.queues := by unfold State.retireSr State.retire; dsimp only; split <;> rfl
@[simp] theorem State.retireSr_tapes (s : State) : s.retireSr.tapes = s.tapes := by unfold State.retireSr State.retire; dsimp only; split <;> rfl
@[simp] theorem State.retireSr_slots (s : State) : s.retireSr.slots = s.slots := by unfold State.retireSr State.retire; dsimp only; split <;> rfl
@[simp] theorem State.retireSr_hearths (s : State) : s.retireSr.hearths = s.hearths := by unfold State.retireSr State.retire; dsimp only; split <;> rfl
@[simp] theorem State.retireSr_halted (s : State) : s.retireSr.halted = s.halted := by unfold State.retireSr State.retire; dsimp only; split <;> rfl
@[simp] theorem State.retireSr_swapping (s : State) : s.retireSr.swapping = s.swapping := by unfold State.retireSr State.retire; dsimp only; split <;> rfl
@[simp] theorem State.retireSr_cursor (s : State) : s.retireSr.cursor = s.cursor := by unfold State.retireSr State.retire; dsimp only; split <;> rfl
@[simp] theorem State.retireSr_rrRegion (s : State) : s.retireSr.rrRegion = s.rrRegion := by unfold State.retireSr State.retire; dsimp only; split <;> rfl
@[simp] theorem State.retireSr_records (s : State) : s.retireSr.records = s.records := by unfold State.retireSr State.retire; dsimp only; split <;> rfl
@[simp] theorem State.retireSr_freeSteps (s : State) : s.retireSr.freeSteps = s.freeSteps := by unfold State.retireSr State.retire; dsimp only; split <;> rfl
@[simp] theorem State.retireSr_leaveDebt (s : State) : s.retireSr.leaveDebt = s.leaveDebt := by unfold State.retireSr State.retire; dsimp only; split <;> rfl
@[simp] theorem State.retireSr_hub (s : State) : s.retireSr.hub = s.hub := by unfold State.retireSr State.retire; dsimp only; split <;> rfl
@[simp] theorem State.retireSr_amc (s : State) : s.retireSr.amc = s.amc := by unfold State.retireSr State.retire; dsimp only; split <;> rfl
@[simp] theorem State.retireSr_caches (s : State) : s.retireSr.caches = s.caches := by unfold State.retireSr State.retire; dsimp only; split <;> rfl
@[simp] theorem State.retireSr_mem (s : State) : s.retireSr.mem = s.mem := by unfold State.retireSr State.retire; dsimp only; split <;> rfl
@[simp] theorem State.retireSr_memSide (s : State) : s.retireSr.memSide = s.memSide := by unfold State.retireSr State.retire; dsimp only; split <;> rfl
@[simp] theorem State.retireSr_poison (s : State) : s.retireSr.poison = s.poison := by unfold State.retireSr State.retire; dsimp only; split <;> rfl
@[simp] theorem State.retireSr_clk (s : State) : s.retireSr.clk = s.clk := by unfold State.retireSr State.retire; dsimp only; split <;> rfl
@[simp] theorem State.retireSr_leaveWin (s : State) : s.retireSr.leaveWin = s.leaveWin := by unfold State.retireSr State.retire; dsimp only; split <;> rfl
@[simp] theorem State.retireSr_nextId (s : State) : s.retireSr.nextId = s.nextId := by unfold State.retireSr State.retire; dsimp only; split <;> rfl
@[simp] theorem State.retireSr_free (s : State) : s.retireSr.free = s.free := by unfold State.retireSr State.retire; dsimp only; split <;> rfl
@[simp] theorem State.retireSr_lastOfClk (s : State) : s.retireSr.lastOfClk = s.lastOfClk := by unfold State.retireSr State.retire; dsimp only; split <;> rfl
@[simp] theorem State.retireSr_iss (s : State) : s.retireSr.iss = s.iss := by unfold State.retireSr State.retire; dsimp only; split <;> rfl
@[simp] theorem State.retireSr_arg (s : State) : s.retireSr.arg = s.arg := by unfold State.retireSr State.retire; dsimp only; split <;> rfl
@[simp] theorem State.retireSr_agenda (s : State) : s.retireSr.agenda = s.agenda := by unfold State.retireSr State.retire; dsimp only; split <;> rfl
@[simp] theorem State.retireSr_team_uid (s : State) : s.retireSr.team.uid = s.team.uid := by unfold State.retireSr State.retire; dsimp only; split <;> rfl
@[simp] theorem State.retireSr_team_bid (s : State) : s.retireSr.team.bid = s.team.bid := by unfold State.retireSr State.retire; dsimp only; split <;> rfl
@[simp] theorem State.retireSr_team_lid (s : State) : s.retireSr.team.lid = s.team.lid := by unfold State.retireSr State.retire; dsimp only; split <;> rfl
@[simp] theorem State.retireSr_team_teamId (s : State) : s.retireSr.team.teamId = s.team.teamId := by unfold State.retireSr State.retire; dsimp only; split <;> rfl
@[simp] theorem State.retireSr_team_tib (s : State) : s.retireSr.team.tib = s.team.tib := by unfold State.retireSr State.retire; dsimp only; split <;> rfl
@[simp] theorem State.retireSr_team_size (s : State) : s.retireSr.team.size = s.team.size := by unfold State.retireSr State.retire; dsimp only; split <;> rfl
@[simp] theorem State.retireSr_team_core (s : State) : s.retireSr.team.core = s.team.core := by unfold State.retireSr State.retire; dsimp only; split <;> rfl
@[simp] theorem State.retireSr_team_section_ (s : State) : s.retireSr.team.section_ = s.team.section_ := by unfold State.retireSr State.retire; dsimp only; split <;> rfl
@[simp] theorem State.retireSr_team_system (s : State) : s.retireSr.team.system = s.team.system := by unfold State.retireSr State.retire; dsimp only; split <;> rfl
@[simp] theorem State.retireSr_team_rcb (s : State) : s.retireSr.team.rcb = s.team.rcb := by unfold State.retireSr State.retire; dsimp only; split <;> rfl
@[simp] theorem State.retireSr_team_phase (s : State) : s.retireSr.team.phase = s.team.phase := by unfold State.retireSr State.retire; dsimp only; split <;> rfl
@[simp] theorem State.retireSr_team_lanes (s : State) : s.retireSr.team.lanes = s.team.lanes := by unfold State.retireSr State.retire; dsimp only; split <;> rfl
@[simp] theorem State.retireSr_team_win (s : State) : s.retireSr.team.win = s.team.win := by unfold State.retireSr State.retire; dsimp only; split <;> rfl
@[simp] theorem State.retireSr_team_regs (s : State) : s.retireSr.team.regs = s.team.regs := by unfold State.retireSr State.retire; dsimp only; split <;> rfl
@[simp] theorem State.retireSr_team_trap (s : State) : s.retireSr.team.trap = s.team.trap := by unfold State.retireSr State.retire; dsimp only; split <;> rfl
@[simp] theorem State.retireSr_team_loads (s : State) : s.retireSr.team.loads = s.team.loads := by unfold State.retireSr State.retire; dsimp only; split <;> rfl
@[simp] theorem State.retireSr_team_nextLoad (s : State) : s.retireSr.team.nextLoad = s.team.nextLoad := by unfold State.retireSr State.retire; dsimp only; split <;> rfl
@[simp] theorem State.retireSr_team_barA (s : State) : s.retireSr.team.barA = s.team.barA := by unfold State.retireSr State.retire; dsimp only; split <;> rfl
@[simp] theorem State.retireSr_team_cbarA (s : State) : s.retireSr.team.cbarA = s.team.cbarA := by unfold State.retireSr State.retire; dsimp only; split <;> rfl
@[simp] theorem State.retireSr_team_timeout (s : State) : s.retireSr.team.timeout = s.team.timeout := by unfold State.retireSr State.retire; dsimp only; split <;> rfl
@[simp] theorem State.retireSr_team_mat (s : State) : s.retireSr.team.mat = s.team.mat := by unfold State.retireSr State.retire; dsimp only; split <;> rfl
@[simp] theorem State.retireSr_team_pre (s : State) : s.retireSr.team.pre = s.team.pre := by unfold State.retireSr State.retire; dsimp only; split <;> rfl
@[simp] theorem State.retireSr_team_fault (s : State) : s.retireSr.team.fault = s.team.fault := by unfold State.retireSr State.retire; dsimp only; split <;> rfl
@[simp] theorem State.retireSr_team_fdStat (s : State) : s.retireSr.team.fdStat = s.team.fdStat := by unfold State.retireSr State.retire; dsimp only; split <;> rfl
@[simp] theorem State.retireSr_team_fdArg (s : State) : s.retireSr.team.fdArg = s.team.fdArg := by unfold State.retireSr State.retire; dsimp only; split <;> rfl
@[simp] theorem State.retireSr_team_reqSteps (s : State) : s.retireSr.team.reqSteps = s.team.reqSteps := by unfold State.retireSr State.retire; dsimp only; split <;> rfl
@[simp] theorem State.retireSr_team_reqCopy (s : State) : s.retireSr.team.reqCopy = s.team.reqCopy := by unfold State.retireSr State.retire; dsimp only; split <;> rfl
@[simp] theorem State.retireSr_team_tokSteps (s : State) : s.retireSr.team.tokSteps = s.team.tokSteps := by unfold State.retireSr State.retire; dsimp only; split <;> rfl
@[simp] theorem State.retireSr_team_tokCopy (s : State) : s.retireSr.team.tokCopy = s.team.tokCopy := by unfold State.retireSr State.retire; dsimp only; split <;> rfl
@[simp] theorem State.retireSr_team_granted (s : State) : s.retireSr.team.granted = s.team.granted := by unfold State.retireSr State.retire; dsimp only; split <;> rfl
@[simp] theorem State.retireSr_team_spillSz (s : State) : s.retireSr.team.spillSz = s.team.spillSz := by unfold State.retireSr State.retire; dsimp only; split <;> rfl
@[simp] theorem State.retireSr_team_spillBase (s : State) : s.retireSr.team.spillBase = s.team.spillBase := by unfold State.retireSr State.retire; dsimp only; split <;> rfl
@[simp] theorem State.retireSr_team_spillExt (s : State) : s.retireSr.team.spillExt = s.team.spillExt := by unfold State.retireSr State.retire; dsimp only; split <;> rfl
@[simp] theorem State.retireSr_team_sstack (s : State) : s.retireSr.team.sstack = s.team.sstack := by unfold State.retireSr State.retire; dsimp only; split <;> rfl
@[simp] theorem State.retireSr_team_badBuffers (s : State) : s.retireSr.team.badBuffers = s.team.badBuffers := by unfold State.retireSr State.retire; dsimp only; split <;> rfl
@[simp] theorem State.retireSr_team_placed (s : State) : s.retireSr.team.placed = s.team.placed := by unfold State.retireSr State.retire; dsimp only; split <;> rfl
@[simp] theorem State.retireSr_team_engSeq (s : State) : s.retireSr.team.engSeq = s.team.engSeq := by unfold State.retireSr State.retire; dsimp only; split <;> rfl
@[simp] theorem State.retireSr_team_check (s : State) : s.retireSr.team.check = s.team.check := by unfold State.retireSr State.retire; dsimp only; split <;> rfl

/-! ### What they change -/

@[simp] theorem State.withRegs_team_regs (s : State) (r : Regs) : (s.withRegs r).team.regs = r := rfl
@[simp] theorem State.withSp_team_sp (s : State) (x : Special) : (s.withSp x).team.sp = x := rfl
@[simp] theorem State.withWin_team_win (s : State) (w : Window) : (s.withWin w).team.win = w := rfl
@[simp] theorem State.withLanes_team_lanes (s : State) (l : Lanes) : (s.withLanes l).team.lanes = l := rfl
@[simp] theorem State.withMat_team_mat (s : State) (m : Matrix) : (s.withMat m).team.mat = m := rfl
@[simp] theorem State.withPhase_team_phase (s : State) (p : Phase) : (s.withPhase p).team.phase = p := rfl
@[simp] theorem State.stall_team_phase (s : State) (w : Stall) : (s.stall w).team.phase = .stalled w := rfl
@[simp] theorem State.raise_team_sticky (s : State) (f : Byte) :
    (s.raise f).team.sp.sticky = s.team.sp.sticky ||| f := rfl
@[simp] theorem State.issueDone_issued (s : State) : s.issueDone.issued = s.issued + 1 := rfl
@[simp] theorem State.issueDone_team_fenced (s : State) : s.issueDone.team.fenced = false := rfl
@[simp] theorem State.goTo_team_pc (s : State) (pc : Word32) : (s.goTo pc).team.pc = pc := rfl
@[simp] theorem State.goTo_team_looks (s : State) (pc : Word32) : (s.goTo pc).team.looks = [] := rfl
@[simp] theorem State.retireCtl_team_pc (s : State) : s.retireCtl.team.pc = s.nextPc := rfl
@[simp] theorem State.beginWait_team_phase (s : State) (e : Bool) (w : Wait) :
    (s.beginWait e w).team.phase = .waiting w := rfl

/-- `retire` with no plane left goes on after the instruction (R171). -/
theorem State.retire_team_pc (s : State) (h : s.iss.next = none) : s.retire.team.pc = s.nextPc := by
  simp [State.retire, State.issueDone, State.nextPc, Team.leaveOffset, h]

/-- `retire` with a plane left stays at the offset (R71). -/
theorem State.retire_team_plane (s : State) (k : Nat) (h : s.iss.next = some k) :
    s.retire.team.pc = s.team.pc ∧ s.retire.team.nextPlane = k := by
  simp [State.retire, State.issueDone, h]

end Sys2Proof.Machine
end

