-- ==== Sys2Proof/Laws/Store.lean ====
section
/-!
SUPPORT. The laws of the sparse stores: reading after a write, and the canonical form that every write keeps.
-/
namespace Sys2Proof.Machine

variable {α : Type} {d : α}

/-! ### Reading -/

theorem smGet_nil (k : Nat) : smGet d [] k = d := rfl

theorem smGet_of_smAbove {m : SMap α} {lo k : Nat} (h : smAbove lo m = true) (hk : k ≤ lo) : smGet d m k = d := by
  cases m with
  | nil => rfl
  | cons e m =>
    have hlo : lo < e.1 := by simpa [smAbove] using h
    have h1 : k ≠ e.1 := by omega
    have h2 : k < e.1 := by omega
    simp [smGet, h1, h2]

/-! ### The canonical form -/

theorem smAbove_mono {lo lo' : Nat} {m : SMap α} (h : smAbove lo m = true) (hl : lo' ≤ lo) : smAbove lo' m = true := by
  cases m with
  | nil => rfl
  | cons e m =>
    have : lo < e.1 := by simpa [smAbove] using h
    simp only [smAbove, decide_eq_true_eq]
    omega

variable [DecidableEq α]

theorem smWf_cons {k : Nat} {x : α} {m : SMap α} :
    smWf d ((k, x) :: m) = true ↔ x ≠ d ∧ smAbove k m = true ∧ smWf d m = true := by
  simp [smWf, and_assoc]

theorem smAbove_smSet {m : SMap α} {lo k : Nat} {x : α} (h : smWf d m = true) (ha : smAbove lo m = true)
    (hk : lo < k) : smAbove lo (smSet d m k x) = true := by
  cases m with
  | nil => simp only [smSet]; split <;> simp [smAbove, hk]
  | cons e m =>
    obtain ⟨k', y⟩ := e
    have hlo : lo < k' := by simpa [smAbove] using ha
    have hm := (smWf_cons.mp h).2.1
    simp only [smSet]
    split
    · split
      · exact smAbove_mono hm (Nat.le_of_lt hlo)
      · simp [smAbove, hk]
    · split
      · split <;> simp [smAbove, hk, hlo]
      · simp [smAbove, hlo]

theorem smWf_smSet {m : SMap α} (h : smWf d m = true) (k : Nat) (x : α) : smWf d (smSet d m k x) = true := by
  induction m with
  | nil => by_cases hx : x = d <;> simp [smSet, smWf, smAbove, hx]
  | cons e m ih =>
    obtain ⟨k', y⟩ := e
    obtain ⟨hy, ha, hm⟩ := smWf_cons.mp h
    simp only [smSet]
    split
    · rename_i hk
      split
      · exact hm
      · rename_i hx
        exact smWf_cons.mpr ⟨hx, hk ▸ ha, hm⟩
    · rename_i hk
      split
      · rename_i hlt
        split
        · exact h
        · rename_i hx
          exact smWf_cons.mpr ⟨hx, by simp [smAbove, hlt], h⟩
      · rename_i hlt
        exact smWf_cons.mpr ⟨hy, smAbove_smSet hm ha (by omega), ih hm⟩

/-! ### Reading after a write -/

theorem smGet_smSet_self {m : SMap α} (h : smWf d m = true) (k : Nat) (x : α) : smGet d (smSet d m k x) k = x := by
  induction m with
  | nil => by_cases hx : x = d <;> simp [smSet, smGet, hx]
  | cons e m ih =>
    obtain ⟨k', y⟩ := e
    obtain ⟨-, ha, hm⟩ := smWf_cons.mp h
    simp only [smSet]
    split
    · rename_i hk
      split
      · rename_i hx
        rw [hx]
        exact smGet_of_smAbove ha (Nat.le_of_eq hk)
      · simp [smGet]
    · rename_i hk
      split
      · rename_i hlt
        split
        · rename_i hx
          simp [smGet, hk, hlt, hx]
        · simp [smGet]
      · rename_i hlt
        simp [smGet, hk, hlt, ih hm]

theorem smGet_smSet_ne {m : SMap α} (h : smWf d m = true) {k j : Nat} (x : α) (hj : j ≠ k) :
    smGet d (smSet d m k x) j = smGet d m j := by
  induction m with
  | nil =>
    by_cases hx : x = d
    · simp [smSet, hx]
    · simp [smSet, smGet, hx, hj]
  | cons e m ih =>
    obtain ⟨k', y⟩ := e
    obtain ⟨-, ha, hm⟩ := smWf_cons.mp h
    simp only [smSet]
    split
    · rename_i hk
      subst hk
      split
      · by_cases hlt : j < k
        · simp [smGet, hj, hlt, smGet_of_smAbove ha (Nat.le_of_lt hlt)]
        · simp [smGet, hj, hlt]
      · simp [smGet, hj]
    · rename_i hk
      split
      · rename_i hlt
        split
        · rfl
        · by_cases h1 : j < k
          · have h2 : j < k' := by omega
            have h3 : j ≠ k' := by omega
            simp [smGet, hj, h1, h2, h3]
          · rw [smGet]
            simp only [hj, if_false, h1]
      · rename_i hlt
        by_cases h1 : j = k'
        · simp [smGet, h1]
        · by_cases h2 : j < k'
          · simp [smGet, h1, h2]
          · simp [smGet, h1, h2, ih hm]

/-- What a store reads as after one write. -/
theorem smGet_smSet {m : SMap α} (h : smWf d m = true) (k j : Nat) (x : α) :
    smGet d (smSet d m k x) j = if j = k then x else smGet d m j := by
  split
  · rename_i hj
    rw [hj, smGet_smSet_self h]
  · rename_i hj
    exact smGet_smSet_ne h x hj

/-- Two canonical stores that read alike are equal. -/
theorem smWf_ext {m m' : SMap α} (h : smWf d m = true) (h' : smWf d m' = true)
    (he : ∀ k, smGet d m k = smGet d m' k) : m = m' := by
  induction m generalizing m' with
  | nil =>
    cases m' with
    | nil => rfl
    | cons e m' =>
      obtain ⟨k, x⟩ := e
      have := he k
      simp [smGet] at this
      exact absurd this.symm (smWf_cons.mp h').1
  | cons e m ih =>
    obtain ⟨k, x⟩ := e
    obtain ⟨hx, ha, hm⟩ := smWf_cons.mp h
    cases m' with
    | nil =>
      have := he k
      simp [smGet] at this
      exact absurd this hx
    | cons e' m' =>
      obtain ⟨k', x'⟩ := e'
      obtain ⟨hx', ha', hm'⟩ := smWf_cons.mp h'
      have hkk : k = k' := by
        rcases Nat.lt_trichotomy k k' with hlt | heq | hgt
        · have := he k
          simp [smGet, hlt, Nat.ne_of_lt hlt] at this
          exact absurd this hx
        · exact heq
        · have := he k'
          simp [smGet, hgt, Nat.ne_of_lt hgt] at this
          exact absurd this.symm hx'
      subst hkk
      have hxx : x = x' := by simpa [smGet] using he k
      subst hxx
      have : m = m' := by
        refine ih hm hm' fun j => ?_
        by_cases hj : j ≤ k
        · rw [smGet_of_smAbove ha hj, smGet_of_smAbove ha' hj]
        · have h1 : j ≠ k := by omega
          have h2 : ¬j < k := by omega
          simpa [smGet, h1, h2] using he j
      rw [this]

/-! ### Writing many entries -/

theorem smWf_smSetAll {m : SMap α} (h : smWf d m = true) (ws : List (Nat × α)) : smWf d (smSetAll d m ws) = true := by
  induction ws generalizing m with
  | nil => exact h
  | cons w ws ih => exact ih (smWf_smSet h w.1 w.2)

theorem smGet_smSetAll_of_not_mem {m : SMap α} (h : smWf d m = true) {ws : List (Nat × α)} {j : Nat}
    (hj : ∀ w ∈ ws, w.1 ≠ j) : smGet d (smSetAll d m ws) j = smGet d m j := by
  induction ws generalizing m with
  | nil => rfl
  | cons w ws ih =>
    have := ih (smWf_smSet h w.1 w.2) fun v hv => hj v (List.mem_cons_of_mem _ hv)
    have h1 := smGet_smSet_ne h w.2 (Ne.symm (hj w List.mem_cons_self))
    exact this.trans h1

/-! ### Bytes -/

theorem smWf_storeLe {m : SMap Byte} (h : smWf (0 : Byte) m = true) (a n x : Nat) :
    smWf (0 : Byte) (storeLe m a n x) = true := smWf_smSetAll h _

theorem length_natLe (x n : Nat) : (natLe x n).length = n := by
  induction n generalizing x with
  | zero => rfl
  | succ n ih => simp [natLe, ih]

/-- A store of bytes leaves every byte outside them. -/
theorem smGet_storeLe_outside {m : SMap Byte} (h : smWf (0 : Byte) m = true) {a n x j : Nat} (hj : j < a ∨ a + n ≤ j) :
    smGet 0 (storeLe m a n x) j = smGet 0 m j := by
  refine smGet_smSetAll_of_not_mem h fun w hw => ?_
  simp only [List.mem_mapIdx] at hw
  obtain ⟨i, hi, rfl⟩ := hw
  rw [length_natLe] at hi
  simp only
  omega

theorem leNat_natLe (x n : Nat) : leNat (natLe x n) = x % 256 ^ n := by
  induction n generalizing x with
  | zero => simp [natLe, leNat, Nat.mod_one]
  | succ n ih =>
    rw [natLe, leNat, ih, BitVec.toNat_ofNat, show 256 ^ (n + 1) = 256 * 256 ^ n from by rw [Nat.pow_succ, Nat.mul_comm]]
    exact (Nat.mod_mul).symm

/-- Bytes written one after another from `a` read back. -/
theorem smGet_setBytes {m : SMap Byte} (h : smWf (0 : Byte) m = true) (bs : List Byte) (a i : Nat) (hi : i < bs.length) :
    smGet 0 (smSetAll 0 m (bs.mapIdx (fun i b => (a + i, b)))) (a + i) = bs[i] := by
  induction bs generalizing m a i with
  | nil => simp at hi
  | cons b bs ih =>
    have hw := smWf_smSet h a b
    have hs : smSetAll 0 m ((b :: bs).mapIdx (fun i b => (a + i, b)))
        = smSetAll 0 (smSet 0 m a b) (bs.mapIdx (fun i b => ((a + 1) + i, b))) := by
      rw [List.mapIdx_cons]
      simp only [smSetAll, List.foldl_cons, Nat.add_zero, Nat.add_assoc, Nat.add_comm 1]
    rw [hs]
    cases i with
    | zero =>
      rw [smGet_smSetAll_of_not_mem hw, Nat.add_zero, smGet_smSet_self h]
      · rfl
      · intro w hw
        simp only [List.mem_mapIdx] at hw
        obtain ⟨j, -, rfl⟩ := hw
        simp only
        omega
    | succ i =>
      have := ih hw (a + 1) i (by simpa using hi)
      rw [show a + (i + 1) = a + 1 + i from by omega]
      exact this

/-- A little-endian value reads back what was written, cut to its bytes (R2). -/
theorem loadLe_storeLe {m : SMap Byte} (h : smWf (0 : Byte) m = true) (a n x : Nat) :
    loadLe (storeLe m a n x) a n = x % 256 ^ n := by
  rw [loadLe, ← leNat_natLe]
  congr 1
  refine List.ext_getElem (by simp [length_natLe]) fun i h1 h2 => ?_
  simp only [List.getElem_map, List.getElem_range]
  exact smGet_setBytes h _ a i h2

end Sys2Proof.Machine
end

