-- ==== Sys2Proof/Laws/Ops.lean ====
section
/-!
SUPPORT. What each shared operation can do, said once: registers after a write, how an instruction answers, where a fault
goes, and that every operation on memory and registers keeps the stores in canonical form.
-/
namespace Sys2Proof.Machine

/-! ### Answers -/

theorem answer_ok (s t : State) : answer s (.ok t) = .next t := rfl
theorem answer_error (s : State) (f : FaultInfo) : answer s (.error f) = .next (takeFault f s) := rfl

/-- Every meaning built on `answer` goes on: with its effect, or with its fault. -/
theorem answer_next (s : State) (r : Except FaultInfo State) : ∃ t, answer s r = .next t := by
  cases r <;> exact ⟨_, rfl⟩

theorem need_ok {ok : Bool} (h : ok = true) (f : FaultInfo) : need ok f = .ok () := by simp [need, h]
theorem need_error {ok : Bool} (h : ok = false) (f : FaultInfo) : need ok f = .error f := by simp [need, h]

theorem hazardCheck_ok {s : State} (h : s.iss.hazard = none) : s.hazardCheck = .ok () := by simp [State.hazardCheck, h]
theorem hazardCheck_error {s : State} {off : Word32} (h : s.iss.hazard = some off) :
    s.hazardCheck = .error (s.fltAt .lookaheadHazard 0 (BitVec.ofNat 64 off.toNat)) := by simp [State.hazardCheck, h]

/-! ### Where a fault goes -/

/-- What becomes of a handler of its own domain that faults (R374). -/
theorem deliverFault_own {f : FaultInfo} {s : State} {rcb : Nat} (ho : s.ownHandler = some rcb)
    (hn : s.blk.k.trapEntry = none ∨ s.team.trap.inTrap = true ∨ s.team.phase = .held ∨ f.spill = true
      ∨ deliverable s.team.system f.cause = false) :
    deliverFault f s = (State.log { (s.stamp 0).2 with team := { s.team.finish with fault := some f } } 0 2 0x10
      (leNat (faultRecord f s.team (s.stamp 0).1).bytes)).modDomain rcb (fun d => { d with barred := true }) := by
  have hb : s.blk.k.trapEntry = none ∨
      (s.team.trap.inTrap || s.team.phase == Phase.held || f.spill || !(deliverable s.team.system f.cause)) = true := by
    rcases hn with h | h | h | h | h
    · exact .inl h
    all_goals exact .inr (by simp [h])
  unfold deliverFault
  rcases hb with h | h
  · simp [h, ho]
  · rw [h]; cases s.blk.k.trapEntry <;> simp [ho]

/-- A fault that no trap entry receives holds the team (R373). -/
theorem deliverFault_hold {f : FaultInfo} {s : State} (ho : s.ownHandler = none)
    (hn : s.blk.k.trapEntry = none ∨ s.team.trap.inTrap = true ∨ s.team.phase = .held ∨ f.spill = true
      ∨ deliverable s.team.system f.cause = false) : deliverFault f s = s.holdTeam f := by
  have hb : s.blk.k.trapEntry = none ∨
      (s.team.trap.inTrap || s.team.phase == Phase.held || f.spill || !(deliverable s.team.system f.cause)) = true := by
    rcases hn with h | h | h | h | h
    · exact .inl h
    all_goals exact .inr (by simp [h])
  unfold deliverFault
  rcases hb with h | h
  · simp [h, ho]
  · rw [h]; cases s.blk.k.trapEntry <;> simp [ho]

/-- A deliverable fault of a team that runs no handler enters its trap entry (R230). -/
theorem deliverFault_trap {f : FaultInfo} {s : State} {entry : Nat} (he : s.blk.k.trapEntry = some entry)
    (hi : s.team.trap.inTrap = false) (hp : s.team.phase ≠ .held) (hs : f.spill = false)
    (hd : deliverable s.team.system f.cause = true) : deliverFault f s = { s with team := s.team.enterTrap entry f } := by
  have h : (s.team.trap.inTrap || s.team.phase == Phase.held || f.spill || !(deliverable s.team.system f.cause)) = false := by
    simp [hi, hs, hd, hp]
  unfold deliverFault
  rw [he, h]

/-- Delivering a fault does one of these three. -/
theorem deliverFault_cases (f : FaultInfo) (s : State) :
    (∃ entry, s.blk.k.trapEntry = some entry ∧ deliverFault f s = { s with team := s.team.enterTrap entry f }) ∨
    (∃ rcb, deliverFault f s = (State.log { (s.stamp 0).2 with team := { s.team.finish with fault := some f } } 0 2 0x10
      (leNat (faultRecord f s.team (s.stamp 0).1).bytes)).modDomain rcb (fun d => { d with barred := true })) ∨
    deliverFault f s = s.holdTeam f := by
  by_cases hn : s.blk.k.trapEntry = none ∨ s.team.trap.inTrap = true ∨ s.team.phase = .held ∨ f.spill = true
      ∨ deliverable s.team.system f.cause = false
  · cases ho : s.ownHandler with
    | none => exact .inr (.inr (deliverFault_hold ho hn))
    | some rcb => exact .inr (.inl ⟨rcb, deliverFault_own ho hn⟩)
  · simp only [not_or, Bool.not_eq_true, Bool.not_eq_false] at hn
    obtain ⟨he, hi, hp, hs, hd⟩ := hn
    obtain ⟨entry, he⟩ := Option.ne_none_iff_exists'.mp he
    exact .inl ⟨entry, he, deliverFault_trap he hi hp hs hd⟩

/-- Taking a fault: the wait is left, then one of the three ways (R230, R373, R374). -/
theorem takeFault_cases (f : FaultInfo) (s : State) :
    let v := s.leaveWait
    (∃ entry, v.blk.k.trapEntry = some entry ∧ takeFault f s = { v with team := v.team.enterTrap entry f }) ∨
    (∃ rcb, takeFault f s = (State.log { (v.stamp 0).2 with team := { v.team.finish with fault := some f } } 0 2 0x10
      (leNat (faultRecord f v.team (v.stamp 0).1).bytes)).modDomain rcb (fun d => { d with barred := true })) ∨
    takeFault f s = v.holdTeam f := deliverFault_cases f s.leaveWait

/-- A team that neither waits nor has a wait set aside faults where it is. -/
theorem State.leaveWait_of_ready {s : State} (h : ∀ w, s.team.phase ≠ .waiting w) : s.leaveWait = s := by
  unfold State.leaveWait
  split <;> simp_all

/-! ### Registers after a write -/

/-- The register files of the team in focus are canonical. -/
theorem storesWf_team {s : State} (h : storesWf s = true) : teamWf s.team = true := by
  simp only [storesWf, Bool.and_eq_true, List.all_eq_true] at h
  exact h.1.2 _ (by simp)

theorem storesWf_regs {s : State} (h : storesWf s = true) :
    smWf 0 s.team.regs.v = true ∧ smWf 0 s.team.regs.side = true ∧ smWf 0 s.team.regs.s = true
      ∧ smWf 0 s.team.regs.p = true := by
  have h := storesWf_team h
  simp only [teamWf, Bool.and_eq_true] at h
  exact ⟨h.1.1.1.1, h.1.1.1.2, h.1.1.2, h.1.2⟩

/-- sz reads zero (R89). -/
@[simp] theorem State.getS_sz (s : State) : s.getS 255 = 0 := rfl

theorem State.getS_setS_self {s : State} (h : storesWf s = true) {n : Nat} (hn : n < 192) (x : Word64) :
    (s.setS n x).getS n = x := by
  simp only [State.getS, State.setS, hn, if_true, State.withRegs]
  exact smGet_smSet_self (storesWf_regs h).2.2.1 n x

theorem State.getS_setS_ne {s : State} (h : storesWf s = true) {n m : Nat} (hm : m ≠ n) (x : Word64) :
    (s.setS n x).getS m = s.getS m := by
  by_cases hn : n < 192
  · simp only [State.getS, State.setS, hn, if_true, State.withRegs]
    split
    · exact smGet_smSet_ne (storesWf_regs h).2.2.1 x hm
    · rfl
  · simp [State.setS, hn]

/-- A write to sz is discarded (R89). -/
theorem State.setS_sz (s : State) {n : Nat} (hn : 192 ≤ n) (x : Word64) : s.setS n x = s := by
  simp [State.setS, Nat.not_lt.mpr hn]

theorem State.getP_setP_self {s : State} (h : storesWf s = true) {n : Nat} (hn : n ≠ 0) (m x : Mask) :
    (s.setP n m x).getP n = (s.getP n &&& ~~~m) ||| (x &&& m) := by
  simp only [State.getP, State.setP, hn, if_false, State.withRegs]
  exact smGet_smSet_self (storesWf_regs h).2.2.2 n _

theorem State.getP_setP_ne {s : State} (h : storesWf s = true) {n k : Nat} (hk : k ≠ n) (m x : Mask) :
    (s.setP n m x).getP k = s.getP k := by
  by_cases hn : n = 0
  · simp [State.setP, hn]
  · simp only [State.getP, State.setP, hn, if_false, State.withRegs]
    split
    · rfl
    · exact smGet_smSet_ne (storesWf_regs h).2.2.2 _ hk

/-! ### Canonical form: more stores -/

theorem smAbove_filter {α : Type} {lo : Nat} {m : SMap α} {d : α} [DecidableEq α] (p : Nat × α → Bool)
    (h : smWf d m = true) (ha : smAbove lo m = true) : smAbove lo (m.filter p) = true := by
  induction m with
  | nil => rfl
  | cons c m ih =>
    obtain ⟨k, x⟩ := c
    have hw := smWf_cons.mp h
    have hlo : lo < k := by simpa [smAbove] using ha
    by_cases hp : p (k, x) = true
    · simpa [List.filter, hp, smAbove] using hlo
    · simp only [List.filter, hp]
      exact ih hw.2.2 (smAbove_mono hw.2.1 (Nat.le_of_lt hlo))

theorem smWf_filter {α : Type} {m : SMap α} {d : α} [DecidableEq α] (p : Nat × α → Bool) (h : smWf d m = true) :
    smWf d (m.filter p) = true := by
  induction m with
  | nil => rfl
  | cons c m ih =>
    obtain ⟨k, x⟩ := c
    have hw := smWf_cons.mp h
    by_cases hp : p (k, x) = true
    · simp only [List.filter, hp]
      exact smWf_cons.mpr ⟨hw.1, smAbove_filter p hw.2.2 hw.2.1, ih hw.2.2⟩
    · simpa only [List.filter, hp] using ih hw.2.2

theorem smWf_smDrop {α : Type} {m : SMap α} {d : α} [DecidableEq α] (h : smWf d m = true) (lo hi : Nat) :
    smWf d (smDrop m lo hi) = true := smWf_filter _ h

theorem smWf_table_from {α : Type} [DecidableEq α] (d : α) (f : Nat → α) (n lo : Nat) :
    smWf d ((List.range' lo n).filterMap (fun i => if f i = d then none else some (i, f i))) = true
      ∧ ∀ k, k < lo → smAbove k ((List.range' lo n).filterMap (fun i => if f i = d then none else some (i, f i))) = true := by
  induction n generalizing lo with
  | zero => exact ⟨rfl, fun _ _ => rfl⟩
  | succ n ih =>
    have h := ih (lo + 1)
    by_cases hf : f lo = d
    · simp only [List.range'_succ, List.filterMap_cons, hf, if_true]
      exact ⟨h.1, fun k hk => h.2 k (by omega)⟩
    · simp only [List.range'_succ, List.filterMap_cons, hf, if_false]
      exact ⟨smWf_cons.mpr ⟨hf, h.2 lo (by omega), h.1⟩, fun k hk => by simpa [smAbove] using hk⟩

theorem smWf_smTable {α : Type} [DecidableEq α] (d : α) (n : Nat) (f : Nat → α) : smWf d (smTable d n f) = true := by
  rw [smTable, List.range_eq_range']
  exact (smWf_table_from d f n 0).1

/-! ### Every operation on memory and registers keeps the canonical form -/

theorem storesWf_iff {s : State} : storesWf s = true ↔
    memInv s = true ∧ teamWf s.team = true ∧ (∀ t ∈ s.others, teamWf t = true) ∧ blockWf s.blk = true
      ∧ ∀ b ∈ s.blocks, blockWf b = true := by
  simp [storesWf, and_assoc]

/-- The canonical form depends on the stores alone. -/
theorem storesWf_of {s t : State} (h : storesWf s = true) (hm : memInv s = true → memInv t = true)
    (ht : t.team = s.team) (ho : t.others = s.others) (hb : t.blk = s.blk) (hbs : t.blocks = s.blocks) :
    storesWf t = true := by
  rw [storesWf_iff] at h ⊢
  rw [ht, ho, hb, hbs]
  exact ⟨hm h.1, h.2⟩

theorem storesWf_withRegs {s : State} (h : storesWf s = true) {r : Regs} (hv : smWf 0 r.v = true)
    (hd : smWf 0 r.side = true) (hs : smWf 0 r.s = true) (hp : smWf 0 r.p = true) : storesWf (s.withRegs r) = true := by
  rw [storesWf_iff] at h ⊢
  refine ⟨h.1, ?_, h.2.2⟩
  have ht := h.2.1
  simp only [teamWf, Bool.and_eq_true] at ht ⊢
  exact ⟨⟨⟨⟨hv, hd⟩, hs⟩, hp⟩, ht.2⟩

theorem storesWf_setS {s : State} (h : storesWf s = true) (n : Nat) (x : Word64) : storesWf (s.setS n x) = true := by
  obtain ⟨hv, hd, hs, hp⟩ := storesWf_regs h
  unfold State.setS
  split
  · exact storesWf_withRegs h hv hd (smWf_smSet hs _ _) hp
  · exact h

theorem storesWf_setP {s : State} (h : storesWf s = true) (n : Nat) (m x : Mask) : storesWf (s.setP n m x) = true := by
  obtain ⟨hv, hd, hs, hp⟩ := storesWf_regs h
  unfold State.setP
  split
  · exact h
  · exact storesWf_withRegs h hv hd hs (smWf_smSet hp _ _)

theorem storesWf_setV {s : State} (h : storesWf s = true) (n : Nat) (xs : List (Nat × Word32)) :
    storesWf (s.setV n xs) = true := by
  obtain ⟨hv, hd, hs, hp⟩ := storesWf_regs h
  exact storesWf_withRegs h (smWf_smSetAll hv _) hd hs hp

theorem storesWf_setSide {s : State} (h : storesWf s = true) (n : Nat) (xs : List (Nat × SideBand)) :
    storesWf (s.setSide n xs) = true := by
  obtain ⟨hv, hd, hs, hp⟩ := storesWf_regs h
  exact storesWf_withRegs h hv (smWf_smSetAll hd _) hs hp

theorem storesWf_putV {s : State} (h : storesWf s = true) (n : Nat) (xs : List (Nat × Word32)) :
    storesWf (s.putV n xs) = true := storesWf_setSide (storesWf_setV h n xs) n _

theorem memInv_mem {s t : State} (h : memInv s = true) (hm : smWf 0 t.mem = true) (hs : t.memSide = s.memSide)
    (hp : t.hub.publish = s.hub.publish) : memInv t = true := by
  simp only [memInv, Bool.and_eq_true] at h ⊢
  rw [hs, hp]
  exact ⟨⟨hm, h.1.2⟩, h.2⟩

theorem memInv_publish {s t : State} (h : memInv s = true) (hm : t.mem = s.mem) (hs : t.memSide = s.memSide)
    (hp : smWf 0 t.hub.publish = true) : memInv t = true := by
  simp only [memInv, Bool.and_eq_true] at h ⊢
  rw [hs, hm]
  exact ⟨h.1, hp⟩

theorem storesWf_log {s : State} (h : storesWf s = true) (u v c d : Nat) : storesWf (s.log u v c d) = true :=
  storesWf_of h (fun hm => hm) rfl rfl rfl rfl

theorem storesWf_modBlock {s : State} (h : storesWf s = true) (bid : Nat) (f : Block → Block)
    (hf : ∀ b, blockWf b = true → blockWf (f b) = true) : storesWf (s.modBlock bid f) = true := by
  rw [storesWf_iff] at h ⊢
  refine ⟨h.1, h.2.1, h.2.2.1, ?_, ?_⟩
  · simp only [State.modBlock]
    split
    · exact hf _ h.2.2.2.1
    · exact h.2.2.2.1
  · intro b hb
    simp only [State.modBlock, List.mem_map] at hb
    obtain ⟨b0, hb0, rfl⟩ := hb
    split
    · exact hf _ (h.2.2.2.2 _ hb0)
    · exact h.2.2.2.2 _ hb0

theorem storesWf_pubStore {s : State} (h : storesWf s = true) (o n x : Nat) : storesWf (s.pubStore o n x) = true := by
  have hp (a b c : Nat) : storesWf { s with hub := { s.hub with publish := storeLe s.hub.publish a b c } } = true := by
    refine storesWf_of h (fun hm => memInv_publish hm rfl rfl ?_) rfl rfl rfl rfl
    simp only [memInv, Bool.and_eq_true] at hm
    exact smWf_storeLe hm.2 _ _ _
  unfold State.pubStore
  simp only
  split
  · split
    · exact hp _ _ _
    · exact h
  · split
    · exact hp _ _ _
    · split
      · exact hp _ _ _
      · exact storesWf_log h _ _ _ _

/-- Writing bytes at a place keeps the canonical form. -/
theorem storesWf_writeAt {s : State} (h : storesWf s = true) (p : Place) (n x : Nat) : storesWf (s.writeAt p n x) = true := by
  cases p with
  | dev pa =>
    simp only [State.writeAt]
    split
    · exact storesWf_pubStore h _ _ _
    · refine storesWf_of h (fun hm => memInv_mem hm ?_ rfl rfl) rfl rfl rfl rfl
      simp only [memInv, Bool.and_eq_true] at hm
      exact smWf_storeLe hm.1.1 _ _ _
  | spad bid off =>
    refine storesWf_modBlock h _ _ (fun b hb => ?_)
    simp only [blockWf, Bool.and_eq_true] at hb ⊢
    exact ⟨smWf_storeLe hb.1 _ _ _, hb.2⟩

/-- Writing a side-band keeps it. -/
theorem storesWf_writeSide {s : State} (h : storesWf s = true) (p : Place) (x : SideBand) :
    storesWf (s.writeSide p x) = true := by
  cases p with
  | dev pa =>
    refine storesWf_of h (fun hm => ?_) rfl rfl rfl rfl
    simp only [memInv, Bool.and_eq_true, State.writeSide] at hm ⊢
    exact ⟨⟨hm.1.1, smWf_smSet hm.1.2 _ _⟩, hm.2⟩
  | spad bid off =>
    refine storesWf_modBlock h _ _ (fun b hb => ?_)
    simp only [blockWf, Bool.and_eq_true] at hb ⊢
    exact ⟨hb.1, smWf_smSet hb.2 _ _⟩

theorem storesWf_clearPoison {s : State} (h : storesWf s = true) (p : Place) : storesWf (s.clearPoison p) = true := by
  cases p with
  | dev pa => exact storesWf_of h (fun hm => hm) rfl rfl rfl rfl
  | spad bid off => exact storesWf_modBlock h _ _ (fun b hb => hb)

theorem storesWf_writeSector {s : State} (h : storesWf s = true) (p : Place) (x : BitVec 512) (sb : SideBand) :
    storesWf (s.writeSector p x sb) = true :=
  storesWf_clearPoison (storesWf_writeSide (storesWf_writeAt h _ _ _) _ _) _

/-- A fold keeps what each of its steps keeps. -/
theorem foldl_keeps {α β : Type} (P : β → Prop) (f : β → α → β) (hf : ∀ b a, P b → P (f b a)) :
    ∀ (l : List α) (b : β), P b → P (l.foldl f b)
  | [], _, h => h
  | a :: l, b, h => foldl_keeps P f hf l (f b a) (hf b a h)

theorem storesWf_writeSpan {s : State} (h : storesWf s = true) (ps : List (Nat × Nat)) (va : Nat) (bs : List Byte) :
    storesWf (s.writeSpan ps va bs) = true :=
  foldl_keeps (fun s => storesWf s = true) _ (fun _ _ hb => storesWf_clearPoison hb _) _ _
    (foldl_keeps (fun s => storesWf s = true) _ (fun _ _ hb => storesWf_writeAt hb _ _ _) _ _ h)

theorem storesWf_zeroPhys {s : State} (h : storesWf s = true) (pa n : Nat) : storesWf (s.zeroPhys pa n) = true := by
  refine storesWf_of h (fun hm => ?_) rfl rfl rfl rfl
  simp only [memInv, Bool.and_eq_true, State.zeroPhys] at hm ⊢
  exact ⟨⟨smWf_smDrop hm.1.1 _ _, smWf_smDrop hm.1.2 _ _⟩, hm.2⟩

/-- Another team in focus with the same stores keeps it. -/
theorem storesWf_team_of {s t : State} (h : storesWf s = true) (hr : t.team.regs = s.team.regs)
    (hs : t.team.sstack = s.team.sstack) (hm : memInv s = true → memInv t = true) (ho : t.others = s.others)
    (hb : t.blk = s.blk) (hbs : t.blocks = s.blocks) : storesWf t = true := by
  rw [storesWf_iff] at h ⊢
  refine ⟨hm h.1, ?_, by rw [ho, hb, hbs]; exact h.2.2⟩
  have := h.2.1
  simp only [teamWf, hr, hs] at this ⊢
  exact this

theorem storesWf_queueRecord {s : State} (h : storesWf s = true) (d : Option DomRef) (r : FaultRec) (b : Bool) :
    storesWf (s.queueRecord d r b) = true := by
  unfold State.queueRecord
  split
  · exact h
  · exact storesWf_of h (fun hm => hm) rfl rfl rfl rfl

theorem storesWf_uncount {s : State} (h : storesWf s = true) : storesWf { s with team := s.team.uncount } = true :=
  storesWf_team_of h rfl rfl (fun hm => hm) rfl rfl rfl

theorem storesWf_withdraw {s : State} (h : storesWf s = true) (w : Wait) : storesWf (s.withdraw w) = true := by
  have hu := storesWf_uncount h
  unfold State.withdraw
  split
  · simp only
    split <;> exact hu
  · exact hu
  · exact h

theorem storesWf_leaveWait {s : State} (h : storesWf s = true) : storesWf s.leaveWait = true := by
  unfold State.leaveWait
  split
  · exact h
  · exact h
  · exact storesWf_withdraw h _
  · exact storesWf_withdraw h _
  · exact storesWf_team_of h rfl rfl (fun hm => hm) rfl rfl rfl
  · exact h

theorem storesWf_holdTeam {s : State} (h : storesWf s = true) (f : FaultInfo) : storesWf (s.holdTeam f) = true := by
  unfold State.holdTeam
  refine storesWf_queueRecord ?_ _ _ _
  exact storesWf_team_of h rfl rfl (fun hm => hm) rfl rfl rfl

/-- Taking a fault keeps it. -/
theorem storesWf_takeFault {s : State} (h : storesWf s = true) (f : FaultInfo) : storesWf (takeFault f s) = true := by
  have h := storesWf_leaveWait h
  rcases takeFault_cases f s with ⟨e, -, he⟩ | ⟨rcb, he⟩ | he
  · rw [he]; exact storesWf_team_of h rfl rfl (fun hm => hm) rfl rfl rfl
  · rw [he]; exact storesWf_team_of h rfl rfl (fun hm => hm) rfl rfl rfl
  · rw [he]; exact storesWf_holdTeam h f

end Sys2Proof.Machine
end

