-- ==== Sys2Proof/Laws/PerInstr.lean ====
section
/-!
SUPPORT. The encoding of every instruction, one lemma per constructor: the word that the encoder writes for a well-formed
instruction matches the row of that instruction and no earlier one, with every field read back (R172, R185..R190). Before
them, what a word of each OP can match.
-/
namespace Sys2Proof.Laws

open Sys2Proof

theorem firstOf_cons_none (x : Option IllForm) (l : List (Option IllForm)) :
    firstOf (x :: l) = none ↔ x = none ∧ firstOf l = none := by
  cases x <;> simp [firstOf]

theorem chk_none (e : IllForm) (b : Bool) : chk e b = none ↔ b = true := by
  cases b <;> simp [chk]

theorem natBeq_false (a b : Nat) : Nat.beq a b = false ↔ a ≠ b := by
  rw [← Bool.not_eq_true, Nat.beq_eq]

/-- Every field of a word fits its bits (R172). -/
def fieldsFit (i : Instr) : Bool := i.fields.all fun f => Nat.blt f.1 (2 ^ f.2)

theorem fieldsFit_of_wellFormed (i : Instr) (h : i.wordIllForm = none) : fieldsFit i = true := by
  unfold Instr.wordIllForm at h
  rw [firstOf_cons_none, chk_none] at h
  exact h.1

theorem codeCheck_of_wellFormed (i : Instr) (h : i.wordIllForm = none) : i.codeCheck = none := by
  unfold Instr.wordIllForm at h
  rw [firstOf_cons_none, firstOf_cons_none, firstOf_cons_none] at h
  exact h.2.2.1

/-- The encoder's word of a well-formed instruction is a 32-bit word, no prefix word, and matches the row the decoder
reads it by. -/
def Encoding.Statement (i : Instr) : Prop :=
  ∀ w, encodeWord i = some w → i.wordIllForm = none → w < 4294967296 ∧ w / 33554432 ≠ 127 ∧ matchRow w = some i.decoded

/-! ### What a word of each OP matches -/

theorem matchRow_op0 {w : Nat} (h : w / 33554432 = 0) : matchRow w =
    if w / 1 % 33554432 = 0 then some (.ill) else
    if w / 1 % 33554432 = 1048576 then some (.nop) else
    if w / 1 % 33554432 = 2097152 then some (.exit) else
    if w / 1 % 33554432 = 3145728 then some (.texit) else
    if w / 1 % 33554432 = 4194304 then some (.refill) else
    if w / 1 % 33554432 = 5242880 then some (.join) else
    if w / 1 % 33554432 = 6291456 then some (.disb) else
    if w / 1 % 33554432 = 7340032 then some (.ret) else
    if w / 1 % 33554432 = 8388608 then some (.uret) else
    if w / 1 % 33554432 = 9437184 then some (.tret) else
    if w / 1 % 33554432 = 10485760 then some (.haltc) else
    none := by
  have h0 : w / 268435456 = 0 := by omega
  unfold matchRow
  rw [show w / 2 ^ 28 = 0 from h0]
  change matchRow0 w = _
  unfold matchRow0
  rw [show w / 2 ^ 25 = 0 from h]
  rfl

theorem matchRow_op1 {w : Nat} (h : w / 33554432 = 1) : matchRow w =
    some (.yield (w / 65536 % 512) (w / 1 % 65536)) := by
  have h0 : w / 268435456 = 0 := by omega
  unfold matchRow
  rw [show w / 2 ^ 28 = 0 from h0]
  change matchRow0 w = _
  unfold matchRow0
  rw [show w / 2 ^ 25 = 1 from h]
  rfl

theorem matchRow_op2 {w : Nat} (h : w / 33554432 = 2) : matchRow w =
    if w / 65536 % 512 = 0 then some (.trap (w / 1 % 65536)) else
    none := by
  have h0 : w / 268435456 = 0 := by omega
  unfold matchRow
  rw [show w / 2 ^ 28 = 0 from h0]
  change matchRow0 w = _
  unfold matchRow0
  rw [show w / 2 ^ 25 = 2 from h]
  rfl

theorem matchRow_op3 {w : Nat} (h : w / 33554432 = 3) : matchRow w =
    some (.mode (w / 1 % 33554432)) := by
  have h0 : w / 268435456 = 0 := by omega
  unfold matchRow
  rw [show w / 2 ^ 28 = 0 from h0]
  change matchRow0 w = _
  unfold matchRow0
  rw [show w / 2 ^ 25 = 3 from h]
  rfl

theorem matchRow_op4 {w : Nat} (h : w / 33554432 = 4) : matchRow w =
    if w / 8 % 4194304 = 0 then some (.fenceRel (w / 1 % 8)) else
    if w / 8 % 4194304 = 1 then some (.fenceAcq (w / 1 % 8)) else
    if w / 8 % 4194304 = 2 then some (.fenceAr (w / 1 % 8)) else
    none := by
  have h0 : w / 268435456 = 0 := by omega
  unfold matchRow
  rw [show w / 2 ^ 28 = 0 from h0]
  change matchRow0 w = _
  unfold matchRow0
  rw [show w / 2 ^ 25 = 4 from h]
  rfl

theorem matchRow_op5 {w : Nat} (h : w / 33554432 = 5) : matchRow w =
    if w / 256 % 131072 = 0 then some (.conv (w / 64 % 4) (w / 8 % 8) (w / 1 % 8)) else
    none := by
  have h0 : w / 268435456 = 0 := by omega
  unfold matchRow
  rw [show w / 2 ^ 28 = 0 from h0]
  change matchRow0 w = _
  unfold matchRow0
  rw [show w / 2 ^ 25 = 5 from h]
  rfl

theorem matchRow_op6 {w : Nat} (h : w / 33554432 = 6) : matchRow w =
    if w / 128 % 262144 = 0 then some (.enter (w / 1 % 128)) else
    none := by
  have h0 : w / 268435456 = 0 := by omega
  unfold matchRow
  rw [show w / 2 ^ 28 = 0 from h0]
  change matchRow0 w = _
  unfold matchRow0
  rw [show w / 2 ^ 25 = 6 from h]
  rfl

theorem matchRow_op7 {w : Nat} (h : w / 33554432 = 7) : matchRow w =
    if w / 16 % 2097152 = 1 then some (.barArrive (w / 1 % 16)) else
    if w / 16 % 4 = 0 ∧ w / 32768 % 1024 = 0 then some (.barSync (w / 1024 % 32) (w / 64 % 16) (w / 1 % 16)) else
    if w / 16 % 4 = 2 ∧ w / 32768 % 1024 = 0 then some (.barWait (w / 1024 % 32) (w / 64 % 16) (w / 1 % 16)) else
    none := by
  have h0 : w / 268435456 = 0 := by omega
  unfold matchRow
  rw [show w / 2 ^ 28 = 0 from h0]
  change matchRow0 w = _
  unfold matchRow0
  rw [show w / 2 ^ 25 = 7 from h]
  rfl

theorem matchRow_op8 {w : Nat} (h : w / 33554432 = 8) : matchRow w =
    if w / 1048576 % 32 = 0 then some (.setj (w / 1 % 1048576)) else
    none := by
  have h0 : w / 268435456 = 1 := by omega
  unfold matchRow
  rw [show w / 2 ^ 28 = 1 from h0]
  change matchRow1 w = _
  unfold matchRow1
  rw [show w / 2 ^ 25 = 8 from h]
  rfl

theorem matchRow_op9 {w : Nat} (h : w / 33554432 = 9) : matchRow w =
    some (.bru (w / 2097152 % 16) (w / 1048576 % 2) (w / 1 % 1048576)) := by
  have h0 : w / 268435456 = 1 := by omega
  unfold matchRow
  rw [show w / 2 ^ 28 = 1 from h0]
  change matchRow1 w = _
  unfold matchRow1
  rw [show w / 2 ^ 25 = 9 from h]
  rfl

theorem matchRow_op10 {w : Nat} (h : w / 33554432 = 10) : matchRow w =
    some (.brm (w / 2097152 % 16) (w / 1048576 % 2) (w / 1 % 1048576)) := by
  have h0 : w / 268435456 = 1 := by omega
  unfold matchRow
  rw [show w / 2 ^ 28 = 1 from h0]
  change matchRow1 w = _
  unfold matchRow1
  rw [show w / 2 ^ 25 = 10 from h]
  rfl

theorem matchRow_op11 {w : Nat} (h : w / 33554432 = 11) : matchRow w =
    some (.eject (w / 2097152 % 16) (w / 1048576 % 2) (w / 1 % 1048576)) := by
  have h0 : w / 268435456 = 1 := by omega
  unfold matchRow
  rw [show w / 2 ^ 28 = 1 from h0]
  change matchRow1 w = _
  unfold matchRow1
  rw [show w / 2 ^ 25 = 11 from h]
  rfl

theorem matchRow_op12 {w : Nat} (h : w / 33554432 = 12) : matchRow w =
    if w / 1048576 % 32 = 0 then some (.jmp (w / 1 % 1048576)) else
    none := by
  have h0 : w / 268435456 = 1 := by omega
  unfold matchRow
  rw [show w / 2 ^ 28 = 1 from h0]
  change matchRow1 w = _
  unfold matchRow1
  rw [show w / 2 ^ 25 = 12 from h]
  rfl

theorem matchRow_op13 {w : Nat} (h : w / 33554432 = 13) : matchRow w =
    some (.call (w / 2097152 % 16) (w / 1 % 2097152)) := by
  have h0 : w / 268435456 = 1 := by omega
  unfold matchRow
  rw [show w / 2 ^ 28 = 1 from h0]
  change matchRow1 w = _
  unfold matchRow1
  rw [show w / 2 ^ 25 = 13 from h]
  rfl

theorem matchRow_op14 {w : Nat} (h : w / 33554432 = 14) : matchRow w =
    if w / 1 % 16384 = 0 then some (.calli (w / 2097152 % 16) (w / 16384 % 128)) else
    none := by
  have h0 : w / 268435456 = 1 := by omega
  unfold matchRow
  rw [show w / 2 ^ 28 = 1 from h0]
  change matchRow1 w = _
  unfold matchRow1
  rw [show w / 2 ^ 25 = 14 from h]
  rfl

theorem matchRow_op15 {w : Nat} (h : w / 33554432 = 15) : matchRow w =
    if w / 1 % 512 = 0 ∧ w / 131072 % 256 = 0 then some (.jmpi (w / 512 % 256)) else
    if w / 1 % 2 = 1 ∧ w / 32 % 16 = 0 ∧ w / 131072 % 256 = 0 then some (.calls (w / 512 % 256) (w / 2 % 16)) else
    none := by
  have h0 : w / 268435456 = 1 := by omega
  unfold matchRow
  rw [show w / 2 ^ 28 = 1 from h0]
  change matchRow1 w = _
  unfold matchRow1
  rw [show w / 2 ^ 25 = 15 from h]
  rfl

theorem matchRow_op16 {w : Nat} (h : w / 33554432 = 16) : matchRow w =
    if w / 1 % 2048 = 0 ∧ w / 262144 % 128 = 0 then some (.plset (w / 2048 % 128)) else
    if w / 1 % 16 = 1 ∧ w / 2048 % 16384 = 0 then some (.plsetConst (w / 16 % 128)) else
    none := by
  have h0 : w / 268435456 = 2 := by omega
  unfold matchRow
  rw [show w / 2 ^ 28 = 2 from h0]
  change matchRow2 w = _
  unfold matchRow2
  rw [show w / 2 ^ 25 = 16 from h]
  rfl

theorem matchRow_op17 {w : Nat} (h : w / 33554432 = 17) : matchRow w =
    if w / 256 % 131072 = 0 then some (.plsel (w / 64 % 4) (w / 16 % 4) (w / 1 % 16)) else
    none := by
  have h0 : w / 268435456 = 2 := by omega
  unfold matchRow
  rw [show w / 2 ^ 28 = 2 from h0]
  change matchRow2 w = _
  unfold matchRow2
  rw [show w / 2 ^ 25 = 17 from h]
  rfl

theorem matchRow_op18 {w : Nat} (h : w / 33554432 = 18) : matchRow w =
    if w / 1 % 131072 = 0 then some (.plocc (w / 131072 % 256)) else
    none := by
  have h0 : w / 268435456 = 2 := by omega
  unfold matchRow
  rw [show w / 2 ^ 28 = 2 from h0]
  change matchRow2 w = _
  unfold matchRow2
  rw [show w / 2 ^ 25 = 18 from h]
  rfl

theorem matchRow_op19 {w : Nat} (h : w / 33554432 = 19) : matchRow w =
    if w / 256 % 512 = 0 then some (.srd (w / 131072 % 256) (w / 1 % 256)) else
    none := by
  have h0 : w / 268435456 = 2 := by omega
  unfold matchRow
  rw [show w / 2 ^ 28 = 2 from h0]
  change matchRow2 w = _
  unfold matchRow2
  rw [show w / 2 ^ 25 = 19 from h]
  rfl

theorem matchRow_op20 {w : Nat} (h : w / 33554432 = 20) : matchRow w =
    if w / 1 % 131072 = 19 then some (.swrMode (w / 131072 % 256)) else
    if w / 1 % 131072 = 20 then some (.swrSticky (w / 131072 % 256)) else
    if w / 1 % 131072 = 21 then some (.swrSsp (w / 131072 % 256)) else
    if w / 1 % 131072 = 33 then some (.swrTrapoff (w / 131072 % 256)) else
    if w / 256 % 512 = 0 then some (.swr (w / 131072 % 256) (w / 1 % 256)) else
    none := by
  have h0 : w / 268435456 = 2 := by omega
  unfold matchRow
  rw [show w / 2 ^ 28 = 2 from h0]
  change matchRow2 w = _
  unfold matchRow2
  rw [show w / 2 ^ 25 = 20 from h]
  rfl

theorem matchRow_op21 {w : Nat} (h : w / 33554432 = 21) : matchRow w =
    if w / 256 % 512 = 0 then some (.pushm (w / 131072 % 256) (w / 1 % 256)) else
    none := by
  have h0 : w / 268435456 = 2 := by omega
  unfold matchRow
  rw [show w / 2 ^ 28 = 2 from h0]
  change matchRow2 w = _
  unfold matchRow2
  rw [show w / 2 ^ 25 = 21 from h]
  rfl

theorem matchRow_op22 {w : Nat} (h : w / 33554432 = 22) : matchRow w =
    if w / 256 % 512 = 0 then some (.popm (w / 131072 % 256) (w / 1 % 256)) else
    none := by
  have h0 : w / 268435456 = 2 := by omega
  unfold matchRow
  rw [show w / 2 ^ 28 = 2 from h0]
  change matchRow2 w = _
  unfold matchRow2
  rw [show w / 2 ^ 25 = 22 from h]
  rfl

theorem matchRow_op23 {w : Nat} (h : w / 33554432 = 23) : matchRow w =
    if w / 16 % 2097152 = 0 then some (.cbara (w / 1 % 16)) else
    none := by
  have h0 : w / 268435456 = 2 := by omega
  unfold matchRow
  rw [show w / 2 ^ 28 = 2 from h0]
  change matchRow2 w = _
  unfold matchRow2
  rw [show w / 2 ^ 25 = 23 from h]
  rfl

theorem matchRow_op24 {w : Nat} (h : w / 33554432 = 24) : matchRow w =
    if w / 16 % 4 = 0 ∧ w / 32768 % 1024 = 0 then some (.cbarw (w / 1024 % 32) (w / 64 % 16) (w / 1 % 16)) else
    none := by
  have h0 : w / 268435456 = 3 := by omega
  unfold matchRow
  rw [show w / 2 ^ 28 = 3 from h0]
  change matchRow3 w = _
  unfold matchRow3
  rw [show w / 2 ^ 25 = 24 from h]
  rfl

theorem matchRow_op25 {w : Nat} (h : w / 33554432 = 25) : matchRow w =
    if w / 1 % 131072 = 0 then some (.pbara (w / 131072 % 256)) else
    none := by
  have h0 : w / 268435456 = 3 := by omega
  unfold matchRow
  rw [show w / 2 ^ 28 = 3 from h0]
  change matchRow3 w = _
  unfold matchRow3
  rw [show w / 2 ^ 25 = 25 from h]
  rfl

theorem matchRow_op26 {w : Nat} (h : w / 33554432 = 26) : matchRow w =
    if w / 1 % 256 = 0 then some (.pbwait (w / 131072 % 256) (w / 8192 % 16) (w / 256 % 32)) else
    none := by
  have h0 : w / 268435456 = 3 := by omega
  unfold matchRow
  rw [show w / 2 ^ 28 = 3 from h0]
  change matchRow3 w = _
  unfold matchRow3
  rw [show w / 2 ^ 25 = 26 from h]
  rfl

theorem matchRow_op27 {w : Nat} (h : w / 33554432 = 27) : matchRow w =
    if w / 262144 % 128 = 0 then some (.leave (w / 65536 % 4) (w / 1 % 65536)) else
    none := by
  have h0 : w / 268435456 = 3 := by omega
  unfold matchRow
  rw [show w / 2 ^ 28 = 3 from h0]
  change matchRow3 w = _
  unfold matchRow3
  rw [show w / 2 ^ 25 = 27 from h]
  rfl

theorem matchRow_op28 {w : Nat} (h : w / 33554432 = 28) : matchRow w =
    if w / 4096 % 32 = 0 then some (.psrd (w / 131072 % 256) (w / 1 % 4096)) else
    none := by
  have h0 : w / 268435456 = 3 := by omega
  unfold matchRow
  rw [show w / 2 ^ 28 = 3 from h0]
  change matchRow3 w = _
  unfold matchRow3
  rw [show w / 2 ^ 25 = 28 from h]
  rfl

theorem matchRow_op29 {w : Nat} (h : w / 33554432 = 29) : matchRow w =
    if w / 1 % 131072 = 2 then some (.pswrFqhead (w / 131072 % 256)) else
    if w / 1 % 131072 = 4 then some (.fdactRestart (w / 131072 % 256)) else
    if w / 4096 % 32 = 0 then some (.pswr (w / 131072 % 256) (w / 1 % 4096)) else
    none := by
  have h0 : w / 268435456 = 3 := by omega
  unfold matchRow
  rw [show w / 2 ^ 28 = 3 from h0]
  change matchRow3 w = _
  unfold matchRow3
  rw [show w / 2 ^ 25 = 29 from h]
  rfl

theorem matchRow_op30 {w : Nat} (h : w / 33554432 = 30) : matchRow w =
    if w / 1 % 512 = 0 ∧ w / 131072 % 256 = 0 then some (.tlbiPage (w / 512 % 256)) else
    if w / 1 % 512 = 1 ∧ w / 131072 % 256 = 0 then some (.tlbiRegion (w / 512 % 256)) else
    none := by
  have h0 : w / 268435456 = 3 := by omega
  unfold matchRow
  rw [show w / 2 ^ 28 = 3 from h0]
  change matchRow3 w = _
  unfold matchRow3
  rw [show w / 2 ^ 25 = 30 from h]
  rfl

theorem matchRow_op32 {w : Nat} (h : w / 33554432 = 32) : matchRow w =
    if w / 1 % 2 = 0 then some (.sadd (w / 131072 % 256) (w / 512 % 256) (w / 2 % 256)) else
    if w / 1 % 2 = 1 then some (.ssub (w / 131072 % 256) (w / 512 % 256) (w / 2 % 256)) else
    none := by
  have h0 : w / 268435456 = 4 := by omega
  unfold matchRow
  rw [show w / 2 ^ 28 = 4 from h0]
  change matchRow4 w = _
  unfold matchRow4
  rw [show w / 2 ^ 25 = 32 from h]
  rfl

theorem matchRow_op33 {w : Nat} (h : w / 33554432 = 33) : matchRow w =
    if w / 1 % 2 = 0 then some (.smul (w / 131072 % 256) (w / 512 % 256) (w / 2 % 256)) else
    if w / 1 % 2 = 1 then some (.smulh (w / 131072 % 256) (w / 512 % 256) (w / 2 % 256)) else
    none := by
  have h0 : w / 268435456 = 4 := by omega
  unfold matchRow
  rw [show w / 2 ^ 28 = 4 from h0]
  change matchRow4 w = _
  unfold matchRow4
  rw [show w / 2 ^ 25 = 33 from h]
  rfl

theorem matchRow_op34 {w : Nat} (h : w / 33554432 = 34) : matchRow w =
    if w / 1 % 2 = 0 then some (.sdiv (w / 131072 % 256) (w / 512 % 256) (w / 2 % 256)) else
    if w / 1 % 2 = 1 then some (.sdivu (w / 131072 % 256) (w / 512 % 256) (w / 2 % 256)) else
    none := by
  have h0 : w / 268435456 = 4 := by omega
  unfold matchRow
  rw [show w / 2 ^ 28 = 4 from h0]
  change matchRow4 w = _
  unfold matchRow4
  rw [show w / 2 ^ 25 = 34 from h]
  rfl

theorem matchRow_op35 {w : Nat} (h : w / 33554432 = 35) : matchRow w =
    if w / 1 % 2 = 0 then some (.srem (w / 131072 % 256) (w / 512 % 256) (w / 2 % 256)) else
    if w / 1 % 2 = 1 then some (.sremu (w / 131072 % 256) (w / 512 % 256) (w / 2 % 256)) else
    none := by
  have h0 : w / 268435456 = 4 := by omega
  unfold matchRow
  rw [show w / 2 ^ 28 = 4 from h0]
  change matchRow4 w = _
  unfold matchRow4
  rw [show w / 2 ^ 25 = 35 from h]
  rfl

theorem matchRow_op36 {w : Nat} (h : w / 33554432 = 36) : matchRow w =
    if w / 1 % 2 = 0 then some (.sand (w / 131072 % 256) (w / 512 % 256) (w / 2 % 256)) else
    if w / 1 % 2 = 1 then some (.sor (w / 131072 % 256) (w / 512 % 256) (w / 2 % 256)) else
    none := by
  have h0 : w / 268435456 = 4 := by omega
  unfold matchRow
  rw [show w / 2 ^ 28 = 4 from h0]
  change matchRow4 w = _
  unfold matchRow4
  rw [show w / 2 ^ 25 = 36 from h]
  rfl

theorem matchRow_op37 {w : Nat} (h : w / 33554432 = 37) : matchRow w =
    if w / 1 % 2 = 0 then some (.sxor (w / 131072 % 256) (w / 512 % 256) (w / 2 % 256)) else
    if w / 1 % 2 = 1 then some (.sandn (w / 131072 % 256) (w / 512 % 256) (w / 2 % 256)) else
    none := by
  have h0 : w / 268435456 = 4 := by omega
  unfold matchRow
  rw [show w / 2 ^ 28 = 4 from h0]
  change matchRow4 w = _
  unfold matchRow4
  rw [show w / 2 ^ 25 = 37 from h]
  rfl

theorem matchRow_op38 {w : Nat} (h : w / 33554432 = 38) : matchRow w =
    if w / 1 % 2 = 0 then some (.sshl (w / 131072 % 256) (w / 512 % 256) (w / 2 % 256)) else
    if w / 1 % 2 = 1 then some (.sshr (w / 131072 % 256) (w / 512 % 256) (w / 2 % 256)) else
    none := by
  have h0 : w / 268435456 = 4 := by omega
  unfold matchRow
  rw [show w / 2 ^ 28 = 4 from h0]
  change matchRow4 w = _
  unfold matchRow4
  rw [show w / 2 ^ 25 = 38 from h]
  rfl

theorem matchRow_op39 {w : Nat} (h : w / 33554432 = 39) : matchRow w =
    if w / 1 % 2 = 0 then some (.ssra (w / 131072 % 256) (w / 512 % 256) (w / 2 % 256)) else
    if w / 1 % 2 = 1 then some (.srotr (w / 131072 % 256) (w / 512 % 256) (w / 2 % 256)) else
    none := by
  have h0 : w / 268435456 = 4 := by omega
  unfold matchRow
  rw [show w / 2 ^ 28 = 4 from h0]
  change matchRow4 w = _
  unfold matchRow4
  rw [show w / 2 ^ 25 = 39 from h]
  rfl

theorem matchRow_op40 {w : Nat} (h : w / 33554432 = 40) : matchRow w =
    if w / 1 % 2 = 0 then some (.smin (w / 131072 % 256) (w / 512 % 256) (w / 2 % 256)) else
    if w / 1 % 2 = 1 then some (.smax (w / 131072 % 256) (w / 512 % 256) (w / 2 % 256)) else
    none := by
  have h0 : w / 268435456 = 5 := by omega
  unfold matchRow
  rw [show w / 2 ^ 28 = 5 from h0]
  change matchRow5 w = _
  unfold matchRow5
  rw [show w / 2 ^ 25 = 40 from h]
  rfl

theorem matchRow_op41 {w : Nat} (h : w / 33554432 = 41) : matchRow w =
    if w / 1 % 2 = 0 then some (.sminu (w / 131072 % 256) (w / 512 % 256) (w / 2 % 256)) else
    if w / 1 % 2 = 1 then some (.smaxu (w / 131072 % 256) (w / 512 % 256) (w / 2 % 256)) else
    none := by
  have h0 : w / 268435456 = 5 := by omega
  unfold matchRow
  rw [show w / 2 ^ 28 = 5 from h0]
  change matchRow5 w = _
  unfold matchRow5
  rw [show w / 2 ^ 25 = 41 from h]
  rfl

theorem matchRow_op42 {w : Nat} (h : w / 33554432 = 42) : matchRow w =
    if w / 1 % 2 = 0 then some (.sslt (w / 131072 % 256) (w / 512 % 256) (w / 2 % 256)) else
    if w / 1 % 2 = 1 then some (.ssltu (w / 131072 % 256) (w / 512 % 256) (w / 2 % 256)) else
    none := by
  have h0 : w / 268435456 = 5 := by omega
  unfold matchRow
  rw [show w / 2 ^ 28 = 5 from h0]
  change matchRow5 w = _
  unfold matchRow5
  rw [show w / 2 ^ 25 = 42 from h]
  rfl

theorem matchRow_op43 {w : Nat} (h : w / 33554432 = 43) : matchRow w =
    if w / 1 % 2 = 0 then some (.sseq (w / 131072 % 256) (w / 512 % 256) (w / 2 % 256)) else
    if w / 1 % 2 = 1 then some (.ssne (w / 131072 % 256) (w / 512 % 256) (w / 2 % 256)) else
    none := by
  have h0 : w / 268435456 = 5 := by omega
  unfold matchRow
  rw [show w / 2 ^ 28 = 5 from h0]
  change matchRow5 w = _
  unfold matchRow5
  rw [show w / 2 ^ 25 = 43 from h]
  rfl

theorem matchRow_op44 {w : Nat} (h : w / 33554432 = 44) : matchRow w =
    if w / 1 % 2 = 0 then some (.ssel (w / 131072 % 256) (w / 512 % 256) (w / 2 % 256)) else
    if w / 1 % 2 = 1 then some (.sselz (w / 131072 % 256) (w / 512 % 256) (w / 2 % 256)) else
    none := by
  have h0 : w / 268435456 = 5 := by omega
  unfold matchRow
  rw [show w / 2 ^ 28 = 5 from h0]
  change matchRow5 w = _
  unfold matchRow5
  rw [show w / 2 ^ 25 = 44 from h]
  rfl

theorem matchRow_op45 {w : Nat} (h : w / 33554432 = 45) : matchRow w =
    if w / 1 % 512 = 0 then some (.spopc (w / 131072 % 256) (w / 512 % 256)) else
    if w / 1 % 512 = 1 then some (.sclz (w / 131072 % 256) (w / 512 % 256)) else
    none := by
  have h0 : w / 268435456 = 5 := by omega
  unfold matchRow
  rw [show w / 2 ^ 28 = 5 from h0]
  change matchRow5 w = _
  unfold matchRow5
  rw [show w / 2 ^ 25 = 45 from h]
  rfl

theorem matchRow_op46 {w : Nat} (h : w / 33554432 = 46) : matchRow w =
    if w / 1 % 512 = 0 then some (.sctz (w / 131072 % 256) (w / 512 % 256)) else
    if w / 1 % 512 = 1 then some (.sbrev (w / 131072 % 256) (w / 512 % 256)) else
    none := by
  have h0 : w / 268435456 = 5 := by omega
  unfold matchRow
  rw [show w / 2 ^ 28 = 5 from h0]
  change matchRow5 w = _
  unfold matchRow5
  rw [show w / 2 ^ 25 = 46 from h]
  rfl

theorem matchRow_op47 {w : Nat} (h : w / 33554432 = 47) : matchRow w =
    some (.saddi (w / 131072 % 256) (w / 512 % 256) (w / 1 % 512)) := by
  have h0 : w / 268435456 = 5 := by omega
  unfold matchRow
  rw [show w / 2 ^ 28 = 5 from h0]
  change matchRow5 w = _
  unfold matchRow5
  rw [show w / 2 ^ 25 = 47 from h]
  rfl

theorem matchRow_op48 {w : Nat} (h : w / 33554432 = 48) : matchRow w =
    some (.sandi (w / 131072 % 256) (w / 512 % 256) (w / 1 % 512)) := by
  have h0 : w / 268435456 = 6 := by omega
  unfold matchRow
  rw [show w / 2 ^ 28 = 6 from h0]
  change matchRow6 w = _
  unfold matchRow6
  rw [show w / 2 ^ 25 = 48 from h]
  rfl

theorem matchRow_op49 {w : Nat} (h : w / 33554432 = 49) : matchRow w =
    some (.sori (w / 131072 % 256) (w / 512 % 256) (w / 1 % 512)) := by
  have h0 : w / 268435456 = 6 := by omega
  unfold matchRow
  rw [show w / 2 ^ 28 = 6 from h0]
  change matchRow6 w = _
  unfold matchRow6
  rw [show w / 2 ^ 25 = 49 from h]
  rfl

theorem matchRow_op50 {w : Nat} (h : w / 33554432 = 50) : matchRow w =
    some (.sxori (w / 131072 % 256) (w / 512 % 256) (w / 1 % 512)) := by
  have h0 : w / 268435456 = 6 := by omega
  unfold matchRow
  rw [show w / 2 ^ 28 = 6 from h0]
  change matchRow6 w = _
  unfold matchRow6
  rw [show w / 2 ^ 25 = 50 from h]
  rfl

theorem matchRow_op51 {w : Nat} (h : w / 33554432 = 51) : matchRow w =
    if w / 64 % 8 = 0 then some (.sshli (w / 131072 % 256) (w / 512 % 256) (w / 1 % 64)) else
    none := by
  have h0 : w / 268435456 = 6 := by omega
  unfold matchRow
  rw [show w / 2 ^ 28 = 6 from h0]
  change matchRow6 w = _
  unfold matchRow6
  rw [show w / 2 ^ 25 = 51 from h]
  rfl

theorem matchRow_op52 {w : Nat} (h : w / 33554432 = 52) : matchRow w =
    if w / 64 % 8 = 0 then some (.sshri (w / 131072 % 256) (w / 512 % 256) (w / 1 % 64)) else
    none := by
  have h0 : w / 268435456 = 6 := by omega
  unfold matchRow
  rw [show w / 2 ^ 28 = 6 from h0]
  change matchRow6 w = _
  unfold matchRow6
  rw [show w / 2 ^ 25 = 52 from h]
  rfl

theorem matchRow_op53 {w : Nat} (h : w / 33554432 = 53) : matchRow w =
    if w / 64 % 8 = 0 then some (.ssrai (w / 131072 % 256) (w / 512 % 256) (w / 1 % 64)) else
    none := by
  have h0 : w / 268435456 = 6 := by omega
  unfold matchRow
  rw [show w / 2 ^ 28 = 6 from h0]
  change matchRow6 w = _
  unfold matchRow6
  rw [show w / 2 ^ 25 = 53 from h]
  rfl

theorem matchRow_op54 {w : Nat} (h : w / 33554432 = 54) : matchRow w =
    some (.sslti (w / 131072 % 256) (w / 512 % 256) (w / 1 % 512)) := by
  have h0 : w / 268435456 = 6 := by omega
  unfold matchRow
  rw [show w / 2 ^ 28 = 6 from h0]
  change matchRow6 w = _
  unfold matchRow6
  rw [show w / 2 ^ 25 = 54 from h]
  rfl

theorem matchRow_op55 {w : Nat} (h : w / 33554432 = 55) : matchRow w =
    some (.sli (w / 131072 % 256) (w / 1 % 131072)) := by
  have h0 : w / 268435456 = 6 := by omega
  unfold matchRow
  rw [show w / 2 ^ 28 = 6 from h0]
  change matchRow6 w = _
  unfold matchRow6
  rw [show w / 2 ^ 25 = 55 from h]
  rfl

theorem matchRow_op56 {w : Nat} (h : w / 33554432 = 56) : matchRow w =
    some (.slui (w / 131072 % 256) (w / 1 % 131072)) := by
  have h0 : w / 268435456 = 7 := by omega
  unfold matchRow
  rw [show w / 2 ^ 28 = 7 from h0]
  change matchRow7 w = _
  unfold matchRow7
  rw [show w / 2 ^ 25 = 56 from h]
  rfl

theorem matchRow_op57 {w : Nat} (h : w / 33554432 = 57) : matchRow w =
    some (.sld64 (w / 131072 % 256) (w / 512 % 256) (w / 16 % 32) (w / 1 % 16)) := by
  have h0 : w / 268435456 = 7 := by omega
  unfold matchRow
  rw [show w / 2 ^ 28 = 7 from h0]
  change matchRow7 w = _
  unfold matchRow7
  rw [show w / 2 ^ 25 = 57 from h]
  rfl

theorem matchRow_op58 {w : Nat} (h : w / 33554432 = 58) : matchRow w =
    some (.sld32 (w / 131072 % 256) (w / 512 % 256) (w / 16 % 32) (w / 1 % 16)) := by
  have h0 : w / 268435456 = 7 := by omega
  unfold matchRow
  rw [show w / 2 ^ 28 = 7 from h0]
  change matchRow7 w = _
  unfold matchRow7
  rw [show w / 2 ^ 25 = 58 from h]
  rfl

theorem matchRow_op59 {w : Nat} (h : w / 33554432 = 59) : matchRow w =
    some (.sst64 (w / 131072 % 256) (w / 512 % 256) (w / 16 % 32) (w / 1 % 16)) := by
  have h0 : w / 268435456 = 7 := by omega
  unfold matchRow
  rw [show w / 2 ^ 28 = 7 from h0]
  change matchRow7 w = _
  unfold matchRow7
  rw [show w / 2 ^ 25 = 59 from h]
  rfl

theorem matchRow_op60 {w : Nat} (h : w / 33554432 = 60) : matchRow w =
    some (.sst32 (w / 131072 % 256) (w / 512 % 256) (w / 16 % 32) (w / 1 % 16)) := by
  have h0 : w / 268435456 = 7 := by omega
  unfold matchRow
  rw [show w / 2 ^ 28 = 7 from h0]
  change matchRow7 w = _
  unfold matchRow7
  rw [show w / 2 ^ 25 = 60 from h]
  rfl

theorem matchRow_op61 {w : Nat} (h : w / 33554432 = 61) : matchRow w =
    some (.vld8 (w / 262144 % 128) (w / 4096 % 64) (w / 32 % 128) (w / 2 % 16) (w / 1 % 2)) := by
  have h0 : w / 268435456 = 7 := by omega
  unfold matchRow
  rw [show w / 2 ^ 28 = 7 from h0]
  change matchRow7 w = _
  unfold matchRow7
  rw [show w / 2 ^ 25 = 61 from h]
  rfl

theorem matchRow_op62 {w : Nat} (h : w / 33554432 = 62) : matchRow w =
    some (.vld16 (w / 262144 % 128) (w / 4096 % 64) (w / 32 % 128) (w / 2 % 16) (w / 1 % 2)) := by
  have h0 : w / 268435456 = 7 := by omega
  unfold matchRow
  rw [show w / 2 ^ 28 = 7 from h0]
  change matchRow7 w = _
  unfold matchRow7
  rw [show w / 2 ^ 25 = 62 from h]
  rfl

theorem matchRow_op63 {w : Nat} (h : w / 33554432 = 63) : matchRow w =
    some (.vld32 (w / 262144 % 128) (w / 4096 % 64) (w / 32 % 128) (w / 2 % 16) (w / 1 % 2)) := by
  have h0 : w / 268435456 = 7 := by omega
  unfold matchRow
  rw [show w / 2 ^ 28 = 7 from h0]
  change matchRow7 w = _
  unfold matchRow7
  rw [show w / 2 ^ 25 = 63 from h]
  rfl

theorem matchRow_op64 {w : Nat} (h : w / 33554432 = 64) : matchRow w =
    some (.vld64 (w / 262144 % 128) (w / 4096 % 64) (w / 32 % 128) (w / 2 % 16) (w / 1 % 2)) := by
  have h0 : w / 268435456 = 8 := by omega
  unfold matchRow
  rw [show w / 2 ^ 28 = 8 from h0]
  change matchRow8 w = _
  unfold matchRow8
  rw [show w / 2 ^ 25 = 64 from h]
  rfl

theorem matchRow_op65 {w : Nat} (h : w / 33554432 = 65) : matchRow w =
    some (.vldb (w / 262144 % 128) (w / 4096 % 64) (w / 32 % 128) (w / 2 % 16) (w / 1 % 2)) := by
  have h0 : w / 268435456 = 8 := by omega
  unfold matchRow
  rw [show w / 2 ^ 28 = 8 from h0]
  change matchRow8 w = _
  unfold matchRow8
  rw [show w / 2 ^ 25 = 65 from h]
  rfl

theorem matchRow_op66 {w : Nat} (h : w / 33554432 = 66) : matchRow w =
    some (.vst8 (w / 262144 % 128) (w / 4096 % 64) (w / 32 % 128) (w / 2 % 16) (w / 1 % 2)) := by
  have h0 : w / 268435456 = 8 := by omega
  unfold matchRow
  rw [show w / 2 ^ 28 = 8 from h0]
  change matchRow8 w = _
  unfold matchRow8
  rw [show w / 2 ^ 25 = 66 from h]
  rfl

theorem matchRow_op67 {w : Nat} (h : w / 33554432 = 67) : matchRow w =
    some (.vst16 (w / 262144 % 128) (w / 4096 % 64) (w / 32 % 128) (w / 2 % 16) (w / 1 % 2)) := by
  have h0 : w / 268435456 = 8 := by omega
  unfold matchRow
  rw [show w / 2 ^ 28 = 8 from h0]
  change matchRow8 w = _
  unfold matchRow8
  rw [show w / 2 ^ 25 = 67 from h]
  rfl

theorem matchRow_op68 {w : Nat} (h : w / 33554432 = 68) : matchRow w =
    some (.vst32 (w / 262144 % 128) (w / 4096 % 64) (w / 32 % 128) (w / 2 % 16) (w / 1 % 2)) := by
  have h0 : w / 268435456 = 8 := by omega
  unfold matchRow
  rw [show w / 2 ^ 28 = 8 from h0]
  change matchRow8 w = _
  unfold matchRow8
  rw [show w / 2 ^ 25 = 68 from h]
  rfl

theorem matchRow_op69 {w : Nat} (h : w / 33554432 = 69) : matchRow w =
    some (.vst64 (w / 262144 % 128) (w / 4096 % 64) (w / 32 % 128) (w / 2 % 16) (w / 1 % 2)) := by
  have h0 : w / 268435456 = 8 := by omega
  unfold matchRow
  rw [show w / 2 ^ 28 = 8 from h0]
  change matchRow8 w = _
  unfold matchRow8
  rw [show w / 2 ^ 25 = 69 from h]
  rfl

theorem matchRow_op70 {w : Nat} (h : w / 33554432 = 70) : matchRow w =
    some (.vstb (w / 262144 % 128) (w / 4096 % 64) (w / 32 % 128) (w / 2 % 16) (w / 1 % 2)) := by
  have h0 : w / 268435456 = 8 := by omega
  unfold matchRow
  rw [show w / 2 ^ 28 = 8 from h0]
  change matchRow8 w = _
  unfold matchRow8
  rw [show w / 2 ^ 25 = 70 from h]
  rfl

theorem matchRow_op71 {w : Nat} (h : w / 33554432 = 71) : matchRow w =
    some (.vatom (w / 262144 % 128) (w / 2048 % 128) (w / 256 % 8) (w / 16 % 16) (w / 1 % 16)) := by
  have h0 : w / 268435456 = 8 := by omega
  unfold matchRow
  rw [show w / 2 ^ 28 = 8 from h0]
  change matchRow8 w = _
  unfold matchRow8
  rw [show w / 2 ^ 25 = 71 from h]
  rfl

theorem matchRow_op72 {w : Nat} (h : w / 33554432 = 72) : matchRow w =
    some (.satom (w / 131072 % 256) (w / 512 % 256) (w / 32 % 16) (w / 16 % 2) (w / 1 % 16)) := by
  have h0 : w / 268435456 = 9 := by omega
  unfold matchRow
  rw [show w / 2 ^ 28 = 9 from h0]
  change matchRow9 w = _
  unfold matchRow9
  rw [show w / 2 ^ 25 = 72 from h]
  rfl

theorem matchRow_op73 {w : Nat} (h : w / 33554432 = 73) : matchRow w =
    if w / 1 % 512 = 0 then some (.sptest (w / 131072 % 256) (w / 512 % 256)) else
    none := by
  have h0 : w / 268435456 = 9 := by omega
  unfold matchRow
  rw [show w / 2 ^ 28 = 9 from h0]
  change matchRow9 w = _
  unfold matchRow9
  rw [show w / 2 ^ 25 = 73 from h]
  rfl

theorem matchRow_op74 {w : Nat} (h : w / 33554432 = 74) : matchRow w =
    if w / 1 % 2 = 0 ∧ w / 32 % 16 = 0 then some (.spcast (w / 131072 % 256) (w / 512 % 256) (w / 16 % 2) (w / 2 % 8)) else
    none := by
  have h0 : w / 268435456 = 9 := by omega
  unfold matchRow
  rw [show w / 2 ^ 28 = 9 from h0]
  change matchRow9 w = _
  unfold matchRow9
  rw [show w / 2 ^ 25 = 74 from h]
  rfl

theorem matchRow_op75 {w : Nat} (h : w / 33554432 = 75) : matchRow w =
    if w / 1 % 2048 = 0 then some (.vsptest (w / 262144 % 128) (w / 2048 % 128)) else
    none := by
  have h0 : w / 268435456 = 9 := by omega
  unfold matchRow
  rw [show w / 2 ^ 28 = 9 from h0]
  change matchRow9 w = _
  unfold matchRow9
  rw [show w / 2 ^ 25 = 75 from h]
  rfl

theorem matchRow_op76 {w : Nat} (h : w / 33554432 = 76) : matchRow w =
    if w / 1 % 16 = 0 ∧ w / 256 % 8 = 0 then some (.vspcast (w / 262144 % 128) (w / 2048 % 128) (w / 128 % 2) (w / 16 % 8)) else
    none := by
  have h0 : w / 268435456 = 9 := by omega
  unfold matchRow
  rw [show w / 2 ^ 28 = 9 from h0]
  change matchRow9 w = _
  unfold matchRow9
  rw [show w / 2 ^ 25 = 76 from h]
  rfl

theorem matchRow_op77 {w : Nat} (h : w / 33554432 = 77) : matchRow w =
    if w / 1 % 16 = 0 ∧ w / 131072 % 256 = 0 then some (.prefL1 (w / 512 % 256) (w / 16 % 32)) else
    if w / 1 % 16 = 0 ∧ w / 131072 % 256 = 1 then some (.prefL2 (w / 512 % 256) (w / 16 % 32)) else
    none := by
  have h0 : w / 268435456 = 9 := by omega
  unfold matchRow
  rw [show w / 2 ^ 28 = 9 from h0]
  change matchRow9 w = _
  unfold matchRow9
  rw [show w / 2 ^ 25 = 77 from h]
  rfl

theorem matchRow_op78 {w : Nat} (h : w / 33554432 = 78) : matchRow w =
    if w / 1 % 33554432 = 2 then some (.cctlL1all) else
    if w / 1 % 512 = 0 ∧ w / 131072 % 256 = 0 then some (.cctlL1line (w / 512 % 256)) else
    if w / 1 % 512 = 4 ∧ w / 131072 % 256 = 0 then some (.cctlL2evict (w / 512 % 256)) else
    none := by
  have h0 : w / 268435456 = 9 := by omega
  unfold matchRow
  rw [show w / 2 ^ 28 = 9 from h0]
  change matchRow9 w = _
  unfold matchRow9
  rw [show w / 2 ^ 25 = 78 from h]
  rfl

theorem matchRow_op80 {w : Nat} (h : w / 33554432 = 80) : matchRow w =
    if w / 1 % 16 = 0 then some (.vadd (w / 262144 % 128) (w / 2048 % 128) (w / 16 % 128)) else
    if w / 1 % 16 = 1 then some (.vsub (w / 262144 % 128) (w / 2048 % 128) (w / 16 % 128)) else
    if w / 1 % 16 = 2 then some (.vmul (w / 262144 % 128) (w / 2048 % 128) (w / 16 % 128)) else
    if w / 1 % 16 = 3 then some (.vmulh (w / 262144 % 128) (w / 2048 % 128) (w / 16 % 128)) else
    if w / 1 % 16 = 4 then some (.vmin (w / 262144 % 128) (w / 2048 % 128) (w / 16 % 128)) else
    if w / 1 % 16 = 5 then some (.vmax (w / 262144 % 128) (w / 2048 % 128) (w / 16 % 128)) else
    if w / 1 % 16 = 6 then some (.vabsd (w / 262144 % 128) (w / 2048 % 128) (w / 16 % 128)) else
    if w / 1 % 16 = 7 then some (.vdiv (w / 262144 % 128) (w / 2048 % 128) (w / 16 % 128)) else
    if w / 1 % 16 = 8 then some (.vrem (w / 262144 % 128) (w / 2048 % 128) (w / 16 % 128)) else
    if w / 1 % 16 = 9 then some (.vfma (w / 262144 % 128) (w / 2048 % 128) (w / 16 % 128)) else
    if w / 1 % 16 = 10 then some (.vfms (w / 262144 % 128) (w / 2048 % 128) (w / 16 % 128)) else
    if w / 1 % 16 = 11 then some (.vfnma (w / 262144 % 128) (w / 2048 % 128) (w / 16 % 128)) else
    if w / 1 % 16 = 12 then some (.vaddsat (w / 262144 % 128) (w / 2048 % 128) (w / 16 % 128)) else
    if w / 1 % 16 = 13 then some (.vsubsat (w / 262144 % 128) (w / 2048 % 128) (w / 16 % 128)) else
    if w / 1 % 16 = 14 then some (.vavg (w / 262144 % 128) (w / 2048 % 128) (w / 16 % 128)) else
    if w / 1 % 16 = 15 then some (.vcopysign (w / 262144 % 128) (w / 2048 % 128) (w / 16 % 128)) else
    none := by
  have h0 : w / 268435456 = 10 := by omega
  unfold matchRow
  rw [show w / 2 ^ 28 = 10 from h0]
  change matchRow10 w = _
  unfold matchRow10
  rw [show w / 2 ^ 25 = 80 from h]
  rfl

theorem matchRow_op81 {w : Nat} (h : w / 33554432 = 81) : matchRow w =
    if w / 1 % 16 = 0 then some (.vand (w / 262144 % 128) (w / 2048 % 128) (w / 16 % 128)) else
    if w / 1 % 16 = 1 then some (.vor (w / 262144 % 128) (w / 2048 % 128) (w / 16 % 128)) else
    if w / 1 % 16 = 2 then some (.vxor (w / 262144 % 128) (w / 2048 % 128) (w / 16 % 128)) else
    if w / 1 % 16 = 3 then some (.vandn (w / 262144 % 128) (w / 2048 % 128) (w / 16 % 128)) else
    if w / 1 % 16 = 4 then some (.vshl (w / 262144 % 128) (w / 2048 % 128) (w / 16 % 128)) else
    if w / 1 % 16 = 5 then some (.vshr (w / 262144 % 128) (w / 2048 % 128) (w / 16 % 128)) else
    if w / 1 % 16 = 6 then some (.vsra (w / 262144 % 128) (w / 2048 % 128) (w / 16 % 128)) else
    if w / 1 % 16 = 7 then some (.vrotr (w / 262144 % 128) (w / 2048 % 128) (w / 16 % 128)) else
    none := by
  have h0 : w / 268435456 = 10 := by omega
  unfold matchRow
  rw [show w / 2 ^ 28 = 10 from h0]
  change matchRow10 w = _
  unfold matchRow10
  rw [show w / 2 ^ 25 = 81 from h]
  rfl

theorem matchRow_op82 {w : Nat} (h : w / 33554432 = 82) : matchRow w =
    some (.vaddi (w / 262144 % 128) (w / 2048 % 128) (w / 1 % 2048)) := by
  have h0 : w / 268435456 = 10 := by omega
  unfold matchRow
  rw [show w / 2 ^ 28 = 10 from h0]
  change matchRow10 w = _
  unfold matchRow10
  rw [show w / 2 ^ 25 = 82 from h]
  rfl

theorem matchRow_op83 {w : Nat} (h : w / 33554432 = 83) : matchRow w =
    some (.vmuli (w / 262144 % 128) (w / 2048 % 128) (w / 1 % 2048)) := by
  have h0 : w / 268435456 = 10 := by omega
  unfold matchRow
  rw [show w / 2 ^ 28 = 10 from h0]
  change matchRow10 w = _
  unfold matchRow10
  rw [show w / 2 ^ 25 = 83 from h]
  rfl

theorem matchRow_op84 {w : Nat} (h : w / 33554432 = 84) : matchRow w =
    some (.vandi (w / 262144 % 128) (w / 2048 % 128) (w / 1 % 2048)) := by
  have h0 : w / 268435456 = 10 := by omega
  unfold matchRow
  rw [show w / 2 ^ 28 = 10 from h0]
  change matchRow10 w = _
  unfold matchRow10
  rw [show w / 2 ^ 25 = 84 from h]
  rfl

theorem matchRow_op85 {w : Nat} (h : w / 33554432 = 85) : matchRow w =
    some (.vori (w / 262144 % 128) (w / 2048 % 128) (w / 1 % 2048)) := by
  have h0 : w / 268435456 = 10 := by omega
  unfold matchRow
  rw [show w / 2 ^ 28 = 10 from h0]
  change matchRow10 w = _
  unfold matchRow10
  rw [show w / 2 ^ 25 = 85 from h]
  rfl

theorem matchRow_op86 {w : Nat} (h : w / 33554432 = 86) : matchRow w =
    if w / 64 % 32 = 0 then some (.vshli (w / 262144 % 128) (w / 2048 % 128) (w / 1 % 64)) else
    if w / 64 % 32 = 1 then some (.vshri (w / 262144 % 128) (w / 2048 % 128) (w / 1 % 64)) else
    if w / 64 % 32 = 2 then some (.vsrai (w / 262144 % 128) (w / 2048 % 128) (w / 1 % 64)) else
    if w / 64 % 32 = 3 then some (.vrotri (w / 262144 % 128) (w / 2048 % 128) (w / 1 % 64)) else
    none := by
  have h0 : w / 268435456 = 10 := by omega
  unfold matchRow
  rw [show w / 2 ^ 28 = 10 from h0]
  change matchRow10 w = _
  unfold matchRow10
  rw [show w / 2 ^ 25 = 86 from h]
  rfl

theorem matchRow_op87 {w : Nat} (h : w / 33554432 = 87) : matchRow w =
    if w / 2048 % 128 = 0 then some (.vmovi (w / 262144 % 128) (w / 1 % 2048)) else
    none := by
  have h0 : w / 268435456 = 10 := by omega
  unfold matchRow
  rw [show w / 2 ^ 28 = 10 from h0]
  change matchRow10 w = _
  unfold matchRow10
  rw [show w / 2 ^ 25 = 87 from h]
  rfl

theorem matchRow_op88 {w : Nat} (h : w / 33554432 = 88) : matchRow w =
    if w / 1 % 2048 = 0 then some (.vmov (w / 262144 % 128) (w / 2048 % 128)) else
    if w / 1 % 2048 = 1 then some (.vneg (w / 262144 % 128) (w / 2048 % 128)) else
    if w / 1 % 2048 = 2 then some (.vabs (w / 262144 % 128) (w / 2048 % 128)) else
    if w / 1 % 2048 = 3 then some (.vnot (w / 262144 % 128) (w / 2048 % 128)) else
    if w / 1 % 2048 = 4 then some (.vpopc (w / 262144 % 128) (w / 2048 % 128)) else
    if w / 1 % 2048 = 5 then some (.vclz (w / 262144 % 128) (w / 2048 % 128)) else
    if w / 1 % 2048 = 6 then some (.vsext8 (w / 262144 % 128) (w / 2048 % 128)) else
    if w / 1 % 2048 = 7 then some (.vsext16 (w / 262144 % 128) (w / 2048 % 128)) else
    if w / 1 % 2048 = 8 then some (.vrcp (w / 262144 % 128) (w / 2048 % 128)) else
    if w / 1 % 2048 = 9 then some (.vrsq (w / 262144 % 128) (w / 2048 % 128)) else
    if w / 1 % 2048 = 10 then some (.vsqrt (w / 262144 % 128) (w / 2048 % 128)) else
    if w / 1 % 2048 = 11 then some (.vexp2 (w / 262144 % 128) (w / 2048 % 128)) else
    if w / 1 % 2048 = 12 then some (.vlog2 (w / 262144 % 128) (w / 2048 % 128)) else
    if w / 1 % 2048 = 13 then some (.vsin (w / 262144 % 128) (w / 2048 % 128)) else
    if w / 1 % 2048 = 14 then some (.vcos (w / 262144 % 128) (w / 2048 % 128)) else
    if w / 1 % 2048 = 15 then some (.vtanh (w / 262144 % 128) (w / 2048 % 128)) else
    none := by
  have h0 : w / 268435456 = 11 := by omega
  unfold matchRow
  rw [show w / 2 ^ 28 = 11 from h0]
  change matchRow11 w = _
  unfold matchRow11
  rw [show w / 2 ^ 25 = 88 from h]
  rfl

theorem matchRow_op89 {w : Nat} (h : w / 33554432 = 89) : matchRow w =
    if w / 1 % 16 = 0 ∧ w / 256 % 8 = 0 then some (.vcvt (w / 262144 % 128) (w / 2048 % 128) (w / 16 % 16)) else
    none := by
  have h0 : w / 268435456 = 11 := by omega
  unfold matchRow
  rw [show w / 2 ^ 28 = 11 from h0]
  change matchRow11 w = _
  unfold matchRow11
  rw [show w / 2 ^ 25 = 89 from h]
  rfl

theorem matchRow_op90 {w : Nat} (h : w / 33554432 = 90) : matchRow w =
    if w / 1 % 8 = 5 ∧ w / 2048 % 128 = 0 then some (.vbcast (w / 262144 % 128) (w / 8 % 256)) else
    if w / 1 % 8 = 0 then some (.vadds (w / 262144 % 128) (w / 2048 % 128) (w / 8 % 256)) else
    if w / 1 % 8 = 1 then some (.vmuls (w / 262144 % 128) (w / 2048 % 128) (w / 8 % 256)) else
    if w / 1 % 8 = 2 then some (.vfmas (w / 262144 % 128) (w / 2048 % 128) (w / 8 % 256)) else
    if w / 1 % 8 = 3 then some (.vmins (w / 262144 % 128) (w / 2048 % 128) (w / 8 % 256)) else
    if w / 1 % 8 = 4 then some (.vmaxs (w / 262144 % 128) (w / 2048 % 128) (w / 8 % 256)) else
    if w / 1 % 8 = 6 then some (.vshls (w / 262144 % 128) (w / 2048 % 128) (w / 8 % 256)) else
    if w / 1 % 8 = 7 then some (.vshrs (w / 262144 % 128) (w / 2048 % 128) (w / 8 % 256)) else
    none := by
  have h0 : w / 268435456 = 11 := by omega
  unfold matchRow
  rw [show w / 2 ^ 28 = 11 from h0]
  change matchRow11 w = _
  unfold matchRow11
  rw [show w / 2 ^ 25 = 90 from h]
  rfl

theorem matchRow_op91 {w : Nat} (h : w / 33554432 = 91) : matchRow w =
    some (.vcmp (w / 2097152 % 16) (w / 16384 % 128) (w / 128 % 128) (w / 8 % 16) (w / 1 % 8)) := by
  have h0 : w / 268435456 = 11 := by omega
  unfold matchRow
  rw [show w / 2 ^ 28 = 11 from h0]
  change matchRow11 w = _
  unfold matchRow11
  rw [show w / 2 ^ 25 = 91 from h]
  rfl

theorem matchRow_op92 {w : Nat} (h : w / 33554432 = 92) : matchRow w =
    some (.vcmps (w / 2097152 % 16) (w / 16384 % 128) (w / 64 % 256) (w / 4 % 16) (w / 1 % 4)) := by
  have h0 : w / 268435456 = 11 := by omega
  unfold matchRow
  rw [show w / 2 ^ 28 = 11 from h0]
  change matchRow11 w = _
  unfold matchRow11
  rw [show w / 2 ^ 25 = 92 from h]
  rfl

theorem matchRow_op93 {w : Nat} (h : w / 33554432 = 93) : matchRow w =
    some (.vsel (w / 262144 % 128) (w / 2048 % 128) (w / 16 % 128) (w / 1 % 16)) := by
  have h0 : w / 268435456 = 11 := by omega
  unfold matchRow
  rw [show w / 2 ^ 28 = 11 from h0]
  change matchRow11 w = _
  unfold matchRow11
  rw [show w / 2 ^ 25 = 93 from h]
  rfl

theorem matchRow_op94 {w : Nat} (h : w / 33554432 = 94) : matchRow w =
    if w / 1 % 2097152 = 5120 then some (.pset (w / 2097152 % 16)) else
    if w / 1 % 2097152 = 6144 then some (.pclr (w / 2097152 % 16)) else
    if w / 1 % 131072 = 4096 then some (.pnot (w / 2097152 % 16) (w / 131072 % 16)) else
    if w / 1 % 131072 = 7168 then some (.pmov (w / 2097152 % 16) (w / 131072 % 16)) else
    if w / 1 % 8192 = 0 then some (.pand (w / 2097152 % 16) (w / 131072 % 16) (w / 8192 % 16)) else
    if w / 1 % 8192 = 1024 then some (.por (w / 2097152 % 16) (w / 131072 % 16) (w / 8192 % 16)) else
    if w / 1 % 8192 = 2048 then some (.pxor (w / 2097152 % 16) (w / 131072 % 16) (w / 8192 % 16)) else
    if w / 1 % 8192 = 3072 then some (.pandn (w / 2097152 % 16) (w / 131072 % 16) (w / 8192 % 16)) else
    none := by
  have h0 : w / 268435456 = 11 := by omega
  unfold matchRow
  rw [show w / 2 ^ 28 = 11 from h0]
  change matchRow11 w = _
  unfold matchRow11
  rw [show w / 2 ^ 25 = 94 from h]
  rfl

theorem matchRow_op95 {w : Nat} (h : w / 33554432 = 95) : matchRow w =
    if w / 1 % 16 = 0 then some (.vshfl (w / 262144 % 128) (w / 2048 % 128) (w / 16 % 128)) else
    if w / 1 % 16 = 1 then some (.vshflTeam (w / 262144 % 128) (w / 2048 % 128) (w / 16 % 128)) else
    none := by
  have h0 : w / 268435456 = 11 := by omega
  unfold matchRow
  rw [show w / 2 ^ 28 = 11 from h0]
  change matchRow11 w = _
  unfold matchRow11
  rw [show w / 2 ^ 25 = 95 from h]
  rfl

theorem matchRow_op96 {w : Nat} (h : w / 33554432 = 96) : matchRow w =
    if w / 262144 % 128 = 0 then some (.vred (w / 2048 % 128) (w / 8 % 256) (w / 1 % 8)) else
    none := by
  have h0 : w / 268435456 = 12 := by omega
  unfold matchRow
  rw [show w / 2 ^ 28 = 12 from h0]
  change matchRow12 w = _
  unfold matchRow12
  rw [show w / 2 ^ 25 = 96 from h]
  rfl

theorem matchRow_op97 {w : Nat} (h : w / 33554432 = 97) : matchRow w =
    some (.vscan (w / 262144 % 128) (w / 2048 % 128) (w / 8 % 256) (w / 1 % 8)) := by
  have h0 : w / 268435456 = 12 := by omega
  unfold matchRow
  rw [show w / 2 ^ 28 = 12 from h0]
  change matchRow12 w = _
  unfold matchRow12
  rw [show w / 2 ^ 25 = 97 from h]
  rfl

theorem matchRow_op98 {w : Nat} (h : w / 33554432 = 98) : matchRow w =
    if w / 32768 % 8 = 0 then some (.vball (w / 262144 % 128) (w / 2048 % 16) (w / 8 % 256) (w / 1 % 8)) else
    none := by
  have h0 : w / 268435456 = 12 := by omega
  unfold matchRow
  rw [show w / 2 ^ 28 = 12 from h0]
  change matchRow12 w = _
  unfold matchRow12
  rw [show w / 2 ^ 25 = 98 from h]
  rfl

theorem matchRow_op99 {w : Nat} (h : w / 33554432 = 99) : matchRow w =
    some (.vnzs (w / 262144 % 128) (w / 2048 % 128) (w / 8 % 256) (w / 1 % 8)) := by
  have h0 : w / 268435456 = 12 := by omega
  unfold matchRow
  rw [show w / 2 ^ 28 = 12 from h0]
  change matchRow12 w = _
  unfold matchRow12
  rw [show w / 2 ^ 25 = 99 from h]
  rfl

theorem matchRow_op100 {w : Nat} (h : w / 33554432 = 100) : matchRow w =
    if w / 1 % 16 = 0 then some (.visect (w / 262144 % 128) (w / 2048 % 128) (w / 16 % 128)) else
    none := by
  have h0 : w / 268435456 = 12 := by omega
  unfold matchRow
  rw [show w / 2 ^ 28 = 12 from h0]
  change matchRow12 w = _
  unfold matchRow12
  rw [show w / 2 ^ 25 = 100 from h]
  rfl

theorem matchRow_op101 {w : Nat} (h : w / 33554432 = 101) : matchRow w =
    if w / 1 % 16 = 7 ∧ w / 256 % 8 = 0 ∧ w / 262144 % 128 = 0 then some (.vhist (w / 2048 % 128) (w / 16 % 16)) else
    if w / 1 % 2048 = 0 then some (.vbmax (w / 262144 % 128) (w / 2048 % 128)) else
    if w / 1 % 16 = 1 ∧ w / 256 % 8 = 0 then some (.vscsel (w / 262144 % 128) (w / 2048 % 128) (w / 16 % 16)) else
    if w / 1 % 16 = 2 ∧ w / 256 % 8 = 0 then some (.vqnt (w / 262144 % 128) (w / 2048 % 128) (w / 16 % 16)) else
    if w / 1 % 16 = 3 ∧ w / 256 % 8 = 0 then some (.vdq (w / 262144 % 128) (w / 2048 % 128) (w / 16 % 16)) else
    if w / 1 % 16 = 6 ∧ w / 256 % 8 = 0 then some (.vreq (w / 262144 % 128) (w / 2048 % 128) (w / 16 % 16)) else
    if w / 1 % 16 = 4 then some (.vpack (w / 262144 % 128) (w / 2048 % 128) (w / 256 % 8) (w / 16 % 16)) else
    if w / 1 % 16 = 5 then some (.vunpk (w / 262144 % 128) (w / 2048 % 128) (w / 256 % 8) (w / 16 % 16)) else
    none := by
  have h0 : w / 268435456 = 12 := by omega
  unfold matchRow
  rw [show w / 2 ^ 28 = 12 from h0]
  change matchRow12 w = _
  unfold matchRow12
  rw [show w / 2 ^ 25 = 101 from h]
  rfl

theorem matchRow_op102 {w : Nat} (h : w / 33554432 = 102) : matchRow w =
    if w / 1 % 2 = 0 then some (.spctl (w / 131072 % 256) (w / 512 % 256) (w / 2 % 256)) else
    none := by
  have h0 : w / 268435456 = 12 := by omega
  unfold matchRow
  rw [show w / 2 ^ 28 = 12 from h0]
  change matchRow12 w = _
  unfold matchRow12
  rw [show w / 2 ^ 25 = 102 from h]
  rfl

theorem matchRow_op103 {w : Nat} (h : w / 33554432 = 103) : matchRow w =
    if w / 16 % 16384 = 0 then some (.vlane (w / 262144 % 128) (w / 1 % 16)) else
    none := by
  have h0 : w / 268435456 = 12 := by omega
  unfold matchRow
  rw [show w / 2 ^ 28 = 12 from h0]
  change matchRow12 w = _
  unfold matchRow12
  rw [show w / 2 ^ 25 = 103 from h]
  rfl

theorem matchRow_op104 {w : Nat} (h : w / 33554432 = 104) : matchRow w =
    if w / 1 % 2048 = 0 then some (.vsideRd (w / 262144 % 128) (w / 2048 % 128)) else
    if w / 1 % 2048 = 1 then some (.vsideWr (w / 262144 % 128) (w / 2048 % 128)) else
    none := by
  have h0 : w / 268435456 = 13 := by omega
  unfold matchRow
  rw [show w / 2 ^ 28 = 13 from h0]
  change matchRow13 w = _
  unfold matchRow13
  rw [show w / 2 ^ 25 = 104 from h]
  rfl

theorem matchRow_op105 {w : Nat} (h : w / 33554432 = 105) : matchRow w =
    if w / 1 % 2 = 0 then some (.xcntSet (w / 131072 % 256) (w / 512 % 256) (w / 2 % 256)) else
    if w / 1 % 2 = 1 then some (.xcntAdd (w / 131072 % 256) (w / 512 % 256) (w / 2 % 256)) else
    none := by
  have h0 : w / 268435456 = 13 := by omega
  unfold matchRow
  rw [show w / 2 ^ 28 = 13 from h0]
  change matchRow13 w = _
  unfold matchRow13
  rw [show w / 2 ^ 25 = 105 from h]
  rfl

theorem matchRow_op108 {w : Nat} (h : w / 33554432 = 108) : matchRow w =
    if w / 2048 % 2 = 0 ∧ w / 1048576 % 32 = 0 then some (.tclm (w / 4096 % 256) (w / 32 % 64) (w / 1 % 32)) else
    if w / 2048 % 2 = 1 ∧ w / 1048576 % 32 = 0 then some (.tclmTry (w / 4096 % 256) (w / 32 % 64) (w / 1 % 32)) else
    none := by
  have h0 : w / 268435456 = 13 := by omega
  unfold matchRow
  rw [show w / 2 ^ 28 = 13 from h0]
  change matchRow13 w = _
  unfold matchRow13
  rw [show w / 2 ^ 25 = 108 from h]
  rfl

theorem matchRow_op109 {w : Nat} (h : w / 33554432 = 109) : matchRow w =
    if w / 2048 % 16384 = 0 then some (.trel (w / 32 % 64) (w / 1 % 32)) else
    none := by
  have h0 : w / 268435456 = 13 := by omega
  unfold matchRow
  rw [show w / 2 ^ 28 = 13 from h0]
  change matchRow13 w = _
  unfold matchRow13
  rw [show w / 2 ^ 25 = 109 from h]
  rfl

theorem matchRow_op110 {w : Nat} (h : w / 33554432 = 110) : matchRow w =
    if w / 2048 % 2 = 0 ∧ w / 1048576 % 32 = 0 then some (.aclm (w / 4096 % 256) (w / 32 % 64) (w / 1 % 32)) else
    if w / 2048 % 2 = 1 ∧ w / 1048576 % 32 = 0 then some (.aclmTry (w / 4096 % 256) (w / 32 % 64) (w / 1 % 32)) else
    none := by
  have h0 : w / 268435456 = 13 := by omega
  unfold matchRow
  rw [show w / 2 ^ 28 = 13 from h0]
  change matchRow13 w = _
  unfold matchRow13
  rw [show w / 2 ^ 25 = 110 from h]
  rfl

theorem matchRow_op111 {w : Nat} (h : w / 33554432 = 111) : matchRow w =
    if w / 2048 % 16384 = 0 then some (.arel (w / 32 % 64) (w / 1 % 32)) else
    none := by
  have h0 : w / 268435456 = 13 := by omega
  unfold matchRow
  rw [show w / 2 ^ 28 = 13 from h0]
  change matchRow13 w = _
  unfold matchRow13
  rw [show w / 2 ^ 25 = 111 from h]
  rfl

theorem matchRow_op112 {w : Nat} (h : w / 33554432 = 112) : matchRow w =
    if w / 1 % 4 = 0 then some (.tldDense (w / 1048576 % 32) (w / 4096 % 256) (w / 16 % 256) (w / 4 % 4)) else
    if w / 1 % 4 = 1 then some (.tldDec (w / 1048576 % 32) (w / 4096 % 256) (w / 16 % 256) (w / 4 % 4)) else
    if w / 1 % 4 = 2 then some (.tldPcs (w / 1048576 % 32) (w / 4096 % 256) (w / 16 % 256) (w / 4 % 4)) else
    none := by
  have h0 : w / 268435456 = 14 := by omega
  unfold matchRow
  rw [show w / 2 ^ 28 = 14 from h0]
  change matchRow14 w = _
  unfold matchRow14
  rw [show w / 2 ^ 25 = 112 from h]
  rfl

theorem matchRow_op113 {w : Nat} (h : w / 33554432 = 113) : matchRow w =
    if w / 1 % 4096 = 4080 then some (.tst (w / 1048576 % 32) (w / 4096 % 256)) else
    none := by
  have h0 : w / 268435456 = 14 := by omega
  unfold matchRow
  rw [show w / 2 ^ 28 = 14 from h0]
  change matchRow14 w = _
  unfold matchRow14
  rw [show w / 2 ^ 25 = 113 from h]
  rfl

theorem matchRow_op114 {w : Nat} (h : w / 33554432 = 114) : matchRow w =
    if w / 1 % 64 = 0 then some (.mma (w / 2097152 % 16) (w / 65536 % 32) (w / 2048 % 32) (w / 1024 % 2) (w / 512 % 2) (w / 64 % 8)) else
    if w / 1 % 64 = 1 then some (.mmaZ (w / 2097152 % 16) (w / 65536 % 32) (w / 2048 % 32) (w / 1024 % 2) (w / 512 % 2) (w / 64 % 8)) else
    none := by
  have h0 : w / 268435456 = 14 := by omega
  unfold matchRow
  rw [show w / 2 ^ 28 = 14 from h0]
  change matchRow14 w = _
  unfold matchRow14
  rw [show w / 2 ^ 25 = 114 from h]
  rfl

theorem matchRow_op115 {w : Nat} (h : w / 33554432 = 115) : matchRow w =
    some (.mmas (w / 2097152 % 16) (w / 65536 % 32) (w / 2048 % 32) (w / 256 % 8) (w / 1 % 256)) := by
  have h0 : w / 268435456 = 14 := by omega
  unfold matchRow
  rw [show w / 2 ^ 28 = 14 from h0]
  change matchRow14 w = _
  unfold matchRow14
  rw [show w / 2 ^ 25 = 115 from h]
  rfl

theorem matchRow_op116 {w : Nat} (h : w / 33554432 = 116) : matchRow w =
    if w / 1 % 8192 = 8 ∧ w / 262144 % 128 = 0 then some (.azero (w / 8192 % 32)) else
    if w / 1 % 32 = 0 then some (.ardr (w / 262144 % 128) (w / 8192 % 32) (w / 32 % 256)) else
    if w / 1 % 32 = 1 then some (.ardc (w / 262144 % 128) (w / 8192 % 32) (w / 32 % 256)) else
    if w / 1 % 32 = 2 then some (.awrr (w / 262144 % 128) (w / 8192 % 32) (w / 32 % 256)) else
    if w / 1 % 32 = 3 then some (.awrc (w / 262144 % 128) (w / 8192 % 32) (w / 32 % 256)) else
    if w / 1 % 32 = 4 then some (.trdr (w / 262144 % 128) (w / 8192 % 32) (w / 32 % 256)) else
    if w / 1 % 32 = 5 then some (.trdc (w / 262144 % 128) (w / 8192 % 32) (w / 32 % 256)) else
    if w / 1 % 32 = 6 then some (.twrr (w / 262144 % 128) (w / 8192 % 32) (w / 32 % 256)) else
    if w / 1 % 32 = 7 then some (.twrc (w / 262144 % 128) (w / 8192 % 32) (w / 32 % 256)) else
    none := by
  have h0 : w / 268435456 = 14 := by omega
  unfold matchRow
  rw [show w / 2 ^ 28 = 14 from h0]
  change matchRow14 w = _
  unfold matchRow14
  rw [show w / 2 ^ 25 = 116 from h]
  rfl

theorem matchRow_op117 {w : Nat} (h : w / 33554432 = 117) : matchRow w =
    if w / 8 % 4 = 0 then some (.aqnt (w / 2097152 % 16) (w / 8192 % 256) (w / 32 % 256) (w / 4 % 2) (w / 1 % 4)) else
    none := by
  have h0 : w / 268435456 = 14 := by omega
  unfold matchRow
  rw [show w / 2 ^ 28 = 14 from h0]
  change matchRow14 w = _
  unfold matchRow14
  rw [show w / 2 ^ 25 = 117 from h]
  rfl

theorem matchRow_op118 {w : Nat} (h : w / 33554432 = 118) : matchRow w =
    if w / 256 % 512 = 0 then some (.tinfo (w / 131072 % 256) (w / 32 % 8) (w / 1 % 32)) else
    none := by
  have h0 : w / 268435456 = 14 := by omega
  unfold matchRow
  rw [show w / 2 ^ 28 = 14 from h0]
  change matchRow14 w = _
  unfold matchRow14
  rw [show w / 2 ^ 25 = 118 from h]
  rfl

theorem matchRow_op119 {w : Nat} (h : w / 33554432 = 119) : matchRow w =
    if w / 1 % 2 = 0 then some (.xcpy (w / 131072 % 256) (w / 512 % 256) (w / 2 % 256)) else
    if w / 1 % 2 = 1 then some (.xcpyPair (w / 131072 % 256) (w / 512 % 256) (w / 2 % 256)) else
    none := by
  have h0 : w / 268435456 = 14 := by omega
  unfold matchRow
  rw [show w / 2 ^ 28 = 14 from h0]
  change matchRow14 w = _
  unfold matchRow14
  rw [show w / 2 ^ 25 = 119 from h]
  rfl

theorem matchRow_op120 {w : Nat} (h : w / 33554432 = 120) : matchRow w =
    if w / 1 % 2 = 0 then some (.xgath (w / 131072 % 256) (w / 512 % 256) (w / 2 % 256)) else
    none := by
  have h0 : w / 268435456 = 15 := by omega
  unfold matchRow
  rw [show w / 2 ^ 28 = 15 from h0]
  change matchRow15 w = _
  unfold matchRow15
  rw [show w / 2 ^ 25 = 120 from h]
  rfl

theorem matchRow_op121 {w : Nat} (h : w / 33554432 = 121) : matchRow w =
    if w / 1 % 2 = 0 then some (.xscat (w / 131072 % 256) (w / 512 % 256) (w / 2 % 256)) else
    none := by
  have h0 : w / 268435456 = 15 := by omega
  unfold matchRow
  rw [show w / 2 ^ 28 = 15 from h0]
  change matchRow15 w = _
  unfold matchRow15
  rw [show w / 2 ^ 25 = 121 from h]
  rfl

theorem matchRow_op122 {w : Nat} (h : w / 33554432 = 122) : matchRow w =
    if w / 1 % 2 = 0 ∧ w / 4096 % 32 = 0 then some (.xpub (w / 131072 % 256) (w / 512 % 8) (w / 2 % 256)) else
    if w / 1 % 2 = 1 ∧ w / 4096 % 32 = 0 then some (.xpubSync (w / 131072 % 256) (w / 512 % 8) (w / 2 % 256)) else
    none := by
  have h0 : w / 268435456 = 15 := by omega
  unfold matchRow
  rw [show w / 2 ^ 28 = 15 from h0]
  change matchRow15 w = _
  unfold matchRow15
  rw [show w / 2 ^ 25 = 122 from h]
  rfl

theorem matchRow_op123 {w : Nat} (h : w / 33554432 = 123) : matchRow w =
    if w / 1 % 2 = 0 then some (.xwait (w / 131072 % 256) (w / 512 % 256) (w / 2 % 256)) else
    if w / 1 % 2 = 1 then some (.xwaitTest (w / 131072 % 256) (w / 512 % 256) (w / 2 % 256)) else
    none := by
  have h0 : w / 268435456 = 15 := by omega
  unfold matchRow
  rw [show w / 2 ^ 28 = 15 from h0]
  change matchRow15 w = _
  unfold matchRow15
  rw [show w / 2 ^ 25 = 123 from h]
  rfl

theorem matchRow_op124 {w : Nat} (h : w / 33554432 = 124) : matchRow w =
    if w / 1 % 2 = 1 ∧ w / 16777216 % 2 = 0 then some (.nsendImm (w / 131072 % 128) (w / 512 % 256) (w / 2 % 256)) else
    if w / 1 % 2 = 0 then some (.nsend (w / 131072 % 256) (w / 512 % 256) (w / 2 % 256)) else
    none := by
  have h0 : w / 268435456 = 15 := by omega
  unfold matchRow
  rw [show w / 2 ^ 28 = 15 from h0]
  change matchRow15 w = _
  unfold matchRow15
  rw [show w / 2 ^ 25 = 124 from h]
  rfl

theorem matchRow_op125 {w : Nat} (h : w / 33554432 = 125) : matchRow w =
    if w / 1 % 2 = 0 then some (.tsend (w / 131072 % 256) (w / 512 % 256) (w / 2 % 256)) else
    none := by
  have h0 : w / 268435456 = 15 := by omega
  unfold matchRow
  rw [show w / 2 ^ 28 = 15 from h0]
  change matchRow15 w = _
  unfold matchRow15
  rw [show w / 2 ^ 25 = 125 from h]
  rfl

theorem matchRow_op126 {w : Nat} (h : w / 33554432 = 126) : matchRow w =
    if w / 1 % 2 = 1 ∧ w / 512 % 256 = 0 then some (.xflush (w / 131072 % 256) (w / 2 % 256)) else
    if w / 1 % 2 = 0 then some (.cred (w / 131072 % 256) (w / 512 % 256) (w / 2 % 256)) else
    none := by
  have h0 : w / 268435456 = 15 := by omega
  unfold matchRow
  rw [show w / 2 ^ 28 = 15 from h0]
  change matchRow15 w = _
  unfold matchRow15
  rw [show w / 2 ^ 25 = 126 from h]
  rfl

/-! ### One lemma per constructor -/

theorem Encoding.yield (i d : Nat) : Encoding.Statement (.yield i d) := by
  intro W hw hwf
  have hf := fieldsFit_of_wellFormed _ hwf
  change (Nat.blt i 512 && (Nat.blt d 65536 && true)) = true at hf
  simp only [Bool.and_true, Bool.and_eq_true, Nat.blt_eq] at hf
  replace hw : 33554432 + i * 65536 + d = W := Option.some.inj hw
  obtain ⟨h1, hf0, hf1⟩ : W / 33554432 = 1 ∧ W / 65536 % 512 = i ∧ W / 1 % 65536 = d := by omega
  clear hw
  refine ⟨by omega, by omega, ?_⟩
  rw [matchRow_op1 h1, hf0, hf1]
  rfl

theorem Encoding.trap (c : Nat) : Encoding.Statement (.trap c) := by
  intro W hw hwf
  have hf := fieldsFit_of_wellFormed _ hwf
  change (Nat.blt c 65536 && true) = true at hf
  simp only [Bool.and_true, Nat.blt_eq] at hf
  replace hw : 67108864 + c = W := Option.some.inj hw
  obtain ⟨h1, hc0, hf0⟩ : W / 33554432 = 2 ∧ W / 65536 % 512 = 0 ∧ W / 1 % 65536 = c := by omega
  clear hw
  refine ⟨by omega, by omega, ?_⟩
  rw [matchRow_op2 h1, if_pos hc0, hf0]
  rfl

theorem Encoding.mode (m : Nat) : Encoding.Statement (.mode m) := by
  intro W hw hwf
  have hf := fieldsFit_of_wellFormed _ hwf
  change (Nat.blt m 33554432 && true) = true at hf
  simp only [Bool.and_true, Nat.blt_eq] at hf
  replace hw : 100663296 + m = W := Option.some.inj hw
  obtain ⟨h1, hf0⟩ : W / 33554432 = 3 ∧ W / 1 % 33554432 = m := by omega
  clear hw
  refine ⟨by omega, by omega, ?_⟩
  rw [matchRow_op3 h1, hf0]
  rfl

theorem Encoding.fenceRel (s : Nat) : Encoding.Statement (.fenceRel s) := by
  intro W hw hwf
  have hf := fieldsFit_of_wellFormed _ hwf
  change (Nat.blt s 8 && true) = true at hf
  simp only [Bool.and_true, Nat.blt_eq] at hf
  replace hw : 134217728 + s = W := Option.some.inj hw
  obtain ⟨h1, hc0, hf0⟩ : W / 33554432 = 4 ∧ W / 8 % 4194304 = 0 ∧ W / 1 % 8 = s := by omega
  clear hw
  refine ⟨by omega, by omega, ?_⟩
  rw [matchRow_op4 h1, if_pos hc0, hf0]
  rfl

theorem Encoding.fenceAcq (s : Nat) : Encoding.Statement (.fenceAcq s) := by
  intro W hw hwf
  have hf := fieldsFit_of_wellFormed _ hwf
  change (Nat.blt s 8 && true) = true at hf
  simp only [Bool.and_true, Nat.blt_eq] at hf
  replace hw : 134217736 + s = W := Option.some.inj hw
  obtain ⟨h1, hn0, hc0, hf0⟩ : W / 33554432 = 4 ∧ ¬(W / 8 % 4194304 = 0) ∧ W / 8 % 4194304 = 1 ∧ W / 1 % 8 = s := by omega
  clear hw
  refine ⟨by omega, by omega, ?_⟩
  rw [matchRow_op4 h1, if_neg hn0, if_pos hc0, hf0]
  rfl

theorem Encoding.fenceAr (s : Nat) : Encoding.Statement (.fenceAr s) := by
  intro W hw hwf
  have hf := fieldsFit_of_wellFormed _ hwf
  change (Nat.blt s 8 && true) = true at hf
  simp only [Bool.and_true, Nat.blt_eq] at hf
  replace hw : 134217744 + s = W := Option.some.inj hw
  obtain ⟨h1, hn0, hn1, hc0, hf0⟩ : W / 33554432 = 4 ∧ ¬(W / 8 % 4194304 = 0) ∧ ¬(W / 8 % 4194304 = 1) ∧ W / 8 % 4194304 = 2 ∧ W / 1 % 8 = s := by omega
  clear hw
  refine ⟨by omega, by omega, ?_⟩
  rw [matchRow_op4 h1, if_neg hn0, if_neg hn1, if_pos hc0, hf0]
  rfl

theorem Encoding.conv (m n c : Nat) : Encoding.Statement (.conv m n c) := by
  intro W hw hwf
  have hf := fieldsFit_of_wellFormed _ hwf
  change (Nat.blt m 4 && (Nat.blt n 8 && (Nat.blt c 8 && true))) = true at hf
  simp only [Bool.and_true, Bool.and_eq_true, Nat.blt_eq] at hf
  replace hw : 167772160 + m * 64 + n * 8 + c = W := Option.some.inj hw
  obtain ⟨h1, hc0, hf0, hf1, hf2⟩ : W / 33554432 = 5 ∧ W / 256 % 131072 = 0 ∧ W / 64 % 4 = m ∧ W / 8 % 8 = n ∧ W / 1 % 8 = c := by omega
  clear hw
  refine ⟨by omega, by omega, ?_⟩
  rw [matchRow_op5 h1, if_pos hc0, hf0, hf1, hf2]
  rfl

theorem Encoding.enter (n : Nat) : Encoding.Statement (.enter n) := by
  intro W hw hwf
  have hf := fieldsFit_of_wellFormed _ hwf
  change (Nat.blt n 128 && true) = true at hf
  simp only [Bool.and_true, Nat.blt_eq] at hf
  replace hw : 201326592 + n = W := Option.some.inj hw
  obtain ⟨h1, hc0, hf0⟩ : W / 33554432 = 6 ∧ W / 128 % 262144 = 0 ∧ W / 1 % 128 = n := by omega
  clear hw
  refine ⟨by omega, by omega, ?_⟩
  rw [matchRow_op6 h1, if_pos hc0, hf0]
  rfl

theorem Encoding.barSync (w s i : Nat) : Encoding.Statement (.barSync w s i) := by
  intro W hw hwf
  have hf := fieldsFit_of_wellFormed _ hwf
  change (Nat.blt w 32 && (Nat.blt s 16 && (Nat.blt i 16 && true))) = true at hf
  simp only [Bool.and_true, Bool.and_eq_true, Nat.blt_eq] at hf
  replace hw : 234881024 + w * 1024 + s * 64 + i = W := Option.some.inj hw
  obtain ⟨h1, hn0, hc0, hf0, hf1, hf2⟩ : W / 33554432 = 7 ∧ ¬(W / 16 % 2097152 = 1) ∧ (W / 16 % 4 = 0 ∧ W / 32768 % 1024 = 0) ∧ W / 1024 % 32 = w ∧ W / 64 % 16 = s ∧ W / 1 % 16 = i := by omega
  clear hw
  refine ⟨by omega, by omega, ?_⟩
  rw [matchRow_op7 h1, if_neg hn0, if_pos hc0, hf0, hf1, hf2]
  rfl

theorem Encoding.barArrive (i : Nat) : Encoding.Statement (.barArrive i) := by
  intro W hw hwf
  have hf := fieldsFit_of_wellFormed _ hwf
  change (Nat.blt i 16 && true) = true at hf
  simp only [Bool.and_true, Nat.blt_eq] at hf
  replace hw : 234881040 + i = W := Option.some.inj hw
  obtain ⟨h1, hc0, hf0⟩ : W / 33554432 = 7 ∧ W / 16 % 2097152 = 1 ∧ W / 1 % 16 = i := by omega
  clear hw
  refine ⟨by omega, by omega, ?_⟩
  rw [matchRow_op7 h1, if_pos hc0, hf0]
  rfl

theorem Encoding.barWait (w s i : Nat) : Encoding.Statement (.barWait w s i) := by
  intro W hw hwf
  have hf := fieldsFit_of_wellFormed _ hwf
  change (Nat.blt w 32 && (Nat.blt s 16 && (Nat.blt i 16 && true))) = true at hf
  simp only [Bool.and_true, Bool.and_eq_true, Nat.blt_eq] at hf
  replace hw : 234881056 + w * 1024 + s * 64 + i = W := Option.some.inj hw
  obtain ⟨h1, hn0, hn1, hc0, hf0, hf1, hf2⟩ : W / 33554432 = 7 ∧ ¬(W / 16 % 2097152 = 1) ∧ (¬(W / 16 % 4 = 0 ∧ W / 32768 % 1024 = 0)) ∧ (W / 16 % 4 = 2 ∧ W / 32768 % 1024 = 0) ∧ W / 1024 % 32 = w ∧ W / 64 % 16 = s ∧ W / 1 % 16 = i := by omega
  clear hw
  refine ⟨by omega, by omega, ?_⟩
  rw [matchRow_op7 h1, if_neg hn0, if_neg hn1, if_pos hc0, hf0, hf1, hf2]
  rfl

theorem Encoding.setj (o : Nat) : Encoding.Statement (.setj o) := by
  intro W hw hwf
  have hf := fieldsFit_of_wellFormed _ hwf
  change (Nat.blt o 1048576 && true) = true at hf
  simp only [Bool.and_true, Nat.blt_eq] at hf
  replace hw : 268435456 + o = W := Option.some.inj hw
  obtain ⟨h1, hc0, hf0⟩ : W / 33554432 = 8 ∧ W / 1048576 % 32 = 0 ∧ W / 1 % 1048576 = o := by omega
  clear hw
  refine ⟨by omega, by omega, ?_⟩
  rw [matchRow_op8 h1, if_pos hc0, hf0]
  rfl

theorem Encoding.bru (p n o : Nat) : Encoding.Statement (.bru p n o) := by
  intro W hw hwf
  have hf := fieldsFit_of_wellFormed _ hwf
  change (Nat.blt p 16 && (Nat.blt n 2 && (Nat.blt o 1048576 && true))) = true at hf
  simp only [Bool.and_true, Bool.and_eq_true, Nat.blt_eq] at hf
  replace hw : 301989888 + p * 2097152 + n * 1048576 + o = W := Option.some.inj hw
  obtain ⟨h1, hf0, hf1, hf2⟩ : W / 33554432 = 9 ∧ W / 2097152 % 16 = p ∧ W / 1048576 % 2 = n ∧ W / 1 % 1048576 = o := by omega
  clear hw
  refine ⟨by omega, by omega, ?_⟩
  rw [matchRow_op9 h1, hf0, hf1, hf2]
  rfl

theorem Encoding.brm (p n o : Nat) : Encoding.Statement (.brm p n o) := by
  intro W hw hwf
  have hf := fieldsFit_of_wellFormed _ hwf
  change (Nat.blt p 16 && (Nat.blt n 2 && (Nat.blt o 1048576 && true))) = true at hf
  simp only [Bool.and_true, Bool.and_eq_true, Nat.blt_eq] at hf
  replace hw : 335544320 + p * 2097152 + n * 1048576 + o = W := Option.some.inj hw
  obtain ⟨h1, hf0, hf1, hf2⟩ : W / 33554432 = 10 ∧ W / 2097152 % 16 = p ∧ W / 1048576 % 2 = n ∧ W / 1 % 1048576 = o := by omega
  clear hw
  refine ⟨by omega, by omega, ?_⟩
  rw [matchRow_op10 h1, hf0, hf1, hf2]
  rfl

theorem Encoding.eject (p n o : Nat) : Encoding.Statement (.eject p n o) := by
  intro W hw hwf
  have hf := fieldsFit_of_wellFormed _ hwf
  change (Nat.blt p 16 && (Nat.blt n 2 && (Nat.blt o 1048576 && true))) = true at hf
  simp only [Bool.and_true, Bool.and_eq_true, Nat.blt_eq] at hf
  replace hw : 369098752 + p * 2097152 + n * 1048576 + o = W := Option.some.inj hw
  obtain ⟨h1, hf0, hf1, hf2⟩ : W / 33554432 = 11 ∧ W / 2097152 % 16 = p ∧ W / 1048576 % 2 = n ∧ W / 1 % 1048576 = o := by omega
  clear hw
  refine ⟨by omega, by omega, ?_⟩
  rw [matchRow_op11 h1, hf0, hf1, hf2]
  rfl

theorem Encoding.jmp (o : Nat) : Encoding.Statement (.jmp o) := by
  intro W hw hwf
  have hf := fieldsFit_of_wellFormed _ hwf
  change (Nat.blt o 1048576 && true) = true at hf
  simp only [Bool.and_true, Nat.blt_eq] at hf
  replace hw : 402653184 + o = W := Option.some.inj hw
  obtain ⟨h1, hc0, hf0⟩ : W / 33554432 = 12 ∧ W / 1048576 % 32 = 0 ∧ W / 1 % 1048576 = o := by omega
  clear hw
  refine ⟨by omega, by omega, ?_⟩
  rw [matchRow_op12 h1, if_pos hc0, hf0]
  rfl

theorem Encoding.call (l o : Nat) : Encoding.Statement (.call l o) := by
  intro W hw hwf
  have hf := fieldsFit_of_wellFormed _ hwf
  change (Nat.blt l 16 && (Nat.blt o 2097152 && true)) = true at hf
  simp only [Bool.and_true, Bool.and_eq_true, Nat.blt_eq] at hf
  replace hw : 436207616 + l * 2097152 + o = W := Option.some.inj hw
  obtain ⟨h1, hf0, hf1⟩ : W / 33554432 = 13 ∧ W / 2097152 % 16 = l ∧ W / 1 % 2097152 = o := by omega
  clear hw
  refine ⟨by omega, by omega, ?_⟩
  rw [matchRow_op13 h1, hf0, hf1]
  rfl

theorem Encoding.calli (l a : Nat) : Encoding.Statement (.calli l a) := by
  intro W hw hwf
  have hf := fieldsFit_of_wellFormed _ hwf
  change (Nat.blt l 16 && (Nat.blt a 128 && true)) = true at hf
  simp only [Bool.and_true, Bool.and_eq_true, Nat.blt_eq] at hf
  replace hw : 469762048 + l * 2097152 + a * 16384 = W := Option.some.inj hw
  obtain ⟨h1, hc0, hf0, hf1⟩ : W / 33554432 = 14 ∧ W / 1 % 16384 = 0 ∧ W / 2097152 % 16 = l ∧ W / 16384 % 128 = a := by omega
  clear hw
  refine ⟨by omega, by omega, ?_⟩
  rw [matchRow_op14 h1, if_pos hc0, hf0, hf1]
  rfl

theorem Encoding.jmpi (a : Nat) : Encoding.Statement (.jmpi a) := by
  intro W hw hwf
  have hf := fieldsFit_of_wellFormed _ hwf
  change (Nat.blt a 256 && true) = true at hf
  simp only [Bool.and_true, Nat.blt_eq] at hf
  replace hw : 503316480 + a * 512 = W := Option.some.inj hw
  obtain ⟨h1, hc0, hf0⟩ : W / 33554432 = 15 ∧ (W / 1 % 512 = 0 ∧ W / 131072 % 256 = 0) ∧ W / 512 % 256 = a := by omega
  clear hw
  refine ⟨by omega, by omega, ?_⟩
  rw [matchRow_op15 h1, if_pos hc0, hf0]
  rfl

theorem Encoding.calls (a l : Nat) : Encoding.Statement (.calls a l) := by
  intro W hw hwf
  have hf := fieldsFit_of_wellFormed _ hwf
  change (Nat.blt a 256 && (Nat.blt l 16 && true)) = true at hf
  simp only [Bool.and_true, Bool.and_eq_true, Nat.blt_eq] at hf
  replace hw : 503316481 + a * 512 + l * 2 = W := Option.some.inj hw
  obtain ⟨h1, hn0, hc0, hf0, hf1⟩ : W / 33554432 = 15 ∧ (¬(W / 1 % 512 = 0 ∧ W / 131072 % 256 = 0)) ∧ (W / 1 % 2 = 1 ∧ W / 32 % 16 = 0 ∧ W / 131072 % 256 = 0) ∧ W / 512 % 256 = a ∧ W / 2 % 16 = l := by omega
  clear hw
  refine ⟨by omega, by omega, ?_⟩
  rw [matchRow_op15 h1, if_neg hn0, if_pos hc0, hf0, hf1]
  rfl

theorem Encoding.plset (a : Nat) : Encoding.Statement (.plset a) := by
  intro W hw hwf
  have hf := fieldsFit_of_wellFormed _ hwf
  change (Nat.blt a 128 && true) = true at hf
  simp only [Bool.and_true, Nat.blt_eq] at hf
  replace hw : 536870912 + a * 2048 = W := Option.some.inj hw
  obtain ⟨h1, hc0, hf0⟩ : W / 33554432 = 16 ∧ (W / 1 % 2048 = 0 ∧ W / 262144 % 128 = 0) ∧ W / 2048 % 128 = a := by omega
  clear hw
  refine ⟨by omega, by omega, ?_⟩
  rw [matchRow_op16 h1, if_pos hc0, hf0]
  rfl

theorem Encoding.plsetConst (b : Nat) : Encoding.Statement (.plsetConst b) := by
  intro W hw hwf
  have hf := fieldsFit_of_wellFormed _ hwf
  change (Nat.blt b 128 && true) = true at hf
  simp only [Bool.and_true, Nat.blt_eq] at hf
  replace hw : 536870913 + b * 16 = W := Option.some.inj hw
  obtain ⟨h1, hn0, hc0, hf0⟩ : W / 33554432 = 16 ∧ (¬(W / 1 % 2048 = 0 ∧ W / 262144 % 128 = 0)) ∧ (W / 1 % 16 = 1 ∧ W / 2048 % 16384 = 0) ∧ W / 16 % 128 = b := by omega
  clear hw
  refine ⟨by omega, by omega, ?_⟩
  rw [matchRow_op16 h1, if_neg hn0, if_pos hc0, hf0]
  rfl

theorem Encoding.plsel (f t p : Nat) : Encoding.Statement (.plsel f t p) := by
  intro W hw hwf
  have hf := fieldsFit_of_wellFormed _ hwf
  change (Nat.blt f 4 && (Nat.blt t 4 && (Nat.blt p 16 && true))) = true at hf
  simp only [Bool.and_true, Bool.and_eq_true, Nat.blt_eq] at hf
  replace hw : 570425344 + f * 64 + t * 16 + p = W := Option.some.inj hw
  obtain ⟨h1, hc0, hf0, hf1, hf2⟩ : W / 33554432 = 17 ∧ W / 256 % 131072 = 0 ∧ W / 64 % 4 = f ∧ W / 16 % 4 = t ∧ W / 1 % 16 = p := by omega
  clear hw
  refine ⟨by omega, by omega, ?_⟩
  rw [matchRow_op17 h1, if_pos hc0, hf0, hf1, hf2]
  rfl

theorem Encoding.plocc (d : Nat) : Encoding.Statement (.plocc d) := by
  intro W hw hwf
  have hf := fieldsFit_of_wellFormed _ hwf
  change (Nat.blt d 256 && true) = true at hf
  simp only [Bool.and_true, Nat.blt_eq] at hf
  replace hw : 603979776 + d * 131072 = W := Option.some.inj hw
  obtain ⟨h1, hc0, hf0⟩ : W / 33554432 = 18 ∧ W / 1 % 131072 = 0 ∧ W / 131072 % 256 = d := by omega
  clear hw
  refine ⟨by omega, by omega, ?_⟩
  rw [matchRow_op18 h1, if_pos hc0, hf0]
  rfl

theorem Encoding.srd (d i : Nat) : Encoding.Statement (.srd d i) := by
  intro W hw hwf
  have hf := fieldsFit_of_wellFormed _ hwf
  change (Nat.blt d 256 && (Nat.blt i 256 && true)) = true at hf
  simp only [Bool.and_true, Bool.and_eq_true, Nat.blt_eq] at hf
  replace hw : 637534208 + d * 131072 + i = W := Option.some.inj hw
  obtain ⟨h1, hc0, hf0, hf1⟩ : W / 33554432 = 19 ∧ W / 256 % 512 = 0 ∧ W / 131072 % 256 = d ∧ W / 1 % 256 = i := by omega
  clear hw
  refine ⟨by omega, by omega, ?_⟩
  rw [matchRow_op19 h1, if_pos hc0, hf0, hf1]
  rfl

theorem Encoding.swr (s i : Nat) : Encoding.Statement (.swr s i) := by
  intro W hw hwf
  have hf := fieldsFit_of_wellFormed _ hwf
  change (Nat.blt s 256 && (Nat.blt i 256 && true)) = true at hf
  simp only [Bool.and_true, Bool.and_eq_true, Nat.blt_eq] at hf
  replace hw : 671088640 + s * 131072 + i = W := Option.some.inj hw
  have hc := codeCheck_of_wellFormed _ hwf
  change firstOf [chk .badSpecial (isSpecial i), chk .badSpecial (!isOwnSwr i)] = none at hc
  simp only [firstOf_cons_none, chk_none, isOwnSwr, Bool.not_eq_true', Bool.or_eq_false_iff, decide_eq_false_iff_not] at hc
  obtain ⟨h1, hn0, hn1, hn2, hn3, hc0, hf0, hf1⟩ : W / 33554432 = 20 ∧ ¬(W / 1 % 131072 = 19) ∧ ¬(W / 1 % 131072 = 20) ∧ ¬(W / 1 % 131072 = 21) ∧ ¬(W / 1 % 131072 = 33) ∧ W / 256 % 512 = 0 ∧ W / 131072 % 256 = s ∧ W / 1 % 256 = i := by omega
  clear hw
  refine ⟨by omega, by omega, ?_⟩
  rw [matchRow_op20 h1, if_neg hn0, if_neg hn1, if_neg hn2, if_neg hn3, if_pos hc0, hf0, hf1]
  rfl

theorem Encoding.swrMode (s : Nat) : Encoding.Statement (.swrMode s) := by
  intro W hw hwf
  have hf := fieldsFit_of_wellFormed _ hwf
  change (Nat.blt s 256 && true) = true at hf
  simp only [Bool.and_true, Nat.blt_eq] at hf
  replace hw : 671088659 + s * 131072 = W := Option.some.inj hw
  obtain ⟨h1, hc0, hf0⟩ : W / 33554432 = 20 ∧ W / 1 % 131072 = 19 ∧ W / 131072 % 256 = s := by omega
  clear hw
  refine ⟨by omega, by omega, ?_⟩
  rw [matchRow_op20 h1, if_pos hc0, hf0]
  rfl

theorem Encoding.swrSticky (s : Nat) : Encoding.Statement (.swrSticky s) := by
  intro W hw hwf
  have hf := fieldsFit_of_wellFormed _ hwf
  change (Nat.blt s 256 && true) = true at hf
  simp only [Bool.and_true, Nat.blt_eq] at hf
  replace hw : 671088660 + s * 131072 = W := Option.some.inj hw
  obtain ⟨h1, hn0, hc0, hf0⟩ : W / 33554432 = 20 ∧ ¬(W / 1 % 131072 = 19) ∧ W / 1 % 131072 = 20 ∧ W / 131072 % 256 = s := by omega
  clear hw
  refine ⟨by omega, by omega, ?_⟩
  rw [matchRow_op20 h1, if_neg hn0, if_pos hc0, hf0]
  rfl

theorem Encoding.swrSsp (s : Nat) : Encoding.Statement (.swrSsp s) := by
  intro W hw hwf
  have hf := fieldsFit_of_wellFormed _ hwf
  change (Nat.blt s 256 && true) = true at hf
  simp only [Bool.and_true, Nat.blt_eq] at hf
  replace hw : 671088661 + s * 131072 = W := Option.some.inj hw
  obtain ⟨h1, hn0, hn1, hc0, hf0⟩ : W / 33554432 = 20 ∧ ¬(W / 1 % 131072 = 19) ∧ ¬(W / 1 % 131072 = 20) ∧ W / 1 % 131072 = 21 ∧ W / 131072 % 256 = s := by omega
  clear hw
  refine ⟨by omega, by omega, ?_⟩
  rw [matchRow_op20 h1, if_neg hn0, if_neg hn1, if_pos hc0, hf0]
  rfl

theorem Encoding.swrTrapoff (s : Nat) : Encoding.Statement (.swrTrapoff s) := by
  intro W hw hwf
  have hf := fieldsFit_of_wellFormed _ hwf
  change (Nat.blt s 256 && true) = true at hf
  simp only [Bool.and_true, Nat.blt_eq] at hf
  replace hw : 671088673 + s * 131072 = W := Option.some.inj hw
  obtain ⟨h1, hn0, hn1, hn2, hc0, hf0⟩ : W / 33554432 = 20 ∧ ¬(W / 1 % 131072 = 19) ∧ ¬(W / 1 % 131072 = 20) ∧ ¬(W / 1 % 131072 = 21) ∧ W / 1 % 131072 = 33 ∧ W / 131072 % 256 = s := by omega
  clear hw
  refine ⟨by omega, by omega, ?_⟩
  rw [matchRow_op20 h1, if_neg hn0, if_neg hn1, if_neg hn2, if_pos hc0, hf0]
  rfl

theorem Encoding.pushm (f c : Nat) : Encoding.Statement (.pushm f c) := by
  intro W hw hwf
  have hf := fieldsFit_of_wellFormed _ hwf
  change (Nat.blt f 256 && (Nat.blt c 256 && true)) = true at hf
  simp only [Bool.and_true, Bool.and_eq_true, Nat.blt_eq] at hf
  replace hw : 704643072 + f * 131072 + c = W := Option.some.inj hw
  obtain ⟨h1, hc0, hf0, hf1⟩ : W / 33554432 = 21 ∧ W / 256 % 512 = 0 ∧ W / 131072 % 256 = f ∧ W / 1 % 256 = c := by omega
  clear hw
  refine ⟨by omega, by omega, ?_⟩
  rw [matchRow_op21 h1, if_pos hc0, hf0, hf1]
  rfl

theorem Encoding.popm (f c : Nat) : Encoding.Statement (.popm f c) := by
  intro W hw hwf
  have hf := fieldsFit_of_wellFormed _ hwf
  change (Nat.blt f 256 && (Nat.blt c 256 && true)) = true at hf
  simp only [Bool.and_true, Bool.and_eq_true, Nat.blt_eq] at hf
  replace hw : 738197504 + f * 131072 + c = W := Option.some.inj hw
  obtain ⟨h1, hc0, hf0, hf1⟩ : W / 33554432 = 22 ∧ W / 256 % 512 = 0 ∧ W / 131072 % 256 = f ∧ W / 1 % 256 = c := by omega
  clear hw
  refine ⟨by omega, by omega, ?_⟩
  rw [matchRow_op22 h1, if_pos hc0, hf0, hf1]
  rfl

theorem Encoding.cbara (i : Nat) : Encoding.Statement (.cbara i) := by
  intro W hw hwf
  have hf := fieldsFit_of_wellFormed _ hwf
  change (Nat.blt i 16 && true) = true at hf
  simp only [Bool.and_true, Nat.blt_eq] at hf
  replace hw : 771751936 + i = W := Option.some.inj hw
  obtain ⟨h1, hc0, hf0⟩ : W / 33554432 = 23 ∧ W / 16 % 2097152 = 0 ∧ W / 1 % 16 = i := by omega
  clear hw
  refine ⟨by omega, by omega, ?_⟩
  rw [matchRow_op23 h1, if_pos hc0, hf0]
  rfl

theorem Encoding.cbarw (w s i : Nat) : Encoding.Statement (.cbarw w s i) := by
  intro W hw hwf
  have hf := fieldsFit_of_wellFormed _ hwf
  change (Nat.blt w 32 && (Nat.blt s 16 && (Nat.blt i 16 && true))) = true at hf
  simp only [Bool.and_true, Bool.and_eq_true, Nat.blt_eq] at hf
  replace hw : 805306368 + w * 1024 + s * 64 + i = W := Option.some.inj hw
  obtain ⟨h1, hc0, hf0, hf1, hf2⟩ : W / 33554432 = 24 ∧ (W / 16 % 4 = 0 ∧ W / 32768 % 1024 = 0) ∧ W / 1024 % 32 = w ∧ W / 64 % 16 = s ∧ W / 1 % 16 = i := by omega
  clear hw
  refine ⟨by omega, by omega, ?_⟩
  rw [matchRow_op24 h1, if_pos hc0, hf0, hf1, hf2]
  rfl

theorem Encoding.pbara (d : Nat) : Encoding.Statement (.pbara d) := by
  intro W hw hwf
  have hf := fieldsFit_of_wellFormed _ hwf
  change (Nat.blt d 256 && true) = true at hf
  simp only [Bool.and_true, Nat.blt_eq] at hf
  replace hw : 838860800 + d * 131072 = W := Option.some.inj hw
  obtain ⟨h1, hc0, hf0⟩ : W / 33554432 = 25 ∧ W / 1 % 131072 = 0 ∧ W / 131072 % 256 = d := by omega
  clear hw
  refine ⟨by omega, by omega, ?_⟩
  rw [matchRow_op25 h1, if_pos hc0, hf0]
  rfl

theorem Encoding.pbwait (d p w : Nat) : Encoding.Statement (.pbwait d p w) := by
  intro W hw hwf
  have hf := fieldsFit_of_wellFormed _ hwf
  change (Nat.blt d 256 && (Nat.blt p 16 && (Nat.blt w 32 && true))) = true at hf
  simp only [Bool.and_true, Bool.and_eq_true, Nat.blt_eq] at hf
  replace hw : 872415232 + d * 131072 + p * 8192 + w * 256 = W := Option.some.inj hw
  obtain ⟨h1, hc0, hf0, hf1, hf2⟩ : W / 33554432 = 26 ∧ W / 1 % 256 = 0 ∧ W / 131072 % 256 = d ∧ W / 8192 % 16 = p ∧ W / 256 % 32 = w := by omega
  clear hw
  refine ⟨by omega, by omega, ?_⟩
  rw [matchRow_op26 h1, if_pos hc0, hf0, hf1, hf2]
  rfl

theorem Encoding.leave (k n : Nat) : Encoding.Statement (.leave k n) := by
  intro W hw hwf
  have hf := fieldsFit_of_wellFormed _ hwf
  change (Nat.blt k 4 && (Nat.blt n 65536 && true)) = true at hf
  simp only [Bool.and_true, Bool.and_eq_true, Nat.blt_eq] at hf
  replace hw : 905969664 + k * 65536 + n = W := Option.some.inj hw
  obtain ⟨h1, hc0, hf0, hf1⟩ : W / 33554432 = 27 ∧ W / 262144 % 128 = 0 ∧ W / 65536 % 4 = k ∧ W / 1 % 65536 = n := by omega
  clear hw
  refine ⟨by omega, by omega, ?_⟩
  rw [matchRow_op27 h1, if_pos hc0, hf0, hf1]
  rfl

theorem Encoding.psrd (d i : Nat) : Encoding.Statement (.psrd d i) := by
  intro W hw hwf
  have hf := fieldsFit_of_wellFormed _ hwf
  change (Nat.blt d 256 && (Nat.blt i 4096 && true)) = true at hf
  simp only [Bool.and_true, Bool.and_eq_true, Nat.blt_eq] at hf
  replace hw : 939524096 + d * 131072 + i = W := Option.some.inj hw
  obtain ⟨h1, hc0, hf0, hf1⟩ : W / 33554432 = 28 ∧ W / 4096 % 32 = 0 ∧ W / 131072 % 256 = d ∧ W / 1 % 4096 = i := by omega
  clear hw
  refine ⟨by omega, by omega, ?_⟩
  rw [matchRow_op28 h1, if_pos hc0, hf0, hf1]
  rfl

theorem Encoding.pswr (s i : Nat) : Encoding.Statement (.pswr s i) := by
  intro W hw hwf
  have hf := fieldsFit_of_wellFormed _ hwf
  change (Nat.blt s 256 && (Nat.blt i 4096 && true)) = true at hf
  simp only [Bool.and_true, Bool.and_eq_true, Nat.blt_eq] at hf
  replace hw : 973078528 + s * 131072 + i = W := Option.some.inj hw
  have hc := codeCheck_of_wellFormed _ hwf
  change firstOf [chk .badSpecial (Nat.ble i 6), chk .badSpecial (!(i.beq 2)), chk .badSpecial (!(i.beq 4))] = none at hc
  simp only [firstOf_cons_none, chk_none, Bool.not_eq_true', natBeq_false] at hc
  obtain ⟨h1, hn0, hn1, hc0, hf0, hf1⟩ : W / 33554432 = 29 ∧ ¬(W / 1 % 131072 = 2) ∧ ¬(W / 1 % 131072 = 4) ∧ W / 4096 % 32 = 0 ∧ W / 131072 % 256 = s ∧ W / 1 % 4096 = i := by omega
  clear hw
  refine ⟨by omega, by omega, ?_⟩
  rw [matchRow_op29 h1, if_neg hn0, if_neg hn1, if_pos hc0, hf0, hf1]
  rfl

theorem Encoding.pswrFqhead (s : Nat) : Encoding.Statement (.pswrFqhead s) := by
  intro W hw hwf
  have hf := fieldsFit_of_wellFormed _ hwf
  change (Nat.blt s 256 && true) = true at hf
  simp only [Bool.and_true, Nat.blt_eq] at hf
  replace hw : 973078530 + s * 131072 = W := Option.some.inj hw
  obtain ⟨h1, hc0, hf0⟩ : W / 33554432 = 29 ∧ W / 1 % 131072 = 2 ∧ W / 131072 % 256 = s := by omega
  clear hw
  refine ⟨by omega, by omega, ?_⟩
  rw [matchRow_op29 h1, if_pos hc0, hf0]
  rfl

theorem Encoding.fdactRestart (s : Nat) : Encoding.Statement (.fdactRestart s) := by
  intro W hw hwf
  have hf := fieldsFit_of_wellFormed _ hwf
  change (Nat.blt s 256 && true) = true at hf
  simp only [Bool.and_true, Nat.blt_eq] at hf
  replace hw : 973078532 + s * 131072 = W := Option.some.inj hw
  obtain ⟨h1, hn0, hc0, hf0⟩ : W / 33554432 = 29 ∧ ¬(W / 1 % 131072 = 2) ∧ W / 1 % 131072 = 4 ∧ W / 131072 % 256 = s := by omega
  clear hw
  refine ⟨by omega, by omega, ?_⟩
  rw [matchRow_op29 h1, if_neg hn0, if_pos hc0, hf0]
  rfl

theorem Encoding.fdactEnd (s : Nat) : Encoding.Statement (.fdactEnd s) := by
  intro W hw hwf
  exact Encoding.fdactRestart s W hw hwf

theorem Encoding.fdactRespill (s : Nat) : Encoding.Statement (.fdactRespill s) := by
  intro W hw hwf
  exact Encoding.fdactRestart s W hw hwf

theorem Encoding.tlbiPage (a : Nat) : Encoding.Statement (.tlbiPage a) := by
  intro W hw hwf
  have hf := fieldsFit_of_wellFormed _ hwf
  change (Nat.blt a 256 && true) = true at hf
  simp only [Bool.and_true, Nat.blt_eq] at hf
  replace hw : 1006632960 + a * 512 = W := Option.some.inj hw
  obtain ⟨h1, hc0, hf0⟩ : W / 33554432 = 30 ∧ (W / 1 % 512 = 0 ∧ W / 131072 % 256 = 0) ∧ W / 512 % 256 = a := by omega
  clear hw
  refine ⟨by omega, by omega, ?_⟩
  rw [matchRow_op30 h1, if_pos hc0, hf0]
  rfl

theorem Encoding.tlbiRegion (a : Nat) : Encoding.Statement (.tlbiRegion a) := by
  intro W hw hwf
  have hf := fieldsFit_of_wellFormed _ hwf
  change (Nat.blt a 256 && true) = true at hf
  simp only [Bool.and_true, Nat.blt_eq] at hf
  replace hw : 1006632961 + a * 512 = W := Option.some.inj hw
  obtain ⟨h1, hn0, hc0, hf0⟩ : W / 33554432 = 30 ∧ (¬(W / 1 % 512 = 0 ∧ W / 131072 % 256 = 0)) ∧ (W / 1 % 512 = 1 ∧ W / 131072 % 256 = 0) ∧ W / 512 % 256 = a := by omega
  clear hw
  refine ⟨by omega, by omega, ?_⟩
  rw [matchRow_op30 h1, if_neg hn0, if_pos hc0, hf0]
  rfl

theorem Encoding.sadd (d a b : Nat) : Encoding.Statement (.sadd d a b) := by
  intro W hw hwf
  have hf := fieldsFit_of_wellFormed _ hwf
  change (Nat.blt d 256 && (Nat.blt a 256 && (Nat.blt b 256 && true))) = true at hf
  simp only [Bool.and_true, Bool.and_eq_true, Nat.blt_eq] at hf
  replace hw : 1073741824 + d * 131072 + a * 512 + b * 2 = W := Option.some.inj hw
  obtain ⟨h1, hc0, hf0, hf1, hf2⟩ : W / 33554432 = 32 ∧ W / 1 % 2 = 0 ∧ W / 131072 % 256 = d ∧ W / 512 % 256 = a ∧ W / 2 % 256 = b := by omega
  clear hw
  refine ⟨by omega, by omega, ?_⟩
  rw [matchRow_op32 h1, if_pos hc0, hf0, hf1, hf2]
  rfl

theorem Encoding.ssub (d a b : Nat) : Encoding.Statement (.ssub d a b) := by
  intro W hw hwf
  have hf := fieldsFit_of_wellFormed _ hwf
  change (Nat.blt d 256 && (Nat.blt a 256 && (Nat.blt b 256 && true))) = true at hf
  simp only [Bool.and_true, Bool.and_eq_true, Nat.blt_eq] at hf
  replace hw : 1073741825 + d * 131072 + a * 512 + b * 2 = W := Option.some.inj hw
  obtain ⟨h1, hn0, hc0, hf0, hf1, hf2⟩ : W / 33554432 = 32 ∧ ¬(W / 1 % 2 = 0) ∧ W / 1 % 2 = 1 ∧ W / 131072 % 256 = d ∧ W / 512 % 256 = a ∧ W / 2 % 256 = b := by omega
  clear hw
  refine ⟨by omega, by omega, ?_⟩
  rw [matchRow_op32 h1, if_neg hn0, if_pos hc0, hf0, hf1, hf2]
  rfl

theorem Encoding.smul (d a b : Nat) : Encoding.Statement (.smul d a b) := by
  intro W hw hwf
  have hf := fieldsFit_of_wellFormed _ hwf
  change (Nat.blt d 256 && (Nat.blt a 256 && (Nat.blt b 256 && true))) = true at hf
  simp only [Bool.and_true, Bool.and_eq_true, Nat.blt_eq] at hf
  replace hw : 1107296256 + d * 131072 + a * 512 + b * 2 = W := Option.some.inj hw
  obtain ⟨h1, hc0, hf0, hf1, hf2⟩ : W / 33554432 = 33 ∧ W / 1 % 2 = 0 ∧ W / 131072 % 256 = d ∧ W / 512 % 256 = a ∧ W / 2 % 256 = b := by omega
  clear hw
  refine ⟨by omega, by omega, ?_⟩
  rw [matchRow_op33 h1, if_pos hc0, hf0, hf1, hf2]
  rfl

theorem Encoding.smulh (d a b : Nat) : Encoding.Statement (.smulh d a b) := by
  intro W hw hwf
  have hf := fieldsFit_of_wellFormed _ hwf
  change (Nat.blt d 256 && (Nat.blt a 256 && (Nat.blt b 256 && true))) = true at hf
  simp only [Bool.and_true, Bool.and_eq_true, Nat.blt_eq] at hf
  replace hw : 1107296257 + d * 131072 + a * 512 + b * 2 = W := Option.some.inj hw
  obtain ⟨h1, hn0, hc0, hf0, hf1, hf2⟩ : W / 33554432 = 33 ∧ ¬(W / 1 % 2 = 0) ∧ W / 1 % 2 = 1 ∧ W / 131072 % 256 = d ∧ W / 512 % 256 = a ∧ W / 2 % 256 = b := by omega
  clear hw
  refine ⟨by omega, by omega, ?_⟩
  rw [matchRow_op33 h1, if_neg hn0, if_pos hc0, hf0, hf1, hf2]
  rfl

theorem Encoding.sdiv (d a b : Nat) : Encoding.Statement (.sdiv d a b) := by
  intro W hw hwf
  have hf := fieldsFit_of_wellFormed _ hwf
  change (Nat.blt d 256 && (Nat.blt a 256 && (Nat.blt b 256 && true))) = true at hf
  simp only [Bool.and_true, Bool.and_eq_true, Nat.blt_eq] at hf
  replace hw : 1140850688 + d * 131072 + a * 512 + b * 2 = W := Option.some.inj hw
  obtain ⟨h1, hc0, hf0, hf1, hf2⟩ : W / 33554432 = 34 ∧ W / 1 % 2 = 0 ∧ W / 131072 % 256 = d ∧ W / 512 % 256 = a ∧ W / 2 % 256 = b := by omega
  clear hw
  refine ⟨by omega, by omega, ?_⟩
  rw [matchRow_op34 h1, if_pos hc0, hf0, hf1, hf2]
  rfl

theorem Encoding.sdivu (d a b : Nat) : Encoding.Statement (.sdivu d a b) := by
  intro W hw hwf
  have hf := fieldsFit_of_wellFormed _ hwf
  change (Nat.blt d 256 && (Nat.blt a 256 && (Nat.blt b 256 && true))) = true at hf
  simp only [Bool.and_true, Bool.and_eq_true, Nat.blt_eq] at hf
  replace hw : 1140850689 + d * 131072 + a * 512 + b * 2 = W := Option.some.inj hw
  obtain ⟨h1, hn0, hc0, hf0, hf1, hf2⟩ : W / 33554432 = 34 ∧ ¬(W / 1 % 2 = 0) ∧ W / 1 % 2 = 1 ∧ W / 131072 % 256 = d ∧ W / 512 % 256 = a ∧ W / 2 % 256 = b := by omega
  clear hw
  refine ⟨by omega, by omega, ?_⟩
  rw [matchRow_op34 h1, if_neg hn0, if_pos hc0, hf0, hf1, hf2]
  rfl

theorem Encoding.srem (d a b : Nat) : Encoding.Statement (.srem d a b) := by
  intro W hw hwf
  have hf := fieldsFit_of_wellFormed _ hwf
  change (Nat.blt d 256 && (Nat.blt a 256 && (Nat.blt b 256 && true))) = true at hf
  simp only [Bool.and_true, Bool.and_eq_true, Nat.blt_eq] at hf
  replace hw : 1174405120 + d * 131072 + a * 512 + b * 2 = W := Option.some.inj hw
  obtain ⟨h1, hc0, hf0, hf1, hf2⟩ : W / 33554432 = 35 ∧ W / 1 % 2 = 0 ∧ W / 131072 % 256 = d ∧ W / 512 % 256 = a ∧ W / 2 % 256 = b := by omega
  clear hw
  refine ⟨by omega, by omega, ?_⟩
  rw [matchRow_op35 h1, if_pos hc0, hf0, hf1, hf2]
  rfl

theorem Encoding.sremu (d a b : Nat) : Encoding.Statement (.sremu d a b) := by
  intro W hw hwf
  have hf := fieldsFit_of_wellFormed _ hwf
  change (Nat.blt d 256 && (Nat.blt a 256 && (Nat.blt b 256 && true))) = true at hf
  simp only [Bool.and_true, Bool.and_eq_true, Nat.blt_eq] at hf
  replace hw : 1174405121 + d * 131072 + a * 512 + b * 2 = W := Option.some.inj hw
  obtain ⟨h1, hn0, hc0, hf0, hf1, hf2⟩ : W / 33554432 = 35 ∧ ¬(W / 1 % 2 = 0) ∧ W / 1 % 2 = 1 ∧ W / 131072 % 256 = d ∧ W / 512 % 256 = a ∧ W / 2 % 256 = b := by omega
  clear hw
  refine ⟨by omega, by omega, ?_⟩
  rw [matchRow_op35 h1, if_neg hn0, if_pos hc0, hf0, hf1, hf2]
  rfl

theorem Encoding.sand (d a b : Nat) : Encoding.Statement (.sand d a b) := by
  intro W hw hwf
  have hf := fieldsFit_of_wellFormed _ hwf
  change (Nat.blt d 256 && (Nat.blt a 256 && (Nat.blt b 256 && true))) = true at hf
  simp only [Bool.and_true, Bool.and_eq_true, Nat.blt_eq] at hf
  replace hw : 1207959552 + d * 131072 + a * 512 + b * 2 = W := Option.some.inj hw
  obtain ⟨h1, hc0, hf0, hf1, hf2⟩ : W / 33554432 = 36 ∧ W / 1 % 2 = 0 ∧ W / 131072 % 256 = d ∧ W / 512 % 256 = a ∧ W / 2 % 256 = b := by omega
  clear hw
  refine ⟨by omega, by omega, ?_⟩
  rw [matchRow_op36 h1, if_pos hc0, hf0, hf1, hf2]
  rfl

theorem Encoding.sor (d a b : Nat) : Encoding.Statement (.sor d a b) := by
  intro W hw hwf
  have hf := fieldsFit_of_wellFormed _ hwf
  change (Nat.blt d 256 && (Nat.blt a 256 && (Nat.blt b 256 && true))) = true at hf
  simp only [Bool.and_true, Bool.and_eq_true, Nat.blt_eq] at hf
  replace hw : 1207959553 + d * 131072 + a * 512 + b * 2 = W := Option.some.inj hw
  obtain ⟨h1, hn0, hc0, hf0, hf1, hf2⟩ : W / 33554432 = 36 ∧ ¬(W / 1 % 2 = 0) ∧ W / 1 % 2 = 1 ∧ W / 131072 % 256 = d ∧ W / 512 % 256 = a ∧ W / 2 % 256 = b := by omega
  clear hw
  refine ⟨by omega, by omega, ?_⟩
  rw [matchRow_op36 h1, if_neg hn0, if_pos hc0, hf0, hf1, hf2]
  rfl

theorem Encoding.sxor (d a b : Nat) : Encoding.Statement (.sxor d a b) := by
  intro W hw hwf
  have hf := fieldsFit_of_wellFormed _ hwf
  change (Nat.blt d 256 && (Nat.blt a 256 && (Nat.blt b 256 && true))) = true at hf
  simp only [Bool.and_true, Bool.and_eq_true, Nat.blt_eq] at hf
  replace hw : 1241513984 + d * 131072 + a * 512 + b * 2 = W := Option.some.inj hw
  obtain ⟨h1, hc0, hf0, hf1, hf2⟩ : W / 33554432 = 37 ∧ W / 1 % 2 = 0 ∧ W / 131072 % 256 = d ∧ W / 512 % 256 = a ∧ W / 2 % 256 = b := by omega
  clear hw
  refine ⟨by omega, by omega, ?_⟩
  rw [matchRow_op37 h1, if_pos hc0, hf0, hf1, hf2]
  rfl

theorem Encoding.sandn (d a b : Nat) : Encoding.Statement (.sandn d a b) := by
  intro W hw hwf
  have hf := fieldsFit_of_wellFormed _ hwf
  change (Nat.blt d 256 && (Nat.blt a 256 && (Nat.blt b 256 && true))) = true at hf
  simp only [Bool.and_true, Bool.and_eq_true, Nat.blt_eq] at hf
  replace hw : 1241513985 + d * 131072 + a * 512 + b * 2 = W := Option.some.inj hw
  obtain ⟨h1, hn0, hc0, hf0, hf1, hf2⟩ : W / 33554432 = 37 ∧ ¬(W / 1 % 2 = 0) ∧ W / 1 % 2 = 1 ∧ W / 131072 % 256 = d ∧ W / 512 % 256 = a ∧ W / 2 % 256 = b := by omega
  clear hw
  refine ⟨by omega, by omega, ?_⟩
  rw [matchRow_op37 h1, if_neg hn0, if_pos hc0, hf0, hf1, hf2]
  rfl

theorem Encoding.sshl (d a b : Nat) : Encoding.Statement (.sshl d a b) := by
  intro W hw hwf
  have hf := fieldsFit_of_wellFormed _ hwf
  change (Nat.blt d 256 && (Nat.blt a 256 && (Nat.blt b 256 && true))) = true at hf
  simp only [Bool.and_true, Bool.and_eq_true, Nat.blt_eq] at hf
  replace hw : 1275068416 + d * 131072 + a * 512 + b * 2 = W := Option.some.inj hw
  obtain ⟨h1, hc0, hf0, hf1, hf2⟩ : W / 33554432 = 38 ∧ W / 1 % 2 = 0 ∧ W / 131072 % 256 = d ∧ W / 512 % 256 = a ∧ W / 2 % 256 = b := by omega
  clear hw
  refine ⟨by omega, by omega, ?_⟩
  rw [matchRow_op38 h1, if_pos hc0, hf0, hf1, hf2]
  rfl

theorem Encoding.sshr (d a b : Nat) : Encoding.Statement (.sshr d a b) := by
  intro W hw hwf
  have hf := fieldsFit_of_wellFormed _ hwf
  change (Nat.blt d 256 && (Nat.blt a 256 && (Nat.blt b 256 && true))) = true at hf
  simp only [Bool.and_true, Bool.and_eq_true, Nat.blt_eq] at hf
  replace hw : 1275068417 + d * 131072 + a * 512 + b * 2 = W := Option.some.inj hw
  obtain ⟨h1, hn0, hc0, hf0, hf1, hf2⟩ : W / 33554432 = 38 ∧ ¬(W / 1 % 2 = 0) ∧ W / 1 % 2 = 1 ∧ W / 131072 % 256 = d ∧ W / 512 % 256 = a ∧ W / 2 % 256 = b := by omega
  clear hw
  refine ⟨by omega, by omega, ?_⟩
  rw [matchRow_op38 h1, if_neg hn0, if_pos hc0, hf0, hf1, hf2]
  rfl

theorem Encoding.ssra (d a b : Nat) : Encoding.Statement (.ssra d a b) := by
  intro W hw hwf
  have hf := fieldsFit_of_wellFormed _ hwf
  change (Nat.blt d 256 && (Nat.blt a 256 && (Nat.blt b 256 && true))) = true at hf
  simp only [Bool.and_true, Bool.and_eq_true, Nat.blt_eq] at hf
  replace hw : 1308622848 + d * 131072 + a * 512 + b * 2 = W := Option.some.inj hw
  obtain ⟨h1, hc0, hf0, hf1, hf2⟩ : W / 33554432 = 39 ∧ W / 1 % 2 = 0 ∧ W / 131072 % 256 = d ∧ W / 512 % 256 = a ∧ W / 2 % 256 = b := by omega
  clear hw
  refine ⟨by omega, by omega, ?_⟩
  rw [matchRow_op39 h1, if_pos hc0, hf0, hf1, hf2]
  rfl

theorem Encoding.srotr (d a b : Nat) : Encoding.Statement (.srotr d a b) := by
  intro W hw hwf
  have hf := fieldsFit_of_wellFormed _ hwf
  change (Nat.blt d 256 && (Nat.blt a 256 && (Nat.blt b 256 && true))) = true at hf
  simp only [Bool.and_true, Bool.and_eq_true, Nat.blt_eq] at hf
  replace hw : 1308622849 + d * 131072 + a * 512 + b * 2 = W := Option.some.inj hw
  obtain ⟨h1, hn0, hc0, hf0, hf1, hf2⟩ : W / 33554432 = 39 ∧ ¬(W / 1 % 2 = 0) ∧ W / 1 % 2 = 1 ∧ W / 131072 % 256 = d ∧ W / 512 % 256 = a ∧ W / 2 % 256 = b := by omega
  clear hw
  refine ⟨by omega, by omega, ?_⟩
  rw [matchRow_op39 h1, if_neg hn0, if_pos hc0, hf0, hf1, hf2]
  rfl

theorem Encoding.smin (d a b : Nat) : Encoding.Statement (.smin d a b) := by
  intro W hw hwf
  have hf := fieldsFit_of_wellFormed _ hwf
  change (Nat.blt d 256 && (Nat.blt a 256 && (Nat.blt b 256 && true))) = true at hf
  simp only [Bool.and_true, Bool.and_eq_true, Nat.blt_eq] at hf
  replace hw : 1342177280 + d * 131072 + a * 512 + b * 2 = W := Option.some.inj hw
  obtain ⟨h1, hc0, hf0, hf1, hf2⟩ : W / 33554432 = 40 ∧ W / 1 % 2 = 0 ∧ W / 131072 % 256 = d ∧ W / 512 % 256 = a ∧ W / 2 % 256 = b := by omega
  clear hw
  refine ⟨by omega, by omega, ?_⟩
  rw [matchRow_op40 h1, if_pos hc0, hf0, hf1, hf2]
  rfl

theorem Encoding.smax (d a b : Nat) : Encoding.Statement (.smax d a b) := by
  intro W hw hwf
  have hf := fieldsFit_of_wellFormed _ hwf
  change (Nat.blt d 256 && (Nat.blt a 256 && (Nat.blt b 256 && true))) = true at hf
  simp only [Bool.and_true, Bool.and_eq_true, Nat.blt_eq] at hf
  replace hw : 1342177281 + d * 131072 + a * 512 + b * 2 = W := Option.some.inj hw
  obtain ⟨h1, hn0, hc0, hf0, hf1, hf2⟩ : W / 33554432 = 40 ∧ ¬(W / 1 % 2 = 0) ∧ W / 1 % 2 = 1 ∧ W / 131072 % 256 = d ∧ W / 512 % 256 = a ∧ W / 2 % 256 = b := by omega
  clear hw
  refine ⟨by omega, by omega, ?_⟩
  rw [matchRow_op40 h1, if_neg hn0, if_pos hc0, hf0, hf1, hf2]
  rfl

theorem Encoding.sminu (d a b : Nat) : Encoding.Statement (.sminu d a b) := by
  intro W hw hwf
  have hf := fieldsFit_of_wellFormed _ hwf
  change (Nat.blt d 256 && (Nat.blt a 256 && (Nat.blt b 256 && true))) = true at hf
  simp only [Bool.and_true, Bool.and_eq_true, Nat.blt_eq] at hf
  replace hw : 1375731712 + d * 131072 + a * 512 + b * 2 = W := Option.some.inj hw
  obtain ⟨h1, hc0, hf0, hf1, hf2⟩ : W / 33554432 = 41 ∧ W / 1 % 2 = 0 ∧ W / 131072 % 256 = d ∧ W / 512 % 256 = a ∧ W / 2 % 256 = b := by omega
  clear hw
  refine ⟨by omega, by omega, ?_⟩
  rw [matchRow_op41 h1, if_pos hc0, hf0, hf1, hf2]
  rfl

theorem Encoding.smaxu (d a b : Nat) : Encoding.Statement (.smaxu d a b) := by
  intro W hw hwf
  have hf := fieldsFit_of_wellFormed _ hwf
  change (Nat.blt d 256 && (Nat.blt a 256 && (Nat.blt b 256 && true))) = true at hf
  simp only [Bool.and_true, Bool.and_eq_true, Nat.blt_eq] at hf
  replace hw : 1375731713 + d * 131072 + a * 512 + b * 2 = W := Option.some.inj hw
  obtain ⟨h1, hn0, hc0, hf0, hf1, hf2⟩ : W / 33554432 = 41 ∧ ¬(W / 1 % 2 = 0) ∧ W / 1 % 2 = 1 ∧ W / 131072 % 256 = d ∧ W / 512 % 256 = a ∧ W / 2 % 256 = b := by omega
  clear hw
  refine ⟨by omega, by omega, ?_⟩
  rw [matchRow_op41 h1, if_neg hn0, if_pos hc0, hf0, hf1, hf2]
  rfl

theorem Encoding.sslt (d a b : Nat) : Encoding.Statement (.sslt d a b) := by
  intro W hw hwf
  have hf := fieldsFit_of_wellFormed _ hwf
  change (Nat.blt d 256 && (Nat.blt a 256 && (Nat.blt b 256 && true))) = true at hf
  simp only [Bool.and_true, Bool.and_eq_true, Nat.blt_eq] at hf
  replace hw : 1409286144 + d * 131072 + a * 512 + b * 2 = W := Option.some.inj hw
  obtain ⟨h1, hc0, hf0, hf1, hf2⟩ : W / 33554432 = 42 ∧ W / 1 % 2 = 0 ∧ W / 131072 % 256 = d ∧ W / 512 % 256 = a ∧ W / 2 % 256 = b := by omega
  clear hw
  refine ⟨by omega, by omega, ?_⟩
  rw [matchRow_op42 h1, if_pos hc0, hf0, hf1, hf2]
  rfl

theorem Encoding.ssltu (d a b : Nat) : Encoding.Statement (.ssltu d a b) := by
  intro W hw hwf
  have hf := fieldsFit_of_wellFormed _ hwf
  change (Nat.blt d 256 && (Nat.blt a 256 && (Nat.blt b 256 && true))) = true at hf
  simp only [Bool.and_true, Bool.and_eq_true, Nat.blt_eq] at hf
  replace hw : 1409286145 + d * 131072 + a * 512 + b * 2 = W := Option.some.inj hw
  obtain ⟨h1, hn0, hc0, hf0, hf1, hf2⟩ : W / 33554432 = 42 ∧ ¬(W / 1 % 2 = 0) ∧ W / 1 % 2 = 1 ∧ W / 131072 % 256 = d ∧ W / 512 % 256 = a ∧ W / 2 % 256 = b := by omega
  clear hw
  refine ⟨by omega, by omega, ?_⟩
  rw [matchRow_op42 h1, if_neg hn0, if_pos hc0, hf0, hf1, hf2]
  rfl

theorem Encoding.sseq (d a b : Nat) : Encoding.Statement (.sseq d a b) := by
  intro W hw hwf
  have hf := fieldsFit_of_wellFormed _ hwf
  change (Nat.blt d 256 && (Nat.blt a 256 && (Nat.blt b 256 && true))) = true at hf
  simp only [Bool.and_true, Bool.and_eq_true, Nat.blt_eq] at hf
  replace hw : 1442840576 + d * 131072 + a * 512 + b * 2 = W := Option.some.inj hw
  obtain ⟨h1, hc0, hf0, hf1, hf2⟩ : W / 33554432 = 43 ∧ W / 1 % 2 = 0 ∧ W / 131072 % 256 = d ∧ W / 512 % 256 = a ∧ W / 2 % 256 = b := by omega
  clear hw
  refine ⟨by omega, by omega, ?_⟩
  rw [matchRow_op43 h1, if_pos hc0, hf0, hf1, hf2]
  rfl

theorem Encoding.ssne (d a b : Nat) : Encoding.Statement (.ssne d a b) := by
  intro W hw hwf
  have hf := fieldsFit_of_wellFormed _ hwf
  change (Nat.blt d 256 && (Nat.blt a 256 && (Nat.blt b 256 && true))) = true at hf
  simp only [Bool.and_true, Bool.and_eq_true, Nat.blt_eq] at hf
  replace hw : 1442840577 + d * 131072 + a * 512 + b * 2 = W := Option.some.inj hw
  obtain ⟨h1, hn0, hc0, hf0, hf1, hf2⟩ : W / 33554432 = 43 ∧ ¬(W / 1 % 2 = 0) ∧ W / 1 % 2 = 1 ∧ W / 131072 % 256 = d ∧ W / 512 % 256 = a ∧ W / 2 % 256 = b := by omega
  clear hw
  refine ⟨by omega, by omega, ?_⟩
  rw [matchRow_op43 h1, if_neg hn0, if_pos hc0, hf0, hf1, hf2]
  rfl

theorem Encoding.ssel (d a b : Nat) : Encoding.Statement (.ssel d a b) := by
  intro W hw hwf
  have hf := fieldsFit_of_wellFormed _ hwf
  change (Nat.blt d 256 && (Nat.blt a 256 && (Nat.blt b 256 && true))) = true at hf
  simp only [Bool.and_true, Bool.and_eq_true, Nat.blt_eq] at hf
  replace hw : 1476395008 + d * 131072 + a * 512 + b * 2 = W := Option.some.inj hw
  obtain ⟨h1, hc0, hf0, hf1, hf2⟩ : W / 33554432 = 44 ∧ W / 1 % 2 = 0 ∧ W / 131072 % 256 = d ∧ W / 512 % 256 = a ∧ W / 2 % 256 = b := by omega
  clear hw
  refine ⟨by omega, by omega, ?_⟩
  rw [matchRow_op44 h1, if_pos hc0, hf0, hf1, hf2]
  rfl

theorem Encoding.sselz (d a b : Nat) : Encoding.Statement (.sselz d a b) := by
  intro W hw hwf
  have hf := fieldsFit_of_wellFormed _ hwf
  change (Nat.blt d 256 && (Nat.blt a 256 && (Nat.blt b 256 && true))) = true at hf
  simp only [Bool.and_true, Bool.and_eq_true, Nat.blt_eq] at hf
  replace hw : 1476395009 + d * 131072 + a * 512 + b * 2 = W := Option.some.inj hw
  obtain ⟨h1, hn0, hc0, hf0, hf1, hf2⟩ : W / 33554432 = 44 ∧ ¬(W / 1 % 2 = 0) ∧ W / 1 % 2 = 1 ∧ W / 131072 % 256 = d ∧ W / 512 % 256 = a ∧ W / 2 % 256 = b := by omega
  clear hw
  refine ⟨by omega, by omega, ?_⟩
  rw [matchRow_op44 h1, if_neg hn0, if_pos hc0, hf0, hf1, hf2]
  rfl

theorem Encoding.spopc (d a : Nat) : Encoding.Statement (.spopc d a) := by
  intro W hw hwf
  have hf := fieldsFit_of_wellFormed _ hwf
  change (Nat.blt d 256 && (Nat.blt a 256 && true)) = true at hf
  simp only [Bool.and_true, Bool.and_eq_true, Nat.blt_eq] at hf
  replace hw : 1509949440 + d * 131072 + a * 512 = W := Option.some.inj hw
  obtain ⟨h1, hc0, hf0, hf1⟩ : W / 33554432 = 45 ∧ W / 1 % 512 = 0 ∧ W / 131072 % 256 = d ∧ W / 512 % 256 = a := by omega
  clear hw
  refine ⟨by omega, by omega, ?_⟩
  rw [matchRow_op45 h1, if_pos hc0, hf0, hf1]
  rfl

theorem Encoding.sclz (d a : Nat) : Encoding.Statement (.sclz d a) := by
  intro W hw hwf
  have hf := fieldsFit_of_wellFormed _ hwf
  change (Nat.blt d 256 && (Nat.blt a 256 && true)) = true at hf
  simp only [Bool.and_true, Bool.and_eq_true, Nat.blt_eq] at hf
  replace hw : 1509949441 + d * 131072 + a * 512 = W := Option.some.inj hw
  obtain ⟨h1, hn0, hc0, hf0, hf1⟩ : W / 33554432 = 45 ∧ ¬(W / 1 % 512 = 0) ∧ W / 1 % 512 = 1 ∧ W / 131072 % 256 = d ∧ W / 512 % 256 = a := by omega
  clear hw
  refine ⟨by omega, by omega, ?_⟩
  rw [matchRow_op45 h1, if_neg hn0, if_pos hc0, hf0, hf1]
  rfl

theorem Encoding.sctz (d a : Nat) : Encoding.Statement (.sctz d a) := by
  intro W hw hwf
  have hf := fieldsFit_of_wellFormed _ hwf
  change (Nat.blt d 256 && (Nat.blt a 256 && true)) = true at hf
  simp only [Bool.and_true, Bool.and_eq_true, Nat.blt_eq] at hf
  replace hw : 1543503872 + d * 131072 + a * 512 = W := Option.some.inj hw
  obtain ⟨h1, hc0, hf0, hf1⟩ : W / 33554432 = 46 ∧ W / 1 % 512 = 0 ∧ W / 131072 % 256 = d ∧ W / 512 % 256 = a := by omega
  clear hw
  refine ⟨by omega, by omega, ?_⟩
  rw [matchRow_op46 h1, if_pos hc0, hf0, hf1]
  rfl

theorem Encoding.sbrev (d a : Nat) : Encoding.Statement (.sbrev d a) := by
  intro W hw hwf
  have hf := fieldsFit_of_wellFormed _ hwf
  change (Nat.blt d 256 && (Nat.blt a 256 && true)) = true at hf
  simp only [Bool.and_true, Bool.and_eq_true, Nat.blt_eq] at hf
  replace hw : 1543503873 + d * 131072 + a * 512 = W := Option.some.inj hw
  obtain ⟨h1, hn0, hc0, hf0, hf1⟩ : W / 33554432 = 46 ∧ ¬(W / 1 % 512 = 0) ∧ W / 1 % 512 = 1 ∧ W / 131072 % 256 = d ∧ W / 512 % 256 = a := by omega
  clear hw
  refine ⟨by omega, by omega, ?_⟩
  rw [matchRow_op46 h1, if_neg hn0, if_pos hc0, hf0, hf1]
  rfl

theorem Encoding.saddi (d a i : Nat) : Encoding.Statement (.saddi d a i) := by
  intro W hw hwf
  have hf := fieldsFit_of_wellFormed _ hwf
  change (Nat.blt d 256 && (Nat.blt a 256 && (Nat.blt i 512 && true))) = true at hf
  simp only [Bool.and_true, Bool.and_eq_true, Nat.blt_eq] at hf
  replace hw : 1577058304 + d * 131072 + a * 512 + i = W := Option.some.inj hw
  obtain ⟨h1, hf0, hf1, hf2⟩ : W / 33554432 = 47 ∧ W / 131072 % 256 = d ∧ W / 512 % 256 = a ∧ W / 1 % 512 = i := by omega
  clear hw
  refine ⟨by omega, by omega, ?_⟩
  rw [matchRow_op47 h1, hf0, hf1, hf2]
  rfl

theorem Encoding.sandi (d a i : Nat) : Encoding.Statement (.sandi d a i) := by
  intro W hw hwf
  have hf := fieldsFit_of_wellFormed _ hwf
  change (Nat.blt d 256 && (Nat.blt a 256 && (Nat.blt i 512 && true))) = true at hf
  simp only [Bool.and_true, Bool.and_eq_true, Nat.blt_eq] at hf
  replace hw : 1610612736 + d * 131072 + a * 512 + i = W := Option.some.inj hw
  obtain ⟨h1, hf0, hf1, hf2⟩ : W / 33554432 = 48 ∧ W / 131072 % 256 = d ∧ W / 512 % 256 = a ∧ W / 1 % 512 = i := by omega
  clear hw
  refine ⟨by omega, by omega, ?_⟩
  rw [matchRow_op48 h1, hf0, hf1, hf2]
  rfl

theorem Encoding.sori (d a i : Nat) : Encoding.Statement (.sori d a i) := by
  intro W hw hwf
  have hf := fieldsFit_of_wellFormed _ hwf
  change (Nat.blt d 256 && (Nat.blt a 256 && (Nat.blt i 512 && true))) = true at hf
  simp only [Bool.and_true, Bool.and_eq_true, Nat.blt_eq] at hf
  replace hw : 1644167168 + d * 131072 + a * 512 + i = W := Option.some.inj hw
  obtain ⟨h1, hf0, hf1, hf2⟩ : W / 33554432 = 49 ∧ W / 131072 % 256 = d ∧ W / 512 % 256 = a ∧ W / 1 % 512 = i := by omega
  clear hw
  refine ⟨by omega, by omega, ?_⟩
  rw [matchRow_op49 h1, hf0, hf1, hf2]
  rfl

theorem Encoding.sxori (d a i : Nat) : Encoding.Statement (.sxori d a i) := by
  intro W hw hwf
  have hf := fieldsFit_of_wellFormed _ hwf
  change (Nat.blt d 256 && (Nat.blt a 256 && (Nat.blt i 512 && true))) = true at hf
  simp only [Bool.and_true, Bool.and_eq_true, Nat.blt_eq] at hf
  replace hw : 1677721600 + d * 131072 + a * 512 + i = W := Option.some.inj hw
  obtain ⟨h1, hf0, hf1, hf2⟩ : W / 33554432 = 50 ∧ W / 131072 % 256 = d ∧ W / 512 % 256 = a ∧ W / 1 % 512 = i := by omega
  clear hw
  refine ⟨by omega, by omega, ?_⟩
  rw [matchRow_op50 h1, hf0, hf1, hf2]
  rfl

theorem Encoding.sshli (d a n : Nat) : Encoding.Statement (.sshli d a n) := by
  intro W hw hwf
  have hf := fieldsFit_of_wellFormed _ hwf
  change (Nat.blt d 256 && (Nat.blt a 256 && (Nat.blt n 64 && true))) = true at hf
  simp only [Bool.and_true, Bool.and_eq_true, Nat.blt_eq] at hf
  replace hw : 1711276032 + d * 131072 + a * 512 + n = W := Option.some.inj hw
  obtain ⟨h1, hc0, hf0, hf1, hf2⟩ : W / 33554432 = 51 ∧ W / 64 % 8 = 0 ∧ W / 131072 % 256 = d ∧ W / 512 % 256 = a ∧ W / 1 % 64 = n := by omega
  clear hw
  refine ⟨by omega, by omega, ?_⟩
  rw [matchRow_op51 h1, if_pos hc0, hf0, hf1, hf2]
  rfl

theorem Encoding.sshri (d a n : Nat) : Encoding.Statement (.sshri d a n) := by
  intro W hw hwf
  have hf := fieldsFit_of_wellFormed _ hwf
  change (Nat.blt d 256 && (Nat.blt a 256 && (Nat.blt n 64 && true))) = true at hf
  simp only [Bool.and_true, Bool.and_eq_true, Nat.blt_eq] at hf
  replace hw : 1744830464 + d * 131072 + a * 512 + n = W := Option.some.inj hw
  obtain ⟨h1, hc0, hf0, hf1, hf2⟩ : W / 33554432 = 52 ∧ W / 64 % 8 = 0 ∧ W / 131072 % 256 = d ∧ W / 512 % 256 = a ∧ W / 1 % 64 = n := by omega
  clear hw
  refine ⟨by omega, by omega, ?_⟩
  rw [matchRow_op52 h1, if_pos hc0, hf0, hf1, hf2]
  rfl

theorem Encoding.ssrai (d a n : Nat) : Encoding.Statement (.ssrai d a n) := by
  intro W hw hwf
  have hf := fieldsFit_of_wellFormed _ hwf
  change (Nat.blt d 256 && (Nat.blt a 256 && (Nat.blt n 64 && true))) = true at hf
  simp only [Bool.and_true, Bool.and_eq_true, Nat.blt_eq] at hf
  replace hw : 1778384896 + d * 131072 + a * 512 + n = W := Option.some.inj hw
  obtain ⟨h1, hc0, hf0, hf1, hf2⟩ : W / 33554432 = 53 ∧ W / 64 % 8 = 0 ∧ W / 131072 % 256 = d ∧ W / 512 % 256 = a ∧ W / 1 % 64 = n := by omega
  clear hw
  refine ⟨by omega, by omega, ?_⟩
  rw [matchRow_op53 h1, if_pos hc0, hf0, hf1, hf2]
  rfl

theorem Encoding.sslti (d a i : Nat) : Encoding.Statement (.sslti d a i) := by
  intro W hw hwf
  have hf := fieldsFit_of_wellFormed _ hwf
  change (Nat.blt d 256 && (Nat.blt a 256 && (Nat.blt i 512 && true))) = true at hf
  simp only [Bool.and_true, Bool.and_eq_true, Nat.blt_eq] at hf
  replace hw : 1811939328 + d * 131072 + a * 512 + i = W := Option.some.inj hw
  obtain ⟨h1, hf0, hf1, hf2⟩ : W / 33554432 = 54 ∧ W / 131072 % 256 = d ∧ W / 512 % 256 = a ∧ W / 1 % 512 = i := by omega
  clear hw
  refine ⟨by omega, by omega, ?_⟩
  rw [matchRow_op54 h1, hf0, hf1, hf2]
  rfl

theorem Encoding.sli (d i : Nat) : Encoding.Statement (.sli d i) := by
  intro W hw hwf
  have hf := fieldsFit_of_wellFormed _ hwf
  change (Nat.blt d 256 && (Nat.blt i 131072 && true)) = true at hf
  simp only [Bool.and_true, Bool.and_eq_true, Nat.blt_eq] at hf
  replace hw : 1845493760 + d * 131072 + i = W := Option.some.inj hw
  obtain ⟨h1, hf0, hf1⟩ : W / 33554432 = 55 ∧ W / 131072 % 256 = d ∧ W / 1 % 131072 = i := by omega
  clear hw
  refine ⟨by omega, by omega, ?_⟩
  rw [matchRow_op55 h1, hf0, hf1]
  rfl

theorem Encoding.slui (d i : Nat) : Encoding.Statement (.slui d i) := by
  intro W hw hwf
  have hf := fieldsFit_of_wellFormed _ hwf
  change (Nat.blt d 256 && (Nat.blt i 131072 && true)) = true at hf
  simp only [Bool.and_true, Bool.and_eq_true, Nat.blt_eq] at hf
  replace hw : 1879048192 + d * 131072 + i = W := Option.some.inj hw
  obtain ⟨h1, hf0, hf1⟩ : W / 33554432 = 56 ∧ W / 131072 % 256 = d ∧ W / 1 % 131072 = i := by omega
  clear hw
  refine ⟨by omega, by omega, ?_⟩
  rw [matchRow_op56 h1, hf0, hf1]
  rfl

theorem Encoding.sld64 (t b o l : Nat) : Encoding.Statement (.sld64 t b o l) := by
  intro W hw hwf
  have hf := fieldsFit_of_wellFormed _ hwf
  change (Nat.blt t 256 && (Nat.blt b 256 && (Nat.blt o 32 && (Nat.blt l 16 && true)))) = true at hf
  simp only [Bool.and_true, Bool.and_eq_true, Nat.blt_eq] at hf
  replace hw : 1912602624 + t * 131072 + b * 512 + o * 16 + l = W := Option.some.inj hw
  obtain ⟨h1, hf0, hf1, hf2, hf3⟩ : W / 33554432 = 57 ∧ W / 131072 % 256 = t ∧ W / 512 % 256 = b ∧ W / 16 % 32 = o ∧ W / 1 % 16 = l := by omega
  clear hw
  refine ⟨by omega, by omega, ?_⟩
  rw [matchRow_op57 h1, hf0, hf1, hf2, hf3]
  rfl

theorem Encoding.sld32 (t b o l : Nat) : Encoding.Statement (.sld32 t b o l) := by
  intro W hw hwf
  have hf := fieldsFit_of_wellFormed _ hwf
  change (Nat.blt t 256 && (Nat.blt b 256 && (Nat.blt o 32 && (Nat.blt l 16 && true)))) = true at hf
  simp only [Bool.and_true, Bool.and_eq_true, Nat.blt_eq] at hf
  replace hw : 1946157056 + t * 131072 + b * 512 + o * 16 + l = W := Option.some.inj hw
  obtain ⟨h1, hf0, hf1, hf2, hf3⟩ : W / 33554432 = 58 ∧ W / 131072 % 256 = t ∧ W / 512 % 256 = b ∧ W / 16 % 32 = o ∧ W / 1 % 16 = l := by omega
  clear hw
  refine ⟨by omega, by omega, ?_⟩
  rw [matchRow_op58 h1, hf0, hf1, hf2, hf3]
  rfl

theorem Encoding.sst64 (t b o l : Nat) : Encoding.Statement (.sst64 t b o l) := by
  intro W hw hwf
  have hf := fieldsFit_of_wellFormed _ hwf
  change (Nat.blt t 256 && (Nat.blt b 256 && (Nat.blt o 32 && (Nat.blt l 16 && true)))) = true at hf
  simp only [Bool.and_true, Bool.and_eq_true, Nat.blt_eq] at hf
  replace hw : 1979711488 + t * 131072 + b * 512 + o * 16 + l = W := Option.some.inj hw
  obtain ⟨h1, hf0, hf1, hf2, hf3⟩ : W / 33554432 = 59 ∧ W / 131072 % 256 = t ∧ W / 512 % 256 = b ∧ W / 16 % 32 = o ∧ W / 1 % 16 = l := by omega
  clear hw
  refine ⟨by omega, by omega, ?_⟩
  rw [matchRow_op59 h1, hf0, hf1, hf2, hf3]
  rfl

theorem Encoding.sst32 (t b o l : Nat) : Encoding.Statement (.sst32 t b o l) := by
  intro W hw hwf
  have hf := fieldsFit_of_wellFormed _ hwf
  change (Nat.blt t 256 && (Nat.blt b 256 && (Nat.blt o 32 && (Nat.blt l 16 && true)))) = true at hf
  simp only [Bool.and_true, Bool.and_eq_true, Nat.blt_eq] at hf
  replace hw : 2013265920 + t * 131072 + b * 512 + o * 16 + l = W := Option.some.inj hw
  obtain ⟨h1, hf0, hf1, hf2, hf3⟩ : W / 33554432 = 60 ∧ W / 131072 % 256 = t ∧ W / 512 % 256 = b ∧ W / 16 % 32 = o ∧ W / 1 % 16 = l := by omega
  clear hw
  refine ⟨by omega, by omega, ?_⟩
  rw [matchRow_op60 h1, hf0, hf1, hf2, hf3]
  rfl

theorem Encoding.vld8 (t b x l u : Nat) : Encoding.Statement (.vld8 t b x l u) := by
  intro W hw hwf
  have hf := fieldsFit_of_wellFormed _ hwf
  change (Nat.blt t 128 && (Nat.blt b 64 && (Nat.blt x 128 && (Nat.blt l 16 && (Nat.blt u 2 && true))))) = true at hf
  simp only [Bool.and_true, Bool.and_eq_true, Nat.blt_eq] at hf
  replace hw : 2046820352 + t * 262144 + b * 4096 + x * 32 + l * 2 + u = W := Option.some.inj hw
  obtain ⟨h1, hf0, hf1, hf2, hf3, hf4⟩ : W / 33554432 = 61 ∧ W / 262144 % 128 = t ∧ W / 4096 % 64 = b ∧ W / 32 % 128 = x ∧ W / 2 % 16 = l ∧ W / 1 % 2 = u := by omega
  clear hw
  refine ⟨by omega, by omega, ?_⟩
  rw [matchRow_op61 h1, hf0, hf1, hf2, hf3, hf4]
  rfl

theorem Encoding.vld16 (t b x l u : Nat) : Encoding.Statement (.vld16 t b x l u) := by
  intro W hw hwf
  have hf := fieldsFit_of_wellFormed _ hwf
  change (Nat.blt t 128 && (Nat.blt b 64 && (Nat.blt x 128 && (Nat.blt l 16 && (Nat.blt u 2 && true))))) = true at hf
  simp only [Bool.and_true, Bool.and_eq_true, Nat.blt_eq] at hf
  replace hw : 2080374784 + t * 262144 + b * 4096 + x * 32 + l * 2 + u = W := Option.some.inj hw
  obtain ⟨h1, hf0, hf1, hf2, hf3, hf4⟩ : W / 33554432 = 62 ∧ W / 262144 % 128 = t ∧ W / 4096 % 64 = b ∧ W / 32 % 128 = x ∧ W / 2 % 16 = l ∧ W / 1 % 2 = u := by omega
  clear hw
  refine ⟨by omega, by omega, ?_⟩
  rw [matchRow_op62 h1, hf0, hf1, hf2, hf3, hf4]
  rfl

theorem Encoding.vld32 (t b x l u : Nat) : Encoding.Statement (.vld32 t b x l u) := by
  intro W hw hwf
  have hf := fieldsFit_of_wellFormed _ hwf
  change (Nat.blt t 128 && (Nat.blt b 64 && (Nat.blt x 128 && (Nat.blt l 16 && (Nat.blt u 2 && true))))) = true at hf
  simp only [Bool.and_true, Bool.and_eq_true, Nat.blt_eq] at hf
  replace hw : 2113929216 + t * 262144 + b * 4096 + x * 32 + l * 2 + u = W := Option.some.inj hw
  obtain ⟨h1, hf0, hf1, hf2, hf3, hf4⟩ : W / 33554432 = 63 ∧ W / 262144 % 128 = t ∧ W / 4096 % 64 = b ∧ W / 32 % 128 = x ∧ W / 2 % 16 = l ∧ W / 1 % 2 = u := by omega
  clear hw
  refine ⟨by omega, by omega, ?_⟩
  rw [matchRow_op63 h1, hf0, hf1, hf2, hf3, hf4]
  rfl

theorem Encoding.vld64 (t b x l u : Nat) : Encoding.Statement (.vld64 t b x l u) := by
  intro W hw hwf
  have hf := fieldsFit_of_wellFormed _ hwf
  change (Nat.blt t 128 && (Nat.blt b 64 && (Nat.blt x 128 && (Nat.blt l 16 && (Nat.blt u 2 && true))))) = true at hf
  simp only [Bool.and_true, Bool.and_eq_true, Nat.blt_eq] at hf
  replace hw : 2147483648 + t * 262144 + b * 4096 + x * 32 + l * 2 + u = W := Option.some.inj hw
  obtain ⟨h1, hf0, hf1, hf2, hf3, hf4⟩ : W / 33554432 = 64 ∧ W / 262144 % 128 = t ∧ W / 4096 % 64 = b ∧ W / 32 % 128 = x ∧ W / 2 % 16 = l ∧ W / 1 % 2 = u := by omega
  clear hw
  refine ⟨by omega, by omega, ?_⟩
  rw [matchRow_op64 h1, hf0, hf1, hf2, hf3, hf4]
  rfl

theorem Encoding.vldb (t b x l u : Nat) : Encoding.Statement (.vldb t b x l u) := by
  intro W hw hwf
  have hf := fieldsFit_of_wellFormed _ hwf
  change (Nat.blt t 128 && (Nat.blt b 64 && (Nat.blt x 128 && (Nat.blt l 16 && (Nat.blt u 2 && true))))) = true at hf
  simp only [Bool.and_true, Bool.and_eq_true, Nat.blt_eq] at hf
  replace hw : 2181038080 + t * 262144 + b * 4096 + x * 32 + l * 2 + u = W := Option.some.inj hw
  obtain ⟨h1, hf0, hf1, hf2, hf3, hf4⟩ : W / 33554432 = 65 ∧ W / 262144 % 128 = t ∧ W / 4096 % 64 = b ∧ W / 32 % 128 = x ∧ W / 2 % 16 = l ∧ W / 1 % 2 = u := by omega
  clear hw
  refine ⟨by omega, by omega, ?_⟩
  rw [matchRow_op65 h1, hf0, hf1, hf2, hf3, hf4]
  rfl

theorem Encoding.vst8 (t b x l u : Nat) : Encoding.Statement (.vst8 t b x l u) := by
  intro W hw hwf
  have hf := fieldsFit_of_wellFormed _ hwf
  change (Nat.blt t 128 && (Nat.blt b 64 && (Nat.blt x 128 && (Nat.blt l 16 && (Nat.blt u 2 && true))))) = true at hf
  simp only [Bool.and_true, Bool.and_eq_true, Nat.blt_eq] at hf
  replace hw : 2214592512 + t * 262144 + b * 4096 + x * 32 + l * 2 + u = W := Option.some.inj hw
  obtain ⟨h1, hf0, hf1, hf2, hf3, hf4⟩ : W / 33554432 = 66 ∧ W / 262144 % 128 = t ∧ W / 4096 % 64 = b ∧ W / 32 % 128 = x ∧ W / 2 % 16 = l ∧ W / 1 % 2 = u := by omega
  clear hw
  refine ⟨by omega, by omega, ?_⟩
  rw [matchRow_op66 h1, hf0, hf1, hf2, hf3, hf4]
  rfl

theorem Encoding.vst16 (t b x l u : Nat) : Encoding.Statement (.vst16 t b x l u) := by
  intro W hw hwf
  have hf := fieldsFit_of_wellFormed _ hwf
  change (Nat.blt t 128 && (Nat.blt b 64 && (Nat.blt x 128 && (Nat.blt l 16 && (Nat.blt u 2 && true))))) = true at hf
  simp only [Bool.and_true, Bool.and_eq_true, Nat.blt_eq] at hf
  replace hw : 2248146944 + t * 262144 + b * 4096 + x * 32 + l * 2 + u = W := Option.some.inj hw
  obtain ⟨h1, hf0, hf1, hf2, hf3, hf4⟩ : W / 33554432 = 67 ∧ W / 262144 % 128 = t ∧ W / 4096 % 64 = b ∧ W / 32 % 128 = x ∧ W / 2 % 16 = l ∧ W / 1 % 2 = u := by omega
  clear hw
  refine ⟨by omega, by omega, ?_⟩
  rw [matchRow_op67 h1, hf0, hf1, hf2, hf3, hf4]
  rfl

theorem Encoding.vst32 (t b x l u : Nat) : Encoding.Statement (.vst32 t b x l u) := by
  intro W hw hwf
  have hf := fieldsFit_of_wellFormed _ hwf
  change (Nat.blt t 128 && (Nat.blt b 64 && (Nat.blt x 128 && (Nat.blt l 16 && (Nat.blt u 2 && true))))) = true at hf
  simp only [Bool.and_true, Bool.and_eq_true, Nat.blt_eq] at hf
  replace hw : 2281701376 + t * 262144 + b * 4096 + x * 32 + l * 2 + u = W := Option.some.inj hw
  obtain ⟨h1, hf0, hf1, hf2, hf3, hf4⟩ : W / 33554432 = 68 ∧ W / 262144 % 128 = t ∧ W / 4096 % 64 = b ∧ W / 32 % 128 = x ∧ W / 2 % 16 = l ∧ W / 1 % 2 = u := by omega
  clear hw
  refine ⟨by omega, by omega, ?_⟩
  rw [matchRow_op68 h1, hf0, hf1, hf2, hf3, hf4]
  rfl

theorem Encoding.vst64 (t b x l u : Nat) : Encoding.Statement (.vst64 t b x l u) := by
  intro W hw hwf
  have hf := fieldsFit_of_wellFormed _ hwf
  change (Nat.blt t 128 && (Nat.blt b 64 && (Nat.blt x 128 && (Nat.blt l 16 && (Nat.blt u 2 && true))))) = true at hf
  simp only [Bool.and_true, Bool.and_eq_true, Nat.blt_eq] at hf
  replace hw : 2315255808 + t * 262144 + b * 4096 + x * 32 + l * 2 + u = W := Option.some.inj hw
  obtain ⟨h1, hf0, hf1, hf2, hf3, hf4⟩ : W / 33554432 = 69 ∧ W / 262144 % 128 = t ∧ W / 4096 % 64 = b ∧ W / 32 % 128 = x ∧ W / 2 % 16 = l ∧ W / 1 % 2 = u := by omega
  clear hw
  refine ⟨by omega, by omega, ?_⟩
  rw [matchRow_op69 h1, hf0, hf1, hf2, hf3, hf4]
  rfl

theorem Encoding.vstb (t b x l u : Nat) : Encoding.Statement (.vstb t b x l u) := by
  intro W hw hwf
  have hf := fieldsFit_of_wellFormed _ hwf
  change (Nat.blt t 128 && (Nat.blt b 64 && (Nat.blt x 128 && (Nat.blt l 16 && (Nat.blt u 2 && true))))) = true at hf
  simp only [Bool.and_true, Bool.and_eq_true, Nat.blt_eq] at hf
  replace hw : 2348810240 + t * 262144 + b * 4096 + x * 32 + l * 2 + u = W := Option.some.inj hw
  obtain ⟨h1, hf0, hf1, hf2, hf3, hf4⟩ : W / 33554432 = 70 ∧ W / 262144 % 128 = t ∧ W / 4096 % 64 = b ∧ W / 32 % 128 = x ∧ W / 2 % 16 = l ∧ W / 1 % 2 = u := by omega
  clear hw
  refine ⟨by omega, by omega, ?_⟩
  rw [matchRow_op70 h1, hf0, hf1, hf2, hf3, hf4]
  rfl

theorem Encoding.vatom (d x b o l : Nat) : Encoding.Statement (.vatom d x b o l) := by
  intro W hw hwf
  have hf := fieldsFit_of_wellFormed _ hwf
  change (Nat.blt d 128 && (Nat.blt x 128 && (Nat.blt b 8 && (Nat.blt o 16 && (Nat.blt l 16 && true))))) = true at hf
  simp only [Bool.and_true, Bool.and_eq_true, Nat.blt_eq] at hf
  replace hw : 2382364672 + d * 262144 + x * 2048 + b * 256 + o * 16 + l = W := Option.some.inj hw
  obtain ⟨h1, hf0, hf1, hf2, hf3, hf4⟩ : W / 33554432 = 71 ∧ W / 262144 % 128 = d ∧ W / 2048 % 128 = x ∧ W / 256 % 8 = b ∧ W / 16 % 16 = o ∧ W / 1 % 16 = l := by omega
  clear hw
  refine ⟨by omega, by omega, ?_⟩
  rw [matchRow_op71 h1, hf0, hf1, hf2, hf3, hf4]
  rfl

theorem Encoding.satom (d a o w l : Nat) : Encoding.Statement (.satom d a o w l) := by
  intro W hw hwf
  have hf := fieldsFit_of_wellFormed _ hwf
  change (Nat.blt d 256 && (Nat.blt a 256 && (Nat.blt o 16 && (Nat.blt w 2 && (Nat.blt l 16 && true))))) = true at hf
  simp only [Bool.and_true, Bool.and_eq_true, Nat.blt_eq] at hf
  replace hw : 2415919104 + d * 131072 + a * 512 + o * 32 + w * 16 + l = W := Option.some.inj hw
  obtain ⟨h1, hf0, hf1, hf2, hf3, hf4⟩ : W / 33554432 = 72 ∧ W / 131072 % 256 = d ∧ W / 512 % 256 = a ∧ W / 32 % 16 = o ∧ W / 16 % 2 = w ∧ W / 1 % 16 = l := by omega
  clear hw
  refine ⟨by omega, by omega, ?_⟩
  rw [matchRow_op72 h1, hf0, hf1, hf2, hf3, hf4]
  rfl

theorem Encoding.sptest (d a : Nat) : Encoding.Statement (.sptest d a) := by
  intro W hw hwf
  have hf := fieldsFit_of_wellFormed _ hwf
  change (Nat.blt d 256 && (Nat.blt a 256 && true)) = true at hf
  simp only [Bool.and_true, Bool.and_eq_true, Nat.blt_eq] at hf
  replace hw : 2449473536 + d * 131072 + a * 512 = W := Option.some.inj hw
  obtain ⟨h1, hc0, hf0, hf1⟩ : W / 33554432 = 73 ∧ W / 1 % 512 = 0 ∧ W / 131072 % 256 = d ∧ W / 512 % 256 = a := by omega
  clear hw
  refine ⟨by omega, by omega, ?_⟩
  rw [matchRow_op73 h1, if_pos hc0, hf0, hf1]
  rfl

theorem Encoding.spcast (d a p t : Nat) : Encoding.Statement (.spcast d a p t) := by
  intro W hw hwf
  have hf := fieldsFit_of_wellFormed _ hwf
  change (Nat.blt d 256 && (Nat.blt a 256 && (Nat.blt p 2 && (Nat.blt t 8 && true)))) = true at hf
  simp only [Bool.and_true, Bool.and_eq_true, Nat.blt_eq] at hf
  replace hw : 2483027968 + d * 131072 + a * 512 + p * 16 + t * 2 = W := Option.some.inj hw
  obtain ⟨h1, hc0, hf0, hf1, hf2, hf3⟩ : W / 33554432 = 74 ∧ (W / 1 % 2 = 0 ∧ W / 32 % 16 = 0) ∧ W / 131072 % 256 = d ∧ W / 512 % 256 = a ∧ W / 16 % 2 = p ∧ W / 2 % 8 = t := by omega
  clear hw
  refine ⟨by omega, by omega, ?_⟩
  rw [matchRow_op74 h1, if_pos hc0, hf0, hf1, hf2, hf3]
  rfl

theorem Encoding.vsptest (d a : Nat) : Encoding.Statement (.vsptest d a) := by
  intro W hw hwf
  have hf := fieldsFit_of_wellFormed _ hwf
  change (Nat.blt d 128 && (Nat.blt a 128 && true)) = true at hf
  simp only [Bool.and_true, Bool.and_eq_true, Nat.blt_eq] at hf
  replace hw : 2516582400 + d * 262144 + a * 2048 = W := Option.some.inj hw
  obtain ⟨h1, hc0, hf0, hf1⟩ : W / 33554432 = 75 ∧ W / 1 % 2048 = 0 ∧ W / 262144 % 128 = d ∧ W / 2048 % 128 = a := by omega
  clear hw
  refine ⟨by omega, by omega, ?_⟩
  rw [matchRow_op75 h1, if_pos hc0, hf0, hf1]
  rfl

theorem Encoding.vspcast (d a p t : Nat) : Encoding.Statement (.vspcast d a p t) := by
  intro W hw hwf
  have hf := fieldsFit_of_wellFormed _ hwf
  change (Nat.blt d 128 && (Nat.blt a 128 && (Nat.blt p 2 && (Nat.blt t 8 && true)))) = true at hf
  simp only [Bool.and_true, Bool.and_eq_true, Nat.blt_eq] at hf
  replace hw : 2550136832 + d * 262144 + a * 2048 + p * 128 + t * 16 = W := Option.some.inj hw
  obtain ⟨h1, hc0, hf0, hf1, hf2, hf3⟩ : W / 33554432 = 76 ∧ (W / 1 % 16 = 0 ∧ W / 256 % 8 = 0) ∧ W / 262144 % 128 = d ∧ W / 2048 % 128 = a ∧ W / 128 % 2 = p ∧ W / 16 % 8 = t := by omega
  clear hw
  refine ⟨by omega, by omega, ?_⟩
  rw [matchRow_op76 h1, if_pos hc0, hf0, hf1, hf2, hf3]
  rfl

theorem Encoding.prefL1 (b o : Nat) : Encoding.Statement (.prefL1 b o) := by
  intro W hw hwf
  have hf := fieldsFit_of_wellFormed _ hwf
  change (Nat.blt b 256 && (Nat.blt o 32 && true)) = true at hf
  simp only [Bool.and_true, Bool.and_eq_true, Nat.blt_eq] at hf
  replace hw : 2583691264 + b * 512 + o * 16 = W := Option.some.inj hw
  obtain ⟨h1, hc0, hf0, hf1⟩ : W / 33554432 = 77 ∧ (W / 1 % 16 = 0 ∧ W / 131072 % 256 = 0) ∧ W / 512 % 256 = b ∧ W / 16 % 32 = o := by omega
  clear hw
  refine ⟨by omega, by omega, ?_⟩
  rw [matchRow_op77 h1, if_pos hc0, hf0, hf1]
  rfl

theorem Encoding.prefL2 (b o : Nat) : Encoding.Statement (.prefL2 b o) := by
  intro W hw hwf
  have hf := fieldsFit_of_wellFormed _ hwf
  change (Nat.blt b 256 && (Nat.blt o 32 && true)) = true at hf
  simp only [Bool.and_true, Bool.and_eq_true, Nat.blt_eq] at hf
  replace hw : 2583822336 + b * 512 + o * 16 = W := Option.some.inj hw
  obtain ⟨h1, hn0, hc0, hf0, hf1⟩ : W / 33554432 = 77 ∧ (¬(W / 1 % 16 = 0 ∧ W / 131072 % 256 = 0)) ∧ (W / 1 % 16 = 0 ∧ W / 131072 % 256 = 1) ∧ W / 512 % 256 = b ∧ W / 16 % 32 = o := by omega
  clear hw
  refine ⟨by omega, by omega, ?_⟩
  rw [matchRow_op77 h1, if_neg hn0, if_pos hc0, hf0, hf1]
  rfl

theorem Encoding.cctlL1line (a : Nat) : Encoding.Statement (.cctlL1line a) := by
  intro W hw hwf
  have hf := fieldsFit_of_wellFormed _ hwf
  change (Nat.blt a 256 && true) = true at hf
  simp only [Bool.and_true, Nat.blt_eq] at hf
  replace hw : 2617245696 + a * 512 = W := Option.some.inj hw
  obtain ⟨h1, hn0, hc0, hf0⟩ : W / 33554432 = 78 ∧ ¬(W / 1 % 33554432 = 2) ∧ (W / 1 % 512 = 0 ∧ W / 131072 % 256 = 0) ∧ W / 512 % 256 = a := by omega
  clear hw
  refine ⟨by omega, by omega, ?_⟩
  rw [matchRow_op78 h1, if_neg hn0, if_pos hc0, hf0]
  rfl

theorem Encoding.cctlL2evict (a : Nat) : Encoding.Statement (.cctlL2evict a) := by
  intro W hw hwf
  have hf := fieldsFit_of_wellFormed _ hwf
  change (Nat.blt a 256 && true) = true at hf
  simp only [Bool.and_true, Nat.blt_eq] at hf
  replace hw : 2617245700 + a * 512 = W := Option.some.inj hw
  obtain ⟨h1, hn0, hn1, hc0, hf0⟩ : W / 33554432 = 78 ∧ ¬(W / 1 % 33554432 = 2) ∧ (¬(W / 1 % 512 = 0 ∧ W / 131072 % 256 = 0)) ∧ (W / 1 % 512 = 4 ∧ W / 131072 % 256 = 0) ∧ W / 512 % 256 = a := by omega
  clear hw
  refine ⟨by omega, by omega, ?_⟩
  rw [matchRow_op78 h1, if_neg hn0, if_neg hn1, if_pos hc0, hf0]
  rfl

theorem Encoding.vadd (d a b : Nat) : Encoding.Statement (.vadd d a b) := by
  intro W hw hwf
  have hf := fieldsFit_of_wellFormed _ hwf
  change (Nat.blt d 128 && (Nat.blt a 128 && (Nat.blt b 128 && true))) = true at hf
  simp only [Bool.and_true, Bool.and_eq_true, Nat.blt_eq] at hf
  replace hw : 2684354560 + d * 262144 + a * 2048 + b * 16 = W := Option.some.inj hw
  obtain ⟨h1, hc0, hf0, hf1, hf2⟩ : W / 33554432 = 80 ∧ W / 1 % 16 = 0 ∧ W / 262144 % 128 = d ∧ W / 2048 % 128 = a ∧ W / 16 % 128 = b := by omega
  clear hw
  refine ⟨by omega, by omega, ?_⟩
  rw [matchRow_op80 h1, if_pos hc0, hf0, hf1, hf2]
  rfl

theorem Encoding.vsub (d a b : Nat) : Encoding.Statement (.vsub d a b) := by
  intro W hw hwf
  have hf := fieldsFit_of_wellFormed _ hwf
  change (Nat.blt d 128 && (Nat.blt a 128 && (Nat.blt b 128 && true))) = true at hf
  simp only [Bool.and_true, Bool.and_eq_true, Nat.blt_eq] at hf
  replace hw : 2684354561 + d * 262144 + a * 2048 + b * 16 = W := Option.some.inj hw
  obtain ⟨h1, hn0, hc0, hf0, hf1, hf2⟩ : W / 33554432 = 80 ∧ ¬(W / 1 % 16 = 0) ∧ W / 1 % 16 = 1 ∧ W / 262144 % 128 = d ∧ W / 2048 % 128 = a ∧ W / 16 % 128 = b := by omega
  clear hw
  refine ⟨by omega, by omega, ?_⟩
  rw [matchRow_op80 h1, if_neg hn0, if_pos hc0, hf0, hf1, hf2]
  rfl

theorem Encoding.vmul (d a b : Nat) : Encoding.Statement (.vmul d a b) := by
  intro W hw hwf
  have hf := fieldsFit_of_wellFormed _ hwf
  change (Nat.blt d 128 && (Nat.blt a 128 && (Nat.blt b 128 && true))) = true at hf
  simp only [Bool.and_true, Bool.and_eq_true, Nat.blt_eq] at hf
  replace hw : 2684354562 + d * 262144 + a * 2048 + b * 16 = W := Option.some.inj hw
  obtain ⟨h1, hn0, hn1, hc0, hf0, hf1, hf2⟩ : W / 33554432 = 80 ∧ ¬(W / 1 % 16 = 0) ∧ ¬(W / 1 % 16 = 1) ∧ W / 1 % 16 = 2 ∧ W / 262144 % 128 = d ∧ W / 2048 % 128 = a ∧ W / 16 % 128 = b := by omega
  clear hw
  refine ⟨by omega, by omega, ?_⟩
  rw [matchRow_op80 h1, if_neg hn0, if_neg hn1, if_pos hc0, hf0, hf1, hf2]
  rfl

theorem Encoding.vmulh (d a b : Nat) : Encoding.Statement (.vmulh d a b) := by
  intro W hw hwf
  have hf := fieldsFit_of_wellFormed _ hwf
  change (Nat.blt d 128 && (Nat.blt a 128 && (Nat.blt b 128 && true))) = true at hf
  simp only [Bool.and_true, Bool.and_eq_true, Nat.blt_eq] at hf
  replace hw : 2684354563 + d * 262144 + a * 2048 + b * 16 = W := Option.some.inj hw
  obtain ⟨h1, hn0, hn1, hn2, hc0, hf0, hf1, hf2⟩ : W / 33554432 = 80 ∧ ¬(W / 1 % 16 = 0) ∧ ¬(W / 1 % 16 = 1) ∧ ¬(W / 1 % 16 = 2) ∧ W / 1 % 16 = 3 ∧ W / 262144 % 128 = d ∧ W / 2048 % 128 = a ∧ W / 16 % 128 = b := by omega
  clear hw
  refine ⟨by omega, by omega, ?_⟩
  rw [matchRow_op80 h1, if_neg hn0, if_neg hn1, if_neg hn2, if_pos hc0, hf0, hf1, hf2]
  rfl

theorem Encoding.vmin (d a b : Nat) : Encoding.Statement (.vmin d a b) := by
  intro W hw hwf
  have hf := fieldsFit_of_wellFormed _ hwf
  change (Nat.blt d 128 && (Nat.blt a 128 && (Nat.blt b 128 && true))) = true at hf
  simp only [Bool.and_true, Bool.and_eq_true, Nat.blt_eq] at hf
  replace hw : 2684354564 + d * 262144 + a * 2048 + b * 16 = W := Option.some.inj hw
  obtain ⟨h1, hn0, hn1, hn2, hn3, hc0, hf0, hf1, hf2⟩ : W / 33554432 = 80 ∧ ¬(W / 1 % 16 = 0) ∧ ¬(W / 1 % 16 = 1) ∧ ¬(W / 1 % 16 = 2) ∧ ¬(W / 1 % 16 = 3) ∧ W / 1 % 16 = 4 ∧ W / 262144 % 128 = d ∧ W / 2048 % 128 = a ∧ W / 16 % 128 = b := by omega
  clear hw
  refine ⟨by omega, by omega, ?_⟩
  rw [matchRow_op80 h1, if_neg hn0, if_neg hn1, if_neg hn2, if_neg hn3, if_pos hc0, hf0, hf1, hf2]
  rfl

theorem Encoding.vmax (d a b : Nat) : Encoding.Statement (.vmax d a b) := by
  intro W hw hwf
  have hf := fieldsFit_of_wellFormed _ hwf
  change (Nat.blt d 128 && (Nat.blt a 128 && (Nat.blt b 128 && true))) = true at hf
  simp only [Bool.and_true, Bool.and_eq_true, Nat.blt_eq] at hf
  replace hw : 2684354565 + d * 262144 + a * 2048 + b * 16 = W := Option.some.inj hw
  obtain ⟨h1, hn0, hn1, hn2, hn3, hn4, hc0, hf0, hf1, hf2⟩ : W / 33554432 = 80 ∧ ¬(W / 1 % 16 = 0) ∧ ¬(W / 1 % 16 = 1) ∧ ¬(W / 1 % 16 = 2) ∧ ¬(W / 1 % 16 = 3) ∧ ¬(W / 1 % 16 = 4) ∧ W / 1 % 16 = 5 ∧ W / 262144 % 128 = d ∧ W / 2048 % 128 = a ∧ W / 16 % 128 = b := by omega
  clear hw
  refine ⟨by omega, by omega, ?_⟩
  rw [matchRow_op80 h1, if_neg hn0, if_neg hn1, if_neg hn2, if_neg hn3, if_neg hn4, if_pos hc0, hf0, hf1, hf2]
  rfl

theorem Encoding.vabsd (d a b : Nat) : Encoding.Statement (.vabsd d a b) := by
  intro W hw hwf
  have hf := fieldsFit_of_wellFormed _ hwf
  change (Nat.blt d 128 && (Nat.blt a 128 && (Nat.blt b 128 && true))) = true at hf
  simp only [Bool.and_true, Bool.and_eq_true, Nat.blt_eq] at hf
  replace hw : 2684354566 + d * 262144 + a * 2048 + b * 16 = W := Option.some.inj hw
  obtain ⟨h1, hn0, hn1, hn2, hn3, hn4, hn5, hc0, hf0, hf1, hf2⟩ : W / 33554432 = 80 ∧ ¬(W / 1 % 16 = 0) ∧ ¬(W / 1 % 16 = 1) ∧ ¬(W / 1 % 16 = 2) ∧ ¬(W / 1 % 16 = 3) ∧ ¬(W / 1 % 16 = 4) ∧ ¬(W / 1 % 16 = 5) ∧ W / 1 % 16 = 6 ∧ W / 262144 % 128 = d ∧ W / 2048 % 128 = a ∧ W / 16 % 128 = b := by omega
  clear hw
  refine ⟨by omega, by omega, ?_⟩
  rw [matchRow_op80 h1, if_neg hn0, if_neg hn1, if_neg hn2, if_neg hn3, if_neg hn4, if_neg hn5, if_pos hc0, hf0, hf1, hf2]
  rfl

theorem Encoding.vdiv (d a b : Nat) : Encoding.Statement (.vdiv d a b) := by
  intro W hw hwf
  have hf := fieldsFit_of_wellFormed _ hwf
  change (Nat.blt d 128 && (Nat.blt a 128 && (Nat.blt b 128 && true))) = true at hf
  simp only [Bool.and_true, Bool.and_eq_true, Nat.blt_eq] at hf
  replace hw : 2684354567 + d * 262144 + a * 2048 + b * 16 = W := Option.some.inj hw
  obtain ⟨h1, hn0, hn1, hn2, hn3, hn4, hn5, hn6, hc0, hf0, hf1, hf2⟩ : W / 33554432 = 80 ∧ ¬(W / 1 % 16 = 0) ∧ ¬(W / 1 % 16 = 1) ∧ ¬(W / 1 % 16 = 2) ∧ ¬(W / 1 % 16 = 3) ∧ ¬(W / 1 % 16 = 4) ∧ ¬(W / 1 % 16 = 5) ∧ ¬(W / 1 % 16 = 6) ∧ W / 1 % 16 = 7 ∧ W / 262144 % 128 = d ∧ W / 2048 % 128 = a ∧ W / 16 % 128 = b := by omega
  clear hw
  refine ⟨by omega, by omega, ?_⟩
  rw [matchRow_op80 h1, if_neg hn0, if_neg hn1, if_neg hn2, if_neg hn3, if_neg hn4, if_neg hn5, if_neg hn6, if_pos hc0, hf0, hf1, hf2]
  rfl

theorem Encoding.vrem (d a b : Nat) : Encoding.Statement (.vrem d a b) := by
  intro W hw hwf
  have hf := fieldsFit_of_wellFormed _ hwf
  change (Nat.blt d 128 && (Nat.blt a 128 && (Nat.blt b 128 && true))) = true at hf
  simp only [Bool.and_true, Bool.and_eq_true, Nat.blt_eq] at hf
  replace hw : 2684354568 + d * 262144 + a * 2048 + b * 16 = W := Option.some.inj hw
  obtain ⟨h1, hn0, hn1, hn2, hn3, hn4, hn5, hn6, hn7, hc0, hf0, hf1, hf2⟩ : W / 33554432 = 80 ∧ ¬(W / 1 % 16 = 0) ∧ ¬(W / 1 % 16 = 1) ∧ ¬(W / 1 % 16 = 2) ∧ ¬(W / 1 % 16 = 3) ∧ ¬(W / 1 % 16 = 4) ∧ ¬(W / 1 % 16 = 5) ∧ ¬(W / 1 % 16 = 6) ∧ ¬(W / 1 % 16 = 7) ∧ W / 1 % 16 = 8 ∧ W / 262144 % 128 = d ∧ W / 2048 % 128 = a ∧ W / 16 % 128 = b := by omega
  clear hw
  refine ⟨by omega, by omega, ?_⟩
  rw [matchRow_op80 h1, if_neg hn0, if_neg hn1, if_neg hn2, if_neg hn3, if_neg hn4, if_neg hn5, if_neg hn6, if_neg hn7, if_pos hc0, hf0, hf1, hf2]
  rfl

theorem Encoding.vfma (d a b : Nat) : Encoding.Statement (.vfma d a b) := by
  intro W hw hwf
  have hf := fieldsFit_of_wellFormed _ hwf
  change (Nat.blt d 128 && (Nat.blt a 128 && (Nat.blt b 128 && true))) = true at hf
  simp only [Bool.and_true, Bool.and_eq_true, Nat.blt_eq] at hf
  replace hw : 2684354569 + d * 262144 + a * 2048 + b * 16 = W := Option.some.inj hw
  obtain ⟨h1, hn0, hn1, hn2, hn3, hn4, hn5, hn6, hn7, hn8, hc0, hf0, hf1, hf2⟩ : W / 33554432 = 80 ∧ ¬(W / 1 % 16 = 0) ∧ ¬(W / 1 % 16 = 1) ∧ ¬(W / 1 % 16 = 2) ∧ ¬(W / 1 % 16 = 3) ∧ ¬(W / 1 % 16 = 4) ∧ ¬(W / 1 % 16 = 5) ∧ ¬(W / 1 % 16 = 6) ∧ ¬(W / 1 % 16 = 7) ∧ ¬(W / 1 % 16 = 8) ∧ W / 1 % 16 = 9 ∧ W / 262144 % 128 = d ∧ W / 2048 % 128 = a ∧ W / 16 % 128 = b := by omega
  clear hw
  refine ⟨by omega, by omega, ?_⟩
  rw [matchRow_op80 h1, if_neg hn0, if_neg hn1, if_neg hn2, if_neg hn3, if_neg hn4, if_neg hn5, if_neg hn6, if_neg hn7, if_neg hn8, if_pos hc0, hf0, hf1, hf2]
  rfl

theorem Encoding.vfms (d a b : Nat) : Encoding.Statement (.vfms d a b) := by
  intro W hw hwf
  have hf := fieldsFit_of_wellFormed _ hwf
  change (Nat.blt d 128 && (Nat.blt a 128 && (Nat.blt b 128 && true))) = true at hf
  simp only [Bool.and_true, Bool.and_eq_true, Nat.blt_eq] at hf
  replace hw : 2684354570 + d * 262144 + a * 2048 + b * 16 = W := Option.some.inj hw
  obtain ⟨h1, hn0, hn1, hn2, hn3, hn4, hn5, hn6, hn7, hn8, hn9, hc0, hf0, hf1, hf2⟩ : W / 33554432 = 80 ∧ ¬(W / 1 % 16 = 0) ∧ ¬(W / 1 % 16 = 1) ∧ ¬(W / 1 % 16 = 2) ∧ ¬(W / 1 % 16 = 3) ∧ ¬(W / 1 % 16 = 4) ∧ ¬(W / 1 % 16 = 5) ∧ ¬(W / 1 % 16 = 6) ∧ ¬(W / 1 % 16 = 7) ∧ ¬(W / 1 % 16 = 8) ∧ ¬(W / 1 % 16 = 9) ∧ W / 1 % 16 = 10 ∧ W / 262144 % 128 = d ∧ W / 2048 % 128 = a ∧ W / 16 % 128 = b := by omega
  clear hw
  refine ⟨by omega, by omega, ?_⟩
  rw [matchRow_op80 h1, if_neg hn0, if_neg hn1, if_neg hn2, if_neg hn3, if_neg hn4, if_neg hn5, if_neg hn6, if_neg hn7, if_neg hn8, if_neg hn9, if_pos hc0, hf0, hf1, hf2]
  rfl

theorem Encoding.vfnma (d a b : Nat) : Encoding.Statement (.vfnma d a b) := by
  intro W hw hwf
  have hf := fieldsFit_of_wellFormed _ hwf
  change (Nat.blt d 128 && (Nat.blt a 128 && (Nat.blt b 128 && true))) = true at hf
  simp only [Bool.and_true, Bool.and_eq_true, Nat.blt_eq] at hf
  replace hw : 2684354571 + d * 262144 + a * 2048 + b * 16 = W := Option.some.inj hw
  obtain ⟨h1, hn0, hn1, hn2, hn3, hn4, hn5, hn6, hn7, hn8, hn9, hn10, hc0, hf0, hf1, hf2⟩ : W / 33554432 = 80 ∧ ¬(W / 1 % 16 = 0) ∧ ¬(W / 1 % 16 = 1) ∧ ¬(W / 1 % 16 = 2) ∧ ¬(W / 1 % 16 = 3) ∧ ¬(W / 1 % 16 = 4) ∧ ¬(W / 1 % 16 = 5) ∧ ¬(W / 1 % 16 = 6) ∧ ¬(W / 1 % 16 = 7) ∧ ¬(W / 1 % 16 = 8) ∧ ¬(W / 1 % 16 = 9) ∧ ¬(W / 1 % 16 = 10) ∧ W / 1 % 16 = 11 ∧ W / 262144 % 128 = d ∧ W / 2048 % 128 = a ∧ W / 16 % 128 = b := by omega
  clear hw
  refine ⟨by omega, by omega, ?_⟩
  rw [matchRow_op80 h1, if_neg hn0, if_neg hn1, if_neg hn2, if_neg hn3, if_neg hn4, if_neg hn5, if_neg hn6, if_neg hn7, if_neg hn8, if_neg hn9, if_neg hn10, if_pos hc0, hf0, hf1, hf2]
  rfl

theorem Encoding.vaddsat (d a b : Nat) : Encoding.Statement (.vaddsat d a b) := by
  intro W hw hwf
  have hf := fieldsFit_of_wellFormed _ hwf
  change (Nat.blt d 128 && (Nat.blt a 128 && (Nat.blt b 128 && true))) = true at hf
  simp only [Bool.and_true, Bool.and_eq_true, Nat.blt_eq] at hf
  replace hw : 2684354572 + d * 262144 + a * 2048 + b * 16 = W := Option.some.inj hw
  obtain ⟨h1, hn0, hn1, hn2, hn3, hn4, hn5, hn6, hn7, hn8, hn9, hn10, hn11, hc0, hf0, hf1, hf2⟩ : W / 33554432 = 80 ∧ ¬(W / 1 % 16 = 0) ∧ ¬(W / 1 % 16 = 1) ∧ ¬(W / 1 % 16 = 2) ∧ ¬(W / 1 % 16 = 3) ∧ ¬(W / 1 % 16 = 4) ∧ ¬(W / 1 % 16 = 5) ∧ ¬(W / 1 % 16 = 6) ∧ ¬(W / 1 % 16 = 7) ∧ ¬(W / 1 % 16 = 8) ∧ ¬(W / 1 % 16 = 9) ∧ ¬(W / 1 % 16 = 10) ∧ ¬(W / 1 % 16 = 11) ∧ W / 1 % 16 = 12 ∧ W / 262144 % 128 = d ∧ W / 2048 % 128 = a ∧ W / 16 % 128 = b := by omega
  clear hw
  refine ⟨by omega, by omega, ?_⟩
  rw [matchRow_op80 h1, if_neg hn0, if_neg hn1, if_neg hn2, if_neg hn3, if_neg hn4, if_neg hn5, if_neg hn6, if_neg hn7, if_neg hn8, if_neg hn9, if_neg hn10, if_neg hn11, if_pos hc0, hf0, hf1, hf2]
  rfl

theorem Encoding.vsubsat (d a b : Nat) : Encoding.Statement (.vsubsat d a b) := by
  intro W hw hwf
  have hf := fieldsFit_of_wellFormed _ hwf
  change (Nat.blt d 128 && (Nat.blt a 128 && (Nat.blt b 128 && true))) = true at hf
  simp only [Bool.and_true, Bool.and_eq_true, Nat.blt_eq] at hf
  replace hw : 2684354573 + d * 262144 + a * 2048 + b * 16 = W := Option.some.inj hw
  obtain ⟨h1, hn0, hn1, hn2, hn3, hn4, hn5, hn6, hn7, hn8, hn9, hn10, hn11, hn12, hc0, hf0, hf1, hf2⟩ : W / 33554432 = 80 ∧ ¬(W / 1 % 16 = 0) ∧ ¬(W / 1 % 16 = 1) ∧ ¬(W / 1 % 16 = 2) ∧ ¬(W / 1 % 16 = 3) ∧ ¬(W / 1 % 16 = 4) ∧ ¬(W / 1 % 16 = 5) ∧ ¬(W / 1 % 16 = 6) ∧ ¬(W / 1 % 16 = 7) ∧ ¬(W / 1 % 16 = 8) ∧ ¬(W / 1 % 16 = 9) ∧ ¬(W / 1 % 16 = 10) ∧ ¬(W / 1 % 16 = 11) ∧ ¬(W / 1 % 16 = 12) ∧ W / 1 % 16 = 13 ∧ W / 262144 % 128 = d ∧ W / 2048 % 128 = a ∧ W / 16 % 128 = b := by omega
  clear hw
  refine ⟨by omega, by omega, ?_⟩
  rw [matchRow_op80 h1, if_neg hn0, if_neg hn1, if_neg hn2, if_neg hn3, if_neg hn4, if_neg hn5, if_neg hn6, if_neg hn7, if_neg hn8, if_neg hn9, if_neg hn10, if_neg hn11, if_neg hn12, if_pos hc0, hf0, hf1, hf2]
  rfl

theorem Encoding.vavg (d a b : Nat) : Encoding.Statement (.vavg d a b) := by
  intro W hw hwf
  have hf := fieldsFit_of_wellFormed _ hwf
  change (Nat.blt d 128 && (Nat.blt a 128 && (Nat.blt b 128 && true))) = true at hf
  simp only [Bool.and_true, Bool.and_eq_true, Nat.blt_eq] at hf
  replace hw : 2684354574 + d * 262144 + a * 2048 + b * 16 = W := Option.some.inj hw
  obtain ⟨h1, hn0, hn1, hn2, hn3, hn4, hn5, hn6, hn7, hn8, hn9, hn10, hn11, hn12, hn13, hc0, hf0, hf1, hf2⟩ : W / 33554432 = 80 ∧ ¬(W / 1 % 16 = 0) ∧ ¬(W / 1 % 16 = 1) ∧ ¬(W / 1 % 16 = 2) ∧ ¬(W / 1 % 16 = 3) ∧ ¬(W / 1 % 16 = 4) ∧ ¬(W / 1 % 16 = 5) ∧ ¬(W / 1 % 16 = 6) ∧ ¬(W / 1 % 16 = 7) ∧ ¬(W / 1 % 16 = 8) ∧ ¬(W / 1 % 16 = 9) ∧ ¬(W / 1 % 16 = 10) ∧ ¬(W / 1 % 16 = 11) ∧ ¬(W / 1 % 16 = 12) ∧ ¬(W / 1 % 16 = 13) ∧ W / 1 % 16 = 14 ∧ W / 262144 % 128 = d ∧ W / 2048 % 128 = a ∧ W / 16 % 128 = b := by omega
  clear hw
  refine ⟨by omega, by omega, ?_⟩
  rw [matchRow_op80 h1, if_neg hn0, if_neg hn1, if_neg hn2, if_neg hn3, if_neg hn4, if_neg hn5, if_neg hn6, if_neg hn7, if_neg hn8, if_neg hn9, if_neg hn10, if_neg hn11, if_neg hn12, if_neg hn13, if_pos hc0, hf0, hf1, hf2]
  rfl

theorem Encoding.vcopysign (d a b : Nat) : Encoding.Statement (.vcopysign d a b) := by
  intro W hw hwf
  have hf := fieldsFit_of_wellFormed _ hwf
  change (Nat.blt d 128 && (Nat.blt a 128 && (Nat.blt b 128 && true))) = true at hf
  simp only [Bool.and_true, Bool.and_eq_true, Nat.blt_eq] at hf
  replace hw : 2684354575 + d * 262144 + a * 2048 + b * 16 = W := Option.some.inj hw
  obtain ⟨h1, hn0, hn1, hn2, hn3, hn4, hn5, hn6, hn7, hn8, hn9, hn10, hn11, hn12, hn13, hn14, hc0, hf0, hf1, hf2⟩ : W / 33554432 = 80 ∧ ¬(W / 1 % 16 = 0) ∧ ¬(W / 1 % 16 = 1) ∧ ¬(W / 1 % 16 = 2) ∧ ¬(W / 1 % 16 = 3) ∧ ¬(W / 1 % 16 = 4) ∧ ¬(W / 1 % 16 = 5) ∧ ¬(W / 1 % 16 = 6) ∧ ¬(W / 1 % 16 = 7) ∧ ¬(W / 1 % 16 = 8) ∧ ¬(W / 1 % 16 = 9) ∧ ¬(W / 1 % 16 = 10) ∧ ¬(W / 1 % 16 = 11) ∧ ¬(W / 1 % 16 = 12) ∧ ¬(W / 1 % 16 = 13) ∧ ¬(W / 1 % 16 = 14) ∧ W / 1 % 16 = 15 ∧ W / 262144 % 128 = d ∧ W / 2048 % 128 = a ∧ W / 16 % 128 = b := by omega
  clear hw
  refine ⟨by omega, by omega, ?_⟩
  rw [matchRow_op80 h1, if_neg hn0, if_neg hn1, if_neg hn2, if_neg hn3, if_neg hn4, if_neg hn5, if_neg hn6, if_neg hn7, if_neg hn8, if_neg hn9, if_neg hn10, if_neg hn11, if_neg hn12, if_neg hn13, if_neg hn14, if_pos hc0, hf0, hf1, hf2]
  rfl

theorem Encoding.vand (d a b : Nat) : Encoding.Statement (.vand d a b) := by
  intro W hw hwf
  have hf := fieldsFit_of_wellFormed _ hwf
  change (Nat.blt d 128 && (Nat.blt a 128 && (Nat.blt b 128 && true))) = true at hf
  simp only [Bool.and_true, Bool.and_eq_true, Nat.blt_eq] at hf
  replace hw : 2717908992 + d * 262144 + a * 2048 + b * 16 = W := Option.some.inj hw
  obtain ⟨h1, hc0, hf0, hf1, hf2⟩ : W / 33554432 = 81 ∧ W / 1 % 16 = 0 ∧ W / 262144 % 128 = d ∧ W / 2048 % 128 = a ∧ W / 16 % 128 = b := by omega
  clear hw
  refine ⟨by omega, by omega, ?_⟩
  rw [matchRow_op81 h1, if_pos hc0, hf0, hf1, hf2]
  rfl

theorem Encoding.vor (d a b : Nat) : Encoding.Statement (.vor d a b) := by
  intro W hw hwf
  have hf := fieldsFit_of_wellFormed _ hwf
  change (Nat.blt d 128 && (Nat.blt a 128 && (Nat.blt b 128 && true))) = true at hf
  simp only [Bool.and_true, Bool.and_eq_true, Nat.blt_eq] at hf
  replace hw : 2717908993 + d * 262144 + a * 2048 + b * 16 = W := Option.some.inj hw
  obtain ⟨h1, hn0, hc0, hf0, hf1, hf2⟩ : W / 33554432 = 81 ∧ ¬(W / 1 % 16 = 0) ∧ W / 1 % 16 = 1 ∧ W / 262144 % 128 = d ∧ W / 2048 % 128 = a ∧ W / 16 % 128 = b := by omega
  clear hw
  refine ⟨by omega, by omega, ?_⟩
  rw [matchRow_op81 h1, if_neg hn0, if_pos hc0, hf0, hf1, hf2]
  rfl

theorem Encoding.vxor (d a b : Nat) : Encoding.Statement (.vxor d a b) := by
  intro W hw hwf
  have hf := fieldsFit_of_wellFormed _ hwf
  change (Nat.blt d 128 && (Nat.blt a 128 && (Nat.blt b 128 && true))) = true at hf
  simp only [Bool.and_true, Bool.and_eq_true, Nat.blt_eq] at hf
  replace hw : 2717908994 + d * 262144 + a * 2048 + b * 16 = W := Option.some.inj hw
  obtain ⟨h1, hn0, hn1, hc0, hf0, hf1, hf2⟩ : W / 33554432 = 81 ∧ ¬(W / 1 % 16 = 0) ∧ ¬(W / 1 % 16 = 1) ∧ W / 1 % 16 = 2 ∧ W / 262144 % 128 = d ∧ W / 2048 % 128 = a ∧ W / 16 % 128 = b := by omega
  clear hw
  refine ⟨by omega, by omega, ?_⟩
  rw [matchRow_op81 h1, if_neg hn0, if_neg hn1, if_pos hc0, hf0, hf1, hf2]
  rfl

theorem Encoding.vandn (d a b : Nat) : Encoding.Statement (.vandn d a b) := by
  intro W hw hwf
  have hf := fieldsFit_of_wellFormed _ hwf
  change (Nat.blt d 128 && (Nat.blt a 128 && (Nat.blt b 128 && true))) = true at hf
  simp only [Bool.and_true, Bool.and_eq_true, Nat.blt_eq] at hf
  replace hw : 2717908995 + d * 262144 + a * 2048 + b * 16 = W := Option.some.inj hw
  obtain ⟨h1, hn0, hn1, hn2, hc0, hf0, hf1, hf2⟩ : W / 33554432 = 81 ∧ ¬(W / 1 % 16 = 0) ∧ ¬(W / 1 % 16 = 1) ∧ ¬(W / 1 % 16 = 2) ∧ W / 1 % 16 = 3 ∧ W / 262144 % 128 = d ∧ W / 2048 % 128 = a ∧ W / 16 % 128 = b := by omega
  clear hw
  refine ⟨by omega, by omega, ?_⟩
  rw [matchRow_op81 h1, if_neg hn0, if_neg hn1, if_neg hn2, if_pos hc0, hf0, hf1, hf2]
  rfl

theorem Encoding.vshl (d a b : Nat) : Encoding.Statement (.vshl d a b) := by
  intro W hw hwf
  have hf := fieldsFit_of_wellFormed _ hwf
  change (Nat.blt d 128 && (Nat.blt a 128 && (Nat.blt b 128 && true))) = true at hf
  simp only [Bool.and_true, Bool.and_eq_true, Nat.blt_eq] at hf
  replace hw : 2717908996 + d * 262144 + a * 2048 + b * 16 = W := Option.some.inj hw
  obtain ⟨h1, hn0, hn1, hn2, hn3, hc0, hf0, hf1, hf2⟩ : W / 33554432 = 81 ∧ ¬(W / 1 % 16 = 0) ∧ ¬(W / 1 % 16 = 1) ∧ ¬(W / 1 % 16 = 2) ∧ ¬(W / 1 % 16 = 3) ∧ W / 1 % 16 = 4 ∧ W / 262144 % 128 = d ∧ W / 2048 % 128 = a ∧ W / 16 % 128 = b := by omega
  clear hw
  refine ⟨by omega, by omega, ?_⟩
  rw [matchRow_op81 h1, if_neg hn0, if_neg hn1, if_neg hn2, if_neg hn3, if_pos hc0, hf0, hf1, hf2]
  rfl

theorem Encoding.vshr (d a b : Nat) : Encoding.Statement (.vshr d a b) := by
  intro W hw hwf
  have hf := fieldsFit_of_wellFormed _ hwf
  change (Nat.blt d 128 && (Nat.blt a 128 && (Nat.blt b 128 && true))) = true at hf
  simp only [Bool.and_true, Bool.and_eq_true, Nat.blt_eq] at hf
  replace hw : 2717908997 + d * 262144 + a * 2048 + b * 16 = W := Option.some.inj hw
  obtain ⟨h1, hn0, hn1, hn2, hn3, hn4, hc0, hf0, hf1, hf2⟩ : W / 33554432 = 81 ∧ ¬(W / 1 % 16 = 0) ∧ ¬(W / 1 % 16 = 1) ∧ ¬(W / 1 % 16 = 2) ∧ ¬(W / 1 % 16 = 3) ∧ ¬(W / 1 % 16 = 4) ∧ W / 1 % 16 = 5 ∧ W / 262144 % 128 = d ∧ W / 2048 % 128 = a ∧ W / 16 % 128 = b := by omega
  clear hw
  refine ⟨by omega, by omega, ?_⟩
  rw [matchRow_op81 h1, if_neg hn0, if_neg hn1, if_neg hn2, if_neg hn3, if_neg hn4, if_pos hc0, hf0, hf1, hf2]
  rfl

theorem Encoding.vsra (d a b : Nat) : Encoding.Statement (.vsra d a b) := by
  intro W hw hwf
  have hf := fieldsFit_of_wellFormed _ hwf
  change (Nat.blt d 128 && (Nat.blt a 128 && (Nat.blt b 128 && true))) = true at hf
  simp only [Bool.and_true, Bool.and_eq_true, Nat.blt_eq] at hf
  replace hw : 2717908998 + d * 262144 + a * 2048 + b * 16 = W := Option.some.inj hw
  obtain ⟨h1, hn0, hn1, hn2, hn3, hn4, hn5, hc0, hf0, hf1, hf2⟩ : W / 33554432 = 81 ∧ ¬(W / 1 % 16 = 0) ∧ ¬(W / 1 % 16 = 1) ∧ ¬(W / 1 % 16 = 2) ∧ ¬(W / 1 % 16 = 3) ∧ ¬(W / 1 % 16 = 4) ∧ ¬(W / 1 % 16 = 5) ∧ W / 1 % 16 = 6 ∧ W / 262144 % 128 = d ∧ W / 2048 % 128 = a ∧ W / 16 % 128 = b := by omega
  clear hw
  refine ⟨by omega, by omega, ?_⟩
  rw [matchRow_op81 h1, if_neg hn0, if_neg hn1, if_neg hn2, if_neg hn3, if_neg hn4, if_neg hn5, if_pos hc0, hf0, hf1, hf2]
  rfl

theorem Encoding.vrotr (d a b : Nat) : Encoding.Statement (.vrotr d a b) := by
  intro W hw hwf
  have hf := fieldsFit_of_wellFormed _ hwf
  change (Nat.blt d 128 && (Nat.blt a 128 && (Nat.blt b 128 && true))) = true at hf
  simp only [Bool.and_true, Bool.and_eq_true, Nat.blt_eq] at hf
  replace hw : 2717908999 + d * 262144 + a * 2048 + b * 16 = W := Option.some.inj hw
  obtain ⟨h1, hn0, hn1, hn2, hn3, hn4, hn5, hn6, hc0, hf0, hf1, hf2⟩ : W / 33554432 = 81 ∧ ¬(W / 1 % 16 = 0) ∧ ¬(W / 1 % 16 = 1) ∧ ¬(W / 1 % 16 = 2) ∧ ¬(W / 1 % 16 = 3) ∧ ¬(W / 1 % 16 = 4) ∧ ¬(W / 1 % 16 = 5) ∧ ¬(W / 1 % 16 = 6) ∧ W / 1 % 16 = 7 ∧ W / 262144 % 128 = d ∧ W / 2048 % 128 = a ∧ W / 16 % 128 = b := by omega
  clear hw
  refine ⟨by omega, by omega, ?_⟩
  rw [matchRow_op81 h1, if_neg hn0, if_neg hn1, if_neg hn2, if_neg hn3, if_neg hn4, if_neg hn5, if_neg hn6, if_pos hc0, hf0, hf1, hf2]
  rfl

theorem Encoding.vaddi (d a i : Nat) : Encoding.Statement (.vaddi d a i) := by
  intro W hw hwf
  have hf := fieldsFit_of_wellFormed _ hwf
  change (Nat.blt d 128 && (Nat.blt a 128 && (Nat.blt i 2048 && true))) = true at hf
  simp only [Bool.and_true, Bool.and_eq_true, Nat.blt_eq] at hf
  replace hw : 2751463424 + d * 262144 + a * 2048 + i = W := Option.some.inj hw
  obtain ⟨h1, hf0, hf1, hf2⟩ : W / 33554432 = 82 ∧ W / 262144 % 128 = d ∧ W / 2048 % 128 = a ∧ W / 1 % 2048 = i := by omega
  clear hw
  refine ⟨by omega, by omega, ?_⟩
  rw [matchRow_op82 h1, hf0, hf1, hf2]
  rfl

theorem Encoding.vmuli (d a i : Nat) : Encoding.Statement (.vmuli d a i) := by
  intro W hw hwf
  have hf := fieldsFit_of_wellFormed _ hwf
  change (Nat.blt d 128 && (Nat.blt a 128 && (Nat.blt i 2048 && true))) = true at hf
  simp only [Bool.and_true, Bool.and_eq_true, Nat.blt_eq] at hf
  replace hw : 2785017856 + d * 262144 + a * 2048 + i = W := Option.some.inj hw
  obtain ⟨h1, hf0, hf1, hf2⟩ : W / 33554432 = 83 ∧ W / 262144 % 128 = d ∧ W / 2048 % 128 = a ∧ W / 1 % 2048 = i := by omega
  clear hw
  refine ⟨by omega, by omega, ?_⟩
  rw [matchRow_op83 h1, hf0, hf1, hf2]
  rfl

theorem Encoding.vandi (d a i : Nat) : Encoding.Statement (.vandi d a i) := by
  intro W hw hwf
  have hf := fieldsFit_of_wellFormed _ hwf
  change (Nat.blt d 128 && (Nat.blt a 128 && (Nat.blt i 2048 && true))) = true at hf
  simp only [Bool.and_true, Bool.and_eq_true, Nat.blt_eq] at hf
  replace hw : 2818572288 + d * 262144 + a * 2048 + i = W := Option.some.inj hw
  obtain ⟨h1, hf0, hf1, hf2⟩ : W / 33554432 = 84 ∧ W / 262144 % 128 = d ∧ W / 2048 % 128 = a ∧ W / 1 % 2048 = i := by omega
  clear hw
  refine ⟨by omega, by omega, ?_⟩
  rw [matchRow_op84 h1, hf0, hf1, hf2]
  rfl

theorem Encoding.vori (d a i : Nat) : Encoding.Statement (.vori d a i) := by
  intro W hw hwf
  have hf := fieldsFit_of_wellFormed _ hwf
  change (Nat.blt d 128 && (Nat.blt a 128 && (Nat.blt i 2048 && true))) = true at hf
  simp only [Bool.and_true, Bool.and_eq_true, Nat.blt_eq] at hf
  replace hw : 2852126720 + d * 262144 + a * 2048 + i = W := Option.some.inj hw
  obtain ⟨h1, hf0, hf1, hf2⟩ : W / 33554432 = 85 ∧ W / 262144 % 128 = d ∧ W / 2048 % 128 = a ∧ W / 1 % 2048 = i := by omega
  clear hw
  refine ⟨by omega, by omega, ?_⟩
  rw [matchRow_op85 h1, hf0, hf1, hf2]
  rfl

theorem Encoding.vshli (d a n : Nat) : Encoding.Statement (.vshli d a n) := by
  intro W hw hwf
  have hf := fieldsFit_of_wellFormed _ hwf
  change (Nat.blt d 128 && (Nat.blt a 128 && (Nat.blt n 64 && true))) = true at hf
  simp only [Bool.and_true, Bool.and_eq_true, Nat.blt_eq] at hf
  replace hw : 2885681152 + d * 262144 + a * 2048 + n = W := Option.some.inj hw
  obtain ⟨h1, hc0, hf0, hf1, hf2⟩ : W / 33554432 = 86 ∧ W / 64 % 32 = 0 ∧ W / 262144 % 128 = d ∧ W / 2048 % 128 = a ∧ W / 1 % 64 = n := by omega
  clear hw
  refine ⟨by omega, by omega, ?_⟩
  rw [matchRow_op86 h1, if_pos hc0, hf0, hf1, hf2]
  rfl

theorem Encoding.vshri (d a n : Nat) : Encoding.Statement (.vshri d a n) := by
  intro W hw hwf
  have hf := fieldsFit_of_wellFormed _ hwf
  change (Nat.blt d 128 && (Nat.blt a 128 && (Nat.blt n 64 && true))) = true at hf
  simp only [Bool.and_true, Bool.and_eq_true, Nat.blt_eq] at hf
  replace hw : 2885681216 + d * 262144 + a * 2048 + n = W := Option.some.inj hw
  obtain ⟨h1, hn0, hc0, hf0, hf1, hf2⟩ : W / 33554432 = 86 ∧ ¬(W / 64 % 32 = 0) ∧ W / 64 % 32 = 1 ∧ W / 262144 % 128 = d ∧ W / 2048 % 128 = a ∧ W / 1 % 64 = n := by omega
  clear hw
  refine ⟨by omega, by omega, ?_⟩
  rw [matchRow_op86 h1, if_neg hn0, if_pos hc0, hf0, hf1, hf2]
  rfl

theorem Encoding.vsrai (d a n : Nat) : Encoding.Statement (.vsrai d a n) := by
  intro W hw hwf
  have hf := fieldsFit_of_wellFormed _ hwf
  change (Nat.blt d 128 && (Nat.blt a 128 && (Nat.blt n 64 && true))) = true at hf
  simp only [Bool.and_true, Bool.and_eq_true, Nat.blt_eq] at hf
  replace hw : 2885681280 + d * 262144 + a * 2048 + n = W := Option.some.inj hw
  obtain ⟨h1, hn0, hn1, hc0, hf0, hf1, hf2⟩ : W / 33554432 = 86 ∧ ¬(W / 64 % 32 = 0) ∧ ¬(W / 64 % 32 = 1) ∧ W / 64 % 32 = 2 ∧ W / 262144 % 128 = d ∧ W / 2048 % 128 = a ∧ W / 1 % 64 = n := by omega
  clear hw
  refine ⟨by omega, by omega, ?_⟩
  rw [matchRow_op86 h1, if_neg hn0, if_neg hn1, if_pos hc0, hf0, hf1, hf2]
  rfl

theorem Encoding.vrotri (d a n : Nat) : Encoding.Statement (.vrotri d a n) := by
  intro W hw hwf
  have hf := fieldsFit_of_wellFormed _ hwf
  change (Nat.blt d 128 && (Nat.blt a 128 && (Nat.blt n 64 && true))) = true at hf
  simp only [Bool.and_true, Bool.and_eq_true, Nat.blt_eq] at hf
  replace hw : 2885681344 + d * 262144 + a * 2048 + n = W := Option.some.inj hw
  obtain ⟨h1, hn0, hn1, hn2, hc0, hf0, hf1, hf2⟩ : W / 33554432 = 86 ∧ ¬(W / 64 % 32 = 0) ∧ ¬(W / 64 % 32 = 1) ∧ ¬(W / 64 % 32 = 2) ∧ W / 64 % 32 = 3 ∧ W / 262144 % 128 = d ∧ W / 2048 % 128 = a ∧ W / 1 % 64 = n := by omega
  clear hw
  refine ⟨by omega, by omega, ?_⟩
  rw [matchRow_op86 h1, if_neg hn0, if_neg hn1, if_neg hn2, if_pos hc0, hf0, hf1, hf2]
  rfl

theorem Encoding.vmovi (d i : Nat) : Encoding.Statement (.vmovi d i) := by
  intro W hw hwf
  have hf := fieldsFit_of_wellFormed _ hwf
  change (Nat.blt d 128 && (Nat.blt i 2048 && true)) = true at hf
  simp only [Bool.and_true, Bool.and_eq_true, Nat.blt_eq] at hf
  replace hw : 2919235584 + d * 262144 + i = W := Option.some.inj hw
  obtain ⟨h1, hc0, hf0, hf1⟩ : W / 33554432 = 87 ∧ W / 2048 % 128 = 0 ∧ W / 262144 % 128 = d ∧ W / 1 % 2048 = i := by omega
  clear hw
  refine ⟨by omega, by omega, ?_⟩
  rw [matchRow_op87 h1, if_pos hc0, hf0, hf1]
  rfl

theorem Encoding.vmov (d a : Nat) : Encoding.Statement (.vmov d a) := by
  intro W hw hwf
  have hf := fieldsFit_of_wellFormed _ hwf
  change (Nat.blt d 128 && (Nat.blt a 128 && true)) = true at hf
  simp only [Bool.and_true, Bool.and_eq_true, Nat.blt_eq] at hf
  replace hw : 2952790016 + d * 262144 + a * 2048 = W := Option.some.inj hw
  obtain ⟨h1, hc0, hf0, hf1⟩ : W / 33554432 = 88 ∧ W / 1 % 2048 = 0 ∧ W / 262144 % 128 = d ∧ W / 2048 % 128 = a := by omega
  clear hw
  refine ⟨by omega, by omega, ?_⟩
  rw [matchRow_op88 h1, if_pos hc0, hf0, hf1]
  rfl

theorem Encoding.vneg (d a : Nat) : Encoding.Statement (.vneg d a) := by
  intro W hw hwf
  have hf := fieldsFit_of_wellFormed _ hwf
  change (Nat.blt d 128 && (Nat.blt a 128 && true)) = true at hf
  simp only [Bool.and_true, Bool.and_eq_true, Nat.blt_eq] at hf
  replace hw : 2952790017 + d * 262144 + a * 2048 = W := Option.some.inj hw
  obtain ⟨h1, hn0, hc0, hf0, hf1⟩ : W / 33554432 = 88 ∧ ¬(W / 1 % 2048 = 0) ∧ W / 1 % 2048 = 1 ∧ W / 262144 % 128 = d ∧ W / 2048 % 128 = a := by omega
  clear hw
  refine ⟨by omega, by omega, ?_⟩
  rw [matchRow_op88 h1, if_neg hn0, if_pos hc0, hf0, hf1]
  rfl

theorem Encoding.vabs (d a : Nat) : Encoding.Statement (.vabs d a) := by
  intro W hw hwf
  have hf := fieldsFit_of_wellFormed _ hwf
  change (Nat.blt d 128 && (Nat.blt a 128 && true)) = true at hf
  simp only [Bool.and_true, Bool.and_eq_true, Nat.blt_eq] at hf
  replace hw : 2952790018 + d * 262144 + a * 2048 = W := Option.some.inj hw
  obtain ⟨h1, hn0, hn1, hc0, hf0, hf1⟩ : W / 33554432 = 88 ∧ ¬(W / 1 % 2048 = 0) ∧ ¬(W / 1 % 2048 = 1) ∧ W / 1 % 2048 = 2 ∧ W / 262144 % 128 = d ∧ W / 2048 % 128 = a := by omega
  clear hw
  refine ⟨by omega, by omega, ?_⟩
  rw [matchRow_op88 h1, if_neg hn0, if_neg hn1, if_pos hc0, hf0, hf1]
  rfl

theorem Encoding.vnot (d a : Nat) : Encoding.Statement (.vnot d a) := by
  intro W hw hwf
  have hf := fieldsFit_of_wellFormed _ hwf
  change (Nat.blt d 128 && (Nat.blt a 128 && true)) = true at hf
  simp only [Bool.and_true, Bool.and_eq_true, Nat.blt_eq] at hf
  replace hw : 2952790019 + d * 262144 + a * 2048 = W := Option.some.inj hw
  obtain ⟨h1, hn0, hn1, hn2, hc0, hf0, hf1⟩ : W / 33554432 = 88 ∧ ¬(W / 1 % 2048 = 0) ∧ ¬(W / 1 % 2048 = 1) ∧ ¬(W / 1 % 2048 = 2) ∧ W / 1 % 2048 = 3 ∧ W / 262144 % 128 = d ∧ W / 2048 % 128 = a := by omega
  clear hw
  refine ⟨by omega, by omega, ?_⟩
  rw [matchRow_op88 h1, if_neg hn0, if_neg hn1, if_neg hn2, if_pos hc0, hf0, hf1]
  rfl

theorem Encoding.vpopc (d a : Nat) : Encoding.Statement (.vpopc d a) := by
  intro W hw hwf
  have hf := fieldsFit_of_wellFormed _ hwf
  change (Nat.blt d 128 && (Nat.blt a 128 && true)) = true at hf
  simp only [Bool.and_true, Bool.and_eq_true, Nat.blt_eq] at hf
  replace hw : 2952790020 + d * 262144 + a * 2048 = W := Option.some.inj hw
  obtain ⟨h1, hn0, hn1, hn2, hn3, hc0, hf0, hf1⟩ : W / 33554432 = 88 ∧ ¬(W / 1 % 2048 = 0) ∧ ¬(W / 1 % 2048 = 1) ∧ ¬(W / 1 % 2048 = 2) ∧ ¬(W / 1 % 2048 = 3) ∧ W / 1 % 2048 = 4 ∧ W / 262144 % 128 = d ∧ W / 2048 % 128 = a := by omega
  clear hw
  refine ⟨by omega, by omega, ?_⟩
  rw [matchRow_op88 h1, if_neg hn0, if_neg hn1, if_neg hn2, if_neg hn3, if_pos hc0, hf0, hf1]
  rfl

theorem Encoding.vclz (d a : Nat) : Encoding.Statement (.vclz d a) := by
  intro W hw hwf
  have hf := fieldsFit_of_wellFormed _ hwf
  change (Nat.blt d 128 && (Nat.blt a 128 && true)) = true at hf
  simp only [Bool.and_true, Bool.and_eq_true, Nat.blt_eq] at hf
  replace hw : 2952790021 + d * 262144 + a * 2048 = W := Option.some.inj hw
  obtain ⟨h1, hn0, hn1, hn2, hn3, hn4, hc0, hf0, hf1⟩ : W / 33554432 = 88 ∧ ¬(W / 1 % 2048 = 0) ∧ ¬(W / 1 % 2048 = 1) ∧ ¬(W / 1 % 2048 = 2) ∧ ¬(W / 1 % 2048 = 3) ∧ ¬(W / 1 % 2048 = 4) ∧ W / 1 % 2048 = 5 ∧ W / 262144 % 128 = d ∧ W / 2048 % 128 = a := by omega
  clear hw
  refine ⟨by omega, by omega, ?_⟩
  rw [matchRow_op88 h1, if_neg hn0, if_neg hn1, if_neg hn2, if_neg hn3, if_neg hn4, if_pos hc0, hf0, hf1]
  rfl

theorem Encoding.vsext8 (d a : Nat) : Encoding.Statement (.vsext8 d a) := by
  intro W hw hwf
  have hf := fieldsFit_of_wellFormed _ hwf
  change (Nat.blt d 128 && (Nat.blt a 128 && true)) = true at hf
  simp only [Bool.and_true, Bool.and_eq_true, Nat.blt_eq] at hf
  replace hw : 2952790022 + d * 262144 + a * 2048 = W := Option.some.inj hw
  obtain ⟨h1, hn0, hn1, hn2, hn3, hn4, hn5, hc0, hf0, hf1⟩ : W / 33554432 = 88 ∧ ¬(W / 1 % 2048 = 0) ∧ ¬(W / 1 % 2048 = 1) ∧ ¬(W / 1 % 2048 = 2) ∧ ¬(W / 1 % 2048 = 3) ∧ ¬(W / 1 % 2048 = 4) ∧ ¬(W / 1 % 2048 = 5) ∧ W / 1 % 2048 = 6 ∧ W / 262144 % 128 = d ∧ W / 2048 % 128 = a := by omega
  clear hw
  refine ⟨by omega, by omega, ?_⟩
  rw [matchRow_op88 h1, if_neg hn0, if_neg hn1, if_neg hn2, if_neg hn3, if_neg hn4, if_neg hn5, if_pos hc0, hf0, hf1]
  rfl

theorem Encoding.vsext16 (d a : Nat) : Encoding.Statement (.vsext16 d a) := by
  intro W hw hwf
  have hf := fieldsFit_of_wellFormed _ hwf
  change (Nat.blt d 128 && (Nat.blt a 128 && true)) = true at hf
  simp only [Bool.and_true, Bool.and_eq_true, Nat.blt_eq] at hf
  replace hw : 2952790023 + d * 262144 + a * 2048 = W := Option.some.inj hw
  obtain ⟨h1, hn0, hn1, hn2, hn3, hn4, hn5, hn6, hc0, hf0, hf1⟩ : W / 33554432 = 88 ∧ ¬(W / 1 % 2048 = 0) ∧ ¬(W / 1 % 2048 = 1) ∧ ¬(W / 1 % 2048 = 2) ∧ ¬(W / 1 % 2048 = 3) ∧ ¬(W / 1 % 2048 = 4) ∧ ¬(W / 1 % 2048 = 5) ∧ ¬(W / 1 % 2048 = 6) ∧ W / 1 % 2048 = 7 ∧ W / 262144 % 128 = d ∧ W / 2048 % 128 = a := by omega
  clear hw
  refine ⟨by omega, by omega, ?_⟩
  rw [matchRow_op88 h1, if_neg hn0, if_neg hn1, if_neg hn2, if_neg hn3, if_neg hn4, if_neg hn5, if_neg hn6, if_pos hc0, hf0, hf1]
  rfl

theorem Encoding.vrcp (d a : Nat) : Encoding.Statement (.vrcp d a) := by
  intro W hw hwf
  have hf := fieldsFit_of_wellFormed _ hwf
  change (Nat.blt d 128 && (Nat.blt a 128 && true)) = true at hf
  simp only [Bool.and_true, Bool.and_eq_true, Nat.blt_eq] at hf
  replace hw : 2952790024 + d * 262144 + a * 2048 = W := Option.some.inj hw
  obtain ⟨h1, hn0, hn1, hn2, hn3, hn4, hn5, hn6, hn7, hc0, hf0, hf1⟩ : W / 33554432 = 88 ∧ ¬(W / 1 % 2048 = 0) ∧ ¬(W / 1 % 2048 = 1) ∧ ¬(W / 1 % 2048 = 2) ∧ ¬(W / 1 % 2048 = 3) ∧ ¬(W / 1 % 2048 = 4) ∧ ¬(W / 1 % 2048 = 5) ∧ ¬(W / 1 % 2048 = 6) ∧ ¬(W / 1 % 2048 = 7) ∧ W / 1 % 2048 = 8 ∧ W / 262144 % 128 = d ∧ W / 2048 % 128 = a := by omega
  clear hw
  refine ⟨by omega, by omega, ?_⟩
  rw [matchRow_op88 h1, if_neg hn0, if_neg hn1, if_neg hn2, if_neg hn3, if_neg hn4, if_neg hn5, if_neg hn6, if_neg hn7, if_pos hc0, hf0, hf1]
  rfl

theorem Encoding.vrsq (d a : Nat) : Encoding.Statement (.vrsq d a) := by
  intro W hw hwf
  have hf := fieldsFit_of_wellFormed _ hwf
  change (Nat.blt d 128 && (Nat.blt a 128 && true)) = true at hf
  simp only [Bool.and_true, Bool.and_eq_true, Nat.blt_eq] at hf
  replace hw : 2952790025 + d * 262144 + a * 2048 = W := Option.some.inj hw
  obtain ⟨h1, hn0, hn1, hn2, hn3, hn4, hn5, hn6, hn7, hn8, hc0, hf0, hf1⟩ : W / 33554432 = 88 ∧ ¬(W / 1 % 2048 = 0) ∧ ¬(W / 1 % 2048 = 1) ∧ ¬(W / 1 % 2048 = 2) ∧ ¬(W / 1 % 2048 = 3) ∧ ¬(W / 1 % 2048 = 4) ∧ ¬(W / 1 % 2048 = 5) ∧ ¬(W / 1 % 2048 = 6) ∧ ¬(W / 1 % 2048 = 7) ∧ ¬(W / 1 % 2048 = 8) ∧ W / 1 % 2048 = 9 ∧ W / 262144 % 128 = d ∧ W / 2048 % 128 = a := by omega
  clear hw
  refine ⟨by omega, by omega, ?_⟩
  rw [matchRow_op88 h1, if_neg hn0, if_neg hn1, if_neg hn2, if_neg hn3, if_neg hn4, if_neg hn5, if_neg hn6, if_neg hn7, if_neg hn8, if_pos hc0, hf0, hf1]
  rfl

theorem Encoding.vsqrt (d a : Nat) : Encoding.Statement (.vsqrt d a) := by
  intro W hw hwf
  have hf := fieldsFit_of_wellFormed _ hwf
  change (Nat.blt d 128 && (Nat.blt a 128 && true)) = true at hf
  simp only [Bool.and_true, Bool.and_eq_true, Nat.blt_eq] at hf
  replace hw : 2952790026 + d * 262144 + a * 2048 = W := Option.some.inj hw
  obtain ⟨h1, hn0, hn1, hn2, hn3, hn4, hn5, hn6, hn7, hn8, hn9, hc0, hf0, hf1⟩ : W / 33554432 = 88 ∧ ¬(W / 1 % 2048 = 0) ∧ ¬(W / 1 % 2048 = 1) ∧ ¬(W / 1 % 2048 = 2) ∧ ¬(W / 1 % 2048 = 3) ∧ ¬(W / 1 % 2048 = 4) ∧ ¬(W / 1 % 2048 = 5) ∧ ¬(W / 1 % 2048 = 6) ∧ ¬(W / 1 % 2048 = 7) ∧ ¬(W / 1 % 2048 = 8) ∧ ¬(W / 1 % 2048 = 9) ∧ W / 1 % 2048 = 10 ∧ W / 262144 % 128 = d ∧ W / 2048 % 128 = a := by omega
  clear hw
  refine ⟨by omega, by omega, ?_⟩
  rw [matchRow_op88 h1, if_neg hn0, if_neg hn1, if_neg hn2, if_neg hn3, if_neg hn4, if_neg hn5, if_neg hn6, if_neg hn7, if_neg hn8, if_neg hn9, if_pos hc0, hf0, hf1]
  rfl

theorem Encoding.vexp2 (d a : Nat) : Encoding.Statement (.vexp2 d a) := by
  intro W hw hwf
  have hf := fieldsFit_of_wellFormed _ hwf
  change (Nat.blt d 128 && (Nat.blt a 128 && true)) = true at hf
  simp only [Bool.and_true, Bool.and_eq_true, Nat.blt_eq] at hf
  replace hw : 2952790027 + d * 262144 + a * 2048 = W := Option.some.inj hw
  obtain ⟨h1, hn0, hn1, hn2, hn3, hn4, hn5, hn6, hn7, hn8, hn9, hn10, hc0, hf0, hf1⟩ : W / 33554432 = 88 ∧ ¬(W / 1 % 2048 = 0) ∧ ¬(W / 1 % 2048 = 1) ∧ ¬(W / 1 % 2048 = 2) ∧ ¬(W / 1 % 2048 = 3) ∧ ¬(W / 1 % 2048 = 4) ∧ ¬(W / 1 % 2048 = 5) ∧ ¬(W / 1 % 2048 = 6) ∧ ¬(W / 1 % 2048 = 7) ∧ ¬(W / 1 % 2048 = 8) ∧ ¬(W / 1 % 2048 = 9) ∧ ¬(W / 1 % 2048 = 10) ∧ W / 1 % 2048 = 11 ∧ W / 262144 % 128 = d ∧ W / 2048 % 128 = a := by omega
  clear hw
  refine ⟨by omega, by omega, ?_⟩
  rw [matchRow_op88 h1, if_neg hn0, if_neg hn1, if_neg hn2, if_neg hn3, if_neg hn4, if_neg hn5, if_neg hn6, if_neg hn7, if_neg hn8, if_neg hn9, if_neg hn10, if_pos hc0, hf0, hf1]
  rfl

theorem Encoding.vlog2 (d a : Nat) : Encoding.Statement (.vlog2 d a) := by
  intro W hw hwf
  have hf := fieldsFit_of_wellFormed _ hwf
  change (Nat.blt d 128 && (Nat.blt a 128 && true)) = true at hf
  simp only [Bool.and_true, Bool.and_eq_true, Nat.blt_eq] at hf
  replace hw : 2952790028 + d * 262144 + a * 2048 = W := Option.some.inj hw
  obtain ⟨h1, hn0, hn1, hn2, hn3, hn4, hn5, hn6, hn7, hn8, hn9, hn10, hn11, hc0, hf0, hf1⟩ : W / 33554432 = 88 ∧ ¬(W / 1 % 2048 = 0) ∧ ¬(W / 1 % 2048 = 1) ∧ ¬(W / 1 % 2048 = 2) ∧ ¬(W / 1 % 2048 = 3) ∧ ¬(W / 1 % 2048 = 4) ∧ ¬(W / 1 % 2048 = 5) ∧ ¬(W / 1 % 2048 = 6) ∧ ¬(W / 1 % 2048 = 7) ∧ ¬(W / 1 % 2048 = 8) ∧ ¬(W / 1 % 2048 = 9) ∧ ¬(W / 1 % 2048 = 10) ∧ ¬(W / 1 % 2048 = 11) ∧ W / 1 % 2048 = 12 ∧ W / 262144 % 128 = d ∧ W / 2048 % 128 = a := by omega
  clear hw
  refine ⟨by omega, by omega, ?_⟩
  rw [matchRow_op88 h1, if_neg hn0, if_neg hn1, if_neg hn2, if_neg hn3, if_neg hn4, if_neg hn5, if_neg hn6, if_neg hn7, if_neg hn8, if_neg hn9, if_neg hn10, if_neg hn11, if_pos hc0, hf0, hf1]
  rfl

theorem Encoding.vsin (d a : Nat) : Encoding.Statement (.vsin d a) := by
  intro W hw hwf
  have hf := fieldsFit_of_wellFormed _ hwf
  change (Nat.blt d 128 && (Nat.blt a 128 && true)) = true at hf
  simp only [Bool.and_true, Bool.and_eq_true, Nat.blt_eq] at hf
  replace hw : 2952790029 + d * 262144 + a * 2048 = W := Option.some.inj hw
  obtain ⟨h1, hn0, hn1, hn2, hn3, hn4, hn5, hn6, hn7, hn8, hn9, hn10, hn11, hn12, hc0, hf0, hf1⟩ : W / 33554432 = 88 ∧ ¬(W / 1 % 2048 = 0) ∧ ¬(W / 1 % 2048 = 1) ∧ ¬(W / 1 % 2048 = 2) ∧ ¬(W / 1 % 2048 = 3) ∧ ¬(W / 1 % 2048 = 4) ∧ ¬(W / 1 % 2048 = 5) ∧ ¬(W / 1 % 2048 = 6) ∧ ¬(W / 1 % 2048 = 7) ∧ ¬(W / 1 % 2048 = 8) ∧ ¬(W / 1 % 2048 = 9) ∧ ¬(W / 1 % 2048 = 10) ∧ ¬(W / 1 % 2048 = 11) ∧ ¬(W / 1 % 2048 = 12) ∧ W / 1 % 2048 = 13 ∧ W / 262144 % 128 = d ∧ W / 2048 % 128 = a := by omega
  clear hw
  refine ⟨by omega, by omega, ?_⟩
  rw [matchRow_op88 h1, if_neg hn0, if_neg hn1, if_neg hn2, if_neg hn3, if_neg hn4, if_neg hn5, if_neg hn6, if_neg hn7, if_neg hn8, if_neg hn9, if_neg hn10, if_neg hn11, if_neg hn12, if_pos hc0, hf0, hf1]
  rfl

theorem Encoding.vcos (d a : Nat) : Encoding.Statement (.vcos d a) := by
  intro W hw hwf
  have hf := fieldsFit_of_wellFormed _ hwf
  change (Nat.blt d 128 && (Nat.blt a 128 && true)) = true at hf
  simp only [Bool.and_true, Bool.and_eq_true, Nat.blt_eq] at hf
  replace hw : 2952790030 + d * 262144 + a * 2048 = W := Option.some.inj hw
  obtain ⟨h1, hn0, hn1, hn2, hn3, hn4, hn5, hn6, hn7, hn8, hn9, hn10, hn11, hn12, hn13, hc0, hf0, hf1⟩ : W / 33554432 = 88 ∧ ¬(W / 1 % 2048 = 0) ∧ ¬(W / 1 % 2048 = 1) ∧ ¬(W / 1 % 2048 = 2) ∧ ¬(W / 1 % 2048 = 3) ∧ ¬(W / 1 % 2048 = 4) ∧ ¬(W / 1 % 2048 = 5) ∧ ¬(W / 1 % 2048 = 6) ∧ ¬(W / 1 % 2048 = 7) ∧ ¬(W / 1 % 2048 = 8) ∧ ¬(W / 1 % 2048 = 9) ∧ ¬(W / 1 % 2048 = 10) ∧ ¬(W / 1 % 2048 = 11) ∧ ¬(W / 1 % 2048 = 12) ∧ ¬(W / 1 % 2048 = 13) ∧ W / 1 % 2048 = 14 ∧ W / 262144 % 128 = d ∧ W / 2048 % 128 = a := by omega
  clear hw
  refine ⟨by omega, by omega, ?_⟩
  rw [matchRow_op88 h1, if_neg hn0, if_neg hn1, if_neg hn2, if_neg hn3, if_neg hn4, if_neg hn5, if_neg hn6, if_neg hn7, if_neg hn8, if_neg hn9, if_neg hn10, if_neg hn11, if_neg hn12, if_neg hn13, if_pos hc0, hf0, hf1]
  rfl

theorem Encoding.vtanh (d a : Nat) : Encoding.Statement (.vtanh d a) := by
  intro W hw hwf
  have hf := fieldsFit_of_wellFormed _ hwf
  change (Nat.blt d 128 && (Nat.blt a 128 && true)) = true at hf
  simp only [Bool.and_true, Bool.and_eq_true, Nat.blt_eq] at hf
  replace hw : 2952790031 + d * 262144 + a * 2048 = W := Option.some.inj hw
  obtain ⟨h1, hn0, hn1, hn2, hn3, hn4, hn5, hn6, hn7, hn8, hn9, hn10, hn11, hn12, hn13, hn14, hc0, hf0, hf1⟩ : W / 33554432 = 88 ∧ ¬(W / 1 % 2048 = 0) ∧ ¬(W / 1 % 2048 = 1) ∧ ¬(W / 1 % 2048 = 2) ∧ ¬(W / 1 % 2048 = 3) ∧ ¬(W / 1 % 2048 = 4) ∧ ¬(W / 1 % 2048 = 5) ∧ ¬(W / 1 % 2048 = 6) ∧ ¬(W / 1 % 2048 = 7) ∧ ¬(W / 1 % 2048 = 8) ∧ ¬(W / 1 % 2048 = 9) ∧ ¬(W / 1 % 2048 = 10) ∧ ¬(W / 1 % 2048 = 11) ∧ ¬(W / 1 % 2048 = 12) ∧ ¬(W / 1 % 2048 = 13) ∧ ¬(W / 1 % 2048 = 14) ∧ W / 1 % 2048 = 15 ∧ W / 262144 % 128 = d ∧ W / 2048 % 128 = a := by omega
  clear hw
  refine ⟨by omega, by omega, ?_⟩
  rw [matchRow_op88 h1, if_neg hn0, if_neg hn1, if_neg hn2, if_neg hn3, if_neg hn4, if_neg hn5, if_neg hn6, if_neg hn7, if_neg hn8, if_neg hn9, if_neg hn10, if_neg hn11, if_neg hn12, if_neg hn13, if_neg hn14, if_pos hc0, hf0, hf1]
  rfl

theorem Encoding.vcvt (d a t : Nat) : Encoding.Statement (.vcvt d a t) := by
  intro W hw hwf
  have hf := fieldsFit_of_wellFormed _ hwf
  change (Nat.blt d 128 && (Nat.blt a 128 && (Nat.blt t 16 && true))) = true at hf
  simp only [Bool.and_true, Bool.and_eq_true, Nat.blt_eq] at hf
  replace hw : 2986344448 + d * 262144 + a * 2048 + t * 16 = W := Option.some.inj hw
  obtain ⟨h1, hc0, hf0, hf1, hf2⟩ : W / 33554432 = 89 ∧ (W / 1 % 16 = 0 ∧ W / 256 % 8 = 0) ∧ W / 262144 % 128 = d ∧ W / 2048 % 128 = a ∧ W / 16 % 16 = t := by omega
  clear hw
  refine ⟨by omega, by omega, ?_⟩
  rw [matchRow_op89 h1, if_pos hc0, hf0, hf1, hf2]
  rfl

theorem Encoding.vadds (d a s : Nat) : Encoding.Statement (.vadds d a s) := by
  intro W hw hwf
  have hf := fieldsFit_of_wellFormed _ hwf
  change (Nat.blt d 128 && (Nat.blt a 128 && (Nat.blt s 256 && true))) = true at hf
  simp only [Bool.and_true, Bool.and_eq_true, Nat.blt_eq] at hf
  replace hw : 3019898880 + d * 262144 + a * 2048 + s * 8 = W := Option.some.inj hw
  obtain ⟨h1, hn0, hc0, hf0, hf1, hf2⟩ : W / 33554432 = 90 ∧ (¬(W / 1 % 8 = 5 ∧ W / 2048 % 128 = 0)) ∧ W / 1 % 8 = 0 ∧ W / 262144 % 128 = d ∧ W / 2048 % 128 = a ∧ W / 8 % 256 = s := by omega
  clear hw
  refine ⟨by omega, by omega, ?_⟩
  rw [matchRow_op90 h1, if_neg hn0, if_pos hc0, hf0, hf1, hf2]
  rfl

theorem Encoding.vmuls (d a s : Nat) : Encoding.Statement (.vmuls d a s) := by
  intro W hw hwf
  have hf := fieldsFit_of_wellFormed _ hwf
  change (Nat.blt d 128 && (Nat.blt a 128 && (Nat.blt s 256 && true))) = true at hf
  simp only [Bool.and_true, Bool.and_eq_true, Nat.blt_eq] at hf
  replace hw : 3019898881 + d * 262144 + a * 2048 + s * 8 = W := Option.some.inj hw
  obtain ⟨h1, hn0, hn1, hc0, hf0, hf1, hf2⟩ : W / 33554432 = 90 ∧ (¬(W / 1 % 8 = 5 ∧ W / 2048 % 128 = 0)) ∧ ¬(W / 1 % 8 = 0) ∧ W / 1 % 8 = 1 ∧ W / 262144 % 128 = d ∧ W / 2048 % 128 = a ∧ W / 8 % 256 = s := by omega
  clear hw
  refine ⟨by omega, by omega, ?_⟩
  rw [matchRow_op90 h1, if_neg hn0, if_neg hn1, if_pos hc0, hf0, hf1, hf2]
  rfl

theorem Encoding.vfmas (d a s : Nat) : Encoding.Statement (.vfmas d a s) := by
  intro W hw hwf
  have hf := fieldsFit_of_wellFormed _ hwf
  change (Nat.blt d 128 && (Nat.blt a 128 && (Nat.blt s 256 && true))) = true at hf
  simp only [Bool.and_true, Bool.and_eq_true, Nat.blt_eq] at hf
  replace hw : 3019898882 + d * 262144 + a * 2048 + s * 8 = W := Option.some.inj hw
  obtain ⟨h1, hn0, hn1, hn2, hc0, hf0, hf1, hf2⟩ : W / 33554432 = 90 ∧ (¬(W / 1 % 8 = 5 ∧ W / 2048 % 128 = 0)) ∧ ¬(W / 1 % 8 = 0) ∧ ¬(W / 1 % 8 = 1) ∧ W / 1 % 8 = 2 ∧ W / 262144 % 128 = d ∧ W / 2048 % 128 = a ∧ W / 8 % 256 = s := by omega
  clear hw
  refine ⟨by omega, by omega, ?_⟩
  rw [matchRow_op90 h1, if_neg hn0, if_neg hn1, if_neg hn2, if_pos hc0, hf0, hf1, hf2]
  rfl

theorem Encoding.vmins (d a s : Nat) : Encoding.Statement (.vmins d a s) := by
  intro W hw hwf
  have hf := fieldsFit_of_wellFormed _ hwf
  change (Nat.blt d 128 && (Nat.blt a 128 && (Nat.blt s 256 && true))) = true at hf
  simp only [Bool.and_true, Bool.and_eq_true, Nat.blt_eq] at hf
  replace hw : 3019898883 + d * 262144 + a * 2048 + s * 8 = W := Option.some.inj hw
  obtain ⟨h1, hn0, hn1, hn2, hn3, hc0, hf0, hf1, hf2⟩ : W / 33554432 = 90 ∧ (¬(W / 1 % 8 = 5 ∧ W / 2048 % 128 = 0)) ∧ ¬(W / 1 % 8 = 0) ∧ ¬(W / 1 % 8 = 1) ∧ ¬(W / 1 % 8 = 2) ∧ W / 1 % 8 = 3 ∧ W / 262144 % 128 = d ∧ W / 2048 % 128 = a ∧ W / 8 % 256 = s := by omega
  clear hw
  refine ⟨by omega, by omega, ?_⟩
  rw [matchRow_op90 h1, if_neg hn0, if_neg hn1, if_neg hn2, if_neg hn3, if_pos hc0, hf0, hf1, hf2]
  rfl

theorem Encoding.vmaxs (d a s : Nat) : Encoding.Statement (.vmaxs d a s) := by
  intro W hw hwf
  have hf := fieldsFit_of_wellFormed _ hwf
  change (Nat.blt d 128 && (Nat.blt a 128 && (Nat.blt s 256 && true))) = true at hf
  simp only [Bool.and_true, Bool.and_eq_true, Nat.blt_eq] at hf
  replace hw : 3019898884 + d * 262144 + a * 2048 + s * 8 = W := Option.some.inj hw
  obtain ⟨h1, hn0, hn1, hn2, hn3, hn4, hc0, hf0, hf1, hf2⟩ : W / 33554432 = 90 ∧ (¬(W / 1 % 8 = 5 ∧ W / 2048 % 128 = 0)) ∧ ¬(W / 1 % 8 = 0) ∧ ¬(W / 1 % 8 = 1) ∧ ¬(W / 1 % 8 = 2) ∧ ¬(W / 1 % 8 = 3) ∧ W / 1 % 8 = 4 ∧ W / 262144 % 128 = d ∧ W / 2048 % 128 = a ∧ W / 8 % 256 = s := by omega
  clear hw
  refine ⟨by omega, by omega, ?_⟩
  rw [matchRow_op90 h1, if_neg hn0, if_neg hn1, if_neg hn2, if_neg hn3, if_neg hn4, if_pos hc0, hf0, hf1, hf2]
  rfl

theorem Encoding.vbcast (d s : Nat) : Encoding.Statement (.vbcast d s) := by
  intro W hw hwf
  have hf := fieldsFit_of_wellFormed _ hwf
  change (Nat.blt d 128 && (Nat.blt s 256 && true)) = true at hf
  simp only [Bool.and_true, Bool.and_eq_true, Nat.blt_eq] at hf
  replace hw : 3019898885 + d * 262144 + s * 8 = W := Option.some.inj hw
  obtain ⟨h1, hc0, hf0, hf1⟩ : W / 33554432 = 90 ∧ (W / 1 % 8 = 5 ∧ W / 2048 % 128 = 0) ∧ W / 262144 % 128 = d ∧ W / 8 % 256 = s := by omega
  clear hw
  refine ⟨by omega, by omega, ?_⟩
  rw [matchRow_op90 h1, if_pos hc0, hf0, hf1]
  rfl

theorem Encoding.vshls (d a s : Nat) : Encoding.Statement (.vshls d a s) := by
  intro W hw hwf
  have hf := fieldsFit_of_wellFormed _ hwf
  change (Nat.blt d 128 && (Nat.blt a 128 && (Nat.blt s 256 && true))) = true at hf
  simp only [Bool.and_true, Bool.and_eq_true, Nat.blt_eq] at hf
  replace hw : 3019898886 + d * 262144 + a * 2048 + s * 8 = W := Option.some.inj hw
  obtain ⟨h1, hn0, hn1, hn2, hn3, hn4, hn5, hc0, hf0, hf1, hf2⟩ : W / 33554432 = 90 ∧ (¬(W / 1 % 8 = 5 ∧ W / 2048 % 128 = 0)) ∧ ¬(W / 1 % 8 = 0) ∧ ¬(W / 1 % 8 = 1) ∧ ¬(W / 1 % 8 = 2) ∧ ¬(W / 1 % 8 = 3) ∧ ¬(W / 1 % 8 = 4) ∧ W / 1 % 8 = 6 ∧ W / 262144 % 128 = d ∧ W / 2048 % 128 = a ∧ W / 8 % 256 = s := by omega
  clear hw
  refine ⟨by omega, by omega, ?_⟩
  rw [matchRow_op90 h1, if_neg hn0, if_neg hn1, if_neg hn2, if_neg hn3, if_neg hn4, if_neg hn5, if_pos hc0, hf0, hf1, hf2]
  rfl

theorem Encoding.vshrs (d a s : Nat) : Encoding.Statement (.vshrs d a s) := by
  intro W hw hwf
  have hf := fieldsFit_of_wellFormed _ hwf
  change (Nat.blt d 128 && (Nat.blt a 128 && (Nat.blt s 256 && true))) = true at hf
  simp only [Bool.and_true, Bool.and_eq_true, Nat.blt_eq] at hf
  replace hw : 3019898887 + d * 262144 + a * 2048 + s * 8 = W := Option.some.inj hw
  obtain ⟨h1, hn0, hn1, hn2, hn3, hn4, hn5, hn6, hc0, hf0, hf1, hf2⟩ : W / 33554432 = 90 ∧ (¬(W / 1 % 8 = 5 ∧ W / 2048 % 128 = 0)) ∧ ¬(W / 1 % 8 = 0) ∧ ¬(W / 1 % 8 = 1) ∧ ¬(W / 1 % 8 = 2) ∧ ¬(W / 1 % 8 = 3) ∧ ¬(W / 1 % 8 = 4) ∧ ¬(W / 1 % 8 = 6) ∧ W / 1 % 8 = 7 ∧ W / 262144 % 128 = d ∧ W / 2048 % 128 = a ∧ W / 8 % 256 = s := by omega
  clear hw
  refine ⟨by omega, by omega, ?_⟩
  rw [matchRow_op90 h1, if_neg hn0, if_neg hn1, if_neg hn2, if_neg hn3, if_neg hn4, if_neg hn5, if_neg hn6, if_pos hc0, hf0, hf1, hf2]
  rfl

theorem Encoding.vcmp (p a b c f : Nat) : Encoding.Statement (.vcmp p a b c f) := by
  intro W hw hwf
  have hf := fieldsFit_of_wellFormed _ hwf
  change (Nat.blt p 16 && (Nat.blt a 128 && (Nat.blt b 128 && (Nat.blt c 16 && (Nat.blt f 8 && true))))) = true at hf
  simp only [Bool.and_true, Bool.and_eq_true, Nat.blt_eq] at hf
  replace hw : 3053453312 + p * 2097152 + a * 16384 + b * 128 + c * 8 + f = W := Option.some.inj hw
  obtain ⟨h1, hf0, hf1, hf2, hf3, hf4⟩ : W / 33554432 = 91 ∧ W / 2097152 % 16 = p ∧ W / 16384 % 128 = a ∧ W / 128 % 128 = b ∧ W / 8 % 16 = c ∧ W / 1 % 8 = f := by omega
  clear hw
  refine ⟨by omega, by omega, ?_⟩
  rw [matchRow_op91 h1, hf0, hf1, hf2, hf3, hf4]
  rfl

theorem Encoding.vcmps (p a s c f : Nat) : Encoding.Statement (.vcmps p a s c f) := by
  intro W hw hwf
  have hf := fieldsFit_of_wellFormed _ hwf
  change (Nat.blt p 16 && (Nat.blt a 128 && (Nat.blt s 256 && (Nat.blt c 16 && (Nat.blt f 4 && true))))) = true at hf
  simp only [Bool.and_true, Bool.and_eq_true, Nat.blt_eq] at hf
  replace hw : 3087007744 + p * 2097152 + a * 16384 + s * 64 + c * 4 + f = W := Option.some.inj hw
  obtain ⟨h1, hf0, hf1, hf2, hf3, hf4⟩ : W / 33554432 = 92 ∧ W / 2097152 % 16 = p ∧ W / 16384 % 128 = a ∧ W / 64 % 256 = s ∧ W / 4 % 16 = c ∧ W / 1 % 4 = f := by omega
  clear hw
  refine ⟨by omega, by omega, ?_⟩
  rw [matchRow_op92 h1, hf0, hf1, hf2, hf3, hf4]
  rfl

theorem Encoding.vsel (d a b p : Nat) : Encoding.Statement (.vsel d a b p) := by
  intro W hw hwf
  have hf := fieldsFit_of_wellFormed _ hwf
  change (Nat.blt d 128 && (Nat.blt a 128 && (Nat.blt b 128 && (Nat.blt p 16 && true)))) = true at hf
  simp only [Bool.and_true, Bool.and_eq_true, Nat.blt_eq] at hf
  replace hw : 3120562176 + d * 262144 + a * 2048 + b * 16 + p = W := Option.some.inj hw
  obtain ⟨h1, hf0, hf1, hf2, hf3⟩ : W / 33554432 = 93 ∧ W / 262144 % 128 = d ∧ W / 2048 % 128 = a ∧ W / 16 % 128 = b ∧ W / 1 % 16 = p := by omega
  clear hw
  refine ⟨by omega, by omega, ?_⟩
  rw [matchRow_op93 h1, hf0, hf1, hf2, hf3]
  rfl

theorem Encoding.pand (d a b : Nat) : Encoding.Statement (.pand d a b) := by
  intro W hw hwf
  have hf := fieldsFit_of_wellFormed _ hwf
  change (Nat.blt d 16 && (Nat.blt a 16 && (Nat.blt b 16 && true))) = true at hf
  simp only [Bool.and_true, Bool.and_eq_true, Nat.blt_eq] at hf
  replace hw : 3154116608 + d * 2097152 + a * 131072 + b * 8192 = W := Option.some.inj hw
  obtain ⟨h1, hn0, hn1, hn2, hn3, hc0, hf0, hf1, hf2⟩ : W / 33554432 = 94 ∧ ¬(W / 1 % 2097152 = 5120) ∧ ¬(W / 1 % 2097152 = 6144) ∧ ¬(W / 1 % 131072 = 4096) ∧ ¬(W / 1 % 131072 = 7168) ∧ W / 1 % 8192 = 0 ∧ W / 2097152 % 16 = d ∧ W / 131072 % 16 = a ∧ W / 8192 % 16 = b := by omega
  clear hw
  refine ⟨by omega, by omega, ?_⟩
  rw [matchRow_op94 h1, if_neg hn0, if_neg hn1, if_neg hn2, if_neg hn3, if_pos hc0, hf0, hf1, hf2]
  rfl

theorem Encoding.por (d a b : Nat) : Encoding.Statement (.por d a b) := by
  intro W hw hwf
  have hf := fieldsFit_of_wellFormed _ hwf
  change (Nat.blt d 16 && (Nat.blt a 16 && (Nat.blt b 16 && true))) = true at hf
  simp only [Bool.and_true, Bool.and_eq_true, Nat.blt_eq] at hf
  replace hw : 3154117632 + d * 2097152 + a * 131072 + b * 8192 = W := Option.some.inj hw
  obtain ⟨h1, hn0, hn1, hn2, hn3, hn4, hc0, hf0, hf1, hf2⟩ : W / 33554432 = 94 ∧ ¬(W / 1 % 2097152 = 5120) ∧ ¬(W / 1 % 2097152 = 6144) ∧ ¬(W / 1 % 131072 = 4096) ∧ ¬(W / 1 % 131072 = 7168) ∧ ¬(W / 1 % 8192 = 0) ∧ W / 1 % 8192 = 1024 ∧ W / 2097152 % 16 = d ∧ W / 131072 % 16 = a ∧ W / 8192 % 16 = b := by omega
  clear hw
  refine ⟨by omega, by omega, ?_⟩
  rw [matchRow_op94 h1, if_neg hn0, if_neg hn1, if_neg hn2, if_neg hn3, if_neg hn4, if_pos hc0, hf0, hf1, hf2]
  rfl

theorem Encoding.pxor (d a b : Nat) : Encoding.Statement (.pxor d a b) := by
  intro W hw hwf
  have hf := fieldsFit_of_wellFormed _ hwf
  change (Nat.blt d 16 && (Nat.blt a 16 && (Nat.blt b 16 && true))) = true at hf
  simp only [Bool.and_true, Bool.and_eq_true, Nat.blt_eq] at hf
  replace hw : 3154118656 + d * 2097152 + a * 131072 + b * 8192 = W := Option.some.inj hw
  obtain ⟨h1, hn0, hn1, hn2, hn3, hn4, hn5, hc0, hf0, hf1, hf2⟩ : W / 33554432 = 94 ∧ ¬(W / 1 % 2097152 = 5120) ∧ ¬(W / 1 % 2097152 = 6144) ∧ ¬(W / 1 % 131072 = 4096) ∧ ¬(W / 1 % 131072 = 7168) ∧ ¬(W / 1 % 8192 = 0) ∧ ¬(W / 1 % 8192 = 1024) ∧ W / 1 % 8192 = 2048 ∧ W / 2097152 % 16 = d ∧ W / 131072 % 16 = a ∧ W / 8192 % 16 = b := by omega
  clear hw
  refine ⟨by omega, by omega, ?_⟩
  rw [matchRow_op94 h1, if_neg hn0, if_neg hn1, if_neg hn2, if_neg hn3, if_neg hn4, if_neg hn5, if_pos hc0, hf0, hf1, hf2]
  rfl

theorem Encoding.pandn (d a b : Nat) : Encoding.Statement (.pandn d a b) := by
  intro W hw hwf
  have hf := fieldsFit_of_wellFormed _ hwf
  change (Nat.blt d 16 && (Nat.blt a 16 && (Nat.blt b 16 && true))) = true at hf
  simp only [Bool.and_true, Bool.and_eq_true, Nat.blt_eq] at hf
  replace hw : 3154119680 + d * 2097152 + a * 131072 + b * 8192 = W := Option.some.inj hw
  obtain ⟨h1, hn0, hn1, hn2, hn3, hn4, hn5, hn6, hc0, hf0, hf1, hf2⟩ : W / 33554432 = 94 ∧ ¬(W / 1 % 2097152 = 5120) ∧ ¬(W / 1 % 2097152 = 6144) ∧ ¬(W / 1 % 131072 = 4096) ∧ ¬(W / 1 % 131072 = 7168) ∧ ¬(W / 1 % 8192 = 0) ∧ ¬(W / 1 % 8192 = 1024) ∧ ¬(W / 1 % 8192 = 2048) ∧ W / 1 % 8192 = 3072 ∧ W / 2097152 % 16 = d ∧ W / 131072 % 16 = a ∧ W / 8192 % 16 = b := by omega
  clear hw
  refine ⟨by omega, by omega, ?_⟩
  rw [matchRow_op94 h1, if_neg hn0, if_neg hn1, if_neg hn2, if_neg hn3, if_neg hn4, if_neg hn5, if_neg hn6, if_pos hc0, hf0, hf1, hf2]
  rfl

theorem Encoding.pnot (d a : Nat) : Encoding.Statement (.pnot d a) := by
  intro W hw hwf
  have hf := fieldsFit_of_wellFormed _ hwf
  change (Nat.blt d 16 && (Nat.blt a 16 && true)) = true at hf
  simp only [Bool.and_true, Bool.and_eq_true, Nat.blt_eq] at hf
  replace hw : 3154120704 + d * 2097152 + a * 131072 = W := Option.some.inj hw
  obtain ⟨h1, hn0, hn1, hc0, hf0, hf1⟩ : W / 33554432 = 94 ∧ ¬(W / 1 % 2097152 = 5120) ∧ ¬(W / 1 % 2097152 = 6144) ∧ W / 1 % 131072 = 4096 ∧ W / 2097152 % 16 = d ∧ W / 131072 % 16 = a := by omega
  clear hw
  refine ⟨by omega, by omega, ?_⟩
  rw [matchRow_op94 h1, if_neg hn0, if_neg hn1, if_pos hc0, hf0, hf1]
  rfl

theorem Encoding.pset (d : Nat) : Encoding.Statement (.pset d) := by
  intro W hw hwf
  have hf := fieldsFit_of_wellFormed _ hwf
  change (Nat.blt d 16 && true) = true at hf
  simp only [Bool.and_true, Nat.blt_eq] at hf
  replace hw : 3154121728 + d * 2097152 = W := Option.some.inj hw
  obtain ⟨h1, hc0, hf0⟩ : W / 33554432 = 94 ∧ W / 1 % 2097152 = 5120 ∧ W / 2097152 % 16 = d := by omega
  clear hw
  refine ⟨by omega, by omega, ?_⟩
  rw [matchRow_op94 h1, if_pos hc0, hf0]
  rfl

theorem Encoding.pclr (d : Nat) : Encoding.Statement (.pclr d) := by
  intro W hw hwf
  have hf := fieldsFit_of_wellFormed _ hwf
  change (Nat.blt d 16 && true) = true at hf
  simp only [Bool.and_true, Nat.blt_eq] at hf
  replace hw : 3154122752 + d * 2097152 = W := Option.some.inj hw
  obtain ⟨h1, hn0, hc0, hf0⟩ : W / 33554432 = 94 ∧ ¬(W / 1 % 2097152 = 5120) ∧ W / 1 % 2097152 = 6144 ∧ W / 2097152 % 16 = d := by omega
  clear hw
  refine ⟨by omega, by omega, ?_⟩
  rw [matchRow_op94 h1, if_neg hn0, if_pos hc0, hf0]
  rfl

theorem Encoding.pmov (d a : Nat) : Encoding.Statement (.pmov d a) := by
  intro W hw hwf
  have hf := fieldsFit_of_wellFormed _ hwf
  change (Nat.blt d 16 && (Nat.blt a 16 && true)) = true at hf
  simp only [Bool.and_true, Bool.and_eq_true, Nat.blt_eq] at hf
  replace hw : 3154123776 + d * 2097152 + a * 131072 = W := Option.some.inj hw
  obtain ⟨h1, hn0, hn1, hn2, hc0, hf0, hf1⟩ : W / 33554432 = 94 ∧ ¬(W / 1 % 2097152 = 5120) ∧ ¬(W / 1 % 2097152 = 6144) ∧ ¬(W / 1 % 131072 = 4096) ∧ W / 1 % 131072 = 7168 ∧ W / 2097152 % 16 = d ∧ W / 131072 % 16 = a := by omega
  clear hw
  refine ⟨by omega, by omega, ?_⟩
  rw [matchRow_op94 h1, if_neg hn0, if_neg hn1, if_neg hn2, if_pos hc0, hf0, hf1]
  rfl

theorem Encoding.vshfl (d a b : Nat) : Encoding.Statement (.vshfl d a b) := by
  intro W hw hwf
  have hf := fieldsFit_of_wellFormed _ hwf
  change (Nat.blt d 128 && (Nat.blt a 128 && (Nat.blt b 128 && true))) = true at hf
  simp only [Bool.and_true, Bool.and_eq_true, Nat.blt_eq] at hf
  replace hw : 3187671040 + d * 262144 + a * 2048 + b * 16 = W := Option.some.inj hw
  obtain ⟨h1, hc0, hf0, hf1, hf2⟩ : W / 33554432 = 95 ∧ W / 1 % 16 = 0 ∧ W / 262144 % 128 = d ∧ W / 2048 % 128 = a ∧ W / 16 % 128 = b := by omega
  clear hw
  refine ⟨by omega, by omega, ?_⟩
  rw [matchRow_op95 h1, if_pos hc0, hf0, hf1, hf2]
  rfl

theorem Encoding.vshflTeam (d a b : Nat) : Encoding.Statement (.vshflTeam d a b) := by
  intro W hw hwf
  have hf := fieldsFit_of_wellFormed _ hwf
  change (Nat.blt d 128 && (Nat.blt a 128 && (Nat.blt b 128 && true))) = true at hf
  simp only [Bool.and_true, Bool.and_eq_true, Nat.blt_eq] at hf
  replace hw : 3187671041 + d * 262144 + a * 2048 + b * 16 = W := Option.some.inj hw
  obtain ⟨h1, hn0, hc0, hf0, hf1, hf2⟩ : W / 33554432 = 95 ∧ ¬(W / 1 % 16 = 0) ∧ W / 1 % 16 = 1 ∧ W / 262144 % 128 = d ∧ W / 2048 % 128 = a ∧ W / 16 % 128 = b := by omega
  clear hw
  refine ⟨by omega, by omega, ?_⟩
  rw [matchRow_op95 h1, if_neg hn0, if_pos hc0, hf0, hf1, hf2]
  rfl

theorem Encoding.vred (a s f : Nat) : Encoding.Statement (.vred a s f) := by
  intro W hw hwf
  have hf := fieldsFit_of_wellFormed _ hwf
  change (Nat.blt a 128 && (Nat.blt s 256 && (Nat.blt f 8 && true))) = true at hf
  simp only [Bool.and_true, Bool.and_eq_true, Nat.blt_eq] at hf
  replace hw : 3221225472 + a * 2048 + s * 8 + f = W := Option.some.inj hw
  obtain ⟨h1, hc0, hf0, hf1, hf2⟩ : W / 33554432 = 96 ∧ W / 262144 % 128 = 0 ∧ W / 2048 % 128 = a ∧ W / 8 % 256 = s ∧ W / 1 % 8 = f := by omega
  clear hw
  refine ⟨by omega, by omega, ?_⟩
  rw [matchRow_op96 h1, if_pos hc0, hf0, hf1, hf2]
  rfl

theorem Encoding.vscan (d a s f : Nat) : Encoding.Statement (.vscan d a s f) := by
  intro W hw hwf
  have hf := fieldsFit_of_wellFormed _ hwf
  change (Nat.blt d 128 && (Nat.blt a 128 && (Nat.blt s 256 && (Nat.blt f 8 && true)))) = true at hf
  simp only [Bool.and_true, Bool.and_eq_true, Nat.blt_eq] at hf
  replace hw : 3254779904 + d * 262144 + a * 2048 + s * 8 + f = W := Option.some.inj hw
  obtain ⟨h1, hf0, hf1, hf2, hf3⟩ : W / 33554432 = 97 ∧ W / 262144 % 128 = d ∧ W / 2048 % 128 = a ∧ W / 8 % 256 = s ∧ W / 1 % 8 = f := by omega
  clear hw
  refine ⟨by omega, by omega, ?_⟩
  rw [matchRow_op97 h1, hf0, hf1, hf2, hf3]
  rfl

theorem Encoding.vball (w p s f : Nat) : Encoding.Statement (.vball w p s f) := by
  intro W hw hwf
  have hf := fieldsFit_of_wellFormed _ hwf
  change (Nat.blt w 128 && (Nat.blt p 16 && (Nat.blt s 256 && (Nat.blt f 8 && true)))) = true at hf
  simp only [Bool.and_true, Bool.and_eq_true, Nat.blt_eq] at hf
  replace hw : 3288334336 + w * 262144 + p * 2048 + s * 8 + f = W := Option.some.inj hw
  obtain ⟨h1, hc0, hf0, hf1, hf2, hf3⟩ : W / 33554432 = 98 ∧ W / 32768 % 8 = 0 ∧ W / 262144 % 128 = w ∧ W / 2048 % 16 = p ∧ W / 8 % 256 = s ∧ W / 1 % 8 = f := by omega
  clear hw
  refine ⟨by omega, by omega, ?_⟩
  rw [matchRow_op98 h1, if_pos hc0, hf0, hf1, hf2, hf3]
  rfl

theorem Encoding.vnzs (d a s f : Nat) : Encoding.Statement (.vnzs d a s f) := by
  intro W hw hwf
  have hf := fieldsFit_of_wellFormed _ hwf
  change (Nat.blt d 128 && (Nat.blt a 128 && (Nat.blt s 256 && (Nat.blt f 8 && true)))) = true at hf
  simp only [Bool.and_true, Bool.and_eq_true, Nat.blt_eq] at hf
  replace hw : 3321888768 + d * 262144 + a * 2048 + s * 8 + f = W := Option.some.inj hw
  obtain ⟨h1, hf0, hf1, hf2, hf3⟩ : W / 33554432 = 99 ∧ W / 262144 % 128 = d ∧ W / 2048 % 128 = a ∧ W / 8 % 256 = s ∧ W / 1 % 8 = f := by omega
  clear hw
  refine ⟨by omega, by omega, ?_⟩
  rw [matchRow_op99 h1, hf0, hf1, hf2, hf3]
  rfl

theorem Encoding.visect (d a b : Nat) : Encoding.Statement (.visect d a b) := by
  intro W hw hwf
  have hf := fieldsFit_of_wellFormed _ hwf
  change (Nat.blt d 128 && (Nat.blt a 128 && (Nat.blt b 128 && true))) = true at hf
  simp only [Bool.and_true, Bool.and_eq_true, Nat.blt_eq] at hf
  replace hw : 3355443200 + d * 262144 + a * 2048 + b * 16 = W := Option.some.inj hw
  obtain ⟨h1, hc0, hf0, hf1, hf2⟩ : W / 33554432 = 100 ∧ W / 1 % 16 = 0 ∧ W / 262144 % 128 = d ∧ W / 2048 % 128 = a ∧ W / 16 % 128 = b := by omega
  clear hw
  refine ⟨by omega, by omega, ?_⟩
  rw [matchRow_op100 h1, if_pos hc0, hf0, hf1, hf2]
  rfl

theorem Encoding.vbmax (d a : Nat) : Encoding.Statement (.vbmax d a) := by
  intro W hw hwf
  have hf := fieldsFit_of_wellFormed _ hwf
  change (Nat.blt d 128 && (Nat.blt a 128 && true)) = true at hf
  simp only [Bool.and_true, Bool.and_eq_true, Nat.blt_eq] at hf
  replace hw : 3388997632 + d * 262144 + a * 2048 = W := Option.some.inj hw
  obtain ⟨h1, hn0, hc0, hf0, hf1⟩ : W / 33554432 = 101 ∧ (¬(W / 1 % 16 = 7 ∧ W / 256 % 8 = 0 ∧ W / 262144 % 128 = 0)) ∧ W / 1 % 2048 = 0 ∧ W / 262144 % 128 = d ∧ W / 2048 % 128 = a := by omega
  clear hw
  refine ⟨by omega, by omega, ?_⟩
  rw [matchRow_op101 h1, if_neg hn0, if_pos hc0, hf0, hf1]
  rfl

theorem Encoding.vscsel (d a f : Nat) : Encoding.Statement (.vscsel d a f) := by
  intro W hw hwf
  have hf := fieldsFit_of_wellFormed _ hwf
  change (Nat.blt d 128 && (Nat.blt a 128 && (Nat.blt f 16 && true))) = true at hf
  simp only [Bool.and_true, Bool.and_eq_true, Nat.blt_eq] at hf
  replace hw : 3388997633 + d * 262144 + a * 2048 + f * 16 = W := Option.some.inj hw
  obtain ⟨h1, hn0, hn1, hc0, hf0, hf1, hf2⟩ : W / 33554432 = 101 ∧ (¬(W / 1 % 16 = 7 ∧ W / 256 % 8 = 0 ∧ W / 262144 % 128 = 0)) ∧ ¬(W / 1 % 2048 = 0) ∧ (W / 1 % 16 = 1 ∧ W / 256 % 8 = 0) ∧ W / 262144 % 128 = d ∧ W / 2048 % 128 = a ∧ W / 16 % 16 = f := by omega
  clear hw
  refine ⟨by omega, by omega, ?_⟩
  rw [matchRow_op101 h1, if_neg hn0, if_neg hn1, if_pos hc0, hf0, hf1, hf2]
  rfl

theorem Encoding.vqnt (d a f : Nat) : Encoding.Statement (.vqnt d a f) := by
  intro W hw hwf
  have hf := fieldsFit_of_wellFormed _ hwf
  change (Nat.blt d 128 && (Nat.blt a 128 && (Nat.blt f 16 && true))) = true at hf
  simp only [Bool.and_true, Bool.and_eq_true, Nat.blt_eq] at hf
  replace hw : 3388997634 + d * 262144 + a * 2048 + f * 16 = W := Option.some.inj hw
  obtain ⟨h1, hn0, hn1, hn2, hc0, hf0, hf1, hf2⟩ : W / 33554432 = 101 ∧ (¬(W / 1 % 16 = 7 ∧ W / 256 % 8 = 0 ∧ W / 262144 % 128 = 0)) ∧ ¬(W / 1 % 2048 = 0) ∧ (¬(W / 1 % 16 = 1 ∧ W / 256 % 8 = 0)) ∧ (W / 1 % 16 = 2 ∧ W / 256 % 8 = 0) ∧ W / 262144 % 128 = d ∧ W / 2048 % 128 = a ∧ W / 16 % 16 = f := by omega
  clear hw
  refine ⟨by omega, by omega, ?_⟩
  rw [matchRow_op101 h1, if_neg hn0, if_neg hn1, if_neg hn2, if_pos hc0, hf0, hf1, hf2]
  rfl

theorem Encoding.vdq (d a f : Nat) : Encoding.Statement (.vdq d a f) := by
  intro W hw hwf
  have hf := fieldsFit_of_wellFormed _ hwf
  change (Nat.blt d 128 && (Nat.blt a 128 && (Nat.blt f 16 && true))) = true at hf
  simp only [Bool.and_true, Bool.and_eq_true, Nat.blt_eq] at hf
  replace hw : 3388997635 + d * 262144 + a * 2048 + f * 16 = W := Option.some.inj hw
  obtain ⟨h1, hn0, hn1, hn2, hn3, hc0, hf0, hf1, hf2⟩ : W / 33554432 = 101 ∧ (¬(W / 1 % 16 = 7 ∧ W / 256 % 8 = 0 ∧ W / 262144 % 128 = 0)) ∧ ¬(W / 1 % 2048 = 0) ∧ (¬(W / 1 % 16 = 1 ∧ W / 256 % 8 = 0)) ∧ (¬(W / 1 % 16 = 2 ∧ W / 256 % 8 = 0)) ∧ (W / 1 % 16 = 3 ∧ W / 256 % 8 = 0) ∧ W / 262144 % 128 = d ∧ W / 2048 % 128 = a ∧ W / 16 % 16 = f := by omega
  clear hw
  refine ⟨by omega, by omega, ?_⟩
  rw [matchRow_op101 h1, if_neg hn0, if_neg hn1, if_neg hn2, if_neg hn3, if_pos hc0, hf0, hf1, hf2]
  rfl

theorem Encoding.vpack (d a p f : Nat) : Encoding.Statement (.vpack d a p f) := by
  intro W hw hwf
  have hf := fieldsFit_of_wellFormed _ hwf
  change (Nat.blt d 128 && (Nat.blt a 128 && (Nat.blt p 8 && (Nat.blt f 16 && true)))) = true at hf
  simp only [Bool.and_true, Bool.and_eq_true, Nat.blt_eq] at hf
  replace hw : 3388997636 + d * 262144 + a * 2048 + p * 256 + f * 16 = W := Option.some.inj hw
  obtain ⟨h1, hn0, hn1, hn2, hn3, hn4, hn5, hc0, hf0, hf1, hf2, hf3⟩ : W / 33554432 = 101 ∧ (¬(W / 1 % 16 = 7 ∧ W / 256 % 8 = 0 ∧ W / 262144 % 128 = 0)) ∧ ¬(W / 1 % 2048 = 0) ∧ (¬(W / 1 % 16 = 1 ∧ W / 256 % 8 = 0)) ∧ (¬(W / 1 % 16 = 2 ∧ W / 256 % 8 = 0)) ∧ (¬(W / 1 % 16 = 3 ∧ W / 256 % 8 = 0)) ∧ (¬(W / 1 % 16 = 6 ∧ W / 256 % 8 = 0)) ∧ W / 1 % 16 = 4 ∧ W / 262144 % 128 = d ∧ W / 2048 % 128 = a ∧ W / 256 % 8 = p ∧ W / 16 % 16 = f := by omega
  clear hw
  refine ⟨by omega, by omega, ?_⟩
  rw [matchRow_op101 h1, if_neg hn0, if_neg hn1, if_neg hn2, if_neg hn3, if_neg hn4, if_neg hn5, if_pos hc0, hf0, hf1, hf2, hf3]
  rfl

theorem Encoding.vunpk (d a p f : Nat) : Encoding.Statement (.vunpk d a p f) := by
  intro W hw hwf
  have hf := fieldsFit_of_wellFormed _ hwf
  change (Nat.blt d 128 && (Nat.blt a 128 && (Nat.blt p 8 && (Nat.blt f 16 && true)))) = true at hf
  simp only [Bool.and_true, Bool.and_eq_true, Nat.blt_eq] at hf
  replace hw : 3388997637 + d * 262144 + a * 2048 + p * 256 + f * 16 = W := Option.some.inj hw
  obtain ⟨h1, hn0, hn1, hn2, hn3, hn4, hn5, hn6, hc0, hf0, hf1, hf2, hf3⟩ : W / 33554432 = 101 ∧ (¬(W / 1 % 16 = 7 ∧ W / 256 % 8 = 0 ∧ W / 262144 % 128 = 0)) ∧ ¬(W / 1 % 2048 = 0) ∧ (¬(W / 1 % 16 = 1 ∧ W / 256 % 8 = 0)) ∧ (¬(W / 1 % 16 = 2 ∧ W / 256 % 8 = 0)) ∧ (¬(W / 1 % 16 = 3 ∧ W / 256 % 8 = 0)) ∧ (¬(W / 1 % 16 = 6 ∧ W / 256 % 8 = 0)) ∧ ¬(W / 1 % 16 = 4) ∧ W / 1 % 16 = 5 ∧ W / 262144 % 128 = d ∧ W / 2048 % 128 = a ∧ W / 256 % 8 = p ∧ W / 16 % 16 = f := by omega
  clear hw
  refine ⟨by omega, by omega, ?_⟩
  rw [matchRow_op101 h1, if_neg hn0, if_neg hn1, if_neg hn2, if_neg hn3, if_neg hn4, if_neg hn5, if_neg hn6, if_pos hc0, hf0, hf1, hf2, hf3]
  rfl

theorem Encoding.vreq (d a f : Nat) : Encoding.Statement (.vreq d a f) := by
  intro W hw hwf
  have hf := fieldsFit_of_wellFormed _ hwf
  change (Nat.blt d 128 && (Nat.blt a 128 && (Nat.blt f 16 && true))) = true at hf
  simp only [Bool.and_true, Bool.and_eq_true, Nat.blt_eq] at hf
  replace hw : 3388997638 + d * 262144 + a * 2048 + f * 16 = W := Option.some.inj hw
  obtain ⟨h1, hn0, hn1, hn2, hn3, hn4, hc0, hf0, hf1, hf2⟩ : W / 33554432 = 101 ∧ (¬(W / 1 % 16 = 7 ∧ W / 256 % 8 = 0 ∧ W / 262144 % 128 = 0)) ∧ ¬(W / 1 % 2048 = 0) ∧ (¬(W / 1 % 16 = 1 ∧ W / 256 % 8 = 0)) ∧ (¬(W / 1 % 16 = 2 ∧ W / 256 % 8 = 0)) ∧ (¬(W / 1 % 16 = 3 ∧ W / 256 % 8 = 0)) ∧ (W / 1 % 16 = 6 ∧ W / 256 % 8 = 0) ∧ W / 262144 % 128 = d ∧ W / 2048 % 128 = a ∧ W / 16 % 16 = f := by omega
  clear hw
  refine ⟨by omega, by omega, ?_⟩
  rw [matchRow_op101 h1, if_neg hn0, if_neg hn1, if_neg hn2, if_neg hn3, if_neg hn4, if_pos hc0, hf0, hf1, hf2]
  rfl

theorem Encoding.vhist (a r : Nat) : Encoding.Statement (.vhist a r) := by
  intro W hw hwf
  have hf := fieldsFit_of_wellFormed _ hwf
  change (Nat.blt a 128 && (Nat.blt r 16 && true)) = true at hf
  simp only [Bool.and_true, Bool.and_eq_true, Nat.blt_eq] at hf
  replace hw : 3388997639 + a * 2048 + r * 16 = W := Option.some.inj hw
  obtain ⟨h1, hc0, hf0, hf1⟩ : W / 33554432 = 101 ∧ (W / 1 % 16 = 7 ∧ W / 256 % 8 = 0 ∧ W / 262144 % 128 = 0) ∧ W / 2048 % 128 = a ∧ W / 16 % 16 = r := by omega
  clear hw
  refine ⟨by omega, by omega, ?_⟩
  rw [matchRow_op101 h1, if_pos hc0, hf0, hf1]
  rfl

theorem Encoding.spctl (d a b : Nat) : Encoding.Statement (.spctl d a b) := by
  intro W hw hwf
  have hf := fieldsFit_of_wellFormed _ hwf
  change (Nat.blt d 256 && (Nat.blt a 256 && (Nat.blt b 256 && true))) = true at hf
  simp only [Bool.and_true, Bool.and_eq_true, Nat.blt_eq] at hf
  replace hw : 3422552064 + d * 131072 + a * 512 + b * 2 = W := Option.some.inj hw
  obtain ⟨h1, hc0, hf0, hf1, hf2⟩ : W / 33554432 = 102 ∧ W / 1 % 2 = 0 ∧ W / 131072 % 256 = d ∧ W / 512 % 256 = a ∧ W / 2 % 256 = b := by omega
  clear hw
  refine ⟨by omega, by omega, ?_⟩
  rw [matchRow_op102 h1, if_pos hc0, hf0, hf1, hf2]
  rfl

theorem Encoding.vlane (d f : Nat) : Encoding.Statement (.vlane d f) := by
  intro W hw hwf
  have hf := fieldsFit_of_wellFormed _ hwf
  change (Nat.blt d 128 && (Nat.blt f 16 && true)) = true at hf
  simp only [Bool.and_true, Bool.and_eq_true, Nat.blt_eq] at hf
  replace hw : 3456106496 + d * 262144 + f = W := Option.some.inj hw
  obtain ⟨h1, hc0, hf0, hf1⟩ : W / 33554432 = 103 ∧ W / 16 % 16384 = 0 ∧ W / 262144 % 128 = d ∧ W / 1 % 16 = f := by omega
  clear hw
  refine ⟨by omega, by omega, ?_⟩
  rw [matchRow_op103 h1, if_pos hc0, hf0, hf1]
  rfl

theorem Encoding.vsideRd (d a : Nat) : Encoding.Statement (.vsideRd d a) := by
  intro W hw hwf
  have hf := fieldsFit_of_wellFormed _ hwf
  change (Nat.blt d 128 && (Nat.blt a 128 && true)) = true at hf
  simp only [Bool.and_true, Bool.and_eq_true, Nat.blt_eq] at hf
  replace hw : 3489660928 + d * 262144 + a * 2048 = W := Option.some.inj hw
  obtain ⟨h1, hc0, hf0, hf1⟩ : W / 33554432 = 104 ∧ W / 1 % 2048 = 0 ∧ W / 262144 % 128 = d ∧ W / 2048 % 128 = a := by omega
  clear hw
  refine ⟨by omega, by omega, ?_⟩
  rw [matchRow_op104 h1, if_pos hc0, hf0, hf1]
  rfl

theorem Encoding.vsideWr (d a : Nat) : Encoding.Statement (.vsideWr d a) := by
  intro W hw hwf
  have hf := fieldsFit_of_wellFormed _ hwf
  change (Nat.blt d 128 && (Nat.blt a 128 && true)) = true at hf
  simp only [Bool.and_true, Bool.and_eq_true, Nat.blt_eq] at hf
  replace hw : 3489660929 + d * 262144 + a * 2048 = W := Option.some.inj hw
  obtain ⟨h1, hn0, hc0, hf0, hf1⟩ : W / 33554432 = 104 ∧ ¬(W / 1 % 2048 = 0) ∧ W / 1 % 2048 = 1 ∧ W / 262144 % 128 = d ∧ W / 2048 % 128 = a := by omega
  clear hw
  refine ⟨by omega, by omega, ?_⟩
  rw [matchRow_op104 h1, if_neg hn0, if_pos hc0, hf0, hf1]
  rfl

theorem Encoding.xcntSet (a b c : Nat) : Encoding.Statement (.xcntSet a b c) := by
  intro W hw hwf
  have hf := fieldsFit_of_wellFormed _ hwf
  change (Nat.blt a 256 && (Nat.blt b 256 && (Nat.blt c 256 && true))) = true at hf
  simp only [Bool.and_true, Bool.and_eq_true, Nat.blt_eq] at hf
  replace hw : 3523215360 + a * 131072 + b * 512 + c * 2 = W := Option.some.inj hw
  obtain ⟨h1, hc0, hf0, hf1, hf2⟩ : W / 33554432 = 105 ∧ W / 1 % 2 = 0 ∧ W / 131072 % 256 = a ∧ W / 512 % 256 = b ∧ W / 2 % 256 = c := by omega
  clear hw
  refine ⟨by omega, by omega, ?_⟩
  rw [matchRow_op105 h1, if_pos hc0, hf0, hf1, hf2]
  rfl

theorem Encoding.xcntAdd (a b c : Nat) : Encoding.Statement (.xcntAdd a b c) := by
  intro W hw hwf
  have hf := fieldsFit_of_wellFormed _ hwf
  change (Nat.blt a 256 && (Nat.blt b 256 && (Nat.blt c 256 && true))) = true at hf
  simp only [Bool.and_true, Bool.and_eq_true, Nat.blt_eq] at hf
  replace hw : 3523215361 + a * 131072 + b * 512 + c * 2 = W := Option.some.inj hw
  obtain ⟨h1, hn0, hc0, hf0, hf1, hf2⟩ : W / 33554432 = 105 ∧ ¬(W / 1 % 2 = 0) ∧ W / 1 % 2 = 1 ∧ W / 131072 % 256 = a ∧ W / 512 % 256 = b ∧ W / 2 % 256 = c := by omega
  clear hw
  refine ⟨by omega, by omega, ?_⟩
  rw [matchRow_op105 h1, if_neg hn0, if_pos hc0, hf0, hf1, hf2]
  rfl

theorem Encoding.tclm (s n f : Nat) : Encoding.Statement (.tclm s n f) := by
  intro W hw hwf
  have hf := fieldsFit_of_wellFormed _ hwf
  change (Nat.blt s 256 && (Nat.blt n 64 && (Nat.blt f 32 && true))) = true at hf
  simp only [Bool.and_true, Bool.and_eq_true, Nat.blt_eq] at hf
  replace hw : 3623878656 + s * 4096 + n * 32 + f = W := Option.some.inj hw
  obtain ⟨h1, hc0, hf0, hf1, hf2⟩ : W / 33554432 = 108 ∧ (W / 2048 % 2 = 0 ∧ W / 1048576 % 32 = 0) ∧ W / 4096 % 256 = s ∧ W / 32 % 64 = n ∧ W / 1 % 32 = f := by omega
  clear hw
  refine ⟨by omega, by omega, ?_⟩
  rw [matchRow_op108 h1, if_pos hc0, hf0, hf1, hf2]
  rfl

theorem Encoding.tclmTry (s n f : Nat) : Encoding.Statement (.tclmTry s n f) := by
  intro W hw hwf
  have hf := fieldsFit_of_wellFormed _ hwf
  change (Nat.blt s 256 && (Nat.blt n 64 && (Nat.blt f 32 && true))) = true at hf
  simp only [Bool.and_true, Bool.and_eq_true, Nat.blt_eq] at hf
  replace hw : 3623880704 + s * 4096 + n * 32 + f = W := Option.some.inj hw
  obtain ⟨h1, hn0, hc0, hf0, hf1, hf2⟩ : W / 33554432 = 108 ∧ (¬(W / 2048 % 2 = 0 ∧ W / 1048576 % 32 = 0)) ∧ (W / 2048 % 2 = 1 ∧ W / 1048576 % 32 = 0) ∧ W / 4096 % 256 = s ∧ W / 32 % 64 = n ∧ W / 1 % 32 = f := by omega
  clear hw
  refine ⟨by omega, by omega, ?_⟩
  rw [matchRow_op108 h1, if_neg hn0, if_pos hc0, hf0, hf1, hf2]
  rfl

theorem Encoding.trel (n f : Nat) : Encoding.Statement (.trel n f) := by
  intro W hw hwf
  have hf := fieldsFit_of_wellFormed _ hwf
  change (Nat.blt n 64 && (Nat.blt f 32 && true)) = true at hf
  simp only [Bool.and_true, Bool.and_eq_true, Nat.blt_eq] at hf
  replace hw : 3657433088 + n * 32 + f = W := Option.some.inj hw
  obtain ⟨h1, hc0, hf0, hf1⟩ : W / 33554432 = 109 ∧ W / 2048 % 16384 = 0 ∧ W / 32 % 64 = n ∧ W / 1 % 32 = f := by omega
  clear hw
  refine ⟨by omega, by omega, ?_⟩
  rw [matchRow_op109 h1, if_pos hc0, hf0, hf1]
  rfl

theorem Encoding.aclm (s n f : Nat) : Encoding.Statement (.aclm s n f) := by
  intro W hw hwf
  have hf := fieldsFit_of_wellFormed _ hwf
  change (Nat.blt s 256 && (Nat.blt n 64 && (Nat.blt f 32 && true))) = true at hf
  simp only [Bool.and_true, Bool.and_eq_true, Nat.blt_eq] at hf
  replace hw : 3690987520 + s * 4096 + n * 32 + f = W := Option.some.inj hw
  obtain ⟨h1, hc0, hf0, hf1, hf2⟩ : W / 33554432 = 110 ∧ (W / 2048 % 2 = 0 ∧ W / 1048576 % 32 = 0) ∧ W / 4096 % 256 = s ∧ W / 32 % 64 = n ∧ W / 1 % 32 = f := by omega
  clear hw
  refine ⟨by omega, by omega, ?_⟩
  rw [matchRow_op110 h1, if_pos hc0, hf0, hf1, hf2]
  rfl

theorem Encoding.aclmTry (s n f : Nat) : Encoding.Statement (.aclmTry s n f) := by
  intro W hw hwf
  have hf := fieldsFit_of_wellFormed _ hwf
  change (Nat.blt s 256 && (Nat.blt n 64 && (Nat.blt f 32 && true))) = true at hf
  simp only [Bool.and_true, Bool.and_eq_true, Nat.blt_eq] at hf
  replace hw : 3690989568 + s * 4096 + n * 32 + f = W := Option.some.inj hw
  obtain ⟨h1, hn0, hc0, hf0, hf1, hf2⟩ : W / 33554432 = 110 ∧ (¬(W / 2048 % 2 = 0 ∧ W / 1048576 % 32 = 0)) ∧ (W / 2048 % 2 = 1 ∧ W / 1048576 % 32 = 0) ∧ W / 4096 % 256 = s ∧ W / 32 % 64 = n ∧ W / 1 % 32 = f := by omega
  clear hw
  refine ⟨by omega, by omega, ?_⟩
  rw [matchRow_op110 h1, if_neg hn0, if_pos hc0, hf0, hf1, hf2]
  rfl

theorem Encoding.arel (n f : Nat) : Encoding.Statement (.arel n f) := by
  intro W hw hwf
  have hf := fieldsFit_of_wellFormed _ hwf
  change (Nat.blt n 64 && (Nat.blt f 32 && true)) = true at hf
  simp only [Bool.and_true, Bool.and_eq_true, Nat.blt_eq] at hf
  replace hw : 3724541952 + n * 32 + f = W := Option.some.inj hw
  obtain ⟨h1, hc0, hf0, hf1⟩ : W / 33554432 = 111 ∧ W / 2048 % 16384 = 0 ∧ W / 32 % 64 = n ∧ W / 1 % 32 = f := by omega
  clear hw
  refine ⟨by omega, by omega, ?_⟩
  rw [matchRow_op111 h1, if_pos hc0, hf0, hf1]
  rfl

theorem Encoding.tldDense (t b f k : Nat) : Encoding.Statement (.tldDense t b f k) := by
  intro W hw hwf
  have hf := fieldsFit_of_wellFormed _ hwf
  change (Nat.blt t 32 && (Nat.blt b 256 && (Nat.blt f 256 && (Nat.blt k 4 && true)))) = true at hf
  simp only [Bool.and_true, Bool.and_eq_true, Nat.blt_eq] at hf
  replace hw : 3758096384 + t * 1048576 + b * 4096 + f * 16 + k * 4 = W := Option.some.inj hw
  obtain ⟨h1, hc0, hf0, hf1, hf2, hf3⟩ : W / 33554432 = 112 ∧ W / 1 % 4 = 0 ∧ W / 1048576 % 32 = t ∧ W / 4096 % 256 = b ∧ W / 16 % 256 = f ∧ W / 4 % 4 = k := by omega
  clear hw
  refine ⟨by omega, by omega, ?_⟩
  rw [matchRow_op112 h1, if_pos hc0, hf0, hf1, hf2, hf3]
  rfl

theorem Encoding.tldDec (t b f k : Nat) : Encoding.Statement (.tldDec t b f k) := by
  intro W hw hwf
  have hf := fieldsFit_of_wellFormed _ hwf
  change (Nat.blt t 32 && (Nat.blt b 256 && (Nat.blt f 256 && (Nat.blt k 4 && true)))) = true at hf
  simp only [Bool.and_true, Bool.and_eq_true, Nat.blt_eq] at hf
  replace hw : 3758096385 + t * 1048576 + b * 4096 + f * 16 + k * 4 = W := Option.some.inj hw
  obtain ⟨h1, hn0, hc0, hf0, hf1, hf2, hf3⟩ : W / 33554432 = 112 ∧ ¬(W / 1 % 4 = 0) ∧ W / 1 % 4 = 1 ∧ W / 1048576 % 32 = t ∧ W / 4096 % 256 = b ∧ W / 16 % 256 = f ∧ W / 4 % 4 = k := by omega
  clear hw
  refine ⟨by omega, by omega, ?_⟩
  rw [matchRow_op112 h1, if_neg hn0, if_pos hc0, hf0, hf1, hf2, hf3]
  rfl

theorem Encoding.tldPcs (t b f k : Nat) : Encoding.Statement (.tldPcs t b f k) := by
  intro W hw hwf
  have hf := fieldsFit_of_wellFormed _ hwf
  change (Nat.blt t 32 && (Nat.blt b 256 && (Nat.blt f 256 && (Nat.blt k 4 && true)))) = true at hf
  simp only [Bool.and_true, Bool.and_eq_true, Nat.blt_eq] at hf
  replace hw : 3758096386 + t * 1048576 + b * 4096 + f * 16 + k * 4 = W := Option.some.inj hw
  obtain ⟨h1, hn0, hn1, hc0, hf0, hf1, hf2, hf3⟩ : W / 33554432 = 112 ∧ ¬(W / 1 % 4 = 0) ∧ ¬(W / 1 % 4 = 1) ∧ W / 1 % 4 = 2 ∧ W / 1048576 % 32 = t ∧ W / 4096 % 256 = b ∧ W / 16 % 256 = f ∧ W / 4 % 4 = k := by omega
  clear hw
  refine ⟨by omega, by omega, ?_⟩
  rw [matchRow_op112 h1, if_neg hn0, if_neg hn1, if_pos hc0, hf0, hf1, hf2, hf3]
  rfl

theorem Encoding.tst (t b : Nat) : Encoding.Statement (.tst t b) := by
  intro W hw hwf
  have hf := fieldsFit_of_wellFormed _ hwf
  change (Nat.blt t 32 && (Nat.blt b 256 && true)) = true at hf
  simp only [Bool.and_true, Bool.and_eq_true, Nat.blt_eq] at hf
  replace hw : 3791654896 + t * 1048576 + b * 4096 = W := Option.some.inj hw
  obtain ⟨h1, hc0, hf0, hf1⟩ : W / 33554432 = 113 ∧ W / 1 % 4096 = 4080 ∧ W / 1048576 % 32 = t ∧ W / 4096 % 256 = b := by omega
  clear hw
  refine ⟨by omega, by omega, ?_⟩
  rw [matchRow_op113 h1, if_pos hc0, hf0, hf1]
  rfl

theorem Encoding.mma (d a b x y c : Nat) : Encoding.Statement (.mma d a b x y c) := by
  intro W hw hwf
  have hf := fieldsFit_of_wellFormed _ hwf
  change (Nat.blt d 16 && (Nat.blt a 32 && (Nat.blt b 32 && (Nat.blt x 2 && (Nat.blt y 2 && (Nat.blt c 8 && true)))))) = true at hf
  simp only [Bool.and_true, Bool.and_eq_true, Nat.blt_eq] at hf
  replace hw : 3825205248 + d * 2097152 + a * 65536 + b * 2048 + x * 1024 + y * 512 + c * 64 = W := Option.some.inj hw
  obtain ⟨h1, hc0, hf0, hf1, hf2, hf3, hf4, hf5⟩ : W / 33554432 = 114 ∧ W / 1 % 64 = 0 ∧ W / 2097152 % 16 = d ∧ W / 65536 % 32 = a ∧ W / 2048 % 32 = b ∧ W / 1024 % 2 = x ∧ W / 512 % 2 = y ∧ W / 64 % 8 = c := by omega
  clear hw
  refine ⟨by omega, by omega, ?_⟩
  rw [matchRow_op114 h1, if_pos hc0, hf0, hf1, hf2, hf3, hf4, hf5]
  rfl

theorem Encoding.mmaZ (d a b x y c : Nat) : Encoding.Statement (.mmaZ d a b x y c) := by
  intro W hw hwf
  have hf := fieldsFit_of_wellFormed _ hwf
  change (Nat.blt d 16 && (Nat.blt a 32 && (Nat.blt b 32 && (Nat.blt x 2 && (Nat.blt y 2 && (Nat.blt c 8 && true)))))) = true at hf
  simp only [Bool.and_true, Bool.and_eq_true, Nat.blt_eq] at hf
  replace hw : 3825205249 + d * 2097152 + a * 65536 + b * 2048 + x * 1024 + y * 512 + c * 64 = W := Option.some.inj hw
  obtain ⟨h1, hn0, hc0, hf0, hf1, hf2, hf3, hf4, hf5⟩ : W / 33554432 = 114 ∧ ¬(W / 1 % 64 = 0) ∧ W / 1 % 64 = 1 ∧ W / 2097152 % 16 = d ∧ W / 65536 % 32 = a ∧ W / 2048 % 32 = b ∧ W / 1024 % 2 = x ∧ W / 512 % 2 = y ∧ W / 64 % 8 = c := by omega
  clear hw
  refine ⟨by omega, by omega, ?_⟩
  rw [matchRow_op114 h1, if_neg hn0, if_pos hc0, hf0, hf1, hf2, hf3, hf4, hf5]
  rfl

theorem Encoding.mmas (d a b n s : Nat) : Encoding.Statement (.mmas d a b n s) := by
  intro W hw hwf
  have hf := fieldsFit_of_wellFormed _ hwf
  change (Nat.blt d 16 && (Nat.blt a 32 && (Nat.blt b 32 && (Nat.blt n 8 && (Nat.blt s 256 && true))))) = true at hf
  simp only [Bool.and_true, Bool.and_eq_true, Nat.blt_eq] at hf
  replace hw : 3858759680 + d * 2097152 + a * 65536 + b * 2048 + n * 256 + s = W := Option.some.inj hw
  obtain ⟨h1, hf0, hf1, hf2, hf3, hf4⟩ : W / 33554432 = 115 ∧ W / 2097152 % 16 = d ∧ W / 65536 % 32 = a ∧ W / 2048 % 32 = b ∧ W / 256 % 8 = n ∧ W / 1 % 256 = s := by omega
  clear hw
  refine ⟨by omega, by omega, ?_⟩
  rw [matchRow_op115 h1, hf0, hf1, hf2, hf3, hf4]
  rfl

theorem Encoding.ardr (d x s : Nat) : Encoding.Statement (.ardr d x s) := by
  intro W hw hwf
  have hf := fieldsFit_of_wellFormed _ hwf
  change (Nat.blt d 128 && (Nat.blt x 32 && (Nat.blt s 256 && true))) = true at hf
  simp only [Bool.and_true, Bool.and_eq_true, Nat.blt_eq] at hf
  replace hw : 3892314112 + d * 262144 + x * 8192 + s * 32 = W := Option.some.inj hw
  obtain ⟨h1, hn0, hc0, hf0, hf1, hf2⟩ : W / 33554432 = 116 ∧ (¬(W / 1 % 8192 = 8 ∧ W / 262144 % 128 = 0)) ∧ W / 1 % 32 = 0 ∧ W / 262144 % 128 = d ∧ W / 8192 % 32 = x ∧ W / 32 % 256 = s := by omega
  clear hw
  refine ⟨by omega, by omega, ?_⟩
  rw [matchRow_op116 h1, if_neg hn0, if_pos hc0, hf0, hf1, hf2]
  rfl

theorem Encoding.ardc (d x s : Nat) : Encoding.Statement (.ardc d x s) := by
  intro W hw hwf
  have hf := fieldsFit_of_wellFormed _ hwf
  change (Nat.blt d 128 && (Nat.blt x 32 && (Nat.blt s 256 && true))) = true at hf
  simp only [Bool.and_true, Bool.and_eq_true, Nat.blt_eq] at hf
  replace hw : 3892314113 + d * 262144 + x * 8192 + s * 32 = W := Option.some.inj hw
  obtain ⟨h1, hn0, hn1, hc0, hf0, hf1, hf2⟩ : W / 33554432 = 116 ∧ (¬(W / 1 % 8192 = 8 ∧ W / 262144 % 128 = 0)) ∧ ¬(W / 1 % 32 = 0) ∧ W / 1 % 32 = 1 ∧ W / 262144 % 128 = d ∧ W / 8192 % 32 = x ∧ W / 32 % 256 = s := by omega
  clear hw
  refine ⟨by omega, by omega, ?_⟩
  rw [matchRow_op116 h1, if_neg hn0, if_neg hn1, if_pos hc0, hf0, hf1, hf2]
  rfl

theorem Encoding.awrr (d x s : Nat) : Encoding.Statement (.awrr d x s) := by
  intro W hw hwf
  have hf := fieldsFit_of_wellFormed _ hwf
  change (Nat.blt d 128 && (Nat.blt x 32 && (Nat.blt s 256 && true))) = true at hf
  simp only [Bool.and_true, Bool.and_eq_true, Nat.blt_eq] at hf
  replace hw : 3892314114 + d * 262144 + x * 8192 + s * 32 = W := Option.some.inj hw
  obtain ⟨h1, hn0, hn1, hn2, hc0, hf0, hf1, hf2⟩ : W / 33554432 = 116 ∧ (¬(W / 1 % 8192 = 8 ∧ W / 262144 % 128 = 0)) ∧ ¬(W / 1 % 32 = 0) ∧ ¬(W / 1 % 32 = 1) ∧ W / 1 % 32 = 2 ∧ W / 262144 % 128 = d ∧ W / 8192 % 32 = x ∧ W / 32 % 256 = s := by omega
  clear hw
  refine ⟨by omega, by omega, ?_⟩
  rw [matchRow_op116 h1, if_neg hn0, if_neg hn1, if_neg hn2, if_pos hc0, hf0, hf1, hf2]
  rfl

theorem Encoding.awrc (d x s : Nat) : Encoding.Statement (.awrc d x s) := by
  intro W hw hwf
  have hf := fieldsFit_of_wellFormed _ hwf
  change (Nat.blt d 128 && (Nat.blt x 32 && (Nat.blt s 256 && true))) = true at hf
  simp only [Bool.and_true, Bool.and_eq_true, Nat.blt_eq] at hf
  replace hw : 3892314115 + d * 262144 + x * 8192 + s * 32 = W := Option.some.inj hw
  obtain ⟨h1, hn0, hn1, hn2, hn3, hc0, hf0, hf1, hf2⟩ : W / 33554432 = 116 ∧ (¬(W / 1 % 8192 = 8 ∧ W / 262144 % 128 = 0)) ∧ ¬(W / 1 % 32 = 0) ∧ ¬(W / 1 % 32 = 1) ∧ ¬(W / 1 % 32 = 2) ∧ W / 1 % 32 = 3 ∧ W / 262144 % 128 = d ∧ W / 8192 % 32 = x ∧ W / 32 % 256 = s := by omega
  clear hw
  refine ⟨by omega, by omega, ?_⟩
  rw [matchRow_op116 h1, if_neg hn0, if_neg hn1, if_neg hn2, if_neg hn3, if_pos hc0, hf0, hf1, hf2]
  rfl

theorem Encoding.trdr (d x s : Nat) : Encoding.Statement (.trdr d x s) := by
  intro W hw hwf
  have hf := fieldsFit_of_wellFormed _ hwf
  change (Nat.blt d 128 && (Nat.blt x 32 && (Nat.blt s 256 && true))) = true at hf
  simp only [Bool.and_true, Bool.and_eq_true, Nat.blt_eq] at hf
  replace hw : 3892314116 + d * 262144 + x * 8192 + s * 32 = W := Option.some.inj hw
  obtain ⟨h1, hn0, hn1, hn2, hn3, hn4, hc0, hf0, hf1, hf2⟩ : W / 33554432 = 116 ∧ (¬(W / 1 % 8192 = 8 ∧ W / 262144 % 128 = 0)) ∧ ¬(W / 1 % 32 = 0) ∧ ¬(W / 1 % 32 = 1) ∧ ¬(W / 1 % 32 = 2) ∧ ¬(W / 1 % 32 = 3) ∧ W / 1 % 32 = 4 ∧ W / 262144 % 128 = d ∧ W / 8192 % 32 = x ∧ W / 32 % 256 = s := by omega
  clear hw
  refine ⟨by omega, by omega, ?_⟩
  rw [matchRow_op116 h1, if_neg hn0, if_neg hn1, if_neg hn2, if_neg hn3, if_neg hn4, if_pos hc0, hf0, hf1, hf2]
  rfl

theorem Encoding.trdc (d x s : Nat) : Encoding.Statement (.trdc d x s) := by
  intro W hw hwf
  have hf := fieldsFit_of_wellFormed _ hwf
  change (Nat.blt d 128 && (Nat.blt x 32 && (Nat.blt s 256 && true))) = true at hf
  simp only [Bool.and_true, Bool.and_eq_true, Nat.blt_eq] at hf
  replace hw : 3892314117 + d * 262144 + x * 8192 + s * 32 = W := Option.some.inj hw
  obtain ⟨h1, hn0, hn1, hn2, hn3, hn4, hn5, hc0, hf0, hf1, hf2⟩ : W / 33554432 = 116 ∧ (¬(W / 1 % 8192 = 8 ∧ W / 262144 % 128 = 0)) ∧ ¬(W / 1 % 32 = 0) ∧ ¬(W / 1 % 32 = 1) ∧ ¬(W / 1 % 32 = 2) ∧ ¬(W / 1 % 32 = 3) ∧ ¬(W / 1 % 32 = 4) ∧ W / 1 % 32 = 5 ∧ W / 262144 % 128 = d ∧ W / 8192 % 32 = x ∧ W / 32 % 256 = s := by omega
  clear hw
  refine ⟨by omega, by omega, ?_⟩
  rw [matchRow_op116 h1, if_neg hn0, if_neg hn1, if_neg hn2, if_neg hn3, if_neg hn4, if_neg hn5, if_pos hc0, hf0, hf1, hf2]
  rfl

theorem Encoding.twrr (d x s : Nat) : Encoding.Statement (.twrr d x s) := by
  intro W hw hwf
  have hf := fieldsFit_of_wellFormed _ hwf
  change (Nat.blt d 128 && (Nat.blt x 32 && (Nat.blt s 256 && true))) = true at hf
  simp only [Bool.and_true, Bool.and_eq_true, Nat.blt_eq] at hf
  replace hw : 3892314118 + d * 262144 + x * 8192 + s * 32 = W := Option.some.inj hw
  obtain ⟨h1, hn0, hn1, hn2, hn3, hn4, hn5, hn6, hc0, hf0, hf1, hf2⟩ : W / 33554432 = 116 ∧ (¬(W / 1 % 8192 = 8 ∧ W / 262144 % 128 = 0)) ∧ ¬(W / 1 % 32 = 0) ∧ ¬(W / 1 % 32 = 1) ∧ ¬(W / 1 % 32 = 2) ∧ ¬(W / 1 % 32 = 3) ∧ ¬(W / 1 % 32 = 4) ∧ ¬(W / 1 % 32 = 5) ∧ W / 1 % 32 = 6 ∧ W / 262144 % 128 = d ∧ W / 8192 % 32 = x ∧ W / 32 % 256 = s := by omega
  clear hw
  refine ⟨by omega, by omega, ?_⟩
  rw [matchRow_op116 h1, if_neg hn0, if_neg hn1, if_neg hn2, if_neg hn3, if_neg hn4, if_neg hn5, if_neg hn6, if_pos hc0, hf0, hf1, hf2]
  rfl

theorem Encoding.twrc (d x s : Nat) : Encoding.Statement (.twrc d x s) := by
  intro W hw hwf
  have hf := fieldsFit_of_wellFormed _ hwf
  change (Nat.blt d 128 && (Nat.blt x 32 && (Nat.blt s 256 && true))) = true at hf
  simp only [Bool.and_true, Bool.and_eq_true, Nat.blt_eq] at hf
  replace hw : 3892314119 + d * 262144 + x * 8192 + s * 32 = W := Option.some.inj hw
  obtain ⟨h1, hn0, hn1, hn2, hn3, hn4, hn5, hn6, hn7, hc0, hf0, hf1, hf2⟩ : W / 33554432 = 116 ∧ (¬(W / 1 % 8192 = 8 ∧ W / 262144 % 128 = 0)) ∧ ¬(W / 1 % 32 = 0) ∧ ¬(W / 1 % 32 = 1) ∧ ¬(W / 1 % 32 = 2) ∧ ¬(W / 1 % 32 = 3) ∧ ¬(W / 1 % 32 = 4) ∧ ¬(W / 1 % 32 = 5) ∧ ¬(W / 1 % 32 = 6) ∧ W / 1 % 32 = 7 ∧ W / 262144 % 128 = d ∧ W / 8192 % 32 = x ∧ W / 32 % 256 = s := by omega
  clear hw
  refine ⟨by omega, by omega, ?_⟩
  rw [matchRow_op116 h1, if_neg hn0, if_neg hn1, if_neg hn2, if_neg hn3, if_neg hn4, if_neg hn5, if_neg hn6, if_neg hn7, if_pos hc0, hf0, hf1, hf2]
  rfl

theorem Encoding.azero (x : Nat) : Encoding.Statement (.azero x) := by
  intro W hw hwf
  have hf := fieldsFit_of_wellFormed _ hwf
  change (Nat.blt x 32 && true) = true at hf
  simp only [Bool.and_true, Nat.blt_eq] at hf
  replace hw : 3892314120 + x * 8192 = W := Option.some.inj hw
  obtain ⟨h1, hc0, hf0⟩ : W / 33554432 = 116 ∧ (W / 1 % 8192 = 8 ∧ W / 262144 % 128 = 0) ∧ W / 8192 % 32 = x := by omega
  clear hw
  refine ⟨by omega, by omega, ?_⟩
  rw [matchRow_op116 h1, if_pos hc0, hf0]
  rfl

theorem Encoding.aqnt (a b f r q : Nat) : Encoding.Statement (.aqnt a b f r q) := by
  intro W hw hwf
  have hf := fieldsFit_of_wellFormed _ hwf
  change (Nat.blt a 16 && (Nat.blt b 256 && (Nat.blt f 256 && (Nat.blt r 2 && (Nat.blt q 4 && true))))) = true at hf
  simp only [Bool.and_true, Bool.and_eq_true, Nat.blt_eq] at hf
  replace hw : 3925868544 + a * 2097152 + b * 8192 + f * 32 + r * 4 + q = W := Option.some.inj hw
  obtain ⟨h1, hc0, hf0, hf1, hf2, hf3, hf4⟩ : W / 33554432 = 117 ∧ W / 8 % 4 = 0 ∧ W / 2097152 % 16 = a ∧ W / 8192 % 256 = b ∧ W / 32 % 256 = f ∧ W / 4 % 2 = r ∧ W / 1 % 4 = q := by omega
  clear hw
  refine ⟨by omega, by omega, ?_⟩
  rw [matchRow_op117 h1, if_pos hc0, hf0, hf1, hf2, hf3, hf4]
  rfl

theorem Encoding.tinfo (d w s : Nat) : Encoding.Statement (.tinfo d w s) := by
  intro W hw hwf
  have hf := fieldsFit_of_wellFormed _ hwf
  change (Nat.blt d 256 && (Nat.blt w 8 && (Nat.blt s 32 && true))) = true at hf
  simp only [Bool.and_true, Bool.and_eq_true, Nat.blt_eq] at hf
  replace hw : 3959422976 + d * 131072 + w * 32 + s = W := Option.some.inj hw
  obtain ⟨h1, hc0, hf0, hf1, hf2⟩ : W / 33554432 = 118 ∧ W / 256 % 512 = 0 ∧ W / 131072 % 256 = d ∧ W / 32 % 8 = w ∧ W / 1 % 32 = s := by omega
  clear hw
  refine ⟨by omega, by omega, ?_⟩
  rw [matchRow_op118 h1, if_pos hc0, hf0, hf1, hf2]
  rfl

theorem Encoding.xcpy (a b c : Nat) : Encoding.Statement (.xcpy a b c) := by
  intro W hw hwf
  have hf := fieldsFit_of_wellFormed _ hwf
  change (Nat.blt a 256 && (Nat.blt b 256 && (Nat.blt c 256 && true))) = true at hf
  simp only [Bool.and_true, Bool.and_eq_true, Nat.blt_eq] at hf
  replace hw : 3992977408 + a * 131072 + b * 512 + c * 2 = W := Option.some.inj hw
  obtain ⟨h1, hc0, hf0, hf1, hf2⟩ : W / 33554432 = 119 ∧ W / 1 % 2 = 0 ∧ W / 131072 % 256 = a ∧ W / 512 % 256 = b ∧ W / 2 % 256 = c := by omega
  clear hw
  refine ⟨by omega, by omega, ?_⟩
  rw [matchRow_op119 h1, if_pos hc0, hf0, hf1, hf2]
  rfl

theorem Encoding.xcpyPair (a b c : Nat) : Encoding.Statement (.xcpyPair a b c) := by
  intro W hw hwf
  have hf := fieldsFit_of_wellFormed _ hwf
  change (Nat.blt a 256 && (Nat.blt b 256 && (Nat.blt c 256 && true))) = true at hf
  simp only [Bool.and_true, Bool.and_eq_true, Nat.blt_eq] at hf
  replace hw : 3992977409 + a * 131072 + b * 512 + c * 2 = W := Option.some.inj hw
  obtain ⟨h1, hn0, hc0, hf0, hf1, hf2⟩ : W / 33554432 = 119 ∧ ¬(W / 1 % 2 = 0) ∧ W / 1 % 2 = 1 ∧ W / 131072 % 256 = a ∧ W / 512 % 256 = b ∧ W / 2 % 256 = c := by omega
  clear hw
  refine ⟨by omega, by omega, ?_⟩
  rw [matchRow_op119 h1, if_neg hn0, if_pos hc0, hf0, hf1, hf2]
  rfl

theorem Encoding.xgath (a b c : Nat) : Encoding.Statement (.xgath a b c) := by
  intro W hw hwf
  have hf := fieldsFit_of_wellFormed _ hwf
  change (Nat.blt a 256 && (Nat.blt b 256 && (Nat.blt c 256 && true))) = true at hf
  simp only [Bool.and_true, Bool.and_eq_true, Nat.blt_eq] at hf
  replace hw : 4026531840 + a * 131072 + b * 512 + c * 2 = W := Option.some.inj hw
  obtain ⟨h1, hc0, hf0, hf1, hf2⟩ : W / 33554432 = 120 ∧ W / 1 % 2 = 0 ∧ W / 131072 % 256 = a ∧ W / 512 % 256 = b ∧ W / 2 % 256 = c := by omega
  clear hw
  refine ⟨by omega, by omega, ?_⟩
  rw [matchRow_op120 h1, if_pos hc0, hf0, hf1, hf2]
  rfl

theorem Encoding.xscat (a b c : Nat) : Encoding.Statement (.xscat a b c) := by
  intro W hw hwf
  have hf := fieldsFit_of_wellFormed _ hwf
  change (Nat.blt a 256 && (Nat.blt b 256 && (Nat.blt c 256 && true))) = true at hf
  simp only [Bool.and_true, Bool.and_eq_true, Nat.blt_eq] at hf
  replace hw : 4060086272 + a * 131072 + b * 512 + c * 2 = W := Option.some.inj hw
  obtain ⟨h1, hc0, hf0, hf1, hf2⟩ : W / 33554432 = 121 ∧ W / 1 % 2 = 0 ∧ W / 131072 % 256 = a ∧ W / 512 % 256 = b ∧ W / 2 % 256 = c := by omega
  clear hw
  refine ⟨by omega, by omega, ?_⟩
  rw [matchRow_op121 h1, if_pos hc0, hf0, hf1, hf2]
  rfl

theorem Encoding.xpub (a s c : Nat) : Encoding.Statement (.xpub a s c) := by
  intro W hw hwf
  have hf := fieldsFit_of_wellFormed _ hwf
  change (Nat.blt a 256 && (Nat.blt s 8 && (Nat.blt c 256 && true))) = true at hf
  simp only [Bool.and_true, Bool.and_eq_true, Nat.blt_eq] at hf
  replace hw : 4093640704 + a * 131072 + s * 512 + c * 2 = W := Option.some.inj hw
  obtain ⟨h1, hc0, hf0, hf1, hf2⟩ : W / 33554432 = 122 ∧ (W / 1 % 2 = 0 ∧ W / 4096 % 32 = 0) ∧ W / 131072 % 256 = a ∧ W / 512 % 8 = s ∧ W / 2 % 256 = c := by omega
  clear hw
  refine ⟨by omega, by omega, ?_⟩
  rw [matchRow_op122 h1, if_pos hc0, hf0, hf1, hf2]
  rfl

theorem Encoding.xpubSync (a s c : Nat) : Encoding.Statement (.xpubSync a s c) := by
  intro W hw hwf
  have hf := fieldsFit_of_wellFormed _ hwf
  change (Nat.blt a 256 && (Nat.blt s 8 && (Nat.blt c 256 && true))) = true at hf
  simp only [Bool.and_true, Bool.and_eq_true, Nat.blt_eq] at hf
  replace hw : 4093640705 + a * 131072 + s * 512 + c * 2 = W := Option.some.inj hw
  obtain ⟨h1, hn0, hc0, hf0, hf1, hf2⟩ : W / 33554432 = 122 ∧ (¬(W / 1 % 2 = 0 ∧ W / 4096 % 32 = 0)) ∧ (W / 1 % 2 = 1 ∧ W / 4096 % 32 = 0) ∧ W / 131072 % 256 = a ∧ W / 512 % 8 = s ∧ W / 2 % 256 = c := by omega
  clear hw
  refine ⟨by omega, by omega, ?_⟩
  rw [matchRow_op122 h1, if_neg hn0, if_pos hc0, hf0, hf1, hf2]
  rfl

theorem Encoding.xwait (a b c : Nat) : Encoding.Statement (.xwait a b c) := by
  intro W hw hwf
  have hf := fieldsFit_of_wellFormed _ hwf
  change (Nat.blt a 256 && (Nat.blt b 256 && (Nat.blt c 256 && true))) = true at hf
  simp only [Bool.and_true, Bool.and_eq_true, Nat.blt_eq] at hf
  replace hw : 4127195136 + a * 131072 + b * 512 + c * 2 = W := Option.some.inj hw
  obtain ⟨h1, hc0, hf0, hf1, hf2⟩ : W / 33554432 = 123 ∧ W / 1 % 2 = 0 ∧ W / 131072 % 256 = a ∧ W / 512 % 256 = b ∧ W / 2 % 256 = c := by omega
  clear hw
  refine ⟨by omega, by omega, ?_⟩
  rw [matchRow_op123 h1, if_pos hc0, hf0, hf1, hf2]
  rfl

theorem Encoding.xwaitTest (a b c : Nat) : Encoding.Statement (.xwaitTest a b c) := by
  intro W hw hwf
  have hf := fieldsFit_of_wellFormed _ hwf
  change (Nat.blt a 256 && (Nat.blt b 256 && (Nat.blt c 256 && true))) = true at hf
  simp only [Bool.and_true, Bool.and_eq_true, Nat.blt_eq] at hf
  replace hw : 4127195137 + a * 131072 + b * 512 + c * 2 = W := Option.some.inj hw
  obtain ⟨h1, hn0, hc0, hf0, hf1, hf2⟩ : W / 33554432 = 123 ∧ ¬(W / 1 % 2 = 0) ∧ W / 1 % 2 = 1 ∧ W / 131072 % 256 = a ∧ W / 512 % 256 = b ∧ W / 2 % 256 = c := by omega
  clear hw
  refine ⟨by omega, by omega, ?_⟩
  rw [matchRow_op123 h1, if_neg hn0, if_pos hc0, hf0, hf1, hf2]
  rfl

theorem Encoding.nsend (a b c : Nat) : Encoding.Statement (.nsend a b c) := by
  intro W hw hwf
  have hf := fieldsFit_of_wellFormed _ hwf
  change (Nat.blt a 256 && (Nat.blt b 256 && (Nat.blt c 256 && true))) = true at hf
  simp only [Bool.and_true, Bool.and_eq_true, Nat.blt_eq] at hf
  replace hw : 4160749568 + a * 131072 + b * 512 + c * 2 = W := Option.some.inj hw
  obtain ⟨h1, hn0, hc0, hf0, hf1, hf2⟩ : W / 33554432 = 124 ∧ (¬(W / 1 % 2 = 1 ∧ W / 16777216 % 2 = 0)) ∧ W / 1 % 2 = 0 ∧ W / 131072 % 256 = a ∧ W / 512 % 256 = b ∧ W / 2 % 256 = c := by omega
  clear hw
  refine ⟨by omega, by omega, ?_⟩
  rw [matchRow_op124 h1, if_neg hn0, if_pos hc0, hf0, hf1, hf2]
  rfl

theorem Encoding.nsendImm (v b c : Nat) : Encoding.Statement (.nsendImm v b c) := by
  intro W hw hwf
  have hf := fieldsFit_of_wellFormed _ hwf
  change (Nat.blt v 128 && (Nat.blt b 256 && (Nat.blt c 256 && true))) = true at hf
  simp only [Bool.and_true, Bool.and_eq_true, Nat.blt_eq] at hf
  replace hw : 4160749569 + v * 131072 + b * 512 + c * 2 = W := Option.some.inj hw
  obtain ⟨h1, hc0, hf0, hf1, hf2⟩ : W / 33554432 = 124 ∧ (W / 1 % 2 = 1 ∧ W / 16777216 % 2 = 0) ∧ W / 131072 % 128 = v ∧ W / 512 % 256 = b ∧ W / 2 % 256 = c := by omega
  clear hw
  refine ⟨by omega, by omega, ?_⟩
  rw [matchRow_op124 h1, if_pos hc0, hf0, hf1, hf2]
  rfl

theorem Encoding.tsend (a b c : Nat) : Encoding.Statement (.tsend a b c) := by
  intro W hw hwf
  have hf := fieldsFit_of_wellFormed _ hwf
  change (Nat.blt a 256 && (Nat.blt b 256 && (Nat.blt c 256 && true))) = true at hf
  simp only [Bool.and_true, Bool.and_eq_true, Nat.blt_eq] at hf
  replace hw : 4194304000 + a * 131072 + b * 512 + c * 2 = W := Option.some.inj hw
  obtain ⟨h1, hc0, hf0, hf1, hf2⟩ : W / 33554432 = 125 ∧ W / 1 % 2 = 0 ∧ W / 131072 % 256 = a ∧ W / 512 % 256 = b ∧ W / 2 % 256 = c := by omega
  clear hw
  refine ⟨by omega, by omega, ?_⟩
  rw [matchRow_op125 h1, if_pos hc0, hf0, hf1, hf2]
  rfl

theorem Encoding.cred (a b c : Nat) : Encoding.Statement (.cred a b c) := by
  intro W hw hwf
  have hf := fieldsFit_of_wellFormed _ hwf
  change (Nat.blt a 256 && (Nat.blt b 256 && (Nat.blt c 256 && true))) = true at hf
  simp only [Bool.and_true, Bool.and_eq_true, Nat.blt_eq] at hf
  replace hw : 4227858432 + a * 131072 + b * 512 + c * 2 = W := Option.some.inj hw
  obtain ⟨h1, hn0, hc0, hf0, hf1, hf2⟩ : W / 33554432 = 126 ∧ (¬(W / 1 % 2 = 1 ∧ W / 512 % 256 = 0)) ∧ W / 1 % 2 = 0 ∧ W / 131072 % 256 = a ∧ W / 512 % 256 = b ∧ W / 2 % 256 = c := by omega
  clear hw
  refine ⟨by omega, by omega, ?_⟩
  rw [matchRow_op126 h1, if_neg hn0, if_pos hc0, hf0, hf1, hf2]
  rfl

theorem Encoding.xflush (a c : Nat) : Encoding.Statement (.xflush a c) := by
  intro W hw hwf
  have hf := fieldsFit_of_wellFormed _ hwf
  change (Nat.blt a 256 && (Nat.blt c 256 && true)) = true at hf
  simp only [Bool.and_true, Bool.and_eq_true, Nat.blt_eq] at hf
  replace hw : 4227858433 + a * 131072 + c * 2 = W := Option.some.inj hw
  obtain ⟨h1, hc0, hf0, hf1⟩ : W / 33554432 = 126 ∧ (W / 1 % 2 = 1 ∧ W / 512 % 256 = 0) ∧ W / 131072 % 256 = a ∧ W / 2 % 256 = c := by omega
  clear hw
  refine ⟨by omega, by omega, ?_⟩
  rw [matchRow_op126 h1, if_pos hc0, hf0, hf1]
  rfl

theorem Encoding.prefixedInstruction (p : Prefix) (i : Instr) : Encoding.Statement (.prefixedInstruction p i) :=
  fun _ hw => nomatch hw

theorem Encoding.ill : Encoding.Statement .ill := by
  intro W hw hwf
  clear hwf
  replace hw : 0 = W := Option.some.inj hw
  exact hw ▸ ⟨by decide, by decide, rfl⟩

theorem Encoding.nop : Encoding.Statement .nop := by
  intro W hw hwf
  clear hwf
  replace hw : 1048576 = W := Option.some.inj hw
  exact hw ▸ ⟨by decide, by decide, rfl⟩

theorem Encoding.exit : Encoding.Statement .exit := by
  intro W hw hwf
  clear hwf
  replace hw : 2097152 = W := Option.some.inj hw
  exact hw ▸ ⟨by decide, by decide, rfl⟩

theorem Encoding.texit : Encoding.Statement .texit := by
  intro W hw hwf
  clear hwf
  replace hw : 3145728 = W := Option.some.inj hw
  exact hw ▸ ⟨by decide, by decide, rfl⟩

theorem Encoding.refill : Encoding.Statement .refill := by
  intro W hw hwf
  clear hwf
  replace hw : 4194304 = W := Option.some.inj hw
  exact hw ▸ ⟨by decide, by decide, rfl⟩

theorem Encoding.join : Encoding.Statement .join := by
  intro W hw hwf
  clear hwf
  replace hw : 5242880 = W := Option.some.inj hw
  exact hw ▸ ⟨by decide, by decide, rfl⟩

theorem Encoding.disb : Encoding.Statement .disb := by
  intro W hw hwf
  clear hwf
  replace hw : 6291456 = W := Option.some.inj hw
  exact hw ▸ ⟨by decide, by decide, rfl⟩

theorem Encoding.ret : Encoding.Statement .ret := by
  intro W hw hwf
  clear hwf
  replace hw : 7340032 = W := Option.some.inj hw
  exact hw ▸ ⟨by decide, by decide, rfl⟩

theorem Encoding.uret : Encoding.Statement .uret := by
  intro W hw hwf
  clear hwf
  replace hw : 8388608 = W := Option.some.inj hw
  exact hw ▸ ⟨by decide, by decide, rfl⟩

theorem Encoding.tret : Encoding.Statement .tret := by
  intro W hw hwf
  clear hwf
  replace hw : 9437184 = W := Option.some.inj hw
  exact hw ▸ ⟨by decide, by decide, rfl⟩

theorem Encoding.haltc : Encoding.Statement .haltc := by
  intro W hw hwf
  clear hwf
  replace hw : 10485760 = W := Option.some.inj hw
  exact hw ▸ ⟨by decide, by decide, rfl⟩

theorem Encoding.cctlL1all : Encoding.Statement .cctlL1all := by
  intro W hw hwf
  clear hwf
  replace hw : 2617245698 = W := Option.some.inj hw
  exact hw ▸ ⟨by decide, by decide, rfl⟩

theorem Encoding.ejectRecordWrite : Encoding.Statement .ejectRecordWrite := fun _ hw => nomatch hw

theorem Encoding.claimGrant : Encoding.Statement .claimGrant := fun _ hw => nomatch hw

theorem Encoding.loadDataReturn : Encoding.Statement .loadDataReturn := fun _ hw => nomatch hw

theorem Encoding.matrixStepDone : Encoding.Statement .matrixStepDone := fun _ hw => nomatch hw

theorem Encoding.spillAhead : Encoding.Statement .spillAhead := fun _ hw => nomatch hw

theorem Encoding.engineCommandStart : Encoding.Statement .engineCommandStart := fun _ hw => nomatch hw

theorem Encoding.engineCommandComplete : Encoding.Statement .engineCommandComplete := fun _ hw => nomatch hw

theorem Encoding.engineSuspend : Encoding.Statement .engineSuspend := fun _ hw => nomatch hw

theorem Encoding.faultRecordWrite : Encoding.Statement .faultRecordWrite := fun _ hw => nomatch hw

theorem Encoding.handlerLaunch : Encoding.Statement .handlerLaunch := fun _ hw => nomatch hw

theorem Encoding.yieldOverrun : Encoding.Statement .yieldOverrun := fun _ hw => nomatch hw

theorem Encoding.barrierTimeout : Encoding.Statement .barrierTimeout := fun _ hw => nomatch hw

theorem Encoding.blockPlace : Encoding.Statement .blockPlace := fun _ hw => nomatch hw

theorem Encoding.clusterPlace : Encoding.Statement .clusterPlace := fun _ hw => nomatch hw

theorem Encoding.blockRelease : Encoding.Statement .blockRelease := fun _ hw => nomatch hw

theorem Encoding.placementStarvation : Encoding.Statement .placementStarvation := fun _ hw => nomatch hw

theorem Encoding.launchComplete : Encoding.Statement .launchComplete := fun _ hw => nomatch hw

theorem Encoding.doorbellWrite : Encoding.Statement .doorbellWrite := fun _ hw => nomatch hw

theorem Encoding.launch : Encoding.Statement .launch := fun _ hw => nomatch hw

theorem Encoding.tapePop : Encoding.Statement .tapePop := fun _ hw => nomatch hw

theorem Encoding.graph : Encoding.Statement .graph := fun _ hw => nomatch hw

theorem Encoding.tableLoad : Encoding.Statement .tableLoad := fun _ hw => nomatch hw

theorem Encoding.tableDisable : Encoding.Statement .tableDisable := fun _ hw => nomatch hw

theorem Encoding.copy : Encoding.Statement .copy := fun _ hw => nomatch hw

theorem Encoding.signalSet : Encoding.Statement .signalSet := fun _ hw => nomatch hw

theorem Encoding.signalAdd : Encoding.Statement .signalAdd := fun _ hw => nomatch hw

theorem Encoding.signalWait : Encoding.Statement .signalWait := fun _ hw => nomatch hw

theorem Encoding.signalStore : Encoding.Statement .signalStore := fun _ hw => nomatch hw

theorem Encoding.regionCreate : Encoding.Statement .regionCreate := fun _ hw => nomatch hw

theorem Encoding.regionModify : Encoding.Statement .regionModify := fun _ hw => nomatch hw

theorem Encoding.regionDestroy : Encoding.Statement .regionDestroy := fun _ hw => nomatch hw

theorem Encoding.regionBind : Encoding.Statement .regionBind := fun _ hw => nomatch hw

theorem Encoding.tableFiring : Encoding.Statement .tableFiring := fun _ hw => nomatch hw

theorem Encoding.teamResume : Encoding.Statement .teamResume := fun _ hw => nomatch hw

theorem Encoding.leaveWindow : Encoding.Statement .leaveWindow := fun _ hw => nomatch hw

theorem Encoding.coreGroupSwapOut : Encoding.Statement .coreGroupSwapOut := fun _ hw => nomatch hw

theorem Encoding.coreGroupSwapIn : Encoding.Statement .coreGroupSwapIn := fun _ hw => nomatch hw

theorem Encoding.haltRelease : Encoding.Statement .haltRelease := fun _ hw => nomatch hw

theorem Encoding.storageError : Encoding.Statement .storageError := fun _ hw => nomatch hw

theorem Encoding.publishEntryStore : Encoding.Statement .publishEntryStore := fun _ hw => nomatch hw

theorem Encoding.hostRdmaWrite : Encoding.Statement .hostRdmaWrite := fun _ hw => nomatch hw

theorem Encoding.hostRdmaRead : Encoding.Statement .hostRdmaRead := fun _ hw => nomatch hw

theorem Encoding.remoteWriteUnit : Encoding.Statement .remoteWriteUnit := fun _ hw => nomatch hw

theorem Encoding.remoteRead : Encoding.Statement .remoteRead := fun _ hw => nomatch hw

theorem Encoding.remoteIncrement : Encoding.Statement .remoteIncrement := fun _ hw => nomatch hw

theorem Encoding.peerRefusal : Encoding.Statement .peerRefusal := fun _ hw => nomatch hw

theorem Encoding.flushMarker : Encoding.Statement .flushMarker := fun _ hw => nomatch hw

theorem Encoding.flushAck : Encoding.Statement .flushAck := fun _ hw => nomatch hw

theorem Encoding.pathDown : Encoding.Statement .pathDown := fun _ hw => nomatch hw

theorem Encoding.peerPathLoss : Encoding.Statement .peerPathLoss := fun _ hw => nomatch hw

theorem Encoding.portTraining : Encoding.Statement .portTraining := fun _ hw => nomatch hw

theorem Encoding.ptpMessage : Encoding.Statement .ptpMessage := fun _ hw => nomatch hw

theorem Encoding.powerOnReset : Encoding.Statement .powerOnReset := fun _ hw => nomatch hw

theorem Encoding.resetRequest : Encoding.Statement .resetRequest := fun _ hw => nomatch hw

theorem Encoding.floorCommand : Encoding.Statement .floorCommand := fun _ hw => nomatch hw

theorem Encoding.firmwareUpdate : Encoding.Statement .firmwareUpdate := fun _ hw => nomatch hw

theorem Encoding.attestationRequest : Encoding.Statement .attestationRequest := fun _ hw => nomatch hw

theorem Encoding.eventLogRead : Encoding.Statement .eventLogRead := fun _ hw => nomatch hw

theorem Encoding.counterProgram : Encoding.Statement .counterProgram := fun _ hw => nomatch hw

theorem Encoding.counterRead : Encoding.Statement .counterRead := fun _ hw => nomatch hw

theorem Encoding.sensorPoll : Encoding.Statement .sensorPoll := fun _ hw => nomatch hw

theorem Encoding.spillTransferComplete : Encoding.Statement .spillTransferComplete := fun _ hw => nomatch hw

theorem Encoding.tileTransferComplete : Encoding.Statement .tileTransferComplete := fun _ hw => nomatch hw

theorem Encoding.publishSyncCopy : Encoding.Statement .publishSyncCopy := fun _ hw => nomatch hw

end Sys2Proof.Laws
end

