-- ==== Sys2Proof/Tests/Slice0.lean ====
section
/-!
SUPPORT. The model's own tests: terms that WellFormed refuses, words of the encoding tables, one witness for each
obligation that has hypotheses, and single steps whose results were worked out from the rules by hand.
-/
set_option maxRecDepth 100000
set_option exponentiation.threshold 1100

namespace Sys2Proof.Tests

open Sys2Proof.Machine

/-! ### A term that each check of WellFormed refuses -/

theorem smoke_fieldWidth : (Instr.vadd 128 0 0).illForm = some .fieldWidth := by decide
theorem smoke_badUniform : (Instr.sadd 192 0 0).illForm = some .badUniform
  ∧ (Instr.sadd 191 255 0).illForm = none := by decide
theorem smoke_reservedCode : (Instr.vred 1 2 7).illForm = some .reservedCode := by decide
theorem smoke_reservedSlide : (Instr.call 15 0).illForm = some .reservedSlide := by decide
theorem smoke_badConvocation : (Instr.conv 0 1 0).illForm = some .badConvocation := by decide
theorem smoke_badFrame : (Instr.enter 124).illForm = some .badFrame := by decide
theorem smoke_badRange : (Instr.pushm 180 16).illForm = some .badRange := by decide
theorem smoke_badSpecial : (Instr.srd 20 13).illForm = some .badSpecial := by decide
theorem smoke_oddPair : (Instr.vld64 3 0 0 0 0).illForm = some .oddPair := by decide
theorem smoke_badCount : (Instr.tclm 20 0 0).illForm = some .badCount := by decide
theorem smoke_badTileName : (Instr.ardr 0 16 0).illForm = some .badTileName := by decide
theorem smoke_prefixField : (Instr.prefixedInstruction ⟨17, 0, 0, 0, 0, 0, 0⟩ (.vadd 1 2 3)).illForm = some .prefixField := by decide
theorem smoke_prefixMisplaced : (Instr.prefixedInstruction ⟨16, 0, 0, 0, 0, 0, 0⟩ (.sadd 1 2 3)).illForm = some .prefixMisplaced := by
  decide
theorem smoke_prefixClash : (Instr.prefixedInstruction ⟨16, 0, 0, 5, 0, 0, 0⟩ (.vadd 1 2 3)).illForm = some .prefixClash := by decide

/-! ### Words of the encoding tables, one for each row, and the words that the spec writes out -/

/-- Worked words of the chapters on fences, vectors, memory, the matrix units and the engines. -/
theorem test_decode_worked_words :
    decodeWord 0x08000004 = .ok (.fenceRel 4) ∧ decodeWord 0x0800000C = .ok (.fenceAcq 4)
      ∧ decodeWord 0x08000015 = .ok (.fenceAr 5)
    ∧ decodeWord 0xAC244883 = .ok (.vsrai 9 9 3) ∧ decodeWord 0xAE2407FF = .ok (.vmovi 9 0x7FF)
    ∧ decodeWord 0xB2245030 = .ok (.vcvt 9 10 3)
    ∧ decodeWord 0xB42400A5 = .ok (.vbcast 9 20) ∧ decodeWord 0xB6424510 = .ok (.vcmp 2 9 10 2 0)
    ∧ decodeWord 0xBC624000 = .ok (.pand 3 1 2)
    ∧ decodeWord 0xBE2450B0 = .ok (.vshfl 9 10 11) ∧ decodeWord 0xC00048A0 = .ok (.vred 9 20 0)
    ∧ decodeWord 0xC40028A2 = .ok (.vball 0 5 20 2)
    ∧ decodeWord 0xC63048A0 = .ok (.vnzs 12 9 20 0) ∧ decodeWord 0xCA004837 = .ok (.vhist 9 3)
    ∧ decodeWord 0x7E504162 = .ok (.vld32 20 4 11 1 0)
    ∧ decodeWord 0x8C607041 = .ok (.vstb 24 7 2 0 1) ∧ decodeWord 0x8E304A00 = .ok (.vatom 12 9 2 0 0)
    ∧ decodeWord 0x90282A10 = .ok (.satom 20 21 0 1 0)
    ∧ decodeWord 0x94282A06 = .ok (.spcast 20 21 0 3) ∧ decodeWord 0x9A020820 = .ok (.prefL2 4 2)
    ∧ decodeWord 0x3428CE00 = .ok (.pbwait 20 6 14)
    ∧ decodeWord 0xDA000080 = .ok (.trel 4 0) ∧ decodeWord 0xE0115035 = .ok (.tldDec 1 21 3 1)
    ∧ decodeWord 0xE2116FF0 = .ok (.tst 1 22)
    ∧ decodeWord 0xE6004314 = .ok (.mmas 0 0 8 3 20) ∧ decodeWord 0xE85020A0 = .ok (.ardr 20 1 5)
    ∧ decodeWord 0xEA028065 = .ok (.aqnt 0 20 3 1 1)
    ∧ decodeWord 0xEC280021 = .ok (.tinfo 20 1 1) ∧ decodeWord 0xEE282A31 = .ok (.xcpyPair 20 21 24)
    ∧ decodeWord 0xF428082D = .ok (.xpubSync 20 4 22)
    ∧ decodeWord 0xF8182A2D = .ok (.nsendImm 12 21 22) ∧ decodeWord 0xFA282A2C = .ok (.tsend 20 21 22)
    ∧ decodeWord 0xFDFE0031 = .ok (.xflush 255 24) := by
  and_intros <;> rfl

/-- R209, R225, R229, R82, R95, R288: one word for each row, its fields at the places of the table. -/
theorem test_decode_fixed_and_control :
    decodeWord 0x00000000 = .ok .ill ∧ decodeWord 0x00100000 = .ok .nop ∧ decodeWord 0x00200000 = .ok .exit
    ∧ decodeWord 0x00300000 = .ok .texit ∧ decodeWord 0x00400000 = .ok .refill ∧ decodeWord 0x00500000 = .ok .join
    ∧ decodeWord 0x00600000 = .ok .disb ∧ decodeWord 0x00700000 = .ok .ret ∧ decodeWord 0x00800000 = .ok .uret
    ∧ decodeWord 0x00900000 = .ok .tret ∧ decodeWord 0x00A00000 = .ok .haltc
    ∧ decodeWord 0x0207000E = .ok (.yield 7 14) ∧ decodeWord 0x0400000B = .ok (.trap 11)
    ∧ decodeWord 0x0600000D = .ok (.mode 13) ∧ decodeWord 0x08000001 = .ok (.fenceRel 1)
    ∧ decodeWord 0x08000009 = .ok (.fenceAcq 1) ∧ decodeWord 0x08000011 = .ok (.fenceAr 1)
    ∧ decodeWord 0x0A000053 = .ok (.conv 1 2 3) ∧ decodeWord 0x0C000020 = .ok (.enter 32)
    ∧ decodeWord 0x0E001686 = .ok (.barSync 5 10 6) ∧ decodeWord 0x0E000015 = .ok (.barArrive 5)
    ∧ decodeWord 0x0E0016A6 = .ok (.barWait 5 10 6) :=
  by and_intros <;> rfl

/-- R206, R213..R223: one word for each row, its fields at the places of the table. -/
theorem test_decode_branches_calls_planes :
    decodeWord 0x1000000F = .ok (.setj 15) ∧ decodeWord 0x12B00008 = .ok (.bru 5 1 8)
    ∧ decodeWord 0x14B0000E = .ok (.brm 5 1 14) ∧ decodeWord 0x16B00006 = .ok (.eject 5 1 6)
    ∧ decodeWord 0x18000007 = .ok (.jmp 7) ∧ decodeWord 0x1A600010 = .ok (.call 3 16)
    ∧ decodeWord 0x1C250000 = .ok (.calli 1 20) ∧ decodeWord 0x1E002200 = .ok (.jmpi 17)
    ∧ decodeWord 0x1E000A05 = .ok (.calls 5 2) ∧ decodeWord 0x20004800 = .ok (.plset 9)
    ∧ decodeWord 0x20000021 = .ok (.plsetConst 2) ∧ decodeWord 0x22000066 = .ok (.plsel 1 2 6)
    ∧ decodeWord 0x240A0000 = .ok (.plocc 5) :=
  by and_intros <;> rfl

/-- R235..R237, R291..R293, R228: one word for each row, its fields at the places of the table. -/
theorem test_decode_special_registers_and_barriers :
    decodeWord 0x260E0010 = .ok (.srd 7 16) ∧ decodeWord 0x2816001A = .ok (.swr 11 26)
    ∧ decodeWord 0x281E0013 = .ok (.swrMode 15) ∧ decodeWord 0x28220014 = .ok (.swrSticky 17)
    ∧ decodeWord 0x280A0015 = .ok (.swrSsp 5) ∧ decodeWord 0x280E0021 = .ok (.swrTrapoff 7)
    ∧ decodeWord 0x2A600010 = .ok (.pushm 48 16) ∧ decodeWord 0x2C600010 = .ok (.popm 48 16)
    ∧ decodeWord 0x2E000005 = .ok (.cbara 5) ∧ decodeWord 0x30001686 = .ok (.cbarw 5 10 6)
    ∧ decodeWord 0x32160000 = .ok (.pbara 11) ∧ decodeWord 0x341B4600 = .ok (.pbwait 13 10 6)
    ∧ decodeWord 0x3601000C = .ok (.leave 1 12) :=
  by and_intros <;> rfl

/-- R208, R368, R375; the three rows of FDACT share one word: one word for each row, its fields at the places of the table. -/
theorem test_decode_privileged :
    decodeWord 0x38120001 = .ok (.psrd 9 1) ∧ decodeWord 0x3A1A0006 = .ok (.pswr 13 6)
    ∧ decodeWord 0x3A220002 = .ok (.pswrFqhead 17) ∧ decodeWord 0x3A0A0004 = .ok (.fdactRestart 5)
    ∧ decodeWord 0x3A0E0004 = .ok (.fdactRestart 7) ∧ decodeWord 0x3A120004 = .ok (.fdactRestart 9)
    ∧ decodeWord 0x3C001600 = .ok (.tlbiPage 11) ∧ decodeWord 0x3C001A01 = .ok (.tlbiRegion 13) :=
  by and_intros <;> rfl

/-- R241..R243: one word for each row, its fields at the places of the table. -/
theorem test_decode_scalar :
    decodeWord 0x401E2C0C = .ok (.sadd 15 22 6) ∧ decodeWord 0x400E1C19 = .ok (.ssub 7 14 12)
    ∧ decodeWord 0x421A2824 = .ok (.smul 13 20 18) ∧ decodeWord 0x420A1815 = .ok (.smulh 5 12 10)
    ∧ decodeWord 0x44162420 = .ok (.sdiv 11 18 16) ∧ decodeWord 0x44221411 = .ok (.sdivu 17 10 8)
    ∧ decodeWord 0x4612201C = .ok (.srem 9 16 14) ∧ decodeWord 0x461E2C0D = .ok (.sremu 15 22 6)
    ∧ decodeWord 0x480E1C18 = .ok (.sand 7 14 12) ∧ decodeWord 0x481A2825 = .ok (.sor 13 20 18)
    ∧ decodeWord 0x4A0A1814 = .ok (.sxor 5 12 10) ∧ decodeWord 0x4A162421 = .ok (.sandn 11 18 16)
    ∧ decodeWord 0x4C221410 = .ok (.sshl 17 10 8) ∧ decodeWord 0x4C12201D = .ok (.sshr 9 16 14)
    ∧ decodeWord 0x4E1E2C0C = .ok (.ssra 15 22 6) ∧ decodeWord 0x4E0E1C19 = .ok (.srotr 7 14 12)
    ∧ decodeWord 0x501A2824 = .ok (.smin 13 20 18) ∧ decodeWord 0x500A1815 = .ok (.smax 5 12 10)
    ∧ decodeWord 0x52162420 = .ok (.sminu 11 18 16) ∧ decodeWord 0x52221411 = .ok (.smaxu 17 10 8)
    ∧ decodeWord 0x5412201C = .ok (.sslt 9 16 14) ∧ decodeWord 0x541E2C0D = .ok (.ssltu 15 22 6)
    ∧ decodeWord 0x560E1C18 = .ok (.sseq 7 14 12) ∧ decodeWord 0x561A2825 = .ok (.ssne 13 20 18)
    ∧ decodeWord 0x580A1814 = .ok (.ssel 5 12 10) ∧ decodeWord 0x58162421 = .ok (.sselz 11 18 16)
    ∧ decodeWord 0x5A221400 = .ok (.spopc 17 10) ∧ decodeWord 0x5A0E1C01 = .ok (.sclz 7 14)
    ∧ decodeWord 0x5C162400 = .ok (.sctz 11 18) ∧ decodeWord 0x5C1E2C01 = .ok (.sbrev 15 22) :=
  by and_intros <;> rfl

/-- R244: one word for each row, its fields at the places of the table. -/
theorem test_decode_scalar_immediates :
    decodeWord 0x5E0A180A = .ok (.saddi 5 12 10) ∧ decodeWord 0x60162410 = .ok (.sandi 11 18 16)
    ∧ decodeWord 0x62221408 = .ok (.sori 17 10 8) ∧ decodeWord 0x6412200E = .ok (.sxori 9 16 14)
    ∧ decodeWord 0x661E2C06 = .ok (.sshli 15 22 6) ∧ decodeWord 0x680E1C0C = .ok (.sshri 7 14 12)
    ∧ decodeWord 0x6A1A2812 = .ok (.ssrai 13 20 18) ∧ decodeWord 0x6C0A180A = .ok (.sslti 5 12 10)
    ∧ decodeWord 0x6E160012 = .ok (.sli 11 18) ∧ decodeWord 0x701E0016 = .ok (.slui 15 22) :=
  by and_intros <;> rfl

/-- R278: one word for each row, its fields at the places of the table. -/
theorem test_decode_scalar_memory :
    decodeWord 0x720A1863 = .ok (.sld64 5 12 6 3) ∧ decodeWord 0x741A2863 = .ok (.sld32 13 20 6 3)
    ∧ decodeWord 0x760E1C63 = .ok (.sst64 7 14 6 3) ∧ decodeWord 0x781E2C63 = .ok (.sst32 15 22 6 3) :=
  by and_intros <;> rfl

/-- R275, R279, R280: one word for each row, its fields at the places of the table. -/
theorem test_decode_vector_memory :
    decodeWord 0x7A2501C7 = .ok (.vld8 9 16 14 3 1) ∧ decodeWord 0x7C14C147 = .ok (.vld16 5 12 10 3 1)
    ∧ decodeWord 0x7E3D60C7 = .ok (.vld32 15 22 6 3 1) ∧ decodeWord 0x80292207 = .ok (.vld64 10 18 16 3 1)
    ∧ decodeWord 0x821CE187 = .ok (.vldb 7 14 12 3 1) ∧ decodeWord 0x8444A107 = .ok (.vst8 17 10 8 3 1)
    ∧ decodeWord 0x86354247 = .ok (.vst16 13 20 18 3 1) ∧ decodeWord 0x882501C7 = .ok (.vst32 9 16 14 3 1)
    ∧ decodeWord 0x8A10C147 = .ok (.vst64 4 12 10 3 1) ∧ decodeWord 0x8C3D60C7 = .ok (.vstb 15 22 6 3 1) :=
  by and_intros <;> rfl

/-- R281..R286: one word for each row, its fields at the places of the table. -/
theorem test_decode_atomics_and_spaces :
    decodeWord 0x8E2C9131 = .ok (.vatom 11 18 1 3 1) ∧ decodeWord 0x900E1CD1 = .ok (.satom 7 14 6 1 1)
    ∧ decodeWord 0x92221400 = .ok (.sptest 17 10) ∧ decodeWord 0x940E1C12 = .ok (.spcast 7 14 1 1)
    ∧ decodeWord 0x9638B000 = .ok (.vsptest 14 22) ∧ decodeWord 0x98106090 = .ok (.vspcast 4 12 1 1)
    ∧ decodeWord 0x9A001AA0 = .ok (.prefL1 13 10) ∧ decodeWord 0x9A0222A0 = .ok (.prefL2 17 10)
    ∧ decodeWord 0x9C000E00 = .ok (.cctlL1line 7) ∧ decodeWord 0x9C000002 = .ok .cctlL1all
    ∧ decodeWord 0x9C001204 = .ok (.cctlL2evict 9) :=
  by and_intros <;> rfl

/-- R249, R250: one word for each row, its fields at the places of the table. -/
theorem test_decode_vector_pairs :
    decodeWord 0xA02C9100 = .ok (.vadd 11 18 16) ∧ decodeWord 0xA0445081 = .ok (.vsub 17 10 8)
    ∧ decodeWord 0xA02480E2 = .ok (.vmul 9 16 14) ∧ decodeWord 0xA03CB063 = .ok (.vmulh 15 22 6)
    ∧ decodeWord 0xA01C70C4 = .ok (.vmin 7 14 12) ∧ decodeWord 0xA034A125 = .ok (.vmax 13 20 18)
    ∧ decodeWord 0xA01460A6 = .ok (.vabsd 5 12 10) ∧ decodeWord 0xA02C9107 = .ok (.vdiv 11 18 16)
    ∧ decodeWord 0xA0445088 = .ok (.vrem 17 10 8) ∧ decodeWord 0xA02480E9 = .ok (.vfma 9 16 14)
    ∧ decodeWord 0xA03CB06A = .ok (.vfms 15 22 6) ∧ decodeWord 0xA01C70CB = .ok (.vfnma 7 14 12)
    ∧ decodeWord 0xA034A12C = .ok (.vaddsat 13 20 18) ∧ decodeWord 0xA01460AD = .ok (.vsubsat 5 12 10)
    ∧ decodeWord 0xA02C910E = .ok (.vavg 11 18 16) ∧ decodeWord 0xA044508F = .ok (.vcopysign 17 10 8)
    ∧ decodeWord 0xA22480E0 = .ok (.vand 9 16 14) ∧ decodeWord 0xA23CB061 = .ok (.vor 15 22 6)
    ∧ decodeWord 0xA21C70C2 = .ok (.vxor 7 14 12) ∧ decodeWord 0xA234A123 = .ok (.vandn 13 20 18)
    ∧ decodeWord 0xA21460A4 = .ok (.vshl 5 12 10) ∧ decodeWord 0xA22C9105 = .ok (.vshr 11 18 16)
    ∧ decodeWord 0xA2445086 = .ok (.vsra 17 10 8) ∧ decodeWord 0xA22480E7 = .ok (.vrotr 9 16 14) :=
  by and_intros <;> rfl

/-- R251: one word for each row, its fields at the places of the table. -/
theorem test_decode_vector_immediates :
    decodeWord 0xA43CB006 = .ok (.vaddi 15 22 6) ∧ decodeWord 0xA61C700C = .ok (.vmuli 7 14 12)
    ∧ decodeWord 0xA834A012 = .ok (.vandi 13 20 18) ∧ decodeWord 0xAA14600A = .ok (.vori 5 12 10)
    ∧ decodeWord 0xAC2C9010 = .ok (.vshli 11 18 16) ∧ decodeWord 0xAC445048 = .ok (.vshri 17 10 8)
    ∧ decodeWord 0xAC24808E = .ok (.vsrai 9 16 14) ∧ decodeWord 0xAC3CB0C6 = .ok (.vrotri 15 22 6)
    ∧ decodeWord 0xAE1C000E = .ok (.vmovi 7 14) :=
  by and_intros <;> rfl

/-- R252..R254: one word for each row, its fields at the places of the table. -/
theorem test_decode_vector_unary :
    decodeWord 0xB02C9000 = .ok (.vmov 11 18) ∧ decodeWord 0xB03CB001 = .ok (.vneg 15 22)
    ∧ decodeWord 0xB0146002 = .ok (.vabs 5 12) ∧ decodeWord 0xB0248003 = .ok (.vnot 9 16)
    ∧ decodeWord 0xB034A004 = .ok (.vpopc 13 20) ∧ decodeWord 0xB0445005 = .ok (.vclz 17 10)
    ∧ decodeWord 0xB01C7006 = .ok (.vsext8 7 14) ∧ decodeWord 0xB02C9007 = .ok (.vsext16 11 18)
    ∧ decodeWord 0xB03CB008 = .ok (.vrcp 15 22) ∧ decodeWord 0xB0146009 = .ok (.vrsq 5 12)
    ∧ decodeWord 0xB024800A = .ok (.vsqrt 9 16) ∧ decodeWord 0xB034A00B = .ok (.vexp2 13 20)
    ∧ decodeWord 0xB044500C = .ok (.vlog2 17 10) ∧ decodeWord 0xB01C700D = .ok (.vsin 7 14)
    ∧ decodeWord 0xB02C900E = .ok (.vcos 11 18) ∧ decodeWord 0xB03CB00F = .ok (.vtanh 15 22)
    ∧ decodeWord 0xB2146060 = .ok (.vcvt 5 12 6) :=
  by and_intros <;> rfl

/-- R255..R257: one word for each row, its fields at the places of the table. -/
theorem test_decode_vector_scalars_and_compares :
    decodeWord 0xB42C9080 = .ok (.vadds 11 18 16) ∧ decodeWord 0xB4445041 = .ok (.vmuls 17 10 8)
    ∧ decodeWord 0xB4248072 = .ok (.vfmas 9 16 14) ∧ decodeWord 0xB43CB033 = .ok (.vmins 15 22 6)
    ∧ decodeWord 0xB41C7064 = .ok (.vmaxs 7 14 12) ∧ decodeWord 0xB43400A5 = .ok (.vbcast 13 20)
    ∧ decodeWord 0xB4445046 = .ok (.vshls 17 10 8) ∧ decodeWord 0xB4248077 = .ok (.vshrs 9 16 14)
    ∧ decodeWord 0xB6A58319 = .ok (.vcmp 5 22 6 3 1) ∧ decodeWord 0xB8A4840D = .ok (.vcmps 5 18 16 3 1)
    ∧ decodeWord 0xBA1C70C3 = .ok (.vsel 7 14 12 3) :=
  by and_intros <;> rfl

/-- R258..R265: one word for each row, its fields at the places of the table. -/
theorem test_decode_predicates_shuffles_reductions :
    decodeWord 0xBCB4C000 = .ok (.pand 5 10 6) ∧ decodeWord 0xBCB4C400 = .ok (.por 5 10 6)
    ∧ decodeWord 0xBCB4C800 = .ok (.pxor 5 10 6) ∧ decodeWord 0xBCB4CC00 = .ok (.pandn 5 10 6)
    ∧ decodeWord 0xBCB41000 = .ok (.pnot 5 10) ∧ decodeWord 0xBCA01400 = .ok (.pset 5)
    ∧ decodeWord 0xBCA01800 = .ok (.pclr 5) ∧ decodeWord 0xBCB41C00 = .ok (.pmov 5 10)
    ∧ decodeWord 0xBE2480E0 = .ok (.vshfl 9 16 14) ∧ decodeWord 0xBE3CB061 = .ok (.vshflTeam 15 22 6)
    ∧ decodeWord 0xC0003871 = .ok (.vred 7 14 1) ∧ decodeWord 0xC234A091 = .ok (.vscan 13 20 18 1)
    ∧ decodeWord 0xC40C5060 = .ok (.vball 3 10 12 0) ∧ decodeWord 0xC63CB031 = .ok (.vnzs 15 22 6 1)
    ∧ decodeWord 0xC82480E0 = .ok (.visect 9 16 14) :=
  by and_intros <;> rfl

/-- R266..R274, R326: one word for each row, its fields at the places of the table. -/
theorem test_decode_block_and_histogram :
    decodeWord 0xCA3CB000 = .ok (.vbmax 15 22) ∧ decodeWord 0xCA146061 = .ok (.vscsel 5 12 6)
    ∧ decodeWord 0xCA2C9062 = .ok (.vqnt 11 18 6) ∧ decodeWord 0xCA445063 = .ok (.vdq 17 10 6)
    ∧ decodeWord 0xCA248134 = .ok (.vpack 9 16 1 3) ∧ decodeWord 0xCA445135 = .ok (.vunpk 17 10 1 3)
    ∧ decodeWord 0xCA2C9066 = .ok (.vreq 11 18 6) ∧ decodeWord 0xCA0088A7 = .ok (.vhist 17 10)
    ∧ decodeWord 0xCC0E1C18 = .ok (.spctl 7 14 12) ∧ decodeWord 0xCE240001 = .ok (.vlane 9 1)
    ∧ decodeWord 0xD0445000 = .ok (.vsideRd 17 10) ∧ decodeWord 0xD01C7001 = .ok (.vsideWr 7 14)
    ∧ decodeWord 0xD2162420 = .ok (.xcntSet 11 18 16) ∧ decodeWord 0xD2221411 = .ok (.xcntAdd 17 10 8) :=
  by and_intros <;> rfl

/-- R296..R319: one word for each row, its fields at the places of the table. -/
theorem test_decode_claims_and_tiles :
    decodeWord 0xD8009086 = .ok (.tclm 9 4 6) ∧ decodeWord 0xD800FAC6 = .ok (.tclmTry 15 22 6)
    ∧ decodeWord 0xDA0000EA = .ok (.trel 7 10) ∧ decodeWord 0xDC00B246 = .ok (.aclm 11 18 6)
    ∧ decodeWord 0xDC011946 = .ok (.aclmTry 17 10 6) ∧ decodeWord 0xDE00012A = .ok (.arel 9 10)
    ∧ decodeWord 0xE0514128 = .ok (.tldDense 5 20 18 2) ∧ decodeWord 0xE050E0C9 = .ok (.tldDec 5 14 12 2)
    ∧ decodeWord 0xE051606A = .ok (.tldPcs 5 22 6 2) ∧ decodeWord 0xE2510FF0 = .ok (.tst 5 16)
    ∧ decodeWord 0xE4AA3640 = .ok (.mma 5 10 6 1 1 1) ∧ decodeWord 0xE4AA3641 = .ok (.mmaZ 5 10 6 1 1 1)
    ∧ decodeWord 0xE6A14B0D = .ok (.mmas 5 1 9 3 13) ∧ decodeWord 0xE8154140 = .ok (.ardr 5 10 10)
    ∧ decodeWord 0xE82D4201 = .ok (.ardc 11 10 16) ∧ decodeWord 0xE8454102 = .ok (.awrr 17 10 8)
    ∧ decodeWord 0xE82541C3 = .ok (.awrc 9 10 14) ∧ decodeWord 0xE83D40C4 = .ok (.trdr 15 10 6)
    ∧ decodeWord 0xE81D4185 = .ok (.trdc 7 10 12) ∧ decodeWord 0xE8354246 = .ok (.twrr 13 10 18)
    ∧ decodeWord 0xE8154147 = .ok (.twrc 5 10 10) ∧ decodeWord 0xE800A008 = .ok (.azero 5)
    ∧ decodeWord 0xEAA28245 = .ok (.aqnt 5 20 18 1 1) ∧ decodeWord 0xEC120046 = .ok (.tinfo 9 2 6) :=
  by and_intros <;> rfl

/-- R320..R339: one word for each row, its fields at the places of the table. -/
theorem test_decode_engines :
    decodeWord 0xEE1E2C0C = .ok (.xcpy 15 22 6) ∧ decodeWord 0xEE0E1C19 = .ok (.xcpyPair 7 14 12)
    ∧ decodeWord 0xF01A2824 = .ok (.xgath 13 20 18) ∧ decodeWord 0xF20A1814 = .ok (.xscat 5 12 10)
    ∧ decodeWord 0xF4160420 = .ok (.xpub 11 2 16) ∧ decodeWord 0xF4220411 = .ok (.xpubSync 17 2 8)
    ∧ decodeWord 0xF612201C = .ok (.xwait 9 16 14) ∧ decodeWord 0xF61E2C0D = .ok (.xwaitTest 15 22 6)
    ∧ decodeWord 0xF80E1C18 = .ok (.nsend 7 14 12) ∧ decodeWord 0xF81A2825 = .ok (.nsendImm 13 20 18)
    ∧ decodeWord 0xFA0A1814 = .ok (.tsend 5 12 10) ∧ decodeWord 0xFC162420 = .ok (.cred 11 18 16)
    ∧ decodeWord 0xFC220015 = .ok (.xflush 17 10) :=
  by and_intros <;> rfl
/-! ### Small states -/

/-- A team of 32 lanes at system level, resident and in focus on core 0, all of it one plane, with virtual addresses equal
to physical ones (Machine/Step.lean, `withFetchWord`); no turn is left on the agenda. -/
def sys : State := { State.reset.withFetchWord 32 0 with iss := ⟨firstLanes 32, 0, none, 4, none, none, 0⟩, agenda := [] }

/-- The same team at user level. -/
def usr : State := { sys with team := { sys.team with system := false } }

/-- The state after an instruction. -/
def after (i : Instr) (s : State) : State := match exec i s with | .next t => t | _ => s

/-- The state with other lanes, window, header, phase or issue. -/
def lanes (s : State) (active vacant : Mask) (stack : List StackEntry) : State :=
  s.withLanes { s.team.lanes with active := active, vacant := vacant, stack := stack }
def kern (s : State) (f : Kernel → Kernel) : State := { s with blk := { s.blk with k := f s.blk.k } }
def phase (s : State) (p : Phase) : State := s.withPhase p
def mode (s : State) (n : Nat) : State := s.withSp { s.team.sp with mode := BitVec.ofNat 64 n }
def late (s : State) : State := { s with iss := { s.iss with hazard := some 0x40 } }
def queue (s : State) (n : Nat) (x : Queue) (bytes : List Byte) : State :=
  { s with queues := [(n, x)], mem := storeLe s.mem 0x10000 64 (leNat bytes) }

/-- An access or a read that does not fail. -/
def isOk {ε α : Type} (r : Except ε α) : Bool := match r with | .ok _ => true | .error _ => false
theorem exists_of_isOk {ε α : Type} {r : Except ε α} (h : isOk r = true) : ∃ x, r = .ok x := by
  cases r with
  | ok x => exact ⟨x, rfl⟩
  | error e => exact nomatch h

/-! ### Witnesses: for each obligation with hypotheses, states and operands that meet them -/

theorem witness_EncodedInstructionDecodes :
    (∃ bs, Instr.WellFormed (.sadd 191 255 0) ∧ encode (.sadd 191 255 0) = some bs) ∧
    ∃ bs, Instr.WellFormed (.prefixedInstruction ⟨16, 1, 6, 127, 1, 5, 7⟩ (.vfma 127 0 8)) ∧
      encode (.prefixedInstruction ⟨16, 1, 6, 127, 1, 5, 7⟩ (.vfma 127 0 8)) = some bs :=
  ⟨⟨_, rfl, rfl⟩, ⟨_, rfl, rfl⟩⟩

theorem witness_DecodedWordReencodes :
    (0xFDFE0031 < 4294967296 ∧ decodeWord 0xFDFE0031 = .ok (.xflush 255 24))
    ∧ decodeWord 0x0207FFFF = .ok (.yield 7 65535) := ⟨⟨by decide, rfl⟩, rfl⟩

/-- A word in memory at offset 0, and the next at 4. -/
def coded (w0 w1 : Nat) : State :=
  { State.reset.withFetchWord 64 (w0 + w1 * 2 ^ 32) with iss := .none, agenda := [] }

theorem witness_FetchReadsTheCodeBytes :
    (planedEntry (coded 0x40282A2C 0).blk.k.planes (coded 0x40282A2C 0).team.pc.toNat = none
      ∧ inUpperCopy (coded 0x40282A2C 0).blk.k.planes (coded 0x40282A2C 0).team.pc.toNat = false
      ∧ codeWordAt (coded 0x40282A2C 0) 0 0x40282A2C ∧ isPrefixWord 0x40282A2C = false
      ∧ decodeWord 0x40282A2C = .ok (.sadd 20 21 22)) ∧
    ∃ w1, encodePrefix ⟨3, 0, 0, 0, 0, 0, 0⟩ = w1 ∧ codeWordAt (coded w1 0xA02C9100) 0 w1 ∧ isPrefixWord w1 = true
      ∧ codeWordAt (coded w1 0xA02C9100) 4 0xA02C9100
      ∧ decodePair w1 0xA02C9100 = .ok (.prefixedInstruction ⟨3, 0, 0, 0, 0, 0, 0⟩ (.vadd 11 18 16)) :=
  ⟨⟨rfl, rfl, ⟨by decide, by decide, _, rfl, rfl, rfl⟩, rfl, rfl⟩,
    ⟨_, rfl, ⟨by decide, by decide, _, rfl, rfl, rfl⟩, rfl, ⟨by decide, by decide, _, rfl, rfl, rfl⟩, rfl⟩⟩

/-- A load of the team in focus that no lookahead window covers. -/
def loading (s : State) : State := { s with team := { s.team with loads := [⟨0, 0, [], none, 0⟩] } }

theorem witness_StepRunsTheFetchedInstruction :
    let at_ (w : Nat) : State := State.reset.withFetchWord 32 w
    let u (w : Nat) : State := ({ (at_ w).settle.tick with agenda := [] } : State).focus 4
    let v (w : Nat) : State := { u w with iss := .none }
    let x : State := (v 0x40282A2C).noteFetch
    let y : State := (loading { v 0x0C000000 with iss := .none }).noteFetch
    (at_ 0x40282A2C).amc.status ≠ .down ∧ (at_ 0x40282A2C).settle.tick.agenda = [.issue 4]
    ∧ (u 0x40282A2C).team.uid = 4 ∧ (u 0x40282A2C).canIssue (u 0x40282A2C).team = true
    ∧ (u 0x40282A2C).team.pre.held = none ∧ (u 0x40282A2C).team.deadline.any (fun d => d.1 ≤ d.2) = false
    ∧ (∃ i iss t, (v 0x40282A2C).fetchIssue = .ok (i, iss) ∧ x.blocker (iss.word / 2 ^ 25) (x.usesAt i iss) = none
        ∧ exec i { x with iss := iss } = .next t)
    ∧ (∃ i iss b, (loading (v 0x0C000000)).fetchIssue = .ok (i, iss)
        ∧ y.blocker (iss.word / 2 ^ 25) (y.usesAt i iss) = some b)
    ∧ (∃ f, (v 0xFFFFFFFF).fetchIssue = .error f) ∧ (v 0xFFFFFFFF).blocker 0x7F [] = none := by
  refine ⟨by decide, by decide, by decide, by decide, by decide, by decide, ⟨_, _, _, rfl, rfl, rfl⟩, ⟨_, _, _, rfl, rfl⟩,
    ⟨_, rfl⟩, by decide⟩

theorem witness_StepKeepsStoresCanonical :
    storesWf (State.reset.withFetchWord 32 0x00100000) = true
    ∧ ∃ t, steps (State.reset.withFetchWord 32 0x00100000) t := ⟨by decide, ⟨_, rfl⟩⟩

/-- A header with a trap entry at 0x40. -/
def trapping (s : State) : State := kern s (fun k => { k with trapEntry := some 0x40 })

theorem witness_TrapEntryDelivery :
    (trapping usr).blk.k.trapEntry = some 0x40 ∧ (trapping usr).team.trap.inTrap = false
    ∧ (trapping usr).team.phase ≠ .held ∧ ((trapping usr).flt .align).spill = false
    ∧ deliverable (trapping usr).team.system ((trapping usr).flt .align).cause = true := by decide

theorem witness_FaultDomainDelivery :
    (sys.blk.k.trapEntry = none ∧ sys.ownHandler = none
      ∧ ∃ d x, sys.teamDomain = some d ∧ sys.findDomain d.rcb = some x
      ∧ x.waiting.length + x.open_.length < 0xFFFFFFFF) ∧
    (deliverable (trapping sys).team.system (sys.flt .machineCheck).cause = false ∧ (trapping sys).ownHandler = none) ∧
    ((phase (trapping sys) .held).team.phase = .held ∧ (phase (trapping sys) .held).ownHandler = none
      ∧ (phase (trapping sys) .held).teamDomain.isSome = true) ∧
    ({ sys.flt .pageNotPresent with spill := true } : FaultInfo).spill = true :=
  ⟨⟨rfl, rfl, ⟨_, _, rfl, rfl, by decide⟩⟩, ⟨rfl, rfl⟩, ⟨rfl, rfl, rfl⟩, rfl⟩

/-- Inside a trap that cause `c` (R409) entered. -/
def trapped (s : State) (c : Nat) : State :=
  { s with team := { s.team with trap := { s.team.trap with cause := c, inTrap := true, tmask := 0xF } } }

theorem witness_TrapReturnRestores :
    sys.team.trap.inTrap = false ∧ usr.team.system = false ∧
    (let s := trapped sys 0x1C
     s.team.trap.inTrap = true ∧ userDeliverable s.team.trap.cause = true ∧ s.team.win.depth = s.team.trap.tdep
     ∧ s.team.lanes.stack.length = s.team.trap.tjd ∧ s.team.trap.tmask &&& ~~~s.team.lanes.vacant ≠ 0
     ∧ s.team.trap.twr = false ∧ s.team.system = true
     ∧ inUpperCopy s.blk.k.planes (s.team.trap.off.toNat % 2 ^ 32) = false) ∧
    (let s := kern (trapped sys 0x1C) (fun k => { k with planes := [⟨0x40, 8, 2, 8⟩] })
     let s := { s with team := { s.team with trap := { s.team.trap with off := 0x48, twr := true } } }
     inUpperCopy s.blk.k.planes (s.team.trap.off.toNat % 2 ^ 32) = true ∧ s.team.trap.twr = true) ∧
    ((trapped sys 0x01).team.trap.inTrap = true ∧ userDeliverable (trapped sys 0x01).team.trap.cause = false) ∧
    ((trapped sys 0x1C).withWin { sys.team.win with depth := 1 }).team.win.depth ≠ 0 ∧
    (lanes (trapped sys 0x1C) 1 0 [⟨false, 0, 1⟩]).team.lanes.stack.length ≠ 0 := by decide

theorem witness_IllegalAndTrapWords :
    (0x04000042 / 2 ^ 25 = 2 ∧ 0x04000042 / 2 ^ 16 % 2 ^ 9 = 0) ∧ (0x05FF0000 / 2 ^ 25 = 2
      ∧ 0x05FF0000 / 2 ^ 16 % 2 ^ 9 ≠ 0)
    ∧ (trapping sys).blk.k.trapEntry = some 0x40 ∧ (trapping sys).team.trap.inTrap = false
    ∧ (trapping sys).team.phase ≠ .held := by decide

theorem witness_PrivilegedWordsAtUserLevel : isPrivileged .tret = true ∧ isPrivileged (.tlbiRegion 3) = true
    ∧ usr.team.system = false := by decide

theorem witness_RetireMovesOn : sys.iss.next = none
  ∧ ({ sys with iss := { sys.iss with next := some 3 } } : State).iss.next = some 3 := by
  decide

theorem witness_ScalarRegisterWords : sys.iss.hazard = none := rfl

theorem witness_ScalarDivision :
    sys.iss.hazard = none ∧ sys.getS 22 = 0 ∧
    (let s := (sys.setS 21 0x8000000000000000).setS 22 (BitVec.allOnes 64)
     s.getS 21 = 0x8000000000000000 ∧ s.getS 22 = BitVec.allOnes 64) ∧
    (let s := (sys.setS 21 0x8000000000000000).setS 22 1
     s.getS 22 ≠ 0 ∧ ¬(s.getS 21 = 0x8000000000000000 ∧ s.getS 22 = BitVec.allOnes 64)) := by decide

theorem witness_ScalarImmediateWords : (mode sys 0x1000).iss.hazard = none := rfl

theorem witness_ScalarWordsFrame :
    scalarDest (.slui 191 0) = some 191 ∧ scalarDest (.sdiv 255 0 1) = some 255 ∧ storesWf sys = true
    ∧ (late sys).iss.hazard = some 0x40 ∧ sys.iss.hazard = none ∧ (∃ t, exec (.sdiv 255 0 1) sys = .next t)
    ∧ isDivision (.slui 191 0) = false ∧ sys.team.srDue = false :=
  ⟨rfl, rfl, by decide, rfl, rfl, ⟨_, rfl⟩, rfl, rfl⟩

/-- `n` reconvergence entries. -/
def deep (n : Nat) : List StackEntry := List.replicate n ⟨true, 0, 1⟩

theorem witness_BranchesAndSplits :
    (lanes sys 1 0 (deep 31)).team.lanes.stack.length < 32 ∧ 32 ≤ (lanes sys 1 0 (deep 32)).team.lanes.stack.length ∧
    (let s := sys.setP 2 allLanes 1
     let x := s.team.lanes
     let g := x.active &&& s.getP 2
     g ≠ 0 ∧ g ≠ x.active ∧ x.active &&& ~~~g ≠ 0 ∧ x.active &&& s.getP 0 = x.active ∧ x.active &&& ~~~s.getP 0 = 0
     ∧ x.active ≠ 0 ∧ inUpperCopy s.blk.k.planes 0x40 = false) ∧
    (let s := kern sys (fun k => { k with planes := [⟨0x40, 8, 2, 8⟩] })
     inUpperCopy s.blk.k.planes 0x48 = true ∧ ((s.setS 3 0x48).getS 3).toNat % 4 = 0
     ∧ inUpperCopy s.blk.k.planes (BitVec.ofNat 32 ((s.setS 3 0x48).getS 3).toNat).toNat = true) ∧
    ((sys.getS 3).toNat % 4 = 0 ∧ ((sys.setS 3 2).getS 3).toNat % 4 ≠ 0) ∧
    (let s := lanes sys 1 0 [⟨false, 0x20, 0⟩, ⟨false, 0x30, 4⟩, ⟨true, 0, 2⟩]
     s.team.lanes.stack = [⟨false, 0x20, 0⟩] ++ ⟨false, 0x30, 4⟩ :: [⟨true, 0, 2⟩]
     ∧ (∀ y ∈ ([⟨false, 0x20, 0⟩] : List StackEntry), y.mask = 0) ∧ (4 : Mask) ≠ 0
     ∧ s.team.lanes.stack.find? (fun e => e.isJoin) = some ⟨true, 0, 2⟩ ∧ (0 : Word32) = s.team.pc
     ∧ inUpperCopy s.blk.k.planes 0x30 = false) ∧
    (let s := kern (lanes sys 1 0 [⟨false, 0x48, 4⟩, ⟨true, 0, 2⟩]) (fun k => { k with planes := [⟨0x40, 8, 2, 8⟩] })
     s.team.lanes.stack = [] ++ ⟨false, 0x48, 4⟩ :: [⟨true, 0, 2⟩] ∧ (4 : Mask) ≠ 0
     ∧ s.team.lanes.stack.find? (fun e => e.isJoin) = some ⟨true, 0, 2⟩ ∧ (0 : Word32) = s.team.pc
     ∧ inUpperCopy s.blk.k.planes 0x48 = true) ∧
    (let s := lanes sys 1 0 [⟨true, 0, 0⟩]
     (∀ y ∈ s.team.lanes.stack, y.mask = 0) ∧ s.team.lanes.stack.find? (fun e => e.isJoin) = some ⟨true, 0, 0⟩
     ∧ (0 : Word32) = s.team.pc) ∧
    (∀ e ∈ sys.team.lanes.stack.find? (fun e => e.isJoin), e.off ≠ sys.team.pc) := by decide

theorem witness_LanesEnd :
    (let s := lanes sys 1 0 [⟨false, 0x20, 1⟩, ⟨false, 0x30, 6⟩]
     let left := s.team.lanes.stack.map (fun e => { e with mask := e.mask &&& ~~~s.team.lanes.active })
     left = [⟨false, 0x20, 0⟩] ++ ⟨false, 0x30, 6⟩ :: [] ++ [] ∧ s.team.win.depth = 0
     ∧ (∀ y ∈ ([⟨false, 0x20, 0⟩] : List StackEntry), y.mask = 0) ∧ inUpperCopy s.blk.k.planes 0x30 = false) ∧
    (let s := kern (lanes sys 1 0 [⟨true, 0x44, 6⟩]) (fun k => { k with planes := [⟨0x40, 8, 2, 8⟩] })
     s.team.lanes.stack.map (fun e => { e with mask := e.mask &&& ~~~s.team.lanes.active })
        = [] ++ ⟨true, 0x44, 6⟩ :: [] ++ [] ∧ s.team.win.depth = 0
     ∧ inUpperCopy s.blk.k.planes (0x44 + 4) = true) ∧
    (let s := (lanes sys 1 0 [⟨false, 0x30, 6⟩, ⟨true, 0x10, 0⟩]).withWin
       { sys.team.win with depth := 1, links := [⟨0, 0, 0, 0, 1, false, 0⟩] }
     s.team.win.depth ≠ 0 ∧ s.team.win.links = [⟨0, 0, 0, 0, 1, false, 0⟩]
     ∧ s.team.lanes.stack.map (fun e => { e with mask := e.mask &&& ~~~s.team.lanes.active })
        = [] ++ ⟨false, 0x30, 6⟩ :: [] ++ [⟨true, 0x10, 0⟩]) ∧
    (sys.team.win.depth = 0 ∧ ∀ y ∈ sys.team.lanes.stack, y.mask = 0) ∧ sys.team.mat.member = none ∧
    (let lk : LinkRec := ⟨0x40, 8, 8, 0, 1, false, 0⟩
     let s (d : Nat) (m : Mask) (ls : List LinkRec) : State := (lanes sys 1 0 [⟨false, 0x20, 1⟩, ⟨true, 0x10, m⟩]).withWin
       { sys.team.win with b := 8, depth := d, links := ls }
     let left (t : State) := t.team.lanes.stack.map (fun e => { e with mask := e.mask &&& ~~~t.team.lanes.active })
     let planed (t : State) (n : Nat) : Bool := inUpperCopy (kern t (fun k => { k with planes := [⟨0, 8, 2, n⟩] })).blk.k.planes 0x40
     (left (s 1 6 [lk]) = [⟨false, 0x20, 0⟩] ++ [⟨true, 0x10, 6⟩] ∧ lk.jd = 1 ∧ (s 1 6 [lk]).team.win.depth ≠ 0
       ∧ inUpperCopy (s 1 6 [lk]).blk.k.planes lk.retOff.toNat = false ∧ planed (s 1 6 [lk]) 0x40 = true
       ∧ (0 : Nat) ≤ 8 - lk.k
       ∧ 8 - lk.k + lk.cfs ≤ 0 + (s 1 6 [lk]).blk.k.ring ∧ (s 1 6 [lk]).team.pre.saving = none
       ∧ (s 1 6 [lk]).team.pre.restoring = none ∧ ({ lk with calli := true } : LinkRec).calli = true
       ∧ ([⟨true, 0x10, 6⟩] : List StackEntry) = [] ++ ⟨true, 0x10, 6⟩ :: [] ++ [] ∧ (6 : Mask) ≠ 0
       ∧ inUpperCopy (s 1 6 [lk]).blk.k.planes (0x10 + 4) = false)
     ∧ (left (s 1 0 [lk]) = [⟨false, 0x20, 0⟩] ++ [⟨true, 0x10, 0⟩] ∧ (s 1 0 [lk]).team.win.depth = 1)
     ∧ (2 ≤ (s 2 6 [lk, { lk with jd := 0 }]).team.win.depth
       ∧ (s 2 6 [lk, { lk with jd := 0 }]).team.win.links = lk :: { lk with jd := 0 } :: [])) := by decide

/-- A station at offset 0x40 and one at 0, room for `n` spawn records. -/
def stations (s : State) (n : Nat) : State := kern s (fun k => { k with stations := [0x40, 0], spawn := n })

theorem witness_EjectAndRefill :
    (let s := stations (sys.setP 2 allLanes 1) 1
     let tgt := s.team.pc + ((BitVec.ofNat 20 16).signExtend 32 <<< 2)
     let g := s.team.lanes.active &&& s.getP 2
     tgt.toNat ∈ s.blk.k.stations ∧ s.blk.k.stations.findIdx? (fun y => y == tgt.toNat) = some 0 ∧ s.team.win.depth = 0
     ∧ g ≠ 0 ∧ s.team.lanes.active &&& ~~~g ≠ 0
     ∧ ((lanesOf s.team.size g).map (fun l => s.spawnRecord l 0)).length + s.blk.spawn.length ≤ s.blk.k.spawn
     ∧ s.team.lanes.active &&& s.getP 3 = 0
     ∧ (kern s (fun k => { k with spawn := 0 })).blk.k.spawn
        < ((lanesOf s.team.size g).map (fun l => s.spawnRecord l 0)).length + s.blk.spawn.length
     ∧ (s.withWin { s.team.win with depth := 1 }).team.win.depth ≠ 0) ∧
    (let s (m : Mask) (n : Nat) : State := kern (stations (lanes (sys.setP 2 allLanes 1) 1 0 [⟨false, 0x20, 1⟩, ⟨true, 0x44, m⟩]) 1)
       (fun k => { k with planes := [⟨0x40 - n, 8, 2, n⟩] })
     let g := (s 6 0).team.lanes.active &&& (s 6 0).getP 2
     g ≠ 0 ∧ (s 6 0).team.lanes.active &&& ~~~g = 0
     ∧ (s 6 0).team.lanes.stack.map (fun e => { e with mask := e.mask &&& ~~~g }) = [⟨false, 0x20, 0⟩] ++ ⟨true, 0x44, 6⟩ :: []
     ∧ ((lanesOf (s 6 0).team.size g).map (fun l => (s 6 0).spawnRecord l 0)).length + (s 6 0).blk.spawn.length ≤ (s 6 0).blk.k.spawn
     ∧ inUpperCopy sys.blk.k.planes (0x44 + 4) = false ∧ inUpperCopy (s 6 8).blk.k.planes (0x44 + 4) = false
     ∧ inUpperCopy (kern (s 6 0) (fun k => { k with planes := [⟨0x40, 8, 2, 8⟩] })).blk.k.planes (0x44 + 4) = true
     ∧ ∀ y ∈ (s 1 0).team.lanes.stack.map (fun e => { e with mask := e.mask &&& ~~~g }), y.mask = 0) ∧
    (0x40 ∉ sys.blk.k.stations ∧ sys.team.pc.toNat ∉ sys.blk.k.stations) ∧
    (let s := phase (stations sys 1) (.waiting (.spawnRoom 1 0))
     s.team.phase = .waiting (.spawnRoom 1 0)
     ∧ ((lanesOf s.team.size 1).map (fun l => s.spawnRecord l 0)).length + s.blk.spawn.length ≤ s.blk.k.spawn
     ∧ s.team.lanes.active &&& ~~~(1 : Mask) ≠ 0) ∧
    (let s := stations sys 1
     s.team.pc.toNat ∈ s.blk.k.stations ∧ s.blk.k.stations.findIdx? (fun y => y == s.team.pc.toNat) = some 1
     ∧ s.team.win.depth = 0 ∧ s.team.lanes.stack = [] ∧ (lanes s 1 0 (deep 1)).team.lanes.stack ≠ []
     ∧ s.refillBad 1 = false ∧ storesWf s = true
     ∧ (let t := lanes s 1 2 []
        ({ t with blk := { t.blk with spawn := [t.spawnRecord 1 1], spadPoison := [1025] } } : State).refillBad 1 = true
        ∧ ({ t with blk := { t.blk with spawn := [t.spawnRecord 1 1], spadPoison := [1026] } } : State).refillBad 1
            = false)) := by decide

/-- A frame of `n` registers at depth `d` with `k` link records on chip. -/
def framed (s : State) (n d k : Nat) : State :=
  s.withWin { s.team.win with fs := n, depth := d, links := List.replicate k ⟨0x40, 8, n, 0, 0, false, 0⟩ }

theorem witness_CallsAndReturns :
    (let s := kern (framed sys 8 14 14) (fun k => { k with maxDepth := 15 })
     let tgt := s.team.pc + ((BitVec.ofNat 21 16).signExtend 32 <<< 2)
     8 * 1 ≤ s.team.win.fs ∧ s.team.win.fs < 8 * 2 ∧ s.team.win.depth ≠ s.blk.k.maxDepth ∧ tgt.toNat % 4 = 0
     ∧ inUpperCopy s.blk.k.planes tgt.toNat = false ∧ ¬(16 ≤ s.team.win.depth ∧ s.team.spillSz = 0)
     ∧ s.team.win.links.length < 16 ∧ (framed sys 8 15 15).team.win.depth = s.blk.k.maxDepth) ∧
    (let s := kern (framed sys 8 16 16) (fun k => { k with maxDepth := 20 })
     s.team.win.depth ≠ s.blk.k.maxDepth ∧ 16 ≤ s.team.win.depth ∧ s.team.spillSz = 0 ∧ 16 ≤ s.team.win.links.length
     ∧ ({ s with team := { s.team with spillSz := 65536 } } : State).team.spillSz ≠ 0) ∧
    (let s := (framed sys 8 1 1).withWin { (framed sys 8 1 1).team.win with b := 8 }
     s.team.win.links = ⟨0x40, 8, 8, 0, 0, false, 0⟩ :: [] ∧ s.team.win.depth ≠ 0 ∧ s.team.lanes.stack.length = 0
     ∧ s.team.win.lo ≤ s.team.win.b - 8 ∧ s.team.win.b - 8 + 8 ≤ s.team.win.lo + s.blk.k.ring
     ∧ s.team.pre.saving = none ∧ s.team.pre.restoring = none ∧ (lanes s 1 0 (deep 1)).team.lanes.stack.length ≠ 0
     ∧ inUpperCopy s.blk.k.planes 0x40 = false
     ∧ inUpperCopy (kern s (fun k => { k with planes := [⟨0x38, 8, 2, 8⟩] })).blk.k.planes 0x40 = true) ∧
    sys.team.win.depth = 0 ∧
    (let s := (framed sys 8 0 0).setV 8 [(0, 0x80), (1, 0x40)]
     s.team.win.cont = false ∧ 8 ≤ 8 ∧ 8 < 8 + 8 * 1 ∧ s.team.lanes.stack.length < 32 ∧ 8 ≤ s.team.win.fs
     ∧ s.team.win.depth ≠ s.blk.k.maxDepth ∧ s.team.win.links.length < 16
     ∧ inUpperCopy s.blk.k.planes 0 = false ∧ s.getV 8 2 = 0 ∧ ¬(8 ≤ 7 ∧ 7 < 8 + 8 * 1)
     ∧ 32 ≤ (lanes s 1 0 (deep 32)).team.lanes.stack.length ∧ 16 ≤ (framed sys 8 16 16).team.win.links.length) ∧
    (let s := lanes ((framed sys 8 0 0).withWin { (framed sys 8 0 0).team.win with cont := true, contLast := 0x40 }) 1 0 [⟨true, 4, 3⟩]
     let u := s.setV 8 [(0, 0x40), (1, 0x80)]
     s.team.win.cont = true ∧ s.team.lanes.stack = ⟨true, 4, 3⟩ :: [] ∧ u.team.win.contLast.toNat < (u.getV 8 1).toNat
     ∧ ∀ lane, lane < 32 → (3 : Mask).getLsbD lane = true → (s.getV 8 lane).toNat ≤ s.team.win.contLast.toNat) := by
  decide

theorem witness_EnterDeclaresFrame :
    (32 ≤ sys.blk.k.ring ∧ sys.team.win.ov ≤ 32 ∧ sys.team.win.b + 32 ≤ sys.blk.k.ring
      ∧ sys.team.win.lo ≤ sys.team.win.b
      ∧ sys.team.win.b + 32 ≤ sys.team.win.lo + sys.blk.k.ring ∧ ¬40 ≤ sys.blk.k.ring ∧ storesWf sys = true) ∧
    (let s := sys.withWin { sys.team.win with b := 8, ov := 8 }
     32 ≤ s.blk.k.ring ∧ s.team.win.ov ≤ 32 ∧ s.blk.k.ring < s.team.win.b + 32
     ∧ s.team.spillSz < 65536 + (s.team.win.b + 32 - s.blk.k.ring) / 8 * 36 * s.team.size
     ∧ ¬(s.team.win.ov ≤ 0)) := by decide

theorem witness_PlaneWords : (3 : Nat) < 4 ∧ sys.vOk 7 = true ∧ sys.vOk 8 = false := by decide

theorem witness_ModeAndSpecialRegisters :
    (∃ c, sys.findCluster sys.blk.cid = some c) ∧
    (let bad (m : Word64) : Prop := 14 ≤ m.toNat % 16 ∨ 6 ≤ m.toNat / 2 ^ 8 % 8 ∨ 2 ^ 13 ≤ m.toNat
     ¬bad 0x1DFD ∧ bad 14 ∧ bad 0x600 ∧ bad 0x2000) ∧
    ((2048 : Nat) % 8 = 0 ∧ 2048 ≤ sys.blk.k.sstack ∧ ¬(2056 ≤ sys.blk.k.sstack) ∧ (4 : Nat) % 8 ≠ 0) :=
  ⟨⟨_, rfl⟩, by decide, by decide⟩

theorem witness_ScalarStackRoundTrip :
    storesWf sys = true ∧ 176 + 16 ≤ 192 ∧ sys.team.sp.ssp % 8 = 0 ∧ sys.team.sp.ssp + 8 * 16 ≤ sys.blk.k.sstack
    ∧ sys.team.sp.ssp < 8 * 1 ∧ (let s := sys.withSp { sys.team.sp with ssp := 2048 }
      s.blk.k.sstack < s.team.sp.ssp + 8 * 1 ∧ 8 * 16 ≤ s.team.sp.ssp
      ∧ s.blk.badRange (s.blk.k.stackOff s.team.tib + (s.team.sp.ssp - 8 * 16)) (8 * 16) = false
      ∧ ({ s.blk with spadPoison := [1055] } : Block).badRange
          (s.blk.k.stackOff s.team.tib + (s.team.sp.ssp - 8 * 16)) (8 * 16) = true)
    ∧ sys.blk.badRange (sys.blk.k.stackOff sys.team.tib + sys.team.sp.ssp) (8 * 16) = false := by decide

theorem witness_YieldAndWatchdog :
    sys.blk.k.yieldMax < 65536 ∧ 65535 ≤ sys.blk.k.yieldMax ∧ sys.team.pre.pending = false ∧
    (let s := { sys with team := { sys.team with deadline := some (2, 2) } }
     s.team.phase = .ready ∧ s.team.deadline = some (2, 2)) ∧
    (∃ s : State, s.team.pre.pending = true ∧ s.blk.k.safePoints = [] ∧ s.team.mat.slots = [] ∧ s.team.mat.tiles = []
      ∧ s.ctxUsed + s.ctxBytes ≤ s.amc.cfg.ctxSize ∧ s.team.uid ≠ 0) ∧
    (∃ s : State, s.team.pre.pending = true ∧ s.blk.k.safePoints = [] ∧ s.team.mat.tiles ≠ []) := by
  refine ⟨by decide, by decide, by decide, by decide,
    ⟨{ sys with team := { sys.team with pre := { sys.team.pre with pending := true } }
                amc := { sys.amc with cfg := { sys.amc.cfg with ctxSize := sys.ctxBytes } } }, rfl, rfl, rfl, rfl, ?_, by decide⟩,
    ⟨{ sys with team := { sys.team with pre := { sys.team.pre with pending := true }
                                        mat := { sys.team.mat with tiles := [(0, [])] } } }, rfl, rfl, by decide⟩⟩
  exact Nat.le_of_eq (Nat.zero_add _)

theorem witness_VectorWriteMeaning :
    storesWf sys = true ∧ sys.team.size ≤ 1024 ∧ sys.vpos 6 ≠ sys.vpos 7 ∧ sys.selected.getLsbD 31 = true
    ∧ (let s := { sys with iss := { sys.iss with pfx := some ⟨3, 1, 0, 0, 0, 0, 0⟩ } }
       s.mz = true ∧ s.iss.lanes.getLsbD 0 = true ∧ s.selected.getLsbD 0 = false) := by decide

theorem witness_VectorArithmeticWords :
    vecReady (mode sys 1) true false [0, 7] false [7]
      ∧ vecReady (mode sys 13) true (isWide (mode sys 13).ty) [0, 6] (isWide (mode sys 13).ty) [6]
    ∧ vecReady (mode sys 5) (isFloat (mode sys 5).ty) (isWide (mode sys 5).ty) [0, 2] (isWide (mode sys 5).ty) [4]
    ∧ vecReady sys (isInt sys.ty) (isWide sys.ty) [1, 2] (isWide sys.ty) [3]
    ∧ vecReady sys true (isWide sys.ty) [1, 2, sys.cReg 3] (isWide sys.ty) [3] := by decide

theorem witness_VectorIntegerElements :
    isInt sys.ty = true ∧ storesWf sys = true ∧ sys.team.size ≤ 1024
    ∧ vecReady sys true (isWide sys.ty) [1, 2] (isWide sys.ty) [3]
    ∧ (let s := mode sys 0x80B
       isInt s.ty = true ∧ vecReady s true (isWide s.ty) [0, 2] (isWide s.ty) [4] ∧ s.vpos 4 ≠ s.vpos 5) := by decide

theorem witness_VectorLogicAndSelectWords :
    vecReady sys true (isWide sys.ty) [0, 7] (isWide sys.ty) [7]
      ∧ vecReady (mode sys 11) true (isWide (mode sys 11).ty) [6] (isWide (mode sys 11).ty) [4]
    ∧ sys.windowOk false [7] = true ∧ vecReady sys (isInt sys.ty) (isWide sys.ty) [1] (isWide sys.ty) [2] := by decide

theorem witness_VectorUnaryAndScalarWords :
    vecReady sys (isInt sys.ty) (isWide sys.ty) [1] (isWide sys.ty) [2]
      ∧ vecReady sys true (isWide sys.ty) [] (isWide sys.ty) [7]
    ∧ vecReady sys true (isWide sys.ty) [1, sys.cReg 2] (isWide sys.ty) [2]
    ∧ vecReady sys (decide (sys.ty ≤ 1)) (isWide sys.ty) [1] (isWide sys.ty) [2]
    ∧ (let s := mode sys 4; vecReady s (isFloat s.ty && s.ty ≠ 13) (isWide s.ty) [1] (isWide s.ty) [2]
       ∧ vecReady s (cvtSet s.ty = cvtSet 0) (isWide s.ty) [1] (isWide 0) [2] ∧ 0 ≠ s.ty) := by decide

theorem witness_SelectWord :
    0xBA2450B4 / 2 ^ 25 = 0x5D ∧ vecReady sys true (isWide sys.ty) [1, 2] (isWide sys.ty) [3] ∧ storesWf sys = true
    ∧ sys.selected.getLsbD 31 = true := by decide

theorem witness_LaneIdentityWord :
    (0xCE240003 / 2 ^ 25 = 0x67 ∧ 0xCE240003 / 2 ^ 4 % 2 ^ 14 = 0 ∧ 0xCE240003 % 16 < 4 ∧ 4 ≤ 0xCE240004 % 16
      ∧ 0xCE240010 / 2 ^ 4 % 2 ^ 14 ≠ 0)
    ∧ storesWf sys = true ∧ sys.team.size ≤ 1024 ∧ vecReady sys true false [] false [7] := by decide

theorem witness_ComparesAndPredicateWords :
    storesWf sys = true ∧ sys.team.size ≤ 1024 ∧ sys.iss.hazard = none
    ∧ vecReady sys (!isPacked sys.ty && (isFloat sys.ty || decide (5 < 6))) (isWide sys.ty) [1, 2] false []
    ∧ (let s := mode sys 2; vecReady s (!isPacked s.ty && (isFloat s.ty || decide (7 < 6))) (isWide s.ty) [1] false []) := by
  decide

theorem witness_CrossLaneWords :
    storesWf sys = true ∧ sys.team.size % 32 = 0 ∧ vecReady sys true false [0] false [] ∧ sys.ty ≤ 1
    ∧ lanesOf sys.team.size sys.selected ≠ [] ∧ vecReady sys true false [0, 3] false []
    ∧ vecReady sys (decide (sys.ty ≤ 1)) false [0, 1, 2] false [] ∧ sys.iss.hazard = none ∧ 191 < 192
    ∧ (let ks := (lanesOf sys.team.size sys.selected).map (fun l => elemInt sys.ty (sys.getV 0 l).toNat)
       (31 : Int) ∈ ks ∧ (∀ z ∈ ks, z ≤ 31) ∧ ∀ z ∈ ks, 0 ≤ z) ∧
    (lanesOf sys.team.size (lanes sys 0 0 []).team.lanes.active = [] ∧ (mode sys 1).ty = 1 ∧ (mode sys 2).ty = 2
      ∧ sys.ty = 0
      ∧ vecReady sys true true [2, 4] false [] ∧ sys.vpos 4 ≠ sys.vpos 5) := by decide

/-- The format word of 0x1B7 in s20 and s21: seven bits, E3M3. -/
def formatted : State := (sys.setS 20 0x1B7).setS 21 0x1B7

theorem witness_BlockWords :
    vecReady formatted true false [1, 2] false [] ∧ 3 < (blockFmt (formatted.fmtWord 20)).perSector
    ∧ (blockFmt (formatted.fmtWord 20)).perSector ≤ 4 ∧ fmtValid (formatted.fmtWord 20) false false = true
    ∧ fmtValid (formatted.fmtWord 20) false true = true ∧ fmtValid (formatted.fmtWord 21) false true = true
    ∧ ¬fmtValid (sys.fmtWord 20) false true = true ∧ ¬fmtValid (sys.fmtWord 20) false false = true
    ∧ (let s := formatted.setS 21 0
       fmtValid (s.fmtWord 20) false true = true ∧ ¬fmtValid (s.fmtWord 21) false true = true) := by
  decide

theorem witness_BlockWriteFrame :
    storesWf sys = true ∧ sys.team.size ≤ 1024
    ∧ (1 < sys.team.size / 16 ∧ sys.selected &&& groupMask 1 ≠ 0) := by decide

theorem witness_VectorFaults :
    vecForm sys (.vrotr 3 1 2) = some ⟨[], [3, 1, 2], true⟩ ∧
    (vecForm (mode sys 11) (.vrotr 3 0 2) = some ⟨[3, 0, 2], [], true⟩ ∧ evenOk true [3, 0, 2] = false) ∧
    (vecForm sys (.vscan 3 0 20 4) = some ⟨[3, 0], [], true⟩ ∧ evenOk true [3, 0] = false) ∧
    (vecForm (mode sys 2) (.vaddi 3 1 5) = some ⟨[], [3, 1], false⟩ ∧ evenOk true [] = true) ∧
    (vecForm (mode sys 13) (.vrcp 4 2) = some ⟨[4, 2], [], false⟩ ∧ evenOk true [4, 2] = true) ∧
    (vecForm sys (.vcmp 1 1 2 6 0) = some ⟨[], [1, 2], false⟩
      ∧ vecForm sys (.vcmps 1 1 2 7 0) = some ⟨[], [1], false⟩) ∧
    (vecForm (late sys) (.vfmas 3 1 20) = some ⟨[], [3, 1, 3], true⟩ ∧ (late sys).iss.hazard = some 0x40) ∧
    (vecForm sys (.vbmax 8 1) = some ⟨[], [8, 1], true⟩ ∧ sys.iss.hazard = none
      ∧ (sys.windowOk true [] && sys.windowOk false [8, 1]) = false) ∧
    (vecForm (mode sys 11) (.vcvt 7 6 0) = some ⟨[6], [7], true⟩ ∧ (mode sys 11).iss.hazard = none
      ∧ ((mode sys 11).windowOk true [6] && (mode sys 11).windowOk false [7]) = true
      ∧ vecForm (mode sys 11) (.vshfl 6 4 8) = some ⟨[6, 4], [8], true⟩
      ∧ ((mode sys 11).windowOk true [6, 4] && (mode sys 11).windowOk false [8]) = false) := by decide

theorem witness_PrefixedPairRuns :
    let s : State := { sys with iss := { sys.iss with pfx := some ⟨16, 1, 6, 3, 1, 2, 31⟩, len := 8 } }
    s.iss.len = 8 ∧ s.iss.pfx = some ⟨16, 1, 6, 3, 1, 2, 31⟩ ∧ takesPrefix (.vadd 1 2 3) = true
    ∧ vecReady s true (isWide s.ty) [2, 3] (isWide s.ty) [1] := by decide

theorem witness_HistogramWords :
    let s := (sys.setS 20 (0xF1 * 2 ^ 56)).setS 21 0x1B7
    let pl : Place := .spad s.blk.bid 0
    let t : State := (s.writeAt (pl.plus 4) 4 8).writeAt (pl.plus 0x10) 4 8
    storesWf s = true ∧ ordinary s pl 144 ∧ vecReady s true false [1] false []
    ∧ s.histPlace (s.getS 20) = .ok pl ∧ s.iss.hazard = none
    ∧ (fmtValid (setField ((s.getS 21).toNat % 2 ^ 32) 28 3 0) false false = true
      ∧ fmtValid (setField (0x500001B7 % 2 ^ 32) 28 3 0) false false = true
      ∧ (blockFmt (s.getS 21).toNat).maxQuanta ≠ 0)
    ∧ binary32.decode 0x7FC00000 = .nan false ∧ binary32.decode 0xFF800000 = .inf true
    ∧ binary32.decode 0x3F800000 = .fin false 8388608 (-23)
    ∧ ((sys.setS 20 (0xF0 * 2 ^ 56)).getS 20).toNat / 2 ^ 56 = 0xF0 ∧ (sys.getS 20).toNat / 2 ^ 56 = 0
    ∧ (let zeros := t.readAt (pl.plus 4) 4
       let bins := (List.range 32).map (fun i => t.readAt (pl.plus (0x10 + 4 * i)) 4)
       ceilDiv (min 32768 65536 * (zeros + bins.sum)) 65536 ≤ zeros
       ∧ zeros < ceilDiv (min 49152 65536 * (zeros + bins.sum)) 65536
       ∧ ceilDiv (min 49152 65536 * (zeros + bins.sum)) 65536 ≤ zeros + (bins.take (0 + 1)).sum) := by
  refine ⟨by decide, rfl, by decide, rfl, rfl, by decide, rfl, rfl, rfl, by decide, by decide, by decide⟩

theorem witness_LoadsReturnData :
    let s := sys.setS 20 0x4000
    let as (w : Nat) := (lanesOf s.team.size s.selected).map (fun lane => (lane, s.getS 20 + BitVec.ofNat 64 ((lane + 0) * w)))
    storesWf s = true ∧ s.team.loads = [] ∧ s.team.size ≤ 1024 ∧ s.iss.hazard = none
    ∧ (∃ p, s.accessOne .load (s.getS 20 + BitVec.ofNat 64 (511 * 8)) 8 8 = .ok p ∧ s.poisonAt p = false)
    ∧ (∃ p, s.accessOne .load (s.getS 20 + BitVec.ofNat 64 (511 * 4)) 4 4 = .ok p ∧ s.poisonAt p = false)
    ∧ vecReady s true (decide (1 = 8)) [1] false (indexRegs 0 1)
    ∧ vecReady s true (decide (8 = 8)) [2] false (indexRegs 0 1)
    ∧ s.vpos 2 ≠ s.vpos 3
    ∧ (∃ ps, s.accessAll .load 1 1 (as 1) = .ok ps ∧ ∀ p ∈ ps, s.poisonAt p.2 = false)
    ∧ (∃ ps, s.accessAll .load 2 2 (as 2) = .ok ps ∧ ∀ p ∈ ps, s.poisonAt p.2 = false)
    ∧ (∃ ps, s.accessAll .load 4 4 (as 4) = .ok ps ∧ ∀ p ∈ ps, s.poisonAt p.2 = false)
    ∧ (∃ ps, s.accessAll .load 8 8 (as 8) = .ok ps ∧ ∀ p ∈ ps, s.poisonAt p.2 = false)
    ∧ (∃ ps, s.accessAll .load 64 64 ((s.groupAddrs 20 0 1).map Prod.snd) = .ok ps ∧ ∀ p ∈ ps, s.poisonAt p.2 = false)
    ∧ (let z : State := { s with iss := { s.iss with pfx := some ⟨1, 1, 0, 0, 0, 0, 0⟩ } }
       31 < z.team.size ∧ z.mz = true ∧ z.iss.lanes.getLsbD 31 = true ∧ z.selected.getLsbD 31 = false
       ∧ (1 < z.team.size / 16 ∧ z.iss.lanes &&& groupMask 1 ≠ 0 ∧ ¬(1 < z.team.size / 16
       ∧ z.selected &&& groupMask 1 ≠ 0))
       ∧ ¬(2 < s.team.size / 16 ∧ s.selected &&& groupMask 2 ≠ 0))
    ∧ (let ld : Load := { lid := 0, off := 0x10, writes := [], poison := some (31, 0x4000), plane := 0 }
       let v : State := { sys with team := { sys.team with loads := [ld] } }
       v.team.loads = [ld] ∧ ld.poison = some (31, 0x4000)) := by
  refine ⟨by decide, rfl, by decide, rfl, ⟨_, rfl, rfl⟩, ⟨_, rfl, rfl⟩, by decide, by decide, by decide, ⟨_, rfl, by decide⟩,
    ⟨_, rfl, by decide⟩, ⟨_, rfl, by decide⟩, ⟨_, rfl, by decide⟩, ⟨_, rfl, by decide⟩, by decide, rfl, rfl⟩

theorem witness_StoresWriteMemory :
    let s := sys.setS 20 0x4000
    let as (w : Nat) := (lanesOf s.team.size s.selected).map (fun lane => (lane, s.getS 20 + BitVec.ofNat 64 ((lane + 0) * w)))
    storesWf s = true ∧ s.team.size ≤ 1024 ∧ s.iss.hazard = none
    ∧ (∃ p, s.accessOne .store (s.getS 20 + BitVec.ofNat 64 (511 * 8)) 8 8 = .ok p)
    ∧ (∃ p, s.accessOne .store (s.getS 20 + BitVec.ofNat 64 (511 * 4)) 4 4 = .ok p)
    ∧ ordinary s (.dev 0x4000) 8 ∧ ordinary s (.spad s.blk.bid 0) 64
    ∧ vecReady s true (decide (1 = 8)) [1] false (indexRegs 0 1)
    ∧ vecReady s true (decide (8 = 8)) [2] false (indexRegs 0 1)
    ∧ (∃ ps, s.accessAll .store 1 1 (as 1) = .ok ps) ∧ (∃ ps, s.accessAll .store 2 2 (as 2) = .ok ps)
    ∧ (∃ ps, s.accessAll .store 4 4 (as 4) = .ok ps) ∧ (∃ ps, s.accessAll .store 8 8 (as 8) = .ok ps)
    ∧ (∃ ps, s.accessAll .store 64 64 ((s.groupAddrs 20 0 1).map Prod.snd) = .ok ps) := by
  refine ⟨by decide, by decide, rfl, ⟨_, rfl⟩, ⟨_, rfl⟩, Or.inl (by decide), rfl, by decide, by decide, ⟨_, rfl⟩,
    ⟨_, rfl⟩, ⟨_, rfl⟩, ⟨_, rfl⟩, ⟨_, rfl⟩⟩

theorem witness_AtomicWords :
    let s := sys.setS 20 0x4000
    let c : State := { s with iss := { s.iss with pfx := some ⟨16, 0, 0, 3, 0, 0, 0⟩ } }
    let as := (lanesOf s.team.size s.selected).map (fun lane => (lane, s.getS 20 + (s.getV 1 lane).signExtend 64))
    storesWf s = true ∧ s.team.loads = [] ∧ s.team.size ≤ 1024 ∧ s.iss.pfx = none ∧ c.iss.pfx ≠ none
    ∧ vecReady s true false [2] false [1] ∧ vecReady c true false ([2] ++ [c.d4]) false [1]
    ∧ (∃ ps, s.accessAll .atomic 4 4 as = .ok ps ∧ (∀ p ∈ ps, s.poisonAt p.2 = false) ∧ ∀ p ∈ ps, p.2 = .dev 0x4000)
    ∧ (∃ p, s.accessOne .atomic (s.getS 20) 8 8 = .ok p ∧ s.poisonAt p = false)
    ∧ (∃ p, s.accessOne .atomic (s.getS 20) 4 4 = .ok p ∧ s.poisonAt p = false) ∧ ordinary s (.dev 0x4000) 8 := by
  refine ⟨by decide, rfl, by decide, rfl, by decide, by decide, by decide, ⟨_, rfl, by decide, by decide⟩, ⟨_, rfl, rfl⟩,
    ⟨_, rfl, rfl⟩, Or.inl (by decide)⟩

theorem witness_SpaceAndCacheWords :
    storesWf sys = true ∧ sys.team.size ≤ 1024 ∧ sys.iss.hazard = none ∧ vecReady sys true true [2] false [1]
    ∧ (∃ y, castValue sys 0 (sys.getS 20).toNat 0 = .ok y) ∧ (∃ c, castValue sys 2 (sys.getS 20).toNat 0 = .error c)
    ∧ (∃ y, castValue sys 2 (0xF1 * 2 ^ 56) 31 = .ok y) ∧ (∃ y, castValue sys 3 (0xF1 * 2 ^ 56) 31 = .ok y)
    ∧ (∃ y, castValue sys 2 (0xF2 * 2 ^ 56) 0 = .ok y) ∧ (∃ y, castValue sys 3 (0xF2 * 2 ^ 56) 0 = .ok y)
    ∧ (∃ c, castValue sys 4 0 0 = .error c)
    ∧ (let x : Nat := 0xF0 * 2 ^ 56 + 1 * 2 ^ 36
       let s : State := { sys with blk := { sys.blk with d := { sys.blk.d with privSz := 64 } } }
       x / 2 ^ 56 = 0xF0 ∧ x / 2 ^ 36 % 256 = s.blk.tag ∧ x / 2 ^ 44 % 4096 = s.team.tib * s.team.size
       ∧ x % 2 ^ 32 < s.blk.d.privSz)
    ∧ vecReady sys true true [2] true [4] ∧ sys.vpos 4 ≠ sys.vpos 5
    ∧ (∀ l, l < 32 → ∃ y, castValue sys 0 (sys.laneImage true 2 (sys.srcLane 0 l)) l = .ok y)
    ∧ isOk (castValue sys 2 (sys.laneImage true 2 (sys.srcLane 0 0)) 0) = false
    ∧ (∃ tg, sys.checkAddr (sys.getS 20 + BitVec.ofNat 64 (0 * 256)) 1 1 0 = .ok tg
        ∧ sys.route .prefetch tg ≠ .error .windowArea)
    ∧ (sys.getS 20).toNat / 2 ^ 56 ∈ [0, 0xF0, 0xF1, 0xF2] := by
  refine ⟨by decide, by decide, rfl, by decide, ⟨_, rfl⟩, ⟨_, rfl⟩, ⟨_, rfl⟩, ⟨_, rfl⟩, ⟨_, rfl⟩, ⟨_, rfl⟩, ⟨_, rfl⟩, by decide,
    by decide, by decide, ?_, by decide, ?_, by decide⟩
  · have h : ∀ l, l < 32 → isOk (castValue sys 0 (sys.laneImage true 2 (sys.srcLane 0 l)) l) = true := by
      decide
    exact fun l hl => exists_of_isOk (h l hl)
  · exact ⟨_, rfl, fun h => nomatch h⟩

theorem witness_FencesAndBarriers :
    (let s : State := { sys with hub := { sys.hub with flushes := [⟨1, [7], none, none, true⟩] } }
     s.hub.written = [] ∧ ∀ f ∈ s.hub.flushes, f.lost = true) ∧
    (let s : State := { sys with hub := { sys.hub with written := [7] } }
     ¬(s.hub.written = [] ∧ ∀ f ∈ s.hub.flushes, f.lost = true)) ∧
    (let s : State := { sys with hub := { sys.hub with flushes := [⟨1, [7], none, none, false⟩] } }
     ¬(s.hub.written = [] ∧ ∀ f ∈ s.hub.flushes, f.lost = true)) ∧
    (sys.blk.k.bars ≤ 16 ∧ 15 < sys.blk.k.bars) ∧
    (smGet 0 sys.team.barA 15 ≤ sys.barCount sys.team false 15
      ∧ smGet 0 sys.team.cbarA 15 ≤ sys.barCount sys.team true 15) ∧
    (let s : State := { sys with team := { sys.team with barA := [(15, 1)], cbarA := [(15, 1)] } }
     s.barCount s.team false 15 < smGet 0 s.team.barA 15 ∧ s.barCount s.team true 15 < smGet 0 s.team.cbarA 15) ∧
    (let bl : Block := { sys.blk with barArr := [(15, 4)] }
     (∀ t ∈ sys.blockTeams bl.bid, t.phase = .ended ∨ (15, t.uid) ∈ bl.barArr) ∧ (15, 4) ∈ bl.barArr
     ∧ smWf (0 : Nat) bl.barC = true) ∧
    (let s := phase sys (.waiting (.barrier false 15 3))
     let t : State := { s with team := { s.team with timeout := some 0 } }
     s.team.phase = .waiting (.barrier false 15 3) ∧ s.team.timeout ≠ some 0 ∧ t.team.timeout = some 0
     ∧ t.team.lanes.active.getLsbD 31 = true) ∧ storesWf sys = true := by decide

/-- A convocation 3 of `n` members, with member `u`. -/
def conv (s : State) (n u : Nat) (f : Bool) : State :=
  { s with blk := { s.blk with convs := [{ cv := 3, n := n, mode := 0, formed := f, dissolved := false, members := [u], broken := false
                                           issues := [] }] } }

/-- Team 7 waits in section `sec` for a convocation of three members. -/
def convoking (sec : Nat) : State :=
  { conv sys 3 7 false with
      others := [{ sys.team with uid := 7, section_ := sec, phase := .waiting (.conv 3 3 0) }]
      launches := sys.launches.map (fun l => { l with from_ := .queue 0 }) }

theorem witness_PhaseBarriersAndConvocations :
    storesWf sys = true ∧ ((sys.getS 20).toNat / 2 ^ 56 ≠ 0xF1 ∧ (sys.getS 20).toNat / 2 ^ 56 ≠ 0xF2) ∧
    (let s := sys.setS 20 (0xF1 * 2 ^ 56)
     let pl : Place := .spad s.blk.bid 0
     let word (t : State) (i : Nat) := t.readAt (pl.plus (4 * i)) 4
     s.accessOne .atomic (s.getS 20) 16 16 = .ok pl ∧ s.poisonAt pl = false ∧ ordinary s pl 16 ∧ word s 1 = 0
     ∧ 1 < word (s.writeAt (pl.plus 4) 4 2) 1
     ∧ (let d := (BitVec.ofNat 32 (word (s.writeAt (pl.plus 8) 4 1) 2) - (0 : Word32)).toNat; 0 < d ∧ d < 2 ^ 31)
     ∧ ¬(0 < (BitVec.ofNat 32 (word s 2) - (0 : Word32)).toNat)) ∧
    (let m : State := sys.withMat { sys.team.mat with member := some ⟨3, 0, 0⟩ }
     m.team.mat.member ≠ none ∧ sys.team.mat.member = none ∧ sys.blk.findConv 3 = none
     ∧ (∃ y, (conv sys 1 9 true).blk.findConv 3 = some y ∧ y.formed = true)
     ∧ (∃ y, (conv m 1 4 true).blk.findConv 3 = some y ∧ y.issues = [])) ∧
    (∃ y, (conv sys 2 9 false).blk.findConv 3 = some y ∧ y.formed = false
      ∧ (conv sys 2 9 false).convConflict y 2 0 = false
      ∧ y.members.length + 1 = 2
      ∧ sys.team.uid ∈ (conv sys 2 9 false).bySection (y.members ++ [sys.team.uid])) ∧
    (sys.findTeam sys.team.uid = some sys.team ∧ sys.blk.findConv 3 = none) ∧
    (∃ y v, (convoking 0).blk.findConv 3 = some y ∧ y.formed = false ∧ (convoking 0).convConflict y 2 0 = true
      ∧ (convoking 0).blk.k.trapEntry = none ∧ (convoking 0).blk.bid = (convoking 0).team.bid
      ∧ (∀ l ∈ (convoking 0).launches, ∀ rcb, l.from_ ≠ .handler rcb) ∧ ((convoking 0).teams.map Team.uid).Nodup
      ∧ (convoking 0).team.uid ≠ 0 ∧ (convoking 0).team.phase = .ready ∧ (convoking 0).team.pre.wait = none
      ∧ (convoking 0).team.pre.held = none ∧ (convoking 0).team.uid ∉ y.members ∧ y.members.Nodup ∧ y.members = [7]
      ∧ (convoking 0).findTeam 7 = some v ∧ v.bid = (convoking 0).team.bid ∧ v.phase = .waiting (.conv 3 y.n y.mode)) ∧
    (∃ y, (convoking 1).blk.findConv 3 = some y ∧ y.formed = false ∧ (convoking 1).convConflict y 3 0 = false
      ∧ y.members.length + 1 ≠ 3) :=
  ⟨by decide, by decide, ⟨rfl, rfl, rfl, by decide, by decide, by decide, by decide⟩,
    ⟨by decide, rfl, rfl, ⟨_, rfl, rfl⟩, ⟨_, rfl, rfl⟩⟩, ⟨_, rfl, rfl, by decide, rfl, by decide⟩, ⟨rfl, rfl⟩,
    ⟨_, _, rfl, rfl, by decide, rfl, rfl, fun l hl rcb => by obtain rfl := List.mem_singleton.mp hl; exact nofun,
      by decide, by decide, rfl, rfl, rfl, by decide, by decide, rfl, rfl, rfl, rfl⟩,
    ⟨_, rfl, rfl, by decide, by decide⟩⟩

theorem witness_CounterWords :
    (∃ r, sys.teamRegion = some r ∧ r.acBase ≤ 1023 ∧ 1023 < r.acBase + r.acCount) ∧
    ((1024 + 63).testBit 10 = true ∧ 1024 + 63 < 2048 ∧ (1024 + 63) % 1024 < sys.blk.d.ccount
      ∧ Nat.testBit 1023 10 = false) ∧
    (¬((2048 : Nat) < 2048) ∧ ¬((1024 + 64) % 1024 < 64)) ∧
    (let s : State := { sys with team := { sys.team with fenced := true }, hub := { sys.hub with written := [7] } }
     s.team.fenced = true ∧ ¬(s.hub.written = [] ∧ ∀ f ∈ s.hub.flushes, f.lost = true) ∧ sys.team.fenced = false) ∧
    (sys.blk.bid = sys.team.bid ∧ sys.blk.bid ≠ 0 ∧ storesWf sys = true ∧ smWf (0 : Nat) sys.blk.counters = true
      ∧ smWf (0 : Nat) sys.hub.arrival = true ∧ sys.iss.hazard = none) ∧
    (let s : State := { sys with blk := { sys.blk with counters := [(63, 2 ^ 63 + 5)] } }
     (smGet 0 s.blk.counters 63).testBit 63 = true ∧ 5 ≤ smGet 0 s.blk.counters 63 % 2 ^ 32
     ∧ smGet 0 s.blk.counters 63 % 2 ^ 32 < 6
     ∧ (let w : State := phase ((s.setS 20 1087).setS 21 6) (.waiting (.counter 22 1087 6))
        (w.getS 20).toNat = 1087 ∧ (w.getS 21).toNat = 6 ∧ w.team.phase = .waiting (.counter 22 1087 6)
        ∧ smGet 0 w.blk.counters 63 % 2 ^ 32 < 6)
     ∧ (phase (s.setS 21 5) (.waiting (.counter 22 1087 5))).team.phase = .waiting (.counter 22 1087 5)) :=
  ⟨⟨_, rfl, by decide, by decide⟩, by decide, by decide, by decide, by decide, by decide⟩

/-- Slots 0 and 1 and tile 2 are bound. -/
def claimed (s : State) : State := s.withMat { s.team.mat with slots := [(0, Slot.zero), (1, Slot.zero)], tiles := [(2, [])] }

theorem witness_MatrixClaimsAndTiles :
    (32 < 30 + 3 ∧ sys.blk.k.accs < 17 ∧ ¬(32 < 0 + 32 ∨ sys.blk.k.slots < 32) ∧ sys.team.mat.slots = []
      ∧ sys.team.mat.tiles = []
      ∧ 32 ≤ sys.claimFree true sys.team.bid sys.team.core ∧ 16 ≤ sys.claimFree false sys.team.bid sys.team.core
      ∧ (kern sys (fun k => { k with slots := 2 })).claimFree true sys.team.bid sys.team.core < 3) ∧
    ((claimed sys).team.mat.slots ≠ [] ∧ 1 ∈ (claimed sys).team.mat.slots.map Prod.fst
      ∧ ∀ k ∈ (List.range 2).map (fun i => 0 + i), k ∈ (claimed sys).team.mat.slots.map Prod.fst) ∧
    (let s := phase sys (.waiting (.claim true 0 2 20))
     let t : State := { s with blk := { s.blk with slotQueue := [(9, 0), (4, 0)] } }
     let first (u : State) := (u.blk.slotQueue.map Prod.fst).find? (fun i => match u.findTeam i with | some v => v.core == u.team.core | none => false)
     s.team.phase = .waiting (.claim true 0 2 20) ∧ first s ≠ some s.team.uid ∧ first t = some t.team.uid
     ∧ 2 ≤ t.claimFree true t.team.bid t.team.core) ∧
    (let s := ({ sys with others := [{ sys.team with uid := 7, tib := 5 }] } : State)
     let tib (u : Nat) : Nat := match s.findTeam u with | some v => v.tib | none => 0
     ([(7, s.clk)] : List (Nat × Nat)) = [] ++ [(7, s.clk)]
     ∧ (∀ y ∈ ([(7, s.clk)] : List (Nat × Nat)).head?, ¬(y.2 < s.clk ∨ tib y.1 < s.team.tib))) ∧
    ((claimed sys).vOk 7 = true ∧ storesWf (claimed sys) = true ∧ (claimed sys).team.size ≤ 1024
      ∧ (claimed sys).iss.hazard = none
      ∧ ((claimed sys).team.mat.tiles.find? (fun y => y.1 == 2)).map Prod.snd = some []
      ∧ smWf (0 : Word32) ([] : Tile) = true
      ∧ ((claimed sys).team.mat.slots.find? (fun y => y.1 == 1)).map Prod.snd = some Slot.zero ∧ Slot.zero.kind ≠ .dense
      ∧ ({ Slot.zero with kind := .dense } : Slot).kind = .dense ∧ smWf (0 : Nat) Slot.zero.scales = true
      ∧ Slot.zero.kc < 3
      ∧ smWf (0 : Nat) Slot.zero.codes = true
      ∧ (sys.getS 20).toNat + 31 / 32 < 32 ∧ sys.team.lanes.active &&& groupMask 1 ≠ 0) := by decide

theorem witness_MatrixStepsAndTransfers :
    let s := ((claimed sys).setS 20 (0xF1 * 2 ^ 56)).setS 21 0x133
    let d : State := s.withSp { s.team.sp with dcw := 0x11 }
    let at_ := (s.blk.bid, 0)
    (s.iss.hazard = none ∧ s.team.mat.member = none ∧ s.team.uid ≠ 0 ∧ s.others = []) ∧
    (s.team.lanes.active = firstLanes s.team.size ∧ (lanes s 1 0 []).team.lanes.active ≠ firstLanes s.team.size
      ∧ 1 ≤ s.team.tokSteps + (256 - smGet 0 s.freeSteps s.team.core)
      ∧ ¬(1 ≤ s.team.tokSteps + (256 - smGet 0 ({ s with freeSteps := [(0, 256)] } : State).freeSteps 0))
      ∧ Slot.zero.kind = .zero) ∧
    ((s.team.mat.slots.find? (fun z => z.1 == 1)).map Prod.snd = some Slot.zero
      ∧ (s.team.mat.tiles.find? (fun z => z.1 == 2)).map Prod.snd = some []) ∧
    (after (.mmaZ 2 0 1 0 0 0) s).team.mat.steps = [{ acc := 2, fromZero := true, reads := [(4, 0), (4, 1)], chunks := [(Slot.zero, Slot.zero)] }] ∧
    ((s.team.mat.slots.find? (fun z => z.1 == 3)).map Prod.snd = none
      ∧ (List.range (1 + 1)).filter (fun i => !((s.setS 22 1).getS 22).getLsbD i) = [1]
      ∧ (List.range (31 + 1)).filter (fun i => !((s.setS 22 0xFFFFFFFF).getS 22).getLsbD i) = []
      ∧ 256 ≤ s.team.tokSteps + (256 - smGet 0 s.freeSteps s.team.core)) ∧
    (({ Slot.zero with kind := .dense, kc := 2 } : Slot).kc = ({ Slot.zero with kind := .structured, kc := 2 } : Slot).kc
      ∧ ({ Slot.zero with kind := .dense, kc := 2 } : Slot).kind ≠ .zero) ∧
    (s.imagePlace .load (s.getS 20) 2048 = .ok at_ ∧ s.imagePlace .load (s.getS 20) 4096 = .ok at_
      ∧ s.imagePlace .store (s.getS 20) 2048 = .ok at_ ∧ slotFormatOk 1 (s.getS 21) = true
      ∧ slotFormatOk 0 (s.getS 22) = true
      ∧ (∀ j, j < 64 → s.poisonAt (.spad at_.1 (at_.2 + 64 * j)) = false) ∧ s.team.mat.transfers = []) ∧
    (dcwOk d.team.sp.dcw = true ∧ ∀ j, j < 32 → positionsOk (dcwN d.team.sp.dcw) (dcwM d.team.sp.dcw)
      (32 * 2 ^ 1 * dcwN d.team.sp.dcw / dcwM d.team.sp.dcw) (d.readAt (.spad at_.1 (at_.2 + 64 * (32 + j))) 64) = true) ∧
    (storesWf s = true ∧ ordinary s (.spad at_.1 at_.2) 2048 ∧ at_.2 % 64 = 0
      ∧ fmtValid (s.fmtWord 21) false false = true
      ∧ 1 < (blockFmt (s.fmtWord 21)).perSector / 2) := by
  refine ⟨by decide, by decide, by decide, by decide, by decide, by decide, ⟨rfl, rfl, rfl, by decide, by decide, by decide, rfl⟩, ⟨by decide, by decide⟩,
    by decide, rfl, rfl, by decide, by decide⟩

/-- Two members, teams 4 and 7, of a convocation 3 in `mode`, slots 0 and 1 and tile 2 of both bound; team 7 waits with
the word `w`. -/
def ganged (mode w : Nat) : State :=
  let s := claimed sys
  let m : Matrix := { s.team.mat with member := some ⟨3, 0, 0⟩ }
  { s with team := { s.team with mat := m }
           others := [{ s.team with uid := 7, mat := m, phase := .waiting (.step w) }]
           launches := s.launches.map (fun l => { l with from_ := .queue 0 })
           blk := { s.blk with convs := [{ cv := 3, n := 2, mode := mode, formed := true, dissolved := false, members := [4, 7]
                                           broken := false, issues := [⟨7, w⟩] }] } }

theorem witness_gangSteps :
    (∀ mode, mode = 0 ∨ mode = 1 → let s := ganged mode sys.iss.word
      (s.iss.hazard = none ∧ s.team.uid ≠ 0 ∧ (∀ u ∈ s.others, u.uid ≠ s.team.uid)
        ∧ s.team.lanes.active = firstLanes s.team.size
        ∧ 1 ≤ s.team.tokSteps + (256 - smGet 0 s.freeSteps s.team.core)) ∧
      (∃ v, s.blk.findConv 3 = some v ∧ v.dissolved = false ∧ v.broken = false ∧ v.mode = mode
        ∧ v.issues.length + 1 = v.n
        ∧ v.members = [4, 7] ∧ v.members.Nodup ∧ s.team.uid ∈ v.members
        ∧ v.members.filter (fun i => i != s.team.uid) = [7]
        ∧ (∀ y ∈ v.issues, y.word = s.iss.word)) ∧
      (∃ h, s.findTeam 4 = some s.team ∧ s.findTeam 7 = some h ∧ h.uid = 7 ∧ h.phase = .waiting (.step sys.iss.word)
        ∧ h.bid = s.team.bid ∧ (2, []) ∈ h.mat.tiles ∧ (2, []) ∈ s.team.mat.tiles
        ∧ (h.mat.slots.find? (fun z => z.1 == 1)).map Prod.snd = some Slot.zero
        ∧ (s.team.mat.slots.find? (fun z => z.1 == 0)).map Prod.snd = some Slot.zero
        ∧ (h.mat.slots.find? (fun z => z.1 == 9)).map Prod.snd = none) ∧
      (s.blk.k.trapEntry = none ∧ s.blk.bid = s.team.bid ∧ s.team.phase = .ready
        ∧ (∀ l ∈ s.launches, ∀ rcb, l.from_ ≠ .handler rcb) ∧ (s.teams.map Team.uid).Nodup)) ∧
    (∃ v, (ganged 0 1).blk.findConv 3 = some v ∧ ∃ y ∈ v.issues, y.word ≠ (ganged 0 1).iss.word) ∧
    (let s : State := { ganged 0 0 with freeSteps := [(0, 256)] }
     let g : State := { s with team := { s.team with granted := some s.team.pc } }
     ¬(1 ≤ s.team.tokSteps + (256 - smGet 0 s.freeSteps s.team.core) ∨ s.team.granted = some s.team.pc)
     ∧ g.team.granted = some g.team.pc) ∧
    (∃ v, (conv (ganged 0 0) 2 4 true).blk.findConv 3 = some v ∧ v.issues.length + 1 ≠ v.n) := by
  refine ⟨fun mode hm => ?_, ⟨_, rfl, _, List.mem_cons_self, by decide⟩, by decide, ⟨_, rfl, by decide⟩⟩
  obtain rfl | rfl := hm <;>
    exact ⟨by decide, ⟨_, rfl, by decide⟩, ⟨_, rfl, rfl, by decide⟩,
      ⟨rfl, rfl, rfl, fun l hl rcb => by obtain rfl := List.mem_singleton.mp hl; exact nofun, by decide⟩⟩

/-- A buffer descriptor of one row: base, elements, ELEM, FLAGS (R131). -/
def descBytes (base dim0 elem flags : Nat) : Nat :=
  base + dim0 * 2 ^ 64 + 2 ^ 96 + 2 ^ 128 + 2 ^ 160 + 64 * 2 ^ 192 + 64 * 2 ^ 240 + 64 * 2 ^ 288 + elem * 2 ^ 416
    + flags * 2 ^ 424

/-- Records in memory, each an address, a length and a number. -/
def holding (s : State) : List (Nat × Nat × Nat) → State
  | [] => s
  | (a, n, x) :: rest => holding { s with mem := storeLe s.mem a n x } rest

/-- Four descriptors from 0x5000 on, named by s20, s21, s22 and the auxiliary register s27. -/
def descs : State :=
  holding ((((sys.setS 20 0x5000).setS 21 0x5080).setS 27 0x50C0).setS 28 0x5080)
    [(0x5000, 64, descBytes 0x8000 1 1 0), (0x5040, 64, descBytes 0x8040 1 1 0), (0x5080, 64, descBytes 0x8080 1 1 0),
     (0x50C0, 64, descBytes 0x80C0 1 4 0), (0x5100, 8, 16), (0x5108, 8, 0x5080), (0x5110, 8, 0x5080)]

/-- A row of 64 bytes. -/
def rowAt (base : Nat) : Desc := descOf (natLe (descBytes base 16 1 0) 64)

/-- An active publish entry 0 over 64 KiB at 0x10000. -/
def published (s : State) : State :=
  let e := 0x10000 + 0x10000 * 2 ^ 64 + 0x40000 * 2 ^ 128 + 0x50000 * 2 ^ 192 + 1 * 2 ^ 256
  { s with hub := { s.hub with publish := storeLe s.hub.publish 0 40 e } }

theorem witness_EngineCommandWords :
    let s := descs
    let d := descOf (s.bytesAt (.dev 0x5000) 64)
    let e := descOf (s.bytesAt (.dev 0x5040) 64)
    let src := descOf (s.bytesAt (.dev 0x5080) 64)
    let x := descOf (s.bytesAt (.dev 0x50C0) 64)
    (s.iss.hazard = none ∧ (s.cmds.filter (fun x => x.core == s.team.core && !x.fired && x.cpQueue.isNone)).length < 32
      ∧ s.team.tokCopy < 1 ∧ s.team.granted ≠ some s.team.pc
      ∧ (let w : State := { s with team := { s.team with granted := some s.team.pc } }; w.team.granted = some w.team.pc)) ∧
    (s.readDesc (s.getS 20) = .ok d ∧ s.readDesc (s.getS 20 + 64) = .ok e ∧ s.readDesc (s.getS 21) = .ok src
      ∧ s.readDesc (s.control 24).aux = .ok x) ∧
    (s.controlOk (s.control 24) true = true ∧ copyOk [d] src false = true ∧ copyOk [d, e] src false = true
      ∧ s.controlOk (s.control 24) false = true ∧ gatherOk src d x = true ∧ gatherOk d src x = true
      ∧ copyOk [rowAt 0x9000] src false = false
      ∧ (s.control 24).ctl.getLsbD 17 = false) ∧
    (∃ h, s.loadUnit 0x5100 8 = .ok h ∧ leNat h = 16) ∧ (∃ h, s.loadUnit 0x5000 8 = .ok h ∧ 16 < leNat h) ∧
    (∃ bs cs, s.loadUnits 0x5108 8 2 = .ok bs
      ∧ (List.range 2).mapM (fun k => s.readDesc (BitVec.ofNat 64 (leNat ((bs.drop (8 * k)).take 8)))) = .ok cs) ∧
    (∃ bm, s.loadUnits (s.getS 20) 64 2 = .ok bm) ∧
    (s.getS 25 = 0 ∧ s.getS 20 ≠ 0 ∧ s.sendOk 0 0 = true ∧ d.ok true = true ∧ s.sendOk 0 1 = false
      ∧ s.windowOk false [7] = true
      ∧ s.windowOk false [8] = false) ∧
    (∃ bs, s.loadUnit 0x6000 32 = .ok bs ∧ s.grantOk 1023 = true ∧ s.sendOk (leNat ((bs.drop 16).take 8)) 0 = true
      ∧ s.tableUse < 4096 ∧ s.hub.armed = [] ∧ s.arrival 1023 < 1) ∧
    (let p := published (holding s [(0x5000, 64, descBytes 0x10000 1 1 1)])
     let d := descOf (p.bytesAt (.dev 0x5000) 64)
     let i := 0
     let lost : State := { p with hub := { p.hub with flushes := [⟨1, [7], none, none, true⟩] } }
     let sent : State := { p with hub := { p.hub with written := [7] } }
     let x : Cmd := { Cmd.fresh with uid := 4, kind := .copy [d] src false }
     let m : Send := { src := some d, srcAddr := 0, imm := none, peer := 0x1FFFF, cen := false, cc := 0, rinc := false, rcnt := 0, dev := 0 }
     p.readDesc (p.getS 20) = .ok d ∧ d.ok false = true ∧ d.db = true ∧ p.hub.pubFind p.teamRid d.base.toNat = some i
     ∧ storesWf p = true ∧ p.cmds = [] ∧ p.team.badBuffers = [] ∧ p.hub.syncs = []
     ∧ (p.hub.written = [] ∧ ∀ f ∈ p.hub.flushes, f.lost = true)
     ∧ (lost.hub.written = [] ∧ ∀ f ∈ lost.hub.flushes, f.lost = true)
     ∧ ¬(sent.hub.written = [] ∧ ∀ f ∈ sent.hub.flushes, f.lost = true)
     ∧ (x.uid = p.team.uid ∧ ∃ y ∈ x.kind.dsts, y.db = true ∧ p.hub.pubFind p.teamRid y.base.toNat = some i)
     ∧ (m.dev = p.amc.cfg.device ∧ m.src = some d ∧ p.hub.pubFind p.teamRid m.peer = some i)
     ∧ (let u : Send := { m with src := none, srcAddr := 0x5020 }; u.src = none ∧ u.srcAddr ≠ 0)
     ∧ ((0x1FFFF : Nat) ∈ ({ p.team with badBuffers := [0x1FFFF] } : Team).badBuffers)) := by
  refine ⟨by decide, ⟨rfl, rfl, rfl, rfl⟩, by decide, ⟨_, rfl, by decide⟩, ⟨_, rfl, by decide⟩, ⟨_, _, rfl, rfl⟩, ⟨_, rfl⟩, by decide,
    ⟨_, rfl, by decide, by decide, by decide, rfl, by decide⟩, ⟨rfl, by decide, by decide, by decide, by decide, rfl, rfl, rfl, by decide, by decide, by decide,
      ⟨rfl, _, List.mem_singleton_self _, by decide, by decide⟩, by decide, by decide⟩⟩

/-- A command of the team in focus. -/
def cmdOf (kind : CmdKind) (st : CmdStatus) : Cmd :=
  { Cmd.fresh with id := 9, uid := 4, bid := 3, lid := 1, rcb := 0x1000, system := true, op := 0x77, kind := kind, status := st }

/-- That command alone, named by the event. -/
def commanded (s : State) (c : Cmd) : State := { s with cmds := [c], arg := { s.arg with id := 9 } }

theorem witness_EngineCommandRuns :
    (let c := cmdOf (.copy [rowAt 0x8000] (rowAt 0x9000) false) .queued
     let f := cmdOf (.flush true 0) .queued
     let other : Cmd := { c with id := 8 }
     (commanded sys c).argCmd = some c ∧ (commanded sys c).cmdFirst c = true ∧ (commanded sys f).cmdFirst f = true
     ∧ ({ commanded sys c with cmds := [other, c] } : State).cmdFirst c = false) ∧
    (let c := cmdOf (.copy [rowAt 0x8000] (rowAt 0x9000) false) .running
     let s := commanded sys c
     let d := rowAt 0x8000
     let src := rowAt 0x9000
     s.argCmd = some c ∧ c.mark = Cmd.fresh.mark ∧ c.loose = none ∧ c.refused = [] ∧ c.sentUnits = [] ∧ s.records = []
     ∧ (∀ x ∈ s.teams, x.phase ≠ .waiting .mismatch ∧ x.check = none)
     ∧ s.cmdWaits c = false ∧ s.queues = [] ∧ (∀ b ∈ s.allBlocks, b.convs = []) ∧ storesWf s = true ∧ d.elem ≠ 0
     ∧ src.elem = d.elem
     ∧ d.rowBytes = 64 ∧ src.rowBytes = 64 ∧ d.dim1 = 1 ∧ d.dim2 = 1 ∧ d.dim3 = 1 ∧ d.flags = 0 ∧ d.owner = 0
     ∧ d.base.toNat < 2 ^ 56 ∧ d.base.toNat % 64 + 64 ≤ 64 ∧ src.base.toNat % 64 + 64 ≤ 64) ∧
    (let c := cmdOf (.copy [rowAt 0x8000] (rowAt 0x9000) false) .running
     let s := commanded sys c
     let v : View := (s.asCmd c).teamView
     c.mem = Cmd.fresh.mem ∧ s.translate v .engineRead (rowAt 0x9000).base.toNat = .ok 0x9000
       ∧ s.poisonAt (.dev 0x9000) = false
     ∧ (s.noteVa v .engineRead (rowAt 0x9000).base.toNat).translate v (.engineWrite false) (rowAt 0x8000).base.toNat = .ok 0x8000
     ∧ ordinary s (.dev 0x8000) 64 ∧ 0x8000 + 64 ≤ 0x9000) ∧
    (let x : Send := { src := none, srcAddr := 0, imm := none, peer := 0, cen := true, cc := 63, rinc := false, rcnt := 0, dev := 1 }
     let c : Cmd := { cmdOf (.send x) .running with ctl := BitVec.ofNat 64 (128 + 63) }
     let s := commanded sys c
     s.argCmd = some c ∧ c.sentUnits = [] ∧ s.records = [] ∧ (∀ y ∈ s.teams, y.phase ≠ .waiting .mismatch
       ∧ y.check = none)
     ∧ x.dev ≠ s.amc.cfg.device ∧ s.cmdWaits c = false ∧ s.queues = [] ∧ c.bid = s.blk.bid ∧ c.bid ≠ 0
     ∧ (∀ b ∈ s.allBlocks, b.convs = []) ∧ smWf (0 : Nat) s.blk.counters = true) ∧
    (let c := cmdOf (.copy [rowAt 0x8000] (rowAt (2 ^ 40)) false) .running
     let s := commanded sys c
     s.argCmd = some c ∧ s.cmdWaits c = false ∧ ∃ u c' e sent k x, s.runCmd c = (u, c', some e, sent)
       ∧ (match c'.dom with | some d => some d | none => u.domRef c'.rcb) = some k ∧ u.findDomain k.rcb = some x
       ∧ x.nextTicket < 0xFFFFFFFF ∧ x.waiting ++ x.open_ = []) ∧
    (let s := { published sys with hub := { (published sys).hub with syncs := [(0, 1023)] }
                                   arg := { sys.arg with id := 0, len := 1 } }
     let e := s.hub.pubEntry 0
     storesWf s = true ∧ 1023 < e.size / 64 ∧ 1023 + 1 = e.size / 64 ∧ (e.backings.1 + 64 * 1023) % 64 = 0
     ∧ e.backings.1 ≠ e.backings.2) ∧
    (let s : State := { sys with arg := { sys.arg with addr := 8, bytes := natLe 0x10000 8 } }
     let t : State := { published sys with arg := { sys.arg with addr := 8, bytes := natLe 0 8 } }
     let u : State := { s with arg := { s.arg with addr := 16 } }
     s.arg.addr % s.arg.bytes.length = 0 ∧ s.arg.addr + s.arg.bytes.length ≤ pubSize
       ∧ u.hub.pubField (u.arg.addr / 64) 8 8 = 0
     ∧ 16 ≤ u.arg.addr % 64 ∧ t.hub.pubField (t.arg.addr / 64) 8 8 ≠ 0 ∧ t.arg.addr % 64 = 8 ∧ leNat t.arg.bytes = 0
     ∧ storesWf t = true) ∧
    ((0 : Nat) < hbmEnd ∧ sys.team.uid ≠ 0 ∧ sys.team.phase = .ready ∧ sys.ownHandler = none) := by
  refine ⟨by decide, by decide, ⟨rfl, rfl, rfl, rfl, Or.inl (by decide), by decide⟩, by decide,
    ⟨rfl, by decide, ⟨_, _, _, _, _, _, rfl, rfl, rfl, by decide, rfl⟩⟩, by decide, by decide, by decide⟩

/-- A fault record of ticket 5, about team `uid`. -/
def recOf (uid : Option Nat) (spill : Bool) : FaultRec :=
  { stamp := 1, rcb := 0x1000, ticket := 5, cause := if spill then 0x0F else 0x11, kind := 0, restart := true, spill := spill
    teamId := 0, plane := 0, body := natLe 0 32, uid := uid, cmd := none, fqSize := loaderRegion.fqSize, fqBase := loaderRegion.fqBase
    fqRoot := loaderRegion.ptroot, fqRid := loaderRegion.rid }

/-- The fault domain of the partition. -/
def domained (s : State) (f : Domain → Domain) : State :=
  { s with domains := s.domains.map f, arg := { s.arg with id := 0x1000 } }

/-- Team 7, Held by a fault, beside the team in focus. -/
def beside (s : State) : State :=
  { s with others := [{ sys.team with uid := 7, phase := .held, fault := some (sys.flt .windowRange) }] }

theorem witness_PrivilegedWordsAndFaultQueue :
    (sys.team.system = true ∧ storesWf sys = true ∧ (∃ p, sys.partition sys.team.rcb = some p)
      ∧ (∃ x, sys.ownDomain = some x)
      ∧ (∃ r, sys.blk.eff = some r) ∧ ({ sys.blk with eff := none } : Block).eff = none) ∧
    (∃ k x, sys.teamDomain = some k ∧ k.rcb = 0x1000 ∧ sys.findDomain k.rcb = some x ∧ ∀ y ∈ x.open_, y.ticket ≠ 5) ∧
    (∃ x h, let s := beside (domained sys (fun d => { d with open_ := [recOf (some 7) true] }))
      s.findDomain 0x1000 = some x ∧ x.open_.find? (fun z => z.ticket == 5) = some (recOf (some 7) true)
      ∧ (recOf (some 7) true).cmd = none
      ∧ 7 ≠ s.team.uid ∧ s.findTeam 7 = some h ∧ h.phase = .held ∧ h.fault = some (sys.flt .windowRange)
      ∧ h.spillSz < 65536
      ∧ ∀ m ∈ s.domains, ∀ z ∈ m.waiting ++ m.open_, z.uid = some 7 → m.rcb = 0x1000 ∧ z.ticket = 5) ∧
    (let s := beside (domained sys (fun d => { d with open_ := [recOf (some 7) true], waiting := [recOf (some 7) false] }))
     ∃ m ∈ s.domains, ∃ z, z.uid = some 7 ∧ (z ∈ m.waiting ∨ (z ∈ m.open_ ∧ ¬(m.rcb = 0x1000 ∧ z.ticket = 5)))) ∧
    (let w (a : Nat) := 5 + a * 2 ^ 32
     w 0 / 2 ^ 32 % 4 = 0 ∧ w 1 / 2 ^ 32 % 4 = 1 ∧ w 2 / 2 ^ 32 % 4 = 2 ∧ w 3 / 2 ^ 32 % 4 = 3 ∧ w 3 % 2 ^ 32 = 5
     ∧ (recOf none true).restart = true ∧ (recOf none false).spill = false) ∧
    ((sys.setS 20 (2 ^ 56)).getS 20 = 2 ^ 56 ∧ (∃ p, sys.partition 0x1000 = some p ∧ p.rid = sys.teamRid)) ∧
    (∃ x u, let s := domained sys (fun d => { d with waiting := [recOf (some 4) false] })
      s.findDomain s.arg.id = some x ∧ recOf (some 4) false ∈ x.waiting
      ∧ (∀ z ∈ x.waiting, z = recOf (some 4) false ∨ stampAfter z.stamp (recOf (some 4) false).stamp = true)
      ∧ (x.tail - x.head).toNat < (recOf (some 4) false).fqSize
      ∧ (∀ h, (recOf (some 4) false).uid.bind s.findTeam = some h → h.loads = [] ∧ h.mat.steps = []
      ∧ h.mat.transfers = [])
      ∧ s.writeVa { rid := (recOf (some 4) false).fqRid, root := (recOf (some 4) false).fqRoot, user := false, core := none
                    own := s.ridOf x.rcb } .store ((recOf (some 4) false).fqBase + 64 * (x.tail.toNat % (recOf (some 4) false).fqSize))
          (recOf (some 4) false).bytes = .ok u) ∧
    (∃ h, (recOf (some 4) false).uid.bind (loading sys).findTeam = some h ∧ h.loads ≠ []) ∧
    (∃ x, let s := domained sys (fun d => { d with tail := 16, handler := some 1 })
      s.findDomain s.arg.id = some x ∧ (recOf none false).fqSize ≤ (x.tail - x.head).toNat ∧ x.handler ≠ none) := by
  refine ⟨⟨rfl, by decide, ⟨_, rfl⟩, ⟨_, rfl⟩, ⟨_, rfl⟩, rfl⟩, ⟨_, _, rfl, rfl, rfl, by decide⟩, ⟨_, _, rfl, rfl, rfl, by decide, rfl, rfl, rfl, by decide, by decide⟩,
    ⟨_, List.mem_cons_self, recOf (some 7) false, rfl, Or.inl List.mem_cons_self⟩, by decide, ⟨by decide, ⟨_, rfl, rfl⟩⟩,
    ⟨_, _, rfl, by decide, by decide, by decide, fun h e => (Option.some.inj e) ▸ ⟨rfl, rfl, rfl⟩, rfl⟩, ⟨_, rfl, by decide⟩,
    ⟨_, rfl, by decide, by decide⟩⟩

/-- A kernel of one team of 32 lanes at 0x20000 (R60), and at 0x21000 a launch of one block of it (R382). -/
def kernels (s : State) : State :=
  let k := 0x48594B37 + 2 ^ 32 + 4 * 2 ^ 96 + 2 ^ 136 + 4 * 2 ^ 144 + 0xFF * 2 ^ 320 + 0xFFFFFFFF * 2 ^ 384
  let d := 0x20000 + 0x1000 * 2 ^ 64 + 2 ^ 128 + 2 ^ 160 + 2 ^ 176
  holding s [(0x20000, 64, k), (0x21000, 32, d)]

theorem witness_handlerLaunch :
    (∃ x k, let s : State := kernels (domained sys (fun d => { d with tail := 1, fdKernel := 0x20000 }))
      s.findDomain s.arg.id = some x ∧ x.head ≠ x.tail ∧ x.handler = none ∧ x.barred = false
      ∧ s.checkDesc (handlerDesc x) true true = .ok k) ∧
    (∃ x e, let s : State := domained sys (fun d => { d with tail := 1 })
      s.findDomain s.arg.id = some x ∧ x.head ≠ x.tail ∧ x.handler = none ∧ x.barred = false
      ∧ s.checkDesc (handlerDesc x) true true = .error e) :=
  ⟨⟨_, _, rfl, by decide, rfl, rfl, rfl⟩, ⟨_, _, rfl, by decide, rfl, rfl, rfl⟩⟩

/-- A launch that waits for its first block, of `n` blocks in clusters of `c` along x (0: no clusters). -/
def launching (n c : Nat) : State :=
  { sys with launches := sys.launches.map (fun l => { l with next := 0, waitSince := some 0, d := { l.d with
                                                        gridX := n, clX := c, clY := min c 1, clZ := min c 1 } })
             arg := { sys.arg with id := 1 } }

/-- The team in focus has a transfer of the operand loader in flight. -/
def moving (s : State) : State := s.withMat { s.team.mat with transfers := [.load 0 Slot.zero] }

theorem witness_PlacementOfBlocks :
    sys.choose = none ∧ (launching 1 0).choose.isSome = true ∧ (launching 3 1).choose.isSome = true
    ∧ (∃ l, (launching 1 0).findLaunch 1 = some l ∧ l.d.clustered = false)
    ∧ (∃ l, (launching 3 1).findLaunch 1 = some l ∧ l.d.clustered = true)
    ∧ (∃ b, ({ sys with arg := { sys.arg with id := 3 } } : State).findBlock 3 = some b ∧ b.ended = false ∧ b.bid ≠ 0)
    ∧ (∃ b, ({ sys with blk := { sys.blk with ended := true } } : State).findBlock 3 = some b ∧ b.ended = true
        ∧ (∀ c ∈ sys.cmds, c.bid ≠ b.bid) ∧ sys.phaseAwaited b.bid = false
        ∧ ∀ x ∈ sys.teams, ∀ y ∈ x.mat.transfers, ¬(x.bid = b.bid ∨ y.writesTo b.bid = true))
    ∧ (∃ b, (moving sys).findBlock 3 = some b
    ∧ ∃ x ∈ (moving sys).teams, ∃ y ∈ x.mat.transfers, x.bid = b.bid ∨ y.writesTo b.bid = true)
    ∧ (∃ c ∈ (commanded sys (cmdOf (.flush true 0) .queued)).cmds, c.bid = 3)
    ∧ (phase sys (.waiting (.phase 3 0 0 0 0))).phaseAwaited 3 = true ∧ sys.phaseAwaited 3 = false :=
  ⟨rfl, by decide, by decide, ⟨_, rfl, rfl⟩, ⟨_, rfl, rfl⟩, ⟨_, rfl, rfl, by decide⟩, ⟨_, rfl, rfl, by decide, by decide, by decide⟩,
    ⟨_, rfl, _, List.mem_cons_self, _, List.mem_cons_self, Or.inl rfl⟩, ⟨_, List.mem_cons_self, rfl⟩, by decide, by decide⟩

/-- A second region of higher priority with a starved launch. -/
def starving : State :=
  { sys with regions := { loaderRegion with rcb := 0x3000, prio := 5, rid := 2 } :: sys.regions
             launches := sys.launches.map (fun l => { l with next := 0, starved := true, d := { l.d with rcb := 0x3000 } }) }

theorem witness_SuspensionSwapAndLeave :
    (let s := phase sys .suspended
     s.team.phase = .suspended ∧ s.coreRoom s.team.core 1 s.team.size s.blk.k.ring = true ∧ s.blk.swapped = false
     ∧ s.resumeSection = some 0 ∧ s.team.pre.savedSlots = [] ∧ s.team.pre.savedTiles = [] ∧ s.team.pre.routine = none
     ∧ s.team.pre.wait = none ∧ s.team.uid ≠ 0) ∧
    (sys.swapping = none ∧ ({ sys with swapping := some 0 } : State).swapping = some 0
      ∧ ({ sys with swapping := some 0 } : State).groupIdle 0 = true
      ∧ ({ loading sys with swapping := some 0 } : State).groupIdle 0 = false) ∧
    (sys.team.win.spill = .idle ∧ sys.team.core ∉ sys.halted
      ∧ sys.team.core ∈ ({ sys with halted := [0] } : State).halted
      ∧ (let s := sys.withWin { sys.team.win with spill := .ahead }
         s.team.win.spill = .ahead ∧ storesWf s = true ∧ s.team.size ≤ 1024 ∧ s.team.win.lo ≤ s.team.win.b
           ∧ 0 < s.blk.k.ring
         ∧ s.vOk 7 = true ∧ s.arg.flag = false
         ∧ ({ s with arg := { s.arg with flag := true } } : State).arg.flag = true)
      ∧ (sys.withWin { sys.team.win with spill := .faulted }).team.win.spill ≠ .idle
      ∧ (sys.withWin { sys.team.win with spill := .faulted }).team.win.spill ≠ .ahead) ∧
    (let s : State := { phase sys .suspended with
       team := { (phase sys .suspended).team with pre := { sys.team.pre with savedSlots := List.range 33 } } }
     s.resumeSection = some 0 ∧ s.coreRoom s.team.core 1 s.team.size s.blk.k.ring = true
     ∧ (let v : State := { s with team := { s.team with section_ := 0 } }; v.reclaimRoom = false)) ∧
    (({ phase sys .suspended with blk := { sys.blk with swapped := true } } : State).blk.swapped = true) ∧
    (let full := (List.range 48).map (fun i => { sys.team with uid := 7 + i, section_ := i % 6 })
     ({ phase sys .suspended with others := full } : State).resumeSection = none) ∧
    sys.swapGroup = none ∧ (starving.swapGroup = some 0 ∧ starving.groupIdle 0 = true) ∧
    (commanded starving (cmdOf (.flush true 0) .queued)).groupIdle 0 = false ∧
    (let h : Hearth := { die := 0, group := 0, phases := [(4, .ready)] }
     let s : State := { sys with hearths := [h], blk := { sys.blk with swapped := true } }
     s.hearths.findSome? (fun h => ((List.range 12).find? (s.hearthFits h)).map (fun g => (h, g))) = some (h, 0)
     ∨ s.hearths.findSome? (fun h => ((List.range 12).find? (s.hearthFits h)).map (fun g => (h, g))) = some (h, 1)) ∧
    (phase sys (.stalled (.leave false 1))).team.phase = .stalled (.leave false 1) ∧ sys.clk / 1750 ≤ sys.leaveWin
      ∧ sys.clk < sys.windowEnd ∧
    (let s : State := { sys with clk := sys.clk + 1750 }; s.leaveWin < s.clk / 1750) ∧
    (let s := (phase sys (.stalled .spill)).withWin { sys.team.win with spill := .needed 0x0C000020 }
     s.team.win.spill = .needed 0x0C000020 ∧ s.team.phase = .stalled .spill) := by decide

theorem witness_spillTransfer :
    decodeWord 0x0C000020 = .ok (.enter 32) ∧
    (let s := (phase sys (.stalled .spill)).withWin { sys.team.win with spill := .needed 0x0C000020 }
     let u : State := { s with team := { s.team with win := { s.team.win with spill := .idle }, phase := .ready }
                               iss := { Issue.none with lanes := s.team.lanes.active, plane := s.wordPlane, word := 0x0C000020 } }
     ∃ t, u.windowOp (.enter 32) = .ok t) ∧
    (let s := (phase sys (.stalled .spill)).withWin { sys.team.win with spill := .needed 0x0C000020, b := 8 }
     let u : State := { s with team := { s.team with win := { s.team.win with spill := .idle }, phase := .ready }
                               iss := { Issue.none with lanes := s.team.lanes.active, plane := s.wordPlane, word := 0x0C000020 } }
     ∃ f, u.windowOp (.enter 32) = .error (.fault f) ∧ f.spill = false) ∧
    (let s := (phase sys (.stalled .spill)).withWin { sys.team.win with spill := .needed 0x0C000020, b := 8 }
     let u : State := { s with team := { s.team with win := { s.team.win with spill := .idle }, phase := .ready
                                                     spillBase := 2 ^ 40, spillSz := 2 ^ 20 }
                               iss := { Issue.none with lanes := s.team.lanes.active, plane := s.wordPlane, word := 0x0C000020 } }
     ∃ f, u.windowOp (.enter 32) = .error (.fault f) ∧ f.spill = true) := ⟨rfl, ⟨_, rfl⟩, ⟨_, rfl, rfl⟩, ⟨_, rfl, rfl⟩⟩

/-- The bytes of a command: OPC, SUB, CREC and arguments (R379). -/
def cmdBytes (opc sub crec : Nat) (args : List Nat) : List Byte :=
  natLe (opc + sub * 2 ^ 8 + crec * 2 ^ 64) 16 ++ args.flatMap (fun a => natLe a 8) ++ natLe 0 (48 - 8 * args.length)

/-- System queue 0 holds one command of the partition. -/
def queue0 : Queue := { base := 0x10000, size := 16, head := 0, tail := 1, region := 0x1000, running := none, crec := 0 }
def hosting (s : State) (b : List Byte) : State :=
  { holding s [(0x10000, 64, leNat b)] with queues := [(0, queue0)], arg := { s.arg with id := 0 } }

/-- What the statements about commands ask of the queue. -/
abbrev startsAt (s : State) (b : List Byte) (opc sub : Nat) : Prop :=
  let z := s.fireAll
  z.findQueue 0 = some queue0 ∧ z.arg.id = 0 ∧ queue0.size ≠ 0 ∧ queue0.running = none ∧ queue0.head ≠ queue0.tail
  ∧ z.cpRead queue0.region queue0.headAddr 64 = some b ∧ commandFormed b = true ∧ fld b 0 1 = opc ∧ fld b 1 1 = sub
  ∧ z.hub.written = [] ∧ z.hub.flushes = []

theorem witness_queueCommands :
    let at_ (opc sub : Nat) (args : List Nat) : Prop :=
      startsAt (hosting sys (cmdBytes opc sub 0 args)) (cmdBytes opc sub 0 args) opc sub
    at_ 1 0 [0x21000] ∧ at_ 1 1 [0x1000, 1] ∧ at_ 2 0 [0x22000] ∧ at_ 3 0 [255, 0x24000] ∧ at_ 3 1 [255]
      ∧ at_ 4 0 [0x5000, 0x5040]
    ∧ at_ 5 0 [1023, 7] ∧ at_ 5 1 [1023, 7] ∧ at_ 5 2 [1023, 7] ∧ at_ 5 3 [0x8000, 7] ∧ at_ 6 0 [0x23000]
    ∧ at_ 6 1 [0x1000]
    ∧ at_ 6 2 [0x1000] ∧ at_ 6 3 [31, 0, 0, 0, 0, 0] ∧ (at_ 4 0 [0x5020, 0x5040] ∧ 0x5020 % 64 ≠ 0)
    ∧ (0x5000 % 64 = 0 ∧ 0x5040 % 64 = 0) := by
  and_intros <;> decide

theorem witness_HostQueueCommands :
    (let s := { hosting sys (cmdBytes 1 0 0 []) with arg := { sys.arg with addr := 0, len := 8, value := 16, rid := 1, vlan := 0 } }
     s.findQueue 0 = some queue0 ∧ s.amc.status = .ready ∧ s.arg.vlan ≠ s.amc.cfg.mvlan ∧ s.arg.addr / 8 = 0
       ∧ s.arg.addr % 8 = 0 ∧ s.arg.len = 8 ∧ s.arg.value < 2 ^ 32
     ∧ (s.view queue0.region true).rid = s.arg.rid ∧ (BitVec.ofNat 32 s.arg.value - queue0.head).toNat ≤ queue0.size
     ∧ queue0.size < (BitVec.ofNat 32 17 - queue0.head).toNat ∧ (s.view queue0.region true).rid ≠ 2
     ∧ (let w : State := { s with arg := { s.arg with vlan := s.amc.cfg.mvlan } }; w.arg.vlan = w.amc.cfg.mvlan)) ∧
    (∃ k d, (kernels sys).readLaunch 0x1000 true 0x21000 = .ok (k, d))
      ∧ sys.readLaunch 0x1000 true 0x21001 = .error (2, 0) ∧
    (sys.inSubtree 0x1000 0x1000 = true ∧ sys.inSubtree 0x2000 0x1000 = false) ∧
    ((holding sys [(0x22000, 8, 1), (0x22010, 8, 0x21000)]).readGraph 0x1000 0x22000).map
        (List.map (fun n => (n.kind, n.npred, n.count, n.st, n.ld))) = some [(0, 0, 0, 0, 0x21000)]
          ∧ (sys.readGraph 0x1000 0x22000).isNone = true ∧
    (let s := descs
     ∃ db sb, s.cpRead 0x1000 0x5000 64 = some db ∧ s.cpRead 0x1000 0x5040 64 = some sb
       ∧ copyOk [descOf db] (descOf sb) false = true ∧ (descOf db).space = 0 ∧ (descOf sb).space = 0
       ∧ copyOk [descOf db] (rowAt 0x9000) false = false) ∧
    (smWf (0 : Nat) sys.hub.arrival = true ∧ sys.signalOk 0 queue0 1023 = true ∧ sys.signalOk 0 queue0 1024 = false
      ∧ smGet 0 sys.hub.arrival 1023 < 7 ∧ 0 ≤ smGet 0 sys.hub.arrival 1023) ∧
    (storesWf (hosting sys (cmdBytes 5 3 0 [0x8000, 7])) = true
      ∧ sys.translate (sys.view 0x1000 true) .store 0x8000 = .ok 0x8000
      ∧ ordinary sys (.dev 0x8000) 8 ∧ 2 ^ 56 ≤ 2 ^ 56 ∧ 0x8001 % 8 ≠ 0) ∧
    (let b := cmdBytes 5 3 0x9000 [2 ^ 56, 7]
     let s := hosting sys b
     let t0 := (s.cpNote 0x1000 queue0.headAddr 64 .load).setQueue 0 { queue0 with crec := fld b 8 8 }
     startsAt s b 5 3 ∧ fld b 8 8 ≠ 0
     ∧ ∃ u, (t0.stamp 0).2.cpWrite 0x1000 (fld b 8 8) (recordBytes (t0.stamp 0).1 queue0.headAddr 1 2 0 0) = some u) ∧
    (∃ l, (launching 1 0).findLaunch 1 = some l ∧ (launching 1 0).launchOver l = false) ∧
    (∃ l, let s : State := { sys with launches := sys.launches.map (fun l => { l with from_ := .queue 0 })
                                      blk := { sys.blk with ended := true }, arg := { sys.arg with id := 1 }
                                      queues := [(0, queue0)] }
      let y := ({ s with hub := { s.hub with armed := s.hub.armed.filter (fun a => a.lid != l.lid) } } : State).fireAll
      s.findLaunch 1 = some l ∧ s.launchOver l = true ∧ l.closing = none ∧ s.hub.written = [] ∧ s.hub.flushes = []
      ∧ y.hub.written = [] ∧ y.hub.flushes = [] ∧ l.from_ = .queue 0 ∧ l.d.result = 0 ∧ l.d.tape = false ∧ l.d.crec = 0
      ∧ y.findQueue 0 = some queue0 ∧ queue0.crec = 0) := by
  refine ⟨by decide, ⟨_, _, rfl⟩, rfl, by decide, by decide, by decide, ⟨_, _, rfl, rfl, by decide⟩, by decide,
    ⟨by decide, rfl, Or.inl (by decide), by decide⟩, ⟨by decide, by decide, ⟨_, rfl⟩⟩, ⟨_, rfl, by decide⟩, ⟨_, rfl, by decide⟩⟩

/-- An RCB of a child of the partition at physical 0x23000 (R369), and an entry of the time table at 0x24000 (R390). -/
def recorded (s : State) : State :=
  holding s [(0x23000, 8, 0x1000), (0x23016, 2, 2), (0x24000, 8, 5), (0x24010, 8, 0x21000)]

theorem witness_RegionsAndTimeTable :
    (∃ m, (recorded sys).cpRead 0 0x23000 128 = some m ∧ rcbInRange (regionOf 0x23000 m) m = true
      ∧ treeLegal (regionOf 0x23000 m :: sys.regions.filter (fun y => y.rcb != 0x23000)) 0x23000 = true
      ∧ sys.findRegion 0x23000 = none) ∧
    (∃ m, sys.cpRead 0 0x1000 128 = some m ∧ ¬(rcbInRange (regionOf 0x1000 m) m = true)
      ∧ sys.findRegion 0x1000 ≠ none) ∧
    (let s : State := { recorded sys with regions := sys.regions ++ [{ loaderRegion with rcb := 0x23000, parent := 0x1000, rid := 2 }] }
     s.findRegion 0x23000 ≠ none ∧ s.regionBusy 0x23000 = false ∧ s.regionBusy 0x1000 = true) ∧
    (let im := natLe (0x12000 + 16 * 2 ^ 64 + 0x1000 * 2 ^ 192) 40
     sys.queueLegal (queueOf im) im = true) ∧ (∀ y, sys.findQueue 31 = some y → y.running = none) ∧
    (∃ e, (recorded sys).cpRead 0x1000 0x24000 32 = some e ∧ fld e 0x18 1 < 3 ∧ zeros e 0x19 7 = true ∧ fld e 0 8 = 5) ∧
    (let y : TimeSlot := { start := 5, period := 0, ld := 0x21000, rule := 0, m := 0, on := true, rcb := 0x1000, system := true }
     let s : State := { kernels sys with slots := [(255, y)], arg := { sys.arg with id := 255 }
                                         hub := { sys.hub with ptp := 5, ptpLocked := true } }
     s.findSlot s.arg.id = some y ∧ s.hub.ptpLocked = true ∧ y.start + y.m * y.period ≤ s.hub.ptp
     ∧ y.on = true ∧ (y.period ≠ 0 ∨ y.m = 0) ∧ s.slots = [(255, y)] ∧ y.period = 0
     ∧ (let w : TimeSlot := { y with period := 4 }; s.hub.ptp < w.start + (w.m + 1) * w.period)
     ∧ (∀ z ∈ sys.slots, ¬(sys.hub.ptpLocked = true ∧ z.2.on = true))
     ∧ (∀ z ∈ s.slots, y.start + y.m * y.period ≤ z.2.start + z.2.m * z.2.period)
     ∧ (let z : TimeSlot := { y with start := 4 }
        z ∈ ({ s with slots := [(254, z), (255, y)] } : State).slots.map Prod.snd
        ∧ ¬(y.start + y.m * y.period ≤ z.start + z.m * z.period))
     ∧ s.launches.filter (fun l => l.from_ == .table s.arg.id) = []
     ∧ (∃ k d, (s.setSlot s.arg.id { y with m := y.m + 1 }).readLaunch y.rcb y.system y.ld = .ok (k, d))
     ∧ ({ s with launches := s.launches.map (fun l => { l with from_ := .table 255 }) } : State).launches.filter
         (fun l => l.from_ == .table s.arg.id) ≠ [] ∧ ¬(y.start ≤ sys.hub.ptp)) := by
  refine ⟨⟨_, rfl, by decide, by decide, by decide⟩, ⟨_, rfl, by decide, by decide⟩, by decide, by decide, ?_, ⟨_, rfl, by decide⟩,
    ⟨rfl, rfl, by decide, rfl, by decide, rfl, rfl, by decide, by decide, by decide, by decide, by decide, ⟨_, _, rfl⟩,
      by decide, by decide⟩⟩
  intro y h; exact nomatch h

theorem witness_LinkAndHostPortEvents :
    (let s : State := { sys with arg := { sys.arg with rid := 1, addr := 0xFFF8, bytes := natLe 7 8, len := 8, vlan := 0 } }
     s.arg.vlan ≠ s.amc.cfg.mvlan ∧ s.amc.status = .ready ∧ s.arg.bytes ≠ [] ∧ (∃ v, s.endpointView s.arg.rid = some v
       ∧ s.translate v .store (s.arg.addr / 65536 * 65536) = .ok 0
       ∧ (∃ bs, s.readVa v .load s.arg.addr s.arg.len = .ok bs)
       ∧ (∃ e, s.readVa v .load (2 ^ 40) 8 = .error e) ∧ ∃ e, s.span v .store (2 ^ 40) 8 = .error e)
     ∧ s.arg.addr % 65536 + s.arg.bytes.length ≤ 65536 ∧ ordinary s (.dev (0 + s.arg.addr % 65536)) s.arg.bytes.length
     ∧ storesWf s = true ∧ s.endpointView 9 = none) ∧
    (let u : RemoteUnit := { src := 5, rid := 1, va := 0x8000, stamp := 9, path := 0, data := 7, side := 0, bytes := 1
                             withSide := false, gen := none, cmp := false }
     let s : State := { sys with arg := { sys.arg with unit := some u, rid := 1, addr := 0x8000 } }
     s.arg.unit = some u ∧ (∃ v, s.ridView u.rid = some v ∧ s.translate v (.engineWrite false) u.va = .ok 0x8000
       ∧ s.translate v .engineRead s.arg.addr = .ok 0x8000
       ∧ ∃ e, s.translate v (.engineWrite false) (2 ^ 40) = .error e)
     ∧ ordinary s (.dev 0x8000) 64 ∧ u.gen = none ∧ u.line = none ∧ (s.queues = [] ∧ s.records = [] ∧ s.hub.incs = [])
     ∧ (∀ x ∈ s.hub.applied, x.src = u.src → x.stamp ≠ u.stamp)
     ∧ (let x : Applied := ⟨5, 0x200, 2 ^ 16 * 5, 3, true⟩
        x ∈ ({ s with hub := { s.hub with applied := [x] } } : State).hub.applied ∧ x.src = u.src ∧ x.sec = 0x8000 / 64
        ∧ x.stamp ≠ u.stamp ∧ stampAfter x.stamp u.stamp = true ∧ x.bytes.getLsbD 0 = true ∧ u.bytes.getLsbD 0 = true
        ∧ ({ x with stamp := 9 } : Applied).stamp = u.stamp)
     ∧ s.ridView 9 = none ∧ s.poisonAt (.dev 0x8000) = false) ∧
    (∃ r, sys.regions.find? (fun y => y.rid == 1) = some r ∧ grants (sys.region r.rcb) 1023 = true) ∧
    (∃ r, let s : State := { sys with regions := sys.regions.map (fun r => { r with acCount := 1023 }) }
      s.regions.find? (fun y => y.rid == 1) = some r ∧ grants (s.region r.rcb) 1023 = false) ∧
    (let s : State := { sys with arg := { sys.arg with id := 5, addr := 7, value := 1023, pairs := [(9, 0)] } }
     let t : State := { s with hub := { s.hub with settled := [(5, 9)], incSeen := [(5, 6)] } }
     s.arg.value < 1024 ∧ (s.arg.id, s.arg.addr) ∉ t.hub.incSeen ∧ smWf (0 : Nat) s.hub.arrival = true
     ∧ (∀ p ∈ t.arg.pairs, (t.arg.id, p.1) ∈ t.hub.settled) ∧ ¬(∀ p ∈ s.arg.pairs, (s.arg.id, p.1) ∈ s.hub.settled)
     ∧ (s.arg.id, s.arg.addr) ∈ ({ s with hub := { s.hub with incSeen := [(5, 7)] } } : State).hub.incSeen) ∧
    (let c := cmdOf (.copy [rowAt 0x8000] (rowAt 0x9000) false) .sent
     let r : Cmd := { c with status := .suspended, cause := 0x43, addr := 0x8000 }
     c ∈ (commanded sys c).cmds ∧ c.id = (commanded sys c).arg.id ∧ c.status ≠ .queued ∧ c.cause ≠ 0x43
     ∧ r ∈ (commanded sys r).cmds ∧ r.status = .suspended ∧ r.cause = 0x43
     ∧ sys.rank r r.addr.toNat ≤ sys.rank r 0x8000 ∧ sys.rank r 0x8000 < sys.rank r 0x8040
     ∧ (cmdOf (.copy [] (rowAt 0x9000) false) .queued).status = .queued) ∧
    (let m : LinkMsg := .marker 5 3 3 1
     m.path = some 3 ∧ (LinkMsg.ack 5 1).path ≠ some 3 ∧ (LinkMsg.marker 5 16 16 1).path = some 16
     ∧ sys.hub.ports.getLsbD 4 = true) ∧
    (let f : Flush := { stamp := 3, left := [5], cmd := none, uid := some 4, lost := false }
     let s : State := { phase sys (.stalled (.flush 3)) with hub := { sys.hub with flushes := [f] }
                                                             arg := { sys.arg with value := 3, id := 5 } }
     s.hub.flushes = [f] ∧ f.stamp = s.arg.value ∧ f.lost = false ∧ s.queues = [] ∧ s.records = [] ∧ s.hub.incs = []
     ∧ s.blk.bid ≠ 0 ∧ s.team.bid = s.blk.bid ∧ f.left = [s.arg.id] ∧ 6 ∉ f.left
     ∧ f.uid = some s.team.uid ∧ s.team.uid ≠ 0 ∧ s.team.phase = .stalled (.flush f.stamp) ∧ s.ownHandler = none) ∧
    (sys.amc.cfg.skuPort.testBit 15 = true ∧ sys.amc.cfg.skuPort.testBit 16 = false ∧ sys.amc.status = .ready
      ∧ ({ sys.amc with status := .recovery } : Amc).status ≠ .ready) := by
  refine ⟨⟨by decide, rfl, by decide, ⟨_, rfl, rfl, ⟨_, rfl⟩, ⟨_, rfl⟩, ⟨_, rfl⟩⟩, by decide, Or.inl (by decide), by decide, rfl⟩,
    ⟨rfl, ⟨_, rfl, rfl, rfl, ⟨_, rfl⟩⟩, Or.inl (by decide), rfl, rfl, ⟨rfl, rfl, rfl⟩, by decide, by decide, rfl, rfl⟩,
    ⟨_, rfl, rfl⟩, ⟨_, rfl, rfl⟩, by decide, by decide, by decide, by decide, by decide⟩

/-- What of a signed image the signatures do not say. -/
def unsignedOk (magic : Nat) (b : List Byte) : Bool :=
  headerBytes + fld b 8 4 ≤ b.length && fld b 0 4 == magic && zeros b 0x0C 4 && zeros b 0x4120 0xE0
    && (b.drop 0x10).take 48 == sha384 (signedBody b)

/-- Both signatures of an image verify (the functions are opaque, log 81). -/
def signaturesOk (fw : Bool) (b : List Byte) : Prop :=
  Config.rsaVerifies fw (b.take 64) ((b.drop 0x40).take 384) = true
    ∧ Config.slhVerifies fw (b.take 64) ((b.drop 0x1C0).take 16224) = true

theorem signedOk_of_signatures {fw : Bool} {magic : Nat} {b : List Byte} (h : unsignedOk magic b = true)
    (hs : signaturesOk fw b) : signedOk fw magic b = true := by
  simp [signedOk, hs.1, hs.2] at h ⊢
  simpa [unsignedOk] using h

/-- A signed image with its digest and body (R436), the key fields and signatures zero. -/
def signed (magic v digest : Nat) (body : List Byte) : List Byte :=
  natLe (magic + v * 2 ^ 32 + body.length * 2 ^ 64) 16 ++ (natLe digest 48).reverse ++ List.replicate 16832 0 ++ body

/-- SHA-384 of no bytes (FIPS 180-4). -/
def emptyDigest : Nat := 0x38b060a751ac96384cd9327eb1b1e36a21fdb71114be07434c0cc7bf63f6e1da274edebfe76f65fbd51ad2f14898b95b

/-- A configuration record's body (R437) with no repairs, device 1 in the management VLAN 1, and a home table of every slice. -/
def recordBody : List Byte :=
  (natLe emptyDigest 48).reverse ++ natLe (1 + 2 ^ 16) 4 ++ List.replicate (0xD4 - 0x34) 0 ++ natLe 1 8 ++ natLe 0x100 4 ++ List.replicate 32 0
    ++ (List.range 1024).map (fun i => BitVec.ofNat 8 (i % 160))

/-- Flash with that record and empty identity keys. -/
def recordFlash : Flash :=
  { record := signed 0x43465A48 0
      0xa4398657b3c38e9cc84cbb9a8979b1b1ea73765e7797fd29a4e2df0da97fc3f850d507cda621e625bf3cdd7c5c050a52 recordBody
    rsaKey := [], slhKey := [], rsaCert := [], slhCert := [], mirror := [] }

theorem witness_recordOk (h : signaturesOk false recordFlash.record) : recordFlash.recordOk = true := by
  have e : (configInRange (signedBody recordFlash.record)
      && (configOf (signedBody recordFlash.record)).idHash == recordFlash.idHash) = true := by decide +kernel
  have u : unsignedOk 0x43465A48 recordFlash.record = true := by decide +kernel
  rw [Bool.and_eq_true] at e
  unfold Flash.recordOk
  exact (Bool.and_eq_true _ _).mpr ⟨(Bool.and_eq_true _ _).mpr ⟨signedOk_of_signatures u h, e.1⟩, e.2⟩
theorem test_sha384 : sha384 [] = (natLe emptyDigest 48).reverse := by decide +kernel

/-- A firmware image of version `v` with an empty body. -/
def firmware (v : Nat) : List Byte := signed 0x46575A48 v emptyDigest []

/-- Under signatures that verify, an image is valid, and a record that verifies can be applied where no slice is disabled. -/
theorem witness_images :
    (∀ v, v = 1 ∨ v = 2 → signaturesOk true (firmware v) → imageValid (firmware v) 1 = true) ∧
    (signaturesOk false recordFlash.record → recordFlash.recordOk = true) ∧
    ((∀ x, Config.sliceOff [] x = false) → (configOf recordBody).applies = true) := by
  refine ⟨fun v hv hs => ?_, witness_recordOk, fun h => ?_⟩
  · have u : unsignedOk 0x46575A48 (firmware v) = true := by obtain rfl | rfl := hv <;> decide +kernel
    have e : (decide (1 ≤ imageVersion (firmware v))) = true := by obtain rfl | rfl := hv <;> decide +kernel
    unfold imageValid
    rw [signedOk_of_signatures u hs, e]; rfl
  · have e : (configOf recordBody).repair = [] := by decide +kernel
    simp only [ConfigRec.applies, e, h, Bool.not_false, Bool.and_true, Bool.false_or]
    decide +kernel

/-- The first bytes of an image of version `v`. -/
def head (v : Nat) : List Byte := natLe (0x46575A48 + v * 2 ^ 32) 8

/-- The module with these banks, and no record in flash. -/
def banked (a b : Bank) : Amc :=
  { sys.amc with bankA := a, bankB := b, floor := 1, flash := { recordFlash with record := [] } }

theorem witness_ManagementEvents :
    (({ sys.arg with vlan := 1 } : EventArg).vlan = sys.amc.cfg.mvlan ∧ sys.arg.vlan ≠ sys.amc.cfg.mvlan) ∧
    (let m := banked ⟨.active, 0, head 2⟩ ⟨.pending, 2, head 1⟩
     let fails (ports : BitVec 16) := (List.range 16).filter (fun p => m.cfg.skuPort.testBit p && !ports.getLsbD p)
     m.flash.recordOk = false ∧ m.configured = false ∧ fails 0xFFFF = [] ∧ fails 0x7FFF = [15]
     ∧ m.bankA.st = .active ∧ m.bankB.st = .pending ∧ m.bankB.tries = 2
     ∧ (banked ⟨.active, 0, head 2⟩ ⟨.standby, 0, head 1⟩).bankB.st ≠ .pending ∧ imageValid [] 1 = false
     ∧ m.status = .ready ∧ m.floor ≤ 2 ∧ 2 ≤ m.versionOf .active ∧ ¬(3 ≤ m.versionOf .active)
     ∧ m.session = none ∧ 8 ≤ (head 0).length ∧ imageVersion (head 0) < m.floor ∧ m.floor ≤ imageVersion (head 1)
     ∧ ([0x48, 0x5A] : List Byte).length < 8
     ∧ (let o : Amc := { m with session := some (7, head 1) }
        o.session = some (7, head 1) ∧ (∃ x, o.session = some x ∧ x.1 ≠ 8))) ∧
    (smWf (0 : Nat) sys.amc.evCount = true ∧ smWf (0 : Nat) sys.amc.evCtl = true ∧ counterExists (191 * 32 + 15) = true
      ∧ sourceOk (191 * 32 + 15) 15 = true ∧ counterExists (191 * 32 + 16) = false ∧ sourceOk (193 * 32 + 31) 14 = false
      ∧ counterDie (191 * 32 + 15) = 1) ∧
    (let c := sys.amc.cfg
     let r (n p : Nat) : SensorReading := ⟨[84, 40, 60], [70, 70, 70, 70, 70, 70, n], [800], p⟩
     c.tCrit ≤ hottest (r 105 2300) ∧ hottest (r 104 2300) < c.tCrit ∧ c.tThr ≤ dieTemp (r 95 2300) 1
     ∧ dieTemp (r 95 2300) 0 < c.tThr ∧ hottest (r 84 2300) < c.tWarn ∧ dieTemp (r 84 2300) 1 < c.tThr
     ∧ (r 84 2300).power ≤ c.pwrLim ∧ c.pwrLim < (r 84 2301).power ∧ sys.amc.power0 ≠ 0 ∧ sys.amc.power1 ≠ 0) ∧
    (sys.hub.ptpLocked = false ∧ ({ sys.hub with ptpLocked := true } : Hub).ptpLocked = true
      ∧ sys.hub.ptp + 1000000 < 1000001 ∧ 1000000 ≤ sys.hub.ptp + 1000000) := by
  refine ⟨by decide, ⟨rfl, rfl, ?_⟩, by decide, by decide, by decide⟩
  decide

/-! ### Further witnesses: clauses about records of commands, swapped teams, routines, graphs, tapes and coded lines -/

theorem witness_StorageAndPublishEvents :
    (let s : State := { sys with amc := { sys.amc with evCtl := [(0, 2 ^ 15 + 15), (192 * 32, 2 ^ 15 + 11)] } }
     (s.amc.evCtl.map Prod.fst).Nodup ∧ smWf (0 : Nat) s.amc.evCount = true ∧ (0, 2 ^ 15 + 15) ∈ s.amc.evCtl
     ∧ (192 * 32, 2 ^ 15 + 11) ∈ s.amc.evCtl ∧ (2 ^ 15 + 15) % 2 ^ 8 = 15 ∧ (2 ^ 15 + 15).testBit 15 = true) ∧
    (∀ j, (sys.hub.pubEntry j).size = 0) ∧
    (let e := sys.hub.pubEntry 0
     storesWf sys = true ∧ sys.hub.pubField (8 / 64) 8 8 = 0 ∧ leNat (natLe 0x10000 8) = 0x10000 ∧ e.vbase = 0
       ∧ e.pa0 = 0 ∧ e.pa1 = 0
     ∧ sys.hub.pubField 0 0x22 1 < 4 ∧ e.linked = false ∧ sys.hub.pubField 0 0x23 1 = 0 ∧ sys.hub.pubField 0 0x2A 22 = 0
     ∧ 0x10000 % 65536 = 0 ∧ 0x10000 ≤ hbmEnd ∧ leNat (natLe 0x10001 8) % 65536 ≠ 0) := by
  refine ⟨by decide, fun j => ?_, by decide⟩
  have h : sys.hub.publish = [] := rfl
  simp only [Hub.pubEntry, Hub.pubField, h, loadLe]
  exact (rfl : leNat [0, 0, 0, 0, 0, 0, 0, 0] = 0)

/-- The record of ticket 5 about command 9, open in the domain, and the command. -/
def engRecord : FaultRec := { recOf none false with kind := 1, cmd := some 9 }
def recorded9 (c : Cmd) : State :=
  { commanded (domained sys (fun d => { d with open_ := [engRecord] })) c with arg := { sys.arg with id := 0x1000 } }

theorem witness_FaultActions :
    (let c := { cmdOf (.copy [rowAt 0x8000] (rowAt 0x9000) false) .suspended with ctl := BitVec.ofNat 64 512, recAddr := 0x8040 }
     let k := cmdOf (.copy [rowAt 0x8000] (rowAt 0x9000) false) .suspended
     let s := recorded9 c
     (∃ x, s.findDomain 0x1000 = some x ∧ x.open_.find? (fun z => z.ticket == 5) = some engRecord)
       ∧ engRecord.uid = none
     ∧ engRecord.cmd = some 9 ∧ engRecord.restart = true ∧ s.cmds.find? (fun z => z.id == 9) = some c ∧ c.cpQueue = none
     ∧ (k.ctl = 0 ∧ (recorded9 k).cmds.find? (fun z => z.id == 9) = some k
     ∧ ∃ l, (recorded9 k).findLaunch k.lid = some l)
     ∧ (c.bid = s.blk.bid ∧ c.bid ≠ 0 ∧ smWf (0 : Nat) s.blk.counters = true)
     ∧ ∃ p, ordinary s p 32 ∧
        (((s.modDomain 0x1000 (fun m => { m with open_ := m.open_.filter (fun z => z.ticket != 5) })).modLaunch c.lid
          (fun l => { l with status := max l.status c.launchStatus })).stamp c.unit).2.signalPlace c (.engineWrite false) c.recAddr 32
          false = .ok p) ∧
    (let s : State := { beside (domained sys (fun d => { d with open_ := [recOf (some 7) false] })) with
       others := [{ sys.team with uid := 7, phase := .swapped, fault := some (sys.flt .windowRange) }]
       hearths := [{ die := 0, group := 0, phases := [(7, .held)] }] }
     (∃ x, s.findDomain 0x1000 = some x ∧ x.open_.find? (fun z => z.ticket == 5) = some (recOf (some 7) false))
     ∧ 7 ≠ s.team.uid ∧ (∃ h, s.findTeam 7 = some h ∧ h.phase = .swapped ∧ h.fault = some (sys.flt .windowRange))
     ∧ (s.hearths.flatMap Hearth.phases).find? (fun p => p.1 == 7) = some (7, .held)
     ∧ ¬∃ m ∈ s.domains, ∃ z, z.uid = some 7 ∧ (z ∈ m.waiting ∨ (z ∈ m.open_ ∧ ¬(m.rcb = 0x1000 ∧ z.ticket = 5)))) := by
  refine ⟨⟨⟨_, rfl, rfl⟩, rfl, rfl, rfl, rfl, rfl, ⟨rfl, rfl, ⟨_, rfl⟩⟩, by decide, ⟨.dev 0x8040, Or.inl (by decide), rfl⟩⟩,
    ⟨⟨_, rfl, rfl⟩, by decide, ⟨_, rfl, rfl, rfl⟩, rfl, ?_⟩⟩
  rintro ⟨m, hm, z, -, h⟩
  obtain rfl := List.mem_singleton.mp hm
  rcases h with h | ⟨h, g⟩
  · exact nomatch h
  · obtain rfl := List.mem_singleton.mp h
    exact g ⟨rfl, rfl⟩

theorem witness_whichCore :
    (∀ y ∈ (launching 1 0).allBlocks, y.cid ≠ (launching 1 0).nextId)
      ∧ (∀ y ∈ (launching 3 1).allBlocks, y.cid ≠ (launching 3 1).nextId) ∧
    (∃ l t0, (launching 3 1).choose = some (l, t0) ∧ 0 < l.d.clSize) ∧
    (∃ l t0, (launching 1 0).choose = some (l, t0) ∧ (launching 1 0).fits l.lid l.k l.d 1 = true
      ∧ (launching 1 0).fits l.lid l.k l.d 0 = false) ∧
    (∃ m ∈ starving.launches, m.next < m.d.clusterCount ∧ m.starved = true ∧ m.lid ≠ 2
      ∧ starving.prio 0x1000 ≤ starving.prio m.d.rcb) := by
  refine ⟨by decide, by decide, ⟨_, _, rfl, by decide⟩, ⟨_, _, rfl, by decide, by decide⟩, ?_⟩
  exact ⟨_, List.mem_cons_self, by decide, rfl, by decide, by decide⟩

/-- The team in focus with this pre-emption state. -/
def preempted (s : State) (f : Preempt → Preempt) : State := { s with team := { s.team with pre := f s.team.pre } }

/-- A safepoint 3 with routines at 0x40 and 0x80, and room for the context. -/
def safepoint (s : State) : State :=
  let t := preempted (kern s (fun k => { k with codeSize := 0x100, safePoints := [⟨3, 0, 0x40, 0x80⟩] })) (fun p => { p with pending := true })
  { t with amc := { t.amc with cfg := { t.amc.cfg with ctxSize := t.ctxUsed + t.ctxBytes } } }

theorem witness_Routines :
    (let s := preempted (phase sys .suspended) (fun p => { p with routine := some 0x80 })
     let w := s.team.win
     s.resumeSection = some 0 ∧ s.coreRoom s.team.core 1 s.team.size s.blk.k.ring = true ∧ s.blk.swapped = false
     ∧ s.reclaimRoom = true ∧ s.team.pre.routine = some 0x80 ∧ w.depth ≠ s.blk.k.maxDepth
     ∧ (BitVec.ofNat 32 0x80).toNat % 4 = 0
     ∧ inUpperCopy s.blk.k.planes (BitVec.ofNat 32 0x80).toNat = false ∧ ¬(16 ≤ w.depth ∧ s.team.spillSz = 0)
     ∧ w.links.length < 16) ∧
    (let s := preempted (phase sys .suspended) (fun p => { p with savedSlots := [0, 5], savedTiles := [1] })
     s.resumeSection = some 0 ∧ s.coreRoom s.team.core 1 s.team.size s.blk.k.ring = true ∧ s.blk.swapped = false
     ∧ s.reclaimRoom = true ∧ s.team.pre.routine = none ∧ s.team.pre.wait = none ∧ s.team.mat.slots = []
     ∧ s.team.mat.tiles = []) ∧
    ((safepoint sys).blk.k.safePoints.find? (fun p => p.id == 3) = some ⟨3, 0, 0x40, 0x80⟩
      ∧ 63 ≤ (safepoint sys).blk.k.yieldMax
      ∧ (safepoint sys).team.pre.pending = true ∧ 0x40 ≠ 0xFFFFFFFF
      ∧ (safepoint sys).ctxUsed + (safepoint sys).ctxBytes ≤ (safepoint sys).amc.cfg.ctxSize
      ∧ (safepoint sys).team.win.depth ≠ (safepoint sys).blk.k.maxDepth
      ∧ (safepoint (framed sys 4 15 0)).team.win.depth = (safepoint sys).blk.k.maxDepth) ∧
    (let s := preempted (framed sys 4 1 1) (fun p => { p with saving := some 0 })
     let r := preempted (framed sys 4 1 1) (fun p => { p with restoring := some 0, wait := some (.reclaim, none) })
     let w := s.team.win
     ∃ lk ls, w.links = lk :: ls ∧ w.depth ≠ 0 ∧ s.team.lanes.stack.length = lk.jd
       ∧ inUpperCopy s.blk.k.planes lk.retOff.toNat = false
       ∧ w.lo ≤ w.b - lk.k ∧ w.b - lk.k + lk.cfs ≤ w.lo + s.blk.k.ring ∧ s.team.pre.saving = some (w.depth - 1)
       ∧ r.team.pre.saving = none ∧ r.team.pre.restoring = some (w.depth - 1) ∧ r.team.pre.wait = some (.reclaim, none)
       ∧ r.team.pre.outer = []) := by
  refine ⟨by decide, by decide, ⟨rfl, by decide, rfl, by decide, Nat.le_refl _, by decide, by decide⟩, ⟨_, _, rfl, by decide⟩⟩

/-- A user queue 2 of the partition, with a command. -/
def userQueue (b : List Byte) : State :=
  { holding sys [(0x10000, 64, leNat b)] with queues := [(2, queue0)], arg := { sys.arg with id := 2 } }

/-- A finished launch 1 that `f` asked for, with its result word at `r`, and queue 0 that runs `c`. -/
def finishing (f : LaunchSource) (r : Nat) (c : Option RunCmd) : State :=
  { kernels sys with
    launches := sys.launches.map (fun l => { l with from_ := f, d := { l.d with result := r } })
    blk := { sys.blk with ended := true }, arg := { sys.arg with id := 1 }, queues := [(0, { queue0 with running := c })] }

/-- Node `i` of a graph that a run has left in this state. -/
def node (kind npred count st : Nat) (succ : List Nat) : GraphNode :=
  { kind := kind, npred := npred, resNode := 0, ld := 0x21000, succ := succ, count := count, anyRan := false, st := st, posted := 0, status := 0 }

/-- A launch, a branch on its word with two ways, and a node that only the first way leads to. -/
def branching : List GraphNode := [node 0 0 0 1 [1], node 1 1 1 0 [2, 3], node 0 1 1 0 [4], node 0 1 1 0 [], node 0 1 1 0 []]

theorem witness_QueueRefusals :
    (let b := cmdBytes 0 0 0 []
     let s := hosting sys b
     let z := s.fireAll
     z.findQueue 0 = some queue0 ∧ z.arg.id = 0 ∧ z.hub.written = [] ∧ z.hub.flushes = []
       ∧ z.cpRead queue0.region queue0.headAddr 64 = some b
     ∧ commandFormed b = false ∧ fld b 8 8 = 0) ∧
    (let b := cmdBytes 6 2 0 [0x1000]
     let z := (userQueue b).fireAll
     z.findQueue 2 = some queue0 ∧ z.arg.id = 2 ∧ z.cpRead queue0.region queue0.headAddr 64 = some b
       ∧ fld b 0 1 = 6 ∧ commandFormed b = true) ∧
    (let x : Queue := { queue0 with base := 2 ^ 40 }
     let z := ({ sys with queues := [(0, x)], arg := { sys.arg with id := 0 } } : State).fireAll
     z.findQueue 0 = some x ∧ z.cpRead x.region x.headAddr 64 = none ∧ x.crec = 0 ∧ x.size ≠ 0 ∧ x.running = none
       ∧ x.head ≠ x.tail) ∧
    (let b := cmdBytes 3 0 0 [255, 0x24000]
     let z := (userQueue b).fireAll
     z.findQueue 2 = some queue0 ∧ z.arg.id = 2 ∧ z.cpRead queue0.region queue0.headAddr 64 = some b
       ∧ fld b 0 1 = 3 ∧ fld b 1 1 = 0
     ∧ commandFormed b = true) := by
  and_intros <;> decide

theorem witness_TapePop :
    (let b := cmdBytes 1 1 0 [0x1000, 1]
     let s : State := { hosting (kernels sys) b with tapes := [(0x1000, [(0x21000, 0), (3, 4)])] }
     let t0 := (s.cpNote 0x1000 queue0.headAddr 64 .load).setQueue 0 { queue0 with crec := fld b 8 8 }
     startsAt s b 1 1 ∧ s.fireAll.inSubtree 0x1000 0x1000 = true
     ∧ (((s.tape 0x1000).take 1).flatMap (fun r => [r.1, r.2])).filter (fun a => a != 0) = [0x21000]
     ∧ ∃ k d, (t0.setTape 0x1000 ((s.tape 0x1000).drop 1)).readLaunch 0x1000 true 0x21000 = .ok (k, d)) ∧
    (((sys.tape 0x1000).take 1).flatMap (fun r => [r.1, r.2])).filter (fun a => a != 0) = [] :=
  ⟨⟨by decide, by decide, rfl, ⟨_, _, rfl⟩⟩, rfl⟩

/-- What the statement on LAUNCH_COMPLETE asks of a finished launch. -/
abbrev finished (s : State) (l : Launch) : Prop :=
  let y := ({ s with hub := { s.hub with armed := s.hub.armed.filter (fun a => a.lid != l.lid) } } : State).fireAll
  s.findLaunch s.arg.id = some l ∧ s.launchOver l = true ∧ l.closing = none ∧ s.hub.written = [] ∧ s.hub.flushes = []
  ∧ y.hub.written = [] ∧ y.hub.flushes = [] ∧ l.d.tape = false ∧ l.d.crec = 0

theorem witness_LaunchFollows :
    (∃ l k d, let s := finishing (.tape 0) 0 (some (.tape [0x21000] 0)); finished s l ∧ l.from_ = .tape 0
      ∧ s.readLaunch 0x1000 true 0x21000 = .ok (k, d)) ∧
    (∃ l, let s := finishing (.tape 0) 0 (some (.tape [] 0)); finished s l ∧ l.from_ = .tape 0
      ∧ s.findQueue 0 = some { queue0 with running := some (.tape [] 0) }) ∧
    (∃ l, let s := finishing (.graph 0 0) 0 (some (.graph [node 0 0 0 1 []])); finished s l ∧ l.from_ = .graph 0 0) ∧
    (∃ l rb k d, let s := finishing (.graph 0 0) 0x8000 (some (.graph branching)); finished s l ∧ l.from_ = .graph 0 0
      ∧ l.d.result ≠ 0 ∧ s.cpRead l.recRcb l.d.result 8 = some rb ∧ BitVec.ofNat 64 (leNat rb) = 0
      ∧ s.readLaunch 0x1000 true 0x21000 = .ok (k, d)) ∧
    (∃ l rb, let s := holding (finishing (.graph 0 0) 0x8000 (some (.graph branching))) [(0x8000, 8, 2)]; finished s l
      ∧ s.cpRead l.recRcb l.d.result 8 = some rb ∧ BitVec.ofNat 64 (leNat rb) ≠ 0) ∧
    (∃ l m, let s := finishing (.table 255) 0 none
      let t : State := { s with launches := s.launches ++ [{ l with lid := 7, ready := false }] }
      finished t l ∧ l.from_ = .table 255 ∧ m.ready = false
      ∧ ({ t with launches := t.launches.filter (fun n => n.lid != l.lid) } : State).slotLaunches 255 = [m]) ∧
    (∃ l x, let s := finishing (.handler 0x1000) 0 none; finished s l ∧ l.from_ = .handler 0x1000
      ∧ s.findDomain 0x1000 = some x) := by
  refine ⟨⟨_, _, _, ⟨rfl, by decide⟩, rfl, rfl⟩, ⟨_, ⟨rfl, by decide⟩, rfl, rfl⟩, ⟨_, ⟨rfl, by decide⟩, rfl⟩,
    ⟨_, _, _, _, ⟨rfl, by decide⟩, rfl, by decide, rfl, by decide, rfl⟩, ⟨_, _, ⟨rfl, by decide⟩, rfl, by decide⟩,
    ⟨_, _, ⟨rfl, by decide⟩, rfl, ?_, rfl⟩, ⟨_, _, ⟨rfl, by decide⟩, rfl, rfl⟩⟩
  rfl

theorem witness_Overruns :
    let y : TimeSlot := { start := 5, period := 0, ld := 0x21000, rule := 1, m := 0, on := true, rcb := 0x1000, system := false }
    let s : State := { kernels sys with slots := [(255, y)], arg := { sys.arg with id := 255 }
                                        launches := sys.launches.map (fun l => { l with from_ := .table 255 })
                                        hub := { sys.hub with ptp := 5, ptpLocked := true } }
    let old := s.launches.filter (fun l => l.from_ == .table 255)
    let s1 := s.setSlot 255 { y with m := y.m + 1 }
    s.findSlot 255 = some y ∧ old ≠ [] ∧ old.length = 1 ∧ (∀ l ∈ old, l.ready = true) ∧ s.team.lid ∈ old.map Launch.lid
    ∧ s.team.phase ≠ .ended ∧ s.hub.written = [] ∧ s.hub.flushes = []
    ∧ (∃ k d, s1.readLaunch y.rcb y.system y.ld = .ok (k, d))
    ∧ (∃ db, s1.cpRead y.rcb y.ld 256 = some db ∧ (launchDescOf db).crec = 0)
    ∧ (let n := holding s1 [(0x21058, 8, 0x8000)]
       let m := n.cpNote y.rcb y.ld 256 .load
       (∃ db, n.cpRead y.rcb y.ld 256 = some db ∧ (launchDescOf db).crec = 0x8000)
       ∧ ∃ u, (m.stamp 0).2.cpWrite y.rcb 0x8000 (recordBytes (m.stamp 0).1 y.ld 4 0 0 0) = some u)
    ∧ (∃ l ∈ s.launches.map (fun l => { l with ready := false }), l.ready = false)
    ∧ 2 ≤ (s.launches ++ s.launches).length := by
  refine ⟨rfl, by decide, rfl, by decide, by decide, by decide, rfl, rfl, ⟨_, _, rfl⟩, ⟨_, rfl, by decide⟩, ⟨⟨_, rfl, by decide⟩, ⟨_, rfl⟩⟩,
    ⟨_, List.mem_cons_self, rfl⟩, by decide⟩

theorem witness_UnitsAndLines :
    (let s := published sys
     let u (g : Nat) : RemoteUnit := { src := 5, rid := 1, va := 0x1FFC0, stamp := 9, path := 0, data := 7, side := 0, bytes := 1
                                       withSide := false, gen := some g, cmp := false }
     let old (g : Nat) : Prop := 1 ≤ ((s.hub.pubEntry 0).gen - BitVec.ofNat 32 g).toNat
       ∧ ((s.hub.pubEntry 0).gen - BitVec.ofNat 32 g).toNat < 2 ^ 31
     storesWf s = true ∧ s.hub.syncs = [] ∧ smWf (0 : Nat) s.hub.dropped = true
     ∧ (∃ v pa, s.ridView 1 = some v ∧ s.translate v (.engineWrite true) 0x1FFC0 = .ok pa ∧ pa % 64 = 0
     ∧ pa + 64 ≤ pubBase
         ∧ s.hub.pubFind v.rid 0x1FFC0 = some 0)
     ∧ (u 0).gen.isSome = true ∧ ¬old 0 ∧ old (2 ^ 32 - 1) ∧ old (2 ^ 31 + 1) ∧ ¬old (2 ^ 31)) ∧
    (let u : RemoteUnit := { src := 5, rid := 1, va := 0x8000, stamp := 9, path := 0, data := 7, side := 1, bytes := BitVec.allOnes 64
                             withSide := true, gen := none, cmp := true, late := true, line := some ⟨2, [(1, 2), (3, 4), (5, 6)]⟩ }
     let s : State := { sys with arg := { sys.arg with unit := some u } }
     s.arg.unit = some u ∧ s.hub.applied = [] ∧ storesWf s = true ∧ u.bytes = BitVec.allOnes 64 ∧ 0x8000 % 256 = 0
       ∧ ordinary s (.dev 0x8000) 256
     ∧ ∃ v, s.ridView u.rid = some v
     ∧ ∀ i, i < 4 → s.translate v (.engineWrite false) (u.va + 64 * i) = .ok (0x8000 + 64 * i)) ∧
    (∃ v e, sys.ridView 1 = some v ∧ sys.translate v .engineRead (2 ^ 40) = .error e) := by
  refine ⟨⟨by decide, rfl, by decide, ⟨_, _, rfl, rfl, by decide, by decide, by decide⟩, rfl, by decide⟩,
    ⟨rfl, rfl, by decide, rfl, rfl, Or.inl (by decide), _, rfl, ?_⟩, ⟨_, _, rfl, rfl⟩⟩
  decide

/-- With bank B active: a pending, a standby and an erased bank A, and images that hold or do not under signatures that do. -/
theorem witness_bankB :
    (let m := banked ⟨.pending, 2, head 1⟩ ⟨.active, 0, head 2⟩
     (m.bank false).st = .active ∧ (m.bank true).st ≠ .active ∧ (m.bank true).st = .pending ∧ (m.bank true).tries = 2) ∧
    (let m := banked ⟨.standby, 0, head 1⟩ ⟨.active, 0, []⟩
     (m.bank false).st = .active ∧ (m.bank true).st = .standby ∧ imageValid (m.bank false).image m.floor = false) ∧
    ((banked ⟨.active, 0, head 2⟩ ⟨.active, 0, head 2⟩).bank true).st = .active := by decide

/-! ### One step each, with results worked out by hand from the rules named -/

/-- R242: a sum wraps at 64 bits; a write to sz is discarded. -/
theorem test_sadd_wraps : (after (.sadd 20 21 22) ((sys.setS 21 (BitVec.allOnes 64)).setS 22 2)).getS 20 = 1
    ∧ (after (.sadd 255 21 22) (sys.setS 21 5)).getS 255 = 0 := by decide
/-- R242: the high half of a signed product, -2 × 3. -/
theorem test_smulh_signed : (after (.smulh 20 21 22) ((sys.setS 21 (-2)).setS 22 3)).getS 20 = BitVec.allOnes 64 := by decide
/-- R243: division by zero gives all ones and raises IDZ (bit 5). -/
theorem test_sdiv_by_zero : (after (.sdiv 20 21 22) (sys.setS 21 7)).getS 20 = BitVec.allOnes 64
    ∧ (after (.sdiv 20 21 22) (sys.setS 21 7)).team.sp.sticky = 0x20 := by decide
/-- R243: the most negative value by -1 stays, and raises IOV (bit 6). -/
theorem test_sdiv_overflow :
    (after (.sdiv 20 21 22) ((sys.setS 21 (0x8000000000000000)).setS 22 (-1))).getS 20 = 0x8000000000000000
    ∧ (after (.sdiv 20 21 22) ((sys.setS 21 (0x8000000000000000)).setS 22 (-1))).team.sp.sticky = 0x40 := by decide
/-- R243: -7 and 2 leave -1. -/
theorem test_srem_sign : (after (.srem 20 21 22) ((sys.setS 21 (-7)).setS 22 2)).getS 20 = -1 := by decide
/-- R242: shift counts are taken modulo 64. -/
theorem test_ssra_count : (after (.ssra 20 21 22) ((sys.setS 21 (-8)).setS 22 65)).getS 20 = -4 := by decide
/-- R242: no zero bit leads a register of ones; 64 lead zero. -/
theorem test_sclz_ends : (after (.sclz 20 21) sys).getS 20 = 64
  ∧ (after (.sclz 20 21) (sys.setS 21 (-1))).getS 20 = 0 := by decide
/-- R244: immediates are sign-extended; SLUI shifts by 17 and adds an unsigned field. -/
theorem test_sli_slui : (after (.sli 20 0x1FFFF) sys).getS 20 = -1
    ∧ (after (.slui 20 0x1FFFF) (sys.setS 20 1)).getS 20 = 0x3FFFF := by decide

/-- R249: i32 lanes wrap; v0 of lane 31 is 31. -/
theorem test_vadd_wraps : (after (.vadd 3 0 1) (sys.setV 1 [(31, 0xFFFFFFFF)])).getV 3 31 = 30 := by decide
/-- R250: a shift count is taken modulo the width of the type. -/
theorem test_vshr_count : (after (.vshr 3 1 2) ((sys.setV 1 [(0, 0x80000000)]).setV 2 [(0, 33)])).getV 3 0 = 0x40000000 := by decide
/-- R249, R51: 1.5 + 2.25 = 3.75 in binary32 (T 2); 1 + 2^-24 ties to even with NX. -/
theorem test_vadd_float : (after (.vadd 3 1 2) (((mode sys 2).setV 1 [(0, 0x3FC00000)]).setV 2 [(0, 0x40100000)])).getV 3 0 = 0x40700000
    ∧ (after (.vadd 3 1 2) (((mode sys 2).setV 1 [(0, 0x3F800000)]).setV 2 [(0, 0x33800000)])).getV 3 0 = 0x3F800000
    ∧ (after (.vadd 3 1 2) (((mode sys 2).setV 1 [(0, 0x3F800000)]).setV 2 [(0, 0x33800000)])).team.sp.sticky = 0x10 := by decide
/-- R90: a 64-bit lane is an even pair, low half first. -/
theorem test_vadd_pair : (after (.vadd 4 0 2) ((mode sys 11).setV 2 [(0, 0xFFFFFFFF), (1, 0xFFFFFFFF)])).getV 5 1 = 1
    ∧ (after (.vadd 4 0 2) ((mode sys 11).setV 2 [(0, 0xFFFFFFFF), (1, 0xFFFFFFFF)])).getV 4 1 = 0 := by decide
/-- R178: the guard p2 selects lane 1 alone; lane 0 keeps its value. -/
theorem test_vmov_guard : (after (.vmov 3 0) (((mode sys 0x20).setP 2 allLanes 2).setV 3 [(0, 9), (1, 9)])).getV 3 1 = 1
    ∧ (after (.vmov 3 0) (((mode sys 0x20).setP 2 allLanes 2).setV 3 [(0, 9), (1, 9)])).getV 3 0 = 9 := by decide
/-- R90: an odd register of a 64-bit operand. -/
theorem test_vadd_odd_pair : (after (.vadd 3 0 2) (mode sys 11)).team.fault.map FaultInfo.cause = some .illegalInstruction := by decide
/-- R97: a window register outside the frame. -/
theorem test_vmov_outside : (after (.vmov 8 0) sys).team.fault.map FaultInfo.cause = some .windowRange := by decide
/-- R256: signed less-than against lane number; a lane not selected keeps its bit. -/
theorem test_vcmp_signed : (after (.vcmp 3 1 0 2 0) (sys.setV 1 [(0, 0xFFFFFFFF), (5, 5)])).getP 3 = 0xFFFFFFDF := by decide
/-- R260: the sum of the lane numbers 0..31, sign-extended. -/
theorem test_vred_sum : (after (.vred 0 20 1) sys).getS 20 = 496 := by decide
/-- R263: lanes of p2, counted and as bits of word 0. -/
theorem test_vball : (after (.vball 0 2 20 0) (sys.setP 2 allLanes 0x80000001)).getS 20 = 0x80000001
    ∧ (after (.vball 0 2 20 2) (sys.setP 2 allLanes 0x80000001)).getS 20 = 2 := by decide
/-- R259: the source lane is taken modulo 32 within its group of 32. -/
theorem test_vshfl : (after (.vshfl 3 0 1) (sys.setV 1 [(4, 33)])).getV 3 4 = 1 := by decide

/-- R278, R2: bytes are little-endian; the offset counts words. -/
theorem test_sst32 : (after (.sst32 20 21 2 0) ((sys.setS 20 0x11223344).setS 21 0x8000)).byteAt (.dev 0x8008) = 0x44
    ∧ (after (.sst32 20 21 2 0) ((sys.setS 20 0x11223344).setS 21 0x8000)).byteAt (.dev 0x800B) = 0x11 := by decide
/-- R277, R280: a load's data returns later. -/
theorem test_sld32 :
    let s := (sys.setS 21 0x8000).writeAt (.dev 0x8000) 4 0x80000000
    (after (.sld32 20 21 0 0) s).getS 20 = 0
      ∧ (after .loadDataReturn (after (.sld32 20 21 0 0) s)).getS 20 = 0x80000000 := by
  decide
/-- R174: a misaligned address faults, with the address. -/
theorem test_sld64_align : (after (.sld64 20 21 0 0) (sys.setS 21 0x8004)).team.fault.map (fun f => (f.cause, f.addr)) = some (.align, 0x8004) := by
  decide
/-- R275: VST8 of lane numbers, base + lane. -/
theorem test_vst8 : (after (.vst8 0 21 0 0 1) (sys.setS 21 0x8000)).readAt (.dev 0x801E) 4 = 0x1F1E := by decide
/-- R281: an atomic add leaves the sum and returns the old value. -/
theorem test_satom_add :
    let s := ((sys.setS 20 5).setS 21 0x8000).writeAt (.dev 0x8000) 4 0xFFFFFFFF
    (after (.satom 20 21 0 0 0) s).readAt (.dev 0x8000) 8 = 4
      ∧ (after .loadDataReturn (after (.satom 20 21 0 0 0) s)).getS 20 = 0xFFFFFFFF := by
  decide
/-- R402: an address outside every page of the table. -/
theorem test_page_not_present : (after (.sld64 20 21 0 0) (sys.setS 21 (2 ^ 40))).team.fault.map FaultInfo.cause = some .pageNotPresent := by
  decide

/-- R213: a taken jump goes to PC + 4·OFF. -/
theorem test_jmp_back : (after (.jmp 0xFFFFF) { sys with team := { sys.team with pc := 8 } }).team.pc = 4 := by decide
/-- R214: a split keeps the lanes that branch and stacks the rest with the next offset. -/
theorem test_brm_splits : let t := after (.brm 2 0 4) (sys.setP 2 allLanes 0xF)
    t.team.pc = 0x10 ∧ t.team.lanes.active = 0xF ∧ t.team.lanes.stack = [⟨false, 4, 0xFFFFFFF0⟩] := by decide
/-- R216: a uniform branch on a predicate that differs among the lanes. -/
theorem test_bru_nonuniform : (after (.bru 2 0 4) (sys.setP 2 allLanes 0xF)).team.fault.map FaultInfo.cause = some .branchNonuniform := by
  decide
/-- R94, R96: a call slides the window and saves the return offset; RET undoes both. -/
theorem test_call_ret : let s := framed sys 16 0 0
    let t := after (.call 1 4) s
    t.team.pc = 0x10 ∧ t.team.win.b = 8 ∧ t.team.win.fs = 8 ∧ t.team.win.depth = 1 ∧ (after .ret t).team.pc = 4
    ∧ (after .ret t).team.win.b = 0 ∧ (after .ret t).team.win.fs = 16 := by decide
/-- R95: new frame registers read zero. -/
theorem test_enter : (after (.enter 8) sys).team.win.fs = 8 ∧ (after (.enter 8) sys).getV 15 3 = 0 := by decide
/-- R237: push and pop; a pop of an empty stack faults. -/
theorem test_pushm : (after (.pushm 20 2) (sys.setS 21 7)).team.sp.ssp = 16
  ∧ (after (.popm 30 2) (after (.pushm 20 2) (sys.setS 21 7))).getS 31 = 7
    ∧ (after (.popm 20 1) sys).team.fault.map FaultInfo.cause = some .stack := by decide
/-- R236: reserved element types and rounding modes. -/
theorem test_mode_illegal : (after (.mode 14) sys).team.fault.map FaultInfo.cause = some .illegalMode
  ∧ (after (.mode 13) sys).team.sp.mode = 13 := by
  decide
/-- R231: TRAPINFO holds cause, state and code, and TRAPOFF the offset after the word. -/
theorem test_trap_entry : let t := after (.trap 0x42) (trapping usr)
    t.team.pc = 0x40 ∧ t.team.trap.info = 0x1C + 2 ^ 31 + 0x42 * 2 ^ 32 ∧ t.team.trap.off = 4 := by decide
/-- R208, R373: a privileged word of a user team holds it. -/
theorem test_haltc_user : (after .haltc usr).team.phase = .held
  ∧ (after .haltc usr).team.fault.map FaultInfo.cause = some .privilege := by
  decide
/-- R374: the record of that fault waits in the queue of the domain, with the first ticket. -/
theorem test_fault_record : ((after .haltc usr).findDomain 0x1000).map (fun d => d.waiting.map (fun r => (r.cause, r.ticket))) = some [(0x20, 0)] := by
  decide
/-- R75: the last lanes end the team. -/
theorem test_exit_ends : (after .exit sys).team.phase = .ended
  ∧ (after .exit sys).team.lanes.vacant = firstLanes 32 := by decide
/-- R228: LEAVE counts its requests. -/
theorem test_leave : (after (.leave 0 0xFFFF) { sys with team := { sys.team with reqSteps := 1 } }).team.reqSteps = 65535 := by decide

/-- R288: a block barrier's arrival is of the next phase. -/
theorem test_bar_arrive : (after (.barArrive 3) sys).team.barA = [(3, 1)] := by decide
/-- R293: one arrival of a fresh phase barrier ends its phase, and the old phase is returned. -/
theorem test_pbara : let s := sys.setS 20 (0xF1 * 2 ^ 56)
    (after (.pbara 20) s).readAt (.spad 3 8) 4 = 1 ∧ (after (.pbara 20) s).getS 21 = 0 := by decide
/-- R296: names 4..5 are bound in state Zero; a second claim is nested. -/
theorem test_tclm : (after (.tclm 20 2 4) sys).team.mat.slots.map Prod.fst = [4, 5]
    ∧ (after (.tclm 20 1 8) (after (.tclm 20 2 4) sys)).team.fault.map FaultInfo.cause = some .claimNested := by decide
/-- R316: AWRR puts lane l of a register in row s, column l. -/
theorem test_awrr : ((after (.awrr 0 2 20) ((claimed sys).setS 20 3)).team.mat.tiles.find? (fun y => y.1 == 2)).map
    (fun y => smGet 0 y.2 (32 * 3 + 31)) = some 31 := by decide
/-- R328: XCNT adds to a completion counter of the block and returns the old value. -/
theorem test_xcnt : (after (.xcntAdd 20 21 22) ((sys.setS 20 1024).setS 21 3)).blk.counters = [(0, 3)]
    ∧ (after (.xwaitTest 20 21 22) ((sys.setS 20 1024).setS 21 3)).getS 22 = 1 := by decide
/-- Team 4 waits until arrival counter 7, at `n` now, reaches 2. -/
def arrived (n : Nat) : State :=
  { phase sys (.waiting (.counter 255 7 2)) with hub := { sys.hub with arrival := [(7, n)] } }
/-- R340: the words of the chain, and an XWAIT that a counter of 1 leaves waiting for 2 and a counter of 2 ends. -/
theorem test_scan_chain :
    decodeWord 0xF62A29FE = .ok (.xwait 21 20 255) ∧ decodeWord 0xD22A39FF = .ok (.xcntAdd 21 28 255)
    ∧ (arrived 1).wake.team.phase = .waiting (.counter 255 7 2) ∧ (arrived 2).wake.team.phase = .ready
    ∧ (arrived 2).wake.team.pc = 4 := by decide
/-- The machine after a copy of four bytes is queued. -/
def copying : State := after (.xcpy 20 21 24) { descs.writeAt (.dev 0x8080) 4 0x12345678 with arg := { sys.arg with id := 5 } }
/-- R320, R330: a copy is queued and a row of four bytes arrives. -/
theorem test_xcpy : copying.cmds.map Cmd.id = [5]
    ∧ (after .engineCommandComplete (after .engineCommandStart copying)).readAt (.dev 0x8000) 4 = 0x12345678 := by decide +kernel
/-- R379: SIGNAL set posts the counter and the queue moves on. -/
theorem test_signal_set : let t := after .signalSet (hosting sys (cmdBytes 5 0 0 [1023, 7]))
    smGet 0 t.hub.arrival 1023 = 7 ∧ (t.findQueue 0).map Queue.head = some 1 := by decide
/-- R382: a LAUNCH command makes a launch; placing it gives a team at the header's entry. -/
theorem test_launch : (after .launch (kernels (hosting sys (cmdBytes 1 0 0 [0x21000])))).launches.length = 2
    ∧ ((after .blockPlace (after .launch (kernels (hosting sys (cmdBytes 1 0 0 [0x21000]))))).others.map
        (fun u => (u.pc, u.system, u.size))) = [(0, false, 32)] := by decide +kernel
/-- R435, R442: a module at its critical temperature is down until a reset. -/
theorem test_tcrit : (after .sensorPoll { sys with arg := { sys.arg with sensor := ⟨[105, 0, 0], [], [], 0⟩ } }).amc.status = .down := by decide
/-- R433: the PTP clock never goes back. -/
theorem test_ptp : (after .ptpMessage { sys with arg := { sys.arg with value := 77, vlan := sys.amc.cfg.mvlan } }).hub.ptp = 77 := by decide
/-- The first step after reset runs the loaded word: SLI s20, 5 (R244). -/
theorem test_first_step : (match step (State.reset.withFetchWord 32 0x6E280005) with | .next t => (t.team.getS 20, t.team.pc) | _ => (0, 0))
    = (5, 4) := by decide

end Sys2Proof.Tests
end

section
/-!
PROOF. What taking a fault leaves as it was (R10).
-/
namespace Sys2Proof.Machine

/-- Nothing that a fault may not change differs between the two states: registers, special registers and scalar stack of
the team in focus, the count of issues, and what every store of bytes and side-bands holds (R10). -/
structure FaultFrame (s t : State) : Prop where
  regs : t.team.regs = s.team.regs
  sp : t.team.sp = s.team.sp
  sstack : t.team.sstack = s.team.sstack
  issued : t.issued = s.issued
  mem : t.mem = s.mem
  memSide : t.memSide = s.memSide
  publish : t.hub.publish = s.hub.publish
  bid : t.blk.bid = s.blk.bid
  spad : t.blk.spad = s.blk.spad
  spadSide : t.blk.spadSide = s.blk.spadSide
  blocks : t.blocks = s.blocks

theorem FaultFrame.refl (s : State) : FaultFrame s s := ⟨rfl, rfl, rfl, rfl, rfl, rfl, rfl, rfl, rfl, rfl, rfl⟩

/-- A block found in both states is the block in focus with the same scratchpad, or the very same block. -/
theorem FaultFrame.findBlock {s t : State} (h : FaultFrame s t) {β : Type} (f : Block → β)
    (hf : f t.blk = f s.blk) (bid : Nat) : (t.findBlock bid).map f = (s.findBlock bid).map f := by
  unfold State.findBlock State.allBlocks
  rw [h.bid, h.blocks]
  split
  · rfl
  · by_cases hb : s.blk.bid = bid
    · simp [List.find?, h.bid, hb, hf]
    · have hb' : (s.blk.bid == bid) = false := by simp [hb]
      simp [List.find?, h.bid, hb']

theorem FaultFrame.sameBytes {s t : State} (h : FaultFrame s t) : sameBytes s t := by
  intro p
  cases p with
  | dev pa => simp [State.byteAt, State.sideAt, h.mem, h.memSide, h.publish]
  | spad bid off =>
    have hd := h.findBlock Block.spad h.spad bid
    have hs := h.findBlock Block.spadSide h.spadSide bid
    simp only [State.byteAt, State.sideAt]
    revert hd hs
    cases t.findBlock bid <;> cases s.findBlock bid <;> simp +contextual

theorem FaultFrame.withdraw (s : State) (w : Wait) : FaultFrame s (s.withdraw w) := by
  unfold State.withdraw
  split
  · dsimp only
    split <;> exact ⟨rfl, rfl, rfl, rfl, rfl, rfl, rfl, rfl, rfl, rfl, rfl⟩
  · exact ⟨rfl, rfl, rfl, rfl, rfl, rfl, rfl, rfl, rfl, rfl, rfl⟩
  · exact .refl s

theorem FaultFrame.leaveWait (s : State) : FaultFrame s s.leaveWait := by
  unfold State.leaveWait
  split
  · exact .refl s
  · exact .refl s
  · exact .withdraw s _
  · exact .withdraw s _
  · exact ⟨rfl, rfl, rfl, rfl, rfl, rfl, rfl, rfl, rfl, rfl, rfl⟩
  · exact .refl s

theorem FaultFrame.queueRecord {s t : State} (h : FaultFrame s t) (d : Option DomRef) (r : FaultRec) (info : Bool) :
    FaultFrame s (t.queueRecord d r info) := by
  unfold State.queueRecord
  split
  · exact h
  · exact { h with }

/-- Delivery changes nothing more, whichever way it goes. -/
theorem FaultFrame.takeFault (f : FaultInfo) (s : State) : FaultFrame s (takeFault f s) := by
  have h := FaultFrame.leaveWait s
  rcases takeFault_cases f s with ⟨entry, -, he⟩ | ⟨rcb, he⟩ | he <;> rw [he]
  · exact { h with }
  · exact { h with }
  · refine FaultFrame.queueRecord ?_ _ _ _
    exact { h with }

/-- Settles O10. -/
theorem faultsLeaveRegistersAndMemory : Obligations.FaultsLeaveRegistersAndMemory := by
  intro s f
  have h := FaultFrame.takeFault f s
  exact ⟨h.regs, h.sp, h.sstack, h.sameBytes, h.issued⟩

end Sys2Proof.Machine
end

section
/-!
PROOF. The canonical form of the stores through the operations that every later part uses: focus, registers, the end of
an instruction, faults, and the marks that accesses leave on caches.
-/
namespace Sys2Proof.Machine

/-- The stores of the state are in canonical form. -/
abbrev Canon (s : State) : Prop := storesWf s = true

/-- What a computation that may fail answers, if it succeeds, has the property. -/
def OkAnd {ε α : Type} (P : α → Prop) : Except ε α → Prop
  | .ok a => P a
  | .error _ => True

/-- The value, if there is one, has the property. -/
def SomeAnd {α : Type} (P : α → Prop) : Option α → Prop
  | some a => P a
  | none => True

/-- The next state, if the answer is one, has the property. -/
def NextAnd (P : State → Prop) : Host.Outcome State Fault Refusal → Prop
  | .next t => P t
  | .fault _ => True
  | .refused _ => True

/-! ### Computations that may fail -/

section
variable {ε α β : Type} {P : β → Prop} {Q : α → Prop} {x : Except ε α} {f : α → Except ε β}

theorem OkAnd.bind (hx : OkAnd Q x) (hf : ∀ a, Q a → OkAnd P (f a)) : OkAnd P (x >>= f) := by
  cases x with
  | ok a => exact hf a hx
  | error e => trivial

/-- A step whose answer is no state. -/
theorem OkAnd.skip (hf : ∀ a, OkAnd P (f a)) : OkAnd P (x >>= f) := by
  cases x with
  | ok a => exact hf a
  | error e => trivial

theorem OkAnd.pure {b : β} (h : P b) : OkAnd (ε := ε) P (pure b) := h

theorem OkAnd.error {e : ε} : OkAnd P (Except.error e) := trivial

theorem OkAnd.throw {e : ε} : OkAnd P (throw e : Except ε β) := trivial

theorem OkAnd.ite {c : Prop} [Decidable c] {y z : Except ε β} (hy : OkAnd P y) (hz : OkAnd P z) :
    OkAnd P (if c then y else z) := by split <;> assumption

theorem OkAnd.of_eq {y : Except ε β} {b : β} (h : OkAnd P y) (hb : y = .ok b) : P b := by
  rw [hb] at h
  exact h

end

theorem SomeAnd.ite {α : Type} {P : α → Prop} {c : Prop} [Decidable c] {y z : Option α} (hy : SomeAnd P y)
    (hz : SomeAnd P z) : SomeAnd P (if c then y else z) := by split <;> assumption

theorem SomeAnd.of_eq {α : Type} {P : α → Prop} {y : Option α} {a : α} (h : SomeAnd P y) (ha : y = some a) : P a := by
  rw [ha] at h
  exact h

section
variable {s : State}

/-! ### What the canonical form depends on -/

/-- A state whose stores are those of a canonical one, for the team and block in focus and for all others. -/
theorem Canon.of_stores {t : State} (h : Canon s) (hm : t.mem = s.mem) (hd : t.memSide = s.memSide)
    (hp : t.hub.publish = s.hub.publish) (hr : t.team.regs = s.team.regs) (hk : t.team.sstack = s.team.sstack)
    (ho : t.others = s.others) (hs : t.blk.spad = s.blk.spad) (he : t.blk.spadSide = s.blk.spadSide)
    (hb : t.blocks = s.blocks) : Canon t := by
  unfold Canon storesWf memInv teamWf blockWf at h ⊢
  simpa only [List.all_cons, hm, hd, hp, hr, hk, ho, hs, he, hb] using h

section
variable {team : Team} {blk : Block} {hub : Hub} {clusters : List Cluster} {launches : List Launch} {cmds : List Cmd}
  {regions : List Region} {domains : List Domain} {queues : List (Nat × Queue)} {tapes : List (Nat × List (Nat × Nat))}
  {slots : List (Nat × TimeSlot)} {hearths : List Hearth} {halted : List Nat} {swapping : Option Nat} {cursor : Nat}
  {rrRegion : SMap Nat} {records : List PendingRecord} {freeSteps leaveDebt : SMap Nat} {amc : Amc} {caches : Caches}
  {poison : List Nat} {clk leaveWin nextId issued free : Nat} {lastOfClk : Bool} {iss : Issue} {arg : EventArg}
  {agenda : List Turn}

/-- A change of other fields: the parts that hold stores may be new, their stores are the old ones. -/
theorem Canon.frame (h : Canon s)
    (hkept : (team.regs, team.sstack, blk.spad, blk.spadSide, hub.publish)
      = (s.team.regs, s.team.sstack, s.blk.spad, s.blk.spadSide, s.hub.publish)) :
    Canon { s with
      team := team, blk := blk, hub := hub, clusters := clusters, launches := launches, cmds := cmds, regions := regions
      domains := domains, queues := queues, tapes := tapes, slots := slots, hearths := hearths, halted := halted
      swapping := swapping, cursor := cursor, rrRegion := rrRegion, records := records, freeSteps := freeSteps
      leaveDebt := leaveDebt, amc := amc, caches := caches, poison := poison, clk := clk, leaveWin := leaveWin
      nextId := nextId, issued := issued, free := free, lastOfClk := lastOfClk, iss := iss, arg := arg
      agenda := agenda } := by
  simp only [Prod.mk.injEq] at hkept
  obtain ⟨hr, hk, hs, he, hp⟩ := hkept
  exact h.of_stores rfl rfl hp hr hk rfl hs he rfl

end

theorem Canon.mem (h : Canon s) : smWf 0 s.mem = true := by
  have hm := (storesWf_iff.mp h).1
  simp only [memInv, Bool.and_eq_true] at hm
  exact hm.1.1

theorem Canon.memSide (h : Canon s) : smWf 0 s.memSide = true := by
  have hm := (storesWf_iff.mp h).1
  simp only [memInv, Bool.and_eq_true] at hm
  exact hm.1.2

theorem Canon.publish (h : Canon s) : smWf 0 s.hub.publish = true := by
  have hm := (storesWf_iff.mp h).1
  simp only [memInv, Bool.and_eq_true] at hm
  exact hm.2

theorem Canon.team (h : Canon s) : teamWf s.team = true := (storesWf_iff.mp h).2.1

theorem Canon.others (h : Canon s) : ∀ t ∈ s.others, teamWf t = true := (storesWf_iff.mp h).2.2.1

theorem Canon.blk (h : Canon s) : blockWf s.blk = true := (storesWf_iff.mp h).2.2.2.1

theorem Canon.blocks (h : Canon s) : ∀ b ∈ s.blocks, blockWf b = true := (storesWf_iff.mp h).2.2.2.2

/-- The same memory under other teams and blocks. -/
theorem Canon.of_parts {t : State} (h : Canon s) (ht : teamWf t.team = true) (ho : ∀ u ∈ t.others, teamWf u = true)
    (hb : blockWf t.blk = true) (hbs : ∀ b ∈ t.blocks, blockWf b = true)
    (hm : (t.mem, t.memSide, t.hub.publish) = (s.mem, s.memSide, s.hub.publish)) : Canon t := by
  simp only [Prod.mk.injEq] at hm
  obtain ⟨hm, hd, hp⟩ := hm
  refine storesWf_iff.mpr ⟨?_, ht, ho, hb, hbs⟩
  have h := (storesWf_iff.mp h).1
  unfold memInv at h ⊢
  rwa [hm, hd, hp]

theorem Canon.teams (h : Canon s) : ∀ t ∈ s.teams, teamWf t = true := by
  intro t ht
  unfold State.teams at ht
  split at ht
  · exact h.others t ht
  · rcases List.mem_cons.mp ht with rfl | ht
    · exact h.team
    · exact h.others t ht

theorem Canon.findTeam (h : Canon s) {uid : Nat} {t : Team} (ht : s.findTeam uid = some t) : teamWf t = true :=
  h.teams t (List.mem_of_find?_eq_some ht)

theorem Canon.ite {c : Prop} [Decidable c] {t : State} (hs : Canon s) (ht : Canon t) : Canon (if c then s else t) := by
  split <;> assumption

/-- A fold of operations each of which keeps the canonical form. -/
theorem Canon.foldl {α : Type} {f : State → α → State} {l : List α} (h : Canon s)
    (hf : ∀ t a, Canon t → Canon (f t a)) : Canon (l.foldl f s) := foldl_keeps Canon f hf l s h

/-! ### Teams, blocks and focus -/

theorem Canon.setTeam (h : Canon s) {u : Team} (hu : teamWf u = true) : Canon { s with team := u } :=
  h.of_parts hu h.others h.blk h.blocks rfl

theorem Canon.modTeam {uid : Nat} {f : Team → Team} (h : Canon s)
    (hf : ∀ t, teamWf t = true → teamWf (f t) = true) : Canon (s.modTeam uid f) := by
  refine h.of_parts ?_ ?_ h.blk h.blocks rfl
  · simp only [State.modTeam]
    split
    · exact hf _ h.team
    · exact h.team
  · simp only [State.modTeam, List.mem_map]
    rintro _ ⟨t, ht, rfl⟩
    split
    · exact hf _ (h.others t ht)
    · exact h.others t ht

theorem Canon.mapTeams {f : Team → Team} (h : Canon s)
    (hf : ∀ t, teamWf t = true → teamWf (f t) = true) : Canon (s.mapTeams f) := by
  refine h.of_parts (hf _ h.team) ?_ h.blk h.blocks rfl
  simp only [State.mapTeams, List.mem_map]
  rintro _ ⟨t, ht, rfl⟩
  exact hf _ (h.others t ht)

theorem Canon.modBlock {bid : Nat} {f : Block → Block} (h : Canon s)
    (hf : ∀ b, blockWf b = true → blockWf (f b) = true) : Canon (s.modBlock bid f) :=
  storesWf_modBlock h bid f hf

theorem Canon.focusBlock {bid : Nat} (h : Canon s) : Canon (s.focusBlock bid) := by
  unfold State.focusBlock
  split
  · exact h
  · split
    · exact h
    · next b hb =>
      have hrest : ∀ x ∈ s.blocks.filter (fun b => b.bid != bid), blockWf x = true :=
        fun x hx => h.blocks x (List.mem_of_mem_filter hx)
      refine h.of_parts h.team h.others (h.blocks b (List.mem_of_find?_eq_some hb)) ?_ rfl
      dsimp only
      split
      · exact hrest
      · exact List.forall_mem_cons.mpr ⟨h.blk, hrest⟩

theorem Canon.focus {uid : Nat} (h : Canon s) : Canon (s.focus uid) := by
  unfold State.focus
  split
  · exact h
  · split
    · exact h
    · next t ht =>
      have hrest : ∀ x ∈ s.others.filter (fun t => t.uid != uid), teamWf x = true :=
        fun x hx => h.others x (List.mem_of_mem_filter hx)
      refine Canon.focusBlock (h.of_parts (h.others t (List.mem_of_find?_eq_some ht)) ?_ h.blk h.blocks rfl)
      dsimp only
      split
      · exact hrest
      · exact List.forall_mem_cons.mpr ⟨h.team, hrest⟩

theorem Canon.modLaunch {lid : Nat} {f : Launch → Launch} (h : Canon s) : Canon (s.modLaunch lid f) := h.frame rfl
theorem Canon.modCluster {cid : Nat} {f : Cluster → Cluster} (h : Canon s) : Canon (s.modCluster cid f) := h.frame rfl
theorem Canon.modDomain {rcb : Nat} {f : Domain → Domain} (h : Canon s) : Canon (s.modDomain rcb f) := h.frame rfl
theorem Canon.newId (h : Canon s) : Canon s.newId.2 := h.frame rfl
theorem Canon.draw (h : Canon s) : Canon s.draw.2 := h.frame rfl
theorem Canon.stamp {unit : Nat} (h : Canon s) : Canon (s.stamp unit).2 := h.frame rfl
theorem Canon.log {u v c d : Nat} (h : Canon s) : Canon (s.log u v c d) := storesWf_log h u v c d
theorem Canon.countEvent {unit src rid n : Nat} (h : Canon s) : Canon (s.countEvent unit src rid n) := h.frame rfl
theorem Canon.countCore {src n : Nat} (h : Canon s) : Canon (s.countCore src n) := h.countEvent

/-! ### Registers -/

theorem Canon.setS {n : Nat} {x : Word64} (h : Canon s) : Canon (s.setS n x) := storesWf_setS h n x
theorem Canon.setP {n : Nat} {m x : Mask} (h : Canon s) : Canon (s.setP n m x) := storesWf_setP h n m x
theorem Canon.setV {n : Nat} {xs : List (Nat × Word32)} (h : Canon s) : Canon (s.setV n xs) := storesWf_setV h n xs
theorem Canon.setSide {n : Nat} {xs : List (Nat × SideBand)} (h : Canon s) : Canon (s.setSide n xs) :=
  storesWf_setSide h n xs
theorem Canon.putV {n : Nat} {xs : List (Nat × Word32)} (h : Canon s) : Canon (s.putV n xs) := storesWf_putV h n xs
theorem Canon.withSp {x : Special} (h : Canon s) : Canon (s.withSp x) := h.frame rfl
theorem Canon.raise {f : Byte} (h : Canon s) : Canon (s.raise f) := h.frame rfl
theorem Canon.withWin {w : Window} (h : Canon s) : Canon (s.withWin w) := h.frame rfl
theorem Canon.withLanes {l : Lanes} (h : Canon s) : Canon (s.withLanes l) := h.frame rfl
theorem Canon.withMat {m : Matrix} (h : Canon s) : Canon (s.withMat m) := h.frame rfl
theorem Canon.withPhase {p : Phase} (h : Canon s) : Canon (s.withPhase p) := h.frame rfl

theorem teamWf_iff {t : Team} : teamWf t = true ↔ smWf 0 t.regs.v = true ∧ smWf 0 t.regs.side = true
    ∧ smWf 0 t.regs.s = true ∧ smWf 0 t.regs.p = true ∧ smWf 0 t.sstack = true := by
  simp [teamWf, and_assoc]

theorem teamWf_setS {t : Team} (h : teamWf t = true) (n : Nat) (x : Word64) : teamWf (t.setS n x) = true := by
  unfold Team.setS
  split
  · obtain ⟨hv, hd, hs, hp, hk⟩ := teamWf_iff.mp h
    exact teamWf_iff.mpr ⟨hv, hd, smWf_smSet hs n x, hp, hk⟩
  · exact h

theorem teamWf_finishWait {t : Team} (h : teamWf t = true) (p : Nat) (status : Bool) :
    teamWf (t.finishWait p status) = true := by
  obtain ⟨hv, hd, hs, hp, hk⟩ := teamWf_iff.mp h
  refine teamWf_iff.mpr ?_
  unfold Team.finishWait
  dsimp only
  split
  · exact ⟨hv, hd, hs, hp, hk⟩
  · exact ⟨hv, hd, hs, smWf_smSet hp _ _, hk⟩

theorem teamWf_endRoutine {t : Team} (h : teamWf t = true) : teamWf t.endRoutine = true := by
  unfold Team.endRoutine
  dsimp only
  split
  · exact h
  · split
    · exact h
    · exact h

/-! ### How an instruction ends -/

theorem Canon.issueDone (h : Canon s) : Canon s.issueDone := h.frame rfl

theorem Canon.retire (h : Canon s) : Canon s.retire := by
  unfold State.retire
  dsimp only
  split <;> exact h.frame rfl

theorem Canon.retireSr (h : Canon s) : Canon s.retireSr := Canon.retire (h.frame rfl)
theorem Canon.goTo {pc : Word32} (h : Canon s) : Canon (s.goTo pc) := h.frame rfl
theorem Canon.retireCtl (h : Canon s) : Canon s.retireCtl := h.goTo
theorem Canon.goOn (h : Canon s) : Canon s.goOn := h.goTo
theorem Canon.beginWait {e : Bool} {w : Wait} (h : Canon s) : Canon (s.beginWait e w) := h.frame rfl
theorem Canon.stall {w : Stall} (h : Canon s) : Canon (s.stall w) := h.withPhase
theorem Canon.onVlan {t : State} (h : Canon s) (ht : Canon t) : Canon (s.onVlan t) := ht.ite h
theorem Canon.offVlan {t : State} (h : Canon s) (ht : Canon t) : Canon (s.offVlan t) := h.ite ht

/-! ### Faults -/

theorem Canon.queueRecord {d : Option DomRef} {r : FaultRec} {info : Bool} (h : Canon s) :
    Canon (s.queueRecord d r info) := storesWf_queueRecord h d r info

theorem Canon.takeFault {f : FaultInfo} (h : Canon s) : Canon (takeFault f s) := storesWf_takeFault h f

theorem Canon.faultIn {uid : Nat} {f : FaultInfo} (h : Canon s) : Canon (s.faultIn uid f) := by
  unfold State.faultIn
  split
  · exact h
  · exact h.focus.takeFault.focus

/-- Every meaning built on `answer`: its effect keeps the form, and so does its fault. -/
theorem Canon.answer {r : Except FaultInfo State} (h : Canon s) (hr : OkAnd Canon r) : NextAnd Canon (answer s r) := by
  cases r with
  | ok t => exact hr
  | error f => exact h.takeFault

/-! ### Bytes -/

theorem Canon.writeAt {p : Place} {n x : Nat} (h : Canon s) : Canon (s.writeAt p n x) := storesWf_writeAt h p n x
theorem Canon.writeSide {p : Place} {x : SideBand} (h : Canon s) : Canon (s.writeSide p x) := storesWf_writeSide h p x
theorem Canon.clearPoison {p : Place} (h : Canon s) : Canon (s.clearPoison p) := storesWf_clearPoison h p
theorem Canon.writeSector {p : Place} {x : BitVec 512} {sb : SideBand} (h : Canon s) : Canon (s.writeSector p x sb) :=
  storesWf_writeSector h p x sb
theorem Canon.writeSpan {ps : List (Nat × Nat)} {va : Nat} {bs : List Byte} (h : Canon s) :
    Canon (s.writeSpan ps va bs) := storesWf_writeSpan h ps va bs

/-! ### Marks on caches and TLBs -/

theorem Canon.evictLine {l : CacheLine} (h : Canon s) : Canon (s.evictLine l) := by
  have hu : Canon (if (s.caches.leavesAs l (s.lineData l.line)).1 = 0 then s
      else s.countEvent (192 + s.homeDie (256 * l.line)) 7 0 1) := h.ite h.countEvent
  unfold State.evictLine
  dsimp only
  exact (hu.countEvent.ite hu).frame rfl

theorem Canon.bringLine {l : CacheLine} (h : Canon s) : Canon (s.bringLine l) := by
  unfold State.bringLine
  split
  · exact h.evictLine.frame rfl
  · exact h.frame rfl

theorem Canon.reachL2 {own pa : Nat} {l : CacheLine} (h : Canon s) : Canon (s.reachL2 own pa l) := by
  unfold State.reachL2
  dsimp only
  split
  · exact h.countEvent.frame rfl
  · exact h.countEvent.countEvent.bringLine

theorem Canon.crossDies {k : AccKind} {own core pa n : Nat} (h : Canon s) : Canon (s.crossDies k own core pa n) := by
  unfold State.crossDies
  dsimp only
  split
  · exact h
  · split
    · exact h.countEvent.ite h
    · exact (h.countEvent.ite h).countEvent

theorem Canon.notePhys {own : Nat} {w : Bool} {pa : Nat} (h : Canon s) : Canon (s.notePhys own w pa) :=
  h.reachL2.ite h

theorem Canon.fillTlb {v : View} {va : Nat} (h : Canon s) : Canon (s.fillTlb v va) := by
  unfold State.fillTlb
  dsimp only
  split
  · exact h.foldl fun _ _ ht => ht.notePhys
  · split
    · exact h
    · split
      · exact (h.countEvent.ite (h.countEvent.countEvent.countEvent.foldl fun _ _ ht => ht.crossDies.notePhys)).frame rfl
      · exact h.countEvent.ite (h.countEvent.countEvent.countEvent.foldl fun _ _ ht => ht.crossDies.notePhys)

theorem Canon.touchLine {k : AccKind} {v : View} {e pa : Nat} (h : Canon s) : Canon (s.touchLine k v e pa) := by
  unfold State.touchLine
  dsimp only
  split
  · exact h
  · split
    · exact h.reachL2
    · split
      · exact h
      · exact ((h.countEvent.ite h).crossDies.reachL2).frame rfl

theorem Canon.noteAs {v : View} {k as : AccKind} {va : Nat} (h : Canon s) : Canon (s.noteAs v k as va) := by
  unfold State.noteAs
  split
  · split
    · exact h.fillTlb.touchLine
    · exact h.fillTlb
  · exact h

theorem Canon.noteVa {v : View} {k : AccKind} {va : Nat} (h : Canon s) : Canon (s.noteVa v k va) := h.noteAs

theorem Canon.noteRange {v : View} {k as : AccKind} {va n : Nat} (h : Canon s) : Canon (s.noteRange v k as va n) :=
  h.foldl fun _ _ ht => ht.noteAs

theorem Canon.noteTlb {k : AccKind} {ps : List (Nat × Word64)} (h : Canon s) : Canon (s.noteTlb k ps) :=
  h.foldl fun _ _ ht => ht.noteVa

theorem Canon.noteUnits {ps : List Word64} (h : Canon s) : Canon (s.noteUnits ps) := h.noteTlb

theorem Canon.writeVa {v : View} {k : AccKind} {va : Nat} {bs : List Byte} (h : Canon s) :
    OkAnd Canon (s.writeVa v k va bs) := by
  unfold State.writeVa
  split
  · trivial
  · exact h.writeSpan.noteRange

end

end Sys2Proof.Machine
end

section
/-!
PROOF. The canonical form through vector words, the window and its spill transfers, and control flow.
-/
namespace Sys2Proof.Machine

section
variable {s : State}

/-! ### Vector words -/

theorem Canon.putLanes {wide : Bool} {n : Nat} {xs : List (Nat × Nat)} (h : Canon s) : Canon (s.putLanes wide n xs) :=
  h.putV.putV.ite h.putV

theorem Canon.writeLanes {wide : Bool} {d : Nat} {rs : List (Nat × LaneOut)} (h : Canon s) :
    Canon (s.writeLanes wide d rs) := h.putLanes.raise

theorem Canon.lanewiseCore {ty sw dw : Bool} {d : Nat} {srcs : List Nat} {f : Nat → LaneOut} (h : Canon s) :
    OkAnd Canon (s.lanewiseCore ty sw dw d srcs f) :=
  .skip fun _ => .skip fun _ => .skip fun _ => h.writeLanes

theorem Canon.lanewise {ty sw dw : Bool} {d : Nat} {srcs : List Nat} {f : Nat → LaneOut} (h : Canon s) :
    OkAnd Canon (s.lanewise ty sw dw d srcs f) := h.lanewiseCore.bind fun _ ht => ht.retireSr

theorem Canon.compare {p cc fn a : Nat} {srcs : List Nat} {b : Nat → Nat} (h : Canon s) :
    OkAnd Canon (s.compare p srcs cc fn b a) := .skip fun _ => h.setP.raise.retireSr

theorem Canon.putGroups {n : Nat} {gs : List (Nat × Group)} (h : Canon s) : Canon (s.putGroups n gs) :=
  h.setV.setSide.raise

theorem Canon.blockwise {d : Nat} {f : Nat → Group} (h : Canon s) : Canon (s.blockwise d f) := h.putGroups.retireSr

theorem Canon.openWindow {la : Nat} {done : Bool} {i : Instr} (h : Canon s) : Canon (s.openWindow la done i) := by
  unfold State.openWindow
  split <;> exact h.frame rfl

theorem Canon.execVhist {a r : Nat} (h : Canon s) : NextAnd Canon (execVhist a r s) :=
  h.answer (.skip fun _ => .skip fun _ => (h.foldl fun _ _ ht => ht.writeAt).retireSr)

/-! ### The window and its transfers -/

theorem Canon.setGranule {g : Nat} {bs : List Byte} (h : Canon s) : Canon (s.setGranule g bs) := by
  obtain ⟨hv, hd, hs, hp⟩ := storesWf_regs h
  exact storesWf_withRegs h (smWf_smSetAll hv _) (smWf_smSetAll hd _) hs hp

theorem Canon.noteSpill {as : AccKind} {off n : Nat} (h : Canon s) : Canon (s.noteSpill as off n) :=
  h.foldl fun _ _ ht => ht.noteRange

theorem Canon.spillWrite {ps : List (Nat × Nat)} {off : Nat} {bs : List Byte} (h : Canon s) :
    Canon (s.spillWrite ps off bs) := (h.foldl fun _ _ ht => ht.writeSpan).noteSpill

theorem Canon.refillGranule {ps : List (Nat × Nat)} {g : Nat} (h : Canon s) : Canon (s.refillGranule ps g) :=
  h.noteSpill.setGranule

theorem Canon.spillGranule {ps : List (Nat × Nat)} {g : Nat} (h : Canon s) : Canon (s.spillGranule ps g) := h.spillWrite

theorem Canon.slide {w : Window} (h : Canon s) : Canon (s.slide w) := h.withWin

theorem Canon.makeResident {allow : Bool} {lo hi : Nat} (h : Canon s) : OkAnd Canon (s.makeResident allow lo hi) := by
  refine .ite trivial (.skip fun os => .skip fun is => .skip fun _ => ?_)
  have ht : Canon (is.foldl (fun s p => s.refillGranule p.2 p.1) (os.foldl (fun s p => s.spillGranule p.2 p.1) s)) :=
    (h.foldl fun _ _ ht => ht.spillGranule).foldl fun _ _ ht => ht.refillGranule
  exact (ht.ite ht.withWin).countCore.countCore

theorem Canon.pushLink {allow : Bool} {r : LinkRec} (h : Canon s) : OkAnd Canon (s.pushLink allow r) := by
  unfold State.pushLink
  dsimp only
  split
  · exact h.withWin
  · split
    · trivial
    · split
      · exact h.withWin
      · exact .skip fun _ => h.spillWrite.withWin

theorem Canon.topLink {allow : Bool} (h : Canon s) : OkAnd (fun x => Canon x.2) (s.topLink allow) := by
  unfold State.topLink
  split
  · exact h
  · split
    · trivial
    · exact .skip fun _ => .skip fun _ => h.noteSpill.withWin

theorem Canon.callEffect {allow calli : Bool} {target retoff tv : Word32} {sl : Nat} (h : Canon s) :
    OkAnd Canon (s.callEffect allow target sl retoff calli tv) := h.pushLink.bind fun _ ht => ht.slide.frame rfl

theorem Canon.zeroAbs {lo hi : Nat} (h : Canon s) : Canon (s.zeroAbs lo hi) := by
  obtain ⟨hv, hd, hs, hp⟩ := storesWf_regs h
  exact storesWf_withRegs h (smWf_filter _ hv) (smWf_filter _ hd) hs hp

theorem Canon.enterFrame {allow : Bool} {n : Nat} (h : Canon s) : OkAnd Canon (s.enterFrame allow n) :=
  .skip fun _ => .skip fun _ => h.makeResident.bind fun _ ht => ht.zeroAbs.slide

theorem Canon.retFrame {allow : Bool} (h : Canon s) : OkAnd Canon (s.retFrame allow) :=
  .skip fun _ => h.topLink.bind fun _ ht => .skip fun _ => .skip fun _ => ht.makeResident.bind fun _ hu =>
    hu.slide.setTeam (teamWf_endRoutine hu.team)

theorem Canon.emptied {allow : Bool} {n : Nat} (h : Canon s) : OkAnd Canon (s.emptied allow n) := by
  induction n generalizing s with
  | zero => exact h.frame rfl
  | succ n ih =>
    unfold State.emptied
    dsimp only
    split
    · exact h
    · split
      · split
        · exact .ite (h.frame rfl) trivial
        · exact h.frame rfl
      · split
        · trivial
        · next ht =>
          have ht := h.topLink.of_eq ht
          split
          · exact .ite (ht.frame rfl) trivial
          · split
            · trivial
            · next hu =>
              have hu := ht.withLanes.retFrame.of_eq hu
              exact .ite hu.withLanes (ih hu)

theorem Canon.answerW {word : Nat} {r : Except Halt State} (h : Canon s) (hr : OkAnd Canon r) :
    OkAnd Canon (answerW s word r) := by
  unfold Machine.answerW
  split
  · exact hr
  · trivial
  · exact h.withWin.stall

/-- How a window operation answers as an instruction. -/
theorem Canon.answerWindow {word : Nat} {r : Except Halt State} (h : Canon s) (hr : OkAnd Canon r) :
    NextAnd Canon (Machine.answer s (Machine.answerW s word r)) := h.answer (h.answerW hr)

theorem Canon.noteFault {t : State} (h : Canon t) : Canon (s.noteFault t) := by
  unfold State.noteFault
  split
  · split
    · split
      · exact h.fillTlb
      · exact h
    · exact h
  · exact h

theorem Canon.countIssue {op : Nat} {t : State} (h : Canon t) : Canon (countIssue s op t) :=
  h.noteFault.ite (h.countEvent.ite h.countEvent.countEvent)

/-! ### MISC words, branches, calls -/

theorem Canon.opExit {allow : Bool} (h : Canon s) : OkAnd Canon (s.opExit allow) := by
  unfold State.opExit
  split
  · next ht => exact (h.withLanes.emptied.of_eq ht).goOn
  · trivial
  · trivial

theorem Canon.joinEffect (h : Canon s) : OkAnd Canon s.joinEffect := by
  refine .skip fun _ => ?_
  split
  · exact .skip fun _ => h.withLanes.goTo
  · exact h.issueDone.frame rfl

theorem Canon.opRet {allow : Bool} (h : Canon s) : OkAnd Canon (s.opRet allow) := h.retFrame.bind fun _ ht => ht.goOn

theorem Canon.opTrapReturn {user allow : Bool} (h : Canon s) : OkAnd Canon (s.opTrapReturn user allow) := by
  have ht : Canon { s.issueDone with team := s.issueDone.team.leaveTrap } := h.issueDone.frame rfl
  unfold State.opTrapReturn
  split
  · trivial
  · dsimp only
    split
    · exact .ite ht trivial
    · split
      · next hu => exact (ht.emptied.of_eq hu).frame rfl
      · trivial
      · trivial

theorem Canon.jump {target : Word32} (h : Canon s) : OkAnd Canon (s.jump target) := .skip fun _ => h.goTo

theorem Canon.execBru {p n o : Nat} (h : Canon s) : NextAnd Canon (execBru p n o s) :=
  h.answer (.ite h.jump (.ite h.retireCtl trivial))

theorem Canon.execBrm {p n o : Nat} (h : Canon s) : NextAnd Canon (execBrm p n o s) :=
  h.answer (.ite h.retireCtl (.ite h.jump (.skip fun _ => h.jump.bind fun _ ht => ht.withLanes)))

theorem Canon.ejectLanes {m : Mask} {stn : Nat} (h : Canon s) : OkAnd Canon (s.ejectLanes m stn) := by
  have ht : Canon { s with blk := { s.blk.clearRange (s.blk.k.spawnOff + 72 * s.blk.spawn.length)
      (72 * ((lanesOf s.team.size m).map (fun l => s.spawnRecord l stn)).length) with
        spawn := s.blk.spawn ++ (lanesOf s.team.size m).map (fun l => s.spawnRecord l stn) } } := h.frame rfl
  unfold State.ejectLanes
  dsimp only
  split
  · next hu => exact ht.withLanes.emptied.of_eq hu
  · trivial
  · exact ht.withLanes

theorem Canon.execEject {p n o : Nat} (h : Canon s) : NextAnd Canon (execEject p n o s) := by
  refine h.answer ?_
  split
  · trivial
  · refine .skip fun _ => .ite h.retireCtl (.ite ?_ h.beginWait)
    split
    · next ht => exact h.retireCtl.ejectLanes.of_eq ht
    · trivial

theorem Canon.execEjectRecordWrite (h : Canon s) : NextAnd Canon (execEjectRecordWrite s) := by
  unfold Machine.execEjectRecordWrite
  show Canon _
  split
  · split
    · dsimp only
      split
      · next ht =>
        refine (Canon.ejectLanes (h.frame ?_)).of_eq ht
        rfl
      · exact h.takeFault
    · exact h
  · exact h

theorem Canon.fillLane {l : Nat} {x : SpawnRec ⊕ Nat} (h : Canon s) : Canon (s.fillLane l x) :=
  ((h.foldl fun _ _ ht => ht.setV.setSide).foldl fun _ _ ht => ht.setP).withLanes

theorem Canon.refillLanes {stn : Nat} (h : Canon s) : Canon (s.refillLanes stn) := by
  refine (Canon.foldl (h.frame ?_) fun _ _ ht => ht.fillLane).withLanes
  rfl

theorem Canon.execRefill (h : Canon s) : NextAnd Canon (execRefill s) := by
  refine h.answer ?_
  split
  · trivial
  · exact .skip fun _ => .skip fun _ => .skip fun _ => h.refillLanes.retireCtl

theorem Canon.opCall {allow : Bool} {target : Word32} {l : Nat} (h : Canon s) : OkAnd Canon (s.opCall allow target l) :=
  .skip fun _ => h.callEffect.bind fun _ ht => ht.goOn

theorem Canon.opCalli {allow : Bool} {l a : Nat} (h : Canon s) : OkAnd Canon (s.opCalli allow l a) := by
  refine .skip fun _ => ?_
  extract_lets
  split
  · refine .skip fun _ => ?_
    split
    · next ht =>
      refine ((Canon.emptied (h.withLanes.withWin.frame ?_)).of_eq ht).goOn
      rfl
    · trivial
    · trivial
  · exact .skip fun _ => .skip fun _ => h.withLanes.withWin.callEffect.bind fun _ ht => ht.goOn

theorem Canon.opEnter {allow : Bool} {n : Nat} (h : Canon s) : OkAnd Canon (s.opEnter allow n) :=
  h.enterFrame.bind fun _ ht => ht.retireCtl

theorem Canon.windowOp {i : Instr} (h : Canon s) : OkAnd Canon (s.windowOp i) := by
  unfold State.windowOp
  split
  · exact h.opCall
  · exact h.opCall
  · exact h.opCalli
  · exact h.opEnter
  · exact h.opRet
  · exact h.opExit
  · exact h.opTrapReturn
  · exact h.opTrapReturn
  · exact h

theorem Canon.setMode {x : Word64} (h : Canon s) : OkAnd Canon (s.setMode x) := .skip fun _ => h.withSp

theorem Canon.execPushm {f c : Nat} (h : Canon s) : NextAnd Canon (execPushm f c s) := by
  obtain ⟨hv, hd, hs, hp, hk⟩ := teamWf_iff.mp h.team
  refine h.answer (.skip fun _ => Canon.retireCtl (Canon.withSp ?_))
  exact h.of_parts (teamWf_iff.mpr ⟨hv, hd, hs, hp, smWf_smSetAll hk _⟩) h.others h.blk h.blocks rfl

theorem Canon.execPopm {f c : Nat} (h : Canon s) : NextAnd Canon (execPopm f c s) :=
  h.answer (.skip fun _ => .skip fun _ => (h.foldl fun _ _ ht => ht.setS).withSp.retireCtl)

end

end Sys2Proof.Machine
end

section
/-!
PROOF. The canonical form through what settles between turns, barriers, convocations, counters and matrix work.
-/
namespace Sys2Proof.Machine

section
variable {s : State}

/-! ### The CP's own accesses, records and queues -/

theorem Canon.cpNote {rcb a n : Nat} {k : AccKind} (h : Canon s) : Canon (s.cpNote rcb a n k) := by
  unfold State.cpNote
  split
  · exact h.noteRange
  · exact h.foldl fun _ _ ht => ht.notePhys

theorem Canon.cpWrite {rcb a : Nat} {bs : List Byte} (h : Canon s) : SomeAnd Canon (s.cpWrite rcb a bs) := by
  unfold State.cpWrite
  split
  · split
    · exact .ite trivial h.writeSpan.cpNote
    · trivial
  · exact .ite h.writeAt.cpNote trivial

theorem Canon.completionRecord {rcb crec source status detail disc result : Nat} (h : Canon s) :
    Canon (s.completionRecord rcb crec source status detail disc result) := by
  refine h.ite ?_
  extract_lets
  split
  · next ht => exact h.stamp.cpWrite.of_eq ht
  · exact h.stamp.cpNote.log

theorem Canon.setQueue {q : Nat} {x : Queue} (h : Canon s) : Canon (s.setQueue q x) := h.frame rfl

theorem Canon.startFlush {peers : List Nat} {cmd uid : Option Nat} (h : Canon s) :
    Canon (s.startFlush peers cmd uid).2 := h.stamp.frame rfl

theorem Canon.postRecord {rcb crec source status detail : Nat} (h : Canon s) :
    Canon (s.postRecord rcb crec source status detail) := h.ite (h.completionRecord.ite (h.startFlush.frame rfl))

theorem Canon.settleRecords (h : Canon s) : Canon s.settleRecords :=
  Canon.foldl (h.frame rfl) fun _ _ ht => ht.completionRecord

theorem Canon.closeCommand {q status detail disc result : Nat} (h : Canon s) :
    Canon (s.closeCommand q status detail disc result) := by
  unfold State.closeCommand
  split
  · exact h
  · exact h.completionRecord.setQueue

theorem Canon.finishCommand {q status detail disc result : Nat} (h : Canon s) :
    Canon (s.finishCommand q status detail disc result) := by
  refine h.closeCommand.ite ?_
  split
  · exact h
  · exact h.startFlush.setQueue

/-! ### Counters and waits -/

theorem Canon.setCounter {bid sel count : Nat} {err : Bool} (h : Canon s) : Canon (s.setCounter bid sel count err) :=
  Canon.ite (h.modBlock fun _ hb => hb) (h.frame rfl)

theorem Canon.notePartyLoad {p : State} {addr : Word64} (h : Canon s) : Canon (s.notePartyLoad p addr) := by
  unfold State.notePartyLoad
  split
  · exact h.noteVa
  · exact h

theorem Canon.fireArmed {c : Nat} (h : Canon s) : Canon (s.fireArmed c) :=
  Canon.foldl (h.frame rfl) fun _ _ ht => Canon.notePartyLoad (ht.newId.frame rfl)

theorem teamWf_ite {c : Prop} [Decidable c] {t u : Team} (ht : teamWf t = true) (hu : teamWf u = true) :
    teamWf (if c then t else u) = true := by split <;> assumption

theorem teamWf_awaited {t : Team} (h : teamWf t = true) : teamWf (s.awaited t) = true := by
  let u : Team := { t with pre := t.pre.mapWaits (s.noted t.bid) }
  have hu : teamWf u = true := h
  have hf (p : Nat) (status : Bool) : teamWf (u.finishWait p status) = true := teamWf_finishWait hu p status
  have hr : teamWf { u with phase := .ready } = true := h
  unfold State.awaited
  dsimp only
  split
  · exact teamWf_ite (hf _ _) hu
  · split
    · exact hf _ _
    · exact hu
  · exact hf _ _
  · exact teamWf_ite (teamWf_setS (hf _ _) _ _) hu
  · exact teamWf_setS (hf _ _) _ _
  · exact teamWf_ite (hf _ _) hu
  · exact teamWf_ite hr hu
  · exact teamWf_ite hr hu
  · exact teamWf_ite hr hu
  · exact teamWf_ite hr hu
  · exact teamWf_ite hu hr
  · exact teamWf_ite hr hu
  · exact hu

theorem Canon.wake (h : Canon s) : Canon s.wake := (h.mapTeams fun _ ht => teamWf_awaited ht).frame rfl

theorem Canon.postSignal {c v : Nat} {add : Bool} (h : Canon s) : Canon (s.postSignal c v add) :=
  h.setCounter.fireArmed.wake

theorem Canon.settleQueues (h : Canon s) : Canon s.settleQueues := by
  refine h.foldl fun t x ht => ?_
  split
  · exact ht.finishCommand.ite ht
  · exact ht.postSignal.finishCommand.ite ht
  · exact ht.closeCommand.ite ht
  · exact ht

/-! ### Convocations, poison and machine checks -/

theorem Canon.mismatchWaiter {cv uid : Nat} (h : Canon s) : Canon (s.mismatchWaiter cv uid) := by
  unfold State.mismatchWaiter
  split
  · exact h
  · exact Canon.ite h.faultIn (h.modTeam fun _ ht => ht)

theorem Canon.faultAll {us : List Nat} {c : Cause} (h : Canon s) : Canon (s.faultAll us c) :=
  h.foldl fun _ _ ht => ht.faultIn

theorem Canon.settleConvs (h : Canon s) : Canon s.settleConvs := by
  refine h.foldl fun t b ht => ht.foldl fun u c hu => ?_
  extract_lets gone left v
  have hv : Canon v := hu.modBlock fun b hb => by split <;> exact hb
  refine hu.ite (Canon.ite (hv.foldl fun w m hw => ?_) hv)
  split
  · split
    · exact hw.faultIn
    · exact hw
  · exact hw

theorem Canon.settleMismatch (h : Canon s) : Canon s.settleMismatch := h.foldl fun _ _ ht => ht.faultIn

theorem Canon.settlePoison (h : Canon s) : Canon s.settlePoison := by
  refine h.foldl fun t x ht => ?_
  split
  · exact ht.faultIn
  · exact ht

theorem Canon.checkTeam {uid addr : Nat} (h : Canon s) : Canon (s.checkTeam uid addr) :=
  Canon.faultIn (h.modTeam fun _ ht => ht)

theorem Canon.settleChecks (h : Canon s) : Canon s.settleChecks := h.foldl fun _ _ ht => ht.checkTeam

theorem Canon.mapBlocks {f : Block → Block} {clusters : List Cluster} (h : Canon s)
    (hf : ∀ b, blockWf b = true → blockWf (f b) = true) :
    Canon { s with blk := f s.blk, blocks := s.blocks.map f, clusters := clusters } := by
  refine h.of_parts h.team h.others (hf _ h.blk) ?_ rfl
  simp only [List.mem_map]
  rintro _ ⟨b, hb, rfl⟩
  exact hf b (h.blocks b hb)

theorem Canon.settle (h : Canon s) : Canon s.settle := by
  unfold State.settle
  extract_lets t ends u
  have ht : Canon t := h.mapBlocks fun _ hb => hb
  have hu : Canon u := ht.mapBlocks fun _ hb => hb
  exact hu.settleConvs.settleMismatch.settlePoison.settleChecks.wake.settleQueues.settleRecords

theorem Canon.arrivePhase {p : Place} {poisoned : Bool} (h : Canon s) : Canon (s.arrivePhase p poisoned).2 := by
  unfold State.arrivePhase
  extract_lets w t pending old
  have ht : Canon t := h.writeAt.ite h
  split
  · exact ht.writeAt.writeAt
  · exact ht.writeAt

/-! ### Fences, barriers and counters -/

theorem Canon.systemRelease (h : Canon s) : Canon s.systemRelease := h.ite h.startFlush.stall
theorem Canon.dropL1 (h : Canon s) : Canon s.dropL1 := h.frame rfl
theorem Canon.fenceDone (h : Canon s) : Canon s.fenceDone := h.retireCtl.frame rfl

theorem Canon.execFenceAr {r : Nat} (h : Canon s) : NextAnd Canon (execFenceAr r s) :=
  have ht : Canon (if 2 ≤ r then s.fenceDone.dropL1 else s.fenceDone) := h.fenceDone.dropL1.ite h.fenceDone
  h.answer (ht.systemRelease.ite ht)

theorem Canon.timedWait {w : Nat} {x : Wait} (h : Canon s) : Canon (s.timedWait w x) := h.beginWait.frame rfl
theorem Canon.waitDone {p : Nat} {status : Bool} (h : Canon s) : Canon (s.waitDone p status) := h.setP.retireCtl

theorem Canon.recordArrival {cl : Bool} {i : Nat} (h : Canon s) : Canon (s.recordArrival cl i) := by
  unfold State.recordArrival
  dsimp only
  split
  · exact h.modCluster.frame rfl
  · exact h.frame rfl

theorem Canon.arrive {cl : Bool} {i : Nat} (h : Canon s) : Canon (s.arrive cl i) := h.stall.ite h.recordArrival.retireCtl

theorem Canon.waitPhase {cl : Bool} {w p i : Nat} (h : Canon s) : Canon (s.waitPhase cl w p i) := h.timedWait.ite h.waitDone

theorem Canon.execBarSync {w p i : Nat} (h : Canon s) : NextAnd Canon (execBarSync w p i s) :=
  h.answer (.skip fun _ => .ite h.stall h.recordArrival.timedWait)

theorem Canon.execPbara {d : Nat} (h : Canon s) : NextAnd Canon (execPbara d s) :=
  h.answer (.skip fun _ => .skip fun _ => h.arrivePhase.setS.retireCtl)

theorem Canon.execPbwait {d p w : Nat} (h : Canon s) : NextAnd Canon (execPbwait d p w s) := by
  refine h.answer (.skip fun _ => .skip fun _ => .ite h.waitDone ?_)
  split
  · exact h.timedWait
  · exact h

theorem teamWf_timeOut {t : Team} (h : teamWf t = true) : teamWf t.timeOut = true := by
  unfold Team.timeOut
  split
  · exact teamWf_finishWait h _ _
  · exact teamWf_finishWait h _ _
  · exact h

theorem Canon.execBarrierTimeout (h : Canon s) : NextAnd Canon (execBarrierTimeout s) :=
  Canon.ite ((h.setTeam (teamWf_timeOut h.team)).frame rfl) h

theorem Canon.formConv {cv n mode : Nat} {us : List Nat} (h : Canon s) : Canon (s.formConv cv n mode us) :=
  Canon.mapTeams (h.frame rfl) fun _ ht => teamWf_ite ht ht

theorem Canon.leaveConv (h : Canon s) : Canon s.leaveConv := by
  unfold State.leaveConv
  split
  · exact h
  · dsimp only
    split
    · exact h.withMat
    · refine Canon.faultAll ?_
      split <;> exact h.withMat.frame rfl

theorem Canon.execConv {m n c : Nat} (h : Canon s) : NextAnd Canon (execConv m n c s) := by
  refine h.answer (.ite h.retireCtl.leaveConv (.ite trivial ?_))
  split
  · refine .ite trivial (.ite (Canon.foldl (h.frame ?_) fun _ _ ht => ht.mismatchWaiter).faultIn
      (.ite h.formConv.retireCtl (Canon.beginWait (h.frame rfl))))
    rfl
  · exact .ite h.formConv.retireCtl (Canon.beginWait (h.frame rfl))

theorem Canon.xcnt {a c : Nat} {f : Nat × Bool → Nat × Bool} (h : Canon s) : OkAnd Canon (s.xcnt a c f) :=
  .skip fun _ => .skip fun _ => .ite (Canon.systemRelease (h.frame rfl))
    (Canon.retire (h.setCounter.setS.ite h.setCounter.setS.fireArmed))

theorem Canon.xwait {test : Bool} {a b c : Nat} (h : Canon s) : OkAnd Canon (s.xwait test a b c) :=
  .skip fun _ => .skip fun _ => .ite h.setS.retire (.ite h.setS.retire h.beginWait)

/-! ### Claims, slots and matrix steps -/

theorem teamWf_bind {t : Team} {slots : Bool} {names : List Nat} (h : teamWf t = true) :
    teamWf (t.bind slots names) = true := teamWf_ite h h

theorem Canon.claim {slots try_ : Bool} {status count first : Nat} (h : Canon s) :
    OkAnd Canon (s.claim slots try_ status count first) := by
  refine .skip fun _ => .skip fun _ => .skip fun _ => .ite h.setS.retire (.ite (.ite h.setS.retire ?_) ?_)
  · refine Canon.beginWait ?_
    split <;> exact h.frame rfl
  · exact (h.setTeam (teamWf_bind h.team)).setS.retire

theorem Canon.release {slots : Bool} {count first : Nat} (h : Canon s) : OkAnd Canon (s.release slots count first) :=
  .skip fun _ => .skip fun _ => .skip fun _ => h.withMat.retire

theorem Canon.execClaimGrant (h : Canon s) : NextAnd Canon (execClaimGrant s) := by
  unfold Machine.execClaimGrant
  show Canon _
  split
  · refine Canon.ite ?_ h
    refine h.of_parts (teamWf_setS (teamWf_finishWait (teamWf_bind h.team) _ _) _ _) h.others ?_ h.blocks rfl
    dsimp only
    split <;> exact h.blk
  · exact h

theorem Canon.startTransfer {x : TileTransfer} (h : Canon s) : Canon (s.startTransfer x) := h.withMat

theorem Canon.tld {mode t b f kc : Nat} {make : Slot → List (Nat × Nat) → Except FaultInfo Slot} (h : Canon s) :
    OkAnd Canon (s.tld mode t b f kc make) :=
  .skip fun _ => .skip fun _ => .skip fun _ => .skip fun _ => .skip fun _ => .skip fun _ => .skip fun _ =>
    h.startTransfer.retire

theorem Canon.writeImage {bid : Nat} {x : ImageSector} (h : Canon s) : Canon (s.writeImage bid x) :=
  h.writeSector.ite h.writeAt.writeSide

theorem Canon.execTileTransferComplete (h : Canon s) : NextAnd Canon (execTileTransferComplete s) := by
  unfold Machine.execTileTransferComplete
  show Canon _
  split
  · exact h
  · dsimp only
    split
    · exact h.withMat
    · exact (h.withMat.foldl fun _ _ ht => ht.writeImage).raise

theorem Canon.payLeave {n : Nat} (h : Canon s) : SomeAnd Canon (s.payLeave n) := .ite (h.frame rfl) trivial

theorem Canon.countSteps {xs : List (Nat × StepInFlight)} {skipped : Nat} (h : Canon s) : Canon (s.countSteps xs skipped) :=
  Canon.countCore (Canon.countCore (Canon.countCore (h.mapTeams fun _ ht => ht)))

theorem Canon.soloSteps {rs : List StepReq} {skipped : Nat} (h : Canon s) : OkAnd Canon (s.soloSteps rs skipped) := by
  unfold State.soloSteps
  split
  · trivial
  · exact h.countSteps.retire

theorem teamWf_stepBegun {t : Team} (h : teamWf t = true) : teamWf t.stepBegun = true := by
  unfold Team.stepBegun
  split
  · exact teamWf_finishWait h 0 false
  · exact h

theorem Canon.gangSteps {c : Convocation} {steps : List StepReq} {skipped : Nat} (h : Canon s) :
    OkAnd Canon (s.gangSteps c steps skipped) := by
  have hc : Canon { s with blk := s.blk.modConv c.cv (fun x => { x with issues := [] }) } := h.frame rfl
  refine .ite hc.faultAll ?_
  split
  · exact hc.faultAll
  · exact (hc.foldl fun _ _ ht => ht.modTeam fun _ hx => teamWf_stepBegun hx).countSteps.retire.withMat

theorem Canon.matrixWord {cv : Option Nat} {steps : List StepReq} {skipped : Nat} (h : Canon s) :
    OkAnd Canon (s.matrixWord cv steps skipped) := by
  refine .skip fun _ => .skip fun _ => .skip fun _ => ?_
  split
  · exact h.stall
  · next t ht =>
    have ht := h.payLeave.of_eq ht
    split
    · exact ht.soloSteps
    · split
      · trivial
      · exact .skip fun _ => .ite ht.gangSteps (Canon.beginWait (ht.frame rfl))

theorem Canon.execMatrixStepDone (h : Canon s) : NextAnd Canon (execMatrixStepDone s) := by
  unfold Machine.execMatrixStepDone
  show Canon _
  split
  · exact h
  · exact h.withMat.raise

theorem Canon.tileRead {d x r : Nat} {idx : Nat → Nat → Nat} (h : Canon s) : OkAnd Canon (s.tileRead d x r idx) :=
  .skip fun _ => .skip fun _ => h.putV.retire

theorem Canon.tileWrite {v x r : Nat} {idx : Nat → Nat → Nat} (h : Canon s) : OkAnd Canon (s.tileWrite v x r idx) :=
  .skip fun _ => .skip fun _ => h.withMat.retire

end

end Sys2Proof.Machine
end

section
/-!
PROOF. The canonical form through the copy engine: units received and sent, the destination walk, signals and
completion, and the words that queue commands.
-/
namespace Sys2Proof.Machine

section
variable {s : State}

/-! ### Units and increments -/

theorem Canon.setPublish {hub : Hub} (h : Canon s) (hp : smWf 0 hub.publish = true) : Canon { s with hub := hub } :=
  storesWf_of h (fun hm => memInv_publish hm rfl rfl hp) rfl rfl rfl rfl

theorem Canon.afterSwap (h : Canon s) : Canon s.afterSwap := h.frame rfl

theorem Canon.dropWrite {own pa : Nat} (h : Canon s) : Canon (s.dropWrite own pa) := Canon.countEvent (h.afterSwap.frame rfl)

theorem Canon.patchSector {p : Place} {ws : List (Nat × List Byte)} {side : Option Nat} (h : Canon s) :
    Canon (s.patchSector p ws side) := by
  unfold State.patchSector
  extract_lets t u
  have ht : Canon t := h.foldl fun _ _ hu => hu.writeAt
  have hu : Canon u := by
    cases side with
    | none => exact ht
    | some x => exact ht.writeSide
  exact hu.clearPoison.ite hu

theorem Canon.syncSectors {e : PubEntry} {lo hi : Nat} (h : Canon s) : Canon (s.syncSectors e lo hi) := by
  refine h.foldl fun t i ht => ?_
  extract_lets a b u
  have hu : Canon u := ht.writeSector.notePhys.notePhys
  split
  · exact hu.frame rfl
  · exact hu

theorem Canon.syncTo {i hi : Nat} (h : Canon s) : Canon (s.syncTo i hi) := by
  unfold State.syncTo
  split
  · exact h
  · exact h.ite (h.syncSectors.frame rfl)

theorem Canon.syncBefore {rid va : Nat} (h : Canon s) : Canon (s.syncBefore rid va) := by
  unfold State.syncBefore
  split
  · exact h.syncTo
  · exact h

theorem Canon.refuse {src va : Nat} (h : Canon s) : Canon (s.refuse src va) := h.log

theorem Canon.noteEngLine {v : View} {db cmp : Bool} {va pa : Nat} (h : Canon s) : Canon (s.noteEngLine v db cmp va pa) :=
  Canon.frame (h.noteVa.afterSwap.ite h.noteVa) rfl

theorem Canon.applySector {v : View} {u : RemoteUnit} {pa : Nat} (h : Canon s) : Canon (s.applySector v u pa) := by
  unfold State.applySector
  extract_lets sec t new ws
  have ht : Canon t := h.syncBefore.ite h
  exact Canon.ite (Canon.dropWrite (h.frame rfl)) (Canon.noteEngLine (Canon.patchSector (ht.frame rfl)))

theorem Canon.receiveUnit {u : RemoteUnit} (h : Canon s) : Canon (s.receiveUnit u).1 := by
  unfold State.receiveUnit
  split
  · exact h
  · extract_lets _ no
    have hno : Canon no := Canon.refuse (h.frame rfl)
    split
    · exact hno
    · split
      · exact hno
      · exact Canon.foldl (h.frame rfl) fun _ _ ht => ht.applySector

theorem Canon.makeIncrement {c : Nat} (h : Canon s) : Canon (s.makeIncrement c) := h.setCounter.fireArmed

theorem Canon.receiveIncrement {src rid c : Nat} (h : Canon s) : Canon (s.receiveIncrement src rid c).1 := by
  unfold State.receiveIncrement
  split
  · exact h.makeIncrement
  · exact h.refuse

theorem Canon.countMoved {c : Cmd} (h : Canon s) : Canon (s.countMoved c) := h.ite h.countEvent

theorem Canon.sendUnit {c : Cmd} {d : Desc} {dev va : Nat} {u : OutUnit} (h : Canon s) :
    Canon (s.sendUnit c d dev va u).2 := h.countMoved.stamp.frame rfl

theorem Canon.noteEngWrite {v : View} {d : Desc} {va : Nat} {p : Place} (h : Canon s) :
    Canon (s.noteEngWrite v d va p) := by
  cases p with
  | dev pa => exact h.noteEngLine
  | spad bid off => exact h

/-! ### The destination walk -/

/-- What an engine computation answers, if it meets no fault, has the property. -/
def EngAnd {α : Type} (P : α → Prop) (x : EngM α) : Prop := ∀ m, OkAnd P (x.run m).1

theorem EngAnd.pure {α : Type} {P : α → Prop} {a : α} (h : P a) : EngAnd P (Pure.pure a) := fun _ => h

theorem EngAnd.skip {α β : Type} {P : β → Prop} {x : EngM α} {f : α → EngM β} (hf : ∀ a, EngAnd P (f a)) :
    EngAnd P (x >>= f) := by
  intro m
  rcases hx : x.run m with ⟨e | a, m'⟩
  · rw [ExceptT.run_bind]
    simp only [StateT.bind, bind, hx]
    trivial
  · rw [ExceptT.run_bind]
    simpa [StateT.bind, bind, hx] using hf a m'

theorem Canon.putUnit {x : EngCtx} {u : OutUnit} (h : Canon s) : EngAnd (fun y => Canon y.1) (s.putUnit x u) := by
  refine .skip fun o => ?_
  cases o with
  | some dev => exact .pure h.sendUnit
  | none =>
    refine .skip fun ps => ?_
    dsimp only
    split
    · exact .pure h.dropWrite
    · exact .pure h.patchSector.noteEngWrite.countMoved
    · exact .pure h

/-- A walk goes on, or stops, in a state of canonical form. -/
def WalkAnd {α : Type} (P : α → Prop) : Except EngStop α → Prop
  | .ok a => P a
  | .error e => Canon e.1.st

theorem WalkAnd.bind {α β : Type} {P : β → Prop} {Q : α → Prop} {x : Except EngStop α} {f : α → Except EngStop β}
    (hx : WalkAnd Q x) (hf : ∀ a, Q a → WalkAnd P (f a)) : WalkAnd P (x >>= f) := by
  cases x with
  | ok a => exact hf a hx
  | error e => exact hx

theorem WalkAnd.foldlM {α β : Type} {P : β → Prop} {f : β → α → Except EngStop β} (hf : ∀ b a, P b → WalkAnd P (f b a))
    {l : List α} {b : β} (hb : P b) : WalkAnd P (l.foldlM f b) := by
  induction l generalizing b with
  | nil => exact hb
  | cons a l ih => exact (hf b a hb).bind fun c hc => ih hc

/-- The state in which a run stands has canonical form. -/
abbrev RunCanon (r : EngRun) : Prop := Canon r.st

section
variable {r : EngRun} {x : EngCtx}

theorem RunCanon.flush (h : RunCanon r) : WalkAnd RunCanon (r.flush x) := by
  unfold EngRun.flush
  split
  · exact h
  · next u _ =>
    split
    · exact h
    · have hp := Canon.putUnit (x := x) (u := u) h r.mem
      split
      · next hy =>
        rw [hy] at hp
        exact hp
      · exact h

theorem RunCanon.add {p : OutUnit} (h : RunCanon r) : WalkAnd RunCanon (r.add x p) := by
  unfold EngRun.add
  split
  · split
    · exact h
    · exact h.flush.bind fun _ ht => ht
  · exact h

theorem RunCanon.pieces {y : ReadRow} (h : RunCanon r) : WalkAnd RunCanon (r.pieces x y) := by
  refine (WalkAnd.foldlM (fun _ _ ht => ht.add) h).bind fun t ht => ?_
  split
  · exact ht.flush
  · exact ht

theorem RunCanon.before {a : Option Nat} (h : RunCanon r) : WalkAnd RunCanon (r.before x a) := by
  unfold EngRun.before
  split
  · split
    · exact h
    · exact h.flush
  · exact h.flush

theorem RunCanon.stop {e : EngErr} (h : RunCanon r) : Canon (r.stop e).1.st := by
  unfold EngRun.stop
  split <;> exact h

end

theorem Canon.decodeAhead {v : View} {va : Nat} (h : Canon s) : Canon (s.decodeAhead v va) := by
  unfold State.decodeAhead
  split
  · extract_lets t n
    have ht : Canon t := h.frame rfl
    exact ht.countEvent.countEvent.bringLine.ite ht
  · exact h

theorem Canon.noteLine {v : View} {k : CmdKind} {xp va : Nat} (h : Canon s) : Canon (s.noteLine v k xp va) := by
  unfold State.noteLine
  extract_lets u
  have hu : Canon u := h.noteVa
  split
  · exact Canon.ite (hu.frame rfl) hu
  · exact hu

theorem Canon.noteReads {c : Cmd} {m : EngMem} (h : Canon s) : Canon (s.noteReads c m) := by
  refine Canon.foldl (h.foldl fun t a ht => ?_) fun t a ht => ?_
  · split
    · exact ht.noteLine.decodeAhead.ite ht.noteLine
    · exact ht
  · split
    · exact ht.countEvent
    · exact ht

section
variable {r : EngRun} {x : EngCtx}

theorem RunCanon.note (h : RunCanon r) : RunCanon (r.note x) := h.noteReads

theorem RunCanon.row {n : Nat} {job : RowJob} (h : RunCanon r) : WalkAnd RunCanon (r.row x n job) := by
  refine h.before.bind fun t ht => ?_
  have hn : RunCanon (t.at_ n) := ht
  extract_lets u
  split
  · exact hn.pieces
  · split
    · exact RunCanon.stop hn
    · exact hn
    · exact RunCanon.pieces (RunCanon.note hn)

theorem RunCanon.rows {jobs : List RowJob} {first : Nat} (h : RunCanon r) : WalkAnd RunCanon (r.rows x jobs first) :=
  (WalkAnd.foldlM (fun _ _ ht => ht.row) h).bind fun _ ht => ht.flush.bind fun _ hu => hu.note

theorem RunCanon.walk {c : Cmd} {spans : List (Place × Nat) × Bool} {ws : List (Desc × List RowJob)} (h : RunCanon r) :
    WalkAnd (fun y => RunCanon y.1) (r.walk c spans ws) := by
  refine WalkAnd.foldlM (P := fun y : EngRun × Option Nat => RunCanon y.1) (fun b w hb => ?_) h
  refine (RunCanon.rows ?_).bind fun _ ht => ht
  exact hb

end

theorem Canon.codeUnits {n : Nat} (h : Canon s) : Canon (s.codeUnits n) := h.frame rfl

theorem Canon.runWalk {c : Cmd} (h : Canon s) : Canon (s.runWalk c).1 := by
  unfold State.runWalk
  extract_lets w s0
  split
  · exact h.noteReads
  · extract_lets _ c' r0
    have hr : WalkAnd (fun y => RunCanon y.1) (r0.walk c' (s0.copySpans c'.kind) w.1) :=
      RunCanon.walk (r := r0) h.noteReads
    split
    · next hy =>
      rw [hy] at hr
      exact hr.codeUnits
    · next hy =>
      rw [hy] at hr
      exact hr.noteReads.codeUnits

/-! ### Sends -/

theorem Canon.selfUnit {c : Cmd} {d : Desc} {u : OutUnit} (h : Canon s) : Canon (s.selfUnit c d u).1 :=
  h.countMoved.stamp.receiveUnit.frame rfl

theorem Canon.runSend {c : Cmd} {x : Send} (h : Canon s) : Canon (s.runSend c x).1 := by
  unfold State.runSend
  extract_lets s0
  split
  · exact h.noteReads
  · next y us d m _ =>
    extract_lets s1 _ c1 r y _ n t sent st path _ _ u
    have h1 : Canon s1 := h.noteReads
    split
    · have hr : Canon r.1 := foldl_keeps (fun r : State × Cmd => Canon r.1) _ (fun _ _ hb => hb.selfUnit) us (s1, c1) h1
      have hy : Canon y.1 := by
        unfold y
        split
        · exact hr.receiveIncrement
        · exact hr
      exact hy
    · have ht : Canon t := (h1.foldl fun _ _ ht => ht.sendUnit).codeUnits
      exact Canon.ite (ht.stamp.frame rfl) ht

/-! ### Signals and completion -/

theorem Canon.cmdRecord {c : Cmd} {k : Cause} {e : EngErr} {info : Bool} (h : Canon s) :
    Canon (s.cmdRecord c k e info) := h.stamp.queueRecord

theorem Canon.signalFailed {c : Cmd} {p : Word64} {k : Cause} (h : Canon s) : Canon (s.signalFailed c p k) := h.cmdRecord

theorem Canon.noteSignal {c : Cmd} (h : Canon s) : Canon (s.noteSignal c) := by
  unfold State.noteSignal
  extract_lets p
  split
  · exact h.noteVa
  · exact h

theorem Canon.signals {c : Cmd} (h : Canon s) : Canon (s.signals c) := by
  unfold State.signals
  extract_lets w st t sel r u
  have ht : Canon t := by
    refine Canon.ite ?_ h
    split
    · exact h.stamp.noteSignal.writeAt
    · exact h.stamp.noteSignal.signalFailed
  have hu : Canon u := ht.setCounter.ite ht
  refine Canon.ite ?_ hu
  split
  · exact hu.arrivePhase
  · exact hu.signalFailed

theorem Canon.countUp {c : Cmd} (h : Canon s) : Canon (s.countUp c) := h.setCounter.fireArmed.ite h

theorem Canon.setCmd {c : Cmd} (h : Canon s) : Canon (s.setCmd c) := h.frame rfl

theorem Canon.endCmd {c : Cmd} (h : Canon s) : Canon (s.endCmd c) := by
  unfold State.endCmd
  extract_lets t u bad v w
  have hu : Canon u := h.countUp.frame rfl
  have hv : Canon v := hu.modTeam fun _ ht => ht
  have hw : Canon w := hv.modLaunch
  split
  · exact hw.finishCommand
  · exact hw

theorem Canon.finishCmd {c : Cmd} (h : Canon s) : Canon (s.finishCmd c) :=
  h.signals.endCmd.ite h.signals.startFlush.setCmd

theorem Canon.noteStop {c : Cmd} {e : EngErr} (h : Canon s) : Canon (s.noteStop c e) := by
  refine Canon.ite ?_ h
  split
  · exact h.fillTlb
  · exact h

theorem Canon.suspendCmd {c : Cmd} {e : EngErr} (h : Canon s) : Canon (s.suspendCmd c e) := h.noteStop.setCmd.cmdRecord

theorem Canon.execEngineCommandStart (h : Canon s) : NextAnd Canon (execEngineCommandStart s) := by
  unfold Machine.execEngineCommandStart
  show Canon _
  split
  · exact h
  · refine Canon.ite ?_ h
    split
    · exact h.startFlush.setCmd
    · exact h.setCmd

theorem Canon.runCmd {c : Cmd} (h : Canon s) : Canon (s.runCmd c).1 := by
  unfold State.runCmd
  split
  · exact h.runSend
  · exact h
  · exact h.runWalk

theorem Canon.advanceCmd {c : Cmd} (h : Canon s) : Canon (s.advanceCmd c) := by
  refine h.ite ?_
  have hr := h.runCmd (c := c)
  split
  · next hy => rw [hy] at hr; exact hr.suspendCmd
  · next hy => rw [hy] at hr; exact hr.setCmd
  · next hy => rw [hy] at hr; exact hr.finishCmd

theorem Canon.execEngineCommandComplete (h : Canon s) : NextAnd Canon (execEngineCommandComplete s) := by
  unfold Machine.execEngineCommandComplete
  show Canon _
  split
  · exact h
  · split
    · exact h.advanceCmd.settle
    · exact h.finishCmd.settle
    · exact h.endCmd.settle.ite h
    · exact h

theorem Canon.execEngineSuspend (h : Canon s) : NextAnd Canon (execEngineSuspend s) := by
  unfold Machine.execEngineSuspend
  show Canon _
  split
  · exact h
  · next c _ =>
    refine Canon.ite ?_ h
    have hr := h.runCmd (c := c)
    split
    · next hy => rw [hy] at hr; exact hr.suspendCmd
    · exact h

/-! ### The words that queue commands -/

theorem Canon.enqueue {op bytes : Nat} {g : Control} {kind : CmdKind} {reads : List Word64} (h : Canon s) :
    Canon (s.enqueue op g kind bytes reads) := h.stall.ite (h.stall.ite (Canon.retire (h.noteUnits.frame rfl)))

theorem Canon.linkPair {ds : List Desc} (h : Canon s) : Canon (s.linkPair ds) := by
  unfold State.linkPair
  split
  · refine Canon.ite ?_ h
    extract_lets rid
    split
    · have hl {p : SMap Byte} (hp : smWf 0 p = true) (a b c d e f : Nat) :
          smWf 0 (storeLe (storeLe p a b c) d e f) = true := smWf_storeLe (smWf_storeLe hp a b c) d e f
      exact h.setPublish (hl (hl h.publish _ _ _ _ _ _) _ _ _ _ _ _)
    · exact h
  · exact h

theorem Canon.xcpy {a b c : Nat} {pair : Bool} (h : Canon s) : OkAnd Canon (s.xcpy a b c pair) := by
  refine .skip fun _ => .skip fun src => .skip fun d0 => ?_
  extract_lets tr queue
  have hq (more : List Desc) : OkAnd Canon (queue more) :=
    .skip fun _ => .skip fun _ => Canon.ite h.enqueue h.enqueue.linkPair
  exact .ite (.skip fun _ => hq _) (.skip fun _ => hq _)

theorem Canon.xgath {scatter : Bool} {a b c : Nat} (h : Canon s) : OkAnd Canon (s.xgath scatter a b c) :=
  .skip fun _ => .skip fun _ => .skip fun _ => .skip fun _ => .skip fun _ => .skip fun _ => h.enqueue

theorem Canon.execCred {a b c : Nat} (h : Canon s) : NextAnd Canon (execCred a b c s) :=
  h.answer (.skip fun _ => .skip fun _ => .skip fun _ => .skip fun _ => .skip fun _ => .skip fun _ => .skip fun _ =>
    .skip fun _ => h.enqueue)

theorem Canon.execTsend {a b c : Nat} (h : Canon s) : NextAnd Canon (execTsend a b c s) :=
  h.answer (.skip fun _ => .skip fun _ => .skip fun _ => .skip fun _ =>
    .ite h.stall (Canon.retire (Canon.fireArmed (h.noteUnits.frame rfl))))

theorem smWf_swapEntry {p : SMap Byte} {i : Nat} {gen : Option Nat} (h : smWf 0 p = true) :
    smWf 0 (swapEntry p i gen) = true := by
  unfold swapEntry
  cases gen with
  | none => exact smWf_storeLe h _ _ _
  | some g => exact smWf_storeLe (smWf_storeLe h _ _ _) _ _ _

theorem Canon.publishSwap {i gen : Nat} (h : Canon s) : Canon (s.publishSwap i gen) := by
  refine h.setPublish ?_
  dsimp only
  split
  · exact smWf_swapEntry (smWf_swapEntry h.publish)
  · exact smWf_swapEntry h.publish

theorem Canon.syncPair {i : Nat} (h : Canon s) : Canon (s.syncPair i) := h.syncTo.syncTo.ite h.syncTo

theorem Canon.xpub {a r c : Nat} {sync : Bool} (h : Canon s) : OkAnd Canon (s.xpub a r c sync) := by
  refine .skip fun _ => .skip fun _ => .skip fun _ => ?_
  split
  · trivial
  · extract_lets mine bad v _ t u _ w
    split
    · exact h.stall
    · refine .ite h.systemRelease ?_
      have ht : Canon t := h.noteUnits.frame rfl
      have hu : Canon u := ht.syncPair.publishSwap
      have hw : Canon w := Canon.ite (hu.frame rfl) hu
      exact .ite ht.setS.retire hw.setS.retire

theorem Canon.execPublishSyncCopy (h : Canon s) : NextAnd Canon (execPublishSyncCopy s) := by
  unfold Machine.execPublishSyncCopy
  show Canon _
  split
  · exact h
  · exact h.syncTo

theorem Canon.execPublishEntryStore (h : Canon s) : NextAnd Canon (execPublishEntryStore s) :=
  Canon.ite (storesWf_pubStore h _ _ _) h

end

end Sys2Proof.Machine
end

section
/-!
PROOF. The canonical form through pre-emption and resuming, the spill engine, fault domains, placement and swaps.
-/
namespace Sys2Proof.Machine

section
variable {s : State}

/-! ### Pre-emption and resuming -/

theorem Canon.takeRequest {e : Option SafePoint} {resOff : Word32} {w : Option (Wait × Option Nat)} (h : Canon s) :
    OkAnd (SomeAnd Canon) (s.takeRequest e resOff w) := by
  refine .ite trivial ?_
  extract_lets
  split
  · refine .ite trivial ?_
    exact h.countCore.frame rfl
  · refine .skip fun _ => .bind (Q := Canon) ?_ fun _ ht => ht
    exact Canon.callEffect (h.countCore.frame rfl)

theorem Canon.withdraw {w : Wait} (h : Canon s) : Canon (s.withdraw w) := storesWf_withdraw h w

theorem Canon.preemptWait (h : Canon s) : Canon s.preemptWait := by
  unfold State.preemptWait
  split
  · exact h.ite (h.countCore.frame rfl)
  · extract_lets e
    split
    · next ht => exact Canon.frame (Canon.withdraw (h.takeRequest.of_eq ht)) rfl
    · exact Canon.takeFault (h.frame rfl)
    · exact h
  · exact h

theorem Canon.execYield {i d : Nat} (h : Canon s) : NextAnd Canon (execYield i d s) := by
  refine h.answer (.skip fun _ => ?_)
  extract_lets t _ u
  have hu : Canon u := h.retireCtl.frame rfl
  refine .ite ?_ hu
  split
  · next ht => exact hu.takeRequest.of_eq ht
  · trivial
  · exact hu

theorem Canon.restoreCall (h : Canon s) : Canon s.restoreCall := by
  unfold State.restoreCall
  extract_lets _ t _ _ _ u
  have hu : Canon u := h.frame rfl
  split
  · exact h.frame rfl
  · extract_lets entry
    have hc : OkAnd Canon (do u.callChecks entry 0; u.callEffect true entry 0 t.pre.resOff false 0) :=
      .skip fun _ => hu.callEffect
    split
    · next hv => exact hc.of_eq hv
    · exact Canon.takeFault (h.frame rfl)
    · exact hu

theorem Canon.takeHeld (h : Canon s) : Canon s.takeHeld := by
  unfold State.takeHeld
  extract_lets _ _ t
  have ht : Canon t := h.frame rfl
  split
  · exact ht.restoreCall
  · exact ht.frame rfl

theorem Canon.resumeRun (h : Canon s) : Canon s.resumeRun :=
  (h.setTeam (teamWf_bind (teamWf_bind h.team))).restoreCall

theorem Canon.execTeamResume (h : Canon s) : NextAnd Canon (execTeamResume s) := by
  have hg {t : State} (ht : Canon t) : Canon (if t.reclaimRoom then t.resumeRun
      else { t with team := { t.team with phase := .waiting .reclaim, timeout := none } }) := ht.resumeRun.ite (ht.frame rfl)
  unfold Machine.execTeamResume
  show Canon _
  extract_lets go
  split
  · exact hg h
  · refine Canon.ite ?_ h
    split
    · exact hg (Canon.frame h rfl)
    · exact h
  · exact h

/-! ### The spill engine -/

theorem Canon.execSpillTransferComplete (h : Canon s) : NextAnd Canon (execSpillTransferComplete s) := by
  unfold Machine.execSpillTransferComplete
  show Canon _
  split
  · extract_lets _ idle _ _ u _
    have hu : Canon u := h.withWin.withPhase.frame rfl
    split
    · exact hu
    · split
      · next ht => exact (hu.windowOp.of_eq ht).countIssue
      · exact (hu.withWin.ite hu).takeFault.noteFault
      · exact hu
  · exact h

theorem Canon.earlySpill {g : Nat} (h : Canon s) : Canon (s.earlySpill g) := by
  refine Canon.ite ?_ h
  split
  · exact h.spillGranule.withWin.countCore
  · exact h

theorem Canon.earlyRefill {g : Nat} (h : Canon s) : Canon (s.earlyRefill g) := by
  refine Canon.ite ?_ h
  split
  · split
    · exact h.refillGranule.withWin.countCore
    · exact h
  · exact h

theorem Canon.execSpillAhead (h : Canon s) : NextAnd Canon (execSpillAhead s) := by
  unfold Machine.execSpillAhead
  show Canon _
  split
  · exact h.ite h.withWin
  · exact h.withWin.earlyRefill.ite h.withWin.earlySpill
  · exact h

/-! ### Fault domains -/

theorem Canon.execPswrFqhead {r : Nat} (h : Canon s) : NextAnd Canon (execPswrFqhead r s) := by
  refine h.answer (.skip fun _ => Canon.retireCtl ?_)
  split
  · exact h.modDomain
  · exact h

theorem teamWf_restart {t : Team} (h : teamWf t = true) : teamWf t.restart = true := by
  unfold Team.restart
  split <;> exact h

theorem teamWf_of_stores {t u : Team} (h : teamWf t = true) 
    (hu : (u.regs, u.sstack) = (t.regs, t.sstack)) : teamWf u = true := by
  simp only [Prod.mk.injEq] at hu
  obtain ⟨hr, hk⟩ := hu
  unfold teamWf at h ⊢
  rwa [hr, hk]

theorem Canon.resolveTeam {uid : Nat} {f : Team → Team} (h : Canon s)
    (hf : ∀ t, teamWf t = true → teamWf (f t) = true) : Canon (s.resolveTeam uid f) := by
  unfold State.resolveTeam
  split
  · exact h
  · next t ht =>
    have hu : teamWf (f { t with phase := s.phaseOf t }) = true := hf _ (teamWf_of_stores (h.findTeam ht) rfl)
    refine Canon.ite ((h.modTeam ?_).frame ?_) (h.modTeam hf)
    · exact fun _ _ => teamWf_of_stores hu rfl
    · rfl

theorem Canon.resumeCmd {id : Nat} (h : Canon s) : Canon (s.resumeCmd id) := h.frame rfl

theorem Canon.abandonCmd {id : Nat} (h : Canon s) : Canon (s.abandonCmd id) := by
  unfold State.abandonCmd
  split
  · exact h
  · exact h.modLaunch.finishCmd

theorem Canon.letGo {uid : Nat} {f : Team → Team} (h : Canon s)
    (hf : ∀ t, teamWf t = true → teamWf (f t) = true) : Canon (s.letGo uid f) :=
  h.ite (h.resolveTeam hf)

theorem Canon.actRestart {r : FaultRec} (h : Canon s) : Canon (s.actRestart r) := by
  unfold State.actRestart
  extract_lets t
  have ht : Canon t := by
    unfold t
    split
    · exact h.letGo fun _ ht => teamWf_restart ht
    · exact h
  split
  · exact ht.resumeCmd
  · exact ht

theorem Canon.actEnd {r : FaultRec} (h : Canon s) : Canon (s.actEnd r) := by
  unfold State.actEnd
  extract_lets t
  have ht : Canon t := by
    unfold t
    split
    · refine (h.resolveTeam ?_).modLaunch
      exact fun _ ht => ht
    · exact h
  split
  · exact ht.abandonCmd
  · exact ht

theorem Canon.actRespill {r : FaultRec} {n : Nat} (h : Canon s) : Canon (s.actRespill r n) := by
  unfold State.actRespill
  split
  · refine (h.draw.resolveTeam ?_).letGo fun _ ht => teamWf_restart ht
    exact fun _ ht => ht
  · exact h

theorem Canon.fdact {x : Nat} (h : Canon s) : Canon (s.fdact x).1 := by
  unfold State.fdact
  split
  · exact h
  · split
    · exact h
    · extract_lets done arg
      have hd : Canon done := h.modDomain
      split
      · split
        · exact hd.actRestart
        · exact h
      · exact hd.actEnd
      · split
        · exact hd.actRespill
        · exact h
      · exact h

theorem Canon.pswrFdact {r : Nat} (h : Canon s) : OkAnd Canon (s.pswrFdact r) :=
  .skip fun _ => Canon.settle (Canon.retireCtl (h.fdact.frame rfl))

theorem Canon.keepTlb {f : TlbEntry → Bool} (h : Canon s) : Canon (s.keepTlb f) := h.frame rfl

theorem Canon.execTlbiRegion {a : Nat} (h : Canon s) : NextAnd Canon (execTlbiRegion a s) :=
  h.answer (.skip fun _ => (h.keepTlb.ite h).dropL1.retireCtl)

theorem Canon.writeRecord {d : Domain} {r : FaultRec} (h : Canon s) : Canon (s.writeRecord d r) := by
  unfold State.writeRecord
  refine Canon.modDomain ?_
  split
  · next ht => exact h.writeVa.of_eq ht
  · exact h.log

theorem Canon.execFaultRecordWrite (h : Canon s) : NextAnd Canon (execFaultRecordWrite s) := by
  unfold Machine.execFaultRecordWrite
  show Canon _
  split
  · split
    · exact h.writeRecord.ite h
    · exact h
  · exact h

theorem Canon.noteKernel {rcb khdr : Nat} (h : Canon s) : Canon (s.noteKernel rcb khdr) :=
  h.foldl fun _ _ ht => ht.cpNote

theorem Canon.noteLaunch {rcb addr : Nat} {system : Bool} (h : Canon s) : Canon (s.noteLaunch rcb system addr) := by
  refine h.ite ?_
  extract_lets t
  have ht : Canon t := h.cpNote
  split
  · exact ht.noteKernel
  · exact ht.noteKernel.ite ht
  · exact ht

theorem Canon.addLaunch {source recRcb : Nat} {from_ : LaunchSource} {k : Kernel} {d : LaunchDesc} {ready : Bool}
    (h : Canon s) : Canon (s.addLaunch source from_ k d recRcb ready) := h.newId.frame rfl

theorem Canon.readyLaunch {lid : Nat} (h : Canon s) : Canon (s.readyLaunch lid) := h.newId.modLaunch

theorem Canon.execHandlerLaunch (h : Canon s) : NextAnd Canon (execHandlerLaunch s) := by
  unfold Machine.execHandlerLaunch
  show Canon _
  split
  · refine Canon.ite ?_ h
    split
    · exact h.noteKernel.addLaunch.modDomain
    · exact h.noteKernel.log.modDomain
  · exact h

/-! ### Placement -/

theorem teamWf_startTeam {k : Kernel} {d : LaunchDesc} {lid bid index tib uid core sec spillBase : Nat} :
    teamWf (startTeam k d lid bid index tib uid core sec spillBase) = true :=
  teamWf_iff.mpr ⟨smWf_smTable _ _ _, rfl, smWf_smTable _ _ _, rfl, rfl⟩

theorem Canon.zeroPhys {pa n : Nat} (h : Canon s) : Canon (s.zeroPhys pa n) := storesWf_zeroPhys h pa n

theorem Canon.zeroVirt {v : View} {va n : Nat} (h : Canon s) : Canon (s.zeroVirt v va n) := by
  refine h.ite (h.foldl fun t i ht => ?_)
  extract_lets lo hi
  split
  · exact ht.zeroPhys.ite ht
  · exact ht

/-- New teams at their start and a new block without data join the machine. -/
theorem Canon.addBlock {b : Block} {ts : List Team} {cursor : Nat} (h : Canon s) (hb : blockWf b = true)
    (ht : ∀ t ∈ ts, teamWf t = true) :
    Canon { s with blocks := s.blocks ++ [b], others := s.others ++ ts, cursor := cursor } := by
  refine h.of_parts h.team ?_ h.blk ?_ rfl
  · exact fun t hm => (List.mem_append.mp hm).elim (h.others t) (ht t)
  · exact fun c hm => (List.mem_append.mp hm).elim (h.blocks c) fun hc => (List.mem_singleton.mp hc) ▸ hb

theorem Canon.placeBlock {l : Launch} {cid index x y z rank core : Nat} (h : Canon s) :
    Canon (s.placeBlock l cid index x y z rank core) := by
  unfold State.placeBlock
  extract_lets k d n r1 r2 r3 tags slots sec id bid ids team pbase _ b _ t
  have h1 : Canon r1.2 := h.draw
  have h2 : Canon r2.2 := h1.draw
  have h3 : Canon r3.2 := h2.draw
  have hid : Canon id.2 := h3.newId
  have hi : Canon ids.2 := by
    refine foldl_keeps (fun r : List Nat × State => Canon r.2) _ (fun _ _ hr => ?_) (List.range k.teams) ([], id.2) hid
    exact hr.newId
  have ht : Canon t := by
    refine hi.addBlock rfl fun u hu => ?_
    obtain ⟨j, -, rfl⟩ := List.mem_map.mp hu
    exact teamWf_startTeam
  exact ht.zeroVirt

theorem SomeAnd.foldlM {α β : Type} {P : β → Prop} {f : β → α → Option β} (hf : ∀ b a, P b → SomeAnd P (f b a))
    {l : List α} {b : β} (hb : P b) : SomeAnd P (l.foldlM f b) := by
  induction l generalizing b with
  | nil => exact hb
  | cons a l ih =>
    rw [List.foldlM_cons]
    have hc := hf b a hb
    cases hx : f b a with
    | none => trivial
    | some c => exact ih (hc.of_eq hx)

theorem Canon.placeFirst {l : Launch} {cid rank : Nat} {cores : List Nat} (h : Canon s) :
    SomeAnd Canon (s.placeFirst l cid rank cores) := by
  unfold State.placeFirst
  cases cores.find? (s.fits l.lid l.k l.d) with
  | none => trivial
  | some core => exact h.placeBlock

theorem Canon.placeUnit {l : Launch} {cores : List Nat} (h : Canon s) : SomeAnd Canon (s.placeUnit l cores) := by
  unfold State.placeUnit
  extract_lets id
  split
  · trivial
  · next t ht =>
    have ht : Canon t := (SomeAnd.foldlM (P := Canon) (fun _ _ hu => hu.placeFirst) h.newId).of_eq ht
    extract_lets mine r
    split
    · trivial
    · show Canon _
      have hr : Canon r.2 := ht.draw
      exact hr.frame rfl

theorem Canon.tryPlace {l : Launch} (h : Canon s) : SomeAnd Canon (s.tryPlace l) := by
  refine .ite ?_ h.placeUnit
  cases ht : (List.range 12).findSome? _ with
  | none => trivial
  | some t =>
    obtain ⟨i, -, hi⟩ := List.exists_of_findSome?_eq_some ht
    exact h.placeUnit.of_eq hi

theorem Canon.choose (h : Canon s) : SomeAnd (fun x => Canon x.2) s.choose := by
  refine List.foldlRecOn (motive := SomeAnd fun x : Launch × State => Canon x.2) _ _ trivial fun best hb x hx => ?_
  obtain ⟨l, -, hl⟩ := List.mem_filterMap.mp hx
  obtain ⟨t, ht, rfl⟩ := Option.map_eq_some_iff.mp hl
  have ht : Canon t := h.tryPlace.of_eq ht
  split
  · exact ht
  · exact .ite ht hb

theorem Canon.place {clustered : Bool} (h : Canon s) : Canon (s.place clustered) := by
  unfold State.place
  split
  · next ht =>
    have ht := h.choose.of_eq ht
    exact Canon.ite (ht.modLaunch.frame rfl) h
  · exact h

/-! ### Release and swaps -/

theorem Canon.dropBlock {b : Block} (h : Canon s) : Canon (s.dropBlock b) := by
  unfold State.dropBlock
  extract_lets t
  have ht : Canon t := by
    refine h.of_parts ?_ (fun u hu => h.others u (List.mem_of_mem_filter hu)) ?_
      (fun c hc => h.blocks c (List.mem_of_mem_filter hc)) rfl
    · exact teamWf_ite rfl h.team
    · show blockWf (if _ then _ else _) = true
      split
      · rfl
      · exact h.blk
  exact ht.ite (ht.frame rfl)

theorem Canon.execBlockRelease (h : Canon s) : NextAnd Canon (execBlockRelease s) := by
  unfold Machine.execBlockRelease
  show Canon _
  split
  · exact h.dropBlock.ite h
  · exact h

/-- Every team and every block changes. -/
theorem Canon.mapBoth {f : Team → Team} {g : Block → Block} (h : Canon s)
    (hf : ∀ t, teamWf t = true → teamWf (f t) = true) (hg : ∀ b, blockWf b = true → blockWf (g b) = true) :
    Canon { s with team := f s.team, others := s.others.map f, blk := g s.blk, blocks := s.blocks.map g } :=
  Canon.mapBlocks (s := { s with team := f s.team, others := s.others.map f }) (h.mapTeams hf) hg

theorem Canon.swapOut {g : Nat} (h : Canon s) : Canon (s.swapOut g) := by
  unfold State.swapOut
  extract_lets mine out away
  have hg (b : Block) (hb : blockWf b = true) : blockWf (away b) = true := by
    unfold away
    split <;> exact hb
  have hm := h.mapBoth (f := out) (fun _ ht => teamWf_ite ht ht) hg
  exact hm.frame rfl

theorem Canon.execCoreGroupSwapOut (h : Canon s) : NextAnd Canon (execCoreGroupSwapOut s) := by
  unfold Machine.execCoreGroupSwapOut
  show Canon _
  split
  · exact h
  · exact h.swapOut.ite (h.frame rfl)

theorem teamWf_swapIn {t : Team} {hearth : Hearth} {g : Nat} (h : teamWf t = true) :
    teamWf (t.swapIn hearth g) = true := by
  unfold Team.swapIn
  split
  · exact h
  · exact teamWf_ite h h

theorem Canon.execCoreGroupSwapIn (h : Canon s) : NextAnd Canon (execCoreGroupSwapIn s) := by
  unfold Machine.execCoreGroupSwapIn
  show Canon _
  split
  · exact h
  · extract_lets bids back move
    have hg (b : Block) (hb : blockWf b = true) : blockWf (back b) = true := by
      unfold back
      split <;> exact hb
    have hm := h.mapBoth (f := move) (fun _ ht => teamWf_ite (teamWf_swapIn ht) (teamWf_ite ht ht)) hg
    exact hm.frame rfl

end

end Sys2Proof.Machine
end

section
/-!
PROOF. The canonical form through the CP's commands, the links and the host port, and the management controller.
-/
namespace Sys2Proof.Machine

section
variable {s : State}

/-! ### Launches and the time table -/

theorem Canon.tryLaunch {rcb addr : Nat} {system ready : Bool} {from_ : LaunchSource} (h : Canon s) :
    Canon (s.tryLaunch rcb system addr from_ ready).1 := by
  unfold State.tryLaunch
  split
  · exact h.noteLaunch.addLaunch
  · exact h.noteLaunch.postRecord

theorem Canon.setSlot {i : Nat} {x : TimeSlot} (h : Canon s) : Canon (s.setSlot i x) := h.frame rfl

theorem Canon.skipFiring {x : TimeSlot} (h : Canon s) : Canon (s.skipFiring x) := by
  unfold State.skipFiring
  extract_lets t
  have ht : Canon t := h.cpNote
  split
  · exact ht.postRecord
  · exact ht.log

theorem Canon.requestYield {lids : List Nat} (h : Canon s) : Canon (s.requestYield lids) :=
  h.mapTeams fun _ ht => teamWf_ite ht ht

theorem Canon.fireSlot {i : Nat} {x : TimeSlot} (h : Canon s) : Canon (s.fireSlot i x) := by
  refine h.tryLaunch.ite ?_
  split
  · exact h.skipFiring.ite h.tryLaunch
  · exact h.skipFiring.ite h.tryLaunch.requestYield
  · exact h.skipFiring

theorem Canon.fireDue {i : Nat} (h : Canon s) : Canon (s.fireDue i) := by
  unfold State.fireDue
  split
  · exact h.setSlot.fireSlot.ite h
  · exact h

theorem Canon.fireSome {n : Nat} (h : Canon s) : Canon (s.fireSome n) := by
  induction n generalizing s with
  | zero => exact h
  | succ n ih =>
    unfold State.fireSome
    split
    · exact h
    · exact ih h.fireDue

theorem Canon.fireAll (h : Canon s) : Canon s.fireAll := h.fireSome

/-! ### Commands of the host queues -/

theorem Canon.execDoorbellWrite (h : Canon s) : NextAnd Canon (execDoorbellWrite s) := by
  refine h.offVlan (h.ite ?_)
  split
  · exact h.setQueue.ite h.log
  · exact h.log

theorem Canon.refuseCommand {q detail : Nat} (h : Canon s) : Canon (s.refuseCommand q detail) := h.finishCommand

theorem Canon.refuseOpen {q : Nat} (h : Canon s) : Canon (s.refuseOpen q) := h.draw.refuseCommand

/-- A command keeps the form if its effect does. -/
theorem Canon.startCommand {opc sub : Nat} {f : State → Nat → Queue → List Byte → State} (h : Canon s)
    (hf : ∀ t q x b, Canon t → Canon (f t q x b)) : Canon (s.startCommand opc sub f) := by
  unfold State.startCommand
  extract_lets t q
  have ht : Canon t := h.fireAll
  split
  · exact ht
  · refine ht.ite ?_
    split
    · exact ht.cpNote.refuseOpen
    · extract_lets y u
      have hu : Canon u := ht.cpNote.setQueue
      exact hu.refuseOpen.ite (hu.refuseOpen.ite ((hf _ _ _ _ hu).ite ht))

theorem Canon.run {q : Nat} {r : RunCmd} (h : Canon s) : Canon (s.run q r) := by
  unfold State.run
  split
  · exact h.setQueue
  · exact h

theorem Canon.execLaunch (h : Canon s) : NextAnd Canon (execLaunch s) := by
  refine h.startCommand fun t q x b ht => ?_
  have hl := ht.tryLaunch (rcb := x.region) (addr := fld b 0x10 8) (system := systemQueue q) (ready := true)
    (from_ := .queue q)
  split
  · next hu => rw [hu] at hl; exact hl.run
  · next hu => rw [hu] at hl; exact hl.refuseCommand

theorem Canon.tapeNext {q : Nat} {x : Queue} {l : List Nat} {status : Nat} (h : Canon s) :
    Canon (s.tapeNext q x l status) := by
  induction l generalizing s status with
  | nil => exact h.finishCommand
  | cons a l ih =>
    unfold State.tapeNext
    have hl := h.tryLaunch (rcb := x.region) (addr := a) (system := systemQueue q) (ready := true) (from_ := .tape q)
    split
    · next hu => rw [hu] at hl; exact hl.run
    · next hu => rw [hu] at hl; exact ih hl

theorem Canon.setTape {rcb : Nat} {l : List (Nat × Nat)} (h : Canon s) : Canon (s.setTape rcb l) := h.frame rfl

theorem Canon.execTapePop (h : Canon s) : NextAnd Canon (execTapePop s) :=
  h.startCommand fun _ _ _ _ ht => ht.refuseCommand.ite ht.setTape.tapeNext

theorem Canon.graphGo {q : Nat} {x : Queue} {fuel : Nat} {ns : List GraphNode} (h : Canon s) :
    Canon (s.graphGo q x fuel ns).1 := by
  induction fuel generalizing s ns with
  | zero => exact h
  | succ fuel ih =>
    unfold State.graphGo
    split
    · exact h
    · next i _ =>
      split
      · exact h
      · next n _ =>
        split
        · exact ih h
        · split
          · have hl := h.tryLaunch (rcb := x.region) (addr := n.ld) (system := systemQueue q) (ready := true)
              (from_ := .graph q i)
            split
            · next hu => rw [hu] at hl; exact ih hl
            · next hu => rw [hu] at hl; exact ih hl
          · exact ih h

theorem Canon.graphStep {q : Nat} {x : Queue} {ns : List GraphNode} (h : Canon s) : Canon (s.graphStep q x ns) :=
  h.graphGo.finishCommand.ite h.graphGo.run

theorem Canon.execGraph (h : Canon s) : NextAnd Canon (execGraph s) := by
  refine h.startCommand fun t q x b ht => ?_
  extract_lets a u
  have hu : Canon u := ht.cpNote
  split
  · exact hu.refuseCommand
  · exact hu.graphStep

theorem Canon.execTableFiring (h : Canon s) : NextAnd Canon (execTableFiring s) := by
  unfold Machine.execTableFiring
  show Canon _
  split
  · exact h.fireDue.ite h
  · exact h

theorem Canon.execTableLoad (h : Canon s) : NextAnd Canon (execTableLoad s) := by
  refine h.startCommand fun t q x b ht => ?_
  extract_lets i entry u
  have hu : Canon u := ht.cpNote.ite ht
  clear_value entry
  cases entry with
  | none => exact hu.refuseOpen
  | some e => exact hu.setSlot.finishCommand.ite hu.refuseOpen

theorem Canon.execTableDisable (h : Canon s) : NextAnd Canon (execTableDisable s) := by
  refine h.startCommand fun t q x b ht => Canon.ite (Canon.finishCommand ?_) ht.refuseOpen
  split
  · exact ht.setSlot
  · exact ht

theorem Canon.pushTape {l : Launch} (h : Canon s) : Canon (s.pushTape l).1 := by
  unfold State.pushTape
  split
  · exact h
  · split
    · exact h
    · split
      · exact h.cpNote.setTape
      · exact h.cpNote.log

theorem Canon.launchSucceeds {l : Launch} {status disc result : Nat} (h : Canon s) :
    Canon (s.launchSucceeds l status disc result) := by
  unfold State.launchSucceeds
  split
  · exact h.finishCommand
  · split
    · split
      · exact h.graphStep
      · exact h
    · exact h
  · split
    · split
      · exact h.tapeNext
      · exact h
    · exact h
  · refine h.ite ?_
    split
    · exact h.readyLaunch
    · exact h
  · exact h.modDomain

theorem Canon.completeLaunch {l : Launch} (h : Canon s) : Canon (s.completeLaunch l) :=
  Canon.launchSucceeds (Canon.frame (Canon.completionRecord (h.fireAll.ite h.fireAll.cpNote).pushTape) rfl)

theorem Canon.discard {l : Launch} (h : Canon s) : Canon (s.discard l).2 := h.frame rfl

theorem Canon.execLaunchComplete (h : Canon s) : NextAnd Canon (execLaunchComplete s) := by
  unfold Machine.execLaunchComplete
  show Canon _
  split
  · exact h
  · refine h.ite ?_
    split
    · exact h.discard.completeLaunch.ite h.discard.startFlush.modLaunch
    · exact h.completeLaunch.ite h

theorem Canon.execCopy (h : Canon s) : NextAnd Canon (execCopy s) := by
  refine h.startCommand fun t q x b ht => ?_
  extract_lets read note dst u v
  have hn {w : State} (hw : Canon w) (a : Nat) : Canon (note w a) := hw.cpNote.ite hw
  have hv : Canon v := (hn (hn ht _) _).ite (hn ht _)
  split
  · exact Canon.ite (Canon.run (hv.frame rfl)) hv.refuseCommand
  · exact hv.refuseCommand

theorem Canon.signalCounter {sub : Nat} (h : Canon s) : Canon (s.signalCounter sub) :=
  h.startCommand fun _ _ _ _ ht => ht.refuseOpen.ite (ht.postSignal.finishCommand.ite ht.startFlush.run)

theorem Canon.execSignalWait (h : Canon s) : NextAnd Canon (execSignalWait s) :=
  h.startCommand fun _ _ _ _ ht => ht.run.settleQueues.ite ht.refuseOpen

theorem Canon.execSignalStore (h : Canon s) : NextAnd Canon (execSignalStore s) := by
  refine h.startCommand fun t q x b ht => ht.refuseCommand.ite ?_
  extract_lets v
  split
  · exact ht.writeAt.noteVa.finishCommand
  · exact ht.noteVa.refuseCommand

/-! ### Regions and leave -/

theorem Canon.putRegion {r : Region} (h : Canon s) : Canon (s.putRegion r) := h.frame rfl

theorem Canon.regionPut {sub : Nat} (h : Canon s) : Canon (s.regionPut sub) := by
  refine h.startCommand fun t q x b ht => ?_
  extract_lets rcb image u known
  have hu : Canon u := ht.cpNote
  clear_value image
  cases image with
  | none => exact hu.refuseCommand
  | some m => exact hu.putRegion.finishCommand.ite hu.refuseCommand

theorem Canon.execRegionDestroy (h : Canon s) : NextAnd Canon (execRegionDestroy s) := by
  refine h.startCommand fun t q x b ht => ?_
  extract_lets rcb
  split
  · exact ht.refuseCommand
  · exact ht.refuseCommand.ite (Canon.finishCommand (ht.frame rfl))

theorem Canon.execRegionBind (h : Canon s) : NextAnd Canon (execRegionBind s) :=
  h.startCommand fun _ _ _ _ ht => ht.setQueue.finishCommand.ite ht.refuseOpen

theorem Canon.countGrants {gs : List (Nat × Nat)} (h : Canon s) : Canon (s.countGrants gs) :=
  h.foldl fun _ _ ht => ht.countEvent

theorem Canon.closeWindow (h : Canon s) : Canon s.closeWindow :=
  Canon.mapTeams (h.countGrants.frame rfl) fun _ ht => ht

/-! ### Links and the host port -/

theorem Canon.machineCheck {uid addr : Nat} (h : Canon s) : Canon (s.machineCheck uid addr) := by
  unfold State.machineCheck
  split
  · exact h
  · split
    · exact h
    · exact h.modTeam fun _ ht => ht
    · exact h.modTeam fun _ ht => ht
    · exact h.checkTeam

theorem Canon.emit {m : LinkMsg} (h : Canon s) : Canon (s.emit m) := h.frame rfl

theorem Canon.settleIncs (h : Canon s) : Canon s.settleIncs :=
  Canon.settle (Canon.foldl (h.frame rfl) fun _ _ ht => ht.makeIncrement.frame rfl)

theorem Canon.execRemoteWriteUnit (h : Canon s) : NextAnd Canon (execRemoteWriteUnit s) := by
  unfold Machine.execRemoteWriteUnit
  show Canon _
  split
  · exact h
  · exact (h.receiveUnit.ite h.receiveUnit.emit).settleIncs

theorem Canon.execRemoteRead (h : Canon s) : NextAnd Canon (execRemoteRead s) := by
  unfold Machine.execRemoteRead
  show Canon _
  extract_lets a no
  have hno : Canon no := h.refuse.emit
  split
  · exact hno
  · split
    · exact hno
    · exact hno.ite h.noteVa.emit

theorem Canon.execRemoteIncrement (h : Canon s) : NextAnd Canon (execRemoteIncrement s) :=
  h.ite (Canon.ite (Canon.settleIncs (h.frame rfl)) (Canon.emit (Canon.refuse (h.frame rfl))))

theorem Canon.execFlushMarker (h : Canon s) : NextAnd Canon (execFlushMarker s) :=
  Canon.ite (Canon.emit (h.frame rfl)) (h.frame rfl)

theorem Canon.execFlushAck (h : Canon s) : NextAnd Canon (execFlushAck s) := Canon.ite (Canon.settle (h.frame rfl)) h

theorem Canon.replay {p : Nat} {paths : List Nat} (h : Canon s) : Canon (s.replay p paths) := h.frame rfl

theorem Canon.execPathDown (h : Canon s) : NextAnd Canon (execPathDown s) := Canon.log (Canon.replay (h.frame rfl))

theorem Canon.execPortTraining (h : Canon s) : NextAnd Canon (execPortTraining s) :=
  Canon.ite (Canon.ite (Canon.replay (h.frame rfl)) (Canon.log (h.frame rfl))) h

theorem Canon.execPeerPathLoss (h : Canon s) : NextAnd Canon (execPeerPathLoss s) := by
  have hu (us : List Nat) (dev : Nat) : Canon (us.foldl (fun u x => u.machineCheck x dev) s) :=
    h.foldl fun _ _ ht => ht.machineCheck
  exact Canon.log (Canon.foldl (Canon.frame (hu _ _) rfl) fun _ _ ht => ht.suspendCmd)

theorem Canon.reply {r : Option (List Byte)} (h : Canon s) : Canon (s.reply r) := h.frame rfl

theorem Canon.execHostRdmaWrite (h : Canon s) : NextAnd Canon (execHostRdmaWrite s) := by
  refine h.offVlan (h.ite (h.reply.ite ?_))
  split
  · exact h.reply
  · split
    · exact h.reply
    · exact h.writeSpan.noteRange.reply

theorem Canon.execHostRdmaRead (h : Canon s) : NextAnd Canon (execHostRdmaRead s) := by
  refine h.offVlan (h.ite (h.reply.ite ?_))
  split
  · exact h.reply
  · split
    · exact h.reply
    · exact h.noteRange.reply

/-! ### The management controller -/

theorem canon_reset : Canon State.reset := by decide

theorem Canon.bringUp (s : State) : Canon s.bringUp :=
  Canon.foldl (Canon.frame canon_reset rfl) fun _ _ ht => ht.log

theorem Canon.powerDown (h : Canon s) : Canon s.powerDown := by
  have hp : Canon { State.reset with hub := { s.hub with armed := [], flushes := [] } } :=
    canon_reset.setPublish h.publish
  exact hp.frame rfl

theorem Canon.execFirmwareUpdate (h : Canon s) : NextAnd Canon (execFirmwareUpdate s) := by
  refine h.onVlan ?_
  split
  · exact h
  · exact h.frame rfl

theorem Canon.execAttestationRequest (h : Canon s) : NextAnd Canon (execAttestationRequest s) :=
  h.onVlan (Canon.ite (h.stamp.frame rfl) h)

theorem Canon.execSensorPoll (h : Canon s) : NextAnd Canon (execSensorPoll s) := by
  unfold Machine.execSensorPoll
  show Canon _
  extract_lets r c _ u t low
  have hu : Canon u := h.frame rfl
  have ht : Canon t := hu.log.ite hu
  have hl {v : State} (hv : Canon v) (die : Nat) : Canon (low v die) := Canon.ite (hv.draw.frame rfl) hv
  exact hu.log.powerDown.ite (hl (hl ht 0) 1)

theorem Canon.execPtpMessage (h : Canon s) : NextAnd Canon (execPtpMessage s) := by
  refine h.onVlan (h.ite (Canon.ite (Canon.log (Canon.frame h ?_))
    (Canon.ite (h.frame rfl) (Canon.ite (h.frame rfl) (h.frame rfl)))))
  split <;> rfl

theorem Canon.matrixError {uid name : Nat} {slot : Bool} (h : Canon s) : Canon (s.matrixError uid name slot) := by
  unfold State.matrixError
  split
  · exact h
  · exact Canon.ite (h.foldl fun _ _ ht => ht.machineCheck) h

theorem Canon.execStorageError (h : Canon s) : NextAnd Canon (execStorageError s) := by
  unfold Machine.execStorageError
  show Canon _
  split
  · exact h.countEvent
  · exact h.countEvent
  · exact Canon.ite (h.frame rfl) h
  · exact h.modBlock fun b hb => by split <;> exact hb
  · exact h.machineCheck
  · exact h.matrixError
  · exact h.matrixError
  · exact h
  · exact h.log
  · exact h.log

end

end Sys2Proof.Machine
end

section
/-!
PROOF. The canonical form through loads, stores, atomics, vector words, words that queue commands, and scalar words.
-/
namespace Sys2Proof.Machine

section
variable {s : State}

/-! ### Loads and stores -/

theorem Canon.startLoad {la : Nat} {i : Instr} {ws : List RegWrite} {p : Option (Nat × Word64)} (h : Canon s) :
    Canon (s.startLoad la i ws p) := Canon.frame h.openWindow rfl

theorem teamWf_applyWrite {t : Team} (h : teamWf t = true) (w : RegWrite) : teamWf (t.applyWrite w) = true := by
  obtain ⟨hv, hd, hs, hp, hk⟩ := teamWf_iff.mp h
  cases w with
  | v pos l x => exact teamWf_iff.mpr ⟨smWf_smSet hv _ _, hd, hs, hp, hk⟩
  | side pos g x => exact teamWf_iff.mpr ⟨hv, smWf_smSet hd _ _, hs, hp, hk⟩
  | s n x => exact teamWf_setS h n x

theorem Canon.execLoadDataReturn (h : Canon s) : NextAnd Canon (execLoadDataReturn s) := by
  unfold Machine.execLoadDataReturn
  show Canon _
  split
  · exact h
  · extract_lets looks _ t
    have ht : teamWf t = true := teamWf_of_stores h.team rfl
    split
    · exact h.setTeam (foldl_keeps (fun u => teamWf u = true) _ (fun _ w hu => teamWf_applyWrite hu w) _ t ht)
    · exact (h.setTeam ht).takeFault

theorem Canon.scalarLoad {i : Instr} {t b o la w : Nat} (h : Canon s) : OkAnd Canon (s.scalarLoad i t b o la w) :=
  .skip fun _ => .skip fun _ => h.noteTlb.startLoad.retire

theorem Canon.scalarStore {i : Instr} {t b o la w : Nat} (h : Canon s) : OkAnd Canon (s.scalarStore i t b o la w) :=
  .skip fun _ => .skip fun _ => h.noteTlb.writeAt.openWindow.retire

theorem Canon.vectorLoad {i : Instr} {t b x la u w : Nat} (h : Canon s) : OkAnd Canon (s.vectorLoad i t b x la u w) :=
  .skip fun _ => .skip fun _ => h.noteTlb.startLoad.retire

theorem Canon.clearCovered {ps : List Place} {w : Nat} (h : Canon s) : Canon (s.clearCovered ps w) :=
  h.foldl fun _ _ ht => ht.clearPoison.ite ht

theorem Canon.vectorStore {i : Instr} {t b x la u w : Nat} (h : Canon s) : OkAnd Canon (s.vectorStore i t b x la u w) :=
  .skip fun _ => .skip fun _ => (h.noteTlb.foldl fun _ _ ht => ht.writeAt).clearCovered.openWindow.retire

theorem Canon.execVldb {t b x l u : Nat} (h : Canon s) : NextAnd Canon (execVldb t b x l u s) :=
  h.answer (.skip fun _ => .skip fun _ => h.noteTlb.startLoad.retire)

theorem Canon.execVstb {t b x l u : Nat} (h : Canon s) : NextAnd Canon (execVstb t b x l u s) :=
  h.answer (.skip fun _ => .skip fun _ => (h.noteTlb.foldl fun _ _ ht => ht.writeSector).openWindow.retire)

/-! ### Atomics, address casts, caches -/

theorem Canon.atomicAt {p : Place} {w aop d c : Nat} (h : Canon s) : Canon (s.atomicAt p w aop d c).2 := by
  unfold State.atomicAt
  extract_lets m
  split
  · exact h.writeAt
  · exact h

theorem Canon.execVatom {d x b o l : Nat} (h : Canon s) : NextAnd Canon (execVatom d x b o l s) := by
  refine h.answer (.skip fun _ => .skip fun _ => .skip fun ps => ?_)
  split
  · exact h.noteTlb.startLoad.retire
  · refine Canon.retire (Canon.startLoad ?_)
    exact foldl_keeps (fun r : State × List (Nat × Nat) => Canon r.1) _ (fun _ _ hr => hr.atomicAt) ps _ h.noteTlb

theorem Canon.execSatom {d a o w l : Nat} (h : Canon s) : NextAnd Canon (execSatom d a o w l s) :=
  h.answer (.skip fun _ => .skip fun _ => .skip fun _ =>
    .ite h.noteTlb.startLoad.retire h.noteTlb.atomicAt.startLoad.retire)

theorem Canon.execSpcast {d a p t : Nat} (h : Canon s) : NextAnd Canon (execSpcast d a p t s) :=
  h.answer (.skip fun _ => .skip fun _ => h.setS.retire)

theorem Canon.execVsptest {d a : Nat} (h : Canon s) : NextAnd Canon (execVsptest d a s) :=
  h.answer (h.lanewiseCore.bind fun _ ht => ht.retire)

theorem Canon.execVspcast {d a p t : Nat} (h : Canon s) : NextAnd Canon (execVspcast d a p t s) :=
  h.answer (h.lanewiseCore.bind fun _ ht => .skip fun _ => ht.retire)

/-- A prefetch keeps the form if the fill of the line does. -/
theorem Canon.prefetch {a : Word64} {f : State → Nat → Nat → State} (h : Canon s)
    (hf : ∀ t e pa, Canon t → Canon (f t e pa)) : OkAnd Canon (s.prefetch a f) := by
  refine .skip fun _ => .skip fun t => ?_
  split
  · trivial
  · split
    · exact (hf _ _ _ h.fillTlb).retire
    · exact h.retire
  · exact h.fillTlb.retire
  · exact h.retire

theorem Canon.cacheLine {a : Word64} {f : Nat → Caches → Caches} (h : Canon s) : OkAnd Canon (s.cacheLine a f) := by
  refine .skip fun _ => .skip fun _ => ?_
  split
  · exact h.retire
  · split
    · exact Canon.retire (h.frame rfl)
    · exact h.retire

/-! ### Predicates and words across lanes -/

theorem Canon.predLogic {d : Nat} {x : Mask} (h : Canon s) : OkAnd Canon (s.predLogic d x) := .skip fun _ => h.setP.retireSr

theorem Canon.shuffle {d a b : Nat} {src : Nat → Nat → Nat} (h : Canon s) : OkAnd Canon (s.shuffle d a b src) :=
  h.lanewise.bind fun _ ht => .skip fun _ => ht

theorem Canon.execVred {a b f : Nat} (h : Canon s) : NextAnd Canon (execVred a b f s) :=
  h.answer (.skip fun _ => h.setS.raise.retire)

theorem Canon.execVscan {d a b f : Nat} (h : Canon s) : NextAnd Canon (execVscan d a b f s) :=
  h.answer (.skip fun _ => Canon.retire (h.writeLanes.raise.ite h.writeLanes.raise.setS))

theorem Canon.execVball {w p b f : Nat} (h : Canon s) : NextAnd Canon (execVball w p b f s) :=
  h.answer (.skip fun _ => h.setS.retireSr)

theorem Canon.execVnzs {d a b f : Nat} (h : Canon s) : NextAnd Canon (execVnzs d a b f s) :=
  h.answer (.skip fun _ => h.writeLanes.setS.retireSr)

theorem Canon.execVisect {d a b : Nat} (h : Canon s) : NextAnd Canon (execVisect d a b s) :=
  h.answer (.skip fun _ => h.writeLanes.withSp.retireSr)

/-! ### Words that queue flushes and sends -/

theorem Canon.execXflush {a c : Nat} (h : Canon s) : NextAnd Canon (execXflush a c s) := by
  refine h.answer (.skip fun _ => ?_)
  extract_lets g jp
  have hj (bm : List Byte) : OkAnd Canon (jp bm) := .skip fun _ => h.enqueue
  exact .ite (.skip hj) (.skip hj)

theorem Canon.execNsend {a b c : Nat} (h : Canon s) : NextAnd Canon (execNsend a b c s) := by
  refine h.answer (.skip fun _ => ?_)
  extract_lets jp
  have hj (src : Option Desc) : OkAnd Canon (jp src) := .skip fun _ => h.enqueue
  exact .ite (.skip hj) (.skip fun _ => hj _)

/-! ### Scalar words -/

theorem Canon.scalar {d : Nat} {x : Nat × Byte} (h : Canon s) : OkAnd Canon (s.scalar d x) :=
  .skip fun _ => h.setS.raise.retire

theorem Canon.execSpctl {d a b : Nat} (h : Canon s) : NextAnd Canon (execSpctl d a b s) :=
  h.answer (.skip fun _ => .skip fun _ => .skip fun _ => h.setS.retire)

end

end Sys2Proof.Machine
end

section
/-!
PROOF. The canonical form through the meaning of every instruction and event, time, fetch and issue, and so through `step`.
-/
namespace Sys2Proof.Machine

section
variable {s : State}

/-! ### The dispatch -/

/-- A word that no check of its own can stop. -/
theorem Canon.answerOk {t : State} (h : Canon s) (ht : Canon t) : NextAnd Canon (Machine.answer s (.ok t)) :=
  h.answer (r := .ok t) ht

/-- Each word that may stand in a pair, by the shared operation it is made of; the others are refused. -/
theorem Canon.execPrefixed {i : Instr} (h : Canon s) : NextAnd Canon (execPrefixed i s) := by
  cases i with
  | vld8 | vld16 | vld32 | vld64 => exact h.answer h.vectorLoad
  | vst8 | vst16 | vst32 | vst64 => exact h.answer h.vectorStore
  | vldb => exact h.execVldb
  | vstb => exact h.execVstb
  | vatom => exact h.execVatom
  | satom => exact h.execSatom
  | vsptest => exact h.execVsptest
  | vspcast => exact h.execVspcast
  | vadd | vsub | vmul | vmulh | vmin | vmax | vabsd | vdiv | vrem | vfma | vfms | vfnma | vaddsat | vsubsat | vavg
  | vcopysign | vand | vor | vxor | vandn | vshl | vshr | vsra | vrotr | vaddi | vmuli | vandi | vori | vshli | vshri
  | vsrai | vrotri | vmovi | vmov | vneg | vabs | vnot | vpopc | vclz | vsext8 | vsext16 | vrcp | vrsq | vsqrt | vexp2
  | vlog2 | vsin | vcos | vtanh | vcvt | vadds | vmuls | vfmas | vmins | vmaxs | vbcast | vshls | vshrs | vsel
  | vlane => exact h.answer h.lanewise
  | vcmp | vcmps => exact h.answer h.compare
  | vshfl | vshflTeam => exact h.answer h.shuffle
  | vred => exact h.execVred
  | vscan => exact h.execVscan
  | vball => exact h.execVball
  | vnzs => exact h.execVnzs
  | visect => exact h.execVisect
  | vbmax | vscsel | vqnt | vdq | vreq | vsideRd | vsideWr => exact h.answer (.skip fun _ => h.blockwise)
  | vpack | vunpk => exact h.answer (.skip fun _ => .skip fun _ => h.blockwise)
  | vhist => exact h.execVhist
  | _ => exact h.answer .error

/-- A word that `exec` and `execPrefixed` give one meaning. -/
theorem Canon.exec_of_prefixable {i : Instr} (h : Canon s) (hi : Machine.exec i s = Machine.execPrefixed i s) :
    NextAnd Canon (exec i s) := hi ▸ h.execPrefixed

/-- The meaning of every instruction and event. -/
theorem Canon.exec {i : Instr} (h : Canon s) : NextAnd Canon (exec i s) := by
  cases i with
  | vld8 | vld16 | vld32 | vld64 | vst8 | vst16 | vst32 | vst64 | vldb | vstb | vatom | satom | vsptest | vspcast | vadd
  | vsub | vmul | vmulh | vmin | vmax | vabsd | vdiv | vrem | vfma | vfms | vfnma | vaddsat | vsubsat | vavg | vcopysign
  | vand | vor | vxor | vandn | vshl | vshr | vsra | vrotr | vaddi | vmuli | vandi | vori | vshli | vshri | vsrai | vrotri
  | vmovi | vmov | vneg | vabs | vnot | vpopc | vclz | vsext8 | vsext16 | vrcp | vrsq | vsqrt | vexp2 | vlog2 | vsin
  | vcos | vtanh | vcvt | vadds | vmuls | vfmas | vmins | vmaxs | vbcast | vshls | vshrs | vsel | vlane | vcmp | vcmps
  | vshfl | vshflTeam | vred | vscan | vball | vnzs | visect | vbmax | vscsel | vqnt | vdq | vreq | vsideRd | vsideWr
  | vpack | vunpk | vhist => exact h.exec_of_prefixable rfl
  | prefixedInstruction => exact Canon.execPrefixed (h.frame rfl)
  -- MISC words, branches and calls
  | ill => exact h.answer .error
  | nop => exact h.answerOk h.retireCtl
  | exit => exact h.answerWindow h.opExit
  | texit => exact h.answerOk (h.issueDone.setTeam (teamWf_of_stores h.issueDone.team rfl))
  | haltc => exact h.answer (.skip fun _ => Canon.frame h.issueDone rfl)
  | join => exact h.answer h.joinEffect
  | ret => exact h.answerWindow h.opRet
  | uret => exact h.answerWindow h.opTrapReturn
  | tret => exact h.answer (.skip fun _ => h.answerW h.opTrapReturn)
  | setj | plset => exact h.answer (.skip fun _ => h.withLanes.retireCtl)
  | plsetConst | plsel => exact h.answerOk h.withLanes.retireCtl
  | plocc | srd => exact h.answerOk h.setS.retireCtl
  | jmp => exact h.answer h.jump
  | jmpi => exact h.answer (.skip fun _ => h.jump)
  | call | calls => exact h.answerWindow h.opCall
  | calli => exact h.answerWindow h.opCalli
  | enter => exact h.answerWindow h.opEnter
  | bru => exact h.execBru
  | brm => exact h.execBrm
  | eject => exact h.execEject
  | refill => exact h.execRefill
  | ejectRecordWrite => exact h.execEjectRecordWrite
  | yield => exact h.execYield
  | trap => exact Canon.takeFault (h.frame rfl)
  -- special registers
  | mode | swrMode => exact h.answer (h.setMode.bind fun _ ht => ht.retireCtl)
  | leave => exact h.answerOk (Canon.retireCtl (h.setTeam (teamWf_ite h.team h.team)))
  | swrTrapoff => exact h.answerOk (Canon.retireCtl (h.frame rfl))
  | swr | swrSticky => exact h.answerOk h.withSp.retireCtl
  | swrSsp => exact h.answer (.skip fun _ => h.withSp.retireCtl)
  | pushm => exact h.execPushm
  | popm => exact h.execPopm
  -- fences, barriers, convocations, claims and counters
  | fenceRel => exact h.answerOk (h.fenceDone.systemRelease.ite h.fenceDone)
  | fenceAcq => exact h.answerOk (h.retireCtl.dropL1.ite h.retireCtl)
  | fenceAr => exact h.execFenceAr
  | conv => exact h.execConv
  | disb => exact h.answerOk h.retireCtl.leaveConv
  | barSync => exact h.execBarSync
  | barArrive => exact h.answer (.skip fun _ => h.arrive)
  | barWait => exact h.answer (.skip fun _ => h.waitPhase)
  | cbara => exact h.answerOk h.arrive
  | cbarw => exact h.answerOk h.waitPhase
  | pbara => exact h.execPbara
  | pbwait => exact h.execPbwait
  | barrierTimeout => exact h.execBarrierTimeout
  | xcntSet | xcntAdd => exact h.answer h.xcnt
  | xwait | xwaitTest => exact h.answer h.xwait
  | tclm | tclmTry | aclm | aclmTry => exact h.answer h.claim
  | trel | arel => exact h.answer h.release
  | claimGrant => exact h.execClaimGrant
  -- matrix words
  | tldDense | tldDec | tldPcs => exact h.answer h.tld
  | tst => exact h.answer (.skip fun _ => .skip fun _ => .skip fun _ => h.startTransfer.retire)
  | mma | mmaZ | mmas => exact h.answer h.matrixWord
  | ardr | ardc => exact h.answer h.tileRead
  | awrr | awrc => exact h.answer h.tileWrite
  | azero => exact h.answer (.skip fun _ => .skip fun _ => h.withMat.retire)
  | trdr => exact h.answer (.skip fun _ => .skip fun _ => h.putGroups.retire)
  | trdc => exact h.answer (.skip fun _ => .skip fun _ => h.putV.setSide.retire)
  | twrr | twrc => exact h.answer (.skip fun _ => .skip fun _ => h.withMat.retire)
  | tinfo => exact h.answer (.skip fun _ => .skip fun _ => h.setS.retire)
  | aqnt => exact h.answer (.skip fun _ => .skip fun _ => .skip fun _ => .skip fun _ => .skip fun _ =>
      h.startTransfer.retireSr)
  | tileTransferComplete => exact h.execTileTransferComplete
  | matrixStepDone => exact h.execMatrixStepDone
  -- engine words and their commands
  | xcpy | xcpyPair => exact h.answer h.xcpy
  | xgath | xscat => exact h.answer h.xgath
  | cred => exact h.execCred
  | tsend => exact h.execTsend
  | xflush => exact h.execXflush
  | nsend => exact h.execNsend
  | nsendImm => exact h.answer (.skip fun _ => .skip fun _ => .skip fun _ => h.enqueue)
  | xpub | xpubSync => exact h.answer h.xpub
  | publishSyncCopy => exact h.execPublishSyncCopy
  | publishEntryStore => exact h.execPublishEntryStore
  | engineCommandStart => exact h.execEngineCommandStart
  | engineCommandComplete => exact h.execEngineCommandComplete
  | engineSuspend => exact h.execEngineSuspend
  -- scalar words, loads and stores
  | sadd | ssub | smul | smulh | sdiv | sdivu | srem | sremu | sand | sor | sxor | sandn | sshl | sshr | ssra | srotr | smin
  | smax | sminu | smaxu | sslt | ssltu | sseq | ssne | ssel | sselz | spopc | sclz | sctz | sbrev | saddi | sandi | sori
  | sxori | sshli | sshri | ssrai | sslti | sli | slui => exact h.answer h.scalar
  | sld64 | sld32 => exact h.answer h.scalarLoad
  | sst64 | sst32 => exact h.answer h.scalarStore
  | loadDataReturn => exact h.execLoadDataReturn
  | sptest => exact h.answer (.skip fun _ => h.setS.retire)
  | spcast => exact h.execSpcast
  | spctl => exact h.execSpctl
  | prefL1 | prefL2 => exact h.answer (h.prefetch fun _ _ _ ht => ht.touchLine)
  | cctlL1line | cctlL2evict => exact h.answer h.cacheLine
  | cctlL1all => exact h.answer (.skip fun _ => Canon.retire (h.frame rfl))
  | pand | por | pxor | pandn | pnot | pset | pclr | pmov => exact h.answer h.predLogic
  -- privileged words and faults
  | psrd => exact h.answer (.skip fun _ => h.setS.retireCtl)
  | pswr => exact h.answer (.skip fun _ => Canon.retireCtl (h.frame rfl))
  | pswrFqhead => exact h.execPswrFqhead
  | fdactRestart | fdactEnd | fdactRespill => exact h.answer h.pswrFdact
  | tlbiPage => exact h.answer (.skip fun _ => .skip fun _ => h.keepTlb.dropL1.retireCtl)
  | tlbiRegion => exact h.execTlbiRegion
  | faultRecordWrite => exact h.execFaultRecordWrite
  | handlerLaunch => exact h.execHandlerLaunch
  | yieldOverrun => exact Canon.ite h.takeFault h
  | haltRelease => exact Canon.frame h rfl
  -- transfers of the window, placement, swaps
  | spillAhead => exact h.execSpillAhead
  | spillTransferComplete => exact h.execSpillTransferComplete
  | teamResume => exact h.execTeamResume
  | blockPlace | clusterPlace => exact h.place
  | blockRelease => exact h.execBlockRelease
  | placementStarvation => exact h.modLaunch
  | leaveWindow => exact h.closeWindow.ite h
  | coreGroupSwapOut => exact h.execCoreGroupSwapOut
  | coreGroupSwapIn => exact h.execCoreGroupSwapIn
  -- host queues
  | launchComplete => exact h.execLaunchComplete
  | doorbellWrite => exact h.execDoorbellWrite
  | launch => exact h.execLaunch
  | tapePop => exact h.execTapePop
  | graph => exact h.execGraph
  | tableLoad => exact h.execTableLoad
  | tableDisable => exact h.execTableDisable
  | tableFiring => exact h.execTableFiring
  | copy => exact h.execCopy
  | signalSet | signalAdd => exact h.signalCounter
  | signalWait => exact h.execSignalWait
  | signalStore => exact h.execSignalStore
  | regionCreate | regionModify => exact h.regionPut
  | regionDestroy => exact h.execRegionDestroy
  | regionBind => exact h.execRegionBind
  -- storage, links, host port
  | storageError => exact h.execStorageError
  | hostRdmaWrite => exact h.execHostRdmaWrite
  | hostRdmaRead => exact h.execHostRdmaRead
  | remoteWriteUnit => exact h.execRemoteWriteUnit
  | remoteRead => exact h.execRemoteRead
  | remoteIncrement => exact h.execRemoteIncrement
  | peerRefusal => exact Canon.frame h rfl
  | flushMarker => exact h.execFlushMarker
  | flushAck => exact h.execFlushAck
  | pathDown => exact h.execPathDown
  | peerPathLoss => exact h.execPeerPathLoss
  | portTraining => exact h.execPortTraining
  -- management controller
  | ptpMessage => exact h.execPtpMessage
  | powerOnReset => exact Canon.bringUp s
  | resetRequest => exact h.onVlan (Canon.bringUp s)
  | floorCommand => exact h.onVlan (Canon.ite (h.frame rfl) h)
  | firmwareUpdate => exact h.execFirmwareUpdate
  | attestationRequest => exact h.execAttestationRequest
  | eventLogRead => exact h.onVlan (h.frame rfl)
  | counterProgram | counterRead => exact h.onVlan (Canon.ite (h.frame rfl) h)
  | sensorPoll => exact h.execSensorPoll

/-! ### Time -/

theorem teamWf_tick {n : Nat} {t : Team} (h : teamWf t = true) : teamWf (t.tick n) = true := by
  unfold Team.tick
  split
  · exact teamWf_ite (teamWf_timeOut h) h
  · exact h

theorem Canon.countStalls {n : Nat} (h : Canon s) : Canon (s.countStalls n) := by
  refine h.foldl fun t _ ht => ?_
  split
  · exact ht.countEvent
  · exact ht.countEvent
  · exact ht

theorem Canon.elapse (h : Canon s) : Canon s.elapse := by
  unfold State.elapse
  extract_lets t
  have ht : Canon t := h.countStalls.mapTeams fun _ => teamWf_tick
  have hp : Canon { t with hub := { s.hub with ptp := (s.hub.ptp + Config.stepNs s.free) % 2 ^ 64 } } :=
    ht.setPublish h.publish
  exact hp.frame rfl

theorem Canon.tick (h : Canon s) : Canon s.tick := h.elapse.ite (h.elapse.closeWindow.ite h.elapse)

/-! ### Fetch, issue and turns -/

theorem NextAnd.ite {P : State → Prop} {c : Prop} [Decidable c] {x y : Host.Outcome State Fault Refusal}
    (hx : NextAnd P x) (hy : NextAnd P y) : NextAnd P (if c then x else y) := by split <;> assumption

theorem Canon.runBlocker {b : Nat × Instr × Nat} (h : Canon s) : NextAnd Canon (runBlocker s b) :=
  .ite (Canon.exec (h.focus.frame rfl)) h

theorem Canon.runIssue {i : Instr} {iss : Issue} (h : Canon s) : NextAnd Canon (runIssue s i iss) := by
  unfold Machine.runIssue
  extract_lets op uses
  split
  · have he : NextAnd Canon (Machine.exec i { s with iss := iss }) := Canon.exec (h.frame rfl)
    split
    · next ht =>
      rw [ht] at he
      exact Canon.countIssue he
    · exact he
  · exact h.stall.runBlocker

theorem Canon.noteFetch (h : Canon s) : Canon s.noteFetch := h.foldl fun _ _ ht => ht.noteVa

theorem Canon.runFetchFault {f : FaultInfo} (h : Canon s) : NextAnd Canon (runFetchFault s f) := by
  unfold Machine.runFetchFault
  split
  · exact h.noteFetch.takeFault
  · exact h.stall.runBlocker

theorem Canon.issueFocused (h : Canon s) : NextAnd Canon (issueFocused s) := by
  refine .ite h.exec ?_
  extract_lets t
  have ht : Canon t := h.frame rfl
  split
  · exact ht.runFetchFault
  · exact ht.noteFetch.runIssue

theorem Canon.releaseFocused (h : Canon s) : NextAnd Canon (releaseFocused s) := by
  unfold Machine.releaseFocused
  split
  · split
    · exact h.runBlocker
    · exact h
  · exact h.exec

theorem Canon.takeTurn {t : Turn} (h : Canon s) : NextAnd Canon (takeTurn s t) := by
  cases t with
  | issue uid =>
    have hf : Canon (s.focus uid) := h.focus
    exact .ite hf (.ite (.ite hf.takeHeld hf.issueFocused)
      (.ite (.ite hf.preemptWait hf.exec) (.ite hf.releaseFocused hf)))
  | event uid e arg => exact .ite (Canon.exec (h.focus.frame rfl)) h

theorem Canon.downStep (h : Canon s) : NextAnd Canon (downStep s) := by
  unfold Machine.downStep
  split
  · trivial
  · exact .ite (Canon.takeTurn (h.frame rfl)) (h.frame rfl)

theorem Canon.step (h : Canon s) : NextAnd Canon (step s) := by
  refine .ite h.downStep ?_
  extract_lets t
  have ht : Canon t := h.settle.tick
  split
  · exact Canon.takeTurn (ht.frame rfl)
  · split
    · exact ht.takeTurn
    · exact ht

end

/-- Settles O7: `Canon` is kept by each operation of the model, so by the meaning of each instruction and event, and so by
`step`, which runs one of them. -/
theorem stepKeepsStoresCanonical : Obligations.StepKeepsStoresCanonical := by
  intro s t h hst
  have hs : NextAnd Canon (step s) := Canon.step h
  rw [hst] at hs
  exact hs

end Sys2Proof.Machine
end

section
/-!
PROOF. The block words (R266..R269, R274): the checks that they share, and what each answers when they pass or stop it.
-/
namespace Sys2Proof.Machine

/-! ### Checks of a meaning -/

section
variable {α : Type} {s : State} {x : Except FaultInfo α} {f : α → Except FaultInfo State}

/-- A meaning goes on after a check that passes. -/
theorem answer_bind_ok {a : α} (hx : x = .ok a) : answer s (x >>= f) = answer s (f a) := by rw [hx]; rfl

/-- A meaning ends with the fault of a check that stops it. -/
theorem answer_bind_error {e : FaultInfo} (hx : x = .error e) : answer s (x >>= f) = .next (takeFault e s) := by
  rw [hx]; rfl

end

section
variable {s : State} {vs fs : List Nat} {given : Bool}

theorem vectorChecks_ok {typeOk wide : Bool} (he : evenOk wide vs = true) (ht : typeOk = true)
    (hz : s.iss.hazard = none) (hw : s.windowOk wide vs = true) : s.vectorChecks typeOk wide vs = .ok () := by
  unfold State.vectorChecks
  rw [need_ok he, need_ok ht, hazardCheck_ok hz, need_ok hw]
  rfl

theorem blockChecks_ok (hv : s.vectorChecks true false vs = .ok ())
    (hf : ∀ r ∈ fs, fmtValid (s.fmtWord r) false given = true) : s.blockChecks vs fs given = .ok () := by
  unfold State.blockChecks
  rw [hv, need_ok (List.all_eq_true.mpr hf)]
  rfl

theorem blockChecks_error (hv : s.vectorChecks true false vs = .ok ())
    (hf : ¬∀ r ∈ fs, fmtValid (s.fmtWord r) false given = true) :
    s.blockChecks vs fs given = .error (s.flt .slotState) := by
  unfold State.blockChecks
  rw [hv, need_error (by rwa [← List.all_eq_true, Bool.not_eq_true] at hf)]
  rfl

end

/-! ### The words -/

section
variable {s : State} {d a f p : Nat}

theorem exec_vbmax (hv : s.vectorChecks true false [a, d] = .ok ()) :
    exec (.vbmax d a) s = .next (s.blockwise d (fun g =>
      let m := ((s.group a g).codes.map (fun y => y % 2 ^ 31)).foldl max 0
      groupOf (List.replicate 16 (if 0x7F800000 < m then 0x7FC00000 else m)) 0 0)) := by
  refine (answer_bind_ok hv).trans ?_
  simp only [List.map_const', List.length_range]
  rfl

theorem exec_vsideRd (hv : s.vectorChecks true false [a, d] = .ok ()) :
    exec (.vsideRd d a) s = .next (s.blockwise d (fun g => groupOf
      ((List.range 16).map (fun j => if j < 8 then (s.group a g).side / 2 ^ (8 * j) % 256 else 0)) 0 0)) :=
  answer_bind_ok hv

theorem exec_vpack (hc : s.blockChecks [a, d] [f] false = .ok ()) (hp : p < (blockFmt (s.fmtWord f)).perSector) :
    exec (.vpack d a p f) s = .next (s.blockwise d (fun g =>
      (blockFmt (s.fmtWord f)).putBlock (s.group d g) p ((s.group a g).side % 256) (s.group a g).codes)) :=
  (answer_bind_ok hc).trans (answer_bind_ok (need_ok (decide_eq_true hp) _))

theorem exec_vunpk (hc : s.blockChecks [a, d] [f] false = .ok ()) (hp : p < (blockFmt (s.fmtWord f)).perSector) :
    exec (.vunpk d a p f) s = .next (s.blockwise d (fun g => (blockFmt (s.fmtWord f)).codeForm
      { scale := (s.group a g).side / 2 ^ (8 * p) % 256
        codes := (blockFmt (s.fmtWord f)).blockCodes (s.group a g).data p, flags := 0 })) :=
  (answer_bind_ok hc).trans (answer_bind_ok (need_ok (decide_eq_true hp) _))

/-- A block position past the sector stops VPACK and VUNPK (R268). -/
theorem exec_vpack_vunpk_past (hc : s.blockChecks [a, d] [f] false = .ok ())
    (hp : (blockFmt (s.fmtWord f)).perSector ≤ p) :
    exec (.vpack d a p f) s = .next (takeFault (s.flt .slotState) s) ∧
    exec (.vunpk d a p f) s = .next (takeFault (s.flt .slotState) s) :=
  have hn := need_error (decide_eq_false (Nat.not_lt.mpr hp)) (s.flt .slotState)
  ⟨(answer_bind_ok hc).trans (answer_bind_error hn), (answer_bind_ok hc).trans (answer_bind_error hn)⟩

end

/-- Settles O37: the shared checks pass in the frame, so the format words alone decide between a word's value and
SLOT_STATE. -/
theorem blockWords : Obligations.BlockWords := by
  rintro d a f p s ⟨-, -, -, hz, hw, -⟩ fm fd ok x f32 vals
  have hv : s.vectorChecks true false [a, d] = .ok () := vectorChecks_ok rfl rfl hz hw
  have one {r : Nat} {given : Bool} (h : ok r given) : s.blockChecks [a, d] [r] given = .ok () :=
    blockChecks_ok hv (by simpa using h)
  have bad {r : Nat} {given : Bool} (h : ¬ok r given) :
      s.blockChecks [a, d] [r] given = .error (s.flt .slotState) :=
    blockChecks_error hv fun hall => h (hall r List.mem_cons_self)
  refine ⟨exec_vbmax hv, exec_vsideRd hv, answer_bind_ok hv, fun h => ⟨?_, answer_bind_ok (one h), fun hp => ?_, ?_⟩,
    fun h => answer_bind_ok (one h), fun h h' => ?_, fun h => answer_bind_error (bad h), fun h => ?_, fun h => ?_⟩
  · refine (answer_bind_ok (one h)).trans ?_
    simp only [List.map_const', List.length_range]
    rfl
  · exact ⟨exec_vpack (one h) hp, exec_vunpk (one h) hp⟩
  · exact exec_vpack_vunpk_past (one h)
  · exact answer_bind_ok (blockChecks_ok hv (by simpa using ⟨h, h'⟩))
  · exact answer_bind_error (blockChecks_error hv fun hall => h ⟨hall f (by simp), hall (f + 1) (by simp)⟩)
  · exact ⟨answer_bind_error (bad h), answer_bind_error (bad h), answer_bind_error (bad h), answer_bind_error (bad h)⟩

end Sys2Proof.Machine
end

section
/-!
PROOF. What accesses leave as it was: the marks that they make on caches, TLBs and event counters are all that changes.
-/
namespace Sys2Proof.Machine

/-- The states differ in the caches and in the management controller's counters at most. -/
def MarksOnly (s t : State) : Prop := ∃ (c : Caches) (a : Amc), t = { s with caches := c, amc := a }

section
variable {s t : State}

theorem MarksOnly.refl (s : State) : MarksOnly s s := ⟨s.caches, s.amc, rfl⟩

theorem MarksOnly.trans {u : State} (h : MarksOnly s t) (h' : MarksOnly t u) : MarksOnly s u := by
  obtain ⟨c, a, rfl⟩ := h
  obtain ⟨c', a', rfl⟩ := h'
  exact ⟨c', a', rfl⟩

theorem MarksOnly.ite {c : Prop} [Decidable c] {u : State} (h : MarksOnly s t) (h' : MarksOnly s u) :
    MarksOnly s (if c then t else u) := by split <;> assumption

/-- A fold of operations each of which only makes marks. -/
theorem MarksOnly.foldl {α : Type} {f : State → α → State} {l : List α} (h : MarksOnly s t)
    (hf : ∀ u a, MarksOnly u (f u a)) : MarksOnly s (l.foldl f t) :=
  foldl_keeps (MarksOnly s) f (fun u a hu => hu.trans (hf u a)) l t h

theorem MarksOnly.setCaches {c : Caches} (h : MarksOnly s t) : MarksOnly s { t with caches := c } :=
  h.trans ⟨c, t.amc, rfl⟩

theorem MarksOnly.countEvent {unit src rid n : Nat} (h : MarksOnly s t) : MarksOnly s (t.countEvent unit src rid n) :=
  h.trans ⟨t.caches, _, rfl⟩

theorem MarksOnly.evictLine {l : CacheLine} (h : MarksOnly s t) : MarksOnly s (t.evictLine l) := by
  have hu : MarksOnly s (if (t.caches.leavesAs l (t.lineData l.line)).1 = 0 then t
      else t.countEvent (192 + t.homeDie (256 * l.line)) 7 0 1) := h.ite h.countEvent
  exact (hu.countEvent.ite hu).setCaches

theorem MarksOnly.bringLine {l : CacheLine} (h : MarksOnly s t) : MarksOnly s (t.bringLine l) := by
  unfold State.bringLine
  split
  · exact h.evictLine.setCaches
  · exact h.setCaches

theorem MarksOnly.reachL2 {own pa : Nat} {l : CacheLine} (h : MarksOnly s t) : MarksOnly s (t.reachL2 own pa l) :=
  h.countEvent.setCaches.ite h.countEvent.countEvent.bringLine

theorem MarksOnly.crossDies {k : AccKind} {own core pa n : Nat} (h : MarksOnly s t) :
    MarksOnly s (t.crossDies k own core pa n) :=
  h.ite ((h.countEvent.ite h).ite (h.countEvent.ite h).countEvent)

theorem MarksOnly.notePhys {own pa : Nat} {w : Bool} (h : MarksOnly s t) : MarksOnly s (t.notePhys own w pa) :=
  h.reachL2.ite h

theorem MarksOnly.fillTlb {v : View} {va : Nat} (h : MarksOnly s t) : MarksOnly s (t.fillTlb v va) := by
  have hwalk {l : List WalkRead} {core : Nat} (u : State) : MarksOnly u
      (l.foldl (fun u r => (u.crossDies .load v.own core r.addr 1).notePhys v.own false r.addr) u) :=
    (MarksOnly.refl u).foldl fun u _ => (MarksOnly.refl u).crossDies.notePhys
  unfold State.fillTlb
  dsimp only
  split
  · exact h.foldl fun u _ => (MarksOnly.refl u).notePhys
  · refine h.ite ?_
    split
    · exact (h.countEvent.ite (h.countEvent.countEvent.countEvent.trans (hwalk _))).setCaches
    · exact h.countEvent.ite (h.countEvent.countEvent.countEvent.trans (hwalk _))

theorem MarksOnly.touchLine {k : AccKind} {v : View} {e pa : Nat} (h : MarksOnly s t) :
    MarksOnly s (t.touchLine k v e pa) := by
  unfold State.touchLine
  extract_lets n l
  refine h.ite ?_
  split
  · exact h.reachL2
  · exact h.ite (h.countEvent.ite h).crossDies.reachL2.setCaches

theorem MarksOnly.noteAs {v : View} {k as : AccKind} {va : Nat} (h : MarksOnly s t) :
    MarksOnly s (t.noteAs v k as va) := by
  unfold State.noteAs
  split
  · split
    · exact h.fillTlb.touchLine
    · exact h.fillTlb
  · exact h

/-- The accesses of a memory word make marks only (R20, R402). -/
theorem MarksOnly.noteTlb {k : AccKind} {ps : List (Nat × Word64)} (h : MarksOnly s t) : MarksOnly s (t.noteTlb k ps) :=
  h.foldl fun u _ => (MarksOnly.refl u).noteAs

end

/-- Bytes and side-bands depend on memory, the publish table and the blocks alone. -/
theorem sameBytes_of_stores {s t : State} (hm : t.mem = s.mem) (hd : t.memSide = s.memSide) (hh : t.hub = s.hub)
    (hb : t.blk = s.blk) (hbs : t.blocks = s.blocks) : sameBytes s t := by
  intro p
  cases p <;> simp [State.byteAt, State.sideAt, State.findBlock, State.allBlocks, hm, hd, hh, hb, hbs]

end Sys2Proof.Machine
end

section
/-!
PROOF. The register writes of returned load data (R277): what a register reads as after a list of them.
-/
namespace Sys2Proof.Machine

/-! ### Sparse stores after many writes -/

section
variable {α : Type} {d : α} [DecidableEq α] {m : SMap α}

/-- The last write to a key is what it reads as. -/
theorem smGet_smSetAll_last (h : smWf d m = true) (ws ws' : List (Nat × α)) {j : Nat} (x : α)
    (hj : ∀ w ∈ ws', w.1 ≠ j) : smGet d (smSetAll d m (ws ++ (j, x) :: ws')) j = x := by
  have hw := smWf_smSetAll h ws
  simp only [smSetAll, List.foldl_append, List.foldl_cons] at hw ⊢
  exact (smGet_smSetAll_of_not_mem (smWf_smSet hw j x) hj).trans (smGet_smSet_self hw j x)

/-- A key that is written, always with one value, reads as that value. -/
theorem smGet_smSetAll_of_forall (h : smWf d m = true) {ws : List (Nat × α)} {j : Nat} {x : α} (hm : ∃ w ∈ ws, w.1 = j)
    (hx : ∀ w ∈ ws, w.1 = j → w.2 = x) : smGet d (smSetAll d m ws) j = x := by
  induction ws generalizing m with
  | nil => simp at hm
  | cons w ws ih =>
    have hw := smWf_smSet h w.1 w.2
    by_cases hlater : ∃ w ∈ ws, w.1 = j
    · exact ih hw hlater fun v hv => hx v (List.mem_cons_of_mem w hv)
    · have hne : ∀ v ∈ ws, v.1 ≠ j := fun v hv he => hlater ⟨v, hv, he⟩
      obtain ⟨v, hv, rfl⟩ := hm
      obtain rfl | hv := List.mem_cons.mp hv
      · rw [← hx v List.mem_cons_self rfl]
        exact smGet_smSetAll_last h [] ws v.2 hne
      · exact absurd rfl (hne v hv)

end

/-! ### The writes of each register file -/

/-- The vector lanes that register writes set, as entries of the store (R89). -/
def vCells (ws : List RegWrite) : List (Nat × Word32) :=
  ws.filterMap fun | .v pos l x => some (pos * 1024 + l, x) | _ => none

/-- The side-bands that register writes set (R91). -/
def sideCells (ws : List RegWrite) : List (Nat × SideBand) :=
  ws.filterMap fun | .side pos g x => some (pos * 64 + g, x) | _ => none

/-- The uniform registers that register writes set; a write to sz is discarded (R89). -/
def sCells (ws : List RegWrite) : List (Nat × Word64) :=
  ws.filterMap fun | .s n x => if n < 192 then some (n, x) else none | _ => none

/-- Register writes change a team's registers and nothing else of it. -/
theorem foldl_applyWrite_frame (ws : List RegWrite) (t : Team) :
    ws.foldl Team.applyWrite t = { t with regs := (ws.foldl Team.applyWrite t).regs } := by
  have one (u : Team) (w : RegWrite) : u.applyWrite w = { u with regs := (u.applyWrite w).regs } := by
    cases w with
    | v pos l x => rfl
    | side pos g x => rfl
    | s n x => simp only [Team.applyWrite, Team.setS]; split <;> rfl
  refine foldl_keeps (fun u => u = { t with regs := u.regs }) _ (fun u w hu => ?_) ws t rfl
  rw [one u w, hu]

/-- What register writes make of the register files. -/
theorem foldl_applyWrite_regs (ws : List RegWrite) (t : Team) : (ws.foldl Team.applyWrite t).regs =
    { v := smSetAll 0 t.regs.v (vCells ws), side := smSetAll 0 t.regs.side (sideCells ws)
      s := smSetAll 0 t.regs.s (sCells ws), p := t.regs.p } := by
  induction ws generalizing t with
  | nil => rfl
  | cons w ws ih =>
    rw [List.foldl_cons, ih]
    cases w with
    | v pos l x => rfl
    | side pos g x => rfl
    | s n x => by_cases hn : n < 192 <;> simp [Team.applyWrite, Team.setS, vCells, sideCells, sCells, smSetAll, hn]

end Sys2Proof.Machine
end

section
/-!
PROOF. The lanes and groups that a load returns: what its register writes leave in the vector registers and side-bands.
-/
namespace Sys2Proof.Machine

/-! ### Element loads (R279) -/

section
variable {s : State} {wide : Bool} {n : Nat} {xs ys : List (Nat × Nat)} {x : Nat × Nat}

theorem vCells_loadWrites : vCells (s.loadWrites wide n xs) = xs.flatMap (fun x =>
    (s.vpos n * 1024 + x.1, BitVec.ofNat 32 x.2)
      :: if wide then [(s.vpos (n + 1) * 1024 + x.1, BitVec.ofNat 32 (x.2 / 2 ^ 32))] else []) := by
  unfold vCells State.loadWrites
  rw [List.filterMap_flatMap]
  cases wide <;> rfl

theorem sideCells_loadWrites : sideCells (s.loadWrites wide n xs) = xs.flatMap (fun x =>
    (s.vpos n * 64 + x.1 / 16, 0) :: if wide then [(s.vpos (n + 1) * 64 + x.1 / 16, 0)] else []) := by
  unfold sideCells State.loadWrites
  rw [List.filterMap_flatMap]
  cases wide <;> rfl

theorem sCells_loadWrites : sCells (s.loadWrites wide n xs) = [] := by
  unfold sCells State.loadWrites
  rw [List.filterMap_flatMap]
  cases wide <;> simp

/-- A lane that no write names keeps its data in every register. -/
theorem smGet_loadWrites_of_ne {m : SMap Word32} (hm : smWf 0 m = true) {pos lane : Nat} (hl : lane < 1024)
    (hx : ∀ x ∈ xs, x.1 < 1024 ∧ x.1 ≠ lane) :
    smGet 0 (smSetAll 0 m (vCells (s.loadWrites wide n xs))) (pos * 1024 + lane) = smGet 0 m (pos * 1024 + lane) := by
  refine smGet_smSetAll_of_not_mem hm fun w hw => ?_
  rw [vCells_loadWrites, List.mem_flatMap] at hw
  obtain ⟨x, hxs, hw⟩ := hw
  have := hx x hxs
  simp only [List.mem_cons, List.mem_ite_nil_right, List.not_mem_nil, or_false] at hw
  obtain rfl | ⟨-, rfl⟩ := hw <;> dsimp only <;> omega

/-- No write after that of a lane names it again. -/
theorem not_mem_vCells_loadWrites {pos : Nat} (hx : x.1 < 1024) (hb : ∀ y ∈ ys, y.1 < 1024)
    (hn : x.1 ∉ ys.map Prod.fst) : ∀ w ∈ vCells (s.loadWrites wide n ys), w.1 ≠ pos * 1024 + x.1 := by
  intro w hw
  rw [vCells_loadWrites, List.mem_flatMap] at hw
  obtain ⟨y, hy, hw⟩ := hw
  have hlt := hb y hy
  have hne : y.1 ≠ x.1 := fun he => hn (he ▸ List.mem_map_of_mem hy)
  simp only [List.mem_cons, List.mem_ite_nil_right, List.not_mem_nil, or_false] at hw
  obtain rfl | ⟨-, rfl⟩ := hw <;> dsimp only <;> omega

/-- The low word of a lane's image, unless the register of the high word is the same one. -/
theorem smGet_loadWrites_low {m : SMap Word32} (hm : smWf 0 m = true) (hb : ∀ y ∈ xs, y.1 < 1024)
    (hd : (xs.map Prod.fst).Nodup) (hx : x ∈ xs) (hw : wide = false ∨ s.vpos n ≠ s.vpos (n + 1)) :
    smGet 0 (smSetAll 0 m (vCells (s.loadWrites wide n xs))) (s.vpos n * 1024 + x.1) = BitVec.ofNat 32 x.2 := by
  obtain ⟨as, bs, rfl⟩ := List.append_of_mem hx
  rw [List.map_append, List.map_cons, List.nodup_middle, List.nodup_cons, List.mem_append, not_or] at hd
  have hxl := hb x hx
  have hbs := not_mem_vCells_loadWrites (s := s) (wide := wide) (n := n) (pos := s.vpos n) hxl
    (fun y hy => hb y (by simp [hy])) hd.1.2
  rw [vCells_loadWrites] at hbs ⊢
  rw [List.flatMap_append, List.flatMap_cons, List.cons_append]
  refine smGet_smSetAll_last hm _ _ _ fun w h => ?_
  obtain h | h := List.mem_append.mp h
  · simp only [List.mem_ite_nil_right, List.mem_singleton] at h
    obtain ⟨rfl, rfl⟩ := h
    have : s.vpos n ≠ s.vpos (n + 1) := by simpa using hw
    dsimp only
    omega
  · exact hbs w h

/-- The high word of a lane's image, in the second register of the pair. -/
theorem smGet_loadWrites_high {m : SMap Word32} (hm : smWf 0 m = true) (hb : ∀ y ∈ xs, y.1 < 1024)
    (hd : (xs.map Prod.fst).Nodup) (hx : x ∈ xs) :
    smGet 0 (smSetAll 0 m (vCells (s.loadWrites true n xs))) (s.vpos (n + 1) * 1024 + x.1)
      = BitVec.ofNat 32 (x.2 / 2 ^ 32) := by
  obtain ⟨as, bs, rfl⟩ := List.append_of_mem hx
  rw [List.map_append, List.map_cons, List.nodup_middle, List.nodup_cons, List.mem_append, not_or] at hd
  have hbs := not_mem_vCells_loadWrites (s := s) (wide := true) (n := n) (pos := s.vpos (n + 1)) (hb x hx)
    (fun y hy => hb y (by simp [hy])) hd.1.2
  rw [vCells_loadWrites] at hbs ⊢
  rw [List.flatMap_append, List.flatMap_cons, List.cons_append, if_pos rfl, List.append_cons]
  exact smGet_smSetAll_last hm _ _ _ hbs

/-- A lane given zero reads zero in each register written. -/
theorem smGet_loadWrites_zero {m : SMap Word32} (hm : smWf 0 m = true) (hb : ∀ y ∈ xs, y.1 < 1024)
    (hd : (xs.map Prod.fst).Nodup) {r l : Nat} (hr : r = n ∨ wide = true ∧ r = n + 1) (hx : (l, 0) ∈ xs) :
    smGet 0 (smSetAll 0 m (vCells (s.loadWrites wide n xs))) (s.vpos r * 1024 + l) = 0 := by
  have high : smGet 0 (smSetAll 0 m (vCells (s.loadWrites true n xs))) (s.vpos (n + 1) * 1024 + l) = 0 := by
    simpa using smGet_loadWrites_high (s := s) (n := n) hm hb hd hx
  obtain rfl | ⟨rfl, rfl⟩ := hr
  · by_cases hw : wide = false ∨ s.vpos r ≠ s.vpos (r + 1)
    · exact smGet_loadWrites_low hm hb hd hx hw
    · simp only [not_or, Bool.not_eq_false, not_not] at hw
      obtain ⟨rfl, hp⟩ := hw
      rw [hp]
      exact high
  · exact high

/-- The side-band of a group without a written lane stays. -/
theorem smGet_side_loadWrites_of_ne {m : SMap SideBand} (hm : smWf 0 m = true) {pos g : Nat} (hg : g < 64)
    (hx : ∀ x ∈ xs, x.1 < 1024 ∧ x.1 / 16 ≠ g) :
    smGet 0 (smSetAll 0 m (sideCells (s.loadWrites wide n xs))) (pos * 64 + g) = smGet 0 m (pos * 64 + g) := by
  refine smGet_smSetAll_of_not_mem hm fun w hw => ?_
  rw [sideCells_loadWrites, List.mem_flatMap] at hw
  obtain ⟨x, hxs, hw⟩ := hw
  have := hx x hxs
  simp only [List.mem_cons, List.mem_ite_nil_right, List.not_mem_nil, or_false] at hw
  obtain rfl | ⟨-, rfl⟩ := hw <;> dsimp only <;> omega

/-- The side-band of every group with a written lane clears (R29). -/
theorem smGet_side_loadWrites_zero {m : SMap SideBand} (hm : smWf 0 m = true) {r : Nat}
    (hr : r = n ∨ wide = true ∧ r = n + 1) (hx : x ∈ xs) :
    smGet 0 (smSetAll 0 m (sideCells (s.loadWrites wide n xs))) (s.vpos r * 64 + x.1 / 16) = 0 := by
  have hcells (w : Nat × SideBand) : w ∈ sideCells (s.loadWrites wide n xs) ↔ ∃ y ∈ xs,
      w = (s.vpos n * 64 + y.1 / 16, 0) ∨ wide = true ∧ w = (s.vpos (n + 1) * 64 + y.1 / 16, 0) := by
    rw [sideCells_loadWrites, List.mem_flatMap]
    simp only [List.mem_cons, List.mem_ite_nil_right, List.not_mem_nil, or_false]
  refine smGet_smSetAll_of_forall hm ⟨(s.vpos r * 64 + x.1 / 16, 0), (hcells _).mpr ⟨x, hx, ?_⟩, rfl⟩ fun w hw _ => ?_
  · obtain rfl | ⟨hw, rfl⟩ := hr
    · exact .inl rfl
    · exact .inr ⟨hw, rfl⟩
  · obtain ⟨y, -, rfl | ⟨-, rfl⟩⟩ := (hcells w).mp hw <;> rfl

end

/-! ### Sectors (R280) -/

/-- The register writes of whole groups: each with its data and its side-band. -/
def State.groupsWrites (s : State) (n : Nat) (ys : List (Nat × Nat × Nat)) : List RegWrite :=
  ys.flatMap (fun y => s.groupWrites n y.1 y.2.1 y.2.2)

section
variable {s : State} {n : Nat} {ys : List (Nat × Nat × Nat)}

theorem mem_vCells_groupsWrites {w : Nat × Word32} : w ∈ vCells (s.groupsWrites n ys) ↔ ∃ y ∈ ys, ∃ j < 16,
    w = (s.vpos n * 1024 + (16 * y.1 + j), BitVec.ofNat 32 (y.2.1 / 2 ^ (32 * j))) := by
  simp only [vCells, State.groupsWrites, State.groupWrites, List.filterMap_flatMap, List.mem_flatMap, List.filterMap_append,
    List.filterMap_map, List.mem_append, List.mem_filterMap, List.mem_range, Function.comp_apply, Option.some.injEq,
    List.mem_singleton, exists_eq_left, reduceCtorEq, or_false, eq_comm (b := w)]

theorem mem_sideCells_groupsWrites {w : Nat × SideBand} : w ∈ sideCells (s.groupsWrites n ys) ↔ ∃ y ∈ ys,
    w = (s.vpos n * 64 + y.1, BitVec.ofNat 64 y.2.2) := by
  simp [sideCells, State.groupsWrites, State.groupWrites, List.filterMap_flatMap]

theorem sCells_groupsWrites : sCells (s.groupsWrites n ys) = [] := by
  simp [sCells, State.groupsWrites, State.groupWrites, List.filterMap_flatMap]

/-- Lane `j` of a written group. -/
theorem smGet_groupsWrites {m : SMap Word32} (hm : smWf 0 m = true) (hd : (ys.map Prod.fst).Nodup)
    {y : Nat × Nat × Nat} (hy : y ∈ ys) {j : Nat} (hj : j < 16) :
    smGet 0 (smSetAll 0 m (vCells (s.groupsWrites n ys))) (s.vpos n * 1024 + (16 * y.1 + j))
      = BitVec.ofNat 32 (y.2.1 / 2 ^ (32 * j)) := by
  refine smGet_smSetAll_of_forall hm ⟨_, mem_vCells_groupsWrites.mpr ⟨y, hy, j, hj, rfl⟩, rfl⟩ fun w hw he => ?_
  obtain ⟨z, hz, k, hk, rfl⟩ := mem_vCells_groupsWrites.mp hw
  dsimp only at he
  obtain rfl : k = j := by omega
  obtain rfl : z = y := List.inj_on_of_nodup_map hd hz hy (by omega)
  rfl

/-- The side-band of a written group. -/
theorem smGet_side_groupsWrites {m : SMap SideBand} (hm : smWf 0 m = true) (hd : (ys.map Prod.fst).Nodup)
    {y : Nat × Nat × Nat} (hy : y ∈ ys) :
    smGet 0 (smSetAll 0 m (sideCells (s.groupsWrites n ys))) (s.vpos n * 64 + y.1) = BitVec.ofNat 64 y.2.2 := by
  refine smGet_smSetAll_of_forall hm ⟨_, mem_sideCells_groupsWrites.mpr ⟨y, hy, rfl⟩, rfl⟩ fun w hw he => ?_
  obtain ⟨z, hz, rfl⟩ := mem_sideCells_groupsWrites.mp hw
  dsimp only at he
  obtain rfl : z = y := List.inj_on_of_nodup_map hd hz hy (by omega)
  rfl

/-- A group that no write names keeps its lanes. -/
theorem smGet_groupsWrites_of_ne {m : SMap Word32} (hm : smWf 0 m = true) {g j : Nat} (hg : ∀ y ∈ ys, y.1 ≠ g)
    (hj : j < 16) : smGet 0 (smSetAll 0 m (vCells (s.groupsWrites n ys))) (s.vpos n * 1024 + (16 * g + j))
      = smGet 0 m (s.vpos n * 1024 + (16 * g + j)) := by
  refine smGet_smSetAll_of_not_mem hm fun w hw => ?_
  obtain ⟨y, hy, k, hk, rfl⟩ := mem_vCells_groupsWrites.mp hw
  have := hg y hy
  dsimp only
  omega

/-- A group that no write names keeps its side-band. -/
theorem smGet_side_groupsWrites_of_ne {m : SMap SideBand} (hm : smWf 0 m = true) {g : Nat} (hg : ∀ y ∈ ys, y.1 ≠ g) :
    smGet 0 (smSetAll 0 m (sideCells (s.groupsWrites n ys))) (s.vpos n * 64 + g) = smGet 0 m (s.vpos n * 64 + g) := by
  refine smGet_smSetAll_of_not_mem hm fun w hw => ?_
  obtain ⟨y, hy, rfl⟩ := mem_sideCells_groupsWrites.mp hw
  have := hg y hy
  dsimp only
  omega

end

end Sys2Proof.Machine
end

section
/-!
PROOF. Loads: a load issues without touching a register, and LOAD_DATA_RETURN writes what memory held (R275..R280).
-/
namespace Sys2Proof.Machine

/-! ### Issue and return -/

@[simp] theorem State.retire_issued (s : State) : s.retire.issued = s.issued + 1 := by
  unfold State.retire
  dsimp only
  split <;> rfl

/-- Opening a lookahead window gives the load its name and may add the window, nothing else (R182). -/
theorem openWindow_frame (s : State) (la : Nat) (done : Bool) (i : Instr) : ∃ n looks,
    s.openWindow la done i = { s with team := { s.team with nextLoad := n, looks := looks } } := by
  unfold State.openWindow
  split <;> exact ⟨_, _, rfl⟩

/-- State `r` is `s` after a load has issued that will write `ws`: the registers, the register window and every store are
those of `s`. -/
structure LoadIssued (s : State) (ws : List RegWrite) (r : State) : Prop where
  issued : r.issued = s.issued + 1
  regs : r.team.regs = s.team.regs
  win : r.team.win = s.team.win
  blk : r.blk = s.blk
  blocks : r.blocks = s.blocks
  hub : r.hub = s.hub
  mem : r.mem = s.mem
  memSide : r.memSide = s.memSide
  loads : ∃ ld, r.team.loads = s.team.loads ++ [ld] ∧ ld.writes = ws ∧ ld.poison = none

theorem loadIssued_startLoad (s : State) (k : AccKind) (as : List (Nat × Word64)) (la : Nat) (i : Instr)
    (ws : List RegWrite) : LoadIssued s ws ((s.noteTlb k as).startLoad la i ws none).retire := by
  obtain ⟨c, a, hn⟩ := (MarksOnly.refl s).noteTlb (k := k) (ps := as)
  obtain ⟨n, looks, ho⟩ := openWindow_frame (s.noteTlb k as) la false i
  unfold State.startLoad
  rw [ho, hn]
  constructor <;> simp

/-- The team without a load in flight, the lookahead windows of load `lid` marked as done (R182). -/
def Team.dropLoad (t : Team) (lid : Nat) : Team :=
  { t with loads := [], looks := t.looks.map (fun y => if y.lid = lid then { y with done := true } else y) }

section
variable {s : State} {ld : Load}

/-- The return of the only load in flight, whose data is sound. -/
theorem exec_loadDataReturn (hl : s.team.loads = [ld]) (hp : ld.poison = none) : exec .loadDataReturn s =
    .next { s with team := ld.writes.foldl Team.applyWrite (s.team.dropLoad ld.lid) } := by
  show execLoadDataReturn s = _
  unfold execLoadDataReturn
  simp only [hl, hp]
  rfl

/-- The return of the only load in flight, whose data is poisoned: MEMORY_POISON at the load (R277). -/
theorem exec_loadDataReturn_poison (hl : s.team.loads = [ld]) {lane : Nat} {a : Word64}
    (hp : ld.poison = some (lane, a)) : exec .loadDataReturn s = .next (takeFault
      { cause := .memoryPoison, plane := ld.plane, lane := lane, addr := a, code := 0, restart := ld.off, spill := false }
      { s with team := s.team.dropLoad ld.lid }) := by
  show execLoadDataReturn s = _
  unfold execLoadDataReturn
  simp only [hl, hp]
  rfl

end

/-- The state `v` has the registers of `s` after the writes `ws`, and its register window. -/
structure Loaded (s : State) (ws : List RegWrite) (v : State) : Prop where
  regs : v.team.regs = { v := smSetAll 0 s.team.regs.v (vCells ws), side := smSetAll 0 s.team.regs.side (sideCells ws),
                         s := smSetAll 0 s.team.regs.s (sCells ws), p := s.team.regs.p }
  vpos : ∀ n, v.vpos n = s.vpos n

section
variable {s v : State} {ws : List RegWrite}

theorem Loaded.getV (h : Loaded s ws v) (n l : Nat) :
    v.getV n l = smGet 0 (smSetAll 0 s.team.regs.v (vCells ws)) (s.vpos n * 1024 + l) := by
  rw [State.getV, h.regs, h.vpos]

theorem Loaded.getSide (h : Loaded s ws v) (n g : Nat) :
    v.getSide n g = smGet 0 (smSetAll 0 s.team.regs.side (sideCells ws)) (s.vpos n * 64 + g) := by
  rw [State.getSide, h.regs, h.vpos]

theorem LoadIssued.sameBytes {r : State} (h : LoadIssued s ws r) : sameBytes s r :=
  sameBytes_of_stores h.mem h.memSide h.hub h.blk h.blocks

/-- The data of a load that issued with none in flight returns into the registers and goes nowhere else. -/
theorem LoadIssued.returns {r : State} (h : LoadIssued s ws r) (hl : s.team.loads = []) : ∃ v,
    exec .loadDataReturn r = .next v ∧ v.team.loads = [] ∧ Sys2Proof.sameBytes s v ∧ Loaded s ws v := by
  obtain ⟨ld, hld, rfl, hp⟩ := h.loads
  rw [hl] at hld
  have hv := exec_loadDataReturn hld hp
  rw [foldl_applyWrite_frame, foldl_applyWrite_regs] at hv
  refine ⟨_, hv, rfl, h.sameBytes, ⟨?_, fun n => ?_⟩⟩
  · simp only [Team.dropLoad, h.regs]
  · simp only [State.vpos, Team.dropLoad, h.win, h.blk]

end

/-- The word issues as a load: nothing but the issue itself is seen until LOAD_DATA_RETURN answers a state with `got`,
which has no load in flight and the same memory and predicates. -/
def LoadReturns (s : State) (i : Instr) (got : State → Prop) : Prop :=
  ∃ r v, exec i s = .next r ∧ tookEffect s r ∧ r.team.regs = s.team.regs ∧ sameBytes s r
    ∧ exec .loadDataReturn r = .next v ∧ v.team.loads = [] ∧ v.team.regs.p = s.team.regs.p ∧ sameBytes s v ∧ got v

/-- A word that starts a load of sound data, with no other load in flight. -/
theorem loadReturns_of_startLoad {s : State} {i j : Instr} {k : AccKind} {as : List (Nat × Word64)} {la : Nat}
    {ws : List RegWrite} {got : State → Prop} (hl : s.team.loads = [])
    (hx : exec i s = .next ((s.noteTlb k as).startLoad la j ws none).retire) (hg : ∀ v, Loaded s ws v → got v) :
    LoadReturns s i got := by
  have hr := loadIssued_startLoad s k as la j ws
  obtain ⟨v, hv, hvl, hvb, hload⟩ := hr.returns hl
  exact ⟨_, v, hx, hr.issued, hr.regs, hr.sameBytes, hv, hvl, by rw [hload.regs], hvb, hg v hload⟩

/-! ### Scalar loads (R278) -/

theorem scalarLoad_ok {s : State} {i : Instr} {t b o la w : Nat} {p : Place} (hz : s.iss.hazard = none)
    (ha : s.accessOne .load (s.msAddr b o w) w w = .ok p) (hp : s.poisonAt p = false) :
    s.scalarLoad i t b o la w = .ok ((s.noteTlb .load [(0, s.msAddr b o w)]).startLoad la i
      [.s t (BitVec.ofNat 64 (s.readAt p w))] none).retire := by
  unfold State.scalarLoad
  rw [hazardCheck_ok hz]
  simp only [bind, Except.bind, ha, hp]
  rfl

/-- A scalar load writes its register and no other. -/
theorem scalarLoad_returns {s : State} {i j : Instr} {t b o la w : Nat} {p : Place} (hs : storesWf s = true)
    (hl : s.team.loads = []) (hx : exec i s = answer s (s.scalarLoad j t b o la w)) (hz : s.iss.hazard = none)
    (ha : s.accessOne .load (s.msAddr b o w) w w = .ok p) (hp : s.poisonAt p = false) :
    LoadReturns s i (fun v => (t < 192 → v.getS t = BitVec.ofNat 64 (s.readAt p w)) ∧ (∀ m, m ≠ t → v.getS m = s.getS m)
      ∧ v.team.regs.v = s.team.regs.v) := by
  rw [scalarLoad_ok hz ha hp] at hx
  have hw := (storesWf_regs hs).2.2.1
  refine loadReturns_of_startLoad hl hx fun v hv => ⟨fun ht => ?_, fun m hm => ?_, by rw [hv.regs]; rfl⟩
  · simp only [State.getS, hv.regs, sCells, List.filterMap_cons, List.filterMap_nil, ht, if_true]
    exact smGet_smSet_self hw _ _
  · unfold State.getS
    rw [hv.regs]
    split
    · refine smGet_smSetAll_of_not_mem hw fun c hc => ?_
      simp only [sCells, List.mem_filterMap, List.mem_singleton, exists_eq_left, Option.ite_none_right_eq_some,
        Option.some.injEq] at hc
      obtain ⟨-, rfl⟩ := hc
      exact Ne.symm hm
    · rfl

end Sys2Proof.Machine
end

section
/-!
PROOF. Vector loads: which lanes and groups take data or zeros, and that their words issue as loads of them (R279, R280).
-/
namespace Sys2Proof.Machine

section
variable {s : State}

/-! ### Places and lanes -/

/-- What each step of a traversal answers stands in order in the traversal's answer. -/
theorem map_of_mapM_ok {ε α β γ : Type} {f : α → Except ε β} {p : α → γ} {q : β → γ}
    (hf : ∀ a b, f a = .ok b → q b = p a) {l : List α} {r : List β} (h : l.mapM f = .ok r) : r.map q = l.map p := by
  induction l generalizing r with
  | nil => cases h; rfl
  | cons a l ih =>
    rw [List.mapM_cons] at h
    cases ha : f a with
    | error e => rw [ha] at h; cases h
    | ok b =>
      cases hm : l.mapM f with
      | error e => rw [ha, hm] at h; cases h
      | ok bs =>
        rw [ha, hm] at h
        cases h
        rw [List.map_cons, List.map_cons, hf a b ha, ih hm]

/-- Every lane that accesses memory gets a place, in order (R275). -/
theorem map_fst_accessAll {k : AccKind} {range align : Nat} {as : List (Nat × Word64)} {ps : List (Nat × Place)}
    (h : s.accessAll k range align as = .ok ps) : ps.map Prod.fst = as.map Prod.fst := by
  have tagged {α β : Type} (a : α) (x : Except FaultInfo β) (b : α × β) (hb : (do return (a, ← x)) = Except.ok b) :
      b.1 = a := by
    cases x with
    | error e => cases hb
    | ok y => cases hb; rfl
  unfold State.accessAll at h
  cases hts : as.mapM (fun p => do return (p, ← s.laneFault p.1 p.2 (s.checkAddr p.2 range align p.1))) with
  | error e => rw [hts] at h; cases h
  | ok ts =>
    rw [hts] at h
    calc ps.map Prod.fst = ts.map (fun t => t.1.1) := map_of_mapM_ok (fun t b => tagged t.1.1 _ b) h
      _ = (ts.map Prod.fst).map Prod.fst := by rw [List.map_map]; rfl
      _ = as.map Prod.fst := by rw [map_of_mapM_ok (p := id) (fun a b => tagged a _ b) hts, List.map_id]

/-- Sound data raises nothing. -/
theorem firstPoison_none {as : List (Nat × Word64)} {ps : List (Nat × Place)}
    (hp : ∀ p ∈ ps, s.poisonAt p.2 = false) : s.firstPoison as ps = none := by
  have hf : (as.zip ps).find? (fun x => s.poisonAt x.2.2) = none :=
    List.find?_eq_none.mpr fun x hx => by simp [hp x.2 (List.of_mem_zip hx).2]
  rw [State.firstPoison, hf]
  rfl

theorem mem_lanesOf {size l : Nat} {m : Mask} : l ∈ lanesOf size m ↔ l < size ∧ m.getLsbD l = true := by
  simp [lanesOf]

theorem nodup_lanesOf (size : Nat) (m : Mask) : (lanesOf size m).Nodup := List.nodup_range.filter _

theorem mem_groupsOf {size g : Nat} {m : Mask} : g ∈ groupsOf size m ↔ g < size / 16 ∧ m &&& groupMask g ≠ 0 := by
  simp [groupsOf]

theorem nodup_groupsOf (size : Nat) (m : Mask) : (groupsOf size m).Nodup := List.nodup_range.filter _

theorem sextInt_toNat (x : Word32) : sextInt x.toNat 32 = x.toInt := by
  have := x.isLt
  unfold sextInt
  rw [BitVec.toInt_eq_toNat_cond]
  dsimp only
  split <;> split <;> omega

/-- Address of a lane of an M word, in the words of R174. -/
theorem laneAddr_eq (b x u w l : Nat) : s.laneAddr b x u w l =
    s.getS b + if u = 1 then BitVec.ofNat 64 ((l + x) * w) else (s.getV x l).signExtend 64 := by
  unfold State.laneAddr
  rw [BitVec.ofInt_add, BitVec.ofInt_natCast, BitVec.ofNat_toNat, BitVec.setWidth_eq]
  split
  · rw [BitVec.ofInt_natCast]
  · rw [sextInt_toNat]
    rfl

/-- A lane that MZ zeroes: active, not selected (R178). -/
abbrev State.zeroed (s : State) (lane : Nat) : Prop :=
  lane < s.team.size ∧ s.mz = true ∧ s.iss.lanes.getLsbD lane = true ∧ s.selected.getLsbD lane = false

theorem mem_mzLanes (hsz : s.team.size ≤ 1024) {x : Nat × Nat} : x ∈ s.mzLanes ↔ s.zeroed x.1 ∧ x.2 = 0 := by
  unfold State.mzLanes
  split
  · next hm =>
    simp only [List.mem_map, mem_lanesOf, BitVec.getLsbD_and, BitVec.getLsbD_not, Bool.and_eq_true, Bool.not_eq_true',
      decide_eq_true_eq]
    constructor
    · rintro ⟨l, ⟨hl, hi, -, hs⟩, rfl⟩
      exact ⟨⟨hl, hm, hi, hs⟩, rfl⟩
    · rintro ⟨⟨hl, -, hi, hs⟩, h0⟩
      exact ⟨x.1, ⟨hl, hi, by omega, hs⟩, by rw [← h0]⟩
  · next hm => simp [hm]

/-! ### The lanes of an element load -/

/-- The lanes that an element load writes: those with a place take its bytes, those that MZ zeroes take 0. -/
def State.loadedLanes (s : State) (ps : List (Nat × Place)) (w : Nat) : List (Nat × Nat) :=
  ps.map (fun p => (p.1, s.readAt p.2 w)) ++ s.mzLanes

section
variable {ps : List (Nat × Place)} {w : Nat} (hsz : s.team.size ≤ 1024)
include hsz

theorem mem_loadedLanes {x : Nat × Nat} : x ∈ s.loadedLanes ps w ↔
    (∃ p ∈ ps, (p.1, s.readAt p.2 w) = x) ∨ s.zeroed x.1 ∧ x.2 = 0 := by
  rw [State.loadedLanes, List.mem_append, List.mem_map, mem_mzLanes hsz]

theorem lt_of_mem_loadedLanes (hps : ps.map Prod.fst = lanesOf s.team.size s.selected) :
    ∀ x ∈ s.loadedLanes ps w, x.1 < 1024 := by
  intro x hx
  obtain ⟨p, hp, rfl⟩ | ⟨⟨hl, -⟩, -⟩ := (mem_loadedLanes hsz).mp hx
  · have := (mem_lanesOf.mp (hps ▸ List.mem_map_of_mem hp)).1
    dsimp only
    omega
  · omega

theorem nodup_loadedLanes (hps : ps.map Prod.fst = lanesOf s.team.size s.selected) :
    ((s.loadedLanes ps w).map Prod.fst).Nodup := by
  have hz : (s.mzLanes.map Prod.fst).Nodup := by
    unfold State.mzLanes
    split
    · rw [List.map_map]
      exact (nodup_lanesOf _ _).map fun _ _ h => h
    · exact List.nodup_nil
  rw [State.loadedLanes, List.map_append, List.map_map, show Prod.fst ∘ (fun p : Nat × Place => (p.1, s.readAt p.2 w))
    = Prod.fst from rfl, hps]
  refine (nodup_lanesOf _ _).append hz fun l hl hl' => ?_
  obtain ⟨x, hx, rfl⟩ := List.mem_map.mp hl'
  have hsel := (mem_lanesOf.mp hl).2
  rw [((mem_mzLanes hsz).mp hx).1.2.2.2] at hsel
  cases hsel

end

/-- What an element load of `w` bytes at the places `ps` leaves in vT, and for 64 bits in vT + 1 (R29, R178, R279). -/
def LanesLoaded (s : State) (t w : Nat) (ps : List (Nat × Place)) (v : State) : Prop :=
  (∀ p ∈ ps, (w < 8 ∨ s.vpos t ≠ s.vpos (t + 1) → v.getV t p.1 = BitVec.ofNat 32 (s.readAt p.2 w))
    ∧ (w = 8 → v.getV (t + 1) p.1 = BitVec.ofNat 32 (s.readAt p.2 w / 2 ^ 32)))
  ∧ (∀ lane, lane < 1024 → (∀ p ∈ ps, p.1 ≠ lane) →
    v.getV t lane = (if s.zeroed lane then 0 else s.getV t lane)
    ∧ (w = 8 → v.getV (t + 1) lane = if s.zeroed lane then 0 else s.getV (t + 1) lane))
  ∧ (∀ g, g < 64 → ∀ m, m = t ∨ (w = 8 ∧ m = t + 1) →
    ((∃ lane, lane / 16 = g ∧ ((∃ p ∈ ps, p.1 = lane) ∨ s.zeroed lane)) → v.getSide m g = 0)
    ∧ (¬(∃ lane, lane / 16 = g ∧ ((∃ p ∈ ps, p.1 = lane) ∨ s.zeroed lane)) → v.getSide m g = s.getSide m g))
  ∧ v.team.regs.s = s.team.regs.s

theorem lanesLoaded_of_loaded {t w : Nat} {ps : List (Nat × Place)} {v : State} (hs : storesWf s = true)
    (hsz : s.team.size ≤ 1024) (hps : ps.map Prod.fst = lanesOf s.team.size s.selected)
    (hv : Loaded s (s.loadWrites (w = 8) t (s.loadedLanes ps w)) v) : LanesLoaded s t w ps v := by
  obtain ⟨hwv, hwside, -, -⟩ := storesWf_regs hs
  have hlt := lt_of_mem_loadedLanes (w := w) hsz hps
  have hnd := nodup_loadedLanes (w := w) hsz hps
  refine ⟨fun p hp => ⟨fun hw => ?_, fun hw => ?_⟩, fun lane hl hne => ?_, fun g hg m hm => ⟨?_, ?_⟩, ?_⟩
  · rw [hv.getV]
    exact smGet_loadWrites_low hwv hlt hnd ((mem_loadedLanes hsz).mpr (.inl ⟨p, hp, rfl⟩))
      (hw.imp (fun h => decide_eq_false (Nat.ne_of_lt h)) id)
  · subst hw
    rw [hv.getV]
    exact smGet_loadWrites_high hwv hlt hnd ((mem_loadedLanes hsz).mpr (.inl ⟨p, hp, rfl⟩))
  · by_cases hz : s.zeroed lane
    · have hx : (lane, 0) ∈ s.loadedLanes ps w := (mem_loadedLanes hsz).mpr (.inr ⟨hz, rfl⟩)
      rw [if_pos hz, if_pos hz, hv.getV, hv.getV]
      exact ⟨smGet_loadWrites_zero hwv hlt hnd (.inl rfl) hx,
        fun hw => smGet_loadWrites_zero hwv hlt hnd (.inr ⟨decide_eq_true hw, rfl⟩) hx⟩
    · have hx : ∀ x ∈ s.loadedLanes ps w, x.1 < 1024 ∧ x.1 ≠ lane := fun x hx => ⟨hlt x hx, by
        obtain ⟨p, hp, rfl⟩ | ⟨hzx, -⟩ := (mem_loadedLanes hsz).mp hx
        · exact hne p hp
        · exact fun he => hz (he ▸ hzx)⟩
      rw [if_neg hz, if_neg hz, hv.getV, hv.getV]
      exact ⟨smGet_loadWrites_of_ne hwv hl hx, fun _ => smGet_loadWrites_of_ne hwv hl hx⟩
  · rintro ⟨lane, rfl, hlane⟩
    have hx : ∃ x ∈ s.loadedLanes ps w, x.1 = lane := by
      obtain ⟨p, hp, rfl⟩ | hz := hlane
      · exact ⟨_, (mem_loadedLanes hsz).mpr (.inl ⟨p, hp, rfl⟩), rfl⟩
      · exact ⟨(lane, 0), (mem_loadedLanes hsz).mpr (.inr ⟨hz, rfl⟩), rfl⟩
    obtain ⟨x, hx, rfl⟩ := hx
    rw [hv.getSide]
    exact smGet_side_loadWrites_zero hwside (hm.imp_right fun h => ⟨decide_eq_true h.1, h.2⟩) hx
  · intro hno
    rw [hv.getSide]
    refine smGet_side_loadWrites_of_ne hwside hg fun x hx => ⟨hlt x hx, fun he => hno ⟨x.1, he, ?_⟩⟩
    obtain ⟨p, hp, rfl⟩ | ⟨hz, -⟩ := (mem_loadedLanes hsz).mp hx
    · exact .inl ⟨p, hp, rfl⟩
    · exact .inr hz
  · rw [hv.regs, sCells_loadWrites]
    rfl

theorem memChecks_ok {wide : Bool} {vs idx : List Nat} (h : vecReady s true wide vs false idx) :
    s.memChecks wide vs idx = .ok () := by
  obtain ⟨he, -, -, hz, hw, hwi⟩ := h
  unfold State.memChecks
  rw [vectorChecks_ok he rfl hz hw, need_ok hwi]
  rfl

/-- A vector element load. -/
theorem vectorLoad_returns {i j : Instr} {t b x la u w : Nat} {ps : List (Nat × Place)} (hs : storesWf s = true)
    (hl : s.team.loads = []) (hsz : s.team.size ≤ 1024) (hx : exec i s = answer s (s.vectorLoad j t b x la u w))
    (hr : vecReady s true (w = 8) [t] false (indexRegs x u))
    (ha : s.accessAll .load w w (s.laneAddrs b x u w) = .ok ps) (hp : ∀ p ∈ ps, s.poisonAt p.2 = false) :
    LoadReturns s i (LanesLoaded s t w ps) := by
  have hps : ps.map Prod.fst = lanesOf s.team.size s.selected := by
    rw [map_fst_accessAll ha, State.laneAddrs, List.map_map]
    exact List.map_id _
  have hload : s.vectorLoad j t b x la u w = .ok ((s.noteTlb .load (s.laneAddrs b x u w)).startLoad la j
      (s.loadWrites (w = 8) t (s.loadedLanes ps w)) none).retire := by
    unfold State.vectorLoad
    rw [memChecks_ok hr]
    simp only [bind, Except.bind, ha, firstPoison_none hp]
    rfl
  exact loadReturns_of_startLoad hl (hx.trans (congrArg (answer s) hload)) fun v hv =>
    lanesLoaded_of_loaded hs hsz hps hv

/-! ### The groups of VLDB -/

/-- A group that MZ zeroes if none of its lanes is selected: some lane of it is active (R178, R267). -/
abbrev State.zeroedGroup (s : State) (g : Nat) : Prop :=
  g < s.team.size / 16 ∧ s.mz = true ∧ s.iss.lanes &&& groupMask g ≠ 0

/-- The groups that MZ zeroes: those with active lanes and no selected one (R178, R267). -/
def State.mzGroups (s : State) : List Nat :=
  if s.mz then (groupsOf s.team.size s.iss.lanes).filter (fun g => !(groupsOf s.team.size s.selected).contains g) else []

/-- The groups that VLDB writes, each with its data and side-band. -/
def State.loadedGroups (s : State) (ps : List (Nat × Place)) : List (Nat × Nat × Nat) :=
  ((groupsOf s.team.size s.selected).zip ps).map (fun p => (p.1, s.readAt p.2.2 64, (s.sideAt p.2.2).toNat))
    ++ s.mzGroups.map (fun g => (g, 0, 0))

theorem mem_mzGroups {g : Nat} :
    g ∈ s.mzGroups ↔ s.zeroedGroup g ∧ g ∉ groupsOf s.team.size s.selected := by
  unfold State.mzGroups
  split
  · next hm =>
    rw [List.mem_filter, mem_groupsOf, Bool.not_eq_true', List.contains_eq_mem, decide_eq_false_iff_not]
    exact and_congr_left' (and_congr_right fun _ => (and_iff_right hm).symm)
  · next hm => simp [hm]

theorem groupAddrs_eq (b x u : Nat) : s.groupAddrs b x u = (groupsOf s.team.size s.selected).map (fun g =>
    let lane := lowestLane s.team.size (s.selected &&& groupMask g)
    (g, lane, s.getS b + if u = 1 then BitVec.ofNat 64 ((g + x) * 64) else (s.getV x lane).signExtend 64)) := by
  refine congrArg (List.map · _) (funext fun g => ?_)
  dsimp only
  rw [laneAddr_eq, if_neg Nat.zero_ne_one]
  split <;> rfl

theorem map_fst_groupAddrs (b x u : Nat) : (s.groupAddrs b x u).map Prod.fst = groupsOf s.team.size s.selected := by
  rw [State.groupAddrs, List.map_map]
  exact List.map_id _

section
variable {ps : List (Nat × Place)} (hlen : ps.length = (groupsOf s.team.size s.selected).length)
include hlen

theorem map_fst_loadedGroups :
    (s.loadedGroups ps).map Prod.fst = groupsOf s.team.size s.selected ++ s.mzGroups := by
  rw [State.loadedGroups, List.map_append, List.map_map, List.map_map]
  exact congrArg₂ (· ++ ·) (List.map_fst_zip (Nat.le_of_eq hlen.symm)) (List.map_id _)

theorem nodup_loadedGroups :
    ((s.loadedGroups ps).map Prod.fst).Nodup := by
  have hz : s.mzGroups.Nodup := by
    unfold State.mzGroups
    split
    · exact (nodup_groupsOf _ _).filter _
    · exact List.nodup_nil
  rw [map_fst_loadedGroups hlen]
  exact (nodup_groupsOf _ _).append hz fun g hg hg' => (mem_mzGroups.mp hg').2 hg

end

/-- What VLDB at the places `ps` leaves in vT and its side-bands, group by group (R178, R280). -/
def GroupsLoaded (s : State) (t b x u : Nat) (ps : List (Nat × Place)) (v : State) : Prop :=
  (∀ (k g : Nat) (la : Nat × Word64) (p : Nat × Place), (s.groupAddrs b x u)[k]? = some (g, la) → ps[k]? = some p →
    (∀ j, j < 16 → v.getV t (16 * g + j) = BitVec.ofNat 32 (s.readAt p.2 64 / 2 ^ (32 * j)))
    ∧ v.getSide t g = s.sideAt p.2)
  ∧ (∀ g j, g < 64 → j < 16 → ¬(g < s.team.size / 16 ∧ s.selected &&& groupMask g ≠ 0) →
    v.getV t (16 * g + j) = (if s.zeroedGroup g then 0 else s.getV t (16 * g + j))
    ∧ v.getSide t g = (if s.zeroedGroup g then 0 else s.getSide t g))
  ∧ v.team.regs.s = s.team.regs.s

theorem groupsLoaded_of_loaded {t b x u : Nat} {ps : List (Nat × Place)} {v : State} (hs : storesWf s = true)
    (hlen : ps.length = (groupsOf s.team.size s.selected).length)
    (hv : Loaded s (s.groupsWrites t (s.loadedGroups ps)) v) : GroupsLoaded s t b x u ps v := by
  obtain ⟨hwv, hwside, -, -⟩ := storesWf_regs hs
  have hnd := nodup_loadedGroups hlen
  refine ⟨fun k g la p hg hp => ?_, fun g j _ hj hno => ?_, ?_⟩
  · have hpart : (groupsOf s.team.size s.selected)[k]? = some g := by
      rw [← map_fst_groupAddrs b x u, List.getElem?_map, hg]
      rfl
    have hy : (g, s.readAt p.2 64, (s.sideAt p.2).toNat) ∈ s.loadedGroups ps :=
      List.mem_append_left _ (List.mem_map.mpr
        ⟨(g, p), List.mem_of_getElem? (List.getElem?_zip_eq_some.mpr ⟨hpart, hp⟩), rfl⟩)
    refine ⟨fun j hj => ?_, ?_⟩
    · rw [hv.getV]
      exact smGet_groupsWrites hwv hnd hy hj
    · rw [hv.getSide, smGet_side_groupsWrites hwside hnd hy, BitVec.ofNat_toNat, BitVec.setWidth_eq]
  · have hsel : g ∉ groupsOf s.team.size s.selected := fun h => hno (mem_groupsOf.mp h)
    rw [hv.getV, hv.getSide]
    by_cases hz : g ∈ s.mzGroups
    · have hy : (g, 0, 0) ∈ s.loadedGroups ps := List.mem_append_right _ (List.mem_map.mpr ⟨g, hz, rfl⟩)
      have hmz := (mem_mzGroups.mp hz).1
      rw [if_pos hmz, if_pos hmz]
      refine ⟨?_, smGet_side_groupsWrites hwside hnd hy⟩
      simpa using smGet_groupsWrites (s := s) (n := t) hwv hnd hy hj
    · have hne : ∀ y ∈ s.loadedGroups ps, y.1 ≠ g := by
        rintro y hy rfl
        have := List.mem_map_of_mem (f := Prod.fst) hy
        rw [map_fst_loadedGroups hlen, List.mem_append] at this
        exact this.elim hsel hz
      have hmz : ¬s.zeroedGroup g := fun h => hz (mem_mzGroups.mpr ⟨h, hsel⟩)
      rw [if_neg hmz, if_neg hmz]
      exact ⟨smGet_groupsWrites_of_ne hwv hne hj, smGet_side_groupsWrites_of_ne hwside hne⟩
  · rw [hv.regs, sCells_groupsWrites]
    rfl

/-- VLDB. -/
theorem vldb_returns {t b x l u : Nat} {ps : List (Nat × Place)} (hs : storesWf s = true) (hl : s.team.loads = [])
    (hr : vecReady s true false [t] false (indexRegs x u))
    (ha : s.accessAll .load 64 64 ((s.groupAddrs b x u).map Prod.snd) = .ok ps) (hp : ∀ p ∈ ps, s.poisonAt p.2 = false) :
    LoadReturns s (.vldb t b x l u) (GroupsLoaded s t b x u ps) := by
  have hlen : ps.length = (groupsOf s.team.size s.selected).length := by
    rw [← map_fst_groupAddrs b x u, List.length_map, ← List.length_map (as := ps) Prod.fst, map_fst_accessAll ha,
      List.length_map, List.length_map]
  have hx : exec (.vldb t b x l u) s = .next ((s.noteTlb .load ((s.groupAddrs b x u).map Prod.snd)).startLoad l
      (.vldb t b x l u) (s.groupsWrites t (s.loadedGroups ps)) none).retire := by
    refine (answer_bind_ok (memChecks_ok hr)).trans ((answer_bind_ok ha).trans ?_)
    rw [firstPoison_none hp, map_fst_groupAddrs, State.groupsWrites, State.loadedGroups, List.flatMap_append,
      List.flatMap_map, List.flatMap_map]
    rfl
  exact loadReturns_of_startLoad hl hx fun v hv => groupsLoaded_of_loaded hs hlen hv

end

/-- Settles O43: the word's register writes are those of `loadedLanes` and `loadedGroups`, and LOAD_DATA_RETURN applies
them. -/
theorem loadsReturnData : Obligations.LoadsReturnData := by
  intro t b o l x u w s hs hl hsz returned sAddr lAddr as zeroed sLoad vLoad
  have has : as = s.laneAddrs b x u w := by
    simp only [as, lAddr, State.laneAddrs, laneAddr_eq]
  have vec {n : Nat} {i j : Instr} (hw : w = n) (hx : exec i s = answer s (s.vectorLoad j t b x l u n)) : vLoad i := by
    intro ps hr ha hp
    rw [has] at ha
    exact vectorLoad_returns hs hl hsz (hw ▸ hx) hr ha hp
  refine ⟨fun hz => ⟨fun p ha hp => ?_, fun p ha hp => ?_⟩, fun hw => vec hw rfl, fun hw => vec hw rfl,
    fun hw => vec hw rfl, fun hw => vec hw rfl, fun _ hr => ⟨groupAddrs_eq b x u, fun ps ha hp => ?_⟩,
    fun ld lane a v hld hpo => ⟨_, rfl, rfl, rfl, rfl, exec_loadDataReturn_poison hld hpo⟩⟩
  · exact scalarLoad_returns hs hl rfl hz ha hp
  · exact scalarLoad_returns hs hl rfl hz ha hp
  · exact vldb_returns hs hl hr ha hp

end Sys2Proof.Machine
end

section
/-!
PROOF. A turn that issues: the step is the meaning of what was fetched (R86, R192), and the branches and splits of R74.
-/
namespace Sys2Proof.Machine

section
variable {s : State}

/-! ### One turn of a team that may issue -/

/-- A module that runs takes the turn that stands first on its agenda. -/
theorem step_eq_takeTurn {t : Turn} {rest : List Turn} (hd : s.amc.status ≠ .down)
    (ha : s.settle.tick.agenda = t :: rest) : step s = takeTurn { s.settle.tick with agenda := rest } t := by
  unfold step
  rw [if_neg hd]
  dsimp only
  rw [ha]

/-- The turn of a team that may issue and has no wait of a save call to take up. -/
theorem takeTurn_issue {uid : Nat} (hu : (s.focus uid).team.uid = uid)
    (hc : (s.focus uid).canIssue (s.focus uid).team = true) (hh : (s.focus uid).team.pre.held = none) :
    takeTurn s (.issue uid) = issueFocused (s.focus uid) := by
  simp [takeTurn, hu, hc, hh]

/-- The issue of a fetched instruction, before a deadline runs out. -/
theorem issueFocused_ok {i : Instr} {iss : Issue} (hd : s.team.deadline.any (fun d => d.1 ≤ d.2) = false)
    (hf : ({ s with iss := .none } : State).fetchIssue = .ok (i, iss)) :
    issueFocused s = runIssue ({ s with iss := .none } : State).noteFetch i iss := by
  unfold issueFocused
  rw [hd]
  dsimp only
  rw [hf]
  rfl

/-- The issue where the fetch faults. -/
theorem issueFocused_error {f : FaultInfo} (hd : s.team.deadline.any (fun d => d.1 ≤ d.2) = false)
    (hf : ({ s with iss := .none } : State).fetchIssue = .error f) :
    issueFocused s = runFetchFault { s with iss := .none } f := by
  unfold issueFocused
  rw [hd]
  dsimp only
  rw [hf]
  rfl

theorem runIssue_next {i : Instr} {iss : Issue} {t : State}
    (hb : s.blocker (iss.word / 2 ^ 25) (s.usesAt i iss) = none) (hx : exec i { s with iss := iss } = .next t) :
    runIssue s i iss = .next (countIssue s (iss.word / 2 ^ 25) t) := by
  unfold runIssue
  dsimp only
  rw [hb]
  dsimp only
  rw [hx]

theorem runIssue_blocked {i : Instr} {iss : Issue} {b : Nat × Instr × Nat}
    (hb : s.blocker (iss.word / 2 ^ 25) (s.usesAt i iss) = some b) :
    runIssue s i iss = runBlocker (s.stall (.issue (iss.word / 2 ^ 25) (s.usesAt i iss))) b := by
  unfold runIssue
  dsimp only
  rw [hb]

theorem runFetchFault_free {f : FaultInfo} (hb : s.blocker 0x7F [] = none) :
    runFetchFault s f = .next (takeFault f s.noteFetch) := by
  unfold runFetchFault
  rw [hb]

end

/-- Settles O5: the step takes the team's turn, the turn issues, and the issue runs what was fetched. -/
theorem stepRunsTheFetchedInstruction : Obligations.StepRunsTheFetchedInstruction := by
  intro s uid rest hd ha u hu hc hh hdl v
  have hturn := step_eq_takeTurn hd ha
  obtain ⟨w, hw⟩ : ∃ w, w = { s.settle.tick with agenda := rest } := ⟨_, rfl⟩
  have hfocus : u = w.focus uid := by rw [hw]
  clear_value u
  subst hfocus
  rw [← hw] at hturn
  have hstep := hturn.trans (takeTurn_issue hu hc hh)
  refine ⟨fun i iss hf => ?_, fun f hf hb => ?_⟩
  · have hrun := hstep.trans (issueFocused_ok hdl hf)
    exact ⟨fun t hb hx => hrun.trans (runIssue_next hb hx), fun b hb => hrun.trans (runIssue_blocked hb)⟩
  · exact hstep.trans ((issueFocused_error hdl hf).trans (runFetchFault_free hb))

end Sys2Proof.Machine
end

section
/-!
PROOF. Branches and splits (R74, R207, R216, R218): where each word goes on, and the fault that stops it.
-/
namespace Sys2Proof.Machine

section
variable {s : State}

/-! ### Targets -/

/-- A sign-extended field as a number is the signed value of its bits. -/
theorem sextInt_eq_toInt {n : Nat} (o : Nat) (hn : 0 < n) : sextInt o n = (BitVec.ofNat n o).toInt := by
  obtain ⟨k, rfl⟩ : ∃ k, n = k + 1 := ⟨n - 1, by omega⟩
  rw [sextInt, BitVec.toInt_eq_toNat_cond, BitVec.toNat_ofNat]
  simp only [Nat.add_one_ne_zero, if_false, Nat.add_sub_cancel, Nat.pow_succ]
  split_ifs <;> omega

/-- Four times a signed field, as R171 scales it. -/
theorem ofInt_four_mul_sextInt {n : Nat} (o : Nat) (hn : 0 < n) :
    BitVec.ofInt 32 (4 * sextInt o n) = (BitVec.ofNat n o).signExtend 32 <<< 2 := by
  rw [sextInt_eq_toInt o hn, BitVec.ofInt_mul, BitVec.shiftLeft_eq_mul_twoPow, BitVec.mul_comm]
  rfl

theorem relTarget_eq (s : State) (o : Nat) :
    s.relTarget o 20 = s.team.pc + ((BitVec.ofNat 20 o).signExtend 32 <<< 2) := by
  rw [State.relTarget, ofInt_four_mul_sextInt o (by decide)]

theorem targetOk_true {t : Word32} (h : inUpperCopy s.blk.k.planes t.toNat = false) : s.targetOk t = true := by
  rw [State.targetOk, h]
  rfl

theorem targetOk_false {t : Word32} (h : inUpperCopy s.blk.k.planes t.toNat = true) : s.targetOk t = false := by
  rw [State.targetOk, h]
  rfl

theorem jump_ok {t : Word32} (h : inUpperCopy s.blk.k.planes t.toNat = false) : s.jump t = .ok (s.goTo t) := by
  unfold State.jump
  rw [need_ok (targetOk_true h)]
  rfl

theorem jump_planeRange {t : Word32} (h : inUpperCopy s.blk.k.planes t.toNat = true) :
    s.jump t = .error (s.flt .planeRange) := by
  unfold State.jump
  rw [need_error (targetOk_false h)]
  rfl

/-! ### The reconvergence stack -/

/-- Entries with an empty mask are passed over. -/
theorem popLive_append {skipped es : List StackEntry} (h : ∀ y ∈ skipped, y.mask = 0) :
    popLive (skipped ++ es) = popLive es := by
  induction skipped with
  | nil => rfl
  | cons y ys ih =>
    rw [List.forall_mem_cons] at h
    simp [popLive, h.1, ih h.2]

theorem popLive_cons {e : StackEntry} {es : List StackEntry} (h : e.mask ≠ 0) : popLive (e :: es) = some (e, es) :=
  if_neg h

theorem popLive_none {es : List StackEntry} (h : ∀ y ∈ es, y.mask = 0) : popLive es = none := by
  simpa [popLive] using popLive_append (es := []) h

/-! ### SETJ, BRU, BRM, JMP and JMPI -/

theorem exec_setj (o : Nat) (h : s.team.lanes.stack.length < 32) : exec (.setj o) s = .next (s.withLanes
    { s.team.lanes with stack := ⟨true, s.relTarget o 20, s.team.lanes.active⟩ :: s.team.lanes.stack }).retireCtl :=
  answer_bind_ok (need_ok (by simpa using h) _)

theorem exec_setj_full (o : Nat) (h : 32 ≤ s.team.lanes.stack.length) :
    exec (.setj o) s = .next (takeFault (s.flt .joinStack) s) :=
  answer_bind_error (need_error (by simpa using h) _)

section
variable {p n o : Nat}

theorem exec_bru_all (h : s.team.lanes.active &&& s.branchGuard p n = s.team.lanes.active) :
    exec (.bru p n o) s = answer s (s.jump (s.relTarget o 20)) := by
  change answer s (if _ then _ else _) = _
  rw [if_pos h]

theorem exec_bru_none (h : s.team.lanes.active &&& s.branchGuard p n = 0) (ha : s.team.lanes.active ≠ 0) :
    exec (.bru p n o) s = .next s.retireCtl := by
  change answer s (if _ then _ else if _ then _ else _) = _
  rw [if_neg (fun hx => ha (hx.symm.trans h)), if_pos h]
  rfl

theorem exec_bru_nonuniform (h : s.team.lanes.active &&& s.branchGuard p n ≠ 0)
    (ha : s.team.lanes.active &&& s.branchGuard p n ≠ s.team.lanes.active) :
    exec (.bru p n o) s = .next (takeFault (s.flt .branchNonuniform) s) := by
  change answer s (if _ then _ else if _ then _ else _) = _
  rw [if_neg ha, if_neg h]
  rfl

/-- The lanes whose guard fails, where BRM has some on either side. -/
abbrev State.brmRest (s : State) (p n : Nat) : Mask :=
  s.team.lanes.active &&& ~~~(s.team.lanes.active &&& s.branchGuard p n)

theorem exec_brm_none (h : s.team.lanes.active &&& s.branchGuard p n = 0) :
    exec (.brm p n o) s = .next s.retireCtl := by
  change answer s (if _ then _ else _) = _
  rw [if_pos h]
  rfl

theorem exec_brm_all (h : s.team.lanes.active &&& s.branchGuard p n ≠ 0) (hr : s.brmRest p n = 0) :
    exec (.brm p n o) s = answer s (s.jump (s.relTarget o 20)) := by
  change answer s (if _ then _ else if _ then _ else _) = _
  rw [if_neg h, if_pos hr]

theorem exec_brm_full (h : s.team.lanes.active &&& s.branchGuard p n ≠ 0) (hr : s.brmRest p n ≠ 0)
    (hl : 32 ≤ s.team.lanes.stack.length) : exec (.brm p n o) s = .next (takeFault (s.flt .joinStack) s) := by
  change answer s (if _ then _ else if _ then _ else _) = _
  rw [if_neg h, if_neg hr]
  exact answer_bind_error (need_error (by simpa using hl) _)

theorem exec_brm_split (h : s.team.lanes.active &&& s.branchGuard p n ≠ 0) (hr : s.brmRest p n ≠ 0)
    (hl : s.team.lanes.stack.length < 32) : exec (.brm p n o) s = answer s (do
      let s1 ← s.jump (s.relTarget o 20)
      return s1.withLanes { s.team.lanes with
        active := s.team.lanes.active &&& s.branchGuard p n
        stack := ⟨false, s.nextPc, s.brmRest p n⟩ :: s.team.lanes.stack }) := by
  change answer s (if _ then _ else if _ then _ else _) = _
  rw [if_neg h, if_neg hr]
  exact answer_bind_ok (need_ok (by simpa using hl) _)

/-- A target in an upper copy stops a BRM that has room for what it pushes. -/
theorem exec_brm_planeRange (h : s.team.lanes.active &&& s.branchGuard p n ≠ 0)
    (hr : s.brmRest p n = 0 ∨ s.team.lanes.stack.length < 32)
    (ht : inUpperCopy s.blk.k.planes (s.relTarget o 20).toNat = true) :
    exec (.brm p n o) s = .next (takeFault (s.flt .planeRange) s) := by
  by_cases h0 : s.brmRest p n = 0
  · rw [exec_brm_all h h0, jump_planeRange ht]
    rfl
  · rw [exec_brm_split h h0 (hr.resolve_left h0)]
    exact answer_bind_error (jump_planeRange ht)

end

/-- JMPI's target, the low 32 bits of its register. -/
theorem exec_jmpi (a : Nat) (h : (BitVec.ofNat 32 (s.getS a).toNat).toNat % 4 = 0) :
    exec (.jmpi a) s = answer s (s.jump (BitVec.ofNat 32 (s.getS a).toNat)) := by
  rw [BitVec.toNat_ofNat] at h
  refine (answer_bind_ok (need_ok (by simpa using h) _)).trans ?_
  rw [← BitVec.toNat_ofNat, BitVec.ofNat_toNat, BitVec.setWidth_eq]

theorem exec_jmpi_align (a : Nat) (h : (BitVec.ofNat 32 (s.getS a).toNat).toNat % 4 ≠ 0) :
    exec (.jmpi a) s =
      .next (takeFault (s.fltAt .align 0 (BitVec.ofNat 64 (BitVec.ofNat 32 (s.getS a).toNat).toNat)) s) := by
  rw [BitVec.toNat_ofNat] at h ⊢
  exact answer_bind_error (need_error (by simpa using h) _)

/-! ### JOIN -/

theorem exec_join_refused (h : ∀ e ∈ s.team.lanes.stack.find? (fun e => e.isJoin), e.off ≠ s.team.pc) :
    exec .join s = .next (takeFault (s.flt .joinStack) s) := by
  refine answer_bind_error (need_error ?_ _)
  simpa [Option.any_eq_false] using h

/-- JOIN at the join that the nearest J entry names. -/
theorem exec_join (h : ∃ j, s.team.lanes.stack.find? (fun e => e.isJoin) = some j ∧ j.off = s.team.pc) :
    exec .join s = answer s (match popLive s.team.lanes.stack with
      | some (e, es) => do
        need (s.targetOk e.resume) (s.flt .planeRange)
        return (s.withLanes { s.team.lanes with active := e.mask, stack := es }).goTo e.resume
      | none => return { s.issueDone with team := s.issueDone.team.finish }) := by
  obtain ⟨j, hj, ho⟩ := h
  exact (answer_bind_ok (need_ok (by simp [hj, ho]) _)).trans rfl

end

/-- Settles O19: each word's checks pass or stop it as its clause says, and the target is that of R171. -/
theorem branchesAndSplits : Obligations.BranchesAndSplits := by
  intro p n o a s x tgt ok g rest ind
  have htgt : s.relTarget o 20 = tgt := relTarget_eq s o
  have bad (h : ¬ok) : inUpperCopy s.blk.k.planes (s.relTarget o 20).toNat = true := by simpa [ok, htgt] using h
  have jumps (h : ok) : s.jump (s.relTarget o 20) = .ok (s.goTo tgt) := by rw [htgt]; exact jump_ok h
  refine ⟨fun h => ?_, exec_setj_full o, fun hg h => ?_, fun hg h => ?_, exec_bru_none, exec_bru_nonuniform,
    exec_brm_none, fun hg hr h => ?_, exec_brm_full, fun hg hr h => exec_brm_planeRange hg hr (bad h),
    fun hg hr hl h => ?_, fun h => ?_, fun h => ?_, fun h ht => ?_, fun h ht => ?_, exec_jmpi_align a,
    exec_join_refused, fun skipped e below hs hk he hj => ?_, fun h hj => ?_⟩
  · rw [← htgt]
    exact exec_setj o h
  · rw [exec_bru_all hg, jumps h]
    rfl
  · rw [exec_bru_all hg, jump_planeRange (bad h)]
    rfl
  · rw [exec_brm_all hg hr, jumps h]
    rfl
  · rw [exec_brm_split hg hr hl]
    exact answer_bind_ok (jumps h)
  · exact congrArg (answer s) (jumps h)
  · exact congrArg (answer s) (jump_planeRange (bad h))
  · rw [exec_jmpi a h, jump_ok ht]
    rfl
  · rw [exec_jmpi a h, jump_planeRange ht]
    rfl
  · have hp : popLive s.team.lanes.stack = some (e, below) := by
      rw [show s.team.lanes.stack = _ from hs, popLive_append hk, popLive_cons he]
    rw [exec_join hj, hp]
    exact ⟨fun ht => answer_bind_ok (need_ok (targetOk_true ht) _),
      fun ht => answer_bind_error (need_error (targetOk_false ht) _)⟩
  · rw [exec_join hj, popLive_none h]
    rfl

end Sys2Proof.Machine
end

section
/-!
PROOF. EJECT (R75..R78, R217): the records it writes, and where the lanes that are left go on.
-/
namespace Sys2Proof.Machine

section
variable {s : State}

/-! ### An emptied active set outside calls (R75) -/

theorem emptied_of_active {allow : Bool} {n : Nat} (h : s.team.lanes.active ≠ 0) :
    s.emptied allow (n + 1) = .ok s := by
  unfold State.emptied
  exact if_pos h

section
variable {allow : Bool} {n : Nat} {e : StackEntry} {es : List StackEntry}

/-- The team goes on with the lanes of an entry, the stack below it left. -/
def State.resumeEntry (s : State) (e : StackEntry) (es : List StackEntry) : State :=
  { s with team := { s.team with lanes := { s.team.lanes with active := e.mask, stack := es }, pc := e.resume } }

theorem emptied_resumes (h : s.team.lanes.active = 0) (hd : s.team.win.depth = 0)
    (hp : popLive s.team.lanes.stack = some (e, es)) (ht : s.targetOk e.resume = true) :
    s.emptied allow (n + 1) = .ok (s.resumeEntry e es) := by
  unfold State.emptied
  dsimp only
  rw [if_neg (not_not_intro h), if_pos hd, hp]
  exact if_pos ht

theorem emptied_planeRange (h : s.team.lanes.active = 0) (hd : s.team.win.depth = 0)
    (hp : popLive s.team.lanes.stack = some (e, es)) (ht : s.targetOk e.resume = false) :
    s.emptied allow (n + 1) = .error (.fault (s.flt .planeRange)) := by
  unfold State.emptied
  dsimp only
  rw [if_neg (not_not_intro h), if_pos hd, hp]
  exact if_neg (by simp [ht])

theorem emptied_ends (h : s.team.lanes.active = 0) (hd : s.team.win.depth = 0)
    (hp : popLive s.team.lanes.stack = none) :
    s.emptied allow (n + 1) = .ok { s with team := s.team.finish } := by
  unfold State.emptied
  dsimp only
  rw [if_neg (not_not_intro h), if_pos hd, hp]

end

/-! ### Ejected lanes -/

/-- The records of the lanes of a mask, in ascending order (R77). -/
abbrev State.spawnRecords (s : State) (m : Mask) (stn : Nat) : List SpawnRec :=
  (lanesOf s.team.size m).map (fun l => s.spawnRecord l stn)

/-- The state in which the records stand in the area and the lanes have ended, before the active set is looked at. -/
def State.ejected (s : State) (m : Mask) (stn : Nat) : State :=
  let recs := s.spawnRecords m stn
  let b := s.blk.clearRange (s.blk.k.spawnOff + 72 * s.blk.spawn.length) (72 * recs.length)
  ({ s with blk := { b with spawn := s.blk.spawn ++ recs } } : State).withLanes (s.team.lanes.vacate m)

theorem ejectLanes_eq (m : Mask) (stn : Nat) : s.ejectLanes m stn =
    match (s.ejected m stn).emptied false (s.ejected m stn).frames with
    | .ok t => .ok t
    | .error (.fault f) => .error f
    | .error .spill => .ok (s.ejected m stn) := rfl

section
variable {m : Mask} {stn : Nat} {e : StackEntry} {es : List StackEntry}

/-- The stack without the lanes of a mask. -/
abbrev State.stackWithout (s : State) (m : Mask) : List StackEntry :=
  s.team.lanes.stack.map (fun e => { e with mask := e.mask &&& ~~~m })

theorem ejectLanes_of_active (h : s.team.lanes.active &&& ~~~m ≠ 0) : s.ejectLanes m stn = .ok (s.ejected m stn) := by
  rw [ejectLanes_eq, State.frames, emptied_of_active (s := s.ejected m stn) h]

theorem ejectLanes_resumes (h : s.team.lanes.active &&& ~~~m = 0) (hd : s.team.win.depth = 0)
    (hp : popLive (s.stackWithout m) = some (e, es)) (ht : s.targetOk e.resume = true) :
    s.ejectLanes m stn = .ok ((s.ejected m stn).resumeEntry e es) := by
  rw [ejectLanes_eq, State.frames, emptied_resumes (s := s.ejected m stn) h hd hp ht]

theorem ejectLanes_planeRange (h : s.team.lanes.active &&& ~~~m = 0) (hd : s.team.win.depth = 0)
    (hp : popLive (s.stackWithout m) = some (e, es)) (ht : s.targetOk e.resume = false) :
    s.ejectLanes m stn = .error (s.flt .planeRange) := by
  rw [ejectLanes_eq, State.frames, emptied_planeRange (s := s.ejected m stn) h hd hp ht]
  rfl

theorem ejectLanes_ends (h : s.team.lanes.active &&& ~~~m = 0) (hd : s.team.win.depth = 0)
    (hp : popLive (s.stackWithout m) = none) :
    s.ejectLanes m stn = .ok { s.ejected m stn with team := (s.ejected m stn).team.finish } := by
  rw [ejectLanes_eq, State.frames, emptied_ends (s := s.ejected m stn) h hd hp]

end

/-! ### EJECT -/

section
variable {p n o stn : Nat}

/-- The lanes that an EJECT takes. -/
abbrev State.ejectMask (s : State) (p n : Nat) : Mask := s.team.lanes.active &&& s.branchGuard p n

theorem exec_eject (hs : s.blk.k.stations.findIdx? (fun y => y == (s.relTarget o 20).toNat) = some stn)
    (hd : s.team.win.depth = 0) : exec (.eject p n o) s = answer s (
      if s.ejectMask p n = 0 then .ok s.retireCtl
      else if s.spawnRoom (lanesOf s.team.size (s.ejectMask p n)).length then
        match s.retireCtl.ejectLanes (s.ejectMask p n) stn with
        | .ok t => .ok t
        | .error f => .error { f with restart := s.team.pc }
      else .ok (s.beginWait true (.spawnRoom (s.ejectMask p n) stn))) := by
  have h : exec (.eject p n o) s = answer s (
      match s.blk.k.stations.findIdx? (fun x => x == (s.relTarget o 20).toNat) with
      | none => .error (s.flt .stationInvalid)
      | some stn => do
        need (s.team.win.depth = 0) (s.flt .refillDepth)
        if s.ejectMask p n = 0 then return s.retireCtl
        else if s.spawnRoom (lanesOf s.team.size (s.ejectMask p n)).length then
          match s.retireCtl.ejectLanes (s.ejectMask p n) stn with
          | .ok t => return t
          | .error f => .error { f with restart := s.team.pc }
        else return s.beginWait true (.spawnRoom (s.ejectMask p n) stn)) := rfl
  rw [h, hs]
  exact answer_bind_ok (need_ok (by simpa using hd) _)

theorem findIdx?_station {ks : List Nat} {x : Nat} (h : x ∉ ks) : ks.findIdx? (fun y => y == x) = none := by
  rw [List.findIdx?_eq_none_iff]
  intro y hy
  simpa using fun he : y = x => h (he ▸ hy)

theorem exists_findIdx?_station {ks : List Nat} {x : Nat} (h : x ∈ ks) :
    ∃ stn, ks.findIdx? (fun y => y == x) = some stn := by
  rw [← Option.isSome_iff_exists, List.findIdx?_isSome, List.any_eq_true]
  exact ⟨x, h, by simp⟩

theorem exec_eject_stationInvalid (h : (s.relTarget o 20).toNat ∉ s.blk.k.stations) :
    exec (.eject p n o) s = .next (takeFault (s.flt .stationInvalid) s) := by
  change answer s (match s.blk.k.stations.findIdx? (fun x => x == (s.relTarget o 20).toNat) with
    | none => _ | some stn => _) = _
  rw [findIdx?_station h]
  rfl

theorem exec_eject_refillDepth (h : (s.relTarget o 20).toNat ∈ s.blk.k.stations) (hd : s.team.win.depth ≠ 0) :
    exec (.eject p n o) s = .next (takeFault (s.flt .refillDepth) s) := by
  obtain ⟨stn, hs⟩ := exists_findIdx?_station h
  change answer s (match s.blk.k.stations.findIdx? (fun x => x == (s.relTarget o 20).toNat) with
    | none => _ | some stn => _) = _
  rw [hs]
  exact answer_bind_error (need_error (by simpa using hd) _)

end

theorem spawnRoom_iff {m : Mask} {stn : Nat} : s.spawnRoom (lanesOf s.team.size m).length = true ↔
    (s.spawnRecords m stn).length + s.blk.spawn.length ≤ s.blk.k.spawn := by
  simp [State.spawnRoom, State.spawnRecords, Nat.add_comm]

/-! ### EJECT_RECORD_WRITE -/

/-- The state in which a waiting EJECT goes on. -/
def State.ejectGoesOn (s : State) : State :=
  { s with team := { s.team with phase := .ready, pc := s.team.pc + 4, nextPlane := 0 } }

theorem exec_ejectRecordWrite {m : Mask} {stn : Nat} (hw : s.team.phase = .waiting (.spawnRoom m stn)) :
    exec .ejectRecordWrite s = .next (
      if s.spawnRoom (lanesOf s.team.size m).length then
        match s.ejectGoesOn.ejectLanes m stn with
        | .ok u => u
        | .error f => takeFault { f with restart := s.team.pc, plane := s.wordPlane } s
      else s) := by
  change Host.Outcome.next (match s.team.phase with | .waiting (.spawnRoom m stn) => _ | _ => s) = _
  rw [hw]
  rfl

end

end Sys2Proof.Machine
end

section
/-!
PROOF. REFILL (R79, R80, R212): which items it takes, to which lanes they go, and what a filled lane reads as.
-/
namespace Sys2Proof.Machine

/-! ### The spawn area -/

/-- One record of the area, in order: records of a station are taken while some are still wanted, all others stay. -/
def keepRecord (stn : Nat) (x : List SpawnRec × Nat) (r : SpawnRec) : List SpawnRec × Nat :=
  if r.stn = stn ∧ x.2 ≠ 0 then (x.1, x.2 - 1) else (x.1 ++ [r], x.2)

section
variable (stn : Nat) (rs acc : List SpawnRec) (k : Nat)

/-- The oldest `k` records of the station are gone. -/
theorem filter_foldl_keepRecord_same : (rs.foldl (keepRecord stn) (acc, k)).1.filter (fun r => r.stn == stn) =
    acc.filter (fun r => r.stn == stn) ++ (rs.filter (fun r => r.stn == stn)).drop k := by
  induction rs generalizing acc k with
  | nil => simp
  | cons r rs ih =>
    rw [List.foldl_cons]
    by_cases hr : r.stn = stn
    · cases k with
      | zero => simp [keepRecord, ih, hr]
      | succ k => simp [keepRecord, ih, hr]
    · simp [keepRecord, ih, hr]

/-- Records of other stations stay. -/
theorem filter_foldl_keepRecord_other : (rs.foldl (keepRecord stn) (acc, k)).1.filter (fun r => r.stn != stn) =
    acc.filter (fun r => r.stn != stn) ++ rs.filter (fun r => r.stn != stn) := by
  induction rs generalizing acc k with
  | nil => simp
  | cons r rs ih =>
    rw [List.foldl_cons]
    by_cases hr : r.stn = stn
    · cases k with
      | zero => simp [keepRecord, ih, hr]
      | succ k => simp [keepRecord, ih, hr]
    · simp [keepRecord, ih, hr]

end

/-! ### Items and lanes -/

section
variable {α : Type}

/-- The lane that the first item takes. -/
def pickLane (free : Nat) (ls : List Nat) (l : Nat) : Nat := (l :: ls).getD (Config.free free % (l :: ls).length) l

theorem pickLane_mem (free : Nat) (ls : List Nat) (l : Nat) : pickLane free ls l ∈ l :: ls := by
  have h : Config.free free % (l :: ls).length < (l :: ls).length := Nat.mod_lt _ (by simp)
  rw [pickLane, List.getD_eq_getElem _ _ h]
  exact List.getElem_mem h

theorem assignLanes_cons (free : Nat) (x : α) (xs : List α) (l : Nat) (ls : List Nat) :
    assignLanes free (x :: xs) (l :: ls) = (pickLane free ls l, x)
      :: assignLanes (free + 1) xs ((l :: ls).filter (fun y => y != pickLane free ls l)) := rfl

theorem mem_assignLanes {free : Nat} {xs : List α} {ls : List Nat} {y : Nat × α} (h : y ∈ assignLanes free xs ls) :
    y.1 ∈ ls := by
  induction xs generalizing free ls with
  | nil => simp [assignLanes] at h
  | cons x xs ih =>
    cases ls with
    | nil => simp [assignLanes] at h
    | cons l ls =>
      rw [assignLanes_cons, List.mem_cons] at h
      rcases h with rfl | h
      · exact pickLane_mem free ls l
      · exact List.mem_of_mem_filter (ih h)

theorem nodup_assignLanes (free : Nat) (xs : List α) (ls : List Nat) : ((assignLanes free xs ls).map Prod.fst).Nodup := by
  induction xs generalizing free ls with
  | nil => simp [assignLanes]
  | cons x xs ih =>
    cases ls with
    | nil => simp [assignLanes]
    | cons l ls =>
      rw [assignLanes_cons, List.map_cons, List.nodup_cons]
      refine ⟨fun h => ?_, ih _ _⟩
      obtain ⟨y, hy, he⟩ := List.mem_map.mp h
      have := (List.mem_filter.mp (mem_assignLanes hy)).2
      simp [he] at this

/-- With lanes enough every item gets one, in order. -/
theorem map_snd_assignLanes (free : Nat) {xs : List α} {ls : List Nat} (hl : ls.Nodup) (h : xs.length ≤ ls.length) :
    (assignLanes free xs ls).map Prod.snd = xs := by
  induction xs generalizing free ls with
  | nil => simp [assignLanes]
  | cons x xs ih =>
    cases ls with
    | nil => simp at h
    | cons l ls =>
      have he := hl.erase_eq_filter (pickLane free ls l)
      have hlen := List.length_erase_of_mem (pickLane_mem free ls l)
      rw [assignLanes_cons, List.map_cons, ← he, ih _ (hl.erase _) (by simp_all)]

end

/-! ### One lane is filled -/

/-- What register `r` of a filled lane holds (R79). -/
def fillWord (x : SpawnRec ⊕ Nat) (r : Nat) : Word32 := (fillWords x).getD r 0

/-- Predicate `n` of a filled lane. -/
def fillBit (x : SpawnRec ⊕ Nat) (n : Nat) : Bool :=
  match x with
  | .inl r => (n == 1 && r.p1) || (n == 2 && r.p2) || (n == 3 && r.p3)
  | .inr _ => false

/-- The plane number that a filled lane is given. -/
def fillPlane (x : SpawnRec ⊕ Nat) : Nat := match x with | .inl r => r.plane | .inr _ => 0

/-- The lane holds the item: its registers where no higher register of the frame lies at the same place, its predicates,
its plane; its group's side-bands are zero. -/
structure LaneHolds (s : State) (l : Nat) (x : SpawnRec ⊕ Nat) : Prop where
  word : ∀ r, r < 8 + s.team.win.fs → (∀ q, r < q → q < 8 + s.team.win.fs → s.vpos q ≠ s.vpos r) →
    s.getV r l = fillWord x r
  side : ∀ r, r < 8 + s.team.win.fs → s.getSide r (l / 16) = 0
  pred : ∀ q, 1 ≤ q → q < 16 → (s.getP q).getLsbD l = fillBit x q
  plane : s.team.lanes.plane l = fillPlane x % 4

section
variable {s : State} {l l' : Nat} {x x' : SpawnRec ⊕ Nat}

theorem getLsbD_laneBit (hl : l < 1024) (i : Nat) : (laneBit l).getLsbD i = decide (l = i) := by
  rw [laneBit, BitVec.getLsbD_ofNat, Nat.testBit_two_pow]
  by_cases h : l = i
  · simp [h ▸ hl, h]
  · simp [h]

/-- A bit written to lane `l` of a mask. -/
theorem getLsbD_mergeLane (hl : l < 1024) {i : Nat} (hi : i < 1024) (m : Mask) (b : Bool) :
    ((m &&& ~~~laneBit l) ||| ((if b then allLanes else 0) &&& laneBit l)).getLsbD i =
      if l = i then b else m.getLsbD i := by
  rw [BitVec.getLsbD_or, BitVec.getLsbD_and, BitVec.getLsbD_and, BitVec.getLsbD_not, getLsbD_laneBit hl,
    decide_eq_true hi]
  have ha : allLanes.getLsbD i = true := by rw [allLanes, BitVec.getLsbD_allOnes, decide_eq_true hi]
  have hz : (0 : Mask).getLsbD i = false := BitVec.getLsbD_zero
  by_cases h : l = i <;> cases b <;> simp only [h, ha, hz, decide_true, decide_false, if_true, if_false, Bool.not_true,
    Bool.not_false, Bool.and_true, Bool.and_false, Bool.false_or, Bool.or_false, Bool.false_eq_true]

/-- Writes of lane `l` through a list of registers, with the side-bands of its group cleared. -/
theorem foldl_fillRegs (ws : List Word32) (ns : List Nat) (s : State) :
    ns.foldl (fun t n => (t.setV n [(l, ws.getD n 0)]).setSide n [(l / 16, 0)]) s = s.withRegs { s.team.regs with
      v := smSetAll 0 s.team.regs.v (ns.map fun n => (s.vpos n * 1024 + l, ws.getD n 0))
      side := smSetAll 0 s.team.regs.side (ns.map fun n => (s.vpos n * 64 + l / 16, 0)) } := by
  induction ns generalizing s with
  | nil => rfl
  | cons n ns ih =>
    rw [List.foldl_cons, ih]
    rfl

/-- Writes of a list of predicates change nothing else. -/
theorem foldl_setP_frame (m : Mask) (f : Nat → Mask) (ns : List Nat) (s : State) :
    ∃ p, ns.foldl (fun t n => t.setP n m (f n)) s = s.withRegs { s.team.regs with p := p } := by
  induction ns generalizing s with
  | nil => exact ⟨s.team.regs.p, rfl⟩
  | cons n ns ih =>
    rw [List.foldl_cons]
    obtain ⟨p, hp⟩ := ih (s.setP n m (f n))
    refine ⟨p, hp.trans ?_⟩
    by_cases hn : n = 0
    · simp [State.setP, hn]
    · simp only [State.setP, hn, if_false]
      rfl

theorem getP_foldl_setP_of_not_mem (m : Mask) (f : Nat → Mask) {ns : List Nat} {s : State} (hs : Canon s) {q : Nat}
    (hq : q ∉ ns) : (ns.foldl (fun t n => t.setP n m (f n)) s).getP q = s.getP q := by
  induction ns generalizing s with
  | nil => rfl
  | cons n ns ih =>
    rw [List.mem_cons, not_or] at hq
    rw [List.foldl_cons, ih hs.setP hq.2, State.getP_setP_ne hs hq.1]

theorem getP_foldl_setP (m : Mask) (f : Nat → Mask) {ns : List Nat} {s : State} (hs : Canon s) (hn : ns.Nodup) {q : Nat}
    (hq : q ∈ ns) (h0 : q ≠ 0) :
    (ns.foldl (fun t n => t.setP n m (f n)) s).getP q = (s.getP q &&& ~~~m) ||| (f q &&& m) := by
  induction ns generalizing s with
  | nil => cases hq
  | cons n ns ih =>
    rw [List.nodup_cons] at hn
    rw [List.foldl_cons]
    by_cases hqn : q = n
    · subst hqn
      rw [getP_foldl_setP_of_not_mem m f hs.setP hn.1, State.getP_setP_self hs h0]
    · rw [ih hs.setP hn.2 ((List.mem_cons.mp hq).resolve_left hqn), State.getP_setP_ne hs hqn]

/-- Where the data of a filled lane goes. -/
def State.fillCells (s : State) (l : Nat) (x : SpawnRec ⊕ Nat) : List (Nat × Word32) :=
  (List.range (8 + s.team.win.fs)).map (fun n => (s.vpos n * 1024 + l, fillWord x n))

/-- The side-bands that are cleared with it. -/
def State.fillSides (s : State) (l : Nat) : List (Nat × SideBand) :=
  (List.range (8 + s.team.win.fs)).map (fun n => (s.vpos n * 64 + l / 16, 0))

/-- The state with the frame of one lane written. -/
def State.fillRegs (s : State) (l : Nat) (x : SpawnRec ⊕ Nat) : State :=
  s.withRegs { s.team.regs with
    v := smSetAll 0 s.team.regs.v (s.fillCells l x), side := smSetAll 0 s.team.regs.side (s.fillSides l) }

theorem Canon.fillRegs (h : Canon s) : Canon (s.fillRegs l x) := by
  obtain ⟨hv, hd, hsr, hp⟩ := storesWf_regs h
  exact storesWf_withRegs h (smWf_smSetAll hv _) (smWf_smSetAll hd _) hsr hp

theorem fillLane_eq (s : State) (l : Nat) (x : SpawnRec ⊕ Nat) : s.fillLane l x =
    ((List.range 16).foldl (fun t n => t.setP n (laneBit l) (if fillBit x n then allLanes else 0)) (s.fillRegs l x)).withLanes
      { s.team.lanes.setPlane (laneBit l) (fillPlane x) with vacant := s.team.lanes.vacant &&& ~~~laneBit l } := by
  obtain ⟨p, hp⟩ := foldl_setP_frame (laneBit l) (fun n => if fillBit x n then allLanes else 0) (List.range 16)
    (s.fillRegs l x)
  have hlanes := congrArg (fun t => t.team.lanes) hp
  unfold State.fillLane
  dsimp only
  rw [foldl_fillRegs]
  cases x <;> exact congrArg (State.withLanes _) (by rw [← show _ = s.team.lanes from hlanes]; rfl)

/-- Registers and lanes of the team are all that a filled lane changes. -/
theorem fillLane_frame (s : State) (l : Nat) (x : SpawnRec ⊕ Nat) : ∃ p, s.fillLane l x =
    (s.withRegs { s.team.regs with
      v := smSetAll 0 s.team.regs.v (s.fillCells l x), side := smSetAll 0 s.team.regs.side (s.fillSides l), p := p }).withLanes
      { s.team.lanes.setPlane (laneBit l) (fillPlane x) with vacant := s.team.lanes.vacant &&& ~~~laneBit l } := by
  obtain ⟨p, hp⟩ := foldl_setP_frame (laneBit l) (fun n => if fillBit x n then allLanes else 0) (List.range 16)
    (s.fillRegs l x)
  exact ⟨p, by rw [fillLane_eq, hp]; rfl⟩

theorem fillLane_vpos (n : Nat) : (s.fillLane l x).vpos n = s.vpos n := by
  obtain ⟨p, hp⟩ := fillLane_frame s l x
  rw [hp]
  rfl

theorem fillLane_fs : (s.fillLane l x).team.win.fs = s.team.win.fs := by
  obtain ⟨p, hp⟩ := fillLane_frame s l x
  rw [hp]
  rfl

theorem fillLane_vacant : (s.fillLane l x).team.lanes.vacant = s.team.lanes.vacant &&& ~~~laneBit l := by
  obtain ⟨p, hp⟩ := fillLane_frame s l x
  rw [hp]
  rfl

theorem fillLane_getV (n i : Nat) :
    (s.fillLane l x).getV n i = smGet 0 (smSetAll 0 s.team.regs.v (s.fillCells l x)) (s.vpos n * 1024 + i) := by
  obtain ⟨p, hp⟩ := fillLane_frame s l x
  rw [hp]
  rfl

theorem fillLane_getSide (n g : Nat) :
    (s.fillLane l x).getSide n g = smGet 0 (smSetAll 0 s.team.regs.side (s.fillSides l)) (s.vpos n * 64 + g) := by
  obtain ⟨p, hp⟩ := fillLane_frame s l x
  rw [hp]
  rfl

theorem fillLane_getP (hs : Canon s) {q : Nat} (h1 : 1 ≤ q) (hq : q < 16) : (s.fillLane l x).getP q =
    (s.getP q &&& ~~~laneBit l) ||| ((if fillBit x q then allLanes else 0) &&& laneBit l) := by
  rw [fillLane_eq]
  exact getP_foldl_setP (laneBit l) (fun n => if fillBit x n then allLanes else 0) hs.fillRegs List.nodup_range
    (List.mem_range.mpr hq) (by omega)

theorem fillLane_plane (i : Nat) : (s.fillLane l x).team.lanes.plane i =
    (s.team.lanes.setPlane (laneBit l) (fillPlane x)).plane i := by
  obtain ⟨p, hp⟩ := fillLane_frame s l x
  rw [hp]
  rfl

theorem setPlane_plane_self (y : Lanes) (k : Nat) (hl : l < 1024) : (y.setPlane (laneBit l) k).plane l = k % 4 := by
  have hb := getLsbD_laneBit hl l
  rw [decide_eq_true rfl] at hb
  unfold Lanes.plane Lanes.setPlane
  dsimp only
  split_ifs <;> simp_all <;> omega

theorem setPlane_plane_ne (y : Lanes) (k : Nat) (hl : l < 1024) {i : Nat} (hi : i < 1024) (h : i ≠ l) :
    (y.setPlane (laneBit l) k).plane i = y.plane i := by
  have hb := getLsbD_laneBit hl i
  rw [decide_eq_false (Ne.symm h)] at hb
  unfold Lanes.plane Lanes.setPlane
  dsimp only
  congr 2
  · split_ifs <;> simp only [BitVec.getLsbD_or, BitVec.getLsbD_and, BitVec.getLsbD_not, hb, decide_eq_true hi,
      Bool.or_false, Bool.not_false, Bool.and_true]
  · split_ifs <;> simp only [BitVec.getLsbD_or, BitVec.getLsbD_and, BitVec.getLsbD_not, hb, decide_eq_true hi,
      Bool.or_false, Bool.not_false, Bool.and_true]

/-- A filled lane holds its item. -/
theorem laneHolds_fillLane (hs : Canon s) (hl : l < 1024) : LaneHolds (s.fillLane l x) l x where
  word := by
    intro r hr hq
    rw [fillLane_fs] at hr hq
    obtain ⟨hv, -⟩ := storesWf_regs hs
    rw [fillLane_getV, State.fillCells, show 8 + s.team.win.fs = r + 1 + (7 + s.team.win.fs - r) by omega, List.range_add,
      List.range_succ, List.append_assoc, List.map_append, List.singleton_append, List.map_cons, List.map_map]
    refine smGet_smSetAll_last hv _ _ _ fun w hw => ?_
    obtain ⟨i, hi, rfl⟩ := List.mem_map.mp hw
    rw [List.mem_range] at hi
    have := hq (r + 1 + i) (by omega) (by omega)
    rw [fillLane_vpos, fillLane_vpos] at this
    dsimp only [Function.comp_apply]
    omega
  side := by
    intro r hr
    rw [fillLane_fs] at hr
    obtain ⟨-, hd, -⟩ := storesWf_regs hs
    rw [fillLane_getSide]
    refine smGet_smSetAll_of_forall hd ⟨_, List.mem_map_of_mem (List.mem_range.mpr hr), rfl⟩ fun w hw _ => ?_
    obtain ⟨n, -, rfl⟩ := List.mem_map.mp hw
    rfl
  pred := by
    intro q h1 hq
    rw [fillLane_getP hs h1 hq, getLsbD_mergeLane hl hl, if_pos rfl]
  plane := by rw [fillLane_plane, setPlane_plane_self _ _ hl]

theorem fillLane_getV_ne (hs : Canon s) (hl : l < 1024) (hl' : l' < 1024) (h : l ≠ l') (n : Nat) :
    (s.fillLane l' x').getV n l = s.getV n l := by
  obtain ⟨hv, -⟩ := storesWf_regs hs
  rw [fillLane_getV]
  refine smGet_smSetAll_of_not_mem hv fun w hw => ?_
  obtain ⟨i, -, rfl⟩ := List.mem_map.mp hw
  dsimp only
  omega

/-- What a lane holds stays when another lane is filled. -/
theorem LaneHolds.fillLane (h : LaneHolds s l x) (hs : Canon s) (hl : l < 1024) (hl' : l' < 1024) (hne : l ≠ l') :
    LaneHolds (s.fillLane l' x') l x where
  word := by
    intro r hr hq
    rw [fillLane_fs] at hr hq
    simp only [fillLane_vpos] at hq
    rw [fillLane_getV_ne hs hl hl' hne]
    exact h.word r hr hq
  side := by
    intro r hr
    rw [fillLane_fs] at hr
    obtain ⟨-, hd, -⟩ := storesWf_regs hs
    rw [fillLane_getSide]
    by_cases hw : ∃ w ∈ s.fillSides l', w.1 = s.vpos r * 64 + l / 16
    · refine smGet_smSetAll_of_forall hd hw fun w hw _ => ?_
      obtain ⟨n, -, rfl⟩ := List.mem_map.mp hw
      rfl
    · rw [smGet_smSetAll_of_not_mem hd fun w hm he => hw ⟨w, hm, he⟩]
      exact h.side r hr
  pred := by
    intro q h1 hq
    rw [fillLane_getP hs h1 hq, getLsbD_mergeLane hl' hl, if_neg (Ne.symm hne), h.pred q h1 hq]
  plane := by rw [fillLane_plane, setPlane_plane_ne _ _ hl' hl hne, h.plane]

end

/-! ### Several lanes are filled -/

section
variable {s : State} {fills : List (Nat × (SpawnRec ⊕ Nat))}

/-- The lanes of a list are filled, one after another. -/
def State.fillLanes (s : State) (fills : List (Nat × (SpawnRec ⊕ Nat))) : State :=
  fills.foldl (fun t x => t.fillLane x.1 x.2) s

theorem fillLanes_cons (y : Nat × (SpawnRec ⊕ Nat)) : s.fillLanes (y :: fills) = (s.fillLane y.1 y.2).fillLanes fills := rfl

theorem fillLanes_frame (s : State) (fills : List (Nat × (SpawnRec ⊕ Nat))) :
    ∃ r y, s.fillLanes fills = { s with team := { s.team with regs := r, lanes := y } } := by
  induction fills generalizing s with
  | nil => exact ⟨s.team.regs, s.team.lanes, rfl⟩
  | cons x fills ih =>
    obtain ⟨p, hp⟩ := fillLane_frame s x.1 x.2
    obtain ⟨r, y, h⟩ := ih (s.fillLane x.1 x.2)
    rw [fillLanes_cons, h, hp]
    exact ⟨r, y, rfl⟩

theorem fillLanes_vacant (hb : ∀ y ∈ fills, y.1 < 1024) (l : Nat) : (s.fillLanes fills).team.lanes.vacant.getLsbD l =
    (s.team.lanes.vacant.getLsbD l && !(fills.map Prod.fst).contains l) := by
  induction fills generalizing s with
  | nil => simp [State.fillLanes]
  | cons x fills ih =>
    rw [List.forall_mem_cons] at hb
    rw [fillLanes_cons, ih hb.2, fillLane_vacant, List.map_cons, List.contains_cons]
    by_cases hl : l < 1024
    · rw [BitVec.getLsbD_and, BitVec.getLsbD_not, getLsbD_laneBit hb.1, decide_eq_true hl]
      by_cases hx : x.1 = l
      · simp [hx]
      · simp [hx, beq_false_of_ne (Ne.symm hx)]
    · simp [BitVec.getLsbD_of_ge _ _ (not_lt.mp hl)]

theorem fillLanes_getV_of_not_mem (hs : Canon s) (hb : ∀ y ∈ fills, y.1 < 1024) {l : Nat} (hl : l < 1024)
    (h : l ∉ fills.map Prod.fst) (n : Nat) : (s.fillLanes fills).getV n l = s.getV n l := by
  induction fills generalizing s with
  | nil => rfl
  | cons x fills ih =>
    rw [List.forall_mem_cons] at hb
    rw [List.map_cons, List.mem_cons, not_or] at h
    rw [fillLanes_cons, ih hs.fillLane hb.2 h.2, fillLane_getV_ne hs hl hb.1 h.1]

theorem LaneHolds.fillLanes {l : Nat} {x : SpawnRec ⊕ Nat} (h : LaneHolds s l x) (hs : Canon s) (hl : l < 1024)
    (hb : ∀ y ∈ fills, y.1 < 1024) (hn : l ∉ fills.map Prod.fst) : LaneHolds (s.fillLanes fills) l x := by
  induction fills generalizing s with
  | nil => exact h
  | cons y fills ih =>
    rw [List.forall_mem_cons] at hb
    rw [List.map_cons, List.mem_cons, not_or] at hn
    exact ih (h.fillLane hs hl hb.1 hn.1) hs.fillLane hb.2 hn.2

/-- Every lane of the list holds its item. -/
theorem laneHolds_fillLanes (hs : Canon s) (hb : ∀ y ∈ fills, y.1 < 1024) (hd : (fills.map Prod.fst).Nodup) :
    ∀ y ∈ fills, LaneHolds (s.fillLanes fills) y.1 y.2 := by
  induction fills generalizing s with
  | nil => simp
  | cons x fills ih =>
    rw [List.forall_mem_cons] at hb
    rw [List.map_cons, List.nodup_cons] at hd
    rw [fillLanes_cons, List.forall_mem_cons]
    exact ⟨(laneHolds_fillLane hs hb.1).fillLanes hs.fillLane hb.1 hb.2 hd.1, ih hs.fillLane hb.2 hd.2⟩

end

/-! ### REFILL -/

section
variable {s : State} {stn : Nat}

/-- The lanes that REFILL may fill. -/
abbrev State.vacantLanes (s : State) : List Nat := lanesOf s.team.size s.team.lanes.vacant

/-- The records that REFILL takes: the oldest of the station, one for each vacant lane. -/
def State.refillRecords (s : State) (stn : Nat) : List SpawnRec :=
  (s.blk.spawn.filter (fun r => r.stn == stn)).take s.vacantLanes.length

/-- How many fresh indices it gives: for the lanes still vacant, at the entry station. -/
def State.refillFresh (s : State) (stn : Nat) : Nat :=
  if s.blk.k.entryAt stn then min (s.vacantLanes.length - (s.refillRecords stn).length) (s.blk.d.items - s.blk.fresh) else 0

/-- What REFILL gives to vacant lanes. -/
def State.refillItems (s : State) (stn : Nat) : List (SpawnRec ⊕ Nat) :=
  (s.refillRecords stn).map Sum.inl ++ (List.range (s.refillFresh stn)).map (fun i => Sum.inr (s.blk.fresh + i))

/-- Each item with the lane it goes to. -/
def State.refillFills (s : State) (stn : Nat) : List (Nat × (SpawnRec ⊕ Nat)) :=
  assignLanes s.free (s.refillItems stn) s.vacantLanes

/-- The state with the items taken, before lanes are filled. -/
def State.refillTaken (s : State) (stn : Nat) : State :=
  { s with
    blk := { s.blk with
      spawn := (s.blk.spawn.foldl (keepRecord stn) ([], (s.refillRecords stn).length)).1
      fresh := s.blk.fresh + s.refillFresh stn }
    free := s.free + (s.refillItems stn).length }

theorem refillLanes_eq (s : State) (stn : Nat) : s.refillLanes stn =
    ((s.refillTaken stn).fillLanes (s.refillFills stn)).withLanes
      { ((s.refillTaken stn).fillLanes (s.refillFills stn)).team.lanes with
        active := ((s.refillTaken stn).fillLanes (s.refillFills stn)).team.live } := rfl

theorem exec_refill (hs : s.blk.k.stations.findIdx? (fun y => y == s.team.pc.toNat) = some stn)
    (hd : s.team.win.depth = 0) : exec .refill s = answer s (do
      need s.team.lanes.stack.isEmpty (s.flt .joinStack)
      need (!s.refillBad stn) (s.flt .memoryPoison)
      return (s.refillLanes stn).retireCtl) := by
  change answer s (match s.blk.k.stations.findIdx? (fun x => x == s.team.pc.toNat) with
    | none => _ | some stn => _) = _
  rw [hs]
  exact answer_bind_ok (need_ok (by simpa using hd) _)

theorem exec_refill_stationInvalid (h : s.team.pc.toNat ∉ s.blk.k.stations) :
    exec .refill s = .next (takeFault (s.flt .stationInvalid) s) := by
  change answer s (match s.blk.k.stations.findIdx? (fun x => x == s.team.pc.toNat) with
    | none => _ | some stn => _) = _
  rw [findIdx?_station h]
  rfl

theorem exec_refill_refillDepth (h : s.team.pc.toNat ∈ s.blk.k.stations) (hd : s.team.win.depth ≠ 0) :
    exec .refill s = .next (takeFault (s.flt .refillDepth) s) := by
  obtain ⟨stn, hs⟩ := exists_findIdx?_station h
  change answer s (match s.blk.k.stations.findIdx? (fun x => x == s.team.pc.toNat) with
    | none => _ | some stn => _) = _
  rw [hs]
  exact answer_bind_error (need_error (by simpa using hd) _)

theorem exec_refill_joinStack (h : s.team.pc.toNat ∈ s.blk.k.stations) (hd : s.team.win.depth = 0)
    (hk : s.team.lanes.stack ≠ []) : exec .refill s = .next (takeFault (s.flt .joinStack) s) := by
  obtain ⟨stn, hs⟩ := exists_findIdx?_station h
  rw [exec_refill hs hd]
  exact answer_bind_error (need_error (by simpa using hk) _)

section
variable (hs : s.blk.k.stations.findIdx? (fun y => y == s.team.pc.toNat) = some stn) (hd : s.team.win.depth = 0)
  (hk : s.team.lanes.stack = [])
include hs hd hk

theorem exec_refill_memoryPoison (hb : s.refillBad stn = true) :
    exec .refill s = .next (takeFault (s.flt .memoryPoison) s) := by
  rw [exec_refill hs hd]
  exact (answer_bind_ok (need_ok (by simp [hk]) _)).trans (answer_bind_error (need_error (by simp [hb]) _))

theorem exec_refill_fills (hb : s.refillBad stn = false) : exec .refill s = .next (s.refillLanes stn).retireCtl := by
  rw [exec_refill hs hd]
  exact (answer_bind_ok (need_ok (by simp [hk]) _)).trans (answer_bind_ok (need_ok (by simp [hb]) _))

end

/-- The station that a search by offset finds is the entry station if ENTRYSTN names that offset. -/
theorem entryAt_of_findIdx? {k : Kernel} {pc : Nat} (h : k.stations.findIdx? (fun y => y == pc) = some stn) :
    k.entryAt stn = k.entryStn.any (fun e => k.stations[e]? == some pc) := by
  obtain ⟨hlt, hpc, -⟩ := List.findIdx?_eq_some_iff_getElem.mp h
  rw [Kernel.entryAt, List.getElem?_eq_getElem hlt, beq_iff_eq.mp hpc]

theorem refillFresh_eq (hs : s.blk.k.stations.findIdx? (fun y => y == s.team.pc.toNat) = some stn) :
    s.refillFresh stn = if s.blk.k.entryStn.any (fun e => s.blk.k.stations[e]? == some s.team.pc.toNat) then
      min (s.vacantLanes.length - (s.blk.spawn.filter (fun r => r.stn == stn)).length) (s.blk.d.items - s.blk.fresh)
      else 0 := by
  rw [State.refillFresh, entryAt_of_findIdx? hs, State.refillRecords, List.length_take]
  congr 2
  omega

theorem length_refillItems_le (s : State) (stn : Nat) : (s.refillItems stn).length ≤ s.vacantLanes.length := by
  have h : (s.refillRecords stn).length ≤ s.vacantLanes.length := List.length_take_le _ _
  rw [State.refillItems, List.length_append, List.length_map, List.length_map, List.length_range, State.refillFresh]
  split <;> omega

theorem map_snd_refillFills (s : State) (stn : Nat) : (s.refillFills stn).map Prod.snd = s.refillItems stn :=
  map_snd_assignLanes _ (nodup_lanesOf _ _) (length_refillItems_le s stn)

theorem refillFills_vacant {y : Nat × (SpawnRec ⊕ Nat)} (hy : y ∈ s.refillFills stn) : y.1 ∈ s.vacantLanes :=
  mem_assignLanes hy

/-- A lane of the vacant mask is one of 1,024. -/
theorem refillFills_lt : ∀ y ∈ s.refillFills stn, y.1 < 1024 := fun _ hy =>
  BitVec.lt_of_getLsbD (mem_lanesOf.mp (refillFills_vacant hy)).2

theorem filter_same_refillTaken : (s.refillTaken stn).blk.spawn.filter (fun r => r.stn == stn) =
    (s.blk.spawn.filter (fun r => r.stn == stn)).drop s.vacantLanes.length := by
  refine (filter_foldl_keepRecord_same stn s.blk.spawn [] _).trans ?_
  rw [List.filter_nil, List.nil_append, State.refillRecords, List.length_take]
  rcases Nat.le_total s.vacantLanes.length (s.blk.spawn.filter fun r => r.stn == stn).length with h | h
  · rw [Nat.min_eq_left h]
  · rw [Nat.min_eq_right h, List.drop_length, List.drop_of_length_le h]

/-- What REFILL leaves: the items taken, and the lanes filled with them. -/
structure Refilled (s : State) (stn : Nat) (t : State) : Prop where
  issued : t.issued = s.issued + 1
  pc : t.team.pc = s.nextPc
  active : t.team.lanes.active = firstLanes s.team.size &&& ~~~t.team.lanes.vacant
  same : t.blk.spawn.filter (fun r => r.stn == stn) =
    (s.blk.spawn.filter (fun r => r.stn == stn)).drop s.vacantLanes.length
  other : t.blk.spawn.filter (fun r => r.stn != stn) = s.blk.spawn.filter (fun r => r.stn != stn)
  fresh : t.blk.fresh = s.blk.fresh + s.refillFresh stn
  vacant : ∀ l, t.team.lanes.vacant.getLsbD l =
    (s.team.lanes.vacant.getLsbD l && !((s.refillFills stn).map Prod.fst).contains l)
  filled : ∀ y ∈ s.refillFills stn, LaneHolds t y.1 y.2
  window : t.team.win = s.team.win ∧ t.blk.k = s.blk.k
  kept : ∀ l r, l < 1024 → l ∉ (s.refillFills stn).map Prod.fst → t.getV r l = s.getV r l

theorem refilled (hs : Canon s) (stn : Nat) : Refilled s stn (s.refillLanes stn).retireCtl := by
  have hc : Canon (s.refillTaken stn) := hs.frame rfl
  have hheld := laneHolds_fillLanes hc refillFills_lt (nodup_assignLanes s.free (s.refillItems stn) s.vacantLanes)
  have hkept (l r : Nat) (hl : l < 1024) (hn : l ∉ (s.refillFills stn).map Prod.fst) :
      ((s.refillTaken stn).fillLanes (s.refillFills stn)).getV r l = (s.refillTaken stn).getV r l :=
    fillLanes_getV_of_not_mem hc (refillFills_lt (s := s) (stn := stn)) hl hn r
  have hvac := fillLanes_vacant (s := s.refillTaken stn) (refillFills_lt (s := s) (stn := stn))
  obtain ⟨r, y, hf⟩ := fillLanes_frame (s.refillTaken stn) (s.refillFills stn)
  rw [refillLanes_eq]
  change ∀ y ∈ s.refillFills stn, LaneHolds ((s.refillTaken stn).fillLanes (s.refillFills stn)) y.1 y.2 at hheld
  rw [hf] at hheld hkept hvac ⊢
  exact {
    issued := rfl
    pc := rfl
    active := rfl
    same := filter_same_refillTaken
    other := filter_foldl_keepRecord_other stn s.blk.spawn [] _
    fresh := rfl
    vacant := hvac
    filled := fun z hz => ⟨(hheld z hz).word, (hheld z hz).side, (hheld z hz).pred, (hheld z hz).plane⟩
    window := ⟨rfl, rfl⟩
    kept := hkept }

end

end Sys2Proof.Machine
end

section
/-!
PROOF. EJECT and REFILL as the statement about them says it.
-/
namespace Sys2Proof.Machine

section
variable {s : State} {p n o stn : Nat}

section
variable (hs : s.blk.k.stations.findIdx? (fun y => y == (s.relTarget o 20).toNat) = some stn)
  (hd : s.team.win.depth = 0) (hg : s.ejectMask p n ≠ 0)
include hs hd hg

/-- With room, EJECT is what becomes of the ejected lanes. -/
theorem exec_eject_room (hr : s.spawnRoom (lanesOf s.team.size (s.ejectMask p n)).length = true) :
    exec (.eject p n o) s = answer s (match s.retireCtl.ejectLanes (s.ejectMask p n) stn with
      | .ok t => .ok t
      | .error f => .error { f with restart := s.team.pc }) := by
  exact (exec_eject hs hd).trans (congrArg (answer s) ((if_neg hg).trans (if_pos hr)))

theorem exec_eject_waits (hr : s.spawnRoom (lanesOf s.team.size (s.ejectMask p n)).length = false) :
    exec (.eject p n o) s = .next (s.beginWait true (.spawnRoom (s.ejectMask p n) stn)) := by
  rw [exec_eject hs hd, if_neg hg, if_neg (by simp [hr])]
  rfl

variable (hr : s.spawnRoom (lanesOf s.team.size (s.ejectMask p n)).length = true)
include hr

theorem exec_eject_of_active (h : s.team.lanes.active &&& ~~~s.ejectMask p n ≠ 0) :
    exec (.eject p n o) s = .next (s.retireCtl.ejected (s.ejectMask p n) stn) := by
  rw [exec_eject_room hs hd hg hr, ejectLanes_of_active (s := s.retireCtl) h]
  rfl

variable (h : s.team.lanes.active &&& ~~~s.ejectMask p n = 0)
include h

theorem exec_eject_ends (hp : popLive (s.stackWithout (s.ejectMask p n)) = none) :
    exec (.eject p n o) s = .next { s.retireCtl.ejected (s.ejectMask p n) stn with
      team := (s.retireCtl.ejected (s.ejectMask p n) stn).team.finish } := by
  rw [exec_eject_room hs hd hg hr, ejectLanes_ends (s := s.retireCtl) h hd hp]
  rfl

variable {e : StackEntry} {es : List StackEntry} (hp : popLive (s.stackWithout (s.ejectMask p n)) = some (e, es))
include hp

theorem exec_eject_resumes (ht : s.targetOk e.resume = true) :
    exec (.eject p n o) s = .next ((s.retireCtl.ejected (s.ejectMask p n) stn).resumeEntry e es) := by
  rw [exec_eject_room hs hd hg hr, ejectLanes_resumes (s := s.retireCtl) h hd hp ht]
  rfl

theorem exec_eject_planeRange (ht : s.targetOk e.resume = false) :
    exec (.eject p n o) s = .next (takeFault (s.flt .planeRange) s) := by
  rw [exec_eject_room hs hd hg hr, ejectLanes_planeRange (s := s.retireCtl) h hd hp ht]
  rfl

end

section
variable {m : Mask} (hw : s.team.phase = .waiting (.spawnRoom m stn))
include hw

theorem exec_ejectRecordWrite_full (hr : s.spawnRoom (lanesOf s.team.size m).length = false) :
    exec .ejectRecordWrite s = .next s := by
  rw [exec_ejectRecordWrite hw, if_neg (by simp [hr])]

theorem exec_ejectRecordWrite_of_active (hr : s.spawnRoom (lanesOf s.team.size m).length = true)
    (h : s.team.lanes.active &&& ~~~m ≠ 0) :
    exec .ejectRecordWrite s = .next (s.ejectGoesOn.ejected m stn) := by
  rw [exec_ejectRecordWrite hw, if_pos hr, ejectLanes_of_active (s := s.ejectGoesOn) h]

end

theorem spawnRoom_false {m : Mask} (h : s.blk.k.spawn < (s.spawnRecords m stn).length + s.blk.spawn.length) :
    s.spawnRoom (lanesOf s.team.size m).length = false := by
  rw [← Bool.not_eq_true, spawnRoom_iff (stn := stn)]
  exact Nat.not_le.mpr h

/-- What a filled lane holds, in the registers of the state before. -/
theorem Refilled.laneFilled {t : State} (h : Refilled s stn t) {y : Nat × (SpawnRec ⊕ Nat)} (hy : y ∈ s.refillFills stn) :
    (∀ r, r < 8 + s.team.win.fs → (∀ q, r < q → q < 8 + s.team.win.fs → s.vpos q ≠ s.vpos r) →
      t.getV r y.1 = fillWord y.2 r) ∧
    (∀ r, r < 8 + s.team.win.fs → t.getSide r (y.1 / 16) = 0) ∧
    (∀ q, 1 ≤ q → q < 16 → (t.getP q).getLsbD y.1 = fillBit y.2 q) ∧
    t.team.lanes.plane y.1 = fillPlane y.2 % 4 := by
  obtain ⟨hwin, hk⟩ := h.window
  have hpos (q : Nat) : t.vpos q = s.vpos q := by rw [State.vpos, State.vpos, hwin, hk]
  obtain ⟨hword, hside, hpred, hplane⟩ := h.filled y hy
  simp only [hwin, hpos] at hword hside
  exact ⟨hword, hside, hpred, hplane⟩

theorem fillWord_eq (x : SpawnRec ⊕ Nat) (r : Nat) : fillWord x r = match x with
    | .inl rec => rec.words.getD r 0
    | .inr i => if r = 0 then BitVec.ofNat 32 i else 0 := by
  cases x with
  | inl rec => rfl
  | inr i => cases r <;> rfl

theorem fillPlane_mod (x : SpawnRec ⊕ Nat) : fillPlane x % 4 = match x with
    | .inl rec => rec.plane % 4
    | .inr _ => 0 := by
  cases x <;> rfl

end

/-- Settles O21: EJECT by what becomes of the lanes that are left, REFILL by the items it takes and the lane each goes to. -/
theorem ejectAndRefill : Obligations.EjectAndRefill := by
  unfold Obligations.EjectAndRefill
  intro p n o stn s x tgt g left recs vac mine given
  have htgt : tgt = s.relTarget o 20 := (relTarget_eq s o).symm
  clear_value tgt
  subst htgt
  refine ⟨exec_eject_stationInvalid, exec_eject_refillDepth, fun hs hd => ⟨fun hg => ?_, fun hg hr hx => ?_,
    fun hg hr hx => ⟨fun skipped e below hl hsk he => ?_, fun hl => ?_⟩, fun hg hr => ?_⟩, fun m hw => ⟨fun hr => ?_,
    fun hr hx => ?_⟩, exec_refill_stationInvalid, exec_refill_refillDepth, exec_refill_joinStack,
    exec_refill_memoryPoison, fun hs hd hk hb hwf => ?_⟩
  · rw [exec_eject hs hd]
    exact congrArg (answer s) (if_pos hg)
  · exact ⟨_, exec_eject_of_active hs hd hg (spawnRoom_iff.mpr hr) hx, rfl, rfl, rfl, rfl⟩
  · have hp : popLive (s.stackWithout (s.ejectMask p n)) = some (e, below) :=
      (congrArg popLive hl).trans ((popLive_append hsk).trans (popLive_cons he))
    exact ⟨fun hu => exec_eject_planeRange hs hd hg (spawnRoom_iff.mpr hr) hx hp (targetOk_false hu),
      fun hu => ⟨_, exec_eject_resumes hs hd hg (spawnRoom_iff.mpr hr) hx hp (targetOk_true hu), rfl, rfl, rfl, rfl⟩⟩
  · exact ⟨_, exec_eject_ends hs hd hg (spawnRoom_iff.mpr hr) hx (popLive_none hl), rfl, rfl, rfl, rfl, rfl⟩
  · exact ⟨_, exec_eject_waits hs hd hg (spawnRoom_false hr), rfl, rfl, rfl, rfl, rfl⟩
  · exact exec_ejectRecordWrite_full hw (spawnRoom_false hr)
  · exact ⟨_, exec_ejectRecordWrite_of_active hw (spawnRoom_iff.mpr hr) hx, rfl, rfl, rfl, rfl, rfl⟩
  · have h := refilled hwf stn
    have hgiven : given = s.refillFresh stn := (refillFresh_eq hs).symm
    refine ⟨_, exec_refill_fills hs hd hk hb, h.issued, h.pc, h.active, h.same, h.other, hgiven ▸ h.fresh,
      s.refillFills stn, ?_, nodup_assignLanes _ _ _, fun y hy => refillFills_vacant hy, h.vacant, fun y hy => ?_, h.kept⟩
    · rw [hgiven]
      exact map_snd_refillFills s stn
    · obtain ⟨hword, hside, hpred, hplane⟩ := h.laneFilled hy
      exact ⟨fun r hr hq => (hword r hr hq).trans (fillWord_eq y.2 r), hside, hpred, hplane.trans (fillPlane_mod y.2)⟩

end Sys2Proof.Machine
end

section
/-!
PROOF. Placement of one block (R58, R63, R118, R393): what it adds and what it leaves.
-/
namespace Sys2Proof.Machine

/-! ### The store of a function -/

theorem smGet_table_from {α : Type} [DecidableEq α] (d : α) (f : Nat → α) (n lo i : Nat) :
    smGet d ((List.range' lo n).filterMap (fun j => if f j = d then none else some (j, f j))) i =
      if lo ≤ i ∧ i < lo + n then f i else d := by
  induction n generalizing lo with
  | zero => simp [smGet, show ¬(lo ≤ i ∧ i < lo) by omega]
  | succ n ih =>
    rw [List.range'_succ, List.filterMap_cons]
    by_cases h : f lo = d
    · rw [if_pos h]
      refine (ih (lo + 1)).trans ?_
      by_cases hi : i = lo
      · subst hi
        simp [h]
      · exact if_congr (by omega) rfl rfl
    · rw [if_neg h]
      change (if i = lo then f lo else if i < lo then d else smGet d _ i) = _
      split
      · next hi => rw [hi, if_pos (by omega)]
      · split
        · rw [if_neg (by omega)]
        · rw [ih]
          exact if_congr (by omega) rfl rfl

theorem smGet_smTable {α : Type} [DecidableEq α] (d : α) (n : Nat) (f : Nat → α) (i : Nat) :
    smGet d (smTable d n f) i = if i < n then f i else d := by
  rw [smTable, List.range_eq_range', smGet_table_from]
  exact if_congr (by omega) rfl rfl

/-! ### The start state of a team (R63) -/

/-- A team is in the start state of a launch's kernel (R63). -/
structure StartState (l : Launch) (x : Team) : Prop where
  lid : x.lid = l.lid
  phase : x.phase = .ready
  pc : x.pc = BitVec.ofNat 32 l.k.entry
  lanes : x.lanes = { Team.absent.lanes with active := firstLanes l.k.lanes }
  win : x.win = Team.absent.win
  sp : x.sp = { Team.absent.sp with mode := l.k.initMode }
  system : x.system = l.d.priv
  size : x.size = l.k.lanes
  scalars : x.regs.s = smTable 0 16 (fun i => l.d.args.getD i 0)
  vectors : x.regs.v = smTable 0 l.k.lanes (fun n => BitVec.ofNat 32 (x.tib * l.k.lanes + n))
  side : x.regs.side = []
  preds : x.regs.p = []
  sstack : x.sstack = []
  mat : x.mat = Team.absent.mat
  fault : x.fault = none
  loads : x.loads = []

theorem startState_startTeam (l : Launch) (bid index tib uid core sec base : Nat) :
    StartState l (startTeam l.k l.d l.lid bid index tib uid core sec base) :=
  ⟨rfl, rfl, rfl, rfl, rfl, rfl, rfl, rfl, rfl, rfl, rfl, rfl, rfl, rfl, rfl, rfl⟩

/-! ### The new block -/

/-- A block of a cluster, newly placed on one of some cores, with what the state before fixes about it. -/
structure NewBlock (s : State) (l : Launch) (cid : Nat) (cores : List Nat) (b : Block) : Prop where
  lid : b.lid = l.lid
  cid : b.cid = cid
  k : b.k = l.k
  d : b.d = l.d
  ended : b.ended = false
  swapped : b.swapped = false
  core : b.core ∈ cores
  tag : 1 ≤ b.tag ∧ b.tag ≤ 255
  spad : b.spad = []
  counters : b.counters = []
  eff : b.eff = s.region l.d.rcb
  dom : b.dom = s.domRef l.d.rcb
  prid : b.prid = (s.partition l.d.rcb).elim 0 Region.rid

/-- What placing blocks leaves of a state. -/
structure SameBut (s t : State) : Prop where
  team : t.team = s.team
  blk : t.blk = s.blk
  launches : t.launches = s.launches
  clusters : t.clusters = s.clusters
  rrRegion : t.rrRegion = s.rrRegion
  regions : t.regions = s.regions
  domains : t.domains = s.domains

section
variable {s t u : State} {l : Launch} {cid : Nat} {cores : List Nat} {b : Block}

theorem SameBut.trans (h : SameBut s t) (h' : SameBut t u) : SameBut s u :=
  ⟨h'.team.trans h.team, h'.blk.trans h.blk, h'.launches.trans h.launches, h'.clusters.trans h.clusters,
    h'.rrRegion.trans h.rrRegion, h'.regions.trans h.regions, h'.domains.trans h.domains⟩

theorem SameBut.region (h : SameBut s t) (rcb : Nat) : t.region rcb = s.region rcb := by
  rw [State.region, h.regions, State.region]

theorem SameBut.partition (h : SameBut s t) (rcb : Nat) : t.partition rcb = s.partition rcb := by
  rw [State.partition, State.path, h.regions, State.partition, State.path]

theorem SameBut.domRef (h : SameBut s t) (rcb : Nat) : t.domRef rcb = s.domRef rcb := by
  have hd : t.findDomain = s.findDomain := by
    funext r
    rw [State.findDomain, h.domains, State.findDomain]
  rw [State.domRef, State.domRef, h.partition, hd, State.domainRcb, State.path, h.regions, State.domainRcb, State.path]

theorem NewBlock.of_sameBut (hb : NewBlock t l cid cores b) (h : SameBut s t) : NewBlock s l cid cores b :=
  { hb with
    eff := hb.eff.trans (h.region _)
    dom := hb.dom.trans (h.domRef _)
    prid := hb.prid.trans (by rw [h.partition]) }

end

/-- The blocks and teams are the same too: only counters and memory may differ. -/
structure SameMachine (s t : State) : Prop extends SameBut s t where
  blocks : t.blocks = s.blocks
  others : t.others = s.others

theorem SameMachine.trans {s t u : State} (h : SameMachine s t) (h' : SameMachine t u) : SameMachine s u :=
  ⟨h.toSameBut.trans h'.toSameBut, h'.blocks.trans h.blocks, h'.others.trans h.others⟩

theorem sameMachine_draw (s : State) : SameMachine s s.draw.2 := ⟨⟨rfl, rfl, rfl, rfl, rfl, rfl, rfl⟩, rfl, rfl⟩

theorem sameMachine_newId (s : State) : SameMachine s s.newId.2 := ⟨⟨rfl, rfl, rfl, rfl, rfl, rfl, rfl⟩, rfl, rfl⟩

theorem SameMachine.zeroPhys {s t : State} (h : SameMachine s t) (pa n : Nat) : SameMachine s (t.zeroPhys pa n) :=
  h.trans ⟨⟨rfl, rfl, rfl, rfl, rfl, rfl, rfl⟩, rfl, rfl⟩

theorem sameMachine_zeroVirt (s : State) (v : View) (va n : Nat) : SameMachine s (s.zeroVirt v va n) := by
  have hs : SameMachine s s := ⟨⟨rfl, rfl, rfl, rfl, rfl, rfl, rfl⟩, rfl, rfl⟩
  unfold State.zeroVirt
  split
  · exact hs
  · refine foldl_keeps (SameMachine s) _ (fun t i ht => ?_) _ s hs
    dsimp only
    split
    · split
      · exact ht.zeroPhys _ _
      · exact ht
    · exact ht

theorem sameMachine_newIds (s : State) (ids : List Nat) (n : Nat) : SameMachine s
    ((List.range n).foldl (fun (r : List Nat × State) _ => let x := r.2.newId; (r.1 ++ [x.1], x.2)) (ids, s)).2 :=
  foldl_keeps (fun r : List Nat × State => SameMachine s r.2) _ (fun r _ hr => hr.trans (sameMachine_newId r.2)) _ (ids, s)
    ⟨⟨rfl, rfl, rfl, rfl, rfl, rfl, rfl⟩, rfl, rfl⟩

/-- A tag drawn from the free ones is one of 1..255 (R118). -/
theorem freeTags_getD (s : State) (cores : List Nat) (i : Nat) :
    1 ≤ (s.freeTags cores).getD i 1 ∧ (s.freeTags cores).getD i 1 ≤ 255 := by
  have hm : ∀ x ∈ s.freeTags cores, 1 ≤ x ∧ x ≤ 255 := by
    intro x hx
    have hr := (List.mem_filter.mp hx).1
    rw [List.range_eq_range', List.drop_range', List.mem_range'_1] at hr
    omega
  rw [List.getD_eq_getElem?_getD]
  cases h : (s.freeTags cores)[i]? with
  | none => exact ⟨Nat.le_refl 1, by decide⟩
  | some x => exact hm x (List.mem_of_getElem? h)

/-- More blocks of a launch, on some cores, and their teams in the start state. -/
structure AddsBlocks (s : State) (l : Launch) (cid : Nat) (cores : List Nat) (t : State) (bs : List Block) (ts : List Team) :
    Prop where
  same : SameBut s t
  blocks : t.blocks = s.blocks ++ bs
  others : t.others = s.others ++ ts
  new : ∀ b ∈ bs, NewBlock s l cid cores b
  teams : ts.length = bs.length * l.k.teams
  start : ∀ x ∈ ts, StartState l x

section
variable {s t u : State} {l : Launch} {cid : Nat} {cores : List Nat} {bs bs' : List Block} {ts ts' : List Team}

theorem AddsBlocks.trans (h : AddsBlocks s l cid cores t bs ts) (h' : AddsBlocks t l cid cores u bs' ts') :
    AddsBlocks s l cid cores u (bs ++ bs') (ts ++ ts') where
  same := h.same.trans h'.same
  blocks := by rw [h'.blocks, h.blocks, List.append_assoc]
  others := by rw [h'.others, h.others, List.append_assoc]
  new := fun b hb => (List.mem_append.mp hb).elim (h.new b) (fun hb => (h'.new b hb).of_sameBut h.same)
  teams := by rw [List.length_append, List.length_append, h.teams, h'.teams, Nat.add_mul]
  start := fun x hx => (List.mem_append.mp hx).elim (h.start x) (h'.start x)

theorem AddsBlocks.of_sameMachine (h : AddsBlocks t l cid cores u bs ts) (hs : SameMachine s t) :
    AddsBlocks s l cid cores u bs ts where
  same := hs.toSameBut.trans h.same
  blocks := h.blocks.trans (by rw [hs.blocks])
  others := h.others.trans (by rw [hs.others])
  new := fun b hb => (h.new b hb).of_sameBut hs.toSameBut
  teams := h.teams
  start := h.start

end

theorem placeBlock_adds (s : State) (l : Launch) (cid index x y z rank core : Nat) (cores : List Nat) (hc : core ∈ cores) :
    ∃ b ts, AddsBlocks s l cid cores (s.placeBlock l cid index x y z rank core) [b] ts ∧ b.core = core ∧ b.index = index := by
  unfold State.placeBlock
  extract_lets k d n r1 r2 r3 tags slots sec id bid ids team pbase _ b _ t
  have hids : SameMachine s ids.2 := (((sameMachine_draw s).trans (sameMachine_draw r1.2)).trans (sameMachine_draw r2.2)).trans
    ((sameMachine_newId r3.2).trans (sameMachine_newIds r3.2.newId.2 [] k.teams))
  clear_value ids
  have hz := sameMachine_zeroVirt t (t.view d.rcb true) pbase (k.blockLanes * d.privSz)
  have ht : SameBut ids.2 t := ⟨rfl, rfl, rfl, rfl, rfl, rfl, rfl⟩
  refine ⟨b, (List.range k.teams).map team, ⟨(hids.toSameBut.trans ht).trans hz.toSameBut, ?_, ?_, ?_, by simp [k], ?_⟩, rfl, rfl⟩
  · exact hz.blocks.trans (congrArg (· ++ [b]) hids.blocks)
  · exact hz.others.trans (congrArg (· ++ (List.range k.teams).map team) hids.others)
  · intro c hm
    rw [List.mem_singleton.mp hm]
    exact { lid := rfl, cid := rfl, k := rfl, d := rfl, ended := rfl, swapped := rfl, core := hc
            tag := freeTags_getD _ _ _, spad := rfl, counters := rfl, eff := rfl, dom := rfl, prid := rfl }
  · intro u hu
    obtain ⟨j, -, rfl⟩ := List.mem_map.mp hu
    exact startState_startTeam l _ _ _ _ _ _ _

end Sys2Proof.Machine
end

section
/-!
PROOF. A cluster's blocks (R58, R393), the launch that is served (R391), and the step that places them.
-/
namespace Sys2Proof.Machine

/-! ### The first number of a range, and the greatest of some -/

theorem findSome?_range {α : Type} {f : Nat → Option α} {n : Nat} {x : α} (h : (List.range n).findSome? f = some x) :
    ∃ i, i < n ∧ f i = some x ∧ ∀ j, j < i → f j = none := by
  obtain ⟨xs, i, ys, hl, hf, hn⟩ := List.findSome?_eq_some_iff.mp h
  rw [List.range_eq_range', List.range'_eq_append_iff] at hl
  obtain ⟨k, hk, rfl, hys⟩ := hl
  rw [eq_comm, List.range'_eq_cons_iff] at hys
  obtain ⟨rfl, hpos, -⟩ := hys
  refine ⟨_, by omega, hf, fun j hj => hn j ?_⟩
  rw [List.mem_range'_1]
  omega

theorem foldl_max_spec {α : Type} (f : α → Nat) (xs : List α) (a : Nat) :
    a ≤ xs.foldl (fun m x => max m (f x)) a ∧ (∀ x ∈ xs, f x ≤ xs.foldl (fun m x => max m (f x)) a)
      ∧ (xs.foldl (fun m x => max m (f x)) a = a ∨ ∃ x ∈ xs, xs.foldl (fun m x => max m (f x)) a = f x) := by
  induction xs generalizing a with
  | nil => exact ⟨Nat.le_refl a, fun _ h => absurd h List.not_mem_nil, .inl rfl⟩
  | cons x xs ih =>
    obtain ⟨hle, hall, hatt⟩ := ih (max a (f x))
    rw [List.foldl_cons]
    refine ⟨by omega, fun y hy => ?_, ?_⟩
    · rcases List.mem_cons.mp hy with rfl | hy
      · omega
      · exact hall y hy
    · rcases hatt with h | ⟨y, hy, h⟩
      · rcases Nat.le_total a (f x) with hx | hx
        · exact .inr ⟨x, List.mem_cons_self, h.trans (Nat.max_eq_right hx)⟩
        · exact .inl (h.trans (Nat.max_eq_left hx))
      · exact .inr ⟨y, List.mem_cons_of_mem x hy, h⟩

/-! ### The cursor after a placement -/

/-- The highest core that a block uses. -/
abbrev Block.topCore (b : Block) : Nat := b.core + (if b.k.twin = true then 1 else 0)

theorem foldl_max_cores (bs : List Block) (a : Nat) :
    (bs.flatMap (fun b => b.k.cores b.core)).foldl max a = bs.foldl (fun m b => max m b.topCore) a := by
  rw [List.foldl_flatMap]
  congr 1
  funext m b
  cases h : b.k.twin
  · simp [Kernel.cores, Block.topCore, h]
  · simp only [Kernel.cores, Block.topCore, h, if_true, List.foldl_cons, List.foldl_nil]
    omega

section
variable {s t u : State} {l : Launch} {cid : Nat} {cores : List Nat} {bs : List Block} {ts : List Team}

theorem AddsBlocks.allBlocks (h : AddsBlocks s l cid cores t bs ts) : t.allBlocks = s.allBlocks ++ bs := by
  rw [State.allBlocks, State.allBlocks, h.same.blk, h.blocks]
  split <;> rfl

theorem AddsBlocks.not_mem (h : AddsBlocks s l cid cores t bs ts) (hn : ∀ y ∈ s.allBlocks, y.cid ≠ cid) {b : Block}
    (hb : b ∈ bs) : b ∉ s.blocks := by
  intro hm
  refine hn b ?_ (h.new b hb).cid
  unfold State.allBlocks
  split
  · exact hm
  · exact List.mem_cons_of_mem _ hm

/-- The cores of a cluster whose id no other block has are those of its blocks. -/
theorem AddsBlocks.clusterCores (h : AddsBlocks s l cid cores t bs ts) (hn : ∀ y ∈ s.allBlocks, y.cid ≠ cid) :
    t.clusterCores cid = bs.flatMap (fun b => b.k.cores b.core) := by
  have hold : s.allBlocks.filter (fun b => b.cid == cid) = [] := by
    rw [List.filter_eq_nil_iff]
    exact fun y hy => by simpa using hn y hy
  have hnew : bs.filter (fun b => b.cid == cid) = bs := by
    rw [List.filter_eq_self]
    exact fun b hb => by simpa using (h.new b hb).cid
  rw [State.clusterCores, h.allBlocks, List.filter_append, hold, hnew, List.nil_append]

/-! ### One block after another (R393) -/

theorem placeFirst_some {rank : Nat} (h : s.placeFirst l cid rank cores = some t) :
    ∃ b ts, AddsBlocks s l cid cores t [b] ts ∧ cores.find? (s.fits l.lid l.k l.d) = some b.core
      ∧ b.index = (l.d.blockOf l.next rank).2.2.2 := by
  unfold State.placeFirst at h
  obtain ⟨core, hf, rfl⟩ := Option.map_eq_some_iff.mp h
  obtain ⟨b, ts, hadds, rfl, hi⟩ := placeBlock_adds s l cid _ (l.d.blockOf l.next rank).1 (l.d.blockOf l.next rank).2.1
    (l.d.blockOf l.next rank).2.2.1 rank core cores (List.mem_of_find?_eq_some hf)
  exact ⟨b, ts, hadds, hf, hi⟩

theorem placeAll_some {ranks : List Nat}
    (h : ranks.foldlM (fun (t : State) r => t.placeFirst l cid r cores) s = some t) :
    ∃ bs ts, AddsBlocks s l cid cores t bs ts ∧ bs.length = ranks.length := by
  induction ranks generalizing s with
  | nil =>
    obtain rfl : s = t := Option.some.inj h
    exact ⟨[], [], ⟨⟨rfl, rfl, rfl, rfl, rfl, rfl, rfl⟩, (List.append_nil _).symm, (List.append_nil _).symm,
      fun _ h => absurd h List.not_mem_nil, by simp, fun _ h => absurd h List.not_mem_nil⟩, rfl⟩
  | cons r ranks ih =>
    rw [List.foldlM_cons] at h
    obtain ⟨u, hu, ht⟩ := Option.bind_eq_some_iff.mp h
    obtain ⟨b, ts, hadds, -⟩ := placeFirst_some hu
    obtain ⟨bs, ts', hrest, hlen⟩ := ih ht
    exact ⟨_, _, hadds.trans hrest, by simp [hlen]⟩

/-- A cluster, or one block, is placed: its blocks, then a record of the cluster and a new cursor (R393). -/
structure UnitPlaced (s : State) (l : Launch) (cores : List Nat) (t : State) (bs : List Block) (ts : List Team) : Prop where
  adds : ∃ u, AddsBlocks s l s.nextId cores u bs ts
    ∧ ∃ c free, t = { u with clusters := u.clusters ++ [c], free := free, cursor := (u.clusterCores s.nextId).foldl max 0 }
  size : bs.length = l.d.clSize
  single : l.d.clSize = 1 → ∃ b, bs = [b] ∧ cores.find? (s.newId.2.fits l.lid l.k l.d) = some b.core
    ∧ b.index = (l.d.blockOf l.next 0).2.2.2

theorem placeUnit_some (h : s.placeUnit l cores = some t) : ∃ bs ts, UnitPlaced s l cores t bs ts := by
  unfold State.placeUnit at h
  dsimp only at h
  split at h
  · exact nomatch h
  · next u hu =>
    split at h
    · exact nomatch h
    · obtain rfl := Option.some.inj h
      obtain ⟨bs, ts, hadds, hlen⟩ := placeAll_some hu
      rw [List.length_range] at hlen
      by_cases h1 : l.d.clSize = 1
      · rw [h1, List.range_one, List.foldlM_cons] at hu
        obtain ⟨v, hv, hvu⟩ := Option.bind_eq_some_iff.mp hu
        obtain rfl : v = u := Option.some.inj hvu
        obtain ⟨b, ts, hadds, hf, hi⟩ := placeFirst_some hv
        exact ⟨[b], ts, ⟨_, hadds.of_sameMachine (sameMachine_newId s), _, _, rfl⟩, h1.symm, fun _ => ⟨b, rfl, hf, hi⟩⟩
      · exact ⟨bs, ts, ⟨_, hadds.of_sameMachine (sameMachine_newId s), _, _, rfl⟩, hlen, fun h => absurd h h1⟩

theorem newId_fits (s : State) : s.newId.2.fits = s.fits := rfl

/-- The cores of a core group (R16). -/
abbrev groupRange (g : Nat) : List Nat := (List.range 16).map (fun c => 16 * g + c)

theorem tryPlace_clustered (hc : l.d.clustered = true) (h : s.tryPlace l = some t) :
    ∃ i, i < 12 ∧ s.placeUnit l (groupRange (((s.cursor + 1) % 192 / 16 + i) % 12)) = some t
      ∧ ∀ j, j < i → s.placeUnit l (groupRange (((s.cursor + 1) % 192 / 16 + j) % 12)) = none := by
  rw [State.tryPlace, if_pos hc] at h
  exact findSome?_range h

theorem tryPlace_single (hc : l.d.clustered = false) (h : s.tryPlace l = some t) :
    s.placeUnit l ((List.range 192).map (fun i => (s.cursor + 1 + i) % 192)) = some t := by
  rwa [State.tryPlace, if_neg (by simp [hc])] at h

theorem clSize_single (hc : l.d.clustered = false) : l.d.clSize = 1 := by
  rw [LaunchDesc.clSize, LaunchDesc.clDims, if_neg (by simp [hc])]
  rfl

theorem mem_groupRange {g c : Nat} (h : c ∈ groupRange g) : c / 16 = g := by
  obtain ⟨i, hi, rfl⟩ := List.mem_map.mp h
  rw [List.mem_range] at hi
  omega

/-- Every placement uses cores of the chip. -/
theorem tryPlace_some (h : s.tryPlace l = some t) :
    ∃ cores bs ts, UnitPlaced s l cores t bs ts ∧ ∀ c ∈ cores, c < 192 := by
  cases hc : l.d.clustered with
  | true =>
    obtain ⟨i, -, hp, -⟩ := tryPlace_clustered hc h
    obtain ⟨bs, ts, hu⟩ := placeUnit_some hp
    exact ⟨_, bs, ts, hu, fun c hm => by have := mem_groupRange hm; omega⟩
  | false =>
    obtain ⟨bs, ts, hu⟩ := placeUnit_some (tryPlace_single hc h)
    refine ⟨_, bs, ts, hu, fun c hm => ?_⟩
    obtain ⟨i, -, rfl⟩ := List.mem_map.mp hm
    exact Nat.mod_lt _ (by decide)

end

end Sys2Proof.Machine
end

section
/-!
PROOF. The launch that is served (R391), what fits (R392), and the statement about placement.
-/
namespace Sys2Proof.Machine

/-! ### The launch served first -/

/-- The better of what was best and one more element. -/
def keepBest {α : Type} (better : α → α → Bool) (best : Option α) (x : α) : Option α :=
  match best with
  | none => some x
  | some b => if better x b then some x else some b

section
variable {α : Type} {better : α → α → Bool} (hasymm : ∀ a b, better a b = true → better b a = false)
include hasymm

theorem not_better_self (a : α) : better a a = false := by
  rw [Bool.eq_false_iff]
  exact fun h => Bool.false_ne_true ((hasymm a a h).symm.trans h)

/-- What is kept is one of the two, and neither is better. -/
theorem keepBest_spec (best : Option α) (z : α) : ∃ y, keepBest better best z = some y ∧ (y = z ∨ best = some y) ∧
    better z y = false ∧ ∀ b, best = some b → better b y = false := by
  cases best with
  | none => exact ⟨z, rfl, .inl rfl, not_better_self hasymm z, fun _ h => nomatch h⟩
  | some b =>
    cases h : better z b with
    | true => exact ⟨z, if_pos h, .inl rfl, not_better_self hasymm z, fun _ hb => Option.some.inj hb ▸ hasymm z b h⟩
    | false => exact ⟨b, if_neg (by simp [h]), .inr rfl, h, fun _ hb => Option.some.inj hb ▸ not_better_self hasymm b⟩

/-- A fold that keeps the better of two ends with an element that none is better than, if not being better is transitive. -/
theorem foldl_keepBest (htrans : ∀ a b c, better b a = false → better c b = false → better c a = false) {xs : List α}
    {init : Option α} {x : α} (h : xs.foldl (keepBest better) init = some x) :
    (x ∈ xs ∨ init = some x) ∧ (∀ y ∈ xs, better y x = false) ∧ ∀ y, init = some y → better y x = false := by
  induction xs generalizing init with
  | nil =>
    obtain rfl : init = some x := h
    exact ⟨.inr rfl, fun _ h => absurd h List.not_mem_nil, fun y hy => Option.some.inj hy ▸ not_better_self hasymm x⟩
  | cons z xs ih =>
    obtain ⟨b, hb, hone, hz, hi⟩ := keepBest_spec hasymm init z
    rw [List.foldl_cons, hb] at h
    obtain ⟨hmem, hxs, hinit⟩ := ih h
    have hbx : better b x = false := hinit b rfl
    refine ⟨?_, List.forall_mem_cons.mpr ⟨htrans x b z hbx hz, hxs⟩, fun y hy => htrans x b y hbx (hi y hy)⟩
    rcases hmem with hm | hm
    · exact .inl (List.mem_cons_of_mem z hm)
    · obtain rfl := Option.some.inj hm
      exact hone.imp (fun h => List.mem_cons.mpr (.inl h)) id

end

section
variable {s t : State} {l m : Launch}

/-- How soon after the last one served a launch's region has its turn, at its priority (R391, log 71). -/
def State.turnOf (s : State) (l : Launch) : Nat := (l.d.rcb + 2 ^ 64 - 1 - smGet 0 s.rrRegion (s.prio l.d.rcb)) % 2 ^ 64

/-- Launch `m` is not served before `l`. -/
def State.NotBefore (s : State) (m l : Launch) : Prop :=
  s.prio m.d.rcb ≤ s.prio l.d.rcb ∧ (s.prio m.d.rcb = s.prio l.d.rcb →
    s.turnOf l < s.turnOf m ∨ (s.turnOf l = s.turnOf m ∧ l.readySeq ≤ m.readySeq))

theorem servedBefore_iff : s.servedBefore m l = true ↔ s.prio l.d.rcb < s.prio m.d.rcb ∨ (s.prio m.d.rcb = s.prio l.d.rcb ∧
    (s.turnOf m < s.turnOf l ∨ (s.turnOf m = s.turnOf l ∧ m.readySeq < l.readySeq))) := by
  simp only [State.servedBefore, State.turnOf, Bool.or_eq_true, Bool.and_eq_true, decide_eq_true_eq]

theorem servedBefore_false : s.servedBefore m l = false ↔ s.NotBefore m l := by
  rw [← Bool.not_eq_true, servedBefore_iff, State.NotBefore]
  omega

theorem servedBefore_asymm (h : s.servedBefore m l = true) : s.servedBefore l m = false := by
  rw [servedBefore_iff] at h
  rw [servedBefore_false, State.NotBefore]
  omega

theorem notBefore_trans {k : Launch} (h : s.NotBefore m l) (h' : s.NotBefore k m) : s.NotBefore k l := by
  unfold State.NotBefore at *
  omega

/-- Launches that can be placed, with what placing each makes. -/
def State.placeable (s : State) : List (Launch × State) := s.unplaced.filterMap (fun l => (s.tryPlace l).map (fun t => (l, t)))

/-- The order in which launches with a placement are served. -/
def State.betterOf (s : State) (x y : Launch × State) : Bool := s.servedBefore x.1 y.1

theorem betterOf_false {x y : Launch × State} : s.betterOf x y = false ↔ s.NotBefore x.1 y.1 := servedBefore_false

theorem betterOf_asymm (x y : Launch × State) (h : s.betterOf x y = true) : s.betterOf y x = false := servedBefore_asymm h

theorem betterOf_trans (x y z : Launch × State) (h : s.betterOf y x = false) (h' : s.betterOf z y = false) :
    s.betterOf z x = false := by
  rw [betterOf_false] at *
  exact notBefore_trans h h'

theorem mem_placeable {x : Launch × State} : x ∈ s.placeable ↔ x.1 ∈ s.unplaced ∧ s.tryPlace x.1 = some x.2 := by
  obtain ⟨l, t⟩ := x
  simp only [State.placeable, List.mem_filterMap, Option.map_eq_some_iff, Prod.mk.injEq]
  constructor
  · rintro ⟨m, hm, u, hu, rfl, rfl⟩
    exact ⟨hm, hu⟩
  · exact fun ⟨hm, hu⟩ => ⟨l, hm, t, hu, rfl, rfl⟩

theorem choose_eq (s : State) : s.choose = s.placeable.foldl (keepBest s.betterOf) none := by
  unfold State.choose
  congr 1
  funext best x
  cases best <;> rfl

theorem choose_some (h : s.choose = some (l, t)) : l ∈ s.unplaced ∧ s.tryPlace l = some t ∧
    ∀ m ∈ s.unplaced, (s.tryPlace m).isSome = true → s.NotBefore m l := by
  rw [choose_eq] at h
  obtain ⟨hmem, hall, -⟩ := foldl_keepBest betterOf_asymm betterOf_trans h
  obtain ⟨hl, ht⟩ := mem_placeable.mp (hmem.resolve_right nofun)
  refine ⟨hl, ht, fun m hm hp => ?_⟩
  obtain ⟨u, hu⟩ := Option.isSome_iff_exists.mp hp
  exact betterOf_false.mp (hall (m, u) (mem_placeable.mpr ⟨hm, hu⟩))

/-! ### What a placement leaves and adds -/

section
variable {cores : List Nat} {bs : List Block} {ts : List Team} (h : UnitPlaced s l cores t bs ts)
include h

theorem UnitPlaced.blocks : t.blocks = s.blocks ++ bs := by
  obtain ⟨u, hu, c, free, rfl⟩ := h.adds
  exact hu.blocks

theorem UnitPlaced.others : t.others = s.others ++ ts := by
  obtain ⟨u, hu, c, free, rfl⟩ := h.adds
  exact hu.others

theorem UnitPlaced.clusters : t.clusters.length = s.clusters.length + 1 := by
  obtain ⟨u, hu, c, free, rfl⟩ := h.adds
  rw [← hu.same.clusters]
  exact List.length_append

theorem UnitPlaced.kept : t.team = s.team ∧ t.blk = s.blk ∧ t.launches = s.launches ∧ t.rrRegion = s.rrRegion := by
  obtain ⟨u, hu, c, free, rfl⟩ := h.adds
  exact ⟨hu.same.team, hu.same.blk, hu.same.launches, hu.same.rrRegion⟩

theorem UnitPlaced.new : ∀ b ∈ bs, NewBlock s l s.nextId cores b := by
  obtain ⟨u, hu, -⟩ := h.adds
  exact hu.new

theorem UnitPlaced.teams : ts.length = l.d.clSize * l.k.teams ∧ ∀ x ∈ ts, StartState l x := by
  obtain ⟨u, hu, -⟩ := h.adds
  exact ⟨h.size ▸ hu.teams, hu.start⟩

theorem UnitPlaced.mem_new {b : Block} (hb : b ∈ t.blocks) (hn : b ∉ s.blocks) : b ∈ bs :=
  (List.mem_append.mp (h.blocks ▸ hb)).resolve_left hn

section
variable (hn : ∀ y ∈ s.allBlocks, y.cid ≠ s.nextId)
include hn

theorem UnitPlaced.not_mem {b : Block} (hb : b ∈ bs) : b ∈ t.blocks ∧ b ∉ s.blocks := by
  obtain ⟨u, hu, -⟩ := h.adds
  exact ⟨h.blocks ▸ List.mem_append_right _ hb, hu.not_mem hn hb⟩

/-- The cursor is the highest core that the new blocks use. -/
theorem UnitPlaced.cursor : t.cursor = bs.foldl (fun m b => max m b.topCore) 0 := by
  obtain ⟨u, hu, c, free, rfl⟩ := h.adds
  exact (congrArg (List.foldl max 0) (hu.clusterCores hn)).trans (foldl_max_cores bs 0)

theorem UnitPlaced.topCore_le {b : Block} (hb : b ∈ bs) : b.topCore ≤ t.cursor := by
  rw [h.cursor hn]
  exact (foldl_max_spec Block.topCore bs 0).2.1 b hb

theorem UnitPlaced.exists_topCore (hpos : 0 < l.d.clSize) : ∃ b ∈ bs, t.cursor = b.topCore := by
  obtain ⟨-, hall, hatt⟩ := foldl_max_spec Block.topCore bs 0
  rw [h.cursor hn]
  rcases hatt with h0 | hb
  · obtain ⟨b, hb⟩ := List.exists_mem_of_length_pos (h.size ▸ hpos)
    have := hall b hb
    exact ⟨b, hb, by omega⟩
  · exact hb

end

end

/-- The state after the placement of a launch's next unit. -/
def State.served (s : State) (l : Launch) (t : State) : State :=
  { t.modLaunch l.lid (fun x => { x with
      next := x.next + 1, waitSince := if x.next + 1 < l.d.clusterCount then some s.clk else none, starved := false })
    with rrRegion := smSet 0 t.rrRegion (s.prio l.d.rcb) l.d.rcb }

theorem place_served (h : s.choose = some (l, t)) : s.place l.d.clustered = s.served l t := by
  rw [State.place, h]
  exact if_pos rfl

theorem place_other (h : s.choose = some (l, t)) {c : Bool} (hc : l.d.clustered ≠ c) : s.place c = s := by
  rw [State.place, h]
  exact if_neg hc

theorem place_none (h : s.choose = none) (c : Bool) : s.place c = s := by
  rw [State.place, h]

theorem exec_place (c : Bool) : exec (if c then .clusterPlace else .blockPlace) s = .next (s.place c) := by
  cases c <;> rfl

theorem mem_served_launches (hl : t.launches = s.launches) (hm : m ∈ (s.served l t).launches) (hid : m.lid = l.lid) :
    ∃ m0 ∈ s.launches, m0.lid = l.lid ∧ m.next = m0.next + 1 ∧ m.starved = false := by
  obtain ⟨m0, h0, rfl⟩ := List.mem_map.mp (show m ∈ t.launches.map _ from hm)
  rw [hl] at h0
  by_cases he : m0.lid = l.lid
  · simp only [if_pos he]
    exact ⟨m0, h0, he, rfl, trivial⟩
  · simp only [if_neg he] at hid
    exact absurd hid he

/-- The block of a launch without clusters has its number as index (R58). -/
theorem blockOf_index (hc : l.d.clustered = false) : (l.d.blockOf l.next 0).2.2.2 = l.next := by
  have hdims : l.d.clDims = (1, 1, 1) := if_neg (by simp [hc])
  have hz : l.next / (l.d.gridX * l.d.gridY) = l.next / l.d.gridX / l.d.gridY := (Nat.div_div_eq_div_mul _ _ _).symm
  simp only [LaunchDesc.blockOf, hdims, Nat.div_one, Nat.mul_one, Nat.zero_mod, Nat.add_zero, hz]
  rw [Nat.mod_add_div, Nat.mod_add_div]

/-! ### Fitting (R372, R391, R392) -/

/-- Some of what fitting a core asks for. -/
structure FitsCore (s : State) (lid : Nat) (k : Kernel) (d : LaunchDesc) (c : Nat) : Prop where
  twin : k.twin = true → c % 2 = 0
  spad : s.usedSpad c + k.coreSpad false (s.firstTeams k c) ≤ coreSpadBytes
  bars : s.usedEven c (fun b => b.k.bars) + k.bars ≤ 128
  counters : s.usedEven c (fun b => b.d.ccount) + d.ccount ≤ 64
  slots : s.usedOn c none (fun b => b.k.slots) + k.slots ≤ 96
  accs : s.usedOn c none (fun b => b.k.accs) + k.accs ≤ 96
  budget : s.budgetOk k d.rcb (k.cores c) = true
  tags : s.freeTags (k.cores c) ≠ []
  starved : s.starvedElsewhere lid (s.prio d.rcb) (c / 16) = false

theorem mem_cores (k : Kernel) (c : Nat) : c ∈ k.cores c := by
  unfold Kernel.cores
  split <;> exact List.mem_cons_self

theorem fitsCore {lid : Nat} {k : Kernel} {d : LaunchDesc} {c : Nat} (h : s.fits lid k d c = true) : FitsCore s lid k d c := by
  unfold State.fits at h
  simp only [Bool.and_eq_true, decide_eq_true_eq, Bool.or_eq_true, Bool.not_eq_true', State.teamsFit,
    List.isEmpty_eq_false_iff] at h
  obtain ⟨⟨⟨⟨⟨⟨⟨⟨⟨⟨⟨htwin, -, hspad⟩, -⟩, hbars⟩, hcounters⟩, hall⟩, -⟩, hbudget⟩, htags⟩, -⟩, hstarved⟩, -⟩ := h
  have hc := List.all_eq_true.mp hall c (mem_cores k c)
  simp only [Bool.and_eq_true, decide_eq_true_eq] at hc
  obtain ⟨⟨⟨-, hslots⟩, haccs⟩, -⟩ := hc
  exact ⟨fun ht => htwin.resolve_left (by simp [ht]), hspad, hbars, hcounters, hslots, haccs, hbudget, htags, hstarved⟩

section
variable {lid : Nat} {k : Kernel} {d : LaunchDesc} {c : Nat}

theorem budgetOk_cgmask {cores : List Nat} (h : s.budgetOk k d.rcb cores = true) (hc : c ∈ cores) {r : Region}
    (hr : s.region d.rcb = some r) (hf : s.findRegion d.rcb ≠ none) : r.cgmask.testBit (c / 16) = true := by
  obtain ⟨r0, h0⟩ := Option.ne_none_iff_exists'.mp hf
  have hrcb : r0.rcb = d.rcb := by simpa using List.find?_some h0
  have hmem : r0 ∈ s.path d.rcb := by
    unfold State.path ancestors
    rw [show s.regions.find? (fun r => r.rcb == d.rcb) = some r0 from h0]
    dsimp only
    split <;> exact List.mem_cons_self
  have hb := List.all_eq_true.mp h r0 hmem
  rw [hrcb, hr] at hb
  simp only [Bool.and_eq_true] at hb
  have hcore := List.all_eq_true.mp hb.2 c hc
  simp only [Bool.and_eq_true] at hcore
  exact hcore.1.1

/-- The next block of a launch has waited 100 us (R391). -/
def State.Starved (s : State) (m : Launch) : Prop :=
  m.next < m.d.clusterCount ∧ (m.starved = true ∨ ∃ c, m.waitSince = some c ∧ c + 175000 ≤ s.clk)

theorem starving_iff : s.starving m = true ↔ s.Starved m := by
  simp [State.starving, State.Starved, Launch.hasNext, Option.any_eq_true]

theorem not_starvedElsewhere {prio g : Nat} (h : s.starvedElsewhere lid prio g = false) (hm : m ∈ s.launches) (hs : s.Starved m)
    (hl : m.lid ≠ lid) (hp : prio ≤ s.prio m.d.rcb) {r : Region} (hr : s.region m.d.rcb = some r) :
    r.cgmask.testBit g = false := by
  have hm := List.any_eq_false.mp h m hm
  simpa [starving_iff.mpr hs, hl, hp, hr] using hm

theorem exists_freeTag (h : s.freeTags (k.cores c) ≠ []) :
    ∃ tag, 1 ≤ tag ∧ tag ≤ 255 ∧ ∀ b ∈ s.coreBlocks c, b.tag ≠ tag := by
  obtain ⟨tag, ht⟩ := List.exists_mem_of_ne_nil _ h
  obtain ⟨hr, hall⟩ := List.mem_filter.mp ht
  rw [List.range_eq_range', List.drop_range', List.mem_range'_1] at hr
  refine ⟨tag, by omega, by omega, fun b hb => ?_⟩
  simpa using List.all_eq_true.mp (List.all_eq_true.mp hall c (mem_cores k c)) b hb

end

/-! ### Starvation, and the release of a block (R391, R211, R123) -/

theorem findLaunch_modLaunch {lid : Nat} {f : Launch → Launch} (hf : ∀ l, (f l).lid = l.lid) (h : s.findLaunch lid = some l) :
    (s.modLaunch lid f).findLaunch lid = some (f l) := by
  have hid : l.lid = lid := by simpa using List.find?_some h
  have hsame : (fun x : Launch => x.lid == lid) ∘ (fun x => if x.lid = lid then f x else x) = fun x => x.lid == lid := by
    funext x
    dsimp only [Function.comp]
    split
    · rw [hf]
    · rfl
  rw [State.findLaunch, State.modLaunch, List.find?_map, hsame, show s.launches.find? _ = some l from h, Option.map_some,
    if_pos hid]

/-- A transfer of a team of the block, or one into its scratchpad, is left (R123). -/
def State.Moving (s : State) (bid : Nat) : Prop := ∃ x ∈ s.teams, ∃ y ∈ x.mat.transfers, x.bid = bid ∨ y.writesTo bid = true

theorem blockDone_iff {b : Block} : s.blockDone b = true ↔
    b.ended = true ∧ (∀ c ∈ s.cmds, c.bid ≠ b.bid) ∧ s.phaseAwaited b.bid = false ∧ ¬s.Moving b.bid := by
  simp [State.blockDone, State.Moving, and_assoc]

theorem exec_blockRelease {b : Block} (h : s.findBlock s.arg.id = some b) :
    exec .blockRelease s = .next (if b.bid ≠ 0 && s.blockDone b then s.dropBlock b else s) := by
  change Host.Outcome.next (match s.findBlock s.arg.id with | some b => _ | none => s) = _
  rw [h]

/-- The parts of a state out of which a block was taken. -/
structure Dropped (s : State) (b : Block) (t : State) : Prop where
  blk : t.blk = if s.blk.bid = b.bid then .absent else s.blk
  blocks : t.blocks = s.blocks.filter (fun x => x.bid != b.bid)
  team : t.team = if s.team.bid = b.bid then .absent else s.team
  others : t.others = s.others.filter (fun t => t.bid != b.bid)
  mem : t.mem = s.mem

theorem dropped_dropBlock (s : State) (b : Block) : Dropped s b (s.dropBlock b) := by
  unfold State.dropBlock
  extract_lets t
  split <;> exact ⟨rfl, rfl, rfl, rfl, rfl⟩

section
variable {b : Block} (h : Dropped s b t)
include h

theorem Dropped.allBlocks : ∀ x ∈ t.allBlocks, x.bid ≠ b.bid := by
  have hrest : ∀ x ∈ t.blocks, x.bid ≠ b.bid := by
    rw [h.blocks]
    exact fun x hx => by simpa using (List.mem_filter.mp hx).2
  intro x hx
  unfold State.allBlocks at hx
  split at hx
  · exact hrest x hx
  · next h0 =>
    rcases List.mem_cons.mp hx with rfl | hx
    · rw [h.blk] at h0 ⊢
      split
      · next he => rw [if_pos he] at h0; exact absurd rfl h0
      · assumption
    · exact hrest x hx

theorem Dropped.teams : ∀ x ∈ t.teams, x.bid ≠ b.bid := by
  have hrest : ∀ x ∈ t.others, x.bid ≠ b.bid := by
    rw [h.others]
    exact fun x hx => by simpa using (List.mem_filter.mp hx).2
  intro x hx
  unfold State.teams at hx
  split at hx
  · exact hrest x hx
  · next h0 =>
    rcases List.mem_cons.mp hx with rfl | hx
    · rw [h.team] at h0 ⊢
      split
      · next he => rw [if_pos he] at h0; exact absurd rfl h0
      · assumption
    · exact hrest x hx

theorem Dropped.keeps : (∀ x ∈ s.blocks, x.bid ≠ b.bid → x ∈ t.blocks) ∧ ∀ x ∈ s.others, x.bid ≠ b.bid → x ∈ t.others := by
  rw [h.blocks, h.others]
  exact ⟨fun x hx hne => List.mem_filter.mpr ⟨hx, by simpa using hne⟩,
    fun x hx hne => List.mem_filter.mpr ⟨hx, by simpa using hne⟩⟩

end

end

end Sys2Proof.Machine
end

section
/-!
PROOF. Placement of blocks as the statement about it says it.
-/
namespace Sys2Proof.Machine

section
variable {s t : State} {l : Launch}

/-- The registers that a team starts with (R63). -/
theorem StartState.registers {x : Team} (h : StartState l x) :
    (∀ n, n < 16 → smGet 0 x.regs.s n = l.d.args.getD n 0) ∧ (∀ n, 16 ≤ n → smGet 0 x.regs.s n = 0)
      ∧ (∀ n, n < l.k.lanes → smGet 0 x.regs.v n = BitVec.ofNat 32 (x.tib * l.k.lanes + n))
      ∧ ∀ n, l.k.lanes ≤ n → smGet 0 x.regs.v n = 0 := by
  rw [h.scalars, h.vectors]
  refine ⟨fun n hn => ?_, fun n hn => ?_, fun n hn => ?_, fun n hn => ?_⟩
  · rw [smGet_smTable, if_pos hn]
  · rw [smGet_smTable, if_neg (Nat.not_lt.mpr hn)]
  · rw [smGet_smTable, if_pos hn]
  · rw [smGet_smTable, if_neg (Nat.not_lt.mpr hn)]

theorem StartState.plane {x : Team} (h : StartState l x) (n : Nat) : x.lanes.plane n = 0 := by
  rw [h.lanes]
  simp [Lanes.plane, Team.absent]

/-- The block of a launch without clusters, on the first core from the cursor on that it fits. -/
theorem single_placed (hc : l.d.clustered = false) (ht : s.tryPlace l = some t) :
    ∃ b ts i, UnitPlaced s l ((List.range 192).map (fun i => (s.cursor + 1 + i) % 192)) t [b] ts ∧ i < 192
      ∧ b.index = l.next ∧ b.core = (s.cursor + 1 + i) % 192 ∧ s.fits l.lid l.k l.d b.core = true
      ∧ ∀ j, j < i → s.fits l.lid l.k l.d ((s.cursor + 1 + j) % 192) = false := by
  obtain ⟨bs, ts, hu⟩ := placeUnit_some (tryPlace_single hc ht)
  obtain ⟨b, rfl, hf, hi⟩ := hu.single (clSize_single hc)
  rw [newId_fits, List.find?_map] at hf
  obtain ⟨i, hr, hb⟩ := Option.map_eq_some_iff.mp hf
  obtain ⟨hfit, hlt, hbefore⟩ := List.find?_range_eq_some.mp hr
  refine ⟨b, ts, i, hu, List.mem_range.mp hlt, hi.trans (blockOf_index hc), hb.symm, ?_, fun j hj => ?_⟩
  · rw [← hb]
    exact hfit
  · simpa using hbefore j hj

theorem single_cursor {cores : List Nat} {b : Block} {ts : List Team} (hu : UnitPlaced s l cores t [b] ts)
    (hn : ∀ y ∈ s.allBlocks, y.cid ≠ s.nextId) : t.cursor = if l.k.twin = true then b.core + 1 else b.core := by
  have hk := (hu.new b List.mem_cons_self).k
  rw [hu.cursor hn, List.foldl_cons, List.foldl_nil, Nat.zero_max, Block.topCore, hk]
  split <;> rfl

end

/-- Settles O55: the launch served is the first of the placeable ones, and its blocks and teams are what placing adds. -/
theorem placementOfBlocks : Obligations.PlacementOfBlocks := by
  unfold Obligations.PlacementOfBlocks
  intro s turn group starved
  refine ⟨fun h => ⟨?_, ?_⟩, fun l t0 h => ?_, fun lid k d c h => ?_, fun l h => ?_, fun b h => ?_⟩
  · exact congrArg Host.Outcome.next (place_none h false)
  · exact congrArg Host.Outcome.next (place_none h true)
  · obtain ⟨hl, ht, hfirst⟩ := choose_some h
    obtain ⟨cores, bs, ts, hu, hcores⟩ := tryPlace_some ht
    obtain ⟨hmem, hready⟩ := List.mem_filter.mp hl
    obtain ⟨hready, hnext⟩ := Bool.and_eq_true_iff.mp hready
    obtain ⟨hteam, hblk, hlaunches, hrr⟩ := hu.kept
    obtain ⟨hlen, hstart⟩ := hu.teams
    refine ⟨hmem, hready, by simpa using hnext, hfirst, fun hc => ?_, fun hc => ?_, s.served l t0, ?_, ?_, ?_, hu.clusters, ?_, hteam,
      hblk, fun x hx => ?_, fun x hx => ?_, fun m hm hid => mem_served_launches hlaunches hm hid, fun b hb hn => ?_,
      fun x hx hn => ?_, fun hn => ⟨fun hc b hb hnb => ?_, fun hc hpos => ?_⟩⟩
    · exact congrArg Host.Outcome.next (place_other h (by simp [hc]))
    · exact congrArg Host.Outcome.next (place_other h (by simp [hc]))
    · rw [exec_place, place_served h]
    · exact (congrArg List.length hu.blocks).trans (by rw [List.length_append, hu.size])
    · exact (congrArg List.length hu.others).trans (by rw [List.length_append, hlen])
    · exact congrArg (fun r => smSet 0 r (s.prio l.d.rcb) l.d.rcb) hrr
    · exact hu.others ▸ List.mem_append_left ts hx
    · exact hu.blocks ▸ List.mem_append_left bs hx
    · have hnew := hu.new b (hu.mem_new hb hn)
      refine ⟨hnew.lid, hnew.k, hnew.d, hnew.ended, hnew.swapped, hcores _ hnew.core, hnew.tag.1, hnew.tag.2, hnew.spad,
        hnew.counters, hnew.eff, hnew.dom, hnew.prid, fun hc => ?_⟩
      obtain ⟨b', ts', i, hu', -, hindex, -⟩ := single_placed hc ht
      rw [List.mem_singleton.mp (hu'.mem_new hb hn), hindex]
    · have hx := hstart x ((List.mem_append.mp (hu.others ▸ hx)).resolve_left hn)
      obtain ⟨hs, hs0, hv, hv0⟩ := hx.registers
      exact ⟨hx.lid, hx.phase, hx.pc, congrArg Lanes.active hx.lanes, congrArg Lanes.vacant hx.lanes,
        congrArg Lanes.stack hx.lanes, congrArg Window.depth hx.win, congrArg Window.fs hx.win, congrArg Special.mode hx.sp,
        congrArg Special.sticky hx.sp, hx.system, hx.size, hs, hs0, hv, hv0, hx.side, hx.preds, hx.plane,
        congrArg Window.b hx.win, congrArg Special.srStream hx.sp, congrArg Special.ssp hx.sp, hx.sstack,
        congrArg Matrix.slots hx.mat, congrArg Matrix.tiles hx.mat, congrArg Matrix.member hx.mat, hx.fault, hx.loads⟩
    · obtain ⟨b', ts', i, hu', hi, -, hcore, hfits, hbefore⟩ := single_placed hc ht
      obtain rfl := List.mem_singleton.mp (hu'.mem_new hb hnb)
      exact ⟨i, hi, hcore, hfits, hbefore, single_cursor (t := t0) hu' hn⟩
    · obtain ⟨i, hi, hp, hbefore⟩ := tryPlace_clustered hc ht
      obtain ⟨bs', ts', hu'⟩ := placeUnit_some hp
      refine ⟨i, hi, hp, hbefore, fun b hb hnb => ?_, ?_⟩
      · have hb' := hu'.mem_new hb hnb
        have hnew := hu'.new b hb'
        exact ⟨mem_groupRange hnew.core, hnew.k ▸ hu'.topCore_le hn hb'⟩
      · obtain ⟨b, hb, htop⟩ := hu'.exists_topCore hn hpos
        obtain ⟨hmem, hnot⟩ := hu'.not_mem hn hb
        exact ⟨b, hmem, hnot, (hu'.new b hb).k ▸ htop⟩
  · have hf := fitsCore h
    exact ⟨hf.twin, fun r hr hn => budgetOk_cgmask hf.budget (mem_cores k c) hr hn,
      fun m hm hs hne hp r hr => not_starvedElsewhere hf.starved hm hs hne hp hr, hf.spad, hf.bars, hf.counters, hf.slots,
      hf.accs, exists_freeTag hf.tags⟩
  · exact ⟨_, rfl, findLaunch_modLaunch (fun _ => rfl) h⟩
  · refine ⟨fun hno => ?_, fun h0 he hc hm hp => ?_⟩
    · rw [exec_blockRelease h, if_neg]
      simp only [Bool.and_eq_true, blockDone_iff]
      rintro ⟨-, he, hc, hp, hm⟩
      rcases hno with h | ⟨c, hcm, hcb⟩ | h | h
      · simp [he] at h
      · exact hc c hcm hcb
      · exact hm h
      · simp [hp] at h
    · have hd := dropped_dropBlock s b
      refine ⟨_, (exec_blockRelease h).trans (congrArg _ (if_pos ?_)), hd.allBlocks, hd.teams, hd.keeps.1, hd.keeps.2, hd.mem⟩
      simpa only [Bool.and_eq_true, blockDone_iff, bne_iff_ne, ne_eq] using ⟨by simpa using h0, he, hc, hp, hm⟩

end Sys2Proof.Machine
end

section
/-!
PROOF. Faults that hold the teams of one block one after another (R83, R84, R85, R374): each becomes Held where it stands, and no
other team changes.
-/
namespace Sys2Proof.Machine

/-! ### Finding teams -/

section
variable {s : State} {v : Team} {u : Nat}

theorem findTeam_eq (h0 : s.team.uid ≠ 0) : s.findTeam u = if s.team.uid = u then some s.team
    else s.others.find? (fun t => t.uid == u) := by
  rw [State.findTeam, State.teams, if_neg h0]
  split
  · next h => exact List.find?_cons_of_pos (by simpa using h)
  · next h => exact List.find?_cons_of_neg (by simpa using h)

theorem findTeam_self (h0 : s.team.uid ≠ 0) : s.findTeam s.team.uid = some s.team := by
  rw [findTeam_eq h0, if_pos rfl]

theorem findTeam_uid (h : s.findTeam u = some v) : v.uid = u := by
  simpa using List.find?_some h

theorem find?_filter_ne {ts : List Team} {u u' : Nat} (h : u' ≠ u) :
    (ts.filter (fun t => t.uid != u)).find? (fun t => t.uid == u') = ts.find? (fun t => t.uid == u') := by
  rw [List.find?_filter]
  congr 1
  funext t
  by_cases ht : t.uid = u'
  · simp [ht, h]
  · simp [ht]

theorem filter_apart {ts : List Team} (h : ∀ t ∈ ts, t.uid ≠ u) : ts.filter (fun t => t.uid != u) = ts := by
  rw [List.filter_eq_self]
  exact fun t ht => by simpa using h t ht

end

/-! ### A state in which the faults of a block's teams hold them -/

/-- No team has the uid of the team in focus, its block is in focus, and its faults go neither to a trap entry nor to a handler that
they would end. -/
structure Holding (s : State) : Prop where
  focus : s.team.uid ≠ 0
  apart : ∀ t ∈ s.others, t.uid ≠ s.team.uid
  block : s.blk.bid = s.team.bid
  trap : s.blk.k.trapEntry = none
  handlers : ∀ l ∈ s.launches, ∀ rcb, l.from_ ≠ .handler rcb

/-- A team as a fault of this cause leaves it: Held at its word, with what it holds (R374). -/
structure HeldFrom (c : Cause) (v w : Team) : Prop where
  phase : w.phase = .held
  cause : w.fault.map FaultInfo.cause = some c
  pc : w.pc = v.pc
  mat : w.mat = v.mat

/-- What holding a team leaves of its block: nothing but words of a convocation step goes. -/
structure BlockHeld (b b' : Block) : Prop where
  bid : b'.bid = b.bid
  k : b'.k = b.k
  convs : b'.convs.map Convocation.cv = b.convs.map Convocation.cv

theorem BlockHeld.refl (b : Block) : BlockHeld b b := ⟨rfl, rfl, rfl⟩

theorem BlockHeld.trans {a b c : Block} (h : BlockHeld a b) (h' : BlockHeld b c) : BlockHeld a c :=
  ⟨h'.bid.trans h.bid, h'.k.trans h.k, h'.convs.trans h.convs⟩

/-- A cv that no convocation of the block holds stays free. -/
theorem BlockHeld.findConv {b b' : Block} (h : BlockHeld b b') {c : Nat} (hc : b.findConv c = none) : b'.findConv c = none := by
  have hiff (x : Block) : x.findConv c = none ↔ c ∉ x.convs.map Convocation.cv := by
    rw [Block.findConv, List.find?_eq_none]
    simp
  rw [hiff, h.convs, ← hiff]
  exact hc

/-- The team in focus is held, the rest of the machine stays. -/
structure HoldsFocus (s : State) (c : Cause) (t : State) : Prop where
  team : s.team.phase ≠ .held → HeldFrom c s.team t.team
  uid : t.team.uid = s.team.uid
  bid : t.team.bid = s.team.bid
  blk : BlockHeld s.blk t.blk
  others : t.others = s.others
  launches : t.launches = s.launches

section
variable {s t : State} {f : FaultInfo}

theorem ownHandler_none (h : ∀ l ∈ s.launches, ∀ rcb, l.from_ ≠ .handler rcb) : s.ownHandler = none := by
  unfold State.ownHandler
  split
  · next l hl =>
    split
    · next rcb hr => exact absurd hr (h l (List.mem_of_find?_eq_some hl) rcb)
    · rfl
  · rfl

/-- What leaving a wait leaves as it is. -/
theorem leaveWait_keeps (s : State) : s.leaveWait.others = s.others ∧ s.leaveWait.launches = s.launches ∧
    BlockHeld s.blk s.leaveWait.blk ∧ s.leaveWait.team.phase = s.team.phase ∧ s.leaveWait.team.pc = s.team.pc ∧
    s.leaveWait.team.mat = s.team.mat ∧ s.leaveWait.team.uid = s.team.uid ∧ s.leaveWait.team.bid = s.team.bid := by
  unfold State.leaveWait
  split
  · exact ⟨rfl, rfl, .refl _, rfl, rfl, rfl, rfl, rfl⟩
  · exact ⟨rfl, rfl, .refl _, rfl, rfl, rfl, rfl, rfl⟩
  · refine ⟨rfl, rfl, ?_, rfl, rfl, rfl, rfl, rfl⟩
    unfold State.withdraw
    dsimp only
    split <;> exact ⟨rfl, rfl, rfl⟩
  · refine ⟨rfl, rfl, ⟨rfl, rfl, ?_⟩, rfl, rfl, rfl, rfl, rfl⟩
    exact (List.map_map ..).trans rfl
  · exact ⟨rfl, rfl, .refl _, rfl, rfl, rfl, rfl, rfl⟩
  · exact ⟨rfl, rfl, .refl _, rfl, rfl, rfl, rfl, rfl⟩

theorem holdsFocus_holdTeam (s : State) (f : FaultInfo) : HoldsFocus s f.cause (s.holdTeam f) := by
  unfold State.holdTeam State.queueRecord
  extract_lets st s1
  split
  · exact ⟨fun h => ⟨rfl, congrArg (Option.map FaultInfo.cause) (if_neg h), rfl, rfl⟩, rfl, rfl, .refl _, rfl, rfl⟩
  · exact ⟨fun h => ⟨rfl, congrArg (Option.map FaultInfo.cause) (if_neg h), rfl, rfl⟩, rfl, rfl, .refl _, rfl, rfl⟩

theorem holdsFocus_takeFault (h : Holding s) (f : FaultInfo) : HoldsFocus s f.cause (takeFault f s) := by
  obtain ⟨ho, hl, hb, hphase, hpc, hmat, huid, hbid⟩ := leaveWait_keeps s
  have hown : s.leaveWait.ownHandler = none := ownHandler_none (hl ▸ h.handlers)
  have hd := holdsFocus_holdTeam s.leaveWait f
  rw [takeFault, deliverFault_hold hown (.inl (hb.k ▸ h.trap))]
  refine ⟨fun hp => ?_, hd.uid.trans huid, hd.bid.trans hbid, hb.trans hd.blk, hd.others.trans ho, hd.launches.trans hl⟩
  have ht := hd.team (by rwa [hphase])
  exact ⟨ht.phase, ht.cause, ht.pc.trans hpc, ht.mat.trans hmat⟩

end

/-! ### A fault in one team -/

/-- A fault held this team, and nothing else changed but words of a convocation step and the fault queue. -/
structure HoldsTeam (s : State) (c : Cause) (u : Nat) (t : State) : Prop where
  holding : Holding t
  uid : t.team.uid = s.team.uid
  bid : t.team.bid = s.team.bid
  blk : BlockHeld s.blk t.blk
  held : ∀ v, s.findTeam u = some v → v.phase ≠ .held → ∃ w, t.findTeam u = some w ∧ HeldFrom c v w
  others : ∀ u', u' ≠ u → t.findTeam u' = s.findTeam u'

section
variable {s : State} {u : Nat} {v : Team}

theorem focusBlock_self (bid : Nat) (h : s.blk.bid = bid) : s.focusBlock bid = s := if_pos h

/-- Another team in focus, the one before it among the others. -/
def State.turnTo (s : State) (u : Nat) (v : Team) : State :=
  { s with team := v, others := s.team :: s.others.filter (fun t => t.uid != u) }

theorem focus_other (h0 : s.team.uid ≠ 0) (hu : u ≠ s.team.uid) (hv : s.findTeam u = some v) (hb : s.blk.bid = v.bid) :
    s.focus u = s.turnTo u v := by
  rw [findTeam_eq h0, if_neg (Ne.symm hu)] at hv
  rw [State.focus, if_neg (Ne.symm hu), hv]
  dsimp only
  rw [if_neg h0]
  exact focusBlock_self _ hb

/-- The team in focus takes the fault. -/
theorem faultIn_focus (h : Holding s) (f : FaultInfo) : HoldsTeam s f.cause s.team.uid (s.faultIn s.team.uid f) := by
  unfold State.faultIn
  rw [findTeam_self h.focus]
  dsimp only
  rw [show s.focus s.team.uid = s from if_pos rfl]
  have ht := holdsFocus_takeFault h { f with restart := s.team.pc, plane := s.wordPlane }
  generalize takeFault { f with restart := s.team.pc, plane := s.wordPlane } s = t at ht
  rw [show t.focus s.team.uid = t from if_pos ht.uid]
  have h0 : t.team.uid ≠ 0 := ht.uid ▸ h.focus
  exact {
    holding := ⟨h0, ht.uid ▸ ht.others ▸ h.apart, by rw [ht.blk.bid, ht.bid, h.block], ht.blk.k ▸ h.trap, ht.launches ▸ h.handlers⟩
    uid := ht.uid
    bid := ht.bid
    blk := ht.blk
    held := fun v hv hp => by
      obtain rfl := Option.some.inj ((findTeam_self h.focus).symm.trans hv)
      exact ⟨t.team, ht.uid ▸ findTeam_self h0, ht.team hp⟩
    others := fun u' hu => by
      rw [findTeam_eq h0, findTeam_eq h.focus, ht.uid, ht.others, if_neg (Ne.symm hu), if_neg (Ne.symm hu)] }

/-- Another team takes it, in focus for that time. -/
theorem faultIn_other (h : Holding s) (hu0 : u ≠ 0) (hu : u ≠ s.team.uid) (hv : s.findTeam u = some v)
    (hb : v.bid = s.team.bid) (f : FaultInfo) : HoldsTeam s f.cause u (s.faultIn u f) := by
  have hvu := findTeam_uid hv
  unfold State.faultIn
  rw [hv]
  dsimp only
  rw [focus_other h.focus hu hv (h.block.trans hb.symm)]
  have hin : Holding (s.turnTo u v) :=
    ⟨(hvu ▸ hu0 : v.uid ≠ 0), by
      change ∀ t ∈ s.team :: _, t.uid ≠ v.uid
      rw [List.forall_mem_cons, hvu]
      exact ⟨Ne.symm hu, fun t ht => by simpa using (List.mem_filter.mp ht).2⟩, h.block.trans hb.symm, h.trap, h.handlers⟩
  have ht := holdsFocus_takeFault hin { f with restart := v.pc, plane := (s.turnTo u v).wordPlane }
  generalize takeFault _ _ = t at ht
  have htu : t.team.uid = u := ht.uid.trans hvu
  have hback : t.findTeam s.team.uid = some s.team := by
    rw [findTeam_eq (htu ▸ hu0), htu, if_neg hu, ht.others]
    exact List.find?_cons_of_pos (by simp)
  have hrest : t.others.filter (fun t => t.uid != s.team.uid) = s.others.filter (fun t => t.uid != u) := by
    rw [ht.others, State.turnTo, List.filter_cons_of_neg (by simp), filter_apart]
    exact fun x hx => h.apart x (List.mem_filter.mp hx).1
  rw [focus_other (htu ▸ hu0) (by rw [htu]; exact Ne.symm hu) hback (ht.blk.bid.trans h.block)]
  have hothers : (t.turnTo s.team.uid s.team).others = t.team :: s.others.filter (fun t => t.uid != u) :=
    congrArg (t.team :: ·) hrest
  have hteam : (t.turnTo s.team.uid s.team).team = s.team := rfl
  have hblk : (t.turnTo s.team.uid s.team).blk = t.blk := rfl
  have hlaunches : (t.turnTo s.team.uid s.team).launches = t.launches := rfl
  generalize t.turnTo s.team.uid s.team = y at *
  have h0 : y.team.uid ≠ 0 := hteam ▸ h.focus
  exact {
    holding := ⟨h0, by
      rw [hothers, hteam, List.forall_mem_cons]
      exact ⟨htu ▸ hu, fun x hx => h.apart x (List.mem_filter.mp hx).1⟩, by rw [hblk, hteam]; exact ht.blk.bid.trans h.block,
      hblk ▸ ht.blk.k ▸ h.trap, hlaunches ▸ ht.launches ▸ h.handlers⟩
    uid := by rw [hteam]
    bid := by rw [hteam]
    blk := hblk ▸ ht.blk
    held := fun v' hv' hp => by
      obtain rfl := Option.some.inj (hv.symm.trans hv')
      refine ⟨t.team, ?_, ht.team hp⟩
      rw [findTeam_eq h0, hteam, if_neg (Ne.symm hu), hothers]
      exact List.find?_cons_of_pos (by simpa using htu)
    others := fun u' hu' => by
      rw [findTeam_eq h0, findTeam_eq h.focus, hteam, hothers]
      refine if_congr Iff.rfl rfl ?_
      exact (List.find?_cons_of_neg (by simpa [htu] using Ne.symm hu')).trans (find?_filter_ne hu') }

theorem faultIn_holds (h : Holding s) (hu0 : u ≠ 0) (hv : s.findTeam u = some v) (hb : v.bid = s.team.bid) (f : FaultInfo) :
    HoldsTeam s f.cause u (s.faultIn u f) := by
  by_cases hu : u = s.team.uid
  · exact hu ▸ faultIn_focus h f
  · exact faultIn_other h hu0 hu hv hb f

end

/-! ### Faults in several teams -/

section
variable {s : State} {c : Cause} {us : List Nat}

/-- A list of teams of the block in focus, none of them Held. -/
structure Faultable (s : State) (us : List Nat) : Prop where
  nodup : us.Nodup
  team : ∀ u ∈ us, u ≠ 0 ∧ ∃ v, s.findTeam u = some v ∧ v.bid = s.team.bid ∧ v.phase ≠ .held

/-- Every team of the list was held, and no other team changed. -/
structure HoldsAll (s : State) (c : Cause) (us : List Nat) (t : State) : Prop where
  holding : Holding t
  uid : t.team.uid = s.team.uid
  bid : t.team.bid = s.team.bid
  blk : BlockHeld s.blk t.blk
  held : ∀ u ∈ us, ∀ v, s.findTeam u = some v → ∃ w, t.findTeam u = some w ∧ HeldFrom c v w
  others : ∀ u, u ∉ us → t.findTeam u = s.findTeam u

theorem HoldsAll.nil (h : Holding s) : HoldsAll s c [] s :=
  ⟨h, rfl, rfl, .refl _, fun _ h => absurd h List.not_mem_nil, fun _ _ => rfl⟩

theorem Faultable.tail {u : Nat} {t : State} (h : Faultable s (u :: us)) (ht : HoldsTeam s c u t) : Faultable t us where
  nodup := (List.nodup_cons.mp h.nodup).2
  team := fun x hx => by
    have hne : x ≠ u := fun he => (List.nodup_cons.mp h.nodup).1 (he ▸ hx)
    rw [ht.others x hne, ht.bid]
    exact h.team x (List.mem_cons_of_mem u hx)

theorem HoldsAll.cons {u : Nat} {t t' : State} (h : Faultable s (u :: us)) (ht : HoldsTeam s c u t) (ha : HoldsAll t c us t') :
    HoldsAll s c (u :: us) t' where
  holding := ha.holding
  uid := ha.uid.trans ht.uid
  bid := ha.bid.trans ht.bid
  blk := ht.blk.trans ha.blk
  held := fun x hx v hv => by
    by_cases hxu : x = u
    · subst hxu
      obtain ⟨-, v', hv', -, hp⟩ := h.team x List.mem_cons_self
      obtain rfl := Option.some.inj (hv.symm.trans hv')
      rw [ha.others x (List.nodup_cons.mp h.nodup).1]
      exact ht.held v hv hp
    · exact ha.held x ((List.mem_cons.mp hx).resolve_left hxu) v (by rw [ht.others x hxu, hv])
  others := fun x hx => by
    rw [List.mem_cons, not_or] at hx
    rw [ha.others x hx.2, ht.others x hx.1]

/-- A fold whose every step is a fault of one cause in the team it is at. -/
theorem foldl_holdsAll {g : State → Nat → State} {f : State → FaultInfo} (hf : ∀ t, (f t).cause = c) (h : Holding s)
    (hu : Faultable s us) (hg : ∀ t u, u ∈ us → t.findTeam u = s.findTeam u → g t u = t.faultIn u (f t)) :
    HoldsAll s c us (us.foldl g s) := by
  induction us generalizing s with
  | nil => exact .nil h
  | cons u us ih =>
    obtain ⟨h0, v, hv, hb, -⟩ := hu.team u List.mem_cons_self
    have ht := hf s ▸ faultIn_holds h h0 hv hb (f s)
    have hnot := (List.nodup_cons.mp hu.nodup).1
    rw [List.foldl_cons, hg s u List.mem_cons_self rfl]
    refine .cons hu ht (ih ht.holding (hu.tail ht) fun t x hx he => hg t x (List.mem_cons_of_mem u hx) ?_)
    rw [he, ht.others x fun he => hnot (he ▸ hx)]

theorem faultAll_holdsAll (h : Holding s) (hu : Faultable s us) (c : Cause) : HoldsAll s c us (s.faultAll us c) :=
  foldl_holdsAll (f := fun t => t.flt c) (fun _ => rfl) h hu (fun _ _ _ _ => rfl)

end

end Sys2Proof.Machine
end

section
/-!
PROOF. Phase objects in scratchpad memory (R292, R293): what PBARA and PBWAIT do to one.
-/
namespace Sys2Proof.Machine

/-! ### Bytes of a scratchpad after a write there -/

section
variable {s : State} {bid : Nat}

theorem allBlocks_modBlock {f : Block → Block} (hf : ∀ b, (f b).bid = b.bid) :
    (s.modBlock bid f).allBlocks = s.allBlocks.map (fun b => if b.bid = bid then f b else b) := by
  have hb : (if s.blk.bid = bid then f s.blk else s.blk).bid = s.blk.bid := by split <;> simp [hf]
  simp only [State.allBlocks, State.modBlock, hb]
  split <;> rfl

theorem findBlock_modBlock {f : Block → Block} (hf : ∀ b, (f b).bid = b.bid) (x : Nat) :
    (s.modBlock bid f).findBlock x = (s.findBlock x).map (fun b => if b.bid = bid then f b else b) := by
  rw [State.findBlock, allBlocks_modBlock hf, List.find?_map, State.findBlock]
  congr 2
  funext b
  dsimp only [Function.comp]
  split
  · rw [hf]
  · rfl

theorem findBlock_bid {b : Block} {x : Nat} (h : s.findBlock x = some b) : b.bid = x := by
  simpa using List.find?_some h

theorem findBlock_blockWf (hs : storesWf s = true) {b : Block} {x : Nat} (h : s.findBlock x = some b) : blockWf b = true := by
  have hb : b = s.blk ∨ b ∈ s.blocks := by
    have hm : b ∈ s.allBlocks := List.mem_of_find?_eq_some h
    unfold State.allBlocks at hm
    split at hm
    · exact .inr hm
    · exact List.mem_cons.mp hm
  obtain ⟨-, -, -, hblk, hblocks⟩ := storesWf_iff.mp hs
  exact hb.elim (fun h => h ▸ hblk) (hblocks b)

theorem findBlock_wf (hs : storesWf s = true) {b : Block} {x : Nat} (h : s.findBlock x = some b) : smWf (0 : Byte) b.spad = true :=
  (Bool.and_eq_true_iff.mp (findBlock_blockWf hs h)).1

/-- A byte of an existing block's scratchpad. -/
theorem byteAt_spad {b : Block} (h : s.findBlock bid = some b) (off : Nat) : s.byteAt (.spad bid off) = smGet 0 b.spad off := by
  rw [State.byteAt, h]

/-- The block of a scratchpad after a write to it. -/
def Block.stored (b : Block) (off n x : Nat) : Block := { b with spad := storeLe b.spad off n x }

theorem findBlock_writeAt_spad (off n x c : Nat) : (s.writeAt (.spad bid off) n x).findBlock c =
    (s.findBlock c).map (fun b => if b.bid = bid then b.stored off n x else b) :=
  findBlock_modBlock (f := fun b => b.stored off n x) (fun _ => rfl) c

theorem findBlock_writeAt {b : Block} (h : s.findBlock bid = some b) (off n x : Nat) :
    (s.writeAt (.spad bid off) n x).findBlock bid = some (b.stored off n x) := by
  rw [findBlock_writeAt_spad, h, Option.map_some, if_pos (findBlock_bid h)]

/-- What was written to a scratchpad reads back. -/
theorem readAt_writeAt_spad (hs : storesWf s = true) (h : (s.findBlock bid).isSome = true) (off n x : Nat) :
    (s.writeAt (.spad bid off) n x).readAt (.spad bid off) n = x % 256 ^ n := by
  obtain ⟨b, hb⟩ := Option.isSome_iff_exists.mp h
  rw [← loadLe_storeLe (findBlock_wf hs hb) off n x, State.readAt, loadLe, State.bytesAt]
  congr 2
  funext i
  exact byteAt_spad (findBlock_writeAt hb off n x) (off + i)

/-- A write to a scratchpad changes no byte outside its range. -/
theorem byteAt_writeAt_spad_ne (hs : storesWf s = true) (off n x : Nat) {q : Place}
    (hq : ∀ i, i < n → q ≠ .spad bid (off + i)) : (s.writeAt (.spad bid off) n x).byteAt q = s.byteAt q := by
  cases q with
  | dev pa => rfl
  | spad c o =>
    rw [State.byteAt, findBlock_writeAt_spad, State.byteAt]
    cases hb : s.findBlock c with
    | none => rfl
    | some b =>
      rw [Option.map_some]
      dsimp only
      split
      · next he =>
        refine smGet_storeLe_outside (findBlock_wf hs hb) ?_
        by_contra hin
        refine hq (o - off) (by omega) ?_
        rw [← he, findBlock_bid hb, show off + (o - off) = o by omega]
      · rfl

theorem readAt_writeAt_spad_ne (hs : storesWf s = true) (off n x off' n' : Nat) (h : off' + n' ≤ off ∨ off + n ≤ off') :
    (s.writeAt (.spad bid off) n x).readAt (.spad bid off') n' = s.readAt (.spad bid off') n' := by
  unfold State.readAt State.bytesAt
  congr 1
  refine List.map_congr_left fun i hi => byteAt_writeAt_spad_ne hs off n x fun j hj he => ?_
  rw [List.mem_range] at hi
  injection he with _ he
  omega

theorem isSome_findBlock_writeAt (h : (s.findBlock bid).isSome = true) (off n x : Nat) :
    ((s.writeAt (.spad bid off) n x).findBlock bid).isSome = true := by
  obtain ⟨b, hb⟩ := Option.isSome_iff_exists.mp h
  rw [findBlock_writeAt hb]
  rfl

theorem leNat_lt (bs : List Byte) : leNat bs < 256 ^ bs.length := by
  induction bs with
  | nil => exact Nat.one_pos
  | cons b bs ih =>
    rw [leNat, List.length_cons, Nat.pow_succ]
    have := b.isLt
    omega

theorem readAt_lt (s : State) (p : Place) (n : Nat) : s.readAt p n < 256 ^ n := by
  have h := leNat_lt (s.bytesAt p n)
  rwa [State.bytesAt, List.length_map, List.length_range] at h

/-! ### Phase objects -/

/-- A word of a phase object (R292). -/
abbrev State.phaseWord (s : State) (p : Place) (i : Nat) : Nat := s.readAt (p.plus (4 * i)) 4

/-- A count of a phase object; 0 stands for 1. -/
def orOne (n : Nat) : Nat := if n = 0 then 1 else n

/-- An arrival at a phase object that leaves others to come takes one from PENDING; the last one begins the next phase. -/
structure PhaseArrived (s : State) (p : Place) (t : State) : Prop where
  more : 1 < orOne (s.phaseWord p 1) → t.readAt (p.plus 4) 4 = orOne (s.phaseWord p 1) - 1
    ∧ t.readAt (p.plus 8) 4 = s.phaseWord p 2
  last : orOne (s.phaseWord p 1) = 1 → t.readAt (p.plus 4) 4 = orOne (s.phaseWord p 0)
    ∧ t.readAt (p.plus 8) 4 = (s.phaseWord p 2 + 1) % 2 ^ 32
  outside : ∀ q, (∀ k, 4 ≤ k → k < 12 → q ≠ p.plus k) → t.byteAt q = s.byteAt q
  wf : storesWf t = true
  issued : t.issued = s.issued
  nextPc : t.nextPc = s.nextPc

theorem orOne_lt {n : Nat} (h : n < 2 ^ 32) : orOne n < 2 ^ 32 := by
  unfold orOne
  split
  · decide
  · exact h

theorem arrivePhase_last {p : Place} (h : orOne (s.phaseWord p 1) = 1) : s.arrivePhase p false =
    (BitVec.ofNat 32 (s.phaseWord p 2),
      (s.writeAt (p.plus 8) 4 ((s.phaseWord p 2 + 1) % 2 ^ 32)).writeAt (p.plus 4) 4 (orOne (s.phaseWord p 0))) := by
  have h0 : orOne (s.phaseWord p 1) - 1 = 0 := by rw [h]
  exact if_pos h0

theorem arrivePhase_more {p : Place} (h : 1 < orOne (s.phaseWord p 1)) : s.arrivePhase p false =
    (BitVec.ofNat 32 (s.phaseWord p 2), s.writeAt (p.plus 4) 4 (orOne (s.phaseWord p 1) - 1)) := by
  have h0 : orOne (s.phaseWord p 1) - 1 ≠ 0 := by omega
  exact if_neg h0

theorem arrivePhase_arrives (hs : storesWf s = true) (h : (s.findBlock bid).isSome = true) (off : Nat) :
    (s.arrivePhase (.spad bid off) false).1 = BitVec.ofNat 32 (s.phaseWord (.spad bid off) 2) ∧
      PhaseArrived s (.spad bid off) (s.arrivePhase (.spad bid off) false).2 := by
  have h0 : orOne (s.phaseWord (.spad bid off) 0) < 2 ^ 32 := orOne_lt (readAt_lt s _ 4)
  have h1 : orOne (s.phaseWord (.spad bid off) 1) < 2 ^ 32 := orOne_lt (readAt_lt s _ 4)
  have hpos : 1 ≤ orOne (s.phaseWord (.spad bid off) 1) := by
    unfold orOne
    split <;> omega
  rcases Nat.lt_or_eq_of_le hpos with hlt | heq
  · rw [arrivePhase_more hlt]
    refine ⟨rfl, ⟨fun _ => ⟨?_, ?_⟩, fun he => by omega, fun q hq => ?_, storesWf_writeAt hs _ _ _, rfl, rfl⟩⟩
    · exact (readAt_writeAt_spad hs h (off + 4) 4 _).trans (Nat.mod_eq_of_lt (by omega))
    · exact readAt_writeAt_spad_ne hs (off + 4) 4 _ (off + 8) 4 (by omega)
    · refine byteAt_writeAt_spad_ne hs (off + 4) 4 _ fun i hi => ?_
      rw [Nat.add_assoc]
      exact hq (4 + i) (by omega) (by omega)
  · rw [arrivePhase_last heq.symm]
    have hw := storesWf_writeAt hs (.spad bid (off + 8)) 4 ((s.phaseWord (.spad bid off) 2 + 1) % 2 ^ 32)
    refine ⟨rfl, ⟨fun he => by omega, fun _ => ⟨?_, ?_⟩, fun q hq => ?_, storesWf_writeAt hw _ _ _, rfl, rfl⟩⟩
    · exact (readAt_writeAt_spad hw (isSome_findBlock_writeAt h _ _ _) (off + 4) 4 _).trans (Nat.mod_eq_of_lt h0)
    · refine (readAt_writeAt_spad_ne hw (off + 4) 4 _ (off + 8) 4 (by omega)).trans ?_
      refine (readAt_writeAt_spad hs h (off + 8) 4 _).trans (Nat.mod_eq_of_lt ?_)
      exact Nat.mod_lt _ (by decide)
    · refine (byteAt_writeAt_spad_ne hw (off + 4) 4 _ fun i hi => ?_).trans
        (byteAt_writeAt_spad_ne hs (off + 8) 4 _ fun i hi => ?_)
      · rw [Nat.add_assoc]
        exact hq (4 + i) (by omega) (by omega)
      · rw [Nat.add_assoc]
        exact hq (8 + i) (by omega) (by omega)

/-- Registers of the team in focus are not memory. -/
theorem byteAt_setS_retireCtl (n : Nat) (x : Word64) (q : Place) : (s.setS n x).retireCtl.byteAt q = s.byteAt q := by
  unfold State.setS
  split <;> rfl

theorem readAt_setS_retireCtl (n : Nat) (x : Word64) (q : Place) (i : Nat) :
    (s.setS n x).retireCtl.readAt q i = s.readAt q i := by
  unfold State.setS
  split <;> rfl

theorem setS_retireCtl_ends (n : Nat) (x : Word64) :
    (s.setS n x).retireCtl.issued = s.issued + 1 ∧ (s.setS n x).retireCtl.team.pc = s.nextPc := by
  unfold State.setS
  split <;> exact ⟨rfl, rfl⟩

end

/-! ### PBARA and PBWAIT -/

section
variable {s : State} {d p w : Nat}

theorem localSpace_error (h1 : (s.getS d).toNat / 2 ^ 56 ≠ 0xF1) (h2 : (s.getS d).toNat / 2 ^ 56 ≠ 0xF2) :
    s.localSpace (s.getS d) = .error (s.fltAt .spaceInvalid 0 (s.getS d)) := need_error (by simpa using ⟨h1, h2⟩) _

theorem exec_pbara_space (h1 : (s.getS d).toNat / 2 ^ 56 ≠ 0xF1) (h2 : (s.getS d).toNat / 2 ^ 56 ≠ 0xF2) :
    exec (.pbara d) s = .next (takeFault (s.fltAt .spaceInvalid 0 (s.getS d)) s) :=
  answer_bind_error (localSpace_error h1 h2)

theorem exec_pbwait_space (h1 : (s.getS d).toNat / 2 ^ 56 ≠ 0xF1) (h2 : (s.getS d).toNat / 2 ^ 56 ≠ 0xF2) :
    exec (.pbwait d p w) s = .next (takeFault (s.fltAt .spaceInvalid 0 (s.getS d)) s) :=
  answer_bind_error (localSpace_error h1 h2)

section
variable {bid off : Nat} (hl : (s.getS d).toNat / 2 ^ 56 = 0xF1 ∨ (s.getS d).toNat / 2 ^ 56 = 0xF2)
  (ha : s.accessOne .atomic (s.getS d) 16 16 = .ok (.spad bid off)) (hp : s.poisonAt (.spad bid off) = false)
include hl

theorem localSpace_ok : s.localSpace (s.getS d) = .ok () := need_ok (by simpa using hl) _

include ha hp

omit hl in
theorem phaseObject_ok : s.phaseObject (s.getS d) = .ok (.spad bid off) := by
  rw [State.phaseObject, ha]
  exact congrArg (· >>= fun _ => Except.ok (Place.spad bid off)) (need_ok (by simp [hp]) _)

theorem exec_pbara : exec (.pbara d) s = .next ((s.arrivePhase (.spad bid off) false).2.setS (d + 1)
    (BitVec.ofNat 64 (s.arrivePhase (.spad bid off) false).1.toNat)).retireCtl :=
  (answer_bind_ok (localSpace_ok hl)).trans (answer_bind_ok (phaseObject_ok ha hp))

theorem exec_pbwait : exec (.pbwait d p w) s = .next (
    if phasePast (BitVec.ofNat 32 (s.phaseWord (.spad bid off) 2)) (BitVec.ofNat 32 (s.getS (d + 1)).toNat)
    then s.waitDone p ((s.phaseWord (.spad bid off) 3).testBit 0)
    else s.timedWait w (.phase bid off (BitVec.ofNat 32 (s.getS (d + 1)).toNat) p (s.getS d))) := by
  refine ((answer_bind_ok (localSpace_ok hl)).trans (answer_bind_ok (phaseObject_ok ha hp))).trans ?_
  by_cases h : phasePast (BitVec.ofNat 32 (s.phaseWord (.spad bid off) 2)) (BitVec.ofNat 32 (s.getS (d + 1)).toNat) = true
  · rw [if_pos h]
    exact congrArg Host.Outcome.next (if_pos h).symm
  · rw [if_neg h]
    exact congrArg Host.Outcome.next (if_neg h).symm

end

end

end Sys2Proof.Machine
end

section
/-!
PROOF. Convocations (R82, R83, R85): how one forms, what refuses it, and how it dissolves.
-/
namespace Sys2Proof.Machine

section
variable {s : State} {m n c : Nat}

theorem exec_conv_zero : exec (.conv m n 0) s = exec .disb s := by
  change execConv m n 0 s = execDisb s
  unfold execConv
  rw [if_pos rfl, execDisb]

theorem leaveConv_of_no_member (h : s.team.mat.member = none) : s.leaveConv = s := by
  rw [State.leaveConv, h]

theorem exec_disb_of_no_member (h : s.team.mat.member = none) : exec .disb s = .next s.retireCtl :=
  congrArg Host.Outcome.next (leaveConv_of_no_member (s := s.retireCtl) h)

theorem exec_conv_member (hc : c ≠ 0) (h : s.team.mat.member ≠ none) :
    exec (.conv m n c) s = .next (takeFault (s.flt .convMismatch) s) :=
  congrArg (answer s) ((if_neg hc).trans (if_pos (Option.isSome_iff_ne_none.mpr h)))

section
variable (hc : c ≠ 0) (h : s.team.mat.member = none)
include hc h

/-- A team that is in no convocation finds none of this cv. -/
theorem exec_conv_none (hx : s.blk.findConv c = none) : exec (.conv m n c) s = .next (
    if n = 1 then (s.formConv c n m [s.team.uid]).retireCtl
    else ({ s with blk := { s.blk with convs := s.blk.convs ++ [
      { cv := c, n := n, mode := m, formed := false, dissolved := false, members := [s.team.uid], broken := false, issues := [] }] } }
      : State).beginWait true (.conv c n m)) := by
  refine (congrArg (answer s) ((if_neg hc).trans (if_neg (by simp [h])))).trans ?_
  rw [hx]
  dsimp only
  split <;> rfl

/-- It finds one. -/
theorem exec_conv_some {x : Convocation} (hx : s.blk.findConv c = some x) : exec (.conv m n c) s = (
    if x.formed then .next (takeFault (s.flt .convMismatch) s)
    else if s.convConflict x n m then
      .next ((x.members.foldl (State.mismatchWaiter c)
        { s with blk := { s.blk with convs := s.blk.convs.filter (fun y => y.cv != c) } }).faultIn s.team.uid (s.flt .convMismatch))
    else if x.members.length + 1 = n then .next (s.formConv c n m (x.members ++ [s.team.uid])).retireCtl
    else .next (({ s with blk := s.blk.modConv c (fun y => { y with members := y.members ++ [s.team.uid] }) }
      : State).beginWait true (.conv c n m))) := by
  refine (congrArg (answer s) ((if_neg hc).trans (if_neg (by simp [h])))).trans ?_
  rw [hx]
  dsimp only
  split
  · rfl
  · split
    · rfl
    · split <;> rfl

section
variable {y : Convocation} (hy : s.blk.findConv c = some y) (hf : y.formed = false) (hx : s.convConflict y n m = false)
include hy hf hx

theorem exec_conv_forms (hlen : y.members.length + 1 = n) :
    exec (.conv m n c) s = .next (s.formConv c n m (y.members ++ [s.team.uid])).retireCtl := by
  rw [exec_conv_some hc h hy, if_neg (by simp [hf]), if_neg (by simp [hx]), if_pos hlen]

theorem exec_conv_joins (hlen : y.members.length + 1 ≠ n) : exec (.conv m n c) s =
    .next (({ s with blk := s.blk.modConv c (fun y => { y with members := y.members ++ [s.team.uid] }) }
      : State).beginWait true (.conv c n m)) := by
  rw [exec_conv_some hc h hy, if_neg (by simp [hf]), if_neg (by simp [hx]), if_neg hlen]

end

end

/-! ### One that forms, or waits for more -/

section
variable {us : List Nat}

/-- A convocation as it stands once it has formed (R83). -/
def State.formed (s : State) (c n m : Nat) (us : List Nat) : Convocation :=
  { cv := c, n := n, mode := m, formed := true, dissolved := false, members := s.bySection us, broken := false, issues := [] }

theorem formed_mem (s : State) (c n m : Nat) (us : List Nat) : s.formed c n m us ∈ (s.formConv c n m us).blk.convs :=
  List.mem_append_right _ List.mem_cons_self

/-- A team's place in a convocation that has formed. -/
def memberAt (c : Nat) (ms : List Nat) (uid : Nat) : Member := { cv := c, index := ms.findIdx (fun u => u == uid), step := 0 }

theorem formConv_member (h : s.team.uid ∈ s.bySection us) :
    (s.formConv c n m us).team.mat.member = some (memberAt c (s.bySection us) s.team.uid) := by
  have hc : (s.bySection us).contains s.team.uid = true := by simpa using h
  unfold State.formConv State.mapTeams
  dsimp only
  rw [if_pos hc]
  rfl

theorem formConv_others {u : Team} (hu : u ∈ (s.formConv c n m us).others) (h : u.uid ∈ s.bySection us) :
    u.mat.member = some (memberAt c (s.bySection us) u.uid) := by
  obtain ⟨v, -, rfl⟩ := List.mem_map.mp hu
  by_cases hv : (s.bySection us).contains v.uid = true
  · simp only [if_pos hv]
    rfl
  · simp only [if_neg hv] at h
    exact absurd (by simpa using h) hv

theorem bySection_singleton {u : Nat} {v : Team} (h : s.findTeam u = some v) : s.bySection [u] = [u] := by
  simp [State.bySection, h, sortBy, insertBefore, findTeam_uid h]

theorem formConv_kept (s : State) (c n m : Nat) (us : List Nat) :
    (s.formConv c n m us).issued = s.issued ∧ (s.formConv c n m us).nextPc = s.nextPc := by
  unfold State.formConv State.mapTeams State.nextPc
  dsimp only
  split <;> exact ⟨rfl, rfl⟩

end

theorem findConv_modConv {b : Block} {y : Convocation} {f : Convocation → Convocation} (hf : ∀ x, (f x).cv = x.cv)
    (h : b.findConv c = some y) : (b.modConv c f).findConv c = some (f y) := by
  have hcv : y.cv = c := by simpa using List.find?_some h
  have hsame : (fun x : Convocation => x.cv == c) ∘ (fun x => if x.cv = c then f x else x) = fun x => x.cv == c := by
    funext x
    dsimp only [Function.comp]
    split
    · rw [hf]
    · rfl
  rw [Block.findConv, Block.modConv, List.find?_map, hsame, show b.convs.find? _ = some y from h, Option.map_some, if_pos hcv]

theorem findConv_dropped (b : Block) (c : Nat) :
    ({ b with convs := b.convs.filter (fun y => y.cv != c) } : Block).findConv c = none := by
  rw [Block.findConv, List.find?_eq_none]
  exact fun y hy => by simpa using (List.mem_filter.mp hy).2

/-- A team that waits in the section of the team in focus, or on another core. -/
def State.inTheWay (s : State) (u : Nat) : Bool :=
  match s.findTeam u with
  | some t => t.section_ == s.team.section_ || t.core != s.team.core
  | none => false

theorem inTheWay_iff {u : Nat} : s.inTheWay u = true ↔
    ∃ v, s.findTeam u = some v ∧ (v.section_ = s.team.section_ ∨ v.core ≠ s.team.core) := by
  unfold State.inTheWay
  cases s.findTeam u <;> simp

theorem convConflict_eq (y : Convocation) : s.convConflict y n m = (y.n != n || y.mode != m || y.members.any s.inTheWay) := rfl

theorem convConflict_iff {y : Convocation} : s.convConflict y n m = true ↔ y.n ≠ n ∨ y.mode ≠ m ∨
    ∃ u ∈ y.members, ∃ v, s.findTeam u = some v ∧ (v.section_ = s.team.section_ ∨ v.core ≠ s.team.core) := by
  rw [convConflict_eq]
  simp only [Bool.or_eq_true, bne_iff_ne, List.any_eq_true, inTheWay_iff, or_assoc]

/-! ### One that is refused (R83) -/

/-- A convocation in whose wait each of some teams of the block is, none of them the team in focus. -/
structure Gathering (s : State) (c : Nat) (y : Convocation) : Prop where
  nodup : y.members.Nodup
  notSelf : s.team.uid ∉ y.members
  waits : ∀ u ∈ y.members, ∃ v, s.findTeam u = some v ∧ u ≠ 0 ∧ v.bid = s.team.bid ∧ v.phase = .waiting (.conv c y.n y.mode)

theorem mismatchWaiter_waiting {u : Nat} {v : Team} (h : s.findTeam u = some v) (hp : v.phase = .waiting (.conv c n m)) :
    s.mismatchWaiter c u = s.faultIn u (s.flt .convMismatch) := by
  rw [State.mismatchWaiter, h]
  dsimp only
  rw [hp]
  exact if_pos (by simp [Wait.forConv])

/-- Every team that waits is held, and so is the team whose CONV is refused. -/
theorem refused_holds (h : Holding s) {y : Convocation} (hy : Gathering s c y) (hp : s.team.phase = .ready) :
    ∃ t, (y.members.foldl (State.mismatchWaiter c) s).faultIn s.team.uid (s.flt .convMismatch) = t ∧ BlockHeld s.blk t.blk
      ∧ ∀ u ∈ y.members ++ [s.team.uid], ∃ v w, s.findTeam u = some v ∧ t.findTeam u = some w ∧ HeldFrom .convMismatch v w := by
  have hf : Faultable s y.members := ⟨hy.nodup, fun u hu => by
    obtain ⟨v, hv, h0, hb, hw⟩ := hy.waits u hu
    exact ⟨h0, v, hv, hb, by rw [hw]; nofun⟩⟩
  have ha := foldl_holdsAll (g := State.mismatchWaiter c) (f := fun t => t.flt .convMismatch) (fun _ => rfl) h hf
    fun t u hu ht => by
      obtain ⟨v, hv, -, -, hw⟩ := hy.waits u hu
      exact mismatchWaiter_waiting (ht.trans hv) hw
  generalize y.members.foldl (State.mismatchWaiter c) s = t at ha
  have hself := findTeam_self h.focus
  have hselft : t.findTeam s.team.uid = some s.team := (ha.others _ hy.notSelf).trans hself
  have hb := faultIn_holds ha.holding h.focus hselft ha.bid.symm (s.flt .convMismatch)
  refine ⟨_, rfl, ha.blk.trans hb.blk, fun u hu => ?_⟩
  rcases List.mem_append.mp hu with hu | hu
  · obtain ⟨v, hv, -⟩ := hy.waits u hu
    obtain ⟨w, hw, hheld⟩ := ha.held u hu v hv
    exact ⟨v, w, hv, (hb.others u fun he => hy.notSelf (he ▸ hu)).trans hw, hheld⟩
  · rw [List.mem_singleton.mp hu]
    obtain ⟨w, hw, hheld⟩ := hb.held s.team hselft (by rw [hp]; nofun)
    exact ⟨s.team, w, hself, hw, hheld⟩

/-! ### One that dissolves (R85) -/

/-- A member leaves a convocation in which no word has been issued. -/
theorem leaveConv_left {k : Member} {y : Convocation} (hk : s.team.mat.member = some k) (hy : s.blk.findConv k.cv = some y)
    (hi : y.issues = []) : ∃ cs, s.leaveConv = { s.withMat { s.team.mat with member := none } with blk := { s.blk with convs := cs } }
      ∧ ∀ z ∈ cs, z.cv = k.cv → s.team.uid ∉ z.members ∧ z.dissolved = true := by
  have hno (us : List Nat) : us.filter (fun u => y.issues.any (fun i => i.uid == u)) = [] := by simp [hi]
  unfold State.leaveConv
  rw [hk]
  dsimp only
  rw [hy]
  dsimp only
  rw [hno]
  split
  · refine ⟨_, rfl, fun z hz he => ?_⟩
    simp [he] at hz
  · refine ⟨_, rfl, fun z hz he => ?_⟩
    obtain ⟨x, -, rfl⟩ := List.mem_map.mp hz
    by_cases hx : x.cv = k.cv
    · rw [if_pos hx]
      exact ⟨by simp, rfl⟩
    · rw [if_neg hx] at he
      exact absurd he hx

end

section
variable {s : State} {d p w m n c bid off : Nat}

section
variable (hl : (s.getS d).toNat / 2 ^ 56 = 0xF1 ∨ (s.getS d).toNat / 2 ^ 56 = 0xF2)
  (ha : s.accessOne .atomic (s.getS d) 16 16 = .ok (.spad bid off)) (hp : s.poisonAt (.spad bid off) = false)
include hl ha hp

/-- PBARA arrives, and writes the old PHASE to its register. -/
theorem exec_pbara_arrives (hs : storesWf s = true) (ho : (s.findBlock bid).isSome = true) :
    ∃ t u, exec (.pbara d) s = .next t ∧ PhaseArrived s (.spad bid off) u
      ∧ t = (u.setS (d + 1) (BitVec.ofNat 64 (s.phaseWord (.spad bid off) 2))).retireCtl := by
  obtain ⟨hold, hr⟩ := arrivePhase_arrives hs ho off
  refine ⟨_, _, exec_pbara hl ha hp, hr, ?_⟩
  have hlt : s.phaseWord (.spad bid off) 2 < 2 ^ 32 := readAt_lt s _ 4
  rw [hold, BitVec.toNat_ofNat, Nat.mod_eq_of_lt hlt]

theorem exec_pbwait_passes
    (h : phasePast (BitVec.ofNat 32 (s.phaseWord (.spad bid off) 2)) (BitVec.ofNat 32 (s.getS (d + 1)).toNat) = true) :
    exec (.pbwait d p w) s = .next (s.waitDone p ((s.phaseWord (.spad bid off) 3).testBit 0)) := by
  rw [exec_pbwait hl ha hp, if_pos h]

theorem exec_pbwait_waits
    (h : phasePast (BitVec.ofNat 32 (s.phaseWord (.spad bid off) 2)) (BitVec.ofNat 32 (s.getS (d + 1)).toNat) = false) :
    exec (.pbwait d p w) s =
      .next (s.timedWait w (.phase bid off (BitVec.ofNat 32 (s.getS (d + 1)).toNat) p (s.getS d))) := by
  rw [exec_pbwait hl ha hp, if_neg (Bool.eq_false_iff.mp h)]

end

theorem phasePast_iff {x y : Word32} : phasePast x y = true ↔ 0 < (x - y).toNat ∧ (x - y).toNat < 2 ^ 31 := by
  simp [phasePast]

/-- A refused convocation goes, and all that wait for it are held (R83). -/
theorem exec_conv_refused {y : Convocation} (hc : c ≠ 0) (h : s.team.mat.member = none) (hy : s.blk.findConv c = some y)
    (hf : y.formed = false) (hx : s.convConflict y n m = true) (hs : Holding s) (hg : Gathering s c y)
    (hp : s.team.phase = .ready) : ∃ t, exec (.conv m n c) s = .next t ∧ t.blk.findConv c = none ∧
      ∀ u ∈ y.members ++ [s.team.uid], ∃ v w, s.findTeam u = some v ∧ t.findTeam u = some w ∧ HeldFrom .convMismatch v w := by
  obtain ⟨t, ht, hb, hall⟩ := refused_holds
    (s := { s with blk := { s.blk with convs := s.blk.convs.filter (fun y => y.cv != c) } }) (c := c) (y := y)
    ⟨hs.focus, hs.apart, hs.block, hs.trap, hs.handlers⟩ ⟨hg.nodup, hg.notSelf, hg.waits⟩ hp
  refine ⟨t, ?_, hb.findConv (findConv_dropped s.blk c), hall⟩
  rw [exec_conv_some hc h hy, if_neg (by simp [hf]), if_pos hx]
  exact congrArg Host.Outcome.next ht

theorem holding_of_nodup (hn : (s.teams.map Team.uid).Nodup) (h0 : s.team.uid ≠ 0) (hb : s.blk.bid = s.team.bid)
    (ht : s.blk.k.trapEntry = none) (hl : ∀ l ∈ s.launches, ∀ rcb, l.from_ ≠ .handler rcb) : Holding s := by
  refine ⟨h0, fun t hm he => ?_, hb, ht, hl⟩
  rw [State.teams, if_neg h0, List.map_cons, List.nodup_cons] at hn
  exact hn.1 (he ▸ List.mem_map_of_mem hm)

end

/-- Settles O48: phase objects by their bytes, convocations by what CONV finds of its cv. -/
theorem phaseBarriersAndConvocations : Obligations.PhaseBarriersAndConvocations := by
  unfold Obligations.PhaseBarriersAndConvocations
  intro d p w m n c s hwf at_ word pending expect x diff
  refine ⟨fun h1 h2 => ⟨exec_pbara_space h1 h2, exec_pbwait_space h1 h2⟩, fun bid off hl => ?_,
    exec_conv_member, fun hc h ⟨y, hy, hf⟩ => ?_, fun h => ?_, exec_conv_zero, fun hc h hx hself => ?_, fun hc h hx hn => ?_,
    fun y _ _ _ _ => convConflict_iff, fun y hc h hy hf hx htrap hblk hlaunch hnodup h0 hphase hno hnd hw => ?_,
    fun y hc h hy hf hx hlen => ?_, fun y hc h hy hf hx hlen => ?_, fun k y hk hy hi => ?_⟩
  · intro pl ha hp ho
    refine ⟨?_, fun h0 h1 => exec_pbwait_passes hl ha hp (phasePast_iff.mpr ⟨h0, h1⟩), fun h => ?_⟩
    · obtain ⟨t, u, ht, hu, rfl⟩ := exec_pbara_arrives hl ha hp hwf ho
      obtain ⟨hissued, hpc⟩ := setS_retireCtl_ends (s := u) (d + 1) (BitVec.ofNat 64 (s.phaseWord (.spad bid off) 2))
      refine ⟨_, ht, ?_, ?_, fun hd => State.getS_setS_self hu.wf hd _, ?_, ?_, fun q hq => ?_⟩
      · rw [tookEffect, hissued, hu.issued]
      · rw [hpc, hu.nextPc]
      · rw [readAt_setS_retireCtl, readAt_setS_retireCtl]
        exact hu.more
      · rw [readAt_setS_retireCtl, readAt_setS_retireCtl]
        exact hu.last
      · rw [byteAt_setS_retireCtl]
        exact hu.outside q hq
    · have hpast := Bool.eq_false_iff.mpr (mt phasePast_iff.mp h)
      exact ⟨_, exec_pbwait_waits hl ha hp hpast, rfl, rfl, rfl, rfl, fun _ => ⟨rfl, rfl⟩⟩
  · rw [exec_conv_some hc h hy, if_pos hf]
  · rw [exec_conv_zero, exec_disb_of_no_member h]
  · obtain ⟨hissued, hpc⟩ := formConv_kept s c 1 m [s.team.uid]
    have hone := bySection_singleton hself
    refine ⟨_, s.formed c 1 m [s.team.uid], (exec_conv_none hc h hx).trans (congrArg _ (if_pos rfl)), ?_, ?_, ?_,
      formed_mem s c 1 m _, rfl, rfl, hone⟩
    · exact congrArg (· + 1) hissued
    · exact hpc
    · have hm := formConv_member (c := c) (n := 1) (m := m) (us := [s.team.uid]) (by rw [hone]; exact List.mem_cons_self)
      rw [hone] at hm
      refine hm.trans ?_
      simp [memberAt]
  · exact ⟨_, (exec_conv_none hc h hx).trans (congrArg _ (if_neg hn)), rfl, rfl, rfl, _, rfl, rfl, rfl, rfl, rfl⟩
  · obtain ⟨t, ht, hconv, hall⟩ := exec_conv_refused (m := m) (n := n) hc h hy hf hx (holding_of_nodup hnodup h0 hblk htrap hlaunch)
      ⟨hnd, hno, hw⟩ hphase
    refine ⟨t, ht, hconv, fun u hu => ?_⟩
    obtain ⟨v, w, hv, hw, hheld⟩ := hall u hu
    exact ⟨w, hw, hheld.phase, hheld.cause, by rw [hv, Option.map_some, hheld.pc]⟩
  · exact ⟨_, exec_conv_joins hc h hy hf hx hlen, rfl, rfl, rfl, h,
      findConv_modConv (f := fun y => { y with members := y.members ++ [s.team.uid] }) (fun _ => rfl) hy⟩
  · obtain ⟨hissued, hpc⟩ := formConv_kept s c n m (y.members ++ [s.team.uid])
    refine ⟨_, s.formed c n m (y.members ++ [s.team.uid]), exec_conv_forms hc h hy hf hx hlen, ?_, ?_,
      formed_mem s c n m _, rfl, rfl, rfl, formConv_member, fun u hu hm => formConv_others hu hm⟩
    · exact congrArg (· + 1) hissued
    · exact hpc
  · obtain ⟨cs, hleft, hcs⟩ := leaveConv_left (s := s.retireCtl) hk hy hi
    exact ⟨_, congrArg Host.Outcome.next hleft, rfl, rfl, rfl, hcs⟩

end Sys2Proof.Machine
end

section
/-!
PROOF. Matrix words (R309..R314, R395): leave for their steps, and the steps of a team that is alone.
-/
namespace Sys2Proof.Machine

/-! ### Checks made for every element of a list -/

theorem option_mapM_some {α β : Type} {f : α → Option β} {g : α → β} {xs : List α} (h : ∀ x ∈ xs, f x = some (g x)) :
    xs.mapM f = some (xs.map g) := by
  induction xs with
  | nil => rfl
  | cons x xs ih =>
    rw [List.forall_mem_cons] at h
    rw [List.mapM_cons, h.1, ih h.2]
    rfl

theorem option_mapM_none {α β : Type} {f : α → Option β} {xs : List α} (h : ∃ x ∈ xs, f x = none) : xs.mapM f = none := by
  induction xs with
  | nil => exact absurd h.choose_spec.1 List.not_mem_nil
  | cons x xs ih =>
    rw [List.mapM_cons]
    cases hx : f x with
    | none => rfl
    | some y =>
      obtain ⟨z, hz, hf⟩ := h
      rcases List.mem_cons.mp hz with rfl | hz
      · exact absurd hf (by simp [hx])
      · rw [ih ⟨z, hz, hf⟩]
        rfl

/-! ### Leave (R395) -/

/-- The team may begin `n` steps: they fit the rest of the core's free ones and the team's tokens, or the word was granted. -/
def State.Leave (s : State) (n : Nat) : Prop :=
  n ≤ s.team.tokSteps + (256 - smGet 0 s.freeSteps s.team.core) ∨ s.team.granted = some s.team.pc

/-- The state once `n` steps are paid for. -/
def State.paid (s : State) (n : Nat) : State :=
  { s with freeSteps := smSet 0 s.freeSteps s.team.core (smGet 0 s.freeSteps s.team.core + s.freeRest n)
           team := { s.team with tokSteps := s.team.tokSteps - (n - s.freeRest n), granted := none } }

section
variable {s : State} {n : Nat}

theorem leave_iff : s.Leave n ↔ (n - s.freeRest n ≤ s.team.tokSteps || s.team.granted = some s.team.pc) = true := by
  rw [State.Leave, Bool.or_eq_true, decide_eq_true_eq, decide_eq_true_eq, State.freeRest]
  refine or_congr_left ?_
  omega

theorem payLeave_some (h : s.Leave n) : s.payLeave n = some (s.paid n) := if_pos (leave_iff.mp h)

theorem payLeave_none (h : ¬s.Leave n) : s.payLeave n = none := if_neg (mt leave_iff.mpr h)

end

/-! ### What a matrix word checks (R310) -/

section
variable {α β : Type} {x : Except FaultInfo α} {f : α → Except FaultInfo β}

theorem except_bind_ok {a : α} (h : x = .ok a) : (x >>= f) = f a := by rw [h]; rfl

theorem except_bind_error {e : FaultInfo} (h : x = .error e) : (x >>= f) = .error e := by rw [h]; rfl

end

/-- The cv of the convocation that the team is a member of; 0 for none. -/
def State.ownCv (s : State) : Nat := match s.team.mat.member with | some m => m.cv | none => 0

section
variable {s : State} {cv : Option Nat} {rs : List StepReq} {skipped : Nat} (hz : s.iss.hazard = none)
include hz

theorem matrixWord_cv (h : cv.all (fun c => c = s.ownCv) = false) :
    s.matrixWord cv rs skipped = .error (s.flt .convMismatch) :=
  (except_bind_ok (hazardCheck_ok hz)).trans (except_bind_error (need_error h _))

variable (hc : cv.all (fun c => c = s.ownCv) = true)
include hc

theorem matrixWord_convergence (h : s.team.lanes.active ≠ firstLanes s.team.size) :
    s.matrixWord cv rs skipped = .error (s.flt .illegalConvergence) :=
  (except_bind_ok (hazardCheck_ok hz)).trans ((except_bind_ok (need_ok hc _)).trans
    (except_bind_error (need_error (by simpa using h) _)))

variable (hw : s.team.lanes.active = firstLanes s.team.size)
include hw

theorem matrixWord_stalls (h : ¬s.Leave rs.length) :
    s.matrixWord cv rs skipped = .ok (s.stall (.leave false (rs.length - s.freeRest rs.length))) := by
  refine (except_bind_ok (hazardCheck_ok hz)).trans ((except_bind_ok (need_ok hc _)).trans
    ((except_bind_ok (need_ok (by simpa using hw) _)).trans ?_))
  rw [payLeave_none h]
  rfl

variable (h : s.Leave rs.length)
include h

theorem matrixWord_solo (hm : s.team.mat.member = none) :
    s.matrixWord cv rs skipped = (s.paid rs.length).soloSteps rs skipped := by
  refine (except_bind_ok (hazardCheck_ok hz)).trans ((except_bind_ok (need_ok hc _)).trans
    ((except_bind_ok (need_ok (by simpa using hw) _)).trans ?_))
  rw [payLeave_some h]
  dsimp only
  rw [show (s.paid rs.length).team.mat.member = none from hm]

variable {m : Member} {v : Convocation} (hm : s.team.mat.member = some m) (hv : s.blk.findConv m.cv = some v)
  (hd : v.dissolved = false) (hb : v.broken = false)
include hm hv hd hb

theorem matrixWord_member : s.matrixWord cv rs skipped =
    if v.issues.length + 1 = v.n then (s.paid rs.length).gangSteps v rs skipped
    else .ok (({ s.paid rs.length with blk := s.blk.modConv m.cv (fun x =>
      { x with issues := x.issues ++ [⟨s.team.uid, s.iss.word⟩] }) } : State).beginWait false (.step s.iss.word)) := by
  refine (except_bind_ok (hazardCheck_ok hz)).trans ((except_bind_ok (need_ok hc _)).trans
    ((except_bind_ok (need_ok (by simpa using hw) _)).trans ?_))
  rw [payLeave_some h]
  dsimp only
  rw [show (s.paid rs.length).team.mat.member = some m from hm]
  dsimp only
  rw [show (s.paid rs.length).blk.findConv m.cv = some v from hv]
  refine (except_bind_ok (need_ok (by simp [hd, hb]) _)).trans ?_
  split <;> rfl

end

/-! ### The pairs of a step (R310, R311) -/

/-- The slot that a team has bound to a name. -/
def Team.slotOf (t : Team) (n : Nat) : Option Slot := (t.mat.slots.find? (fun x => x.1 == n)).map Prod.snd

/-- The tile that a team has bound to a name. -/
def Team.tileOf (t : Team) (n : Nat) : Option Tile := (t.mat.tiles.find? (fun x => x.1 == n)).map Prod.snd

/-- At most one operand of a pair is Decomposed or Structured (R310). -/
def Apart (p p' : Slot) : Prop :=
  ¬((p.kind = .decomposed ∨ p.kind = .structured) ∧ (p'.kind = .decomposed ∨ p'.kind = .structured))

theorem pairsOk_of {ps : List (Slot × Slot)} {kc : Nat}
    (hk : ∀ p ∈ ps, (p.1.kind = .zero ∨ p.1.kc = kc) ∧ (p.2.kind = .zero ∨ p.2.kc = kc))
    (ha : ∀ p ∈ ps, Apart p.1 p.2) : pairsOk ps = true := by
  unfold pairsOk
  extract_lets ks sparse
  have hks : ∀ k ∈ ks, k = kc := by
    intro k hm
    obtain ⟨x, hx, rfl⟩ := List.mem_map.mp hm
    obtain ⟨hx, hz⟩ := List.mem_filter.mp hx
    obtain ⟨p, hp, hx⟩ := List.mem_flatMap.mp hx
    have hz : x.kind ≠ .zero := by simpa using hz
    obtain ⟨h1, h2⟩ := hk p hp
    rcases List.mem_cons.mp hx with rfl | hx
    · exact h1.resolve_left hz
    · rw [List.mem_singleton.mp hx] at hz ⊢
      exact h2.resolve_left hz
  rw [Bool.and_eq_true, List.all_eq_true, List.all_eq_true]
  refine ⟨fun k hm => ?_, fun p hp => by simpa [sparse, Apart, imp_iff_not_or] using ha p hp⟩
  cases hc : ks with
  | nil => exact absurd (hc ▸ hm) List.not_mem_nil
  | cons k' ks' => simp [hks k hm, hks k' (hc ▸ List.mem_cons_self)]

section
variable {mode : Nat} {t0 : Team} {ts : List Team} {r : StepReq}

/-- In N-gang mode each member has a pair of its own, with operand A of member 0. -/
theorem stepPairs_nGang (hm : mode ≠ 1) {A : Slot} {Q : Team → Slot} (ha : t0.slotOf r.a = some A)
    (hb : ∀ t ∈ t0 :: ts, t.slotOf r.b = some (Q t) ∧ t.bound false r.d = true) :
    stepPairs mode (t0 :: ts) r = some ((t0 :: ts).map (fun t => (t, [(A, Q t)]))) := by
  unfold stepPairs
  dsimp only
  rw [if_neg hm, show (t0.mat.slots.find? _).map Prod.snd = some A from ha]
  refine option_mapM_some fun t ht => ?_
  obtain ⟨hq, hd⟩ := hb t ht
  rw [show (t.mat.slots.find? _).map Prod.snd = some (Q t) from hq]
  exact if_pos hd

/-- In K-gang mode the pairs of all members are the chunks of member 0's step. -/
theorem stepPairs_kGang {P Q : Team → Slot} (hab : ∀ t ∈ t0 :: ts, t.slotOf r.a = some (P t) ∧ t.slotOf r.b = some (Q t))
    (hd : t0.bound false r.d = true) :
    stepPairs 1 (t0 :: ts) r = some [(t0, (t0 :: ts).map (fun t => (P t, Q t)))] := by
  unfold stepPairs
  dsimp only
  rw [if_pos rfl, option_mapM_some (g := fun t => (P t, Q t))]
  · exact if_pos hd
  · intro t ht
    obtain ⟨ha, hb⟩ := hab t ht
    rw [show (t.mat.slots.find? _).map Prod.snd = some (P t) from ha, show (t.mat.slots.find? _).map Prod.snd = some (Q t) from hb]
    rfl

/-- No step begins while a member's operand B is unbound. -/
theorem stepPairs_unboundB (h : ∃ t ∈ t0 :: ts, t.slotOf r.b = none) : stepPairs mode (t0 :: ts) r = none := by
  unfold stepPairs
  dsimp only
  obtain ⟨t, ht, hb⟩ := h
  split
  · rw [option_mapM_none]
    refine ⟨t, ht, ?_⟩
    rw [show (t.mat.slots.find? (fun x => x.1 == r.b)).map Prod.snd = none from hb]
    cases (t.mat.slots.find? (fun x => x.1 == r.a)).map Prod.snd <;> rfl
  · split
    · rfl
    · refine option_mapM_none ⟨t, ht, ?_⟩
      rw [show (t.mat.slots.find? (fun x => x.1 == r.b)).map Prod.snd = none from hb]
      rfl

/-- Nor does one of a team alone while anything it names is unbound. -/
theorem stepPairs_solo_none (h : t0.slotOf r.a = none ∨ t0.slotOf r.b = none ∨ t0.bound false r.d = false) :
    stepPairs 0 [t0] r = none := by
  rcases h with h | h | h
  · unfold stepPairs
    dsimp only
    rw [if_neg (by decide), show (t0.mat.slots.find? (fun x => x.1 == r.a)).map Prod.snd = none from h]
  · exact stepPairs_unboundB ⟨t0, List.mem_cons_self, h⟩
  · unfold stepPairs
    dsimp only
    rw [if_neg (by decide)]
    split
    · rfl
    · refine option_mapM_none ⟨t0, List.mem_cons_self, ?_⟩
      cases (t0.mat.slots.find? (fun x => x.1 == r.b)).map Prod.snd with
      | none => rfl
      | some b => exact if_neg (by simp [h])

end

section
variable {mode : Nat} {ms : List Team} {a b d : Nat} {z : Bool} {js : List Nat}

/-- The request of one of a word's steps. -/
abbrev stepReq (a b d : Nat) (z : Bool) (j : Nat) : StepReq := ⟨a + j, b + j, d, z⟩

/-- The steps of a word whose operands are consecutive slots. -/
def stepReqs (a b d : Nat) (z : Bool) (js : List Nat) : List StepReq := js.map (stepReq a b d z)

theorem length_stepReqs : (stepReqs a b d z js).length = js.length := List.length_map _

/-- What a word begins for its owners. -/
def begun (mode : Nat) (ms : List Team) (os : Nat → List (Team × List (Slot × Slot))) (a b d : Nat) (z : Bool) (js : List Nat) :
    List (Nat × StepInFlight) :=
  js.flatMap (fun j => (os j).map (fun o =>
    (o.1.uid, { acc := d, fromZero := z, reads := stepReads mode ms o.1 (stepReq a b d z j), chunks := o.2 })))

theorem beginSteps_some {os : Nat → List (Team × List (Slot × Slot))}
    (h : ∀ j ∈ js, stepPairs mode ms (stepReq a b d z j) = some (os j))
    (hp : ∀ j ∈ js, pairsOk ((os j).flatMap Prod.snd) = true) :
    beginSteps mode ms (stepReqs a b d z js) = some (begun mode ms os a b d z js) := by
  have hm : (stepReqs a b d z js).mapM (fun r => (stepPairs mode ms r).map (fun x => (r, x))) =
      some (js.map (fun j => (stepReq a b d z j, os j))) := by
    rw [stepReqs, List.mapM_map]
    exact option_mapM_some fun j hj => by rw [Function.comp, h j hj, Option.map_some]
  unfold beginSteps
  rw [hm]
  dsimp only
  rw [if_pos, begun, List.flatMap_map]
  rw [List.all_map, List.all_eq_true]
  exact hp

theorem beginSteps_none (h : ∃ j ∈ js, stepPairs mode ms (stepReq a b d z j) = none) :
    beginSteps mode ms (stepReqs a b d z js) = none := by
  have hm : (stepReqs a b d z js).mapM (fun r => (stepPairs mode ms r).map (fun x => (r, x))) = none := by
    obtain ⟨j, hj, hn⟩ := h
    exact option_mapM_none ⟨_, List.mem_map_of_mem hj, by rw [hn, Option.map_none]⟩
  unfold beginSteps
  rw [hm]

end

end Sys2Proof.Machine
end

section
/-!
PROOF. The steps of a team that is alone: MMA, MMA.z and MMAS outside a convocation (R309, R310, R314).
-/
namespace Sys2Proof.Machine

/-! ### What counted steps leave -/

section
variable {s : State} {xs : List (Nat × StepInFlight)} {k : Nat}

theorem countSteps_steps : (s.countSteps xs k).team.mat.steps =
    s.team.mat.steps ++ (xs.filter (fun x => x.1 == s.team.uid)).map Prod.snd := rfl

theorem retire_mat (s : State) : s.retire.team.mat = s.team.mat := by simp

/-- A word that began steps has retired, with the team's registers, slots and tiles, and memory, as they were. -/
theorem countSteps_retire (s : State) (n : Nat) (xs : List (Nat × StepInFlight)) (k : Nat) :
    ((s.paid n).countSteps xs k).retire.issued = s.issued + 1 ∧ ((s.paid n).countSteps xs k).retire.team.regs = s.team.regs ∧
    sameBytes s ((s.paid n).countSteps xs k).retire ∧
    ((s.paid n).countSteps xs k).retire.team.mat.tiles = s.team.mat.tiles := by
  refine ⟨?_, ?_, sameBytes_of_stores ?_ ?_ ?_ ?_ ?_, ?_⟩
  · rw [State.retire_issued]
    rfl
  · simp only [State.retire_team_regs]
    rfl
  · simp only [State.retire_mem]
    rfl
  · simp only [State.retire_memSide]
    rfl
  · simp only [State.retire_hub]
    rfl
  · simp only [State.retire_blk]
    rfl
  · simp only [State.retire_blocks]
    rfl
  · rw [retire_mat]
    rfl

end

/-! ### A team alone -/

/-- Operands that one word may pair: a Zero slot, or the same K, and not both Decomposed or Structured (R310). -/
def PairOk (p p' : Slot) : Prop := (p.kind = .zero ∨ p'.kind = .zero ∨ p.kc = p'.kc) ∧ Apart p p'

theorem pairsOk_pair {p p' : Slot} (h : PairOk p p') : pairsOk [(p, p')] = true := by
  obtain ⟨hk, ha⟩ := h
  refine pairsOk_of (kc := if p.kind = .zero then p'.kc else p.kc) (List.forall_mem_singleton.mpr ?_)
    (List.forall_mem_singleton.mpr ha)
  by_cases hp : p.kind = .zero
  · rw [if_pos hp]
    exact ⟨.inl hp, .inr rfl⟩
  · rw [if_neg hp]
    exact ⟨.inr rfl, hk.resolve_left hp |>.imp_right Eq.symm⟩

theorem bound_iff {t : Team} {d : Nat} : t.bound false d = true ↔ t.tileOf d ≠ none := by
  rw [Team.tileOf, Ne, Option.map_eq_none_iff, List.find?_eq_none, Team.bound, if_neg Bool.false_ne_true, List.any_eq_true]
  simp

section
variable {s : State} {cv : Option Nat} {a b d : Nat} {z : Bool} {js : List Nat} {skipped : Nat} (hz : s.iss.hazard = none)
  (hc : cv.all (fun c => c = s.ownCv) = true) (hw : s.team.lanes.active = firstLanes s.team.size)
  (hl : s.Leave js.length) (hm : s.team.mat.member = none)
include hz hc hw hl hm

theorem soloWord_unbound (h : ∃ j ∈ js, s.team.slotOf (a + j) = none ∨ s.team.slotOf (b + j) = none ∨ s.team.tileOf d = none) :
    s.matrixWord cv (stepReqs a b d z js) skipped = .error (s.flt .slotState) := by
  rw [matrixWord_solo hz hc hw (by rwa [length_stepReqs]) hm, State.soloSteps, beginSteps_none]
  · rfl
  · obtain ⟨j, hj, hn⟩ := h
    refine ⟨j, hj, stepPairs_solo_none (hn.imp_right (Or.imp_right fun hd => ?_))⟩
    rw [Bool.eq_false_iff, Ne, bound_iff]
    exact not_not_intro hd

theorem soloWord_begins {P Q : Nat → Slot} (hd : js ≠ [] → s.team.tileOf d ≠ none)
    (hpq : ∀ j ∈ js, s.team.slotOf (a + j) = some (P j) ∧ s.team.slotOf (b + j) = some (Q j) ∧ PairOk (P j) (Q j)) :
    ∃ u, s.matrixWord cv (stepReqs a b d z js) skipped = .ok u ∧ tookEffect s u ∧ u.team.regs = s.team.regs ∧ sameBytes s u
      ∧ u.team.mat.tiles = s.team.mat.tiles ∧ u.team.mat.steps = s.team.mat.steps ++ js.map (fun j =>
        { acc := d, fromZero := z, reads := [(s.team.uid, a + j), (s.team.uid, b + j)], chunks := [(P j, Q j)] }) := by
  have hpairs : ∀ j ∈ js, stepPairs 0 [(s.paid js.length).team] (stepReq a b d z j) =
      some [((s.paid js.length).team, [(P j, Q j)])] := by
    intro j hj
    obtain ⟨hp, hq, -⟩ := hpq j hj
    exact stepPairs_nGang (Q := fun _ => Q j) (by decide) hp (List.forall_mem_singleton.mpr
      ⟨hq, bound_iff.mpr (hd (List.ne_nil_of_mem hj))⟩)
  have hok : ∀ j ∈ js, pairsOk ([((s.paid js.length).team, [(P j, Q j)])].flatMap Prod.snd) = true := fun j hj =>
    pairsOk_pair (hpq j hj).2.2
  obtain ⟨hi, hr, hb, ht⟩ := countSteps_retire s js.length (begun 0 [(s.paid js.length).team]
    (fun j => [((s.paid js.length).team, [(P j, Q j)])]) a b d z js) skipped
  refine ⟨_, ?_, hi, hr, hb, ht, ?_⟩
  · rw [matrixWord_solo hz hc hw (by rwa [length_stepReqs]) hm, State.soloSteps, length_stepReqs, beginSteps_some hpairs hok]
  · rw [retire_mat, countSteps_steps, List.filter_eq_self.mpr]
    · refine congrArg (s.team.mat.steps ++ ·) ?_
      rw [begun, List.map_flatMap]
      exact (List.map_eq_flatMap ..).symm
    · intro x hx
      obtain ⟨j, -, hx⟩ := List.mem_flatMap.mp hx
      rw [List.mem_singleton.mp hx]
      exact beq_self_eq_true _

end

end Sys2Proof.Machine
end

section
/-!
PROOF. The steps of a convocation (R84, R310, R311): the last member's word begins them for all, or every member is refused.
-/
namespace Sys2Proof.Machine

/-! ### Teams found after a change of some -/

section
variable {s : State} {u : Nat} {f : Team → Team}

/-- Changing teams that are not in focus changes nothing else. -/
theorem foldl_modTeam_frame {xs : List Nat} (h : s.team.uid ∉ xs) :
    ∃ os, xs.foldl (fun t x => t.modTeam x f) s = { s with others := os } := by
  induction xs generalizing s with
  | nil => exact ⟨s.others, rfl⟩
  | cons x xs ih =>
    rw [List.mem_cons, not_or] at h
    have hk : s.modTeam x f = { s with others := s.others.map (fun t => if t.uid = x then f t else t) } := by
      rw [State.modTeam, if_neg h.1]
    obtain ⟨os, ho⟩ := ih (s := s.modTeam x f) (by rw [hk]; exact h.2)
    rw [hk] at ho
    exact ⟨os, by rw [List.foldl_cons, hk, ho]⟩

variable (hf : ∀ t, (f t).uid = t.uid)
include hf

theorem findTeam_mapTeams : (s.mapTeams f).findTeam u = (s.findTeam u).map f := by
  have hteams : (s.mapTeams f).teams = s.teams.map f := by
    rw [State.teams, State.teams]
    change (if (f s.team).uid = 0 then _ else _) = _
    rw [hf]
    split <;> rfl
  rw [State.findTeam, hteams, List.find?_map, State.findTeam]
  congr 2
  funext t
  exact congrArg (· == u) (hf t)

theorem findTeam_modTeam (x : Nat) : (s.modTeam x f).findTeam u = (s.findTeam u).map (fun t => if t.uid = x then f t else t) :=
  findTeam_mapTeams (f := fun t => if t.uid = x then f t else t) fun t => by
    split
    · exact hf t
    · rfl

/-- Teams of a list changed one after another. -/
theorem findTeam_foldl_modTeam {xs : List Nat} (hn : xs.Nodup) : (xs.foldl (fun t x => t.modTeam x f) s).findTeam u =
    (s.findTeam u).map (fun t => if t.uid ∈ xs then f t else t) := by
  induction xs generalizing s with
  | nil => simp
  | cons x xs ih =>
    obtain ⟨hx, hn⟩ := List.nodup_cons.mp hn
    rw [List.foldl_cons, ih hn, findTeam_modTeam hf, Option.map_map]
    congr 1
    funext t
    dsimp only [Function.comp]
    by_cases he : t.uid = x
    · simp [he, hf, hx]
    · simp [he]

end

theorem stepBegun_uid (t : Team) : t.stepBegun.uid = t.uid := by
  unfold Team.stepBegun
  split <;> rfl

/-- A member that waited in the step goes on, with its registers and what it holds. -/
theorem stepBegun_waiting {t : Team} {w : Nat} (h : t.phase = .waiting (.step w)) :
    t.stepBegun.phase = .ready ∧ t.stepBegun.pc = t.pc + 4 ∧ t.stepBegun.regs = t.regs ∧ t.stepBegun.mat.tiles = t.mat.tiles ∧
      t.stepBegun.mat.slots = t.mat.slots ∧ t.stepBegun.mat.steps = t.mat.steps := by
  unfold Team.stepBegun
  rw [h]
  exact ⟨rfl, rfl, rfl, rfl, rfl, rfl⟩

/-! ### The members at the last word -/

/-- The team in focus issues last: every other member waits in the step. -/
structure Gang (s : State) (v : Convocation) : Prop where
  focus : s.team.uid ≠ 0
  nodup : v.members.Nodup
  self : s.team.uid ∈ v.members
  waits : ∀ i ∈ v.members, i ≠ s.team.uid → i ≠ 0 ∧ ∃ h w, s.findTeam i = some h ∧ h.phase = .waiting (.step w)

/-- The other members. -/
abbrev State.partners (s : State) (v : Convocation) : List Nat := v.members.filter (fun i => i != s.team.uid)

/-- The team of a uid. -/
def State.teamOf (s : State) (u : Nat) : Team := (s.findTeam u).getD s.team

/-- The state in which the last word has been paid for and the words of the step are gone. -/
def State.cleared (s : State) (n : Nat) (v : Convocation) : State :=
  { s.paid n with blk := s.blk.modConv v.cv (fun x => { x with issues := [] }) }

section
variable {s : State} {v : Convocation} {n : Nat} (h : Gang s v)
include h

theorem Gang.findTeam {i : Nat} (hi : i ∈ v.members) : s.findTeam i = some (s.teamOf i) := by
  by_cases he : i = s.team.uid
  · rw [State.teamOf, he, findTeam_self h.focus]
    rfl
  · obtain ⟨-, t, w, ht, -⟩ := h.waits i hi he
    rw [State.teamOf, ht]
    rfl

theorem Gang.uid {i : Nat} (hi : i ∈ v.members) : (s.teamOf i).uid = i := findTeam_uid (h.findTeam hi)

theorem findTeam_paid {i : Nat} (hi : i ≠ s.team.uid) : (s.paid n).findTeam i = s.findTeam i := by
  rw [findTeam_eq h.focus, findTeam_eq (s := s.paid n) h.focus]
  exact (if_neg (Ne.symm hi)).trans (if_neg (Ne.symm hi)).symm

theorem Gang.paid : Gang (s.paid n) v := ⟨h.focus, h.nodup, h.self, fun i hi he => by
  rw [findTeam_paid h he]
  exact h.waits i hi he⟩

/-- Paying leaves what a member holds. -/
theorem teamOf_paid (i : Nat) : ((s.paid n).teamOf i).mat = (s.teamOf i).mat := by
  by_cases he : i = s.team.uid
  · rw [State.teamOf, State.teamOf, he, findTeam_self h.focus, show (s.paid n).findTeam s.team.uid = some (s.paid n).team from
      findTeam_self (s := s.paid n) h.focus]
    rfl
  · rw [State.teamOf, State.teamOf, findTeam_paid h he]
    cases s.findTeam i <;> rfl

theorem Gang.filterMap_findTeam : v.members.filterMap s.findTeam = v.members.map s.teamOf := by
  rw [← List.filterMap_eq_map]
  exact List.filterMap_congr fun i hi => h.findTeam hi

end

/-! ### A refused word (R84, R310) -/

/-- The block's teams are where a fault holds them. -/
structure GangHolds (s : State) (v : Convocation) : Prop where
  apart : ∀ t ∈ s.others, t.uid ≠ s.team.uid
  trap : s.blk.k.trapEntry = none
  block : s.blk.bid = s.team.bid
  phase : s.team.phase = .ready
  handlers : ∀ l ∈ s.launches, ∀ rcb, l.from_ ≠ .handler rcb
  bid : ∀ j ∈ s.partners v, ∀ h, s.findTeam j = some h → h.bid = s.team.bid

section
variable {s : State} {v : Convocation} {n : Nat} (h : Gang s v)
include h

theorem Gang.waits_partner {i : Nat} (hi : i ∈ s.partners v) :
    i ≠ s.team.uid ∧ i ≠ 0 ∧ ∃ t w, s.findTeam i = some t ∧ t.phase = .waiting (.step w) := by
  obtain ⟨hm, hne⟩ := List.mem_filter.mp hi
  have hne : i ≠ s.team.uid := by simpa using hne
  exact ⟨hne, h.waits i hm hne⟩

theorem gang_refused (hs : GangHolds s v) (c : Cause) : ∃ u, (s.cleared n v).faultAll (s.partners v ++ [s.team.uid]) c = u ∧
    ∀ j ∈ v.members, ∃ g w, s.findTeam j = some g ∧ u.findTeam j = some w ∧ HeldFrom c g w := by
  have hh : Holding (s.cleared n v) := ⟨h.focus, hs.apart, hs.block, hs.trap, hs.handlers⟩
  have hself : (s.cleared n v).findTeam s.team.uid = some (s.paid n).team := findTeam_self (s := s.cleared n v) h.focus
  have hother {j : Nat} (hj : j ≠ s.team.uid) : (s.cleared n v).findTeam j = s.findTeam j := findTeam_paid h hj
  have hf : Faultable (s.cleared n v) (s.partners v ++ [s.team.uid]) := by
    refine ⟨?_, fun u hu => ?_⟩
    · refine List.Nodup.append (h.nodup.filter _) (List.nodup_singleton _) fun x hx hx' => ?_
      exact (h.waits_partner hx).1 (List.mem_singleton.mp hx')
    · rcases List.mem_append.mp hu with hu | hu
      · obtain ⟨hne, h0, t, w, ht, hw⟩ := h.waits_partner hu
        exact ⟨h0, t, (hother hne).trans ht, hs.bid u hu t ht, by rw [hw]; nofun⟩
      · rw [List.mem_singleton.mp hu]
        exact ⟨h.focus, _, hself, rfl, by rw [show (s.paid n).team.phase = .ready from hs.phase]; nofun⟩
  have ha := faultAll_holdsAll hh hf c
  refine ⟨_, rfl, fun j hj => ?_⟩
  by_cases he : j = s.team.uid
  · obtain ⟨w, hw, hheld⟩ := ha.held j (by simp [he]) (s.paid n).team (he ▸ hself)
    exact ⟨s.team, w, he ▸ findTeam_self h.focus, hw, hheld.phase, hheld.cause, hheld.pc, hheld.mat⟩
  · obtain ⟨-, t, w', ht, -⟩ := h.waits j hj he
    obtain ⟨w, hw, hheld⟩ := ha.held j (by simp [hj, he]) t ((hother he).trans ht)
    exact ⟨t, w, ht, hw, hheld⟩

end

/-! ### A word that begins the steps -/

/-- The state in which the members that waited go on. -/
def State.partnersBegun (s : State) (n : Nat) (v : Convocation) : State :=
  (s.partners v).foldl (fun t u => t.modTeam u Team.stepBegun) (s.cleared n v)

/-- The member in focus has issued one more word of its convocation. -/
def State.wordCounted (u : State) : State :=
  u.withMat { u.team.mat with member := u.team.mat.member.map (fun m => { m with step := m.step + 1 }) }

/-- The state in which the last word has begun the steps of all members. -/
def State.gangBegun (s : State) (n : Nat) (v : Convocation) (xs : List (Nat × StepInFlight)) (k : Nat) : State :=
  ((s.partnersBegun n v).countSteps xs k).retire.wordCounted

theorem retire_pc_congr {s t : State} (hi : t.iss = s.iss) (hp : t.team.pc = s.team.pc) : t.retire.team.pc = s.retire.team.pc := by
  have hn : t.iss.next = s.iss.next := by rw [hi]
  unfold State.retire
  dsimp only [State.issueDone]
  rw [hn]
  split
  · exact hp
  · simp only [Team.leaveOffset, State.nextPc, hi, hp]

/-- Convocations are no part of memory. -/
theorem sameBytes_of_convs {s t : State} {cs : List Convocation} (hm : t.mem = s.mem) (hd : t.memSide = s.memSide)
    (hh : t.hub = s.hub) (hb : t.blk = { s.blk with convs := cs }) (hbs : t.blocks = s.blocks) : sameBytes s t := by
  have h1 : sameBytes s { s with blk := { s.blk with convs := cs } } :=
    FaultFrame.sameBytes ⟨rfl, rfl, rfl, rfl, rfl, rfl, rfl, rfl, rfl, rfl, rfl⟩
  have h2 : sameBytes { s with blk := { s.blk with convs := cs } } t := sameBytes_of_stores hm hd hh hb hbs
  exact fun p => ⟨(h2 p).1.trans (h1 p).1, (h2 p).2.trans (h1 p).2⟩

/-- The steps put to an owner. -/
abbrev stepsOf (xs : List (Nat × StepInFlight)) (o : Nat) : List StepInFlight := (xs.filter (fun x => x.1 == o)).map Prod.snd

/-- A team with its share of begun steps. -/
def Team.withSteps (t : Team) (xs : List (Nat × StepInFlight)) : Team :=
  { t with mat := { t.mat with steps := t.mat.steps ++ stepsOf xs t.uid } }

theorem findTeam_addSteps (s : State) (xs : List (Nat × StepInFlight)) (o : Nat) :
    (s.addSteps xs).findTeam o = (s.findTeam o).map (fun t => t.withSteps xs) :=
  findTeam_mapTeams (f := fun t => t.withSteps xs) fun _ => rfl

/-- A member's team once the step has begun: it keeps what it has, and its steps join those under way. -/
structure MemberBegun (xs : List (Nat × StepInFlight)) (o : Nat) (g h : Team) : Prop where
  regs : h.regs = g.regs
  tiles : h.mat.tiles = g.mat.tiles
  slots : h.mat.slots = g.mat.slots
  steps : h.mat.steps = g.mat.steps ++ stepsOf xs o

section
variable {s : State} {v : Convocation} {n k : Nat} {xs : List (Nat × StepInFlight)} (h : Gang s v)
include h

theorem not_mem_partners : (s.cleared n v).team.uid ∉ s.partners v := fun hm => (h.waits_partner hm).1 rfl

theorem partnersBegun_frame (n : Nat) : ∃ os, s.partnersBegun n v = { s.cleared n v with others := os } :=
  foldl_modTeam_frame (not_mem_partners h)

theorem gangBegun_kept : (s.gangBegun n v xs k).issued = s.issued + 1 ∧ sameBytes s (s.gangBegun n v xs k) ∧
    (s.gangBegun n v xs k).team.pc = s.retire.team.pc := by
  obtain ⟨os, ho⟩ := partnersBegun_frame h n
  rw [State.gangBegun, ho]
  refine ⟨?_, sameBytes_of_convs (cs := (s.cleared n v).blk.convs) ?_ ?_ ?_ ?_ ?_, ?_⟩
  · exact State.retire_issued _
  · exact State.retire_mem _
  · exact State.retire_memSide _
  · exact State.retire_hub _
  · exact State.retire_blk _
  · exact State.retire_blocks _
  · exact retire_pc_congr rfl rfl

/-- The team in focus of the new state. -/
theorem gangBegun_team : (s.gangBegun n v xs k).team.uid = s.team.uid ∧ MemberBegun xs s.team.uid s.team (s.gangBegun n v xs k).team := by
  obtain ⟨os, ho⟩ := partnersBegun_frame h n
  rw [State.gangBegun, ho]
  have hmat := retire_mat (({ s.cleared n v with others := os } : State).countSteps xs k)
  refine ⟨State.retire_team_uid _, State.retire_team_regs _, (congrArg Matrix.tiles hmat :), (congrArg Matrix.slots hmat :),
    (congrArg Matrix.steps hmat :)⟩

/-- The member that issued last. -/
theorem gangBegun_self : ∃ t, (s.gangBegun n v xs k).findTeam s.team.uid = some t ∧ MemberBegun xs s.team.uid s.team t := by
  obtain ⟨hid, hb⟩ := gangBegun_team h (n := n) (xs := xs) (k := k)
  have hself := findTeam_self (hid ▸ h.focus : (s.gangBegun n v xs k).team.uid ≠ 0)
  rw [hid] at hself
  exact ⟨_, hself, hb⟩

/-- The other teams of the new state are those to whom the steps were put. -/
theorem findTeam_gangBegun {o : Nat} (hne : o ≠ s.team.uid) :
    (s.gangBegun n v xs k).findTeam o = ((s.partnersBegun n v).addSteps xs).findTeam o := by
  obtain ⟨hid, -⟩ := gangBegun_team h (n := n) (xs := xs) (k := k)
  obtain ⟨os, ho⟩ := partnersBegun_frame h n
  have hid' : ((s.partnersBegun n v).addSteps xs).team.uid = s.team.uid := by rw [ho]; rfl
  have hothers : (s.gangBegun n v xs k).others = ((s.partnersBegun n v).addSteps xs).others := State.retire_others _
  rw [findTeam_eq (hid ▸ h.focus), findTeam_eq (hid' ▸ h.focus), hid, hid', hothers, if_neg (Ne.symm hne), if_neg (Ne.symm hne)]

/-- A member that waited. -/
theorem gangBegun_other {o : Nat} (ho : o ∈ v.members) (hne : o ≠ s.team.uid) :
    ∃ g t, s.findTeam o = some g ∧ (s.gangBegun n v xs k).findTeam o = some t ∧ MemberBegun xs o g t ∧ t.phase = .ready
      ∧ t.pc = g.pc + 4 := by
  obtain ⟨-, g, w, hg, hw⟩ := h.waits o ho hne
  obtain ⟨hphase, hpc, hregs, htiles, hslots, hsteps⟩ := stepBegun_waiting hw
  have hgo := findTeam_uid hg
  have hmem : g.uid ∈ s.partners v := by simp [hgo, ho, hne]
  have hfound : (s.partnersBegun n v).findTeam o = some g.stepBegun := by
    rw [State.partnersBegun, findTeam_foldl_modTeam stepBegun_uid (h.nodup.filter _),
      show (s.cleared n v).findTeam o = some g from (findTeam_paid h hne).trans hg, Option.map_some, if_pos hmem]
  have hmine : stepsOf xs g.stepBegun.uid = stepsOf xs o := by rw [stepBegun_uid, hgo]
  refine ⟨g, g.stepBegun.withSteps xs, hg, ?_, ⟨hregs, htiles, hslots, ?_⟩, hphase, hpc⟩
  · rw [findTeam_gangBegun h hne, findTeam_addSteps, hfound, Option.map_some]
  · exact congrArg₂ (· ++ ·) hsteps hmine

end

end Sys2Proof.Machine
end

section
/-!
PROOF. What the last word of a convocation's step begins for each member (R311): a step each in N-gang mode, one step of member 0 over
all chunks in K-gang mode.
-/
namespace Sys2Proof.Machine

/-! ### Steps by owner -/

theorem stepsOf_flatMap (js : List Nat) (f : Nat → List (Nat × StepInFlight)) (o : Nat) :
    stepsOf (js.flatMap f) o = js.flatMap (fun j => stepsOf (f j) o) := by
  rw [stepsOf, List.filter_flatMap, List.map_flatMap]

theorem stepsOf_map {ms : List Nat} (hn : ms.Nodup) (f : Nat → StepInFlight) {o : Nat} (ho : o ∈ ms) :
    stepsOf (ms.map (fun q => (q, f q))) o = [f o] := by
  have hone : ms.filter (fun q => q == o) = [o] := by
    rw [List.filter_beq, List.count_eq_one_of_mem hn ho, List.replicate_one]
  rw [stepsOf, List.filter_map]
  change ((ms.filter (fun q => q == o)).map _).map _ = _
  rw [hone]
  rfl

/-! ### The two modes -/

section
variable {mode m0 : Nat} {ms : List Nat} {T : Nat → Team} {a b d : Nat} {z : Bool} {js : List Nat} {P Q : Nat → Nat → Slot}
  (hT : ∀ o ∈ m0 :: ms, (T o).uid = o) (hQ : ∀ o ∈ m0 :: ms, ∀ j ∈ js, (T o).slotOf (b + j) = some (Q o j))
include hT hQ

/-- N-gang: each member's step pairs operand A of member 0 with its own B. -/
theorem beginSteps_nGang {kc : Nat} (hm : mode ≠ 1) (hP : ∀ j ∈ js, (T m0).slotOf (a + j) = some (P m0 j))
    (hd : ∀ o ∈ m0 :: ms, (T o).bound false d = true) (hkP : ∀ j ∈ js, (P m0 j).kind = .zero ∨ (P m0 j).kc = kc)
    (hkQ : ∀ o ∈ m0 :: ms, ∀ j ∈ js, (Q o j).kind = .zero ∨ (Q o j).kc = kc)
    (hap : ∀ o ∈ m0 :: ms, ∀ j ∈ js, Apart (P m0 j) (Q o j)) :
    beginSteps mode ((m0 :: ms).map T) (stepReqs a b d z js) = some (js.flatMap (fun j => (m0 :: ms).map (fun o =>
      (o, { acc := d, fromZero := z, reads := [(m0, a + j), (o, b + j)], chunks := [(P m0 j, Q o j)] })))) := by
  have hT0 := hT m0 List.mem_cons_self
  have hpairs : ∀ j ∈ js, stepPairs mode ((m0 :: ms).map T) (stepReq a b d z j) =
      some (((m0 :: ms).map T).map (fun t => (t, [(P m0 j, Q t.uid j)]))) := by
    intro j hj
    refine stepPairs_nGang (Q := fun t => Q t.uid j) hm (hP j hj) fun t ht => ?_
    obtain ⟨o, ho, rfl⟩ := List.mem_map.mp (show t ∈ (m0 :: ms).map T from ht)
    exact ⟨by rw [hT o ho]; exact hQ o ho j hj, hd o ho⟩
  rw [beginSteps_some hpairs, begun]
  · congr 1
    refine List.flatMap_congr fun j _ => ?_
    rw [List.map_map, List.map_map]
    refine List.map_congr_left fun o ho => ?_
    simp only [Function.comp, hT o ho, stepReads, if_neg hm, List.map_cons, List.head?_cons, Option.getD_some, hT0]
  · intro j hj
    have hmem : ∀ p ∈ (((m0 :: ms).map T).map (fun t => (t, [(P m0 j, Q t.uid j)]))).flatMap Prod.snd,
        ∃ o ∈ m0 :: ms, p = (P m0 j, Q o j) := by
      intro p hp
      obtain ⟨x, hx, hp⟩ := List.mem_flatMap.mp hp
      obtain ⟨t, ht, rfl⟩ := List.mem_map.mp hx
      obtain ⟨o, ho, rfl⟩ := List.mem_map.mp ht
      exact ⟨o, ho, by rw [List.mem_singleton.mp hp, hT o ho]⟩
    refine pairsOk_of (kc := kc) (fun p hp => ?_) fun p hp => ?_
    · obtain ⟨o, ho, rfl⟩ := hmem p hp
      exact ⟨hkP j hj, hkQ o ho j hj⟩
    · obtain ⟨o, ho, rfl⟩ := hmem p hp
      exact hap o ho j hj

/-- K-gang: member 0's step takes a chunk of each member. -/
theorem beginSteps_kGang {kc : Nat} (hP : ∀ o ∈ m0 :: ms, ∀ j ∈ js, (T o).slotOf (a + j) = some (P o j))
    (hd : (T m0).bound false d = true) (hkP : ∀ o ∈ m0 :: ms, ∀ j ∈ js, (P o j).kind = .zero ∨ (P o j).kc = kc)
    (hkQ : ∀ o ∈ m0 :: ms, ∀ j ∈ js, (Q o j).kind = .zero ∨ (Q o j).kc = kc)
    (hap : ∀ o ∈ m0 :: ms, ∀ j ∈ js, Apart (P o j) (Q o j)) :
    beginSteps 1 ((m0 :: ms).map T) (stepReqs a b d z js) = some (js.flatMap (fun j =>
      [(m0, { acc := d, fromZero := z, reads := (m0 :: ms).flatMap (fun q => [(q, a + j), (q, b + j)])
              chunks := (m0 :: ms).map (fun q => (P q j, Q q j)) })])) := by
  have hpairs : ∀ j ∈ js, stepPairs 1 ((m0 :: ms).map T) (stepReq a b d z j) =
      some [(T m0, ((m0 :: ms).map T).map (fun t => (P t.uid j, Q t.uid j)))] := by
    intro j hj
    refine stepPairs_kGang (P := fun t => P t.uid j) (Q := fun t => Q t.uid j) (fun t ht => ?_) hd
    obtain ⟨o, ho, rfl⟩ := List.mem_map.mp (show t ∈ (m0 :: ms).map T from ht)
    rw [hT o ho]
    exact ⟨hP o ho j hj, hQ o ho j hj⟩
  have hchunks (j : Nat) : ((m0 :: ms).map T).map (fun t => (P t.uid j, Q t.uid j)) = (m0 :: ms).map (fun q => (P q j, Q q j)) := by
    rw [List.map_map]
    exact List.map_congr_left fun o ho => by rw [Function.comp, hT o ho]
  rw [beginSteps_some hpairs, begun]
  · congr 1
    refine List.flatMap_congr fun j _ => ?_
    have hreads : ((m0 :: ms).map T).flatMap (fun t => [(t.uid, a + j), (t.uid, b + j)]) =
        (m0 :: ms).flatMap (fun q => [(q, a + j), (q, b + j)]) := by
      rw [List.flatMap_map]
      exact List.flatMap_congr fun o ho => by rw [hT o ho]
    rw [List.map_singleton, hchunks, hT m0 List.mem_cons_self, stepReads, if_pos rfl, hreads]
  · intro j hj
    rw [hchunks, List.flatMap_singleton]
    refine pairsOk_of (kc := kc) (fun p hp => ?_) fun p hp => ?_
    · obtain ⟨o, ho, rfl⟩ := List.mem_map.mp hp
      exact ⟨hkP o ho j hj, hkQ o ho j hj⟩
    · obtain ⟨o, ho, rfl⟩ := List.mem_map.mp hp
      exact hap o ho j hj

end

/-! ### The last word -/

section
variable {s : State} {v : Convocation} {n skipped : Nat} {rs : List StepReq} (h : Gang s v)
include h

omit h in
theorem gangSteps_mismatch (hw : ∃ y ∈ v.issues, y.word ≠ s.iss.word) : (s.paid n).gangSteps v rs skipped =
    .ok ((s.cleared n v).faultAll (s.partners v ++ [s.team.uid]) .convMismatch) := by
  have hw : ∃ y ∈ v.issues, y.word ≠ (s.paid n).iss.word := hw
  unfold State.gangSteps
  exact if_pos (by simpa using hw)

variable (hw : ∀ y ∈ v.issues, y.word = s.iss.word)
include hw

theorem gangSteps_unbound (hb : beginSteps v.mode (v.members.map (s.paid n).teamOf) rs = none) :
    (s.paid n).gangSteps v rs skipped = .ok ((s.cleared n v).faultAll (s.partners v ++ [s.team.uid]) .slotState) := by
  have hw : ∀ y ∈ v.issues, y.word = (s.paid n).iss.word := hw
  unfold State.gangSteps
  refine (if_neg (by simpa using hw)).trans ?_
  rw [(Gang.paid h).filterMap_findTeam, hb]
  rfl

theorem gangSteps_begins {xs : List (Nat × StepInFlight)} (hb : beginSteps v.mode (v.members.map (s.paid n).teamOf) rs = some xs) :
    ∃ k, (s.paid n).gangSteps v rs skipped = .ok (s.gangBegun n v xs k) := by
  have hw : ∀ y ∈ v.issues, y.word = (s.paid n).iss.word := hw
  refine ⟨skipped * if v.mode = 1 then 1 else (v.members.map (s.paid n).teamOf).length, ?_⟩
  unfold State.gangSteps
  refine (if_neg (by simpa using hw)).trans ?_
  rw [(Gang.paid h).filterMap_findTeam, hb]
  rfl

end

/-! ### The word of a member -/

/-- What the last word of a step leaves: every member keeps what it has, with the steps due to it, and those that waited go on. -/
structure StepsBegun (s : State) (v : Convocation) (due : Nat → List StepInFlight) (u : State) : Prop where
  issued : u.issued = s.issued + 1
  bytes : sameBytes s u
  pc : u.team.pc = s.retire.team.pc
  member : ∀ o ∈ v.members, ∃ g h, s.findTeam o = some g ∧ u.findTeam o = some h ∧ h.regs = g.regs ∧ h.mat.tiles = g.mat.tiles
    ∧ h.mat.slots = g.mat.slots ∧ h.mat.steps = g.mat.steps ++ due o ∧ (o ≠ s.team.uid → h.phase = .ready ∧ h.pc = g.pc + 4)

theorem StepsBegun.congr {s u : State} {v : Convocation} {due due' : Nat → List StepInFlight} (h : StepsBegun s v due u)
    (hd : ∀ o ∈ v.members, due o = due' o) : StepsBegun s v due' u :=
  ⟨h.issued, h.bytes, h.pc, fun o ho => hd o ho ▸ h.member o ho⟩

theorem stepsBegun_gangBegun {s : State} {v : Convocation} (h : Gang s v) (n : Nat) (xs : List (Nat × StepInFlight)) (k : Nat) :
    StepsBegun s v (stepsOf xs) (s.gangBegun n v xs k) := by
  obtain ⟨hi, hb, hpc⟩ := gangBegun_kept h (n := n) (xs := xs) (k := k)
  refine ⟨hi, hb, hpc, fun o ho => ?_⟩
  by_cases he : o = s.team.uid
  · obtain ⟨t, ht, hm⟩ := gangBegun_self h (n := n) (xs := xs) (k := k)
    exact ⟨s.team, t, he ▸ findTeam_self h.focus, he ▸ ht, hm.regs, hm.tiles, hm.slots, he ▸ hm.steps, fun hne => absurd he hne⟩
  · obtain ⟨g, t, hg, ht, hm, hphase, hp⟩ := gangBegun_other h (n := n) (xs := xs) (k := k) ho he
    exact ⟨g, t, hg, ht, hm.regs, hm.tiles, hm.slots, hm.steps, fun _ => ⟨hphase, hp⟩⟩

/-- Every member is held at its word. -/
def AllHeld (s : State) (v : Convocation) (c : Cause) (u : State) : Prop :=
  ∀ j ∈ v.members, ∃ g w, s.findTeam j = some g ∧ u.findTeam j = some w ∧ HeldFrom c g w

section
variable {s : State} {cv : Option Nat} {me : Member} {v : Convocation} {a b d : Nat} {z : Bool} {js : List Nat} {skipped : Nat}
  (hz : s.iss.hazard = none) (hc : cv.all (fun c => c = s.ownCv) = true) (hw : s.team.lanes.active = firstLanes s.team.size)
  (hl : s.Leave js.length) (hm : s.team.mat.member = some me) (hv : s.blk.findConv me.cv = some v)
  (hd : v.dissolved = false) (hb : v.broken = false)
include hz hc hw hl hm hv hd hb

theorem memberWord : s.matrixWord cv (stepReqs a b d z js) skipped =
    if v.issues.length + 1 = v.n then (s.paid js.length).gangSteps v (stepReqs a b d z js) skipped
    else .ok (({ s.paid js.length with blk := s.blk.modConv me.cv (fun x =>
      { x with issues := x.issues ++ [⟨s.team.uid, s.iss.word⟩] }) } : State).beginWait false (.step s.iss.word)) := by
  have h := matrixWord_member (rs := stepReqs a b d z js) (skipped := skipped) hz hc hw (by rwa [length_stepReqs]) hm hv hd hb
  rwa [length_stepReqs] at h

theorem memberWord_waits (hn : v.issues.length + 1 ≠ v.n) : ∃ u, s.matrixWord cv (stepReqs a b d z js) skipped = .ok u ∧
    tookEffect s u ∧ u.team.phase = .waiting (.step s.iss.word) ∧ u.team.pc = s.team.pc ∧ u.team.mat = s.team.mat ∧ sameBytes s u
      ∧ u.blk.findConv me.cv = some { v with issues := v.issues ++ [⟨s.team.uid, s.iss.word⟩] } := by
  refine ⟨_, (memberWord hz hc hw hl hm hv hd hb).trans (if_neg hn), rfl, rfl, rfl, rfl,
    sameBytes_of_convs rfl rfl rfl rfl rfl, ?_⟩
  exact findConv_modConv (f := fun x => { x with issues := x.issues ++ [⟨s.team.uid, s.iss.word⟩] }) (fun _ => rfl) hv

variable (hn : v.issues.length + 1 = v.n)
include hn

theorem memberWord_last : s.matrixWord cv (stepReqs a b d z js) skipped =
    (s.paid js.length).gangSteps v (stepReqs a b d z js) skipped :=
  (memberWord hz hc hw hl hm hv hd hb).trans (if_pos hn)

variable (hg : Gang s v)
include hg

theorem memberWord_mismatch (hs : GangHolds s v) (hx : ∃ y ∈ v.issues, y.word ≠ s.iss.word) :
    ∃ u, s.matrixWord cv (stepReqs a b d z js) skipped = .ok u ∧ AllHeld s v .convMismatch u := by
  obtain ⟨u, hu, hall⟩ := gang_refused (n := js.length) hg hs .convMismatch
  exact ⟨u, by rw [memberWord_last hz hc hw hl hm hv hd hb hn, gangSteps_mismatch hx, hu], hall⟩

variable (hx : ∀ y ∈ v.issues, y.word = s.iss.word)
include hx

theorem memberWord_unbound (hs : GangHolds s v) (hno : ∃ o ∈ v.members, ∃ j ∈ js, (s.teamOf o).slotOf (b + j) = none) :
    ∃ u, s.matrixWord cv (stepReqs a b d z js) skipped = .ok u ∧ AllHeld s v .slotState u := by
  obtain ⟨u, hu, hall⟩ := gang_refused (n := js.length) hg hs .slotState
  refine ⟨u, ?_, hall⟩
  rw [memberWord_last hz hc hw hl hm hv hd hb hn, gangSteps_unbound hg hx, hu]
  obtain ⟨o, ho, j, hj, hnone⟩ := hno
  refine beginSteps_none ⟨j, hj, ?_⟩
  have hmem : (s.paid js.length).teamOf o ∈ v.members.map (s.paid js.length).teamOf := List.mem_map_of_mem ho
  cases hms : v.members.map (s.paid js.length).teamOf with
  | nil => exact absurd (hms ▸ hmem) List.not_mem_nil
  | cons t0 ts =>
    refine stepPairs_unboundB ⟨_, hms ▸ hmem, ?_⟩
    rw [Team.slotOf, teamOf_paid hg]
    exact hnone

theorem memberWord_begins {xs : List (Nat × StepInFlight)}
    (hbegin : beginSteps v.mode (v.members.map (s.paid js.length).teamOf) (stepReqs a b d z js) = some xs) :
    ∃ u, s.matrixWord cv (stepReqs a b d z js) skipped = .ok u ∧ StepsBegun s v (stepsOf xs) u := by
  obtain ⟨k, hk⟩ := gangSteps_begins (n := js.length) (skipped := skipped) hg hx hbegin
  exact ⟨_, (memberWord_last hz hc hw hl hm hv hd hb hn).trans hk, stepsBegun_gangBegun hg _ xs k⟩

section
variable {P Q : Nat → Nat → Slot} {kc m0 : Nat} (h0 : v.members.head? = some m0)
  (hQ : ∀ o ∈ v.members, ∀ j ∈ js, (s.teamOf o).slotOf (b + j) = some (Q o j))
  (hkP : ∀ o ∈ v.members, ∀ j ∈ js, (P o j).kind = .zero ∨ (P o j).kc = kc)
  (hkQ : ∀ o ∈ v.members, ∀ j ∈ js, (Q o j).kind = .zero ∨ (Q o j).kc = kc)
include h0 hQ hkP hkQ

theorem memberWord_nGang (hmode : v.mode ≠ 1) (hP : ∀ j ∈ js, (s.teamOf m0).slotOf (a + j) = some (P m0 j))
    (hbd : ∀ o ∈ v.members, (s.teamOf o).bound false d = true) (hap : ∀ o ∈ v.members, ∀ j ∈ js, Apart (P m0 j) (Q o j)) :
    ∃ u, s.matrixWord cv (stepReqs a b d z js) skipped = .ok u ∧ StepsBegun s v (fun o => js.flatMap (fun j =>
      [{ acc := d, fromZero := z, reads := [(m0, a + j), (o, b + j)], chunks := [(P m0 j, Q o j)] }])) u := by
  obtain ⟨ms, hms⟩ := List.head?_eq_some_iff.mp h0
  have hslot (o n : Nat) : ((s.paid js.length).teamOf o).slotOf n = (s.teamOf o).slotOf n := by
    rw [Team.slotOf, teamOf_paid hg, Team.slotOf]
  have hbound (o : Nat) : ((s.paid js.length).teamOf o).bound false d = (s.teamOf o).bound false d := by
    rw [Team.bound, teamOf_paid hg, Team.bound]
  have hm0 : m0 ∈ v.members := hms ▸ List.mem_cons_self
  have hbegin := beginSteps_nGang (mode := v.mode) (m0 := m0) (ms := ms) (T := (s.paid js.length).teamOf) (a := a) (b := b) (d := d)
    (z := z) (js := js) (P := P) (Q := Q) (kc := kc) (fun o ho => (Gang.paid hg).uid (hms ▸ ho))
    (fun o ho j hj => (hslot o _).trans (hQ o (hms ▸ ho) j hj)) hmode (fun j hj => (hslot m0 _).trans (hP j hj))
    (fun o ho => (hbound o).trans (hbd o (hms ▸ ho))) (fun j hj => hkP m0 hm0 j hj) (fun o ho => hkQ o (hms ▸ ho))
    (fun o ho => hap o (hms ▸ ho))
  rw [← hms] at hbegin
  obtain ⟨u, hu, hs⟩ := memberWord_begins (skipped := skipped) hz hc hw hl hm hv hd hb hn hg hx hbegin
  refine ⟨u, hu, hs.congr fun o ho => ?_⟩
  rw [stepsOf_flatMap]
  exact List.flatMap_congr fun j _ => stepsOf_map hg.nodup _ ho

theorem memberWord_kGang (hmode : v.mode = 1) (hP : ∀ o ∈ v.members, ∀ j ∈ js, (s.teamOf o).slotOf (a + j) = some (P o j))
    (hbd : (s.teamOf m0).bound false d = true) (hap : ∀ o ∈ v.members, ∀ j ∈ js, Apart (P o j) (Q o j)) :
    ∃ u, s.matrixWord cv (stepReqs a b d z js) skipped = .ok u ∧ StepsBegun s v (fun o => js.flatMap (fun j => if o = m0 then
      [{ acc := d, fromZero := z, reads := v.members.flatMap (fun q => [(q, a + j), (q, b + j)])
         chunks := v.members.map (fun q => (P q j, Q q j)) }] else [])) u := by
  obtain ⟨ms, hms⟩ := List.head?_eq_some_iff.mp h0
  have hslot (o n : Nat) : ((s.paid js.length).teamOf o).slotOf n = (s.teamOf o).slotOf n := by
    rw [Team.slotOf, teamOf_paid hg, Team.slotOf]
  have hbound (o : Nat) : ((s.paid js.length).teamOf o).bound false d = (s.teamOf o).bound false d := by
    rw [Team.bound, teamOf_paid hg, Team.bound]
  have hbegin := beginSteps_kGang (m0 := m0) (ms := ms) (T := (s.paid js.length).teamOf) (a := a) (b := b) (d := d) (z := z)
    (js := js) (P := P) (Q := Q) (kc := kc) (fun o ho => (Gang.paid hg).uid (hms ▸ ho))
    (fun o ho j hj => (hslot o _).trans (hQ o (hms ▸ ho) j hj)) (fun o ho j hj => (hslot o _).trans (hP o (hms ▸ ho) j hj))
    ((hbound m0).trans hbd) (fun o ho => hkP o (hms ▸ ho)) (fun o ho => hkQ o (hms ▸ ho)) (fun o ho => hap o (hms ▸ ho))
  rw [← hms, ← hmode] at hbegin
  obtain ⟨u, hu, hs⟩ := memberWord_begins (skipped := skipped) hz hc hw hl hm hv hd hb hn hg hx hbegin
  refine ⟨u, hu, hs.congr fun o ho => ?_⟩
  rw [stepsOf_flatMap]
  refine List.flatMap_congr fun j _ => ?_
  by_cases he : m0 = o
  · simp [stepsOf, he]
  · simp [stepsOf, he, Ne.symm he]

end

end

end Sys2Proof.Machine
end

section
/-!
PROOF. A matrix step that ends (R312, R49): its tile holds the fused sums, and the flags of all of them are raised.
-/
namespace Sys2Proof.Machine

/-! ### Names -/

theorem find?_put {α : Type} (xs : List (Nat × α)) (n m : Nat) (x : α) :
    ((xs.map (fun y => if y.1 = n then (n, x) else y)).find? (fun y => y.1 == m)).map Prod.snd =
      if m = n then ((xs.find? (fun y => y.1 == n)).map Prod.snd).map (fun _ => x)
      else (xs.find? (fun y => y.1 == m)).map Prod.snd := by
  have hsame : ((fun y : Nat × α => y.1 == m) ∘ fun y => if y.1 = n then (n, x) else y) = fun y => y.1 == m := by
    funext y
    dsimp only [Function.comp]
    split
    · next h => rw [h]
    · rfl
  rw [List.find?_map, hsame]
  by_cases hm : m = n
  · subst hm
    rw [if_pos rfl]
    cases hf : xs.find? (fun y => y.1 == m) with
    | none => rfl
    | some y =>
      have hy : y.1 = m := by simpa using List.find?_some hf
      simp [hy]
  · rw [if_neg hm]
    cases hf : xs.find? (fun y => y.1 == m) with
    | none => rfl
    | some y =>
      have hy : y.1 = m := by simpa using List.find?_some hf
      simp [hy, hm]

section
variable {t : Team} {n m : Nat}

theorem tileOf_putTile (mat : Matrix) (z : Tile) : (({ t with mat := mat.putTile n z } : Team).tileOf m) =
    if m = n then (({ t with mat := mat } : Team).tileOf n).map (fun _ => z) else ({ t with mat := mat } : Team).tileOf m :=
  find?_put mat.tiles n m z

theorem slotOf_putSlot (mat : Matrix) (z : Slot) : (({ t with mat := mat.putSlot n z } : Team).slotOf m) =
    if m = n then (({ t with mat := mat } : Team).slotOf n).map (fun _ => z) else ({ t with mat := mat } : Team).slotOf m :=
  find?_put mat.slots n m z

end

/-! ### Flags -/

theorem getLsbD_foldl_or (fs : List Byte) (g : Byte) (m : Nat) :
    (fs.foldl (fun a b => a ||| b) g).getLsbD m = true ↔ g.getLsbD m = true ∨ ∃ f ∈ fs, f.getLsbD m = true := by
  induction fs generalizing g with
  | nil => simp
  | cons f fs ih =>
    rw [List.foldl_cons, ih, BitVec.getLsbD_or, Bool.or_eq_true, List.exists_mem_cons_iff, or_assoc]

theorem getLsbD_flagsOr (fs : List Byte) (m : Nat) : (flagsOr fs).getLsbD m = true ↔ ∃ f ∈ fs, f.getLsbD m = true := by
  rw [flagsOr, getLsbD_foldl_or]
  simp

/-! ### The sums of a step -/

theorem getD_map_range {α : Type} (f : Nat → α) {n i : Nat} (d : α) (hi : i < n) : ((List.range n).map f).getD i d = f i := by
  rw [List.getD_eq_getElem _ _ (by simpa using hi)]
  simp

section
variable (x : StepInFlight) (asat : Bool) (acc : Tile)

/-- The terms of element (i, j): the values of the blocks of line i of A and line j of B, chunk by chunk (R48). -/
def StepInFlight.terms (kc i j : Nat) : List BlockValue :=
  x.chunks.flatMap (fun p => (List.range (2 * 2 ^ kc)).map (fun h => blockValue (p.1.values i h) (p.2.values j h)))

/-- The fused sum of element (i, j), onto what the tile held. -/
def StepInFlight.sum (kc i j : Nat) : Nat × Byte :=
  fusedSum asat (x.terms kc i j) (if x.fromZero then 0 else (smGet 0 acc (32 * i + j)).toNat)

/-- The K code of a step: that of its operands that are not Zero slots. -/
def StepInFlight.kc : Nat :=
  (((x.chunks.flatMap (fun p => [p.1, p.2])).filter (fun y => y.kind ≠ .zero)).map Slot.kc).headD 0

/-- The step's result in the order of the tile's elements. -/
theorem run_eq : x.run asat acc = (smTable 0 1024 (fun n => BitVec.ofNat 32 (((List.range 1024).map
    (fun n => x.sum asat acc x.kc (n / 32) (n % 32))).getD n (0, 0)).1), flagsOr (((List.range 1024).map
    (fun n => x.sum asat acc x.kc (n / 32) (n % 32))).map Prod.snd)) := by
  unfold StepInFlight.run
  extract_lets kc nb vals ch out
  have hnb : nb = 2 * 2 ^ x.kc := by
    change 32 * 2 ^ x.kc / 16 = _
    omega
  have hline (y : Slot) (i : Nat) (hi : i < 32) : (vals y).getD i [] = (List.range nb).map (fun b => y.values i b) :=
    getD_map_range _ _ hi
  have hout : out = (List.range 1024).map (fun n => x.sum asat acc x.kc (n / 32) (n % 32)) := by
    refine List.map_congr_left fun n hn => ?_
    rw [List.mem_range] at hn
    have hterms : ch.flatMap (fun p => ((p.1.getD (n / 32) []).zip (p.2.getD (n % 32) [])).map (fun v => blockValue v.1 v.2)) =
        x.terms x.kc (n / 32) (n % 32) := by
      rw [StepInFlight.terms, ← hnb, List.flatMap_map]
      refine List.flatMap_congr fun p _ => ?_
      rw [hline p.1 _ (by omega), hline p.2 _ (Nat.mod_lt _ (by decide)), List.zip_map', List.map_map]
      rfl
    rw [hterms, StepInFlight.sum, Nat.div_add_mod]
  rw [hout]

variable {kc : Nat} (hk : ∀ p ∈ x.chunks, (p.1.kind = .zero ∨ p.1.kc = kc) ∧ (p.2.kind = .zero ∨ p.2.kc = kc))
  (hz : kc = 0 ∨ ∃ p ∈ x.chunks, p.1.kind ≠ .zero ∨ p.2.kind ≠ .zero)
include hk hz

theorem step_kc : x.kc = kc := by
  have hall : ∀ k ∈ ((x.chunks.flatMap (fun p => [p.1, p.2])).filter (fun y => y.kind ≠ .zero)).map Slot.kc, k = kc := by
    intro k hm
    obtain ⟨y, hy, rfl⟩ := List.mem_map.mp hm
    obtain ⟨hy, hne⟩ := List.mem_filter.mp hy
    obtain ⟨p, hp, hy⟩ := List.mem_flatMap.mp hy
    have hne : y.kind ≠ .zero := by simpa using hne
    obtain ⟨h1, h2⟩ := hk p hp
    rcases List.mem_cons.mp hy with rfl | hy
    · exact h1.resolve_left hne
    · rw [List.mem_singleton.mp hy] at hne ⊢
      exact h2.resolve_left hne
  rw [StepInFlight.kc]
  cases hks : ((x.chunks.flatMap (fun p => [p.1, p.2])).filter (fun y => y.kind ≠ .zero)).map Slot.kc with
  | cons k ks => exact hall k (hks ▸ List.mem_cons_self)
  | nil =>
    rcases hz with h0 | ⟨p, hp, hne⟩
    · exact h0.symm
    · simp only [List.map_eq_nil_iff, List.filter_eq_nil_iff, List.mem_flatMap, decide_eq_true_eq, not_not] at hks
      rcases hne with hne | hne
      · exact absurd (hks p.1 ⟨p, hp, by simp⟩) hne
      · exact absurd (hks p.2 ⟨p, hp, by simp⟩) hne

/-- An element of the result. -/
theorem smGet_run {i j : Nat} (hi : i < 32) (hj : j < 32) :
    smGet 0 (x.run asat acc).1 (32 * i + j) = BitVec.ofNat 32 (x.sum asat acc kc i j).1 := by
  rw [run_eq, step_kc x hk hz]
  dsimp only
  rw [smGet_smTable, if_pos (by omega), getD_map_range _ _ (by omega), show (32 * i + j) / 32 = i by omega,
    show (32 * i + j) % 32 = j by omega]

/-- The flags of the result. -/
theorem getLsbD_run_flags (m : Nat) : (x.run asat acc).2.getLsbD m = true ↔
    ∃ i j, i < 32 ∧ j < 32 ∧ (x.sum asat acc kc i j).2.getLsbD m = true := by
  rw [run_eq, step_kc x hk hz]
  dsimp only
  rw [getLsbD_flagsOr, List.map_map]
  constructor
  · rintro ⟨f, hf, hm⟩
    obtain ⟨n, hn, rfl⟩ := List.mem_map.mp hf
    rw [List.mem_range] at hn
    exact ⟨n / 32, n % 32, by omega, by omega, hm⟩
  · rintro ⟨i, j, hi, hj, hm⟩
    refine ⟨_, List.mem_map.mpr ⟨32 * i + j, List.mem_range.mpr (by omega), rfl⟩, ?_⟩
    rw [Function.comp, show (32 * i + j) / 32 = i by omega, show (32 * i + j) % 32 = j by omega]
    exact hm

end

/-! ### MATRIX_STEP_DONE -/

section
variable {s : State} {st : StepInFlight} {rest : List StepInFlight} {acc : Tile}

theorem exec_matrixStepDone (hs : s.team.mat.steps = st :: rest) (ha : s.team.tileOf st.acc = some acc) :
    exec .matrixStepDone s = .next ((s.withMat ({ s.team.mat with steps := rest }.putTile st.acc
      (st.run (s.team.sp.mode.getLsbD 12) acc).1)).raise (st.run (s.team.sp.mode.getLsbD 12) acc).2) := by
  change Host.Outcome.next (match s.team.mat.steps with | [] => s | x :: rest => _) = _
  rw [hs]
  dsimp only
  rw [show (s.team.mat.tiles.find? (fun t => t.1 == st.acc)).map Prod.snd = some acc from ha]
  rfl

end

end Sys2Proof.Machine
end

section
/-!
PROOF. TLD (R299..R302, R304): the transfer it begins, and the slot that is there when it completes.
-/
namespace Sys2Proof.Machine

/-! ### A transfer into a slot -/

section
variable {s : State} {t : Nat} {sl y : Slot}

/-- A word that begins a transfer has retired, and nothing has moved yet. -/
theorem startTransfer_retire (s : State) (x : TileTransfer) :
    tookEffect s (s.startTransfer x).retire ∧ (s.startTransfer x).retire.team.regs = s.team.regs ∧
    sameBytes s (s.startTransfer x).retire ∧
    (s.startTransfer x).retire.team.mat = { s.team.mat with transfers := s.team.mat.transfers ++ [x] } := by
  refine ⟨State.retire_issued _, State.retire_team_regs _, sameBytes_of_stores ?_ ?_ ?_ ?_ ?_, retire_mat _⟩
  · exact State.retire_mem _
  · exact State.retire_memSide _
  · exact State.retire_hub _
  · exact State.retire_blk _
  · exact State.retire_blocks _

theorem slotAt_ok (h : s.team.slotOf t = some sl) : s.slotAt t = .ok sl := by
  rw [State.slotAt, show s.slot t = some sl from h]

/-- The only transfer of a team fills its slot. -/
theorem exec_transferComplete_load (ht : s.team.mat.transfers = [.load t y]) :
    exec .tileTransferComplete s = .next (s.withMat ({ s.team.mat with transfers := [] }.putSlot t y)) := by
  change Host.Outcome.next (match s.team.mat.transfers with | [] => s | x :: rest => _) = _
  rw [ht]

/-- What a load of a slot does when it completes. -/
theorem load_completes (h : s.team.slotOf t = some sl) (h0 : s.team.mat.transfers = []) :
    ∃ v, exec .tileTransferComplete (s.startTransfer (.load t y)).retire = .next v ∧ v.team.mat.transfers = []
      ∧ v.team.slotOf t = some y ∧ v.team.regs = s.team.regs ∧ sameBytes s v := by
  obtain ⟨-, hregs, hbytes, hmat⟩ := startTransfer_retire s (.load t y)
  generalize (s.startTransfer (.load t y)).retire = u at *
  have hslot : u.team.slotOf t = some sl := by rw [Team.slotOf, hmat]; exact h
  refine ⟨_, exec_transferComplete_load (by rw [hmat, h0]; rfl), rfl, ?_, hregs, hbytes⟩
  refine (slotOf_putSlot (t := u.team) _ y).trans ?_
  rw [if_pos rfl]
  exact congrArg (Option.map fun _ => y) hslot

end

/-! ### TLD -/

/-- The slot that a TLD starts from: Dense, with the format given and its record (R307). -/
def State.tldSlot (s : State) (mode f kc : Nat) : Slot :=
  let x : Slot := { Slot.zero with
    kind := .dense, fmt := slotFmt (s.getS f), kc := kc
    word0 := BitVec.ofNat 64 (slotFmt (s.getS f) + mode * 2 ^ 32 + kc * 2 ^ 34) }
  { x with word3 := recordWord3 0 x.denseTime }

/-- The sectors of an image. -/
def imageSize (mode : Nat) : Nat := if mode = 2 then 64 else 32

section
variable {s : State} {mode t b f k : Nat} {make : Slot → List (Nat × Nat) → Except FaultInfo Slot} {at_ : Nat × Nat} {sl y : Slot}

/-- A TLD whose checks pass begins its transfer. -/
theorem tld_ok (hz : s.iss.hazard = none) (hs : s.team.slotOf t = some sl)
    (hp : s.imagePlace .load (s.getS b) (64 * imageSize mode) = .ok at_) (hf : slotFormatOk k (s.getS f) = true)
    (hd : (mode = 0 || dcwOk s.team.sp.dcw) = true)
    (hpo : ∀ j, j < imageSize mode → s.poisonAt (.spad at_.1 (at_.2 + 64 * j)) = false)
    (hy : make (s.tldSlot mode f k) (s.imageLines at_ (imageSize mode)) = .ok y) :
    s.tld mode t b f k make = .ok (s.startTransfer (.load t y)).retire := by
  refine (except_bind_ok (hazardCheck_ok hz)).trans ((except_bind_ok (slotAt_ok hs)).trans ((except_bind_ok hp).trans
    ((except_bind_ok (need_ok hf _)).trans ((except_bind_ok (need_ok hd _)).trans ((except_bind_ok (need_ok ?_ _)).trans
    ((except_bind_ok hy).trans rfl))))))
  rw [List.all_eq_true]
  intro j hj
  rw [hpo j (List.mem_range.mp hj)]
  rfl

end

theorem smGet_fill (x : Slot) (lines : List (Nat × Nat)) {i e : Nat} (hi : i < 32) (he : e < 128) (hk : e < kOf x.kc) :
    smGet 0 (x.fill lines).codes (128 * i + e) = field (lines.getD i (0, 0)).1 (x.store * e) x.width := by
  rw [Slot.fill]
  dsimp only
  rw [smGet_smTable, if_pos (by omega), show (128 * i + e) % 128 = e by omega, show (128 * i + e) / 128 = i by omega, if_pos hk]

theorem kOf_le {k : Nat} (h : k < 3) : kOf k ≤ 128 := by
  unfold kOf
  have : 2 ^ k ≤ 2 ^ 2 := Nat.pow_le_pow_right (by decide) (by omega)
  omega

end Sys2Proof.Machine
end

section
/-!
PROOF. Decomposition (R304): the residual elements are those with enough larger ones in their group, and only a tile that drops them
reads +0 there.
-/
namespace Sys2Proof.Machine

/-! ### Sorted lists -/

theorem insertBefore_eq {α : Type} (le : α → α → Bool) (a : α) (xs : List α) :
    insertBefore le a xs = xs.orderedInsert (fun x y => le x y = true) a := by
  induction xs with
  | nil => rfl
  | cons x xs ih => simp only [insertBefore, List.orderedInsert_cons, ih]

theorem sortBy_eq {α : Type} (le : α → α → Bool) (xs : List α) : sortBy le xs = xs.insertionSort (fun x y => le x y = true) := by
  induction xs with
  | nil => rfl
  | cons x xs ih => rw [List.insertionSort_cons, ← ih, ← insertBefore_eq, sortBy, List.foldr_cons, sortBy]

/-- What is left of a list in strict order after its first `q`: the elements with `q` others before them. -/
theorem mem_drop_of_pairwise {α : Type} {r : α → α → Bool} (hr : ∀ a b, r a b = true → r b a = false) {xs : List α}
    (h : xs.Pairwise (fun a b => r a b = true)) (q : Nat) (e : α) :
    e ∈ xs.drop q ↔ e ∈ xs ∧ q ≤ (xs.filter (fun b => r b e)).length := by
  have hirr (a : α) : r a a = false := by
    rw [Bool.eq_false_iff]
    exact fun ha => Bool.false_ne_true ((hr a a ha).symm.trans ha)
  induction xs generalizing q with
  | nil => simp
  | cons a xs ih =>
    obtain ⟨ha, hxs⟩ := List.pairwise_cons.mp h
    cases q with
    | zero => simp
    | succ q =>
      rw [List.drop_succ_cons]
      refine (ih hxs q).trans ?_
      by_cases he : e = a
      · subst he
        have hnot : e ∉ xs := fun hm => Bool.false_ne_true ((hirr e).symm.trans (ha e hm))
        have hnone : xs.filter (fun b => r b e) = [] :=
          List.filter_eq_nil_iff.mpr fun b hb => by rw [hr e b (ha b hb)]; exact Bool.false_ne_true
        simp [hnot, hirr, hnone]
      · rw [List.mem_cons, or_iff_right he]
        refine and_congr_right fun hm => ?_
        rw [List.filter_cons_of_pos (by exact ha e hm), List.length_cons]
        omega

/-! ### Groups by magnitude -/

/-- Element `b` comes before element `e`: it is larger, or as large and earlier (R304). -/
def before (key : Nat → Nat) (b e : Nat) : Bool := decide (key e < key b) || (key b == key e && decide (b < e))

theorem before_iff {key : Nat → Nat} {b e : Nat} : before key b e = true ↔ key e < key b ∨ (key b = key e ∧ b < e) := by
  simp [before]

theorem before_asymm {key : Nat → Nat} (a b : Nat) (h : before key a b = true) : before key b a = false := by
  rw [before_iff] at h
  rw [← Bool.not_eq_true, before_iff]
  omega

theorem rankGroup_perm (val : Nat → FloatVal) (ks : List Nat) : (rankGroup val ks).Perm (ks.filter (fun k => magKey (val k) ≠ 0)) := by
  rw [rankGroup, sortBy_eq]
  exact List.perm_insertionSort _ _

/-- The order that `rankGroup` sorts by. -/
theorem rankOrder_iff (val : Nat → FloatVal) (a b : Nat) :
    (magKey (val b) < magKey (val a) || (magKey (val a) == magKey (val b) && a ≤ b)) = true ↔
      magKey (val b) < magKey (val a) ∨ (magKey (val a) = magKey (val b) ∧ a ≤ b) := by
  simp

/-- The elements of a group of nonzero magnitude stand in order. -/
theorem rankGroup_pairwise (val : Nat → FloatVal) {ks : List Nat} (hn : ks.Nodup) :
    (rankGroup val ks).Pairwise (fun a b => before (fun k => magKey (val k)) a b = true) := by
  have hnodup : (rankGroup val ks).Nodup := (rankGroup_perm val ks).nodup_iff.mpr (hn.filter _)
  have htotal : Std.Total (fun a b : Nat => (magKey (val b) < magKey (val a) || (magKey (val a) == magKey (val b) && a ≤ b)) = true) :=
    ⟨fun a b => by
      rw [rankOrder_iff, rankOrder_iff]
      omega⟩
  have htrans : IsTrans Nat (fun a b : Nat => (magKey (val b) < magKey (val a) || (magKey (val a) == magKey (val b) && a ≤ b)) = true) :=
    ⟨fun a b c hab hbc => by
      rw [rankOrder_iff] at *
      omega⟩
  rw [rankGroup, sortBy_eq] at *
  refine ((List.pairwise_insertionSort _ _).and hnodup).imp fun {a b} h => ?_
  obtain ⟨hle, hne⟩ := h
  rw [rankOrder_iff] at hle
  rw [before_iff]
  omega

theorem mem_drop_rankGroup (val : Nat → FloatVal) {ks : List Nat} (hn : ks.Nodup) (q e : Nat) :
    e ∈ (rankGroup val ks).drop q ↔ e ∈ ks ∧ magKey (val e) ≠ 0 ∧
      q ≤ (ks.filter (fun b => before (fun k => magKey (val k)) b e)).length := by
  rw [mem_drop_of_pairwise before_asymm (rankGroup_pairwise val hn), (rankGroup_perm val ks).mem_iff,
    ((rankGroup_perm val ks).filter _).length_eq, List.mem_filter, and_assoc, decide_eq_true_eq]
  refine and_congr_right fun _ => and_congr_right fun he => ?_
  rw [List.filter_filter, List.filter_congr]
  intro b _
  rw [Bool.and_eq_left_iff_imp]
  intro hb
  rw [before_iff] at hb
  simp only [decide_eq_true_eq]
  omega

/-! ### The values of a line -/

theorem length_values (x : Slot) (i b : Nat) : (x.values i b).length = 16 := by
  unfold Slot.values
  dsimp only
  split
  · simp
  · split
    · simp
    · simp [BlockFmt.values]

theorem getD_flatMap_blocks {α : Type} {f : Nat → List α} (hf : ∀ b, (f b).length = 16) (d : α) {n k : Nat} (hk : k < 16 * n) :
    ((List.range n).flatMap f).getD k d = (f (k / 16)).getD (k % 16) d := by
  induction n with
  | zero => omega
  | succ n ih =>
    have hlen : ((List.range n).flatMap f).length = 16 * n := by
      rw [List.length_flatMap, List.map_congr_left fun b _ => hf b]
      simp [Nat.mul_comm]
    rw [List.range_succ, List.flatMap_append, List.flatMap_singleton]
    by_cases h : k < 16 * n
    · rw [List.getD_append _ _ _ _ (by omega), ih h]
    · rw [List.getD_append_right _ _ _ _ (by omega), hlen, show k / 16 = n by omega, show k - 16 * n = k % 16 by omega]

/-- Value of element `k` of line `i`. -/
def Slot.value (x : Slot) (i k : Nat) : FloatVal := (x.values i (k / 16)).getD (k % 16) (.fin false 0 0)

/-! ### What decomposing leaves -/

theorem recordWord1_dropped (m n : Nat) (fnan fbk dropped : Bool) (rcnt : Nat) {teff : Nat} (h : teff < 8) :
    (recordWord1 m n fnan fbk dropped rcnt teff).getLsbD 10 = dropped := by
  rw [recordWord1, BitVec.getLsbD_ofNat, Nat.testBit_eq_decide_div_mod_eq]
  cases dropped <;> cases fbk <;> cases fnan <;>
    simp only [Bool.false_eq_true, if_true, if_false, Nat.reduceLT, decide_true, Bool.true_and, decide_eq_true_eq,
      decide_eq_false_iff_not] <;> omega

theorem foldl_max_le {xs : List Nat} {b : Nat} (h : ∀ x ∈ xs, x ≤ b) : xs.foldl max 0 ≤ b := by
  obtain ⟨-, -, hatt⟩ := foldl_max_spec id xs 0
  rcases hatt with h0 | ⟨x, hx, hv⟩
  · exact (le_of_eq h0).trans (Nat.zero_le b)
  · exact (le_of_eq hv).trans (h x hx)

/-- The residual elements of a tile: those beyond the first `q` of their group. -/
def residual (val : Nat → Nat → FloatVal) (kc m q : Nat) : List (Nat × Nat) :=
  ((List.range 32).flatMap (fun r => (List.range (kOf kc / m)).map (fun g =>
    (r, rankGroup (val r) ((List.range m).map (fun i => m * g + i)))))).flatMap
    (fun g => (sortBy (fun a b => a ≤ b) (g.2.drop q)).map (fun k => (g.1, k)))

/-- Elements of its group that come before an element. -/
def rankOf (val : Nat → FloatVal) (m e : Nat) : Nat :=
  ((List.range m).filter (fun j => before (fun k => magKey (val k)) (e / m * m + j) e)).length

theorem mem_residual {val : Nat → Nat → FloatVal} {kc m q i e : Nat} (hm : 0 < m) (hi : i < 32) (he : e < m * (kOf kc / m)) :
    (i, e) ∈ residual val kc m q ↔ magKey (val i e) ≠ 0 ∧ q ≤ rankOf (val i) m e := by
  have hgroup (g : Nat) : ((List.range m).map (fun i => m * g + i)).Nodup :=
    List.nodup_range.map fun a b hab => Nat.add_left_cancel hab
  have hsort (xs : List Nat) : (sortBy (fun a b => a ≤ b) xs).Perm xs := by
    rw [sortBy_eq]
    exact List.perm_insertionSort _ _
  have hin (g : Nat) : e ∈ (List.range m).map (fun i => m * g + i) ↔ g = e / m := by
    rw [List.mem_map]
    constructor
    · rintro ⟨j, hj, rfl⟩
      rw [List.mem_range] at hj
      rw [Nat.mul_add_div hm, Nat.div_eq_of_lt hj, Nat.add_zero]
    · rintro rfl
      exact ⟨e % m, List.mem_range.mpr (Nat.mod_lt _ hm), Nat.div_add_mod e m⟩
  have hcount : (((List.range m).map (fun i => m * (e / m) + i)).filter (fun b => before (fun k => magKey (val i k)) b e)).length =
      rankOf (val i) m e := by
    rw [List.filter_map, List.length_map, rankOf, Nat.mul_comm m]
    rfl
  simp only [residual, List.mem_flatMap, List.mem_map, Prod.mk.injEq, (hsort _).mem_iff]
  constructor
  · rintro ⟨_, ⟨r, -, g, -, rfl⟩, k, hk, rfl, rfl⟩
    obtain ⟨hg, hne, hq⟩ := (mem_drop_rankGroup (val r) (hgroup g) q k).mp hk
    obtain rfl := (hin g).mp hg
    exact ⟨hne, hcount ▸ hq⟩
  · rintro ⟨hne, hq⟩
    refine ⟨_, ⟨i, List.mem_range.mpr hi, e / m, List.mem_range.mpr (Nat.div_lt_of_lt_mul he), rfl⟩, e, ?_, rfl, rfl⟩
    exact (mem_drop_rankGroup (val i) (hgroup _) q e).mpr ⟨(hin _).mpr rfl, hne, hcount ▸ hq⟩

theorem residual_lt {val : Nat → Nat → FloatVal} {kc m q : Nat} {x : Nat × Nat} (h : x ∈ residual val kc m q) : x.2 < kOf kc := by
  obtain ⟨_, hg, hx⟩ := List.mem_flatMap.mp h
  obtain ⟨r, -, hg⟩ := List.mem_flatMap.mp hg
  obtain ⟨g, hlt, rfl⟩ := List.mem_map.mp hg
  obtain ⟨k, hk, rfl⟩ := List.mem_map.mp hx
  rw [sortBy_eq, (List.perm_insertionSort _ _).mem_iff] at hk
  have hk := List.mem_of_mem_drop hk
  rw [(rankGroup_perm _ _).mem_iff] at hk
  obtain ⟨j, hj, rfl⟩ := List.mem_map.mp (List.mem_filter.mp hk).1
  rw [List.mem_range] at hlt hj
  calc m * g + j < m * (g + 1) := by rw [Nat.mul_succ]; omega
    _ ≤ m * (kOf kc / m) := Nat.mul_le_mul_left m hlt
    _ ≤ kOf kc := Nat.mul_div_le _ _

/-- Number of a group's terms that a decomposition keeps (R303, R304). -/
def dcwKeep (d : Word64) : Nat := field d.toNat 4 3 * dcwN d

/-- The value that decomposition looks at. -/
def Slot.rowValue (x : Slot) (r k : Nat) : FloatVal :=
  (((List.range 32).map (fun r => (List.range (kOf x.kc / 16)).flatMap (fun b => x.values r b))).getD r []).getD k (.fin false 0 0)

/-- What decomposing makes of a dense slot: only a tile that drops its residual changes its codes. -/
structure Decomposed (x : Slot) (d : Word64) (y : Slot) : Prop where
  kind : y.kind = .dense ∨ y.kind = .decomposed
  kc : y.kc = x.kc
  fmt : y.fmt = x.fmt
  word0 : y.word0 = x.word0
  codes : y.codes = if y.word1.getLsbD 10 = true then
    smSetAll 0 x.codes ((residual x.rowValue x.kc (dcwM d) (dcwKeep d)).map (fun e => (128 * e.1 + e.2, 0))) else x.codes

theorem decomposed_decompose (x : Slot) (d : Word64) : Decomposed x d (x.decompose d) := by
  unfold Slot.decompose
  extract_lets n m tmax rows val groups tg teff res mass mtot mres dropped tc cost idle
  have hteff : teff < 8 := by
    have htmax : tmax < 8 := Nat.mod_lt _ (by decide)
    refine Nat.lt_of_le_of_lt (foldl_max_le (b := tmax) fun y hy => ?_) htmax
    obtain ⟨g, -, rfl⟩ := List.mem_map.mp hy
    exact Nat.min_le_right _ _
  split
  · refine ⟨.inl rfl, rfl, rfl, rfl, ?_⟩
    rw [if_neg]
    rw [recordWord1_dropped _ _ _ _ _ _ (by decide)]
    decide
  · split
    · refine ⟨.inl rfl, rfl, rfl, rfl, ?_⟩
      rw [if_neg]
      rw [recordWord1_dropped _ _ _ _ _ _ (by decide)]
      decide
    · refine ⟨.inr rfl, rfl, rfl, rfl, ?_⟩
      dsimp only
      rw [recordWord1_dropped _ _ _ _ _ _ hteff]
      rfl

theorem rowValue_eq (x : Slot) {i k : Nat} (hi : i < 32) (hk : k < kOf x.kc) : x.rowValue i k = x.value i k := by
  have hk' : k < 16 * (kOf x.kc / 16) := by
    unfold kOf at *
    omega
  rw [Slot.rowValue, getD_map_range _ _ hi, getD_flatMap_blocks (length_values x i) _ hk', Slot.value]

/-- The groups of a line cover it: M divides K (R303). -/
theorem kOf_groups {d : Word64} (h : dcwOk d = true) (kc : Nat) : dcwM d * (kOf kc / dcwM d) = kOf kc := by
  have hf : field d.toNat 2 2 < 3 := by
    unfold dcwOk at h
    simp only [Bool.and_eq_true, decide_eq_true_eq] at h
    exact h.1.2
  have hm : dcwM d ∣ 16 := by
    unfold dcwM
    interval_cases field d.toNat 2 2 <;> decide
  exact Nat.mul_div_cancel' (hm.trans (Dvd.dvd.mul_right (by decide) _))

theorem dcwM_pos (d : Word64) : 0 < dcwM d := Nat.mul_pos (by decide) (Nat.two_pow_pos _)

theorem rankOf_rowValue {x : Slot} {m i e : Nat} (hg : m * (kOf x.kc / m) = kOf x.kc) (hi : i < 32)
    (he : e < kOf x.kc) : rankOf (x.rowValue i) m e = rankOf (x.value i) m e := by
  have hlt {j : Nat} (hj : j < m) : e / m * m + j < kOf x.kc := by
    have he' : e / m < kOf x.kc / m := Nat.div_lt_of_lt_mul (by rwa [hg])
    calc e / m * m + j < m * (e / m + 1) := by rw [Nat.mul_succ, Nat.mul_comm]; omega
      _ ≤ m * (kOf x.kc / m) := Nat.mul_le_mul_left m he'
      _ = kOf x.kc := hg
  rw [rankOf, rankOf, List.filter_congr]
  intro j hj
  rw [List.mem_range] at hj
  simp only [before, rowValue_eq x hi he, rowValue_eq x hi (hlt hj)]

/-- The codes of a decomposed tile. -/
theorem Decomposed.code {x y : Slot} {d : Word64} (h : Decomposed x d y) (hd : dcwOk d = true) (hw : smWf 0 x.codes = true)
    (hk : x.kc < 3) {i e : Nat} (hi : i < 32) (he : e < kOf x.kc) : smGet 0 y.codes (128 * i + e) =
      if y.word1.getLsbD 10 = true ∧ magKey (x.value i e) ≠ 0 ∧ dcwKeep d ≤ rankOf (x.value i) (dcwM d) e then 0
      else smGet 0 x.codes (128 * i + e) := by
  have hcover := kOf_groups hd x.kc
  have hres : (i, e) ∈ residual x.rowValue x.kc (dcwM d) (dcwKeep d) ↔
      magKey (x.value i e) ≠ 0 ∧ dcwKeep d ≤ rankOf (x.value i) (dcwM d) e := by
    rw [mem_residual (dcwM_pos d) hi (by rwa [hcover]), rankOf_rowValue hcover hi he, rowValue_eq x hi he]
  have hkey : ∀ w ∈ (residual x.rowValue x.kc (dcwM d) (dcwKeep d)).map (fun e => (128 * e.1 + e.2, 0)),
      w.1 = 128 * i + e → (i, e) ∈ residual x.rowValue x.kc (dcwM d) (dcwKeep d) := by
    rintro _ hw hq
    obtain ⟨⟨r, k⟩, hx, rfl⟩ := List.mem_map.mp hw
    have hlt : k < 128 := (residual_lt hx).trans_le (kOf_le hk)
    have hle := kOf_le hk
    dsimp only at hq
    obtain rfl : r = i := by omega
    obtain rfl : k = e := by omega
    exact hx
  rw [h.codes]
  by_cases hb : y.word1.getLsbD 10 = true
  · rw [if_pos hb]
    by_cases hin : (i, e) ∈ residual x.rowValue x.kc (dcwM d) (dcwKeep d)
    · rw [if_pos ⟨hb, hres.mp hin⟩]
      exact smGet_smSetAll_of_forall hw ⟨_, List.mem_map_of_mem hin, rfl⟩ fun w hw _ => by
        obtain ⟨x, -, rfl⟩ := List.mem_map.mp hw
        rfl
    · rw [if_neg fun hc => hin (hres.mpr hc.2)]
      exact smGet_smSetAll_of_not_mem hw fun w hm he => hin (hkey w hm he)
  · rw [if_neg hb, if_neg fun hc => hb hc.1]

end Sys2Proof.Machine
end

section
/-!
PROOF. What each kind of TLD leaves in its slot (R300..R304).
-/
namespace Sys2Proof.Machine

/-! ### A TLD from its beginning to its completion -/

/-- What every TLD does: it begins a load of its slot, which is there when the transfer completes. -/
structure Loads (s : State) (t : Nat) (y : Slot) (u v : State) : Prop where
  effect : tookEffect s u
  slots : u.team.mat.slots = s.team.mat.slots
  regs : u.team.regs = s.team.regs
  bytes : sameBytes s u
  length : u.team.mat.transfers.length = s.team.mat.transfers.length + 1
  completes : s.team.mat.transfers = [] → exec .tileTransferComplete u = .next v ∧ v.team.mat.transfers = [] ∧
    v.team.slotOf t = some y ∧ v.team.regs = s.team.regs ∧ sameBytes s v

theorem loads_of_startTransfer {s : State} {t : Nat} {sl : Slot} (h : s.team.slotOf t = some sl) (y : Slot) :
    ∃ v, Loads s t y (s.startTransfer (.load t y)).retire v := by
  obtain ⟨hi, hr, hb, hm⟩ := startTransfer_retire s (.load t y)
  have hslots : (s.startTransfer (.load t y)).retire.team.mat.slots = s.team.mat.slots := by rw [hm]
  have hlength : (s.startTransfer (.load t y)).retire.team.mat.transfers.length = s.team.mat.transfers.length + 1 := by
    rw [hm]
    exact List.length_append
  by_cases h0 : s.team.mat.transfers = []
  · obtain ⟨v, hv⟩ := load_completes (y := y) h h0
    exact ⟨v, hi, hslots, hr, hb, hlength, fun _ => hv⟩
  · exact ⟨s, hi, hslots, hr, hb, hlength, fun hn => absurd hn h0⟩

/-! ### The slots that they make -/

/-- The slot of a dense TLD. -/
def State.tldDenseSlot (s : State) (mode f k : Nat) (at_ : Nat × Nat) : Slot := (s.tldSlot mode f k).fill (s.imageLines at_ 32)

/-- Lines of a pre-compressed image, as the dense sectors that they stand for. -/
def State.tldPcsLines (s : State) (f k : Nat) (at_ : Nat × Nat) : List (Nat × Nat) :=
  let lines := s.imageLines at_ 64
  (List.range 32).map (fun j =>
    let l := lines.getD j (0, 0)
    (expandLine (s.tldSlot 2 f k).store (dcwN s.team.sp.dcw) (dcwM s.team.sp.dcw)
      (kOf k * dcwN s.team.sp.dcw / dcwM s.team.sp.dcw) l.1 (lines.getD (32 + j) (0, 0)).1, l.2))

/-- The slot of a pre-compressed TLD. -/
def State.tldPcsSlot (s : State) (f k : Nat) (at_ : Nat × Nat) : Slot :=
  { (s.tldSlot 2 f k).fill (s.tldPcsLines f k at_) with
    kind := .structured, word1 := recordWord1 (dcwM s.team.sp.dcw) (dcwN s.team.sp.dcw) false false false 0 1
    word3 := recordWord3 0 ((s.tldSlot 2 f k).termCost (dcwN s.team.sp.dcw) (dcwM s.team.sp.dcw)) }

section
variable {s : State} {t b f k : Nat} {at_ : Nat × Nat} {sl : Slot}

theorem imageLines_getD (s : State) (at_ : Nat × Nat) {n j : Nat} (h : j < n) : (s.imageLines at_ n).getD j (0, 0) =
    (s.readAt (.spad at_.1 (at_.2 + 64 * j)) 64, (s.sideAt (.spad at_.1 (at_.2 + 64 * j))).toNat) :=
  getD_map_range _ _ h

theorem fill_kind (x : Slot) (lines : List (Nat × Nat)) : (x.fill lines).kind = x.kind := by simp only [Slot.fill]

theorem fill_kc (x : Slot) (lines : List (Nat × Nat)) : (x.fill lines).kc = x.kc := by simp only [Slot.fill]

theorem fill_fmt (x : Slot) (lines : List (Nat × Nat)) : (x.fill lines).fmt = x.fmt := by simp only [Slot.fill]

theorem fill_record (x : Slot) (lines : List (Nat × Nat)) : (x.fill lines).word0 = x.word0 := by simp only [Slot.fill]

theorem smWf_fill (x : Slot) (lines : List (Nat × Nat)) : smWf 0 (x.fill lines).codes = true := by
  simp only [Slot.fill]
  exact smWf_smTable 0 _ _

theorem fill_store (x : Slot) (lines : List (Nat × Nat)) : (x.fill lines).store = x.store := by
  rw [Slot.store, Slot.store, fill_kc, fill_fmt]

theorem fill_width (x : Slot) (lines : List (Nat × Nat)) : (x.fill lines).width = x.width := by
  rw [Slot.width, Slot.width, fill_kc, fill_fmt]

theorem code_tldDenseSlot (mode : Nat) {i e : Nat} (hi : i < 32) (he : e < kOf k) (hk : k < 3) :
    smGet 0 (s.tldDenseSlot mode f k at_).codes (128 * i + e) = s.readAt (.spad at_.1 (at_.2 + 64 * i)) 64 /
      2 ^ ((s.tldDenseSlot mode f k at_).store * e) % 2 ^ (s.tldDenseSlot mode f k at_).width := by
  rw [State.tldDenseSlot, smGet_fill _ _ hi (he.trans_le (kOf_le hk)) he, imageLines_getD s at_ hi, fill_store, fill_width]

theorem kc_tldPcsSlot : (s.tldPcsSlot f k at_).kc = k := fill_kc (s.tldSlot 2 f k) (s.tldPcsLines f k at_)

theorem fmt_tldPcsSlot : (s.tldPcsSlot f k at_).fmt = slotFmt (s.getS f) := fill_fmt (s.tldSlot 2 f k) (s.tldPcsLines f k at_)

theorem record_tldPcsSlot : (s.tldPcsSlot f k at_).word0 = (s.tldSlot 2 f k).word0 :=
  fill_record (s.tldSlot 2 f k) (s.tldPcsLines f k at_)

theorem store_tldPcsSlot : (s.tldPcsSlot f k at_).store = (s.tldSlot 2 f k).store := by
  rw [Slot.store, kc_tldPcsSlot, fmt_tldPcsSlot]
  rfl

theorem width_tldPcsSlot : (s.tldPcsSlot f k at_).width = (s.tldSlot 2 f k).width := by
  rw [Slot.width, kc_tldPcsSlot, fmt_tldPcsSlot]
  rfl

theorem code_tldPcsSlot {i e : Nat} (hi : i < 32) (he : e < kOf k) (hk : k < 3) :
    smGet 0 (s.tldPcsSlot f k at_).codes (128 * i + e) =
      expandLine (s.tldPcsSlot f k at_).store (dcwN s.team.sp.dcw) (dcwM s.team.sp.dcw)
        (kOf k * dcwN s.team.sp.dcw / dcwM s.team.sp.dcw) (s.readAt (.spad at_.1 (at_.2 + 64 * i)) 64)
        (s.readAt (.spad at_.1 (at_.2 + 64 * (32 + i))) 64) / 2 ^ ((s.tldPcsSlot f k at_).store * e) %
        2 ^ (s.tldPcsSlot f k at_).width := by
  rw [store_tldPcsSlot, width_tldPcsSlot, State.tldPcsSlot, smGet_fill _ _ hi (he.trans_le (kOf_le hk)) he, State.tldPcsLines,
    getD_map_range _ _ hi, imageLines_getD s at_ (by omega), imageLines_getD s at_ (by omega)]

variable (hz : s.iss.hazard = none) (hs : s.team.slotOf t = some sl) (hf : slotFormatOk k (s.getS f) = true)
include hz hs hf

theorem exec_tldDense (hp : s.imagePlace .load (s.getS b) 2048 = .ok at_)
    (hpo : ∀ j, j < 32 → s.poisonAt (.spad at_.1 (at_.2 + 64 * j)) = false) :
    exec (.tldDense t b f k) s = .next (s.startTransfer (.load t (s.tldDenseSlot 0 f k at_))).retire :=
  congrArg (answer s) (tld_ok (mode := 0) hz hs hp hf rfl hpo rfl)

theorem exec_tldDec (hp : s.imagePlace .load (s.getS b) 2048 = .ok at_) (hd : dcwOk s.team.sp.dcw = true)
    (hpo : ∀ j, j < 32 → s.poisonAt (.spad at_.1 (at_.2 + 64 * j)) = false) :
    exec (.tldDec t b f k) s =
      .next (s.startTransfer (.load t ((s.tldDenseSlot 1 f k at_).decompose s.team.sp.dcw))).retire :=
  congrArg (answer s) (tld_ok (mode := 1) hz hs hp hf hd hpo rfl)

theorem exec_tldPcs (hp : s.imagePlace .load (s.getS b) 4096 = .ok at_) (hd : dcwOk s.team.sp.dcw = true)
    (hpo : ∀ j, j < 64 → s.poisonAt (.spad at_.1 (at_.2 + 64 * j)) = false)
    (hpos : ∀ j, j < 32 → positionsOk (dcwN s.team.sp.dcw) (dcwM s.team.sp.dcw)
      (kOf k * dcwN s.team.sp.dcw / dcwM s.team.sp.dcw) (s.readAt (.spad at_.1 (at_.2 + 64 * (32 + j))) 64) = true) :
    exec (.tldPcs t b f k) s = .next (s.startTransfer (.load t (s.tldPcsSlot f k at_))).retire := by
  refine congrArg (answer s) (tld_ok (mode := 2) hz hs hp hf hd hpo (if_pos ?_))
  rw [List.all_eq_true]
  intro j hj
  have hj := List.mem_range.mp hj
  exact (congrArg (fun l : Nat × Nat => positionsOk _ _ _ l.1) (imageLines_getD s at_ (n := 64) (by omega))).trans (hpos j hj)

end

/-! ### The codes of a decomposed slot -/

section
variable {s : State} {f k : Nat} {at_ : Nat × Nat}

/-- The values of a slot do not depend on the mode in its record. -/
theorem fill_word0 (x : Slot) (w : Word64) (lines : List (Nat × Nat)) :
    Slot.fill { x with word0 := w } lines = { x.fill lines with word0 := w } := by
  simp only [Slot.fill]
  rfl

theorem tldSlot_eq (s : State) (mode f k : Nat) :
    s.tldSlot mode f k = { s.tldSlot 0 f k with word0 := (s.tldSlot mode f k).word0 } := by
  simp only [State.tldSlot, Slot.denseTime, Slot.store]

/-- The dense slot of a decomposing TLD differs from that of a dense TLD in its record only. -/
theorem tldDenseSlot_eq (s : State) (mode f k : Nat) (at_ : Nat × Nat) :
    s.tldDenseSlot mode f k at_ = { s.tldDenseSlot 0 f k at_ with word0 := (s.tldSlot mode f k).word0 } := by
  rw [State.tldDenseSlot, State.tldDenseSlot, ← fill_word0, ← tldSlot_eq]

/-- Only the record of a slot tells two slots with the same elements apart. -/
theorem value_word0 (x : Slot) (w : Word64) : Slot.value { x with word0 := w } = x.value := rfl

theorem code_tldDec (hd : dcwOk s.team.sp.dcw = true) (hk : k < 3) {i e : Nat} (hi : i < 32) (he : e < kOf k) :
    smGet 0 ((s.tldDenseSlot 1 f k at_).decompose s.team.sp.dcw).codes (128 * i + e) =
      if ((s.tldDenseSlot 1 f k at_).decompose s.team.sp.dcw).word1.getLsbD 10 = true ∧
        magKey ((s.tldDenseSlot 0 f k at_).value i e) ≠ 0 ∧
        dcwKeep s.team.sp.dcw ≤ rankOf ((s.tldDenseSlot 0 f k at_).value i) (dcwM s.team.sp.dcw) e
      then 0 else smGet 0 (s.tldDenseSlot 0 f k at_).codes (128 * i + e) := by
  have hkc : (s.tldDenseSlot 0 f k at_).kc = k := fill_kc _ _
  have hwf : smWf 0 (s.tldDenseSlot 0 f k at_).codes = true := smWf_fill _ _
  rw [tldDenseSlot_eq s 1]
  generalize s.tldDenseSlot 0 f k at_ = x at *
  generalize (s.tldSlot 1 f k).word0 = w
  subst hkc
  have hcode := (decomposed_decompose { x with word0 := w } s.team.sp.dcw).code hd hwf hk hi he
  rw [value_word0] at hcode
  exact hcode

end

end Sys2Proof.Machine
end

section
/-!
PROOF. TST (R308): the image that it leaves in a scratchpad.
-/
namespace Sys2Proof.Machine

/-! ### A sector written to a scratchpad -/

section
variable {s : State} {bid : Nat}

/-- A change of a block that keeps its bytes changes no byte. -/
theorem byteAt_modBlock {f : Block → Block} (hf : ∀ b, (f b).bid = b.bid) (hb : ∀ b, (f b).spad = b.spad) (q : Place) :
    (s.modBlock bid f).byteAt q = s.byteAt q := by
  cases q with
  | dev pa => rfl
  | spad c o =>
    rw [State.byteAt, findBlock_modBlock hf, State.byteAt]
    cases s.findBlock c with
    | none => rfl
    | some b =>
      rw [Option.map_some]
      dsimp only
      split
      · rw [hb]
      · rfl

theorem isSome_findBlock_modBlock {f : Block → Block} (hf : ∀ b, (f b).bid = b.bid) (c : Nat) :
    ((s.modBlock bid f).findBlock c).isSome = (s.findBlock c).isSome := by
  rw [findBlock_modBlock hf, Option.isSome_map]

/-- The block of a scratchpad after a side-band of it has been written. -/
def Block.sided (b : Block) (off : Nat) (sb : SideBand) : Block := { b with spadSide := smSet 0 b.spadSide (off / 64) sb }

/-- The block of a scratchpad after a sector's poison mark has been taken away. -/
def Block.cleared (b : Block) (off : Nat) : Block := { b with spadPoison := setDel b.spadPoison (off / 64) }

theorem spadSide_stored (b : Block) (off n x : Nat) : (b.stored off n x).spadSide = b.spadSide := rfl

theorem spadSide_sided (b : Block) (off : Nat) (sb : SideBand) :
    (b.sided off sb).spadSide = smSet 0 b.spadSide (off / 64) sb := rfl

theorem spadSide_cleared (b : Block) (off : Nat) : (b.cleared off).spadSide = b.spadSide := rfl

theorem findBlock_writeSide {b : Block} (h : s.findBlock bid = some b) (off : Nat) (sb : SideBand) :
    (s.writeSide (.spad bid off) sb).findBlock bid = some (b.sided off sb) := by
  refine (findBlock_modBlock (f := fun b => b.sided off sb) (fun _ => rfl) bid).trans ?_
  rw [h, Option.map_some, if_pos (findBlock_bid h)]

theorem findBlock_clearPoison {b : Block} (h : s.findBlock bid = some b) (off : Nat) :
    (s.clearPoison (.spad bid off)).findBlock bid = some (b.cleared off) := by
  refine (findBlock_modBlock (f := fun b => b.cleared off) (fun _ => rfl) bid).trans ?_
  rw [h, Option.map_some, if_pos (findBlock_bid h)]

theorem findBlock_writeSector {b : Block} (h : s.findBlock bid = some b) (off : Nat) (x : BitVec 512) (sb : SideBand) :
    (s.writeSector (.spad bid off) x sb).findBlock bid = some (((b.stored off 64 x.toNat).sided off sb).cleared off) :=
  findBlock_clearPoison (findBlock_writeSide (findBlock_writeAt h off 64 x.toNat) off sb) off

/-- The bytes after a sector has been written with its side-band are those after a write of its data. -/
theorem byteAt_writeSector_spad (off : Nat) (x : BitVec 512) (sb : SideBand) (q : Place) :
    (s.writeSector (.spad bid off) x sb).byteAt q = (s.writeAt (.spad bid off) 64 x.toNat).byteAt q :=
  (byteAt_modBlock (f := fun b => b.cleared off) (fun _ => rfl) (fun _ => rfl) q).trans
    (byteAt_modBlock (f := fun b => b.sided off sb) (fun _ => rfl) (fun _ => rfl) q)

theorem readAt_writeSector_spad (hs : storesWf s = true) (h : (s.findBlock bid).isSome = true) (off : Nat) (x : BitVec 512)
    (sb : SideBand) : (s.writeSector (.spad bid off) x sb).readAt (.spad bid off) 64 = x.toNat := by
  have hlt : x.toNat < 256 ^ 64 := (BitVec.toNat_lt_twoPow_of_le (n := 8 * 64) (by decide)).trans_eq (Nat.pow_mul 2 8 64)
  calc (s.writeSector (.spad bid off) x sb).readAt (.spad bid off) 64
      = (s.writeAt (.spad bid off) 64 x.toNat).readAt (.spad bid off) 64 := by
        simp only [State.readAt, State.bytesAt, byteAt_writeSector_spad]
    _ = x.toNat := by rw [readAt_writeAt_spad hs h, Nat.mod_eq_of_lt hlt]

/-- A side-band of an existing block's scratchpad. -/
theorem sideAt_spad {b : Block} (h : s.findBlock bid = some b) (off : Nat) :
    s.sideAt (.spad bid off) = smGet 0 b.spadSide (off / 64) := by
  rw [State.sideAt, h]

theorem sideAt_writeSector_spad (hs : storesWf s = true) (h : (s.findBlock bid).isSome = true) (off off' : Nat) (x : BitVec 512)
    (sb : SideBand) : (s.writeSector (.spad bid off) x sb).sideAt (.spad bid off') =
      if off' / 64 = off / 64 then sb else s.sideAt (.spad bid off') := by
  obtain ⟨b, hb⟩ := Option.isSome_iff_exists.mp h
  have hwf := (Bool.and_eq_true_iff.mp (findBlock_blockWf hs hb)).2
  calc (s.writeSector (.spad bid off) x sb).sideAt (.spad bid off')
      = smGet 0 (smSet 0 b.spadSide (off / 64) sb) (off' / 64) := by
        rw [sideAt_spad (findBlock_writeSector hb off x sb) off', spadSide_cleared, spadSide_sided, spadSide_stored]
    _ = if off' / 64 = off / 64 then sb else smGet 0 b.spadSide (off' / 64) := smGet_smSet hwf _ _ _
    _ = _ := by rw [sideAt_spad hb]

theorem isSome_findBlock_writeSector (h : (s.findBlock bid).isSome = true) (off : Nat) (x : BitVec 512) (sb : SideBand) :
    ((s.writeSector (.spad bid off) x sb).findBlock bid).isSome = true := by
  obtain ⟨b, hb⟩ := Option.isSome_iff_exists.mp h
  rw [findBlock_writeSector hb]
  rfl

end

/-! ### An image of sectors -/

/-- The sectors `f 0 … f (n-1)` stand one after the other from `a` on, and `v` has every other byte of `s`. -/
structure ImageWritten (s : State) (bid a : Nat) (f : Nat → BitVec 512 × SideBand) (n : Nat) (v : State) : Prop where
  stores : storesWf v = true
  found : (v.findBlock bid).isSome = true
  data : ∀ j, j < n → v.readAt (.spad bid (a + 64 * j)) 64 = (f j).1.toNat
  side : ∀ j, j < n → v.sideAt (.spad bid (a + 64 * j)) = (f j).2
  rest : ∀ p, (∀ j, j < 64 * n → p ≠ .spad bid (a + j)) → v.byteAt p = s.byteAt p

theorem ImageWritten.succ {s v : State} {bid a n : Nat} {f : Nat → BitVec 512 × SideBand} (h : ImageWritten s bid a f n v)
    (ha : a % 64 = 0) : ImageWritten s bid a f (n + 1) (v.writeSector (.spad bid (a + 64 * n)) (f n).1 (f n).2) := by
  have hbyte (q : Place) (hq : ∀ i, i < 64 → q ≠ .spad bid (a + 64 * n + i)) :
      (v.writeSector (.spad bid (a + 64 * n)) (f n).1 (f n).2).byteAt q = v.byteAt q := by
    rw [byteAt_writeSector_spad, byteAt_writeAt_spad_ne h.stores _ _ _ hq]
  refine ⟨storesWf_writeSector h.stores _ _ _, isSome_findBlock_writeSector h.found _ _ _, fun j hj => ?_, fun j hj => ?_,
    fun p hp => ?_⟩
  · rcases Nat.lt_succ_iff_lt_or_eq.mp hj with hj | rfl
    · rw [← h.data j hj]
      unfold State.readAt State.bytesAt
      congr 1
      refine List.map_congr_left fun i hi => hbyte _ fun k hk he => ?_
      rw [List.mem_range] at hi
      injection he with _ he
      omega
    · exact readAt_writeSector_spad h.stores h.found _ _ _
  · rw [sideAt_writeSector_spad h.stores h.found]
    rcases Nat.lt_succ_iff_lt_or_eq.mp hj with hj | rfl
    · rw [if_neg (by omega), h.side j hj]
    · rw [if_pos rfl]
  · rw [hbyte p fun i hi => by rw [Nat.add_assoc]; exact hp _ (by omega)]
    exact h.rest p fun j hj => hp j (by omega)

/-- Flags and a state with the same bytes before are all one to an image. -/
theorem ImageWritten.raise {s u v : State} {bid a n : Nat} {f : Nat → BitVec 512 × SideBand} (h : ImageWritten u bid a f n v)
    (hb : ∀ p, u.byteAt p = s.byteAt p) (fl : Byte) : ImageWritten s bid a f n (v.raise fl) :=
  ⟨Canon.raise h.stores, h.found, h.data, h.side, fun p hp => (h.rest p hp).trans (hb p)⟩

theorem imageWritten {s : State} {bid a : Nat} (hs : storesWf s = true) (h : (s.findBlock bid).isSome = true) (ha : a % 64 = 0)
    (f : Nat → BitVec 512 × SideBand) (n : Nat) : ImageWritten s bid a f n
      ((List.range n).foldl (fun t j => t.writeSector (.spad bid (a + 64 * j)) (f j).1 (f j).2) s) := by
  induction n with
  | zero => exact ⟨hs, h, fun j hj => absurd hj (Nat.not_lt_zero j), fun j hj => absurd hj (Nat.not_lt_zero j), fun _ _ => rfl⟩
  | succ n ih =>
    rw [List.range_succ, List.foldl_append]
    exact ih.succ ha

/-! ### TST -/

theorem writeImage_wholeSector (s : State) (bid off : Nat) (x : BitVec 512 × SideBand) :
    s.writeImage bid (wholeSector off x) = s.writeSector (.spad bid off) x.1 x.2 := by
  rw [State.writeImage, wholeSector]
  dsimp only
  rw [if_pos rfl, BitVec.not_allOnes, BitVec.and_zero, BitVec.zero_or, BitVec.and_allOnes, BitVec.not_allOnes, BitVec.and_zero,
    BitVec.zero_or, BitVec.and_allOnes]

section
variable {s : State} {t b : Nat} {at_ : Nat × Nat} {sl : Slot}

/-- The transfer of a TST. -/
def tstTransfer (at_ : Nat × Nat) (x : Slot) : TileTransfer :=
  .image at_.1 ((List.range 32).map (fun j => wholeSector (at_.2 + 64 * j) (x.sector j))) 0

theorem exec_tst (hz : s.iss.hazard = none) (hs : s.team.slotOf t = some sl)
    (hp : s.imagePlace .store (s.getS b) 2048 = .ok at_) :
    exec (.tst t b) s = .next (s.startTransfer (tstTransfer at_ sl)).retire :=
  by
  change answer s (s.hazardCheck >>= fun _ => s.slotAt t >>= fun x => s.imagePlace .store (s.getS b) 2048 >>= fun at_ =>
    .ok (s.startTransfer (tstTransfer at_ x)).retire) = _
  rw [hazardCheck_ok hz, slotAt_ok hs, hp]
  rfl

theorem exec_transferComplete_tst (h : s.team.mat.transfers = [tstTransfer at_ sl]) : exec .tileTransferComplete s =
    .next (((List.range 32).foldl (fun t j => t.writeSector (.spad at_.1 (at_.2 + 64 * j)) (sl.sector j).1 (sl.sector j).2)
      (s.withMat { s.team.mat with transfers := [] })).raise 0) := by
  change Host.Outcome.next (match s.team.mat.transfers with | [] => s | x :: rest => _) = _
  rw [h, tstTransfer]
  dsimp only
  simp only [List.foldl_map, writeImage_wholeSector]

/-- A TST moves nothing until it completes; then the image stands in the scratchpad. -/
theorem tst_completes (hw : storesWf s = true) (h0 : s.team.mat.transfers = []) (hb : (s.findBlock at_.1).isSome = true)
    (ha : at_.2 % 64 = 0) : ∃ v, exec .tileTransferComplete (s.startTransfer (tstTransfer at_ sl)).retire = .next v ∧
      ImageWritten s at_.1 at_.2 sl.sector 32 v := by
  obtain ⟨-, -, hbytes, hmat⟩ := startTransfer_retire s (tstTransfer at_ sl)
  have hwf : storesWf (s.startTransfer (tstTransfer at_ sl)).retire = true := Canon.retire (Canon.withMat hw)
  have hfound : ((s.startTransfer (tstTransfer at_ sl)).retire.findBlock at_.1).isSome = true := by
    rw [State.findBlock, State.allBlocks, State.retire_blk, State.retire_blocks]
    exact hb
  generalize (s.startTransfer (tstTransfer at_ sl)).retire = u at *
  refine ⟨_, exec_transferComplete_tst (by rw [hmat, h0]; rfl), ?_⟩
  exact (imageWritten (s := u.withMat { u.team.mat with transfers := [] }) (Canon.withMat hwf) hfound ha sl.sector 32).raise
    (fun p => (hbytes p).1) 0

end

end Sys2Proof.Machine
end

section
/-!
PROOF. AQNT (R318, R319): two blocks at their place in a sector of the image.
-/
namespace Sys2Proof.Machine

/-! ### Codes side by side -/

/-- Codes of `w` bits, one in every `st` bits of a number. -/
def packCodes (st w : Nat) (cs : List Nat) : Nat := Nat.ofDigits (2 ^ st) (cs.map (· % 2 ^ w))

theorem foldl_add_sum {α : Type} (g : α → Nat) (xs : List α) (n : Nat) :
    xs.foldl (fun b c => b + g c) n = n + (xs.map g).sum := by
  induction xs generalizing n with
  | nil => rfl
  | cons x xs ih => rw [List.foldl_cons, ih, List.map_cons, List.sum_cons, Nat.add_assoc]

theorem foldl_codes (st w : Nat) (cs : List Nat) :
    (cs.mapIdx (fun i c => (i, c))).foldl (fun b c => b + c.2 % 2 ^ w * 2 ^ (st * c.1)) 0 = packCodes st w cs := by
  rw [foldl_add_sum (fun c : Nat × Nat => c.2 % 2 ^ w * 2 ^ (st * c.1)), Nat.zero_add, packCodes, Nat.ofDigits_eq_sum_mapIdx]
  refine congrArg List.sum (List.ext_getElem (by simp) fun i _ _ => ?_)
  simp [Nat.pow_mul]

section
variable {st w : Nat} (hw : w ≤ st) (cs : List Nat)
include hw

theorem codes_lt : ∀ c ∈ cs.map (· % 2 ^ w), c < 2 ^ st := by
  intro c hc
  obtain ⟨x, -, rfl⟩ := List.mem_map.mp hc
  exact (Nat.mod_lt _ (Nat.two_pow_pos w)).trans_le (Nat.pow_le_pow_right (by decide) hw)

theorem packCodes_lt (h0 : 0 < st) : packCodes st w cs < 2 ^ (st * cs.length) := by
  have h := Nat.ofDigits_lt_base_pow_length (Nat.one_lt_two_pow h0.ne') (codes_lt hw cs)
  rwa [List.length_map, ← Nat.pow_mul] at h

/-- A code can be read back. -/
theorem packCodes_code (j : Nat) : packCodes st w cs / 2 ^ (st * j) % 2 ^ st = cs.getD j 0 % 2 ^ w := by
  have hlt : cs.getD j 0 % 2 ^ w < 2 ^ st := (Nat.mod_lt _ (Nat.two_pow_pos w)).trans_le (Nat.pow_le_pow_right (by decide) hw)
  rw [Nat.pow_mul, packCodes, Nat.ofDigits_div_pow_eq_ofDigits_drop j (Nat.two_pow_pos st) _ (codes_lt hw cs),
    Nat.ofDigits_mod_eq_head!, ← List.map_drop]
  cases hd : cs.drop j with
  | nil =>
    rw [List.getD_eq_default _ _ (List.drop_eq_nil_iff.mp hd), Nat.zero_mod]
    exact Nat.zero_mod _
  | cons c rest =>
    have hc : cs.getD j 0 = c := by
      rw [List.getD_eq_getElem?_getD, ← List.head?_drop, hd]
      rfl
    rw [hc] at hlt ⊢
    exact Nat.mod_eq_of_lt hlt

end

theorem packCodes_append (st w : Nat) (cs ds : List Nat) :
    packCodes st w (cs ++ ds) = packCodes st w cs + packCodes st w ds * 2 ^ (st * cs.length) := by
  rw [packCodes, List.map_append, Nat.ofDigits_append, List.length_map, ← Nat.pow_mul, Nat.mul_comm (2 ^ _)]
  rfl

/-! ### Fields of a number -/

theorem mod_two_pow_of_lt {x m n : Nat} (hx : x < 2 ^ m) (h : m ≤ n) : x % 2 ^ n = x :=
  Nat.mod_eq_of_lt (hx.trans_le (Nat.pow_le_pow_right (by decide) h))

theorem toNat_ofNat_of_lt {x m w : Nat} (hx : x < 2 ^ m) (h : m ≤ w) : (BitVec.ofNat w x).toNat = x :=
  (BitVec.toNat_ofNat ..).trans (mod_two_pow_of_lt hx h)

/-- A field above all that a number holds. -/
theorem setField_above {x lo : Nat} (h : x < 2 ^ lo) (n v : Nat) : setField x lo n v = x + v % 2 ^ n * 2 ^ lo := by
  rw [setField, field, Nat.div_eq_of_lt h, Nat.zero_mod, Nat.zero_mul, Nat.sub_zero]

theorem setField_zero (lo n v : Nat) : setField 0 lo n v = v % 2 ^ n * 2 ^ lo := by
  rw [setField_above (Nat.two_pow_pos lo), Nat.zero_add]

/-- Two fields that follow one another. -/
theorem setField_setField_zero (lo n v w : Nat) :
    setField (setField 0 lo n v) (lo + n) n w = (v % 2 ^ n + w % 2 ^ n * 2 ^ n) * 2 ^ lo := by
  have hlt : v % 2 ^ n * 2 ^ lo < 2 ^ (lo + n) := by
    rw [Nat.pow_add, Nat.mul_comm (2 ^ lo)]
    exact Nat.mul_lt_mul_of_pos_right (Nat.mod_lt _ (Nat.two_pow_pos n)) (Nat.two_pow_pos lo)
  rw [setField_zero, setField_above hlt, Nat.pow_add, Nat.add_mul, Nat.mul_assoc, Nat.mul_comm (2 ^ n)]

theorem getLsbD_fieldMask {w lo n i : Nat} (hi : i < w) : (fieldMask w lo n).getLsbD i = true ↔ lo ≤ i ∧ i < lo + n := by
  rw [fieldMask, BitVec.getLsbD_ofNat, Nat.testBit_mul_two_pow, Nat.testBit_two_pow_sub_one]
  simp only [hi, decide_true, Bool.true_and, Bool.and_eq_true, decide_eq_true_eq]
  omega

/-! ### The formats -/

theorem width_le_storage {w : Nat} (h : fmtValid w false false = true) : (blockFmt w).width ≤ (blockFmt w).storage := by
  have hs : (blockFmt w).s ≤ 1 := Nat.le_of_lt_succ (Nat.mod_lt _ (by decide))
  have hbits : 1 + (blockFmt w).e + (blockFmt w).m ≤ 8 := by
    unfold fmtValid at h
    simp only [Bool.and_eq_true, decide_eq_true_eq] at h
    omega
  unfold BlockFmt.storage BlockFmt.width
  split
  · omega
  · split <;> omega

theorem storage_cases (f : BlockFmt) : f.storage = 4 ∨ f.storage = 6 ∨ f.storage = 8 := by
  unfold BlockFmt.storage
  split
  · exact .inl rfl
  · split
    · exact .inr (.inl rfl)
    · exact .inr (.inr rfl)

/-- The blocks of AQNT's `q` end in the sector; those of 6 bits in its first 384 bits. -/
theorem blocks_fit {f : BlockFmt} {q : Nat} (h : q < f.perSector / 2) :
    32 * f.storage * (q + 1) ≤ (if f.storage = 6 then 384 else 512) ∧ 16 * (q + 1) ≤ 64 := by
  unfold BlockFmt.perSector at h
  rcases storage_cases f with hs | hs | hs <;> rw [hs] at h ⊢ <;> norm_num at h ⊢ <;> omega

theorem length_quantise (f : BlockFmt) (mode : Nat) (r : Nat → Nat) (given : Option Nat) (xs : List FloatVal) :
    (f.quantise mode r given xs).codes.length = xs.length := by
  have hzeros : (xs.map (fun _ => 0)).length = xs.length := List.length_map _
  have hwith (c : Nat) (fl : Byte) : (f.quantWith mode r xs c fl).codes.length = xs.length := by
    simp [BlockFmt.quantWith]
  unfold BlockFmt.quantise
  dsimp only
  split
  · exact hzeros
  · split
    · split
      · exact hzeros
      · exact hwith _ _
    · split
      · exact hzeros
      · split
        · exact hzeros
        · exact hzeros
        · exact hwith _ _
        · exact hwith _ _

/-! ### Two blocks of a sector -/

section
variable {f : BlockFmt} {q : Nat} {b0 b1 : QuantBlock}

/-- Blocks 2q and 2q+1 of an empty sector. -/
def BlockFmt.putTwo (f : BlockFmt) (q : Nat) (b0 b1 : QuantBlock) : Group :=
  f.putBlock (f.putBlock ⟨0, 0, 0⟩ (2 * q) b0.scale b0.codes) (2 * q + 1) b1.scale b1.codes

theorem side_putTwo : (f.putTwo q b0 b1).side =
    (f.sideByte b0.scale % 2 ^ 8 + f.sideByte b1.scale % 2 ^ 8 * 2 ^ 8) * 2 ^ (16 * q) := by
  rw [show 16 * q = 8 * (2 * q) by omega, ← setField_setField_zero, show 8 * (2 * q) + 8 = 8 * (2 * q + 1) by omega]
  rfl

theorem side_putTwo_lt (hq : q < f.perSector / 2) : (f.putTwo q b0 b1).side < 2 ^ 64 := by
  have hlt : (f.putTwo q b0 b1).side < 2 ^ 16 * 2 ^ (16 * q) := by
    rw [side_putTwo]
    exact Nat.mul_lt_mul_of_pos_right (by omega) (Nat.two_pow_pos _)
  rw [← Nat.pow_add] at hlt
  exact hlt.trans_le (Nat.pow_le_pow_right (by decide) (by have := (blocks_fit hq).2; omega))

/-- A side-band byte of one of the two blocks. -/
theorem sideByte_putTwo {h : Nat} (hh : h < 2) : (f.putTwo q b0 b1).side / 2 ^ (8 * (2 * q + h)) % 256 =
    f.sideByte (if h = 0 then b0 else b1).scale % 256 := by
  rw [side_putTwo, show 8 * (2 * q + h) = 16 * q + 8 * h by omega, Nat.pow_add, ← Nat.div_div_eq_div_mul,
    Nat.mul_div_cancel _ (Nat.two_pow_pos _)]
  obtain rfl | rfl : h = 0 ∨ h = 1 := by omega
  · rw [if_pos rfl]
    omega
  · rw [if_neg Nat.one_ne_zero]
    omega

variable (hw : f.width ≤ f.storage) (h0 : b0.codes.length = 16) (h1 : b1.codes.length = 16)
include hw h0 h1

theorem packTwo_lt : packCodes f.storage f.width (b0.codes ++ b1.codes) < 2 ^ (32 * f.storage) := by
  have h := packCodes_lt hw (b0.codes ++ b1.codes) (by rcases storage_cases f with h | h | h <;> omega)
  rwa [List.length_append, h0, h1, Nat.mul_comm] at h

theorem packTwo_shift_lt (q : Nat) :
    packCodes f.storage f.width (b0.codes ++ b1.codes) * 2 ^ (32 * f.storage * q) < 2 ^ (32 * f.storage * (q + 1)) := by
  rw [Nat.mul_add_one, Nat.add_comm, Nat.pow_add]
  exact Nat.mul_lt_mul_of_pos_right (packTwo_lt hw h0 h1) (Nat.two_pow_pos _)

theorem data_putTwo (hq : q < f.perSector / 2) :
    (f.putTwo q b0 b1).data = packCodes f.storage f.width (b0.codes ++ b1.codes) * 2 ^ (32 * f.storage * q) := by
  have hpos : 0 < f.storage := by rcases storage_cases f with h | h | h <;> omega
  obtain ⟨hfit, -⟩ := blocks_fit hq
  have hl0 := packCodes_lt hw b0.codes hpos
  have hl1 := packCodes_lt hw b1.codes hpos
  rw [h0, Nat.mul_comm] at hl0
  rw [h1, Nat.mul_comm] at hl1
  have hbits : packCodes f.storage f.width b0.codes % 2 ^ (16 * f.storage) +
      packCodes f.storage f.width b1.codes % 2 ^ (16 * f.storage) * 2 ^ (16 * f.storage) =
      packCodes f.storage f.width (b0.codes ++ b1.codes) := by
    rw [Nat.mod_eq_of_lt hl0, Nat.mod_eq_of_lt hl1, packCodes_append, h0, Nat.mul_comm f.storage 16]
  have hdata := setField_setField_zero (16 * f.storage * (2 * q)) (16 * f.storage)
    (packCodes f.storage f.width b0.codes) (packCodes f.storage f.width b1.codes)
  rw [hbits, show 16 * f.storage * (2 * q) + 16 * f.storage = 16 * f.storage * (2 * q + 1) by ring] at hdata
  have hlt := packTwo_shift_lt hw h0 h1 q
  have hfirst : setField 0 (16 * f.storage * (2 * q)) (16 * f.storage) (packCodes f.storage f.width b0.codes) <
      2 ^ (32 * f.storage * (q + 1)) := by
    rw [setField_zero, show 32 * f.storage * (q + 1) = 16 * f.storage + 16 * f.storage + 16 * f.storage * (2 * q) by ring, Nat.pow_add]
    exact Nat.mul_lt_mul_of_pos_right ((Nat.mod_lt _ (Nat.two_pow_pos _)).trans_le
      (Nat.pow_le_pow_right (by decide) (Nat.le_add_left _ _))) (Nat.two_pow_pos _)
  rw [BlockFmt.putTwo, BlockFmt.putBlock, BlockFmt.putBlock]
  dsimp only
  rw [foldl_codes, foldl_codes]
  by_cases h6 : f.storage = 6
  · rw [if_pos h6] at hfit
    have hmod {x : Nat} (hx : x < 2 ^ (32 * f.storage * (q + 1))) : x % 2 ^ 384 = x :=
      mod_two_pow_of_lt hx hfit
    rw [if_pos h6, if_pos h6, hmod hfirst, hdata, show 16 * f.storage * (2 * q) = 32 * f.storage * q by ring, hmod hlt]
  · rw [if_neg h6, if_neg h6, hdata, show 16 * f.storage * (2 * q) = 32 * f.storage * q by ring]

theorem data_putTwo_lt (hq : q < f.perSector / 2) : (f.putTwo q b0 b1).data < 2 ^ (32 * f.storage * (q + 1)) := by
  rw [data_putTwo hw h0 h1 hq]
  exact packTwo_shift_lt hw h0 h1 q

/-- A code of one of the two blocks. -/
theorem code_putTwo (hq : q < f.perSector / 2) {h j : Nat} (hh : h < 2) (hj : j < 16) :
    (f.putTwo q b0 b1).data / 2 ^ (f.storage * (16 * (2 * q + h) + j)) % 2 ^ f.storage =
      (if h = 0 then b0 else b1).codes.getD j 0 % 2 ^ f.width := by
  rw [data_putTwo hw h0 h1 hq, show f.storage * (16 * (2 * q + h) + j) = 32 * f.storage * q + f.storage * (16 * h + j) by ring,
    Nat.pow_add, ← Nat.div_div_eq_div_mul, Nat.mul_div_cancel _ (Nat.two_pow_pos _), packCodes_code hw]
  obtain rfl | rfl : h = 0 ∨ h = 1 := by omega
  · rw [if_pos rfl, List.getD_append _ _ _ _ (by omega), Nat.mul_zero, Nat.zero_add]
  · rw [if_neg Nat.one_ne_zero, List.getD_append_right _ _ _ _ (by omega), show 16 * 1 + j - b0.codes.length = j by omega]

end

/-! ### AQNT -/

theorem startTransfer_retireSr (s : State) (x : TileTransfer) :
    tookEffect s (s.startTransfer x).retireSr ∧ (s.startTransfer x).retireSr.team.regs = s.team.regs ∧
    sameBytes s (s.startTransfer x).retireSr ∧
    (s.startTransfer x).retireSr.team.mat = { s.team.mat with transfers := s.team.mat.transfers ++ [x] } := by
  refine ⟨State.retire_issued _, State.retire_team_regs _, sameBytes_of_stores ?_ ?_ ?_ ?_ ?_, retire_mat _⟩
  · exact State.retireSr_mem _
  · exact State.retireSr_memSide _
  · exact State.retireSr_hub _
  · exact State.retireSr_blk _
  · exact State.retireSr_blocks _

section
variable {s : State} {a b f r q : Nat} {at_ : Nat × Nat} {acc : Tile}

/-- Block `h` of line `i` as an AQNT quantises it. -/
def State.aqntBlock (s : State) (fm : BlockFmt) (relu : Bool) (acc : Tile) (i h : Nat) : QuantBlock :=
  fm.quantise s.rm (fun j => s.aqntRandom i (16 * h + j)) none
    ((List.range 16).map (fun j => reluVal relu (binary32.decode (smGet 0 acc (32 * i + 16 * h + j)).toNat)))

theorem length_aqntBlock (s : State) (fm : BlockFmt) (relu : Bool) (acc : Tile) (i h : Nat) :
    (s.aqntBlock fm relu acc i h).codes.length = 16 := by
  rw [State.aqntBlock, length_quantise, List.length_map, List.length_range]

/-- The sector of a line, and its flags. -/
theorem aqntLine_eq (s : State) (fm : BlockFmt) (relu : Bool) (q : Nat) (acc : Tile) (off i : Nat) :
    let g := fm.putTwo q (s.aqntBlock fm relu acc i 0) (s.aqntBlock fm relu acc i 1)
    s.aqntLine fm relu q acc off i = ({ off := off, data := BitVec.ofNat 512 g.data, side := BitVec.ofNat 64 g.side
                                        mask := fieldMask 512 (32 * fm.storage * q) (32 * fm.storage) |||
                                          if fm.storage = 6 then fieldMask 512 384 128 else 0
                                        sideMask := fieldMask 64 (16 * q) 16 },
      (s.aqntBlock fm relu acc i 0).flags ||| (s.aqntBlock fm relu acc i 1).flags) := rfl

/-- The lines of an AQNT. -/
def State.aqntLines (s : State) (fm : BlockFmt) (relu : Bool) (q : Nat) (acc : Tile) (off : Nat) : List (ImageSector × Byte) :=
  (List.range 32).map (fun i => s.aqntLine fm relu q acc (off + 64 * i) i)

theorem exec_aqnt (hz : s.iss.hazard = none) (ha : s.team.tileOf a = some acc)
    (hp : s.imagePlace .store (s.getS b) 2048 = .ok at_) (hf : fmtValid (s.fmtWord f) false false = true)
    (hq : q < (blockFmt (s.fmtWord f)).perSector / 2) :
    let ls := s.aqntLines (blockFmt (s.fmtWord f)) (r = 1) q acc at_.2
    exec (.aqnt a b f r q) s =
      .next (s.startTransfer (.image at_.1 (ls.map Prod.fst) (flagsOr (ls.map Prod.snd)))).retireSr := by
  intro ls
  have htile : s.tileAt a = .ok acc := by
    obtain ⟨y, hy, rfl⟩ := Option.map_eq_some_iff.mp ha
    rw [State.tileAt, hy]
  change answer s (s.hazardCheck >>= fun _ => s.tileAt a >>= fun t => s.imagePlace .store (s.getS b) 2048 >>= fun at_ =>
    need (fmtValid (s.fmtWord f) false false) (s.flt .slotState) >>= fun _ =>
    need (q < (blockFmt (s.fmtWord f)).perSector / 2) (s.flt .slotState) >>= fun _ =>
    let ls := s.aqntLines (blockFmt (s.fmtWord f)) (r = 1) q t at_.2
    .ok (s.startTransfer (.image at_.1 (ls.map Prod.fst) (flagsOr (ls.map Prod.snd)))).retireSr) = _
  rw [hazardCheck_ok hz, htile, hp, need_ok hf, need_ok (decide_eq_true hq)]
  rfl

/-- The flags of an AQNT are those of its blocks. -/
theorem getLsbD_aqntFlags (s : State) (fm : BlockFmt) (relu : Bool) (q : Nat) (acc : Tile) (off n : Nat) :
    (flagsOr ((s.aqntLines fm relu q acc off).map Prod.snd)).getLsbD n = true ↔
      ∃ i h, i < 32 ∧ h < 2 ∧ (s.aqntBlock fm relu acc i h).flags.getLsbD n = true := by
  rw [getLsbD_flagsOr, State.aqntLines, List.map_map]
  constructor
  · rintro ⟨fl, hfl, hn⟩
    obtain ⟨i, hi, rfl⟩ := List.mem_map.mp hfl
    rw [List.mem_range] at hi
    rw [Function.comp, aqntLine_eq, BitVec.getLsbD_or, Bool.or_eq_true] at hn
    exact hn.elim (fun h0 => ⟨i, 0, hi, by decide, h0⟩) fun h1 => ⟨i, 1, hi, by decide, h1⟩
  · rintro ⟨i, h, hi, hh, hn⟩
    refine ⟨_, List.mem_map_of_mem (List.mem_range.mpr hi), ?_⟩
    rw [Function.comp, aqntLine_eq, BitVec.getLsbD_or, Bool.or_eq_true]
    obtain rfl | rfl : h = 0 ∨ h = 1 := by omega
    · exact .inl hn
    · exact .inr hn

/-- A sector of an AQNT's image: where it lies, which bits it writes, and what they are. -/
structure AqntSector (fm : BlockFmt) (q off : Nat) (block : Nat → QuantBlock) (x : ImageSector) : Prop where
  off : x.off = off
  mask : ∀ n, n < 512 → (x.mask.getLsbD n = true ↔
    (32 * fm.storage * q ≤ n ∧ n < 32 * fm.storage * (q + 1)) ∨ (fm.storage = 6 ∧ 384 ≤ n))
  sideMask : ∀ n, n < 64 → (x.sideMask.getLsbD n = true ↔ 16 * q ≤ n ∧ n < 16 * (q + 1))
  rest : fm.storage = 6 → ∀ n, 384 ≤ n → x.data.getLsbD n = false
  side : ∀ h, h < 2 → x.side.toNat / 2 ^ (8 * (2 * q + h)) % 256 = fm.sideByte (block h).scale % 256
  code : ∀ h, h < 2 → ∀ j, j < 16 → x.data.toNat / 2 ^ (fm.storage * (16 * (2 * q + h) + j)) % 2 ^ fm.storage =
    (block h).codes.getD j 0 % 2 ^ fm.width

theorem aqntSector (s : State) {fm : BlockFmt} (relu : Bool) (acc : Tile) (off i : Nat) (hw : fm.width ≤ fm.storage)
    (hq : q < fm.perSector / 2) : AqntSector fm q off (s.aqntBlock fm relu acc i) (s.aqntLine fm relu q acc off i).1 := by
  have h0 := length_aqntBlock s fm relu acc i 0
  have h1 := length_aqntBlock s fm relu acc i 1
  have hblock {h : Nat} (hh : h < 2) :
      (if h = 0 then s.aqntBlock fm relu acc i 0 else s.aqntBlock fm relu acc i 1) = s.aqntBlock fm relu acc i h := by
    obtain rfl | rfl : h = 0 ∨ h = 1 := by omega
    · rfl
    · rfl
  obtain ⟨hfit, -⟩ := blocks_fit hq
  have hlt := data_putTwo_lt hw h0 h1 hq
  have hle : 32 * fm.storage * (q + 1) ≤ 512 := hfit.trans (by split <;> omega)
  rw [aqntLine_eq]
  refine ⟨rfl, fun n hn => ?_, fun n hn => ?_, fun h6 n hn => ?_, fun h hh => ?_, fun h hh j hj => ?_⟩
  · dsimp only
    rw [BitVec.getLsbD_or, Bool.or_eq_true, getLsbD_fieldMask hn, Nat.mul_add_one]
    refine or_congr Iff.rfl ?_
    by_cases h6 : fm.storage = 6
    · rw [if_pos h6, getLsbD_fieldMask hn]
      omega
    · rw [if_neg h6]
      simp [h6]
  · rw [getLsbD_fieldMask hn, Nat.mul_add_one]
  · rw [if_pos h6] at hfit
    dsimp only
    rw [BitVec.getLsbD_ofNat, Nat.testBit_lt_two_pow (hlt.trans_le (Nat.pow_le_pow_right (by decide) (hfit.trans hn))), Bool.and_false]
  · dsimp only
    rw [toNat_ofNat_of_lt (side_putTwo_lt hq) (Nat.le_refl 64), sideByte_putTwo hh, hblock hh]
  · dsimp only
    rw [toNat_ofNat_of_lt hlt hle, code_putTwo hw h0 h1 hq hh hj, hblock hh]

end

end Sys2Proof.Machine
end

section
/-!
PROOF. Matrix steps and the transfers of tiles (R299..R319, R395): the clauses of the statement, and the statement itself.
-/
namespace Sys2Proof.Machine

/-! ### Words as instructions -/

theorem exec_mma (d a b x y c : Nat) (s : State) :
    exec (.mma d a b x y c) s = answer s (s.matrixWord (some c) (stepReqs a b d false [0]) 0) := rfl

theorem exec_mmaZ (d a b x y c : Nat) (s : State) :
    exec (.mmaZ d a b x y c) s = answer s (s.matrixWord (some c) (stepReqs a b d true [0]) 0) := rfl

/-- Steps of an MMAS that a bitmap leaves (R314). -/
def keptSteps (n : Nat) (skip : Word64) : List Nat := (List.range (n + 1)).filter (fun i => !skip.getLsbD i)

theorem exec_mmas (d a b n k : Nat) (s : State) : exec (.mmas d a b n k) s =
    answer s (s.matrixWord none (stepReqs a b d false (keptSteps n (s.leader.getS k)))
      (n + 1 - (stepReqs a b d false (keptSteps n (s.leader.getS k))).length)) := rfl

theorem leader_solo {s : State} (h : s.team.mat.member = none) : s.leader = s.team := by
  rw [State.leader, h]
  rfl

theorem leader_member {s : State} {me : Member} {v : Convocation} {m0 : Nat} {g : Team} (h : s.team.mat.member = some me)
    (hv : s.blk.findConv me.cv = some v) (h0 : v.members.head? = some m0) (hg : s.findTeam m0 = some g) : s.leader = g := by
  rw [State.leader, h, Option.bind_some, hv, Option.bind_some, h0, Option.bind_some, hg]
  rfl

theorem ownCv_solo {s : State} (h : s.team.mat.member = none) : s.ownCv = 0 := by rw [State.ownCv, h]

theorem ownCv_member {s : State} {me : Member} (h : s.team.mat.member = some me) : s.ownCv = me.cv := by rw [State.ownCv, h]

theorem bound_of_mem {t : Team} {d : Nat} (h : ∃ z, (d, z) ∈ t.mat.tiles) : t.bound false d = true := by
  obtain ⟨z, hz⟩ := h
  rw [Team.bound, if_neg Bool.false_ne_true, List.any_eq_true]
  exact ⟨(d, z), hz, by simp⟩

section
variable {s : State} {i : Instr} {cv : Option Nat} {a b d : Nat} {z : Bool} {js : List Nat} {skipped : Nat}

/-- Of one step, what stalls a team is all of it: no free step is left. -/
theorem freeRest_one {s : State} (h : ¬s.Leave 1) : s.freeRest 1 = 0 := by
  rw [State.Leave, not_or] at h
  rw [State.freeRest]
  omega

theorem exec_stalls (hx : exec i s = answer s (s.matrixWord cv (stepReqs a b d z js) skipped)) (hz : s.iss.hazard = none)
    (hc : cv.all (fun c => c = s.ownCv) = true) (hw : s.team.lanes.active = firstLanes s.team.size) (hl : ¬s.Leave js.length) :
    exec i s = .next (s.stall (.leave false (js.length - s.freeRest js.length))) := by
  have h := matrixWord_stalls (rs := stepReqs a b d z js) (skipped := skipped) hz hc hw (by rwa [length_stepReqs])
  rw [length_stepReqs] at h
  exact hx.trans (congrArg (answer s) h)

end

/-- The last member to issue: every other member waits in the step. -/
theorem gang_of_waiting {s : State} {v : Convocation} (h0 : s.team.uid ≠ 0) (hn : v.members.Nodup) (hself : s.team.uid ∈ v.members)
    (hw : ∀ i ∈ s.partners v, ∃ h, s.findTeam i = some h ∧ h.uid = i ∧ i ≠ 0 ∧ ∃ w, h.phase = .waiting (.step w)) :
    Gang s v := by
  refine ⟨h0, hn, hself, fun i hi hne => ?_⟩
  obtain ⟨h, hh, -, hi0, w, hph⟩ := hw i (List.mem_filter.mpr ⟨hi, by simpa using hne⟩)
  exact ⟨hi0, h, w, hh, hph⟩

/-- ReLU as a match on the value. -/
theorem reluVal_true (x : FloatVal) : reluVal true x = match x with
    | .fin n m e => if n || m == 0 then .fin false 0 0 else .fin n m e
    | .inf true => .fin false 0 0
    | z => z := by
  cases x with
  | fin neg m e => cases neg <;> rfl
  | inf neg => cases neg <;> rfl
  | nan sig => rfl

theorem slotOf_congr {t u : Team} (h : u.mat.slots = t.mat.slots) (m : Nat) : u.slotOf m = t.slotOf m := by
  rw [Team.slotOf, h, Team.slotOf]

/-! ### A step that ends -/

section
variable {s : State} {st : StepInFlight} {rest : List StepInFlight} {acc : Tile} {kc : Nat}

/-- What a matrix step leaves when it ends. -/
structure StepDone (s : State) (st : StepInFlight) (rest : List StepInFlight) (acc : Tile) (kc : Nat) (u : State) (z : Tile) : Prop where
  steps : u.team.mat.steps = rest
  tile : u.team.tileOf st.acc = some z
  sums : ∀ i j, i < 32 → j < 32 →
    smGet 0 z (32 * i + j) = BitVec.ofNat 32 (st.sum (s.team.sp.mode.getLsbD 12) acc kc i j).1
  flags : ∀ m : Nat, u.team.sp.sticky.getLsbD m = true ↔ s.team.sp.sticky.getLsbD m = true ∨
    ∃ i j, i < 32 ∧ j < 32 ∧ (st.sum (s.team.sp.mode.getLsbD 12) acc kc i j).2.getLsbD m = true
  others : ∀ m, m ≠ st.acc → u.team.tileOf m = s.team.tileOf m
  slots : u.team.mat.slots = s.team.mat.slots
  regs : u.team.regs = s.team.regs
  bytes : sameBytes s u

theorem stepDone (hs : s.team.mat.steps = st :: rest) (ha : s.team.tileOf st.acc = some acc)
    (hk : ∀ p ∈ st.chunks, (p.1.kind = .zero ∨ p.1.kc = kc) ∧ (p.2.kind = .zero ∨ p.2.kc = kc))
    (hz : kc = 0 ∨ ∃ p ∈ st.chunks, p.1.kind ≠ .zero ∨ p.2.kind ≠ .zero) :
    ∃ u z, exec .matrixStepDone s = .next u ∧ StepDone s st rest acc kc u z := by
  refine ⟨_, (st.run (s.team.sp.mode.getLsbD 12) acc).1, exec_matrixStepDone hs ha, rfl, ?_, fun i j hi hj => ?_, fun m => ?_,
    fun m hm => ?_, rfl, rfl, fun _ => ⟨rfl, rfl⟩⟩
  · refine (tileOf_putTile (t := s.team) _ _).trans ?_
    rw [if_pos rfl]
    exact congrArg (Option.map fun _ => _) ha
  · exact smGet_run st _ acc hk hz hi hj
  · refine Iff.trans ?_ (or_congr_right (getLsbD_run_flags st _ acc hk hz m))
    exact (congrArg (· = true) (BitVec.getLsbD_or ..)).to_iff.trans (Bool.or_eq_true ..).to_iff
  · refine (tileOf_putTile (t := s.team) _ _).trans ?_
    rw [if_neg hm]
    rfl

end

/-! ### The statement -/

/-- Settles O51: the steps of a team alone and of a convocation, a step that ends, and the transfers of TLD, TST and AQNT from their
beginning to their completion. -/
theorem matrixStepsAndTransfers : Obligations.MatrixStepsAndTransfers := by
  intro d a b x y c n k t f r q s hz h0 hu whole slot tile solo leave pairOk begins
  have hbegins (i : Instr) (z : Bool) (hm : solo)
      (hx : exec i s = answer s (s.matrixWord (some 0) (stepReqs a b d z [0]) 0)) : begins i z := by
    have hc : (some 0).all (fun c => c = s.ownCv) = true := by rw [ownCv_solo hm]; rfl
    refine ⟨fun hw hl => ?_, fun hw hl hno => ?_, fun p p' acc hw hl hp hp' ht hok => ?_⟩
    · have hstall := exec_stalls hx hz hc hw hl
      rwa [List.length_singleton, freeRest_one hl] at hstall
    · exact hx.trans (congrArg (answer s) (soloWord_unbound (js := [0]) hz hc hw hl hm ⟨0, List.mem_cons_self, hno⟩))
    · obtain ⟨u, hword, heffect, hregs, hbytes, htiles, hsteps⟩ := soloWord_begins (a := a) (b := b) (z := z) (js := [0])
        (skipped := 0) (P := fun _ => p) (Q := fun _ => p') hz hc hw hl hm (fun _ hn => Option.some_ne_none acc (ht.symm.trans hn))
        (List.forall_mem_singleton.mpr ⟨hp, hp', hok⟩)
      exact ⟨u, hx.trans (congrArg (answer s) hword), heffect, hregs, hbytes, hsteps, htiles⟩
  refine ⟨fun hm => ⟨hbegins _ false hm rfl, hbegins _ true hm rfl⟩, ?_, ?_, ?_, ?_, ?_, ?_, ?_, ?_⟩
  -- the CV and the mask (R310 steps 1 and 2)
  · intro mine
    refine ⟨fun hc => ?_, fun hw => ?_⟩
    · have hcv : (some c).all (fun c => c = s.ownCv) = false := decide_eq_false hc
      exact ⟨congrArg (answer s) (matrixWord_cv hz hcv), congrArg (answer s) (matrixWord_cv hz hcv)⟩
    · have hcv : (some mine).all (fun c => c = s.ownCv) = true := decide_eq_true rfl
      exact ⟨congrArg (answer s) (matrixWord_convergence hz hcv hw), congrArg (answer s) (matrixWord_convergence hz hcv hw),
        congrArg (answer s) (matrixWord_convergence hz rfl hw)⟩
  -- MMAS of a team alone (R314)
  · intro hm kept
    have hx := exec_mmas d a b n k s
    rw [leader_solo hm] at hx
    refine ⟨fun hw hl => exec_stalls hx hz rfl hw hl, fun hw hl hno => ?_, fun P Q hw hl ht hpq => ?_⟩
    · refine hx.trans (congrArg (answer s) (soloWord_unbound hz rfl hw hl hm ?_))
      obtain ⟨j, hj, hn⟩ := hno
      exact ⟨j, hj, hn.imp_right .inl⟩
    · obtain ⟨u, hword, heffect, hregs, hbytes, htiles, hsteps⟩ := soloWord_begins (cv := none) (z := false) hz rfl hw hl hm
        (fun _ => ht) hpq
      exact ⟨u, hx.trans (congrArg (answer s) hword), heffect, hregs, hbytes, htiles, hsteps⟩
  -- a member of a convocation (R84, R311)
  · intro me v hm hv hd hb hw team own others last refused gang
    have hgang (i : Instr) (cv : Option Nat) (z : Bool) (js : List Nat) (skipped : Nat) (hc : cv.all (fun c => c = s.ownCv) = true)
        (hx : exec i s = answer s (s.matrixWord cv (stepReqs a b d z js) skipped)) : gang i z js := by
      have hof (hlast : last) : Gang s v := by
        obtain ⟨-, hnodup, hself, -, hothers⟩ := hlast
        exact gang_of_waiting h0 hnodup hself hothers
      have hrefused (cause : Cause) (hword : GangHolds s v → ∃ u, s.matrixWord cv (stepReqs a b d z js) skipped = .ok u ∧
          AllHeld s v cause u) : refused i cause := by
        intro htrap hblk hph hlaunch hnd hbid
        obtain ⟨u, hu, hall⟩ := hword ⟨hu, htrap, hblk, hph, hlaunch, hbid⟩
        refine ⟨u, hx.trans (congrArg (answer s) hu), fun j hj => ?_⟩
        obtain ⟨g, w, hg, hw, hheld⟩ := hall j hj
        exact ⟨g, w, hg, hw, hheld.phase, hheld.cause, hheld.pc, congrArg Matrix.steps hheld.mat⟩
      refine ⟨exec_stalls hx hz hc hw, fun hl hn => ?_, fun hl hlast hy => ?_, fun hl hlast hy => ?_⟩
      · obtain ⟨u, hu, hrest⟩ := memberWord_waits (a := a) (b := b) (d := d) (z := z) (skipped := skipped) hz hc hw hl hm hv hd hb hn
        exact ⟨u, hx.trans (congrArg (answer s) hu), hrest⟩
      · exact hrefused _ fun hh => memberWord_mismatch hz hc hw hl hm hv hd hb hlast.1 (hof hlast) hh hy
      · intro step begun
        have hg := hof hlast
        have hbegun {due : Nat → List StepInFlight} {due' : Nat → Nat → List StepInFlight}
            (hword : ∃ u, s.matrixWord cv (stepReqs a b d z js) skipped = .ok u ∧ StepsBegun s v due u)
            (hdue : ∀ o ∈ v.members, due o = js.flatMap (due' o)) : begun due' := by
          obtain ⟨u, hu, hs⟩ := hword
          have hs := hs.congr hdue
          exact ⟨u, hx.trans (congrArg (answer s) hu), hs.issued, hs.bytes, hs.pc, hs.member⟩
        refine ⟨?_, fun hno => ?_⟩
        · intro P Q kc m0 hQ hhead hkP hkQ apart bound
          have hm0 : m0 ∈ v.members := List.mem_of_mem_head? hhead
          refine ⟨fun hmode hP hbd hap => ?_, fun hmode hP hbd hap => ?_⟩
          · exact hbegun (memberWord_nGang hz hc hw hl hm hv hd hb hlast.1 hg hy hhead
              (fun o ho j hj => hQ o ho _ (hg.findTeam ho) j hj) hkP hkQ hmode (fun j hj => hP _ (hg.findTeam hm0) j hj)
              (fun o ho => bound_of_mem (hbd o ho _ (hg.findTeam ho))) hap)
              fun o _ => List.flatMap_congr fun j _ => (if_pos rfl).symm
          · exact hbegun (memberWord_kGang hz hc hw hl hm hv hd hb hlast.1 hg hy hhead
              (fun o ho j hj => hQ o ho _ (hg.findTeam ho) j hj) hkP hkQ hmode
              (fun o ho j hj => hP o ho _ (hg.findTeam ho) j hj) (bound_of_mem (hbd _ (hg.findTeam hm0))) hap)
              fun o _ => rfl
        · obtain ⟨o, ho, j, hj, hnone⟩ := hno
          exact hrefused _ fun hh => memberWord_unbound hz hc hw hl hm hv hd hb hlast.1 hg hy hh
            ⟨o, ho, j, hj, hnone _ (hg.findTeam ho)⟩
    have hown : (some me.cv).all (fun c => c = s.ownCv) = true := decide_eq_true (ownCv_member hm).symm
    refine ⟨hgang _ _ false [0] 0 hown rfl, hgang _ _ true [0] 0 hown rfl, fun m0 g hhead hg => ?_⟩
    have hx := exec_mmas d a b n k s
    rw [leader_member hm hv hhead hg] at hx
    exact hgang _ none false _ _ rfl hx
  -- MATRIX_STEP_DONE (R312)
  · intro st rest acc kc hs ha hk hz sum
    obtain ⟨u, z, hx, hd⟩ := stepDone hs ha hk hz
    exact ⟨u, z, hx, hd.steps, hd.tile, hd.sums, hd.flags, hd.others, hd.slots, hd.regs, hd.bytes⟩
  -- TLD dense (R300, R301)
  · intro at_ sl hs hp hf hpo h0
    obtain ⟨v, hv⟩ := loads_of_startTransfer hs (s.tldDenseSlot 0 f k at_)
    obtain ⟨hx, hn, hslot, hregs, hbytes⟩ := hv.completes h0
    exact ⟨_, v, _, exec_tldDense hz hs hf hp hpo, hv.effect, (slotOf_congr hv.slots t).trans hs, hx, hn, hslot, fill_kind _ _,
      fill_kc _ _, fill_fmt _ _, hregs, hbytes, fun i e hi he hk => code_tldDenseSlot 0 hi he hk⟩
  -- TLD decompose and pre-compressed (R302, R304)
  · intro at_ sl hs hf hd took word
    have htook {y : Slot} {u v : State} (mode : Nat) (h : Loads s t y u v) (hk : y.kc = k) (hfmt : y.fmt = (s.getS f).toNat % 2 ^ 32)
        (hrec : y.word0 = BitVec.ofNat 64 ((s.getS f).toNat % 2 ^ 32 + mode * 2 ^ 32 + k * 2 ^ 34)) : took u v y mode := by
      refine ⟨h.effect, h.slots, h.regs, h.bytes, h.length, fun h0 => ?_⟩
      obtain ⟨hx, hn, hslot, hregs, hbytes⟩ := h.completes h0
      exact ⟨hx, hn, hslot, hk, hfmt, hregs, hbytes, hrec⟩
    refine ⟨fun hp hpo => ?_, fun hp hpo hpos => ?_⟩
    · have hdec := decomposed_decompose (s.tldDenseSlot 1 f k at_) s.team.sp.dcw
      obtain ⟨v, hv⟩ := loads_of_startTransfer hs ((s.tldDenseSlot 1 f k at_).decompose s.team.sp.dcw)
      refine ⟨_, v, _, exec_tldDec hz hs hf hp hd hpo, htook 1 hv (hdec.kc.trans (fill_kc _ _)) (hdec.fmt.trans (fill_fmt _ _))
        (hdec.word0.trans (fill_record _ _)), fun h0 => ⟨hdec.kind, ?_⟩⟩
      rintro y ⟨u', v', hu', hv', hy⟩ hk i e hi he m key rank
      obtain ⟨v0, hv0⟩ := loads_of_startTransfer hs (s.tldDenseSlot 0 f k at_)
      obtain ⟨hx0, -, hslot0, -, -⟩ := hv0.completes h0
      rw [exec_tldDense hz hs hf hp hpo] at hu'
      cases hu'
      rw [hx0] at hv'
      cases hv'
      cases hslot0.symm.trans hy
      exact code_tldDec hd hk hi he
    · obtain ⟨v, hv⟩ := loads_of_startTransfer hs (s.tldPcsSlot f k at_)
      exact ⟨_, v, _, exec_tldPcs hz hs hf hp hd hpo hpos, htook 2 hv kc_tldPcsSlot fmt_tldPcsSlot record_tldPcsSlot,
        fun _ => ⟨rfl, fun i e hi he hk => code_tldPcsSlot hi he hk⟩⟩
  -- TST (R308)
  · intro at_ sl hs hp h0 hw ho ha
    obtain ⟨heffect, -, hbytes, -⟩ := startTransfer_retire s (tstTransfer at_ sl)
    obtain ⟨v, hx, hv⟩ := tst_completes (sl := sl) hw h0 ho ha
    exact ⟨_, v, exec_tst hz hs hp, heffect, hbytes, hx, fun j hj => ⟨hv.data j hj, hv.side j hj⟩, hv.rest⟩
  -- AQNT (R318, R319)
  · intro at_ acc ha hp hf hq fm relu block
    obtain ⟨heffect, hregs, hbytes, hmat⟩ := startTransfer_retireSr s (.image at_.1
      ((s.aqntLines fm (r = 1) q acc at_.2).map Prod.fst) (flagsOr ((s.aqntLines fm (r = 1) q acc at_.2).map Prod.snd)))
    have hblock (i h : Nat) : s.aqntBlock fm (r = 1) acc i h = block i h := by
      refine congrArg (fm.quantise s.rm _ none) (List.map_congr_left fun j _ => ?_)
      by_cases hr : r = 1
      · rw [decide_eq_true hr, if_pos hr]
        exact reluVal_true _
      · rw [decide_eq_false hr, if_neg hr]
        rfl
    refine ⟨_, _, _, exec_aqnt hz ha hp hf hq, heffect, hbytes, hregs, (congrArg Matrix.tiles hmat :),
      (congrArg Matrix.transfers hmat :), ?_, fun n => ?_, fun i hi => ?_⟩
    · rw [List.length_map, State.aqntLines, List.length_map, List.length_range]
    · simp only [← hblock]
      exact getLsbD_aqntFlags s fm _ q acc _ n
    · have hx := aqntSector s (decide (r = 1)) acc (at_.2 + 64 * i) i (width_le_storage hf) hq
      refine ⟨_, ?_, hx.off, hx.mask, hx.sideMask, hx.rest, fun h hh => ?_⟩
      · simp only [State.aqntLines, List.getElem?_map, List.getElem?_range hi, Option.map_some]
        rfl
      · rw [← hblock]
        exact ⟨hx.side h hh, hx.code h hh⟩

end Sys2Proof.Machine
end

section
/-!
PROOF. The checks of the words with vector operands (R90, R97, R177, R183, R192): each word makes those of its form, in
the order of R192, before it does anything else.
-/
namespace Sys2Proof.Machine

/-! ### The checks of a form -/

/-- The checks of a form, in the order of R192: the registers that pairs name, the type, lookahead, the window. -/
def State.formChecks (s : State) (f : VecForm) : Except FaultInfo Unit := do
  need (evenOk true f.pairs) (s.flt .illegalInstruction)
  need f.types (s.flt .illegalMode)
  s.hazardCheck
  need (s.windowOk true f.pairs && s.windowOk false f.singles) (s.flt .windowRange)

/-- The form of a word that reads `srcs` and writes `dst`, each as pairs where it is wide. -/
def wordForm (types srcWide : Bool) (srcs : List Nat) (dstWide : Bool) (dst : List Nat) : VecForm :=
  ⟨(if srcWide then srcs else []) ++ (if dstWide then dst else []),
    (if srcWide then [] else srcs) ++ (if dstWide then [] else dst), types⟩

/-- Word `i` makes the checks of form `f` before all else. -/
def ChecksForm (s : State) (i : Instr) (f : VecForm) : Prop :=
  ∃ k : Unit → Except FaultInfo State, exec i s = answer s (s.formChecks f >>= k)

section
variable {s : State} {f : VecForm}

theorem formChecks_illegalInstruction (h : evenOk true f.pairs = false) :
    s.formChecks f = .error (s.flt .illegalInstruction) := except_bind_error (need_error h _)

theorem formChecks_illegalMode (h : evenOk true f.pairs = true) (ht : f.types = false) :
    s.formChecks f = .error (s.flt .illegalMode) :=
  (except_bind_ok (need_ok h _)).trans (except_bind_error (need_error ht _))

theorem formChecks_lookaheadHazard (h : evenOk true f.pairs = true) (ht : f.types = true) {off : Word32}
    (hz : s.iss.hazard = some off) :
    s.formChecks f = .error (s.fltAt .lookaheadHazard 0 (BitVec.ofNat 64 off.toNat)) :=
  (except_bind_ok (need_ok h _)).trans <| (except_bind_ok (need_ok ht _)).trans <|
    except_bind_error (hazardCheck_error hz)

theorem formChecks_windowRange (h : evenOk true f.pairs = true) (ht : f.types = true) (hz : s.iss.hazard = none)
    (hw : (s.windowOk true f.pairs && s.windowOk false f.singles) = false) :
    s.formChecks f = .error (s.flt .windowRange) :=
  (except_bind_ok (need_ok h _)).trans <| (except_bind_ok (need_ok ht _)).trans <|
    (except_bind_ok (hazardCheck_ok hz)).trans (need_error hw _)

end

/-! ### Forms that make the same checks -/

section
variable {α : Type} {s : State}

/-- Two checks of one fault are one check. -/
theorem need_bind_need (a b : Bool) (e : FaultInfo) (k : Unit → Except FaultInfo α) :
    (need a e >>= fun _ => need b e >>= k) = need (a && b) e >>= k := by
  cases a
  · rfl
  · exact except_bind_ok (need_ok rfl e)

theorem evenOk_append (wide : Bool) (xs ys : List Nat) :
    evenOk wide (xs ++ ys) = (evenOk wide xs && evenOk wide ys) := by
  cases wide <;> simp [evenOk]

theorem windowOk_append (wide : Bool) (xs ys : List Nat) :
    s.windowOk wide (xs ++ ys) = (s.windowOk wide xs && s.windowOk wide ys) := List.all_append

/-- The order in which a form names its registers is no matter. -/
theorem formChecks_of_perm {f g : VecForm} (hp : f.pairs.Perm g.pairs) (hs : f.singles.Perm g.singles)
    (ht : f.types = g.types) : s.formChecks f = s.formChecks g := by
  unfold State.formChecks evenOk State.windowOk
  rw [hp.all_eq, hs.all_eq, hp.all_eq, ht]

theorem evenOk_wordForm (types sw dw : Bool) (srcs dst : List Nat) :
    evenOk true (wordForm types sw srcs dw dst).pairs = (evenOk dw dst && evenOk sw srcs) := by
  rw [wordForm, evenOk_append, Bool.and_comm]
  cases sw <;> cases dw <;> rfl

theorem windowOk_wordForm (types sw dw : Bool) (srcs dst : List Nat) :
    (s.windowOk true (wordForm types sw srcs dw dst).pairs &&
      s.windowOk false (wordForm types sw srcs dw dst).singles) = (s.windowOk sw srcs && s.windowOk dw dst) := by
  have nil (w : Bool) : s.windowOk w [] = true := rfl
  rw [wordForm, windowOk_append, windowOk_append]
  cases sw <;> cases dw <;> simp [nil, Bool.and_comm]

theorem vectorChecks_eq (types wide : Bool) (srcs : List Nat) :
    s.vectorChecks types wide srcs = s.formChecks (wordForm types wide srcs false []) := by
  unfold State.formChecks
  rw [evenOk_wordForm, windowOk_wordForm]
  simp [State.vectorChecks, evenOk, State.windowOk, wordForm]

theorem lanewise_eq (types sw dw : Bool) (d : Nat) (srcs : List Nat) (g : Nat → LaneOut) :
    s.lanewise types sw dw d srcs g =
      s.formChecks (wordForm types sw srcs dw [d]) >>= fun _ => .ok (vecDone s dw d g) := by
  unfold State.formChecks
  rw [evenOk_wordForm, windowOk_wordForm]
  simp only [State.lanewise, State.lanewiseCore, State.vectorChecks, bind_assoc, pure_bind, need_bind_need]
  rfl

/-- Registers whose window is checked after all else are registers of the form. -/
theorem formChecks_bind_window (f : VecForm) (ns : List Nat) (k : Unit → Except FaultInfo α) :
    (s.formChecks f >>= fun _ => need (s.windowOk false ns) (s.flt .windowRange) >>= k) =
      s.formChecks { f with singles := f.singles ++ ns } >>= k := by
  simp only [State.formChecks, windowOk_append, ← Bool.and_assoc, bind_assoc, need_bind_need]

end

/-! ### Words and their forms -/

section
variable {s : State} {i : Instr} {types sw dw given : Bool} {a b d : Nat} {srcs ns fs : List Nat} {g : Nat → LaneOut}
  {src : Nat → Nat → Nat} {k : Unit → Except FaultInfo State}

theorem elemForm_eq (t : Nat) : elemForm t ns types = wordForm types (isWide t) ns false [] := by
  unfold elemForm wordForm
  cases isWide t <;> simp

theorem formChecks_elemForm_cons (t : Nat) :
    s.formChecks (elemForm t (d :: srcs) types) = s.formChecks (wordForm types (isWide t) srcs (isWide t) [d]) := by
  unfold elemForm wordForm
  cases isWide t
  · exact formChecks_of_perm (.refl _) (List.perm_append_singleton d srcs).symm rfl
  · exact formChecks_of_perm (List.perm_append_singleton d srcs).symm (.refl _) rfl

theorem ChecksForm.of_perm {f g : VecForm} (h : ChecksForm s i f) (hp : f.pairs.Perm g.pairs)
    (hs : f.singles.Perm g.singles) (ht : f.types = g.types) : ChecksForm s i g := by
  rwa [ChecksForm, ← formChecks_of_perm hp hs ht]

theorem checksForm_lanewise (h : exec i s = answer s (s.lanewise types sw dw d srcs g)) :
    ChecksForm s i (wordForm types sw srcs dw [d]) := ⟨_, h.trans (congrArg (answer s) (lanewise_eq ..))⟩

/-- A word whose operands and destination hold elements of the mode's type. -/
theorem checksForm_elementwise (h : exec i s = answer s (s.lanewise types (isWide s.ty) (isWide s.ty) d srcs g)) :
    ChecksForm s i (elemForm s.ty (d :: srcs) types) := by
  unfold ChecksForm
  rw [formChecks_elemForm_cons]
  exact checksForm_lanewise h

/-- A shuffle names a register of indices beside those of its elements (R259). -/
theorem checksForm_shuffle (h : exec i s = answer s (s.shuffle d a b src)) : ChecksForm s i
    { elemForm s.ty [d, a] true with singles := (elemForm s.ty [d, a] true).singles ++ [b] } := by
  refine ⟨fun _ => .ok (vecDone s (isWide s.ty) d fun l => (s.opA a (src l (s.getV b (s.srcLane 1 l)).toNat), 0)),
    h.trans (congrArg (answer s) ?_)⟩
  rw [← formChecks_bind_window, formChecks_elemForm_cons, State.shuffle, lanewise_eq, bind_assoc]
  rfl

theorem checksForm_vectorChecks (h : exec i s = answer s (s.vectorChecks types sw srcs >>= k)) :
    ChecksForm s i (wordForm types sw srcs false []) :=
  ⟨k, h.trans (congrArg (fun c => answer s (c >>= k)) (vectorChecks_eq ..))⟩

/-- A word that reads or writes groups of single registers, or lanes of 32 bits whatever the mode's type. -/
theorem checksForm_singles (h : exec i s = answer s (s.vectorChecks types false srcs >>= k)) (hp : srcs.Perm ns) :
    ChecksForm s i ⟨[], ns, types⟩ :=
  (checksForm_vectorChecks h).of_perm (.refl _) (by simpa [wordForm] using hp) rfl

theorem checksForm_blockChecks (h : exec i s = answer s (s.blockChecks [a, d] fs given >>= k)) :
    ChecksForm s i ⟨[], [d, a], true⟩ :=
  checksForm_singles (h.trans (congrArg (answer s) (bind_assoc ..))) (.swap d a [])

end

/-- Every word of `vecForm` makes the checks of its form first. -/
theorem checksForm_of_vecForm {s : State} {i : Instr} {f : VecForm} (h : vecForm s i = some f) : ChecksForm s i f := by
  cases i with
  | vadd | vsub | vmul | vmin | vmax | vabsd | vdiv | vand | vor | vxor | vandn | vsel | vmulh | vrem | vaddsat
  | vsubsat | vavg | vshl | vshr | vsra | vrotr | vcopysign | vfma | vfms | vfnma | vfmas | vandi | vori | vmov | vneg
  | vabs | vnot | vadds | vmuls | vmins | vmaxs | vaddi | vmuli | vshli | vshri | vsrai | vrotri | vshls | vshrs | vpopc
  | vclz | vsext8 | vsext16 | vrcp | vrsq | vsqrt | vexp2 | vlog2 | vsin | vcos | vtanh | vmovi | vbcast =>
    exact Option.some.inj h ▸ checksForm_elementwise rfl
  | vcvt d a u =>
    rw [← Option.some.inj h, elemForm_eq, elemForm_eq]
    have hc := checksForm_lanewise (s := s) (i := .vcvt d a u) rfl
    unfold wordForm at hc ⊢
    simpa using hc
  | vcmp | vcmps =>
    rw [← Option.some.inj h, elemForm_eq]
    exact checksForm_vectorChecks rfl
  | vshfl | vshflTeam => exact Option.some.inj h ▸ checksForm_shuffle rfl
  | vscan d a b fn =>
    have hc := checksForm_vectorChecks (s := s) (i := .vscan d a b fn) rfl
    rw [← Option.some.inj h]
    unfold wordForm at hc
    by_cases hf : fn = 4
    · simp only [hf, decide_true, if_true] at hc ⊢
      exact hc.of_perm (.swap d a []) (.refl _) rfl
    · simp only [hf, decide_false, if_false] at hc ⊢
      exact hc.of_perm (.refl _) (.swap d a []) rfl
  | vred | vhist => exact Option.some.inj h ▸ checksForm_singles rfl (.refl _)
  | visect d a b => exact Option.some.inj h ▸ checksForm_singles rfl (List.perm_append_singleton d [a, b])
  | vlane d fn =>
    have hc := checksForm_lanewise (s := s) (i := .vlane d fn) rfl
    exact Option.some.inj h ▸ hc
  | vnzs | vbmax | vsideRd | vsideWr => exact Option.some.inj h ▸ checksForm_singles rfl (.swap ..)
  | vscsel | vqnt | vdq | vpack | vunpk | vreq => exact Option.some.inj h ▸ checksForm_blockChecks rfl
  | _ => exact nomatch h

/-- Settles O39: a word's form is all that decides which of its shared checks stops it. -/
theorem vectorFaults : Obligations.VectorFaults := by
  intro i f s h
  obtain ⟨k, hk⟩ := checksForm_of_vecForm h
  rw [hk]
  exact ⟨fun he => answer_bind_error (formChecks_illegalInstruction he),
    fun he ht => answer_bind_error (formChecks_illegalMode he ht),
    fun he ht _ hz => answer_bind_error (formChecks_lookaheadHazard he ht hz),
    fun he ht hz hw => answer_bind_error (formChecks_windowRange he ht hz hw)⟩

end Sys2Proof.Machine
end

section
/-!
PROOF. The scalar stack (R113, R237, R410): what PUSHM leaves on it, and what POPM brings back from it.
-/
namespace Sys2Proof.Machine

/-! ### What holds no byte of memory -/

section
variable {s t u : State}

theorem sameBytes_trans (h : sameBytes s t) (h' : sameBytes t u) : sameBytes s u :=
  fun p => ⟨(h' p).1.trans (h p).1, (h' p).2.trans (h p).2⟩

/-- The team in focus. -/
theorem sameBytes_team (s : State) (v : Team) : sameBytes s { s with team := v } :=
  sameBytes_of_stores rfl rfl rfl rfl rfl

theorem sameBytes_amc (s : State) (a : Amc) : sameBytes s { s with amc := a } :=
  sameBytes_of_stores rfl rfl rfl rfl rfl

theorem sameBytes_goTo (h : sameBytes s t) (pc : Word32) : sameBytes s (t.goTo pc) :=
  sameBytes_trans h (sameBytes_of_stores rfl rfl rfl rfl rfl)

/-- Marks of poison. -/
theorem sameBytes_clearRange (s : State) (off n : Nat) : sameBytes s { s with blk := s.blk.clearRange off n } :=
  FaultFrame.sameBytes ⟨rfl, rfl, rfl, rfl, rfl, rfl, rfl, rfl, rfl, rfl, rfl⟩

end

section
variable {s : State} {f g c : Nat}

/-! ### What the two words answer -/

/-- The state after PUSHM (R113, R237). -/
def State.pushed (s : State) (f c : Nat) : State :=
  let s1 : State := { s with
    team := { s.team with
      sstack := smSetAll 0 s.team.sstack ((List.range c).map fun j => (s.team.sp.ssp / 8 + j, s.getS (f + j))) }
    blk := s.blk.clearRange (s.blk.k.stackOff s.team.tib + s.team.sp.ssp) (8 * c) }
  (s1.withSp { s.team.sp with ssp := s.team.sp.ssp + 8 * c }).retireCtl

/-- The state after POPM (R113, R237). -/
def State.popped (s : State) (g c : Nat) : State :=
  let ssp := s.team.sp.ssp - 8 * c
  let s1 := (List.range c).foldl (fun t j => t.setS (g + j) (smGet 0 s.team.sstack (ssp / 8 + j))) s
  (s1.withSp { s1.team.sp with ssp := ssp }).retireCtl

/-- The `c` words that POPM reads have a poisoned sector (R410). -/
abbrev State.popBad (s : State) (c : Nat) : Bool :=
  s.blk.badRange (s.blk.k.stackOff s.team.tib + (s.team.sp.ssp - 8 * c)) (8 * c)

theorem exec_pushm (h : s.team.sp.ssp + 8 * c ≤ s.blk.k.sstack) : exec (.pushm f c) s = .next (s.pushed f c) :=
  answer_bind_ok (need_ok (decide_eq_true h) _)

theorem exec_pushm_full (h : s.blk.k.sstack < s.team.sp.ssp + 8 * c) :
    exec (.pushm f c) s = .next (takeFault (s.flt .stack) s) :=
  answer_bind_error (need_error (decide_eq_false (Nat.not_le.mpr h)) _)

theorem exec_popm (h : 8 * c ≤ s.team.sp.ssp) (hb : s.popBad c = false) :
    exec (.popm g c) s = .next (s.popped g c) :=
  (answer_bind_ok (need_ok (decide_eq_true h) _)).trans (answer_bind_ok (need_ok (by simpa using hb) _))

theorem exec_popm_short (h : s.team.sp.ssp < 8 * c) : exec (.popm g c) s = .next (takeFault (s.flt .stack) s) :=
  answer_bind_error (need_error (decide_eq_false (Nat.not_le.mpr h)) _)

theorem exec_popm_poison (h : 8 * c ≤ s.team.sp.ssp) (hb : s.popBad c = true) :
    exec (.popm g c) s = .next (takeFault (s.flt .memoryPoison) s) :=
  (answer_bind_ok (need_ok (decide_eq_true h) _)).trans (answer_bind_error (need_error (by simpa using hb) _))

/-! ### Words written one after another -/

section
variable {α : Type} [DecidableEq α] {d : α} {m : SMap α} {b : Nat} {x : Nat → α}

theorem smGet_smSetAll_run (h : smWf d m = true) {j : Nat} (hj : j < c) :
    smGet d (smSetAll d m ((List.range c).map fun i => (b + i, x i))) (b + j) = x j := by
  refine smGet_smSetAll_of_forall h ⟨(b + j, x j), List.mem_map.mpr ⟨j, List.mem_range.mpr hj, rfl⟩, rfl⟩
    fun w hw hk => ?_
  obtain ⟨i, -, rfl⟩ := List.mem_map.mp hw
  rw [Nat.add_left_cancel hk]

theorem smGet_smSetAll_run_outside (h : smWf d m = true) {n : Nat} (hn : n < b ∨ b + c ≤ n) :
    smGet d (smSetAll d m ((List.range c).map fun i => (b + i, x i))) n = smGet d m n := by
  refine smGet_smSetAll_of_not_mem h fun w hw => ?_
  obtain ⟨i, hi, rfl⟩ := List.mem_map.mp hw
  have := List.mem_range.mp hi
  omega

end

/-- Writes of a run of uniform registers change nothing else. -/
theorem foldl_setS (x : Nat → Word64) (h : g + c ≤ 192) :
    (List.range c).foldl (fun t j => t.setS (g + j) (x j)) s = s.withRegs { s.team.regs with
      s := smSetAll 0 s.team.regs.s ((List.range c).map fun j => (g + j, x j)) } := by
  induction c with
  | zero => rfl
  | succ c ih =>
    rw [List.range_succ, List.foldl_append, ih (by omega), List.map_append]
    unfold smSetAll
    rw [List.foldl_append]
    exact if_pos (by omega)

/-! ### What PUSHM and POPM leave -/

theorem popped_eq (h : g + c ≤ 192) : s.popped g c = ((s.withRegs { s.team.regs with
    s := smSetAll 0 s.team.regs.s ((List.range c).map fun j =>
      (g + j, smGet 0 s.team.sstack ((s.team.sp.ssp - 8 * c) / 8 + j))) }).withSp
    { s.team.sp with ssp := s.team.sp.ssp - 8 * c }).retireCtl := by
  unfold State.popped
  dsimp only
  rw [foldl_setS _ h]
  rfl

theorem getS_popped (hs : Canon s) (h : g + c ≤ 192) {j : Nat} (hj : j < c) :
    (s.popped g c).getS (g + j) = smGet 0 s.team.sstack ((s.team.sp.ssp - 8 * c) / 8 + j) := by
  obtain ⟨-, -, hr, -⟩ := storesWf_regs hs
  rw [popped_eq h]
  exact (if_pos (by omega)).trans (smGet_smSetAll_run hr hj)

theorem getS_popped_outside (hs : Canon s) (h : g + c ≤ 192) {n : Nat} (hn : n < g ∨ g + c ≤ n) :
    (s.popped g c).getS n = s.getS n := by
  obtain ⟨-, -, hr, -⟩ := storesWf_regs hs
  rw [popped_eq h]
  exact if_congr Iff.rfl (smGet_smSetAll_run_outside hr hn) rfl

theorem popped_frame (h : g + c ≤ 192) : tookEffect s (s.popped g c) ∧
    (s.popped g c).team.sp.ssp = s.team.sp.ssp - 8 * c ∧ (s.popped g c).team.regs.v = s.team.regs.v ∧
    (s.popped g c).team.regs.p = s.team.regs.p ∧ sameBytes s (s.popped g c) := by
  rw [popped_eq h]
  exact ⟨rfl, rfl, rfl, rfl, sameBytes_goTo (sameBytes_team s _) _⟩

theorem sameBytes_pushed : sameBytes s (s.pushed f c) :=
  sameBytes_goTo (sameBytes_trans (sameBytes_clearRange s _ _) (sameBytes_team _ _)) _

theorem canon_pushed (hs : Canon s) (h : s.team.sp.ssp + 8 * c ≤ s.blk.k.sstack) : Canon (s.pushed f c) := by
  have hp := hs.execPushm (f := f) (c := c)
  rwa [show execPushm f c s = .next (s.pushed f c) from exec_pushm h] at hp

/-- PUSHM poisons nothing. -/
theorem popBad_pushed (h : s.blk.badRange (s.blk.k.stackOff s.team.tib + s.team.sp.ssp) (8 * c) = false) :
    (s.pushed f c).popBad c = false := by
  change Block.badRange _ (_ + (s.team.sp.ssp + 8 * c - 8 * c)) _ = false
  rw [Nat.add_sub_cancel]
  simp only [Block.badRange, List.any_eq_false] at h ⊢
  exact fun x hx => h x (List.mem_of_mem_filter hx)

/-- What PUSHM has put on the stack is what it read. -/
theorem sstack_pushed (hs : Canon s) {j : Nat} (hj : j < c) :
    smGet 0 (s.pushed f c).team.sstack (((s.pushed f c).team.sp.ssp - 8 * c) / 8 + j) = s.getS (f + j) := by
  obtain ⟨-, -, -, -, hk⟩ := teamWf_iff.mp hs.team
  change smGet 0 _ ((s.team.sp.ssp + 8 * c - 8 * c) / 8 + j) = _
  rw [Nat.add_sub_cancel]
  exact smGet_smSetAll_run hk hj

end

/-- Settles O26: POPM reads the words at the place where PUSHM has put them. -/
theorem scalarStackRoundTrip : Obligations.ScalarStackRoundTrip := by
  intro f g c s hs _ hg _ bad
  refine ⟨exec_pushm_full, exec_popm_short, exec_popm_poison, fun h hb => ?_, fun h => ?_⟩
  · obtain ⟨hi, hp, -⟩ := popped_frame (s := s) hg
    exact ⟨_, exec_popm h hb, hi, hp, fun j => getS_popped hs hg⟩
  · have ht : Canon (s.pushed f c) := canon_pushed hs h
    obtain ⟨hi, hp, hv, hq, hm⟩ := popped_frame (s := s.pushed f c) hg
    refine ⟨s.pushed f c, (s.pushed f c).popped g c, exec_pushm h, rfl, rfl, rfl, sameBytes_pushed, fun hb => ?_⟩
    refine ⟨exec_popm (Nat.le_add_left ..) (popBad_pushed hb), hi, hp.trans (Nat.add_sub_cancel ..),
      fun j hj => (getS_popped ht hg hj).trans (sstack_pushed hs hj), fun n hn => getS_popped_outside ht hg hn, hv, hq,
      sameBytes_trans sameBytes_pushed hm⟩

end Sys2Proof.Machine
end

section
/-!
PROOF. Operations on the window (R94..R101): how their words answer, and what they do where no transfer is needed; ENTER
(R95, R219).
-/
namespace Sys2Proof.Machine

/-! ### How a window operation answers -/

section
variable {α β : Type} {x : Except Halt α} {f : α → Except Halt β}

theorem needW_ok {ok : Bool} (h : ok = true) (e : FaultInfo) : needW ok e = .ok () := by simp [needW, h]

theorem needW_error {ok : Bool} (h : ok = false) (e : FaultInfo) : needW ok e = .error (.fault e) := by
  simp [needW, h]

theorem halt_bind_ok {a : α} (h : x = .ok a) : (x >>= f) = f a := by rw [h]; rfl

theorem halt_bind_error {e : Halt} (h : x = .error e) : (x >>= f) = .error e := by rw [h]; rfl

/-- A check that holds is passed over. -/
theorem needW_pass {ok : Bool} {e : FaultInfo} {k : Unit → Except Halt β} {r : Except Halt β} (h : ok = true)
    (hk : k () = r) : (needW ok e >>= k) = r := (halt_bind_ok (needW_ok h e)).trans hk

/-- A check that fails is the last. -/
theorem needW_stop {ok : Bool} {e : FaultInfo} {k : Unit → Except Halt β} (h : ok = false) :
    (needW ok e >>= k) = .error (.fault e) := halt_bind_error (needW_error h e)

end

section
variable {s t : State} {r : Except Halt State}

/-- A word answers as its window operation does (R103). -/
def State.answerWindow (s : State) (r : Except Halt State) : Host.Outcome State Fault Refusal :=
  answer s (answerW s s.iss.word r)

/-- The team is Stalled on the spill engine, which the word needs (R103). -/
def State.needsSpill (s : State) : State :=
  (s.withWin { s.team.win with spill := .needed s.iss.word }).stall .spill

theorem answerWindow_ok (h : r = .ok t) : s.answerWindow r = .next t := by rw [h]; rfl

theorem answerWindow_fault {f : FaultInfo} (h : r = .error (.fault f)) : s.answerWindow r = .next (takeFault f s) := by
  rw [h]; rfl

theorem answerWindow_spill (h : r = .error .spill) : s.answerWindow r = .next s.needsSpill := by rw [h]; rfl

/-! ### A frame that is resident -/

/-- Nothing is moved for a range of registers that the ring holds; only counters of events may be written (R101,
R445). -/
theorem makeResident_resident {allow : Bool} {lo hi : Nat} (hlo : s.team.win.lo ≤ lo)
    (hhi : hi ≤ s.team.win.lo + s.blk.k.ring) :
    ∃ a, s.makeResident allow lo hi = .ok { s with amc := a } := by
  unfold State.makeResident
  simp only [Nat.not_lt.mpr hhi, Nat.not_lt.mpr hlo, if_false, List.range_zero, List.map_nil, List.filter_nil,
    List.isEmpty_nil, Bool.not_true, Bool.or_false, Bool.and_false, ne_eq, not_true_eq_false, ite_self, Nat.mul_zero,
    Nat.sub_zero, if_true]
  exact ⟨_, rfl⟩

end

/-! ### Registers that read zero -/

section
variable {α : Type} {d : α} {m : SMap α} {p : Nat × α → Bool} {k : Nat}

theorem smGet_filter_of_dropped (h : ∀ x, p (k, x) = false) : smGet d (m.filter p) k = d := by
  induction m with
  | nil => rfl
  | cons e m ih =>
    obtain ⟨k', x⟩ := e
    by_cases hp : p (k', x) = true
    · have hk : k ≠ k' := fun hk => absurd hp (by simp [← hk, h])
      simp only [List.filter_cons_of_pos hp, smGet, hk, if_false, ih, ite_self]
    · rw [List.filter_cons_of_neg hp, ih]

theorem smGet_filter_of_kept [DecidableEq α] (hm : smWf d m = true) (h : ∀ x, p (k, x) = true) :
    smGet d (m.filter p) k = smGet d m k := by
  induction m with
  | nil => rfl
  | cons e m ih =>
    obtain ⟨k', x⟩ := e
    obtain ⟨-, ha, hm⟩ := smWf_cons.mp hm
    by_cases hp : p (k', x) = true
    · simp only [List.filter_cons_of_pos hp, smGet, ih hm]
    · have hk : k ≠ k' := fun hk => hp (hk ▸ h x)
      rw [List.filter_cons_of_neg hp, ih hm]
      by_cases hlt : k < k'
      · simp only [smGet, hk, hlt, if_false, if_true, smGet_of_smAbove ha (Nat.le_of_lt hlt)]
      · simp only [smGet, hk, hlt, if_false]

end

section
variable {s : State} {lo hi : Nat}

/-- Position `pos` of the register file is one that ENTER zeroes for the absolute registers `lo .. hi - 1` (R92,
R95). -/
def State.Zeroed (s : State) (lo hi pos : Nat) : Prop := ∃ r, lo ≤ r ∧ r < hi ∧ pos = 8 + r % s.blk.k.ring

theorem contains_zeroAbs {pos : Nat} :
    ((List.range (hi - lo)).map fun i => 8 + (lo + i) % s.blk.k.ring).contains pos = true ↔ s.Zeroed lo hi pos := by
  simp only [List.contains_iff_mem, List.mem_map, List.mem_range, State.Zeroed]
  exact ⟨fun ⟨i, hi, h⟩ => ⟨lo + i, by omega, by omega, h.symm⟩,
    fun ⟨r, hl, hh, h⟩ => ⟨r - lo, by omega, by rw [Nat.add_sub_cancel' hl, h]⟩⟩

theorem zeroAbs_v {pos lane : Nat} (hp : s.Zeroed lo hi pos) (hl : lane < 1024) :
    smGet 0 (s.zeroAbs lo hi).team.regs.v (pos * 1024 + lane) = 0 := by
  refine smGet_filter_of_dropped fun _ => ?_
  rw [show (pos * 1024 + lane) / 1024 = pos by omega, contains_zeroAbs.mpr hp]
  rfl

theorem zeroAbs_side {pos g : Nat} (hp : s.Zeroed lo hi pos) (hg : g < 64) :
    smGet 0 (s.zeroAbs lo hi).team.regs.side (pos * 64 + g) = 0 := by
  refine smGet_filter_of_dropped fun _ => ?_
  rw [show (pos * 64 + g) / 64 = pos by omega, contains_zeroAbs.mpr hp]
  rfl

theorem zeroAbs_v_other (hs : Canon s) {pos lane : Nat} (hp : ¬s.Zeroed lo hi pos) (hl : lane < 1024) :
    smGet 0 (s.zeroAbs lo hi).team.regs.v (pos * 1024 + lane) = smGet 0 s.team.regs.v (pos * 1024 + lane) := by
  obtain ⟨hv, -⟩ := storesWf_regs hs
  refine smGet_filter_of_kept hv fun _ => ?_
  rw [show (pos * 1024 + lane) / 1024 = pos by omega, Bool.eq_false_iff.mpr (mt contains_zeroAbs.mp hp)]
  rfl

end

/-! ### ENTER -/

section
variable {s : State} {n : Nat}

theorem exec_enter_windowRange (h : ¬(n ≤ s.blk.k.ring ∧ s.team.win.ov ≤ n)) :
    exec (.enter n) s = .next (takeFault (s.flt .windowRange) s) :=
  answerWindow_fault (halt_bind_error (needW_stop (by simpa using h)))

/-- The granules of the frame fit the spill area, or none are ever spilled (R95, R100). -/
def State.EnterFits (s : State) (n : Nat) : Prop :=
  s.team.win.b + n ≤ s.blk.k.ring ∨
    65536 + (s.team.win.b + n - s.blk.k.ring) / 8 * 36 * s.team.size ≤ s.team.spillSz

theorem exec_enter_windowSpillOverflow (h : n ≤ s.blk.k.ring ∧ s.team.win.ov ≤ n) (hf : ¬s.EnterFits n) :
    exec (.enter n) s = .next (takeFault (s.flt .windowSpillOverflow) s) := by
  refine answerWindow_fault (halt_bind_error (needW_pass (by simpa using h) (needW_stop ?_)))
  simpa [State.EnterFits, not_or] using hf

/-- The state after ENTER, where `a` holds the counters of events. -/
def State.entered (s : State) (n : Nat) (a : Amc) : State :=
  ((({ s with amc := a } : State).zeroAbs (s.team.win.b + s.team.win.fs) (s.team.win.b + n)).slide
    { s.team.win with fs := n }).retireCtl

theorem exec_enter (h : n ≤ s.blk.k.ring ∧ s.team.win.ov ≤ n) (hf : s.EnterFits n)
    (hlo : s.team.win.lo ≤ s.team.win.b) (hhi : s.team.win.b + n ≤ s.team.win.lo + s.blk.k.ring) :
    ∃ a, exec (.enter n) s = .next (s.entered n a) := by
  obtain ⟨a, ha⟩ := makeResident_resident (allow := false) hlo hhi
  have he : s.enterFrame false n = .ok _ := needW_pass (by simpa using h)
    (needW_pass (by simpa [State.EnterFits] using hf) (halt_bind_ok ha))
  exact ⟨a, answerWindow_ok (halt_bind_ok he)⟩

/-- ENTER changes the frame size and what zeroing changes, no more (R95). -/
theorem entered_frame (a : Amc) : tookEffect s (s.entered n a) ∧ (s.entered n a).team.pc = s.nextPc ∧
    (s.entered n a).team.win = ({ s.team.win with fs := n } : Window).trim s.blk.k.ring ∧
    (s.entered n a).team.regs = (s.zeroAbs (s.team.win.b + s.team.win.fs) (s.team.win.b + n)).team.regs ∧
    (s.entered n a).team.lanes = s.team.lanes ∧ sameBytes s (s.entered n a) :=
  ⟨rfl, rfl, rfl, rfl, rfl, sameBytes_goTo (sameBytes_trans (sameBytes_amc s a) (sameBytes_team _ _)) _⟩

end

/-- Settles O23: with the frame resident ENTER moves nothing, and zeroing takes the positions of the registers
gained. -/
theorem enterDeclaresFrame : Obligations.EnterDeclaresFrame := by
  intro n s w ring
  refine ⟨exec_enter_windowRange, fun h h' hb hf => exec_enter_windowSpillOverflow ⟨h, h'⟩ ?_,
    fun h h' hf hlo hhi => ?_⟩
  · exact not_or.mpr ⟨Nat.not_le.mpr hb, Nat.not_le.mpr hf⟩
  · obtain ⟨a, ha⟩ := exec_enter ⟨h, h'⟩ hf hlo hhi
    obtain ⟨hi, hpc, hw, hr, hl, hm⟩ := entered_frame (s := s) (n := n) a
    refine ⟨_, ha, hi, hpc, hw, ?_⟩
    rw [hr, hl]
    exact ⟨fun r lane hlo hhi => zeroAbs_v ⟨r, hlo, hhi, rfl⟩,
      fun r g hlo hhi => zeroAbs_side ⟨r, hlo, hhi, rfl⟩,
      fun pos lane hp hlane hs => zeroAbs_v_other hs (fun ⟨r, hlo, hhi, he⟩ => hp r hlo hhi he) hlane,
      rfl, rfl, rfl, hm⟩

end Sys2Proof.Machine
end

section
/-!
PROOF. CALL, CALLS, CALLI and RET (R94, R96, R98, R99, R107..R109, R215, R218): the checks of call_common in their
order, the links, and the targets of CALLI.
-/
namespace Sys2Proof.Machine

/-! ### The checks of call_common (R94) -/

section
variable {s : State} {i : Instr} {tgt : Word32} {l : Nat} {passed : Prop}

/-- What the checks of call_common make of word `i` with slide `l` to `tgt`: the fault of the first that fails, and
`passed` where none does (R94). -/
def CallChecked (s : State) (i : Instr) (tgt : Word32) (l : Nat) (passed : Prop) : Prop :=
  let w := s.team.win
  (l = 15 → exec i s = .next (takeFault (s.flt .illegalInstruction) s)) ∧
  (l ≠ 15 → w.fs < 8 * l → exec i s = .next (takeFault (s.flt .windowRange) s)) ∧
  (l ≠ 15 → 8 * l ≤ w.fs → w.depth = s.blk.k.maxDepth →
    exec i s = .next (takeFault (s.flt .windowDepth) s)) ∧
  (l ≠ 15 → 8 * l ≤ w.fs → w.depth ≠ s.blk.k.maxDepth →
    (tgt.toNat % 4 ≠ 0 → exec i s = .next (takeFault (s.fltAt .align 0 (BitVec.ofNat 64 tgt.toNat)) s)) ∧
    (tgt.toNat % 4 = 0 → inUpperCopy s.blk.k.planes tgt.toNat = true →
      exec i s = .next (takeFault (s.flt .planeRange) s)) ∧
    (tgt.toNat % 4 = 0 → inUpperCopy s.blk.k.planes tgt.toNat = false →
      (16 ≤ w.depth → s.team.spillSz = 0 → exec i s = .next (takeFault (s.flt .windowSpillOverflow) s)) ∧
      (¬(16 ≤ w.depth ∧ s.team.spillSz = 0) → passed)))

theorem callChecked {k : Unit → Except Halt State} (h : exec i s = s.answerWindow (s.callChecks tgt l >>= k))
    (hp : s.callChecks tgt l = .ok () → passed) : CallChecked s i tgt l passed := by
  have stop {f : FaultInfo} (hc : s.callChecks tgt l = .error (.fault f)) : exec i s = .next (takeFault f s) :=
    h.trans (answerWindow_fault (halt_bind_error hc))
  refine ⟨fun hl => stop ?_, fun hl hf => stop ?_, fun hl hf hd => stop ?_, fun hl hf hd => ⟨fun ha => stop ?_,
    fun ha ht => stop ?_, fun ha ht => ⟨fun h16 hz => stop ?_, fun hz => hp ?_⟩⟩⟩
  · exact needW_stop (by simpa using hl)
  · exact needW_pass (decide_eq_true hl) (needW_stop (by simpa using hf))
  · exact needW_pass (decide_eq_true hl) (needW_pass (decide_eq_true hf) (needW_stop (by simpa using hd)))
  · exact needW_pass (decide_eq_true hl) (needW_pass (decide_eq_true hf) (needW_pass (decide_eq_true hd)
      (needW_stop (by simpa using ha))))
  · exact needW_pass (decide_eq_true hl) (needW_pass (decide_eq_true hf) (needW_pass (decide_eq_true hd)
      (needW_pass (decide_eq_true ha) (needW_stop (targetOk_false ht)))))
  · exact needW_pass (decide_eq_true hl) (needW_pass (decide_eq_true hf) (needW_pass (decide_eq_true hd)
      (needW_pass (decide_eq_true ha) (needW_pass (targetOk_true ht) (needW_error (by simp [h16, hz]) _)))))
  · exact needW_pass (decide_eq_true hl) (needW_pass (decide_eq_true hf) (needW_pass (decide_eq_true hd)
      (needW_pass (decide_eq_true ha) (needW_pass (targetOk_true ht)
        (needW_ok (by simpa [imp_iff_not_or] using hz) _)))))

end

/-! ### The links (R98, R99) -/

section
variable {s : State} {allow calli : Bool} {tgt ret tv : Word32} {l : Nat}

/-- The link record of a call from the state as it stands (R98). -/
def State.linkRec (s : State) (l : Nat) (ret : Word32) (calli : Bool) (tv : Word32) : LinkRec :=
  { retOff := ret, k := 8 * l, cfs := s.team.win.fs, cov := s.team.win.ov, jd := s.team.lanes.stack.length
    calli := calli, tv := tv }

/-- The window of the frame called, with link `r` on top (R94). -/
def Window.called (w : Window) (r : LinkRec) : Window :=
  { w with depth := w.depth + 1, b := w.b + r.k, fs := w.fs - r.k, ov := w.fs - r.k, links := r :: w.links }

/-- The frame that link `r` is pushed for, at its target. -/
def State.calledAt (s : State) (tgt : Word32) (r : LinkRec) : State :=
  let t := s.slide (s.team.win.called r)
  { t with team := { t.team with pc := tgt } }

/-- What a call leaves: it moves no register and no lane. -/
theorem calledAt_goOn (s : State) (tgt : Word32) (r : LinkRec) : tookEffect s (s.calledAt tgt r).goOn ∧
    (s.calledAt tgt r).goOn.team.pc = tgt ∧
    (s.calledAt tgt r).goOn.team.win = (s.team.win.called r).trim s.blk.k.ring ∧
    (s.calledAt tgt r).goOn.team.regs = s.team.regs ∧ (s.calledAt tgt r).goOn.team.lanes = s.team.lanes ∧
    sameBytes s (s.calledAt tgt r).goOn :=
  ⟨rfl, rfl, rfl, rfl, rfl, sameBytes_goTo (sameBytes_team s _) _⟩

theorem callEffect_room (h : s.team.win.links.length < 16) :
    s.callEffect allow tgt l ret calli tv = .ok (s.calledAt tgt (s.linkRec l ret calli tv)) :=
  halt_bind_ok (if_pos h)

theorem callEffect_full (h : 16 ≤ s.team.win.links.length) : s.callEffect false tgt l ret calli tv = .error .spill :=
  halt_bind_error (if_neg (Nat.not_lt.mpr h))

/-- A call whose link finds no place on chip leaves all but its wait for the spill engine as it was. -/
theorem needsSpill_frame : s.needsSpill.team.phase = .stalled .spill ∧ s.needsSpill.team.pc = s.team.pc ∧
    s.needsSpill.team.regs = s.team.regs ∧ s.needsSpill.team.lanes = s.team.lanes ∧ sameBytes s s.needsSpill :=
  ⟨rfl, rfl, rfl, rfl, sameBytes_of_stores rfl rfl rfl rfl rfl⟩

end

/-! ### CALL and CALLS (R94, R107) -/

section
variable {s : State} {i : Instr} {tgt : Word32} {l : Nat}

/-- The clauses of CALL and CALLS behind the checks. -/
def Called (s : State) (i : Instr) (tgt : Word32) (l : Nat) : Prop :=
  (s.team.win.links.length < 16 → ∃ t, exec i s = .next t ∧ tookEffect s t ∧ t.team.pc = tgt
    ∧ t.team.win = (s.team.win.called (s.linkRec l (s.team.pc + 4) false 0)).trim s.blk.k.ring
    ∧ t.team.regs = s.team.regs ∧ t.team.lanes = s.team.lanes ∧ sameBytes s t) ∧
  (16 ≤ s.team.win.links.length → ∃ t, exec i s = .next t ∧ t.team.phase = .stalled .spill
    ∧ t.team.pc = s.team.pc ∧ t.team.regs = s.team.regs ∧ t.team.lanes = s.team.lanes ∧ sameBytes s t)

theorem callChecked_called (h : exec i s = s.answerWindow (s.opCall false tgt l)) :
    CallChecked s i tgt l (Called s i tgt l) := by
  refine callChecked h fun hc => ?_
  have he := h.trans (congrArg s.answerWindow (halt_bind_ok hc))
  refine ⟨fun hr => ⟨_, he.trans (answerWindow_ok (halt_bind_ok (callEffect_room hr))), calledAt_goOn ..⟩,
    fun hf => ⟨_, he.trans (answerWindow_spill (halt_bind_error (callEffect_full hf))), needsSpill_frame⟩⟩

theorem relTarget_call (o : Nat) : s.relTarget o 21 = s.team.pc + ((BitVec.ofNat 21 o).signExtend 32 <<< 2) := by
  rw [State.relTarget, ofInt_four_mul_sextInt o (by decide)]

end

/-! ### RET (R96, R109, R215) -/

section
variable {s : State} {lk : LinkRec} {ls : List LinkRec}

theorem exec_ret_windowDepth (h : s.team.win.depth = 0) :
    exec .ret s = .next (takeFault (s.flt .windowDepth) s) :=
  answerWindow_fault (halt_bind_error (needW_stop (by simpa using h)))

theorem topLink_cons {allow : Bool} (hl : s.team.win.links = lk :: ls) : s.topLink allow = .ok (lk, s) := by
  unfold State.topLink
  rw [hl]

theorem endRoutine_of_none {t : Team} (hs : t.pre.saving = none) (hr : t.pre.restoring = none) : t.endRoutine = t := by
  simp [Team.endRoutine, hs, hr]

/-- The window that a return through link `lk` restores (R96, R109). -/
def Window.returned (w : Window) (lk : LinkRec) : Window :=
  { w with b := w.b - lk.k, fs := lk.cfs, ov := lk.cov, depth := w.depth - 1, links := w.links.tail
           cont := w.cont || lk.calli, contLast := if lk.calli then lk.tv else w.contLast }

/-- The state after RET through link `lk`, where `a` holds the counters of events. -/
def State.returned (s : State) (lk : LinkRec) (a : Amc) : State :=
  let t := ({ s with amc := a } : State).slide (s.team.win.returned lk)
  ({ t with team := { t.team with pc := lk.retOff } } : State).goOn

/-- RET moves no register and no lane. -/
theorem returned_frame (s : State) (lk : LinkRec) (a : Amc) : tookEffect s (s.returned lk a) ∧
    (s.returned lk a).team.pc = lk.retOff ∧
    (s.returned lk a).team.win = (s.team.win.returned lk).trim s.blk.k.ring ∧
    (s.returned lk a).team.regs = s.team.regs ∧ (s.returned lk a).team.lanes = s.team.lanes ∧
    sameBytes s (s.returned lk a) :=
  ⟨rfl, rfl, rfl, rfl, rfl, sameBytes_goTo (sameBytes_trans (sameBytes_amc s a) (sameBytes_team _ _)) _⟩

section
variable (hl : s.team.win.links = lk :: ls) (hd : s.team.win.depth ≠ 0)
include hl hd

theorem exec_ret_joinStack (hj : s.team.lanes.stack.length ≠ lk.jd) :
    exec .ret s = .next (takeFault (s.flt .joinStack) s) :=
  answerWindow_fault (halt_bind_error (needW_pass (decide_eq_true hd)
    ((halt_bind_ok (topLink_cons hl)).trans (needW_stop (decide_eq_false hj)))))

theorem exec_ret_planeRange (hj : s.team.lanes.stack.length = lk.jd)
    (ht : inUpperCopy s.blk.k.planes lk.retOff.toNat = true) :
    exec .ret s = .next (takeFault (s.flt .planeRange) s) :=
  answerWindow_fault (halt_bind_error (needW_pass (decide_eq_true hd)
    ((halt_bind_ok (topLink_cons hl)).trans (needW_pass (decide_eq_true hj) (needW_stop (targetOk_false ht))))))

theorem exec_ret (hj : s.team.lanes.stack.length = lk.jd) (ht : inUpperCopy s.blk.k.planes lk.retOff.toNat = false)
    (hlo : s.team.win.lo ≤ s.team.win.b - lk.k) (hhi : s.team.win.b - lk.k + lk.cfs ≤ s.team.win.lo + s.blk.k.ring)
    (hs : s.team.pre.saving = none) (hr : s.team.pre.restoring = none) :
    ∃ a, exec .ret s = .next (s.returned lk a) := by
  obtain ⟨a, ha⟩ := makeResident_resident (allow := false) hlo hhi
  have he : s.retFrame false = .ok _ := needW_pass (decide_eq_true hd) ((halt_bind_ok (topLink_cons hl)).trans
    (needW_pass (decide_eq_true hj) (needW_pass (targetOk_true ht) (halt_bind_ok ha))))
  rw [endRoutine_of_none (by exact hs) (by exact hr)] at he
  exact ⟨a, answerWindow_ok (halt_bind_ok he)⟩

end

end

/-! ### The targets of CALLI (R108) -/

/-- The lesser of the least target so far and one more. -/
def keepLeast (m : Option Word32) (x : Word32) : Option Word32 :=
  match m with
  | none => some x
  | some y => if x.toNat < y.toNat then some x else some y

section
variable {last : Option Word32} {xs : List Word32} {tgt : Word32}

theorem nextTarget_eq (last : Option Word32) (xs : List Word32) :
    nextTarget last xs = (xs.filter fun x => last.all fun y => y.toNat < x.toNat).foldl keepLeast none := rfl

theorem keepLeast_or (m : Option Word32) (x : Word32) : keepLeast m x = some x ∨ keepLeast m x = m := by
  unfold keepLeast
  split
  · exact .inl rfl
  · split <;> simp

/-- A value at most any other that is met stays the least one. -/
theorem keepLeast_of_le {m : Option Word32} {x : Word32} (hx : tgt.toNat ≤ x.toNat)
    (hm : ∀ y ∈ m, tgt.toNat ≤ y.toNat) (h : tgt = x ∨ m = some tgt) : keepLeast m x = some tgt := by
  unfold keepLeast
  obtain rfl | rfl := h
  · split
    · rfl
    · next y =>
      have hy := hm y rfl
      split
      · rfl
      · exact congrArg some (BitVec.eq_of_toNat_eq (by omega))
  · exact if_neg (Nat.not_lt.mpr hx)

theorem foldl_keepLeast {m : Option Word32} (hx : ∀ x ∈ xs, tgt.toNat ≤ x.toNat)
    (hm : ∀ y ∈ m, tgt.toNat ≤ y.toNat) (h : tgt ∈ xs ∨ m = some tgt) : xs.foldl keepLeast m = some tgt := by
  induction xs generalizing m with
  | nil => exact h.resolve_left List.not_mem_nil
  | cons x xs ih =>
    rw [List.forall_mem_cons] at hx
    rw [List.mem_cons, or_right_comm] at h
    refine ih hx.2 (fun y hy => ?_) (h.symm.imp id (keepLeast_of_le hx.1 hm))
    obtain hk | hk := keepLeast_or m x <;> rw [hk] at hy
    · exact Option.some.inj hy ▸ hx.1
    · exact hm y hy

theorem nextTarget_eq_some (hm : tgt ∈ xs) (hl : ∀ y ∈ last, y.toNat < tgt.toNat)
    (hmin : ∀ x ∈ xs, (∀ y ∈ last, y.toNat < x.toNat) → tgt.toNat ≤ x.toNat) :
    nextTarget last xs = some tgt := by
  have hf (x : Word32) : x ∈ xs.filter (fun x => last.all fun y => y.toNat < x.toNat) ↔
      x ∈ xs ∧ ∀ y ∈ last, y.toNat < x.toNat := by
    simp [List.mem_filter, Option.all_eq_true]
  rw [nextTarget_eq]
  refine foldl_keepLeast (fun x hx => ?_) (fun y hy => nomatch hy) (.inl ((hf tgt).mpr ⟨hm, hl⟩))
  exact hmin x ((hf x).mp hx).1 ((hf x).mp hx).2

theorem nextTarget_eq_none {y : Word32} (h : ∀ x ∈ xs, x.toNat ≤ y.toNat) : nextTarget (some y) xs = none := by
  rw [nextTarget_eq, List.filter_eq_nil_iff.mpr fun x hx => by simpa using h x hx]
  rfl

end

theorem getLsbD_maskOf (n : Nat) (f : Nat → Bool) {i : Nat} (hi : i < 1024) :
    (maskOf n f).getLsbD i = (decide (i < n) && f i) := by
  induction n with
  | zero => simp [maskOf]
  | succ n ih =>
    unfold maskOf at ih ⊢
    rw [List.range_succ, List.foldl_append]
    have hb : (laneBit n).getLsbD i = decide (n = i) := by
      rw [laneBit, BitVec.getLsbD_ofNat, decide_eq_true hi, Nat.testBit_two_pow, Bool.true_and]
    simp only [List.foldl_cons, List.foldl_nil]
    by_cases hf : f n = true
    · rw [if_pos hf, BitVec.getLsbD_or, ih, hb]
      grind
    · rw [if_neg hf, ih]
      grind

section
variable {s : State} {a l : Nat} {tgt : Word32}

/-- The lanes that CALLI takes its targets from: the J entry's on its way back, else the active ones. -/
def State.calliMask (s : State) : Mask :=
  if s.team.win.cont then ((s.team.lanes.stack.head?).map StackEntry.mask).getD 0 else s.team.lanes.active

/-- The reconvergence stack below CALLI's J entry. -/
def State.calliBelow (s : State) : List StackEntry :=
  if s.team.win.cont then s.team.lanes.stack.tail else s.team.lanes.stack

/-- The least target of CALLI's lanes above CONTLAST. -/
def State.calliTarget (s : State) (a : Nat) : Option Word32 :=
  nextTarget (if s.team.win.cont then some s.team.win.contLast else none)
    ((lanesOf s.team.size s.calliMask).map (s.getV a))

/-- CALLI reads its register: on its way back whatever register it is, else one of the frame it passes on (R108). -/
def State.CalliReads (s : State) (l a : Nat) : Prop := s.team.win.cont = true ∨ 8 ≤ a ∧ a < 8 + 8 * l

/-- The lanes that hold `tgt` are active, and the J entry of the others stands on the stack (R108). -/
def State.calliSplit (s : State) (a : Nat) (tgt : Word32) : State :=
  (s.withLanes { s.team.lanes with
    active := maskOf s.team.size (fun i => s.calliMask.getLsbD i && s.getV a i = tgt)
    stack := ⟨true, s.team.pc + 4, s.calliMask⟩ :: s.calliBelow }).withWin { s.team.win with cont := false }

theorem exec_calli_windowRange (hc : s.team.win.cont = false) (ha : ¬(8 ≤ a ∧ a < 8 + 8 * l)) :
    exec (.calli l a) s = .next (takeFault (s.flt .windowRange) s) := by
  refine answerWindow_fault (needW_stop ?_)
  simpa [hc] using ha

theorem exec_calli_target (hr : s.CalliReads l a) (ht : s.calliTarget a = some tgt) :
    exec (.calli l a) s = s.answerWindow (s.callChecks tgt l >>= fun _ =>
      needW (s.team.win.cont || s.team.lanes.stack.length < 32) (s.flt .joinStack) >>= fun _ =>
      (s.calliSplit a tgt).callEffect false tgt l s.team.pc true tgt >>= fun t => pure t.goOn) := by
  refine congrArg s.answerWindow (needW_pass (by simpa [State.CalliReads] using hr) ?_)
  unfold State.calliTarget State.calliMask at ht
  dsimp only
  rw [ht]
  rfl

section
variable (hr : s.CalliReads l a) (ht : s.calliTarget a = some tgt) (hc : s.callChecks tgt l = .ok ())
include hr ht hc

theorem exec_calli_joinStack (hn : s.team.win.cont = false) (hf : 32 ≤ s.team.lanes.stack.length) :
    exec (.calli l a) s = .next (takeFault (s.flt .joinStack) s) :=
  (exec_calli_target hr ht).trans (answerWindow_fault ((halt_bind_ok hc).trans (needW_stop (by simpa [hn] using hf))))

theorem exec_calli_full (hn : s.team.win.cont = true ∨ s.team.lanes.stack.length < 32)
    (hf : 16 ≤ s.team.win.links.length) : exec (.calli l a) s = .next s.needsSpill :=
  (exec_calli_target hr ht).trans (answerWindow_spill ((halt_bind_ok hc).trans
    (needW_pass (by simpa using hn) (halt_bind_error (callEffect_full hf)))))

theorem exec_calli_calls (hn : s.team.win.cont = true ∨ s.team.lanes.stack.length < 32)
    (hf : s.team.win.links.length < 16) : exec (.calli l a) s =
      .next ((s.calliSplit a tgt).calledAt tgt ((s.calliSplit a tgt).linkRec l s.team.pc true tgt)).goOn :=
  (exec_calli_target hr ht).trans (answerWindow_ok ((halt_bind_ok hc).trans
    (needW_pass (by simpa using hn) (halt_bind_ok (callEffect_room hf)))))

end

theorem exec_calli_done (hr : s.CalliReads l a) (ht : s.calliTarget a = none)
    (hc : s.team.win.cont = true) (hm : s.calliMask ≠ 0) :
    exec (.calli l a) s = .next (({ s with team := { s.team with
      lanes := { s.team.lanes with active := s.calliMask, stack := s.calliBelow }
      win := { s.team.win with cont := false }
      pc := s.team.pc + 4 } } : State).goOn) := by
  refine answerWindow_ok (needW_pass (by simpa [State.CalliReads] using hr) ?_)
  unfold State.calliTarget State.calliMask at ht
  dsimp only
  rw [ht]
  refine needW_pass (by simp [hc]) ?_
  have he {v : State} {n : Nat} (hv : v.team.lanes.active = s.calliMask) : v.emptied false (n + 1) = .ok v :=
    emptied_of_active (hv ▸ hm)
  split
  · next t h =>
    cases (he rfl).symm.trans h
    rfl
  · next f h => exact nomatch (he rfl).symm.trans h
  · next h => exact nomatch (he rfl).symm.trans h

/-- CALLI's lanes and the stack below its J entry, on its first issue and on its way back. -/
def State.CalliFrom (s : State) (l a : Nat) (m : Mask) (below : List StackEntry) : Prop :=
  s.team.win.cont = false ∧ 8 ≤ a ∧ a < 8 + 8 * l ∧ m = s.team.lanes.active ∧ below = s.team.lanes.stack
    ∨ s.team.win.cont = true ∧ ∃ e, s.team.lanes.stack = e :: below ∧ m = e.mask

section
variable {m : Mask} {below : List StackEntry} (h : s.CalliFrom l a m below)
include h

theorem State.CalliFrom.reads : s.CalliReads l a := by
  obtain ⟨-, h8, ha, -⟩ | ⟨hc, -⟩ := h
  · exact .inr ⟨h8, ha⟩
  · exact .inl hc

theorem State.CalliFrom.mask_eq : s.calliMask = m := by
  unfold State.calliMask
  obtain ⟨hc, -, -, hm, -⟩ | ⟨hc, e, hs, hm⟩ := h
  · simp [hc, hm]
  · simp [hc, hs, hm]

theorem State.CalliFrom.below_eq : s.calliBelow = below := by
  unfold State.calliBelow
  obtain ⟨hc, -, -, -, hb⟩ | ⟨hc, e, hs, -⟩ := h
  · simp [hc, hb]
  · simp [hc, hs]

/-- The least target above CONTLAST among the lanes is the one that is called next. -/
theorem State.CalliFrom.target_eq (hx : ∃ lane, lane < s.team.size ∧ m.getLsbD lane = true ∧ s.getV a lane = tgt)
    (hl : s.team.win.cont = true → s.team.win.contLast.toNat < tgt.toNat)
    (hmin : ∀ lane, lane < s.team.size → m.getLsbD lane = true →
      (s.team.win.cont = true → s.team.win.contLast.toNat < (s.getV a lane).toNat) →
      tgt.toNat ≤ (s.getV a lane).toNat) : s.calliTarget a = some tgt := by
  have last (x : Word32) : (∀ y ∈ if s.team.win.cont then some s.team.win.contLast else none, y.toNat < x.toNat) ↔
      (s.team.win.cont = true → s.team.win.contLast.toNat < x.toNat) := by
    cases s.team.win.cont <;> simp
  unfold State.calliTarget
  rw [h.mask_eq]
  refine nextTarget_eq_some ?_ ((last tgt).mpr hl) fun x hx hgt => ?_
  · obtain ⟨lane, hlt, hm, rfl⟩ := hx
    exact List.mem_map_of_mem (mem_lanesOf.mpr ⟨hlt, hm⟩)
  · obtain ⟨lane, hlane, rfl⟩ := List.mem_map.mp hx
    obtain ⟨hlt, hm⟩ := mem_lanesOf.mp hlane
    exact hmin lane hlt hm ((last _).mp hgt)

end

/-- The lanes that CALLI calls are those that hold the target. -/
theorem active_calliSplit {lane : Nat} (hl : lane < s.team.size) : (s.calliSplit a tgt).team.lanes.active.getLsbD lane =
    (s.calliMask.getLsbD lane && s.getV a lane == tgt) := by
  by_cases h : lane < 1024
  · refine (getLsbD_maskOf _ _ h).trans ?_
    rw [decide_eq_true hl, Bool.true_and]
    rfl
  · rw [BitVec.getLsbD_of_ge _ _ (Nat.not_lt.mp h), BitVec.getLsbD_of_ge _ _ (Nat.not_lt.mp h), Bool.false_and]

end

/-- Settles O22: the checks of call_common decide before the links do, and CALLI comes to them with its least target. -/
theorem callsAndReturns : Obligations.CallsAndReturns := by
  intro l a o s w k link called checks waits word
  refine ⟨?_, callChecked_called rfl, exec_ret_windowDepth, fun lk ls hl hd => ⟨exec_ret_joinStack hl hd,
    exec_ret_planeRange hl hd, fun hj ht hlo hhi hs hr => ?_⟩, exec_calli_windowRange,
    fun m below tgt h hx hlast hmin => ?_, fun hc e below hs he hle => ?_⟩
  · have hc : CallChecked s (.call l o) _ l _ := callChecked_called rfl
    rwa [relTarget_call] at hc
  · obtain ⟨a, ha⟩ := exec_ret hl hd hj ht hlo hhi hs hr
    obtain ⟨hi, hpc, hw, hkept⟩ := returned_frame s lk a
    refine ⟨_, ha, hi, hpc, hw.trans ?_, hkept⟩
    rw [Window.returned, hl]
    rfl
  · have h : s.CalliFrom l a m below := h
    have ht := h.target_eq hx hlast hmin
    refine callChecked (exec_calli_target h.reads ht) fun hk => ⟨exec_calli_joinStack h.reads ht hk,
      fun hn => ⟨fun hf => ⟨_, exec_calli_full h.reads ht hk hn hf, needsSpill_frame⟩, fun hf => ?_⟩⟩
    obtain ⟨hi, hpc, hw, hr, hlanes, -⟩ := calledAt_goOn (s.calliSplit a tgt) tgt
      ((s.calliSplit a tgt).linkRec l s.team.pc true tgt)
    refine ⟨_, exec_calli_calls h.reads ht hk hn hf, hi, hpc, ?_⟩
    rw [hw, hr, hlanes, ← h.mask_eq, ← h.below_eq]
    exact ⟨rfl, fun lane => active_calliSplit, rfl, rfl, rfl, rfl, rfl, rfl, rfl⟩
  · have h : s.CalliFrom l a e.mask below := .inr ⟨hc, e, hs, rfl⟩
    have ht : s.calliTarget a = none := by
      unfold State.calliTarget
      rw [h.mask_eq, if_pos hc]
      refine nextTarget_eq_none fun x hx => ?_
      obtain ⟨lane, hlane, rfl⟩ := List.mem_map.mp hx
      obtain ⟨hlt, hm⟩ := mem_lanesOf.mp hlane
      exact hle lane hlt hm
    refine ⟨_, exec_calli_done h.reads ht hc (h.mask_eq ▸ he), rfl, rfl, ?_, rfl⟩
    rw [← h.mask_eq, ← h.below_eq]
    rfl

end Sys2Proof.Machine
end

section
/-!
PROOF. Words and the rows they match (R172, R185..R191): what every row satisfies holds of whatever a word decodes to, and the fields
of a word, one below the other, add up to it. From bytes to words and back, alone and in pairs (R170, R179).
-/
namespace Sys2Proof.Laws

open Sys2Proof

/-! ### The rows of the table -/

/-- `P` holds of the instruction that a row of the table reads, if it reads one. -/
def OfRow (P : Instr → Prop) (r : Option Instr) : Prop := ∀ i, r = some i → P i

section
variable {P : Instr → Prop} {i : Instr} {r : Option Instr}

theorem OfRow.none : OfRow P none := nofun

theorem OfRow.some (h : P i) : OfRow P (some i) := by
  rintro _ ⟨⟩
  exact h

/-- A row that is tried, and the rows behind it. -/
theorem OfRow.ite {c : Prop} [Decidable c] (hr : OfRow P r) (h : c → P i) :
    OfRow P (if c then Option.some i else r) := by
  split
  · next hc => exact .some (h hc)
  · exact hr

end

/-! ### Fields as differences -/

/-- The low `k` bits of a word, as an integer: each field of the word, in its place, is the difference of two of these. -/
def lowBits (w k : Nat) : Int := (w % 2 ^ k : Nat)

section
variable {w lo n k f : Nat}

theorem lowBits_zero : lowBits w 0 = 0 := by simp [lowBits, Nat.mod_one]

theorem field_mul_pow {c : Int} (h : c = 2 ^ lo) : field w lo n * c = lowBits w (lo + n) - lowBits w lo := by
  unfold lowBits
  rw [Nat.pow_add, Nat.mod_mul, h]
  push_cast
  ring

theorem field_zero : (field w 0 n : Int) = lowBits w n := by simp [lowBits]

theorem field_eq_iff : field w lo n = f ↔ lowBits w (lo + n) - lowBits w lo = f * 2 ^ lo := by
  rw [← field_mul_pow rfl, mul_left_inj' (by positivity), Nat.cast_inj]

theorem div_pow_eq_iff : w / 2 ^ k = f ↔ (w : Int) = f * 2 ^ k + lowBits w k := by
  have h : (w : Int) = (w / 2 ^ k : Nat) * 2 ^ k + lowBits w k := by
    unfold lowBits
    exact_mod_cast (Nat.div_add_mod' w (2 ^ k)).symm
  rw [← Nat.cast_inj (R := Int), ← mul_left_inj' (pow_ne_zero k (two_ne_zero (α := Int))), ← add_left_inj (lowBits w k), ← h]

end

/-! ### What a word is read as -/

/-- The encoder writes a word for whatever the decoder reads from it: OP, operands and fixed fields leave no bit out. -/
theorem encodeWord_of_matchRow {w : Nat} : OfRow (fun i => encodeWord i = some w) (matchRow w) := by
  unfold matchRow
  delta matchRow0 matchRow1 matchRow2 matchRow3 matchRow4 matchRow5 matchRow6 matchRow7 matchRow8 matchRow9 matchRow10
    matchRow11 matchRow12 matchRow13 matchRow14 matchRow15
  split
  any_goals
    clear *-
    split
  all_goals repeat refine .ite ?_ fun h => congrArg some ?_
  any_goals exact OfRow.none
  any_goals refine OfRow.some (congrArg some ?_)
  -- left are the words, row by row, each as a sum of its fields
  all_goals
    simp (disch := decide) only [field_eq_iff, div_pow_eq_iff, ← Nat.cast_inj (R := Int) (n := w), Nat.cast_add, Nat.cast_mul,
      Nat.cast_ofNat, Nat.cast_zero, Nat.cast_one, field_mul_pow, field_zero, lowBits_zero, Nat.reduceAdd, Int.reducePow,
      Int.reduceMul] at *
    omega

/-- A word takes a PREFIX word before it exactly if its OP is one of R180. -/
theorem takesPrefix_of_matchRow {w : Nat} : OfRow (fun i => takesPrefix i = prefixOp (w / 2 ^ 25)) (matchRow w) := by
  unfold matchRow
  delta matchRow0 matchRow1 matchRow2 matchRow3 matchRow4 matchRow5 matchRow6 matchRow7 matchRow8 matchRow9 matchRow10
    matchRow11 matchRow12 matchRow13 matchRow14 matchRow15
  split
  any_goals
    clear *-
    split
  any_goals exact OfRow.none
  all_goals
    rw [‹w / 2 ^ 25 = _›]
    repeat refine .ite ?_ fun _ => rfl
  any_goals exact OfRow.none
  all_goals exact OfRow.some rfl

theorem decodeWord_eq_ok {w : Nat} {i : Instr} : decodeWord w = .ok i ↔ matchRow w = some i ∧ i.WellFormed := by
  unfold decodeWord Instr.WellFormed
  constructor
  · intro h
    split at h
    · cases h
    · split at h
      · cases h
        exact ⟨‹_›, ‹_›⟩
      · cases h
  · rintro ⟨hm, hi⟩
    simp only [hm, hi]

/-- Settles O2: the word is that of the row it matches, and the decoder has checked the instruction. -/
theorem decodedWordReencodes : Obligations.DecodedWordReencodes := by
  intro w i _ h
  obtain ⟨hm, hwf⟩ := decodeWord_eq_ok.mp h
  exact ⟨hwf, encodeWord_of_matchRow i hm⟩

/-- The word of every instruction matches the row that reads it back. -/
theorem Encoding.holds (i : Instr) : Encoding.Statement i :=
  open Encoding in
  i.casesOn
    yield trap mode fenceRel fenceAcq fenceAr conv enter barSync barArrive barWait setj bru brm eject jmp call calli
    jmpi calls plset plsetConst plsel plocc srd swr swrMode swrSticky swrSsp swrTrapoff pushm popm cbara cbarw pbara
    pbwait leave psrd pswr pswrFqhead fdactRestart fdactEnd fdactRespill tlbiPage tlbiRegion sadd ssub smul smulh sdiv
    sdivu srem sremu sand sor sxor sandn sshl sshr ssra srotr smin smax sminu smaxu sslt ssltu sseq ssne ssel sselz
    spopc sclz sctz sbrev saddi sandi sori sxori sshli sshri ssrai sslti sli slui sld64 sld32 sst64 sst32 vld8 vld16
    vld32 vld64 vldb vst8 vst16 vst32 vst64 vstb vatom satom sptest spcast vsptest vspcast prefL1 prefL2 cctlL1line
    cctlL2evict vadd vsub vmul vmulh vmin vmax vabsd vdiv vrem vfma vfms vfnma vaddsat vsubsat vavg vcopysign vand vor
    vxor vandn vshl vshr vsra vrotr vaddi vmuli vandi vori vshli vshri vsrai vrotri vmovi vmov vneg vabs vnot vpopc vclz
    vsext8 vsext16 vrcp vrsq vsqrt vexp2 vlog2 vsin vcos vtanh vcvt vadds vmuls vfmas vmins vmaxs vbcast vshls vshrs
    vcmp vcmps vsel pand por pxor pandn pnot pset pclr pmov vshfl vshflTeam vred vscan vball vnzs visect vbmax vscsel
    vqnt vdq vpack vunpk vreq vhist spctl vlane vsideRd vsideWr xcntSet xcntAdd tclm tclmTry trel aclm aclmTry arel
    tldDense tldDec tldPcs tst mma mmaZ mmas ardr ardc awrr awrc trdr trdc twrr twrc azero aqnt tinfo xcpy xcpyPair
    xgath xscat xpub xpubSync xwait xwaitTest nsend nsendImm tsend cred xflush prefixedInstruction ill nop exit texit
    refill join disb ret uret tret haltc cctlL1all ejectRecordWrite claimGrant loadDataReturn matrixStepDone spillAhead
    engineCommandStart engineCommandComplete engineSuspend faultRecordWrite handlerLaunch yieldOverrun barrierTimeout
    blockPlace clusterPlace blockRelease placementStarvation launchComplete doorbellWrite launch tapePop graph tableLoad
    tableDisable copy signalSet signalAdd signalWait signalStore regionCreate regionModify regionDestroy regionBind
    tableFiring teamResume leaveWindow coreGroupSwapOut coreGroupSwapIn haltRelease storageError publishEntryStore
    hostRdmaWrite hostRdmaRead remoteWriteUnit remoteRead remoteIncrement peerRefusal flushMarker flushAck pathDown
    peerPathLoss portTraining ptpMessage powerOnReset resetRequest floorCommand firmwareUpdate attestationRequest
    eventLogRead counterProgram counterRead sensorPoll spillTransferComplete tileTransferComplete publishSyncCopy

/-! ### Bytes -/

theorem bytesWord_wordBytes {w : Nat} (h : w < 4294967296) :
    bytesWord (leByte w 0) (leByte w 1) (leByte w 2) (leByte w 3) = w := by
  simp only [bytesWord, leByte, BitVec.toNat_ofNat]
  omega

/-- The encoder writes two words for a pair and one for all else. -/
theorem encode_eq_some {i : Instr} {bs : List Byte} (h : encode i = some bs) :
    (∃ p j w, i = .prefixedInstruction p j ∧ encodeWord j = some w ∧ bs = wordBytes (encodePrefix p) ++ wordBytes w) ∨
    ∃ w, i.illForm = i.wordIllForm ∧ encodeWord i = some w ∧ bs = wordBytes w := by
  unfold encode at h
  split at h
  · next p j =>
    obtain ⟨w, hw, rfl⟩ := Option.map_eq_some_iff.mp h
    exact .inl ⟨p, j, w, rfl, hw, rfl⟩
  · next hi =>
    obtain ⟨w, hw, rfl⟩ := Option.map_eq_some_iff.mp h
    refine .inr ⟨w, ?_, hw, rfl⟩
    unfold Instr.illForm
    split
    · exact (hi _ _ rfl).elim
    · rfl

theorem isPrefixWord_iff {w : Nat} : isPrefixWord w = true ↔ w / 2 ^ 25 = 127 := decide_eq_true_iff

theorem isPrefixWord_eq_false {w : Nat} (h : w / 33554432 ≠ 127) : isPrefixWord w = false := by
  rw [Bool.eq_false_iff, Ne, isPrefixWord_iff]
  exact h

section
variable {w w1 w2 : Nat} {i : Instr} {b0 b1 b2 b3 c0 c1 c2 c3 : Byte} (rest : List Byte)

theorem decode_word (hw : bytesWord b0 b1 b2 b3 = w) (hp : isPrefixWord w = false) (hi : decodeWord w = .ok i) :
    decode (b0 :: b1 :: b2 :: b3 :: rest) = .ok (i, rest) := by
  unfold decode
  dsimp only
  rw [hw, if_neg (Bool.eq_false_iff.mp hp), hi]

theorem decode_pair (h1 : bytesWord b0 b1 b2 b3 = w1) (h2 : bytesWord c0 c1 c2 c3 = w2) (hp : isPrefixWord w1 = true)
    (hi : decodePair w1 w2 = .ok i) :
    decode (b0 :: b1 :: b2 :: b3 :: c0 :: c1 :: c2 :: c3 :: rest) = .ok (i, rest) := by
  generalize hl : c0 :: c1 :: c2 :: c3 :: rest = l
  unfold decode
  dsimp only
  rw [h1, if_pos hp]
  split
  · cases hl
    rw [h2, hi]
  · next hne => exact (hne _ _ _ _ _ hl.symm).elim

end

/-! ### PREFIX words -/

theorem Prefix.fits {p : Prefix} (h : p.illForm = none) : p.grd < 32 ∧ p.mz < 2 ∧ p.rnd < 8 ∧ p.d4 < 128 ∧ p.lps < 2
    ∧ p.lp < 8 ∧ p.k < 32 := by
  simp only [Prefix.illForm, firstOf_cons_none, chk_none, decide_eq_true_eq] at h
  obtain ⟨hg, hm, hr, hd, hs, hl, hk, -⟩ := h
  exact ⟨hg, hm, hr, hd, hs, hl, hk⟩

theorem decodePrefix_encodePrefix {p : Prefix} (h : p.illForm = none) : encodePrefix p < 4294967296 ∧
    isPrefixWord (encodePrefix p) = true ∧ decodePrefix (encodePrefix p) = p := by
  obtain ⟨hg, hm, hr, hd, hs, hl, hk⟩ := Prefix.fits h
  obtain ⟨g, m, r, d, s, l, k⟩ := p
  simp only [encodePrefix, isPrefixWord_iff, decodePrefix, field, Prefix.mk.injEq] at *
  refine ⟨?_, ?_, ?_, ?_, ?_, ?_, ?_, ?_, ?_⟩ <;> omega

theorem decoded_of_takesPrefix {i : Instr} (h : takesPrefix i = true) : i.decoded = i := by
  unfold Instr.decoded
  split
  · exact nomatch h
  · exact nomatch h
  · rfl

theorem decoded_wellFormed {i : Instr} (h : i.WellFormed) : i.decoded.WellFormed := by
  unfold Instr.decoded
  split <;> exact h

/-- A PREFIX word and a word that it may precede decode to the pair (R179, R180). -/
theorem decodePair_of_matchRow {p : Prefix} {i : Instr} {w1 w2 : Nat} (hw : decodePrefix w1 = p) (hp : p.illForm = none)
    (ht : takesPrefix i = true) (hm : matchRow w2 = some i) (hwf : (Instr.prefixedInstruction p i).illForm = none) :
    decodePair w1 w2 = .ok (.prefixedInstruction p i) := by
  have hop : prefixOp (w2 / 2 ^ 25) = true := (takesPrefix_of_matchRow i hm).symm.trans ht
  unfold decodePair
  rw [hw]
  dsimp only
  rw [hp]
  dsimp only
  rw [hop, if_pos rfl, hm]
  dsimp only
  rw [hwf]

/-- What a pair decodes to has the fields of its PREFIX word. -/
theorem decodePair_ok {w1 w2 : Nat} {i : Instr} (h : decodePair w1 w2 = .ok i) :
    ∃ j, i = .prefixedInstruction (decodePrefix w1) j := by
  unfold decodePair at h
  dsimp only at h
  split at h
  · cases h
  split at h
  · split at h
    · cases h
    split at h
    · cases h
      exact ⟨_, rfl⟩
    · cases h
  · cases h

/-- A word alone never decodes to a pair. -/
theorem decodeWord_ne_pair {w : Nat} {p : Prefix} {j : Instr} : decodeWord w ≠ .ok (.prefixedInstruction p j) := by
  intro h
  have he := encodeWord_of_matchRow _ (decodeWord_eq_ok.mp h).1
  exact nomatch he

/-- Settles O1: what the encoder writes matches the row of its instruction, alone or in a pair. -/
theorem encodedInstructionDecodes : Obligations.EncodedInstructionDecodes := by
  intro i bs rest hwf he
  obtain ⟨p, j, w, rfl, hw, rfl⟩ | ⟨w, hword, hw, rfl⟩ := encode_eq_some he
  · have hchecks := hwf
    simp only [Instr.WellFormed, Instr.illForm, firstOf_cons_none, chk_none] at hchecks
    obtain ⟨hp, ht, -, hj, -⟩ := hchecks
    obtain ⟨hlt, -, hm⟩ := Encoding.holds j w hw hj
    rw [decoded_of_takesPrefix ht] at hm
    obtain ⟨hplt, hpw, hpd⟩ := decodePrefix_encodePrefix hp
    exact decode_pair rest (bytesWord_wordBytes hplt) (bytesWord_wordBytes hlt) hpw
      (decodePair_of_matchRow hpd hp ht hm hwf)
  · obtain ⟨hlt, hop, hm⟩ := Encoding.holds i w hw (hword ▸ hwf)
    exact decode_word rest (bytesWord_wordBytes hlt) (isPrefixWord_eq_false hop)
      (decodeWord_eq_ok.mpr ⟨hm, decoded_wellFormed hwf⟩)

/-- Settles O3: each word evaluated by the tables. -/
theorem specWordsDecode : Obligations.SpecWordsDecode := by
  and_intros <;> rfl

end Sys2Proof.Laws
end

section
/-!
PROOF. From the code bytes to the issue (R170, R171, R179), what a PREFIX word changes for the word after it (R178..R181), and the
two ends of an instruction (R71, R171, R182).
-/
namespace Sys2Proof.Machine

/-! ### The fetch outside planed regions -/

section
variable {s : State} {off w w2 : Nat} {i : Instr}

theorem leNat_wordBytes (h : w < 4294967296) : leNat (wordBytes w) = w := by
  simp only [wordBytes, leByte, leNat, BitVec.toNat_ofNat]
  omega

theorem fetchWord_ok (h : codeWordAt s off w) : s.fetchWord off = .ok w := by
  obtain ⟨hoff, hw, pa, hpa, hpoison, hbytes⟩ := h
  unfold State.fetchWord State.readAt
  rw [if_neg (Nat.not_le.mpr hoff)]
  dsimp only
  rw [hpa]
  dsimp only
  rw [hpoison, hbytes, leNat_wordBytes hw]
  rfl

theorem fetchPair_word (h : s.fetchWord off = .ok w) (hp : isPrefixWord w = false) : s.fetchPair off = .ok [w] := by
  unfold State.fetchPair
  rw [h]
  dsimp only
  rw [if_neg (Bool.eq_false_iff.mp hp)]

theorem fetchPair_pair (h : s.fetchWord off = .ok w) (hp : isPrefixWord w = true)
    (h2 : s.fetchWord ((off + 4) % 2 ^ 32) = .ok w2) : s.fetchPair off = .ok [w, w2] := by
  unfold State.fetchPair
  rw [h]
  dsimp only
  rw [if_pos hp, h2]

theorem fetchIssue_unplaned {ws : List Nat} (he : planedEntry s.blk.k.planes s.team.pc.toNat = none)
    (hu : inUpperCopy s.blk.k.planes s.team.pc.toNat = false) (hf : s.fetchPair s.team.pc.toNat = .ok ws) :
    s.fetchIssue = s.issueOf ws [ws] s.team.lanes.active 0 none := by
  unfold State.fetchIssue
  dsimp only
  rw [he]
  dsimp only
  rw [if_neg (Bool.eq_false_iff.mp hu), hf]
  rfl

theorem issueOf_word (hi : decodeWord w = .ok i) : s.issueOf [w] [[w]] s.team.lanes.active 0 none =
    .ok (i, plainIssue s none 4 (if w / 2 ^ 25 ≤ 0x1E then none else s.hazardOf [[w]]) w) := by
  unfold State.issueOf decodeWords
  dsimp only
  rw [hi]
  cases i with
  | prefixedInstruction p j => exact absurd hi Laws.decodeWord_ne_pair
  | _ => rfl

theorem issueOf_pair (hi : decodePair w w2 = .ok i) : s.issueOf [w, w2] [[w, w2]] s.team.lanes.active 0 none =
    .ok (i, plainIssue s (some (decodePrefix w)) 8 (if w2 / 2 ^ 25 ≤ 0x1E then none else s.hazardOf [[w, w2]]) w2) := by
  obtain ⟨j, rfl⟩ := Laws.decodePair_ok hi
  unfold State.issueOf decodeWords
  dsimp only
  rw [hi]
  rfl

end

/-- Settles O4: the bytes are the word, and a word outside planed regions issues over all active lanes. -/
theorem fetchReadsTheCodeBytes : Obligations.FetchReadsTheCodeBytes := by
  intro s w i he hu hw
  have hfetch := fetchWord_ok hw
  refine ⟨fun hp hi => ?_, fun w2 hp hw2 hi => ?_⟩
  · exact (fetchIssue_unplaned he hu (fetchPair_word hfetch hp)).trans (issueOf_word hi)
  · exact (fetchIssue_unplaned he hu (fetchPair_pair hfetch hp (fetchWord_ok hw2))).trans (issueOf_pair hi)

/-! ### A word in a pair -/

section
variable {s : State} {p : Prefix} {i : Instr}

/-- A word that may stand in a pair has one meaning, alone and in a pair (R179). -/
theorem execPrefixed_eq_exec (h : takesPrefix i = true) : execPrefixed i s = exec i s := by
  cases i with
  | vld8 | vld16 | vld32 | vld64 | vst8 | vst16 | vst32 | vst64 | vldb | vstb | vatom | satom | vsptest | vspcast | vadd
  | vsub | vmul | vmulh | vmin | vmax | vabsd | vdiv | vrem | vfma | vfms | vfnma | vaddsat | vsubsat | vavg | vcopysign
  | vand | vor | vxor | vandn | vshl | vshr | vsra | vrotr | vaddi | vmuli | vandi | vori | vshli | vshri | vsrai | vrotri
  | vmovi | vmov | vneg | vabs | vnot | vpopc | vclz | vsext8 | vsext16 | vrcp | vrsq | vsqrt | vexp2 | vlog2 | vsin
  | vcos | vtanh | vcvt | vadds | vmuls | vfmas | vmins | vmaxs | vbcast | vshls | vshrs | vsel | vlane | vcmp | vcmps
  | vshfl | vshflTeam | vred | vscan | vball | vnzs | visect | vbmax | vscsel | vqnt | vdq | vreq | vsideRd | vsideWr
  | vpack | vunpk | vhist => rfl
  | _ => exact nomatch h

/-- In an issue that holds the pair's PREFIX word the pair acts as its second word. -/
theorem exec_pair (hp : s.iss.pfx = some p) (hl : s.iss.len = 8) (h : takesPrefix i = true) :
    exec (.prefixedInstruction p i) s = exec i s := by
  have hs : ({ s with iss := { s.iss with pfx := some p, len := 8 } } : State) = s := by rw [← hp, ← hl]
  exact (congrArg (execPrefixed i) hs).trans (execPrefixed_eq_exec h)

theorem formChecks_ok {f : VecForm} (he : evenOk true f.pairs = true) (ht : f.types = true) (hz : s.iss.hazard = none)
    (hw : (s.windowOk true f.pairs && s.windowOk false f.singles) = true) : s.formChecks f = .ok () := by
  unfold State.formChecks
  rw [need_ok he, need_ok ht, hazardCheck_ok hz, need_ok hw]
  rfl

/-- A lane-wise word whose checks hold writes its lanes and retires. -/
theorem lanewise_ready {types sw dw : Bool} {d : Nat} {srcs : List Nat} (h : vecReady s types sw srcs dw [d])
    (f : Nat → LaneOut) : s.lanewise types sw dw d srcs f = .ok (vecDone s dw d f) := by
  obtain ⟨hes, hed, ht, hz, hws, hwd⟩ := h
  rw [lanewise_eq, except_bind_ok (formChecks_ok ?_ ht hz ?_)]
  · rw [evenOk_wordForm, hed, hes]
    rfl
  · rw [windowOk_wordForm, hws, hwd]
    rfl

theorem writeLanes_issued (wide : Bool) (d : Nat) (rs : List (Nat × LaneOut)) :
    (s.writeLanes wide d rs).issued = s.issued := by
  unfold State.writeLanes State.putLanes
  cases wide <;> simp

theorem tookEffect_vecDone (wide : Bool) (d : Nat) (f : Nat → LaneOut) : tookEffect s (vecDone s wide d f) :=
  (State.retire_issued _).trans (congrArg (· + 1) (writeLanes_issued wide d (s.laneResults f)))

theorem exec_vadd_ready {d a b : Nat} (h : vecReady s true (isWide s.ty) [a, b] (isWide s.ty) [d]) :
    ∃ t, exec (.vadd d a b) s = .next t ∧ tookEffect s t :=
  ⟨_, congrArg (answer s) (lanewise_ready h _), tookEffect_vecDone ..⟩

theorem selected_of_pfx (hp : s.iss.pfx = some p) : s.selected =
    s.iss.lanes &&& s.getP (if p.grd < 16 then p.grd else s.guardNo) := by
  unfold State.selected State.guardMask
  rw [hp]
  dsimp only
  split <;> rfl

theorem srcLane_of_pfx (hp : s.iss.pfx = some p) (l : Nat) :
    s.srcLane p.lps l = l / 32 * 32 + patternSrc p.lp p.k (l % 32) := by
  unfold State.srcLane
  rw [hp]
  exact if_pos rfl

end

/-- Settles O40: the fields of the PREFIX word stand in the issue, where the meaning of the word reads them. -/
theorem prefixedPairRuns : Obligations.PrefixedPairRuns := by
  intro p i s hp hl
  refine ⟨exec_pair hp hl, fun d a b h => ?_, selected_of_pfx hp, ?_, fun d => ?_, ?_, fun l => srcLane_of_pfx hp l⟩
  · obtain ⟨t, ht, hx⟩ := exec_vadd_ready h
    exact ⟨t, (exec_pair hp hl rfl).trans ht, ht, hx⟩
  · rw [State.rm, hp]
  · rw [State.cReg, State.d4, hp]
  · rw [State.mz, hp]
    exact decide_eq_true_iff

/-! ### The ends of an instruction -/

theorem retire_nextPlane {s : State} (h : s.iss.next = none) : s.retire.team.nextPlane = 0 := by
  simp [State.retire, State.issueDone, Team.leaveOffset, h]

/-- Settles O14. -/
theorem retireMovesOn : Obligations.RetireMovesOn := fun s =>
  ⟨s.retire_team_plane, fun h => ⟨s.retire_team_pc h, retire_nextPlane h⟩, rfl, rfl, rfl, s.retire_issued, rfl, rfl⟩

end Sys2Proof.Machine
end

section
/-!
PROOF. Traps (R206, R208, R209, R229..R233): entry with what R230 saves, the words ILL and TRAP, privilege at user level, and the
return from a handler.
-/
namespace Sys2Proof.Machine

section
variable {s : State}

/-! ### What leaving a wait keeps -/

/-- The team in focus is the same but for its deadline, and so is its kernel. -/
structure SameButWait (s t : State) : Prop where
  team : t.team = { s.team with deadline := t.team.deadline }
  kernel : t.blk.k = s.blk.k

theorem SameButWait.refl (s : State) : SameButWait s s := ⟨rfl, rfl⟩

/-- Withdrawing changes the deadline's count, a claim queue or the issues of a convocation (R85, R226, R415). -/
theorem sameButWait_withdraw (s : State) (w : Wait) : SameButWait s (s.withdraw w) := by
  cases w with
  | claim slots _ _ _ => cases slots <;> exact ⟨rfl, rfl⟩
  | step _ => exact ⟨rfl, rfl⟩
  | _ => exact .refl s

theorem sameButWait_leaveWait (s : State) : SameButWait s s.leaveWait := by
  unfold State.leaveWait
  split
  · exact .refl s
  · exact .refl s
  · exact sameButWait_withdraw s _
  · exact sameButWait_withdraw s _
  · exact ⟨rfl, rfl⟩
  · exact .refl s

/-! ### Entry (R230) -/

/-- A deliverable fault enters the handler from the state in which the team waits no more. -/
theorem takeFault_trap {f : FaultInfo} {entry : Nat} (he : s.blk.k.trapEntry = some entry)
    (hi : s.team.trap.inTrap = false) (hp : s.team.phase ≠ .held) (hs : f.spill = false)
    (hd : deliverable s.team.system f.cause = true) :
    takeFault f s = { s.leaveWait with team := s.leaveWait.team.enterTrap entry f } := by
  obtain ⟨ht, hk⟩ := sameButWait_leaveWait s
  refine deliverFault_trap (hk ▸ he) ?_ ?_ hs ?_
  all_goals rw [ht]; assumption

end

/-- Settles O8: the handler is entered from the state after `leaveWait`, which keeps all that R230 saves. -/
theorem trapEntryDelivery : Obligations.TrapEntryDelivery := by
  intro s f entry he hi hp hs hd t
  have ht : t = { s.leaveWait with team := s.leaveWait.team.enterTrap entry f } := takeFault_trap he hi hp hs hd
  have hbytes : sameBytes s t := (FaultFrame.takeFault f s).sameBytes
  have hwait (h : ∀ w, s.team.phase ≠ .waiting w) : s.leaveWait = s := State.leaveWait_of_ready h
  obtain ⟨hteam, -⟩ := sameButWait_leaveWait s
  have hentered : t.team = { s.team with deadline := s.leaveWait.team.deadline }.enterTrap entry f := by
    rw [ht]
    exact congrArg (Team.enterTrap · entry f) hteam
  rw [hentered]
  refine ⟨rfl, rfl, rfl, rfl, rfl, rfl, rfl, rfl, rfl, rfl, rfl, rfl, rfl, rfl, rfl, rfl, rfl, rfl, rfl, rfl, rfl, rfl,
    rfl, hbytes, rfl, fun h => ⟨?_, ?_⟩⟩
  · change s.leaveWait.team.deadline = _
    rw [hwait h]
  · rw [ht, hwait h]

/-! ### ILL and TRAP (R209, R229) -/

theorem wellFormed_trap {c : Nat} (h : c < 2 ^ 16) : (Instr.trap c).WellFormed := by
  change firstOf [chk .fieldWidth (Nat.blt c (2 ^ 16) && true), none, none] = none
  rw [Laws.firstOf_cons_none, Laws.chk_none]
  exact ⟨by simpa using h, rfl⟩

theorem decodeWord_trap {w : Nat} (hw : w / 2 ^ 25 = 2) (hz : w / 2 ^ 16 % 2 ^ 9 = 0) :
    decodeWord w = .ok (.trap (w % 2 ^ 16)) := by
  refine Laws.decodeWord_eq_ok.mpr ⟨?_, wellFormed_trap (Nat.mod_lt _ (by decide))⟩
  exact (Laws.matchRow_op2 hw).trans ((if_pos hz).trans
    (congrArg (fun x => some (Instr.trap (x % 2 ^ 16))) (Nat.div_one w)))

theorem decodeWord_trap_reserved {w : Nat} (hw : w / 2 ^ 25 = 2) (hz : w / 2 ^ 16 % 2 ^ 9 ≠ 0) :
    decodeWord w = .error .unassigned := by
  have hm : matchRow w = none := (Laws.matchRow_op2 hw).trans (if_neg hz)
  rw [decodeWord, hm]

/-- Settles O12: the fault of TRAP is deliverable at either level, so TrapEntryDelivery says where it goes. -/
theorem illegalAndTrapWords : Obligations.IllegalAndTrapWords := by
  intro s c
  refine ⟨rfl, fun w hw => ⟨fun hz => ?_, fun hz => ?_⟩,
    { s.flt .trapInstruction with plane := 0, code := c, restart := s.nextPc }, rfl, rfl, rfl, rfl, rfl, rfl, rfl, by decide,
    fun entry he hi hp => ?_⟩
  · exact decodeWord_trap hw hz
  · exact ⟨_, decodeWord_trap_reserved hw hz⟩
  · have hd : deliverable s.team.system .trapInstruction = true := by cases s.team.system <;> decide
    have hf := takeFault_trap (s := { s with team := { s.team with looks := [] } })
      (f := { s.flt .trapInstruction with plane := 0, code := c, restart := s.nextPc }) he hi hp rfl hd
    exact ⟨_, congrArg Host.Outcome.next hf, rfl, rfl, rfl⟩

/-- Settles O13: the check of privilege comes first in every privileged word. -/
theorem privilegedWordsAtUserLevel : Obligations.PrivilegedWordsAtUserLevel := by
  intro i s hi hu
  have hp : s.privileged = .error (s.flt .privilege) := need_error hu _
  cases i with
  | tret | haltc | psrd | pswr | pswrFqhead | fdactRestart | fdactEnd | fdactRespill | tlbiPage | tlbiRegion =>
    exact answer_bind_error hp
  | _ => exact nomatch hi

/-! ### URET and TRET (R233) -/

section
variable {s : State} {user allow : Bool}

/-- The state in which the team goes on at TRAPOFF with the lanes that R230 saved. -/
def State.trapReturned (s : State) : State := { s.issueDone with team := s.issueDone.team.leaveTrap }

theorem uretChecks_outside (h : s.team.trap.inTrap = false) :
    s.uretChecks user = .error (s.flt .illegalInstruction) := except_bind_error (need_error h _)

section
variable (hi : s.team.trap.inTrap = true)
include hi

theorem uretChecks_privilege (hc : userDeliverable s.team.trap.cause = false) :
    s.uretChecks true = .error (s.flt .privilege) :=
  (except_bind_ok (need_ok hi _)).trans (except_bind_error (need_error (by simp [hc]) _))

variable (hc : (!user || userDeliverable s.team.trap.cause) = true)
include hc

theorem uretChecks_windowDepth (hd : s.team.win.depth ≠ s.team.trap.tdep) :
    s.uretChecks user = .error (s.flt .windowDepth) :=
  (except_bind_ok (need_ok hi _)).trans ((except_bind_ok (need_ok hc _)).trans
    (except_bind_error (need_error (decide_eq_false hd) _)))

variable (hd : s.team.win.depth = s.team.trap.tdep)
include hd

theorem uretChecks_joinStack (hj : s.team.lanes.stack.length ≠ s.team.trap.tjd) :
    s.uretChecks user = .error (s.flt .joinStack) :=
  (except_bind_ok (need_ok hi _)).trans ((except_bind_ok (need_ok hc _)).trans
    ((except_bind_ok (need_ok (decide_eq_true hd) _)).trans (need_error (decide_eq_false hj) _)))

theorem uretChecks_ok (hj : s.team.lanes.stack.length = s.team.trap.tjd) : s.uretChecks user = .ok () :=
  (except_bind_ok (need_ok hi _)).trans ((except_bind_ok (need_ok hc _)).trans
    ((except_bind_ok (need_ok (decide_eq_true hd) _)).trans (need_ok (decide_eq_true hj) _)))

end

theorem opTrapReturn_refused {f : FaultInfo} (h : s.uretChecks user = .error f) :
    s.opTrapReturn user allow = .error (.fault f) := by
  unfold State.opTrapReturn
  rw [h]

section
variable (h : s.uretChecks user = .ok ()) (hm : s.team.trap.tmask &&& ~~~s.team.lanes.vacant ≠ 0)
include h hm

/-- With lanes to go on with, the offset alone decides (R207, R233). -/
theorem opTrapReturn_checked : s.opTrapReturn user allow =
    if s.targetOk s.trapReturned.team.pc then .ok s.trapReturned else .error (.fault (s.flt .planeRange)) := by
  unfold State.opTrapReturn
  rw [h]
  exact if_pos hm

theorem opTrapReturn_returns (ht : s.targetOk s.trapReturned.team.pc = true) :
    s.opTrapReturn user allow = .ok s.trapReturned := (opTrapReturn_checked h hm).trans (if_pos ht)

theorem opTrapReturn_planeRange (ht : s.targetOk s.trapReturned.team.pc = false) :
    s.opTrapReturn user allow = .error (.fault (s.flt .planeRange)) :=
  (opTrapReturn_checked h hm).trans (if_neg (by simp [ht]))

end

theorem exec_uret : exec .uret s = s.answerWindow (s.opTrapReturn true false) := rfl

theorem exec_tret_system (h : s.team.system = true) : exec .tret s = s.answerWindow (s.opTrapReturn false false) :=
  answer_bind_ok (need_ok h _)

theorem inUpperCopy_trapReturned : inUpperCopy s.blk.k.planes s.trapReturned.team.pc.toNat =
    inUpperCopy s.blk.k.planes (s.team.trap.off.toNat % 2 ^ 32) := rfl

/-- Where the handler has not written TRAPOFF the rest of the faulting offset is to be issued (R231). -/
theorem trapReturned_restart (h : s.team.trap.twr = false) : s.trapReturned.team.nextPlane = s.team.trap.tpl ∧
    s.trapReturned.team.win = { s.team.win with cont := s.team.trap.tcont, contLast := s.team.trap.tcontLast } := by
  constructor
  · change (if s.team.trap.twr then 0 else _) = _
    rw [h]
    rfl
  · change (if s.team.trap.twr then _ else _) = _
    rw [h]
    rfl

theorem trapReturned_elsewhere (h : s.team.trap.twr = true) : s.trapReturned.team.nextPlane = 0 ∧
    s.trapReturned.team.win = { s.team.win with cont := false } := by
  constructor
  · change (if s.team.trap.twr then 0 else _) = _
    rw [h]
    rfl
  · change (if s.team.trap.twr then _ else _) = _
    rw [h]
    rfl

theorem sameBytes_trapReturned : sameBytes s s.trapReturned := sameBytes_of_stores rfl rfl rfl rfl rfl

end

/-- Settles O11: the checks in their order, then the one state that both words answer. -/
theorem trapReturnRestores : Obligations.TrapReturnRestores := by
  intro s
  have refused {f : FaultInfo} (h : s.uretChecks true = .error f) : exec .uret s = .next (takeFault f s) :=
    exec_uret.trans (answerWindow_fault (opTrapReturn_refused h))
  have hsys (hi) (hd) (hj) : s.uretChecks false = .ok () := uretChecks_ok hi rfl hd hj
  refine ⟨fun hi => refused (uretChecks_outside hi), fun hi hc => refused (uretChecks_privilege hi hc),
    fun hi hc hd => refused (uretChecks_windowDepth hi hc hd), fun hi hc hd hj => refused (uretChecks_joinStack hi hc hd hj),
    privilegedWordsAtUserLevel .tret s rfl, fun hi hd hj hm ht => ⟨fun hc => ?_, fun hu => ?_⟩,
    fun hi hd hj hm ht => ⟨s.trapReturned, fun hc => ?_, fun hu => ?_, rfl, rfl, rfl, rfl, trapReturned_restart,
      trapReturned_elsewhere, rfl, rfl, sameBytes_trapReturned⟩⟩
  · exact exec_uret.trans (answerWindow_fault (opTrapReturn_planeRange (uretChecks_ok hi hc hd hj) hm
      (targetOk_false (inUpperCopy_trapReturned.trans ht))))
  · exact (exec_tret_system hu).trans (answerWindow_fault (opTrapReturn_planeRange (hsys hi hd hj) hm
      (targetOk_false (inUpperCopy_trapReturned.trans ht))))
  · exact exec_uret.trans (answerWindow_ok (opTrapReturn_returns (uretChecks_ok hi hc hd hj) hm
      (targetOk_true (inUpperCopy_trapReturned.trans ht))))
  · exact (exec_tret_system hu).trans (answerWindow_ok (opTrapReturn_returns (hsys hi hd hj) hm
      (targetOk_true (inUpperCopy_trapReturned.trans ht))))

end Sys2Proof.Machine
end

section
/-!
PROOF. The values of the scalar words (R242..R244): the model's arithmetic on numbers is that of 64-bit words.
-/
namespace Sys2Proof.Machine

section
variable (x y : Word64) (n : Nat)

/-! ### Numbers and words -/

theorem ofNat_wrapNat {w : Nat} (z : Int) : BitVec.ofNat w (wrapNat z w) = BitVec.ofInt w z := by
  refine BitVec.eq_of_toNat_eq ?_
  rw [BitVec.toNat_ofNat, BitVec.toNat_ofInt, wrapNat, Nat.mod_eq_of_lt]
  have := Int.emod_lt_of_pos z (b := ((2 ^ w : Nat) : Int)) (by simp)
  have := Int.emod_nonneg z (b := ((2 ^ w : Nat) : Int)) (by simp)
  omega

theorem sx_toNat : sx x.toNat = x.toInt := by
  rw [sx, sextInt_eq_toInt _ (by decide), BitVec.ofNat_toNat, BitVec.setWidth_eq]

theorem ofNat_toNat_self : BitVec.ofNat 64 x.toNat = x := by rw [BitVec.ofNat_toNat, BitVec.setWidth_eq]

/-! ### Sums, products and logic -/

theorem ofNat_add_toNat : BitVec.ofNat 64 (x.toNat + y.toNat) = x + y := by
  rw [BitVec.ofNat_add, ofNat_toNat_self, ofNat_toNat_self]

theorem ofNat_sub_toNat : BitVec.ofNat 64 (wrapNat ((x.toNat : Int) - y.toNat) 64) = x - y := by
  rw [ofNat_wrapNat, Int.sub_eq_add_neg, BitVec.ofInt_add, BitVec.ofInt_neg, BitVec.ofInt_natCast, BitVec.ofInt_natCast,
    ofNat_toNat_self, ofNat_toNat_self, BitVec.sub_eq_add_neg]

theorem ofNat_mul_toNat : BitVec.ofNat 64 (x.toNat * y.toNat) = x * y := by
  rw [BitVec.ofNat_mul, ofNat_toNat_self, ofNat_toNat_self]

theorem ofNat_mulh_toNat : BitVec.ofNat 64 (wrapNat (sx x.toNat * sx y.toNat / (2 ^ 64 : Nat)) 64) =
    BitVec.ofInt 64 (x.toInt * y.toInt / 18446744073709551616) := by
  rw [ofNat_wrapNat, sx_toNat, sx_toNat]
  rfl

theorem ofNat_and_toNat : BitVec.ofNat 64 (x.toNat &&& y.toNat) = x &&& y := by
  rw [BitVec.ofNat_and, ofNat_toNat_self, ofNat_toNat_self]

theorem ofNat_or_toNat : BitVec.ofNat 64 (x.toNat ||| y.toNat) = x ||| y := by
  rw [BitVec.ofNat_or, ofNat_toNat_self, ofNat_toNat_self]

theorem ofNat_xor_toNat : BitVec.ofNat 64 (x.toNat ^^^ y.toNat) = x ^^^ y := by
  rw [BitVec.ofNat_xor, ofNat_toNat_self, ofNat_toNat_self]

theorem ofNat_andn_toNat : BitVec.ofNat 64 (x.toNat &&& (y.toNat ^^^ (2 ^ 64 - 1))) = x &&& ~~~y := by
  rw [BitVec.ofNat_and, BitVec.ofNat_xor, ofNat_toNat_self, ofNat_toNat_self,
    show BitVec.ofNat 64 (2 ^ 64 - 1) = BitVec.allOnes 64 from rfl, BitVec.xor_allOnes]

/-! ### Shifts -/

theorem ofNat_shl_toNat : BitVec.ofNat 64 (x.toNat * 2 ^ n) = x <<< n := by
  refine BitVec.eq_of_toNat_eq ?_
  rw [BitVec.toNat_ofNat, BitVec.toNat_shiftLeft, Nat.shiftLeft_eq]

theorem ofNat_shr_toNat : BitVec.ofNat 64 (x.toNat / 2 ^ n) = x >>> n := by
  refine BitVec.eq_of_toNat_eq ?_
  rw [BitVec.toNat_ofNat, BitVec.toNat_ushiftRight, Nat.shiftRight_eq_div_pow,
    Nat.mod_eq_of_lt (Nat.lt_of_le_of_lt (Nat.div_le_self _ _) x.isLt)]

theorem ofNat_sra_toNat : BitVec.ofNat 64 (wrapNat (sx x.toNat / (2 ^ n : Nat)) 64) = x.sshiftRight n := by
  rw [ofNat_wrapNat, sx_toNat, BitVec.sshiftRight, Int.shiftRight_eq_div_pow]

/-- What leaves at the right and what comes in at the left share no bit. -/
theorem ofNat_rotr_toNat (h : n < 64) : BitVec.ofNat 64 (x.toNat / 2 ^ n + x.toNat * 2 ^ (64 - n)) = x.rotateRight n := by
  rw [BitVec.rotateRight_def, Nat.mod_eq_of_lt h, BitVec.ofNat_add, ofNat_shr_toNat, ofNat_shl_toNat]
  refine BitVec.add_eq_or_of_and_eq_zero _ _ (BitVec.eq_of_getLsbD_eq fun i hi => ?_)
  rw [BitVec.getLsbD_and, BitVec.getLsbD_ushiftRight, BitVec.getLsbD_shiftLeft]
  by_cases hn : i < 64 - n
  · simp [hn]
  · simp [BitVec.getLsbD_of_ge x (n + i) (by omega)]

/-! ### Choices and comparisons -/

theorem ofNat_min_toNat : BitVec.ofNat 64 (if sx x.toNat ≤ sx y.toNat then x.toNat else y.toNat) =
    if y.slt x then y else x := by
  rw [apply_ite (BitVec.ofNat 64), ofNat_toNat_self, ofNat_toNat_self, sx_toNat, sx_toNat]
  by_cases h : x.toInt ≤ y.toInt
  · rw [if_pos h, if_neg (by rw [BitVec.slt_iff_toInt_lt]; omega)]
  · rw [if_neg h, if_pos (by rw [BitVec.slt_iff_toInt_lt]; omega)]

theorem ofNat_max_toNat : BitVec.ofNat 64 (if sx x.toNat ≤ sx y.toNat then y.toNat else x.toNat) =
    if x.slt y then y else x := by
  rw [apply_ite (BitVec.ofNat 64), ofNat_toNat_self, ofNat_toNat_self, sx_toNat, sx_toNat]
  rcases Int.lt_trichotomy x.toInt y.toInt with h | h | h
  · rw [if_pos h.le, if_pos (BitVec.slt_iff_toInt_lt.mpr h)]
  · rw [if_pos h.le, BitVec.eq_of_toInt_eq h, ite_self]
  · rw [if_neg (by omega), if_neg (by rw [BitVec.slt_iff_toInt_lt]; omega)]

theorem ofNat_minu_toNat : BitVec.ofNat 64 (min x.toNat y.toNat) = if y.ult x then y else x := by
  rw [BitVec.ult_eq_decide]
  rcases Nat.lt_or_ge y.toNat x.toNat with h | h
  · rw [Nat.min_eq_right h.le, ofNat_toNat_self, if_pos (decide_eq_true h)]
  · rw [Nat.min_eq_left h, ofNat_toNat_self, if_neg (by simpa using h)]

theorem ofNat_maxu_toNat : BitVec.ofNat 64 (max x.toNat y.toNat) = if x.ult y then y else x := by
  rw [BitVec.ult_eq_decide]
  rcases Nat.lt_or_ge x.toNat y.toNat with h | h
  · rw [Nat.max_eq_right h.le, ofNat_toNat_self, if_pos (decide_eq_true h)]
  · rw [Nat.max_eq_left h, ofNat_toNat_self, if_neg (by simpa using h)]

theorem ofNat_slt_toNat {z : Int} (h : z = y.toInt) :
    BitVec.ofNat 64 (if sx x.toNat < z then 1 else 0) = if x.slt y then 1 else 0 := by
  rw [apply_ite (BitVec.ofNat 64), sx_toNat, h, BitVec.slt_eq_decide]
  simp

theorem ofNat_sltu_toNat : BitVec.ofNat 64 (if x.toNat < y.toNat then 1 else 0) = if x.ult y then 1 else 0 := by
  rw [apply_ite (BitVec.ofNat 64), BitVec.ult_eq_decide]
  simp

theorem ofNat_seq_toNat : BitVec.ofNat 64 (if x.toNat = y.toNat then 1 else 0) = if x = y then 1 else 0 := by
  simp only [apply_ite (BitVec.ofNat 64), BitVec.toNat_inj]
  rfl

theorem ofNat_sne_toNat : BitVec.ofNat 64 (if x.toNat = y.toNat then 0 else 1) = if x = y then 0 else 1 := by
  simp only [apply_ite (BitVec.ofNat 64), BitVec.toNat_inj]
  rfl

theorem ofNat_sel_toNat (z : Word64) : BitVec.ofNat 64 (if z = 0 then y.toNat else x.toNat) = if z = 0 then y else x := by
  rw [apply_ite (BitVec.ofNat 64), ofNat_toNat_self, ofNat_toNat_self]

theorem ofNat_selz_toNat : BitVec.ofNat 64 (if y.toNat = 0 then 0 else x.toNat) = if y = 0 then 0 else x := by
  rw [apply_ite (BitVec.ofNat 64), ofNat_toNat_self]
  simp only [BitVec.toNat_eq]
  rfl

/-! ### Counting bits -/

theorem cpopNatRec_eq_length (k : Nat) :
    x.cpopNatRec k 0 = ((List.range k).filter (fun i => x.toNat.testBit i)).length := by
  induction k with
  | zero => rfl
  | succ k ih =>
    rw [BitVec.cpopNatRec_succ, BitVec.cpopNatRec_eq, ih, List.range_succ, List.filter_append, List.length_append]
    congr 1
    cases h : x.toNat.testBit k <;> simp [BitVec.getLsbD, h]

theorem ofNat_popCount_toNat : BitVec.ofNat 64 (popCount x.toNat 64) = x.cpop := by
  rw [popCount, ← cpopNatRec_eq_length]
  rfl

theorem ofNat_leadingZeros_toNat : BitVec.ofNat 64 (leadingZeros x.toNat 64) = x.clz := by
  rw [leadingZeros, Nat.mod_eq_of_lt x.isLt]
  by_cases h : x = 0
  · subst h
    rfl
  · have hlt : x.clz.toNat < 64 := BitVec.clz_lt_iff_ne_zero.mpr h
    have hlog : Nat.log2 x.toNat = 63 - x.clz.toNat := by
      refine (Nat.log2_eq_iff (by simpa [BitVec.toNat_eq] using h)).mpr
        ⟨BitVec.two_pow_sub_clz_le_toNat_of_ne_zero (by decide) h, ?_⟩
      rw [show 63 - x.clz.toNat + 1 = 64 - x.clz.toNat by omega]
      exact BitVec.toNat_lt_two_pow_sub_clz
    rw [if_neg (by simpa [BitVec.toNat_eq] using h), ilog2, hlog, show 64 - 1 - (63 - x.clz.toNat) = x.clz.toNat by omega,
      ofNat_toNat_self]

theorem ofNat_trailingZeros_toNat : BitVec.ofNat 64 (trailingZeros x.toNat 64) = x.ctz := by
  by_cases h : x = 0
  · have hrev : x.reverse = 0 := BitVec.reverse_eq_zero_iff.mpr h
    have hfind : (List.range 64).find? (fun i => x.toNat.testBit i) = none := List.find?_eq_none.mpr (by simp [h])
    rw [trailingZeros, hfind, BitVec.ctz_eq_reverse_clz, BitVec.clz_eq_iff_eq_zero.mpr hrev]
    rfl
  · have hlt : x.ctz.toNat < 64 := BitVec.ctz_lt_iff_ne_zero.mpr h
    have hfind : (List.range 64).find? (fun i => x.toNat.testBit i) = some x.ctz.toNat := by
      rw [List.find?_range_eq_some]
      refine ⟨BitVec.getLsbD_true_ctz_of_ne_zero h, List.mem_range.mpr hlt, fun i hi => ?_⟩
      simpa [BitVec.getLsbD] using BitVec.getLsbD_false_of_lt_ctz hi
    rw [trailingZeros, hfind, Option.getD_some, ofNat_toNat_self]

theorem ofNat_add_two_pow {r k : Nat} (hr : (BitVec.ofNat 64 r).getLsbD k = false) :
    BitVec.ofNat 64 (r + 2 ^ k) = BitVec.ofNat 64 r ||| BitVec.twoPow 64 k := by
  have hp : BitVec.ofNat 64 (2 ^ k) = BitVec.twoPow 64 k :=
    BitVec.eq_of_toNat_eq (by rw [BitVec.toNat_ofNat, BitVec.toNat_twoPow])
  rw [BitVec.ofNat_add, hp, BitVec.add_eq_or_of_and_eq_zero]
  rw [BitVec.and_twoPow, hr]
  rfl

/-- The reversal after the low `k` bits of the word have been looked at. -/
theorem getLsbD_foldl_bitReverse {k : Nat} (hk : k ≤ 64) (j : Nat) :
    (BitVec.ofNat 64 ((List.range k).foldl (fun r i => if x.toNat.testBit i then r + 2 ^ (64 - 1 - i) else r) 0)).getLsbD j =
      (decide (64 - k ≤ j) && decide (j < 64) && x.getLsbD (63 - j)) := by
  induction k generalizing j with
  | zero =>
    rcases Nat.lt_or_ge j 64 with h | h
    · simp [Nat.not_le.mpr h]
    · simp [Nat.not_lt.mpr h]
  | succ k ih =>
    have ih := ih (by omega)
    have hlow : decide (64 - k ≤ 63 - k) = false := decide_eq_false (by omega)
    rw [List.range_succ, List.foldl_append, List.foldl_cons, List.foldl_nil]
    have hstep (r : Nat) (hr : (BitVec.ofNat 64 r).getLsbD (63 - k) = false) :
        (BitVec.ofNat 64 (if x.toNat.testBit k then r + 2 ^ (64 - 1 - k) else r)).getLsbD j =
          ((BitVec.ofNat 64 r).getLsbD j || (x.getLsbD k && decide (63 - k = j))) := by
      have hx : x.getLsbD k = x.toNat.testBit k := rfl
      rw [hx]
      cases x.toNat.testBit k with
      | true =>
        rw [if_pos rfl, ofNat_add_two_pow hr, BitVec.getLsbD_or, BitVec.getLsbD_twoPow,
          decide_eq_true (show 64 - 1 - k < 64 by omega)]
      | false => rw [if_neg (by decide), Bool.false_and, Bool.or_false]
    rw [hstep _ (by rw [ih, hlow]; rfl), ih]
    by_cases hj : 63 - k = j
    · subst hj
      have hnew : decide (64 - (k + 1) ≤ 63 - k) = true := decide_eq_true (by omega)
      rw [hlow, hnew, decide_eq_true (show 63 - k < 64 by omega), show 63 - (63 - k) = k by omega]
      simp
    · rw [decide_eq_false hj, Bool.and_false, Bool.or_false,
        show decide (64 - (k + 1) ≤ j) = decide (64 - k ≤ j) from decide_eq_decide.mpr (by omega)]

theorem ofNat_bitReverse_toNat : BitVec.ofNat 64 (bitReverse x.toNat 64) = x.reverse := by
  refine BitVec.eq_of_getLsbD_eq fun j hj => ?_
  rw [bitReverse, getLsbD_foldl_bitReverse x (by decide), BitVec.getLsbD_reverse, BitVec.getMsbD_eq_getLsbD]
  simp [hj]

/-! ### Immediates -/

theorem ofNat_imm9 (i : Nat) : BitVec.ofNat 64 (imm9 i) = (BitVec.ofNat 9 i).signExtend 64 := by
  rw [imm9, ofNat_wrapNat, sextInt_eq_toInt _ (by decide)]
  rfl

theorem ofNat_imm17 (i : Nat) : BitVec.ofNat 64 (wrapNat (sextInt i 17) 64) = (BitVec.ofNat 17 i).signExtend 64 := by
  rw [ofNat_wrapNat, sextInt_eq_toInt _ (by decide)]
  rfl

theorem sextInt_eq_toInt_imm9 (i : Nat) : sextInt i 9 = ((BitVec.ofNat 9 i).signExtend 64).toInt := by
  rw [sextInt_eq_toInt _ (by decide), BitVec.toInt_signExtend_of_le (by decide)]

end

/-! ### Division (R243) -/

section
variable {x y : Word64}

theorem toInt_eq_zero_iff : y.toInt = 0 ↔ y = 0 := by
  rw [← BitVec.toInt_inj]
  rfl

theorem sdivCases_zero (signed : Bool) : sdivCases signed x.toNat (0 : Word64).toNat =
    (-1, if signed then x.toInt else (x.toNat : Int), flagIDZ) := by
  cases signed with
  | true =>
    rw [sdivCases, if_pos rfl, sx_toNat, sx_toNat]
    rfl
  | false => rfl

theorem sdivCases_overflow : sdivCases true (0x8000000000000000 : Word64).toNat (BitVec.allOnes 64).toNat =
    (-(2 ^ 63), 0, flagIOV) := by
  rw [sdivCases, if_pos rfl, sx_toNat, sx_toNat]
  rfl

theorem sdivCases_signed (hy : y ≠ 0) (h : ¬(x = 0x8000000000000000 ∧ y = BitVec.allOnes 64)) :
    sdivCases true x.toNat y.toNat = (x.toInt.tdiv y.toInt, x.toInt.tmod y.toInt, 0) := by
  have hn : ¬(x.toInt = -(2 ^ 63) ∧ y.toInt = -1) := by
    rintro ⟨hx, hy⟩
    exact h ⟨BitVec.eq_of_toInt_eq (hx.trans (by decide)), BitVec.eq_of_toInt_eq (hy.trans (by decide))⟩
  rw [sdivCases, if_pos rfl, sx_toNat, sx_toNat, divCases, if_neg (mt toInt_eq_zero_iff.mp hy), if_neg (by simpa using hn)]

theorem sdivCases_unsigned (hy : y ≠ 0) :
    sdivCases false x.toNat y.toNat = (((x.toNat / y.toNat : Nat) : Int), ((x.toNat % y.toNat : Nat) : Int), 0) := by
  have hn : ((y.toNat : Nat) : Int) ≠ 0 := by simpa [BitVec.toNat_eq] using hy
  rw [sdivCases, if_neg (by decide), divCases, if_neg hn, if_neg (by simp), Int.ofNat_tdiv, Int.ofNat_tmod]

theorem ofNat_div_toNat : BitVec.ofNat 64 (x.toNat / y.toNat) = x / y := by
  rw [← BitVec.toNat_udiv, ofNat_toNat_self]

theorem ofNat_mod_toNat : BitVec.ofNat 64 (x.toNat % y.toNat) = x % y := by
  rw [← BitVec.toNat_umod, ofNat_toNat_self]

/-- A division raises one flag or none (R54). -/
theorem sdivCases_flag (signed : Bool) (a b : Nat) :
    (sdivCases signed a b).2.2 = 0 ∨ (sdivCases signed a b).2.2 = flagIDZ ∨ (sdivCases signed a b).2.2 = flagIOV := by
  unfold sdivCases divCases
  split_ifs <;> simp

end

end Sys2Proof.Machine
end

section
/-!
PROOF. The scalar words (R241..R244): how one answers, what it leaves, and the statements about their values.
-/
namespace Sys2Proof.Machine

section
variable {s : State} {d a b : Nat} {x : Nat × Byte}

theorem raise_zero (s : State) : s.raise 0 = s := by
  simp [State.raise, State.withSp]

theorem scalar_ok (hz : s.iss.hazard = none) :
    s.scalar d x = .ok ((s.setS d (BitVec.ofNat 64 x.1)).raise x.2).retire := except_bind_ok (hazardCheck_ok hz)

theorem scalar_hazard {off : Word32} (hz : s.iss.hazard = some off) :
    s.scalar d x = .error (s.fltAt .lookaheadHazard 0 (BitVec.ofNat 64 off.toNat)) :=
  except_bind_error (hazardCheck_error hz)

/-- A scalar word that raises no flag. -/
theorem answer_scalar {n : Nat} {v : Word64} (hz : s.iss.hazard = none) (hv : BitVec.ofNat 64 n = v) :
    answer s (s.scalar d (n, 0)) = .next (s.setS d v).retire := by
  rw [scalar_ok hz, raise_zero, hv]
  rfl

section
variable {q r : Int} {f : Byte} (hz : s.iss.hazard = none)
include hz

theorem answer_division (z : Int) :
    answer s (s.scalar d (wrapNat z 64, f)) = .next ((s.setS d (BitVec.ofInt 64 z)).raise f).retire := by
  rw [scalar_ok hz, ofNat_wrapNat]
  rfl

/-- Quotient or remainder, as `g` picks it from the cases of R243. -/
theorem answer_sdivCases {signed : Bool} (h : sdivCases signed (s.getS a).toNat (s.getS b).toNat = (q, r, f))
    (g : Int × Int × Byte → Int) : answer s (s.scalar2 d a b (fun x y =>
      (wrapNat (g (sdivCases signed x y)) 64, (sdivCases signed x y).2.2))) =
        .next ((s.setS d (BitVec.ofInt 64 (g (q, r, f)))).raise f).retire := by
  rw [State.scalar2, h]
  exact answer_division hz _

theorem exec_sdiv_srem (h : sdivCases true (s.getS a).toNat (s.getS b).toNat = (q, r, f)) :
    exec (.sdiv d a b) s = .next ((s.setS d (BitVec.ofInt 64 q)).raise f).retire ∧
    exec (.srem d a b) s = .next ((s.setS d (BitVec.ofInt 64 r)).raise f).retire :=
  ⟨answer_sdivCases hz h Prod.fst, answer_sdivCases hz h (fun c => c.2.1)⟩

theorem exec_sdivu_sremu (h : sdivCases false (s.getS a).toNat (s.getS b).toNat = (q, r, f)) :
    exec (.sdivu d a b) s = .next ((s.setS d (BitVec.ofInt 64 q)).raise f).retire ∧
    exec (.sremu d a b) s = .next ((s.setS d (BitVec.ofInt 64 r)).raise f).retire :=
  ⟨answer_sdivCases hz h Prod.fst, answer_sdivCases hz h (fun c => c.2.1)⟩

end

end

/-- Settles O15: each value of the model is the word that R242 names. -/
theorem scalarRegisterWords : Obligations.ScalarRegisterWords := by
  intro d a b s hz x y n
  have hn : n < 64 := Nat.mod_lt _ (by decide)
  exact ⟨answer_scalar hz (ofNat_add_toNat x y), answer_scalar hz (ofNat_sub_toNat x y), answer_scalar hz (ofNat_mul_toNat x y),
    answer_scalar hz (ofNat_mulh_toNat x y), answer_scalar hz (ofNat_and_toNat x y), answer_scalar hz (ofNat_or_toNat x y),
    answer_scalar hz (ofNat_xor_toNat x y), answer_scalar hz (ofNat_andn_toNat x y), answer_scalar hz (ofNat_shl_toNat x n),
    answer_scalar hz (ofNat_shr_toNat x n), answer_scalar hz (ofNat_sra_toNat x n), answer_scalar hz (ofNat_rotr_toNat x n hn),
    answer_scalar hz (ofNat_min_toNat x y), answer_scalar hz (ofNat_max_toNat x y), answer_scalar hz (ofNat_minu_toNat x y),
    answer_scalar hz (ofNat_maxu_toNat x y), answer_scalar hz (ofNat_slt_toNat x y (sx_toNat y)),
    answer_scalar hz (ofNat_sltu_toNat x y), answer_scalar hz (ofNat_seq_toNat x y), answer_scalar hz (ofNat_sne_toNat x y),
    answer_scalar hz (ofNat_sel_toNat x y _), answer_scalar hz (ofNat_selz_toNat x y), answer_scalar hz (ofNat_popCount_toNat x),
    answer_scalar hz (ofNat_leadingZeros_toNat x), answer_scalar hz (ofNat_trailingZeros_toNat x),
    answer_scalar hz (ofNat_bitReverse_toNat x)⟩

/-- Settles O16: by the two fixed cases of R243 and the rest. -/
theorem scalarDivision : Obligations.ScalarDivision := by
  intro d a b s hz x y
  refine ⟨fun hy => ?_, fun ⟨hx, hy⟩ => ?_, fun hy h => ?_, fun hy => ?_⟩
  · obtain ⟨hdiv, hrem⟩ := exec_sdiv_srem (d := d) hz (hy ▸ sdivCases_zero true : sdivCases true x.toNat y.toNat = _)
    obtain ⟨hdivu, hremu⟩ := exec_sdivu_sremu (d := d) hz (hy ▸ sdivCases_zero false : sdivCases false x.toNat y.toNat = _)
    rw [if_pos rfl, BitVec.ofInt_toInt] at hrem
    rw [if_neg (by decide), BitVec.ofInt_natCast, ofNat_toNat_self] at hremu
    exact ⟨hdiv, hdivu, hrem, hremu⟩
  · exact exec_sdiv_srem hz (hx ▸ hy ▸ sdivCases_overflow : sdivCases true x.toNat y.toNat = _)
  · obtain ⟨hdiv, hrem⟩ := exec_sdiv_srem (d := d) hz (sdivCases_signed hy h)
    rw [raise_zero] at hdiv hrem
    exact ⟨hdiv, hrem⟩
  · obtain ⟨hdiv, hrem⟩ := exec_sdivu_sremu (d := d) hz (sdivCases_unsigned (x := x) hy)
    rw [raise_zero, BitVec.ofInt_natCast] at hdiv hrem
    rw [ofNat_div_toNat] at hdiv
    rw [ofNat_mod_toNat] at hrem
    exact ⟨hdiv, hrem⟩

/-- Settles O17: an immediate is sign-extended to 64 bits. -/
theorem scalarImmediateWords : Obligations.ScalarImmediateWords := by
  intro d a i n s hz x m
  have hm : BitVec.ofNat 64 (imm9 i) = m := ofNat_imm9 i
  have hx : BitVec.ofNat 64 x.toNat = x := ofNat_toNat_self x
  refine ⟨answer_scalar hz ?_, answer_scalar hz ?_, answer_scalar hz ?_, answer_scalar hz ?_,
    answer_scalar hz (ofNat_shl_toNat x n), answer_scalar hz (ofNat_shr_toNat x n), answer_scalar hz (ofNat_sra_toNat x n),
    answer_scalar hz (ofNat_slt_toNat x m (sextInt_eq_toInt_imm9 i)), answer_scalar hz (ofNat_imm17 i), answer_scalar hz ?_⟩
  · rw [BitVec.ofNat_add, hx, hm]
  · rw [BitVec.ofNat_and, hx, hm]
  · rw [BitVec.ofNat_or, hx, hm]
  · rw [BitVec.ofNat_xor, hx, hm]
  · rw [BitVec.ofNat_add, ofNat_shl_toNat]

/-! ### What the scalar words leave (R55, R183, R241) -/

/-- Every scalar word is one write of `State.scalar`, and only a division gives it a flag. -/
theorem exec_of_scalarDest {i : Instr} {d : Nat} (h : scalarDest i = some d) (s : State) :
    ∃ x : Nat × Byte, exec i s = answer s (s.scalar d x) ∧ (x.2 = 0 ∨ x.2 = flagIDZ ∨ x.2 = flagIOV) ∧
      (isDivision i = false → x.2 = 0) := by
  cases i with
  | sdiv _ a b | srem _ a b =>
    cases h
    exact ⟨_, rfl, sdivCases_flag true _ _, nofun⟩
  | sdivu _ a b | sremu _ a b =>
    cases h
    exact ⟨_, rfl, sdivCases_flag false _ _, nofun⟩
  | sadd | ssub | smul | smulh | sand | sor | sxor | sandn | sshl | sshr | ssra | srotr | smin | smax | sminu | smaxu | sslt
  | ssltu | sseq | ssne | ssel | sselz | spopc | sclz | sctz | sbrev | saddi | sandi | sori | sxori | sshli | sshri | ssrai
  | sslti | sli | slui =>
    cases h
    exact ⟨_, rfl, .inl rfl, fun _ => rfl⟩
  | _ => exact nomatch h

/-- COUNT alone may advance as an instruction ends, where an issue before left that due (R46). -/
theorem retire_team_sp (s : State) : s.retire.team.sp = { s.team.sp with srStream := s.retire.team.sp.srStream } ∧
    (s.team.srDue = false → s.retire.team.sp.srStream = s.team.sp.srStream) := by
  unfold State.retire
  dsimp only
  split
  · exact ⟨rfl, fun _ => rfl⟩
  · dsimp only [Team.leaveOffset]
    split
    · next h => exact ⟨rfl, fun h' => absurd h (by rw [show s.issueDone.team.srDue = s.team.srDue from rfl, h']; decide)⟩
    · exact ⟨rfl, fun _ => rfl⟩

theorem sameBytes_retire {s t : State} (h : sameBytes s t) : sameBytes s t.retire :=
  sameBytes_trans h (sameBytes_of_stores (by simp) (by simp) (by simp) (by simp) (by simp))

theorem sameBytes_setS (s : State) (d : Nat) (v : Word64) : sameBytes s (s.setS d v) :=
  sameBytes_of_stores (by simp) (by simp) (by simp) (by simp) (by simp)

/-- Outside memory, only s[d] and flags change as a scalar word ends (R241). -/
theorem scalarWrite_team (s : State) (d : Nat) (x : Word64) (f : Byte) :
    ∃ r, ((s.setS d x).raise f).team =
      { s.team with regs := { s.team.regs with s := r }, sp := { s.team.sp with sticky := s.team.sp.sticky ||| f } } := by
  unfold State.setS
  split <;> exact ⟨_, rfl⟩

/-- Settles O18: such a word is one write of State.scalar, beyond which only flags and COUNT can change. -/
theorem scalarWordsFrame : Obligations.ScalarWordsFrame := by
  intro i d s t hd hs
  obtain ⟨x, hx, hf, hn⟩ := exec_of_scalarDest hd s
  refine ⟨fun off hz => by rw [hx, scalar_hazard hz]; rfl, fun hz ht => ?_⟩
  rw [hx, scalar_ok hz] at ht
  obtain rfl : _ = t := Host.Outcome.next.inj ht
  obtain ⟨hsp, hsr⟩ := retire_team_sp ((s.setS d (BitVec.ofNat 64 x.1)).raise x.2)
  have hget (n : Nat) : ((s.setS d (BitVec.ofNat 64 x.1)).raise x.2).retire.getS n = (s.setS d (BitVec.ofNat 64 x.1)).getS n := by
    simp [State.getS]
  have hflag : ((s.setS d (BitVec.ofNat 64 x.1)).raise x.2).retire.team.sp.sticky = s.team.sp.sticky ||| x.2 := by
    rw [hsp]
    simp
  obtain ⟨r, hr⟩ := scalarWrite_team s d (BitVec.ofNat 64 x.1) x.2
  rw [hr] at hsp hsr
  refine ⟨fun n hne => ?_, rfl, ?_, ?_, ?_, ?_, hsr, fun hdiv => ?_, ⟨x.2, hf, hflag⟩, ?_, ?_, ?_, ?_, ?_⟩
  · rw [hget, State.getS_setS_ne hs hne]
  · simp [hr]
  · simp [hr]
  · simp [hr]
  · rw [hsp]
  · rw [hflag, hn hdiv]
    exact BitVec.or_zero
  · simp
  · simp
  · simp
  · simp
  · exact sameBytes_retire (sameBytes_trans (sameBytes_setS s d _) (sameBytes_of_stores rfl rfl rfl rfl rfl))

end Sys2Proof.Machine
end

section
/-!
PROOF. The plane numbers (R72, R221..R223): what PLSET and PLSEL write per lane and which planes PLOCC finds occupied.
-/
namespace Sys2Proof.Machine

/-! ### Lanes and their planes -/

section
variable (y : Lanes) {l : Nat}

/-- Bits set or cleared under a mask. -/
theorem getLsbD_setUnder (x m : Mask) (b : Prop) [Decidable b] (hl : l < 1024) :
    (if b then x ||| m else x &&& ~~~m).getLsbD l = if m.getLsbD l then decide b else x.getLsbD l := by
  split
  · next hb => cases hm : m.getLsbD l <;> simp [hm, hb, -BitVec.getLsbD_eq_getElem]
  · next hb => cases hm : m.getLsbD l <;> simp [hm, hb, hl, -BitVec.getLsbD_eq_getElem]

theorem setPlane_plane (m : Mask) (k : Nat) (hl : l < 1024) :
    (y.setPlane m k).plane l = if m.getLsbD l then k % 4 else y.plane l := by
  unfold Lanes.plane Lanes.setPlane
  dsimp only
  rw [getLsbD_setUnder _ _ _ hl, getLsbD_setUnder _ _ _ hl]
  cases m.getLsbD l with
  | false => rfl
  | true =>
    simp only [if_true, decide_eq_true_iff]
    split_ifs <;> omega

/-- The numbers that PLSET gives to lanes, one after the other. -/
def Lanes.setPlanes (y : Lanes) (f : Nat → Nat) (ls : List Nat) : Lanes :=
  ls.foldl (fun y i => y.setPlane (laneBit i) (f i % 4)) y

theorem setPlanes_masks (f : Nat → Nat) (ls : List Nat) :
    y.setPlanes f ls = { y with plane0 := (y.setPlanes f ls).plane0, plane1 := (y.setPlanes f ls).plane1 } := by
  induction ls generalizing y with
  | nil => rfl
  | cons i is ih => exact ih (y.setPlane (laneBit i) (f i % 4))

/-- Each lane of the list has its own number in the end, and no other lane has changed. -/
theorem setPlanes_plane (f : Nat → Nat) {ls : List Nat} (hls : ∀ i ∈ ls, i < 1024) (hl : l < 1024) :
    (y.setPlanes f ls).plane l = if l ∈ ls then f l % 4 else y.plane l := by
  induction ls generalizing y with
  | nil => rfl
  | cons i is ih =>
    obtain ⟨hi, his⟩ := List.forall_mem_cons.mp hls
    refine (ih (y.setPlane (laneBit i) (f i % 4)) his).trans ?_
    rw [setPlane_plane y _ _ hl, getLsbD_laneBit hi, Nat.mod_mod]
    by_cases h : i = l
    · simp [h]
    · simp [h, Ne.symm h]

/-- The two bits of a plane number. -/
theorem twoBits_eq (a b : Bool) {k : Nat} (hk : k < 4) : ((a == decide (k % 2 = 1)) && (b == decide (k / 2 % 2 = 1))) =
    decide ((if a then 1 else 0) + (if b then 2 else 0) = k) := by
  revert k
  cases a <;> cases b <;> decide

theorem getLsbD_ite_not (x : Mask) (b : Prop) [Decidable b] (hl : l < 1024) :
    (if b then x else ~~~x).getLsbD l = (x.getLsbD l == decide b) := by
  split
  · next hb => simp [hb, -BitVec.getLsbD_eq_getElem]
  · next hb => simp [hb, hl, -BitVec.getLsbD_eq_getElem]

/-- A lane is in the mask of its own plane and in no other. -/
theorem getLsbD_inPlane {k : Nat} (hk : k < 4) (hl : l < 1024) : (y.inPlane k).getLsbD l = decide (y.plane l = k) := by
  unfold Lanes.inPlane Lanes.plane
  rw [BitVec.getLsbD_and, getLsbD_ite_not _ _ hl, getLsbD_ite_not _ _ hl]
  exact twoBits_eq _ _ hk

end

/-- A mask is nonzero when it has a lane. -/
theorem mask_ne_zero_iff (m : Mask) : m ≠ 0 ↔ ∃ l, l < 1024 ∧ m.getLsbD l = true := by
  refine ⟨fun h => ?_, ?_⟩
  · by_contra hn
    push Not at hn
    exact h (BitVec.eq_of_getLsbD_eq fun l hl => by simp [hn l hl])
  · rintro ⟨l, -, hl⟩ rfl
    simp at hl

theorem mem_planes {t : Team} {k : Nat} :
    k ∈ t.planes ↔ k < 4 ∧ ∃ l, l < 1024 ∧ t.lanes.active.getLsbD l = true ∧ t.lanes.plane l = k := by
  unfold Team.planes
  rw [List.mem_filter, List.mem_range]
  refine and_congr_right fun hk => ?_
  rw [bne_iff_ne, mask_ne_zero_iff]
  refine exists_congr fun l => and_congr_right fun hl => ?_
  rw [BitVec.getLsbD_and, getLsbD_inPlane _ hk hl, Bool.and_eq_true, decide_eq_true_iff]

/-- PLOCC's number has the bits of the occupied planes. -/
theorem getLsbD_planes (t : Team) (k : Nat) :
    (BitVec.ofNat 64 (t.planes.map (fun k => 2 ^ k)).sum).getLsbD k = true ↔ k ∈ t.planes := by
  have hs : t.planes.SortedLT := (List.sortedLT_range 4).pairwise.filter _ |>.sortedLT
  have hbits : (t.planes.map (fun k => 2 ^ k)).sum.testBit k = true ↔ k ∈ t.planes := by
    rw [← Nat.mem_bitIndices, Nat.bitIndices_sum_map_two_pow hs]
  rw [BitVec.getLsbD_ofNat, Bool.and_eq_true, decide_eq_true_iff, hbits]
  refine and_iff_right_of_imp fun hk => ?_
  have := (mem_planes.mp hk).1
  omega

/-! ### The words -/

section
variable (s : State)

/-- A write of lanes and the end of the instruction leave the stores. -/
theorem sameBytes_withLanes_retireCtl (x : Lanes) : sameBytes s (s.withLanes x).retireCtl :=
  sameBytes_goTo (sameBytes_team s _) _

theorem exec_plset_windowRange {a : Nat} (h : s.vOk a = false) :
    exec (.plset a) s = .next (takeFault (s.flt .windowRange) s) :=
  answer_bind_error (need_error (by simp [State.windowOk, h]) _)

theorem exec_plset {a : Nat} (h : s.vOk a = true) : exec (.plset a) s = .next (s.withLanes
    (s.team.lanes.setPlanes (fun l => (s.getV a l).toNat) (lanesOf s.team.size s.selected))).retireCtl :=
  answer_bind_ok (need_ok (by simp [State.windowOk, h]) _)

end

/-- Settles O24: lane by lane for PLSET and PLSEL, bit by bit for PLOCC. -/
theorem planeWords : Obligations.PlaneWords := by
  intro a b d f t p s hb hf ht x same
  refine ⟨exec_plset_windowRange s, fun h => ?_, ?_, ?_, ?_⟩
  · have hm := setPlanes_masks x (fun l => (s.getV a l).toNat) (lanesOf s.team.size s.selected)
    refine ⟨_, exec_plset s h, ⟨rfl, rfl, congrArg (·.active) hm, congrArg (·.vacant) hm, congrArg (·.stack) hm,
      sameBytes_withLanes_retireCtl s _⟩, rfl, fun l hl => ?_⟩
    refine (setPlanes_plane x _ (fun i hi => BitVec.lt_of_getLsbD (mem_lanesOf.mp hi).2) hl).trans ?_
    exact if_congr mem_lanesOf rfl rfl
  · refine ⟨_, rfl, ⟨rfl, rfl, rfl, rfl, rfl, sameBytes_withLanes_retireCtl s _⟩, rfl, fun l hl => ?_⟩
    exact (setPlane_plane x _ b hl).trans (by rw [Nat.mod_eq_of_lt hb])
  · refine ⟨_, rfl, ⟨rfl, rfl, rfl, rfl, rfl, sameBytes_withLanes_retireCtl s _⟩, rfl, fun l hl => ?_⟩
    refine (setPlane_plane _ _ f hl).trans ?_
    rw [setPlane_plane _ _ t hl, Nat.mod_eq_of_lt hf, Nat.mod_eq_of_lt ht, BitVec.getLsbD_and, BitVec.getLsbD_and,
      BitVec.getLsbD_not, decide_eq_true hl]
    cases x.active.getLsbD l <;> cases (s.getP p).getLsbD l <;> rfl
  · obtain ⟨hissued, hpc⟩ := setS_retireCtl_ends (s := s) d (BitVec.ofNat 64 (s.team.planes.map (fun k => 2 ^ k)).sum)
    have hx : (s.setS d (BitVec.ofNat 64 (s.team.planes.map (fun k => 2 ^ k)).sum)).retireCtl.team.lanes = x := by simp [x]
    exact ⟨_, _, rfl, ⟨hissued, hpc, congrArg (·.active) hx, congrArg (·.vacant) hx, congrArg (·.stack) hx,
      sameBytes_goTo (sameBytes_setS s d _) _⟩, hx, rfl, fun k => (getLsbD_planes s.team k).trans mem_planes⟩

end Sys2Proof.Machine
end

section
/-!
PROOF. The mode and the special registers (R177, R224, R228, R231, R234..R236).
-/
namespace Sys2Proof.Machine

section
variable (s : State)

/-! ### Writes -/

/-- A special register that is read-only keeps its value (R234). -/
theorem special_write_readOnly (y : Special) (v : Word64) {i : Nat} (h : i < 0x17 ∨ 0x1A < i) : y.write i v = y := by
  unfold Special.write
  split
  case h_5 => rfl
  all_goals omega

theorem exec_swr_readOnly (r : Nat) {i : Nat} (h : i < 0x17 ∨ 0x1A < i) : exec (.swr r i) s = .next s.retireCtl :=
  congrArg (fun y => Host.Outcome.next (s.withSp y).retireCtl) (special_write_readOnly s.team.sp (s.getS r) h)

/-- R177: the type is at most 13, the rounding mode at most 5, and no bit above 12 is set. -/
theorem modeValid_iff {m : Word64} :
    modeValid m = true ↔ ¬(14 ≤ m.toNat % 16 ∨ 6 ≤ m.toNat / 2 ^ 8 % 8 ∨ 2 ^ 13 ≤ m.toNat) := by
  simp only [modeValid, field, Bool.and_eq_true, decide_eq_true_iff]
  omega

theorem answer_setMode_valid {m : Word64} (h : modeValid m = true) :
    answer s (do return (← s.setMode m).retireCtl) = .next (s.withSp { s.team.sp with mode := m }).retireCtl :=
  answer_bind_ok (except_bind_ok (need_ok h _))

theorem answer_setMode_illegal {m : Word64} (h : modeValid m = false) :
    answer s (do return (← s.setMode m).retireCtl) = .next (takeFault (s.flt .illegalMode) s) :=
  answer_bind_error (except_bind_error (need_error h _))

/-- R114: the stack pointer is a multiple of 8 within the stack. -/
theorem exec_swrSsp_valid {r : Nat} (h8 : (s.getS r).toNat % 8 = 0) (hk : (s.getS r).toNat ≤ s.blk.k.sstack) :
    exec (.swrSsp r) s = .next (s.withSp { s.team.sp with ssp := (s.getS r).toNat }).retireCtl :=
  answer_bind_ok (need_ok (by simp [h8, hk]) _)

theorem exec_swrSsp_stack {r : Nat} (h : ¬((s.getS r).toNat % 8 = 0 ∧ (s.getS r).toNat ≤ s.blk.k.sstack)) :
    exec (.swrSsp r) s = .next (takeFault (s.flt .stack) s) :=
  answer_bind_error (need_error (by simpa using h) _)

/-! ### Reads -/

/-- SRD of 0x04 is the block's number in its cluster (R235). -/
theorem special_cluster {c : Cluster} (h : s.findCluster s.blk.cid = some c) : s.special 4 = c.index := by
  simp only [State.special, h]

end

/-- Settles O25: a read or a write is an equation of the model per register, once the checks of R114 and R177 are known. -/
theorem modeAndSpecialRegisters : Obligations.ModeAndSpecialRegisters := by
  intro d r n s rd sp x bad wr
  have hvalid {m : Word64} (h : ¬bad m) : modeValid m = true := modeValid_iff.mpr h
  have hillegal {m : Word64} (h : bad m) : modeValid m = false := Bool.eq_false_iff.mpr fun hv => modeValid_iff.mp hv h
  refine ⟨?_, ⟨rfl, rfl, rfl, rfl, fun i => exec_swr_readOnly s r⟩, fun h => answer_setMode_valid s (hvalid h),
    fun h => answer_setMode_illegal s (hillegal h), fun h => answer_setMode_valid s (hvalid h),
    fun h => answer_setMode_illegal s (hillegal h), ?_, exec_swrSsp_valid s, exec_swrSsp_stack s, rfl, rfl, rfl⟩
  · refine ⟨rfl, rfl, rfl, rfl, rfl, rfl, rfl, rfl, rfl, rfl, rfl, rfl, rfl, rfl, rfl, rfl, rfl, rfl, rfl, rfl, rfl, rfl, rfl,
      rfl, rfl, rfl, fun c hc => ?_, fun i => ⟨_, rfl⟩⟩
    rw [← special_cluster s hc]
    rfl
  · exact congrArg (fun b => Host.Outcome.next (s.withSp { sp with sticky := b }).retireCtl) (BitVec.ofNat_toNat 8 x)

end Sys2Proof.Machine
end

section
/-!
PROOF. YIELD and its deadline (R225, R226), and a request taken at a safepoint that names no routines (R412, R413).
-/
namespace Sys2Proof.Machine

section
variable {s : State} {i d : Nat}

/-- The state in which YIELD passes: its deadline armed for `d` issues, or disarmed by 0 (R225, R226). -/
def State.yielded (s : State) (d : Nat) : State :=
  { s.retireCtl with team := { s.retireCtl.team with deadline := if d = 0 then none else some (d, 0) } }

theorem exec_yield_illegal (h : s.blk.k.yieldMax < d) :
    exec (.yield i d) s = .next (takeFault (s.flt .illegalInstruction) s) :=
  answer_bind_error (need_error (decide_eq_false (by omega)) _)

/-- How YIELD ends after it has put a pending request to its safepoint: suspended, in the fault of a save call, or as it
would have without the request. -/
def State.afterRequest (s : State) (d : Nat) : Except Halt (Option State) → Except FaultInfo State
  | .ok (some u) => .ok u
  | .error (.fault f) => .error (f.ofSave s.team.pc s.iss.plane)
  | _ => .ok (s.yielded d)

section
variable (hd : d ≤ s.blk.k.yieldMax)
include hd

theorem exec_yield_passes (hp : s.team.pre.pending = false) : exec (.yield i d) s = .next (s.yielded d) :=
  (answer_bind_ok (need_ok (decide_eq_true hd) _)).trans (congrArg (answer s) (if_neg (Bool.eq_false_iff.mp hp)))

theorem exec_yield_request (hp : s.team.pre.pending = true) : exec (.yield i d) s = answer s (s.afterRequest d
    ((s.yielded d).takeRequest (s.blk.k.safePoints.find? (fun p => p.id == i)) s.nextPc none)) :=
  (answer_bind_ok (need_ok (decide_eq_true hd) _)).trans (congrArg (answer s) (if_pos hp))

end

/-! ### A request without routines -/

/-- The team in focus suspended at a safepoint without routines (R412, R413). -/
def State.suspendedAt (s : State) (resOff : Word32) : State :=
  { s.countCore 14 1 with team := { s.team with
    phase := .suspended, timeout := none, reqSteps := 0, reqCopy := 0
    pre := { s.team.pre with
      pending := false, resOff := resOff, smask := s.team.lanes.active, wait := none, savedSlots := [], savedTiles := []
      saving := none, restoring := none, routine := none, ctx := s.ctxBytes, seq := s.team.engSeq
      outer := s.team.pre.frame :: s.team.pre.outer } } }

theorem holdsClaims_iff {t : Team} : t.holdsClaims = true ↔ t.mat.slots ≠ [] ∨ t.mat.tiles ≠ [] := by
  simp [Team.holdsClaims]

theorem takeRequest_suspends (resOff : Word32) (hc : s.ctxUsed + s.ctxBytes ≤ s.amc.cfg.ctxSize)
    (hm : ¬s.team.holdsClaims = true) : s.takeRequest none resOff none = .ok (some (s.suspendedAt resOff)) :=
  (if_neg (by omega)).trans (if_neg hm)

/-- A team that holds a claim keeps its request, whether the pool has room or not. -/
theorem takeRequest_of_claims (resOff : Word32) (hm : s.team.holdsClaims = true) :
    s.takeRequest none resOff none = .ok none :=
  (ite_congr rfl (fun _ => rfl) fun _ => if_pos hm).trans (ite_self _)

/-- The pool is counted by team and pre-emption state (R413). -/
theorem ctxUsed_congr {t : State} (hu : t.team.uid = s.team.uid) (hp : t.team.pre = s.team.pre) (ho : t.others = s.others) :
    t.ctxUsed = s.ctxUsed := by
  unfold State.ctxUsed State.teams
  rw [hu, ho]
  split
  · rfl
  · rw [List.map_cons, List.map_cons, hp]

theorem ctxUsed_yielded : (s.yielded d).ctxUsed = s.ctxUsed := ctxUsed_congr rfl rfl rfl

theorem ctxBytes_yielded : (s.yielded d).ctxBytes = s.ctxBytes := rfl

/-- The context of a team is counted in the pool once it is suspended (R413). -/
theorem ctxUsed_suspendedAt (resOff : Word32) (hu : s.team.uid ≠ 0) :
    (s.suspendedAt resOff).ctxUsed = s.ctxUsed + s.ctxBytes := by
  have ht : (s.suspendedAt resOff).teams = (s.suspendedAt resOff).team :: s.others := if_neg hu
  have hs : s.teams = s.team :: s.others := if_neg hu
  simp only [State.ctxUsed, ht, hs, List.map_cons, List.sum_cons]
  simp only [State.suspendedAt, Preempt.bytes, Preempt.frame, List.map_cons, List.sum_cons]
  omega

theorem sameBytes_yielded (s : State) (d : Nat) : sameBytes s (s.yielded d) :=
  sameBytes_trans (sameBytes_goTo (sameBytes_team s s.team) _) (sameBytes_team _ _)

theorem sameBytes_suspendedAt (s : State) (resOff : Word32) : sameBytes s (s.suspendedAt resOff) :=
  sameBytes_trans (sameBytes_amc s _) (sameBytes_team _ _)

theorem suspendedAt_frame (s : State) (resOff : Word32) : (s.suspendedAt resOff).issued = s.issued ∧
    (s.suspendedAt resOff).team.phase = .suspended ∧ (s.suspendedAt resOff).team.pre.pending = false ∧
    (s.suspendedAt resOff).team.pre.resOff = resOff ∧ (s.suspendedAt resOff).team.pre.smask = s.team.lanes.active ∧
    (s.suspendedAt resOff).team.regs = s.team.regs ∧ (s.suspendedAt resOff).team.lanes = s.team.lanes ∧
    (s.suspendedAt resOff).team.win = s.team.win :=
  ⟨rfl, rfl, rfl, rfl, rfl, rfl, rfl, rfl⟩

/-! ### The watchdog -/

theorem exec_yieldOverrun_fault {m c : Nat} (hr : s.team.phase = .ready) (hd : s.team.deadline = some (m, c)) (h : m ≤ c) :
    exec .yieldOverrun s = .next (takeFault (s.flt .yieldOverrun) s) :=
  congrArg Host.Outcome.next (if_pos (by simp [hr, hd, h]))

theorem exec_yieldOverrun_early {m c : Nat} (hd : s.team.deadline = some (m, c)) (h : c < m) :
    exec .yieldOverrun s = .next s :=
  congrArg Host.Outcome.next (if_neg (by simp [hd, h]))

end

/-- Settles O27: the suspension is that of the state in which YIELD would have passed. -/
theorem yieldAndWatchdog : Obligations.YieldAndWatchdog := by
  intro i d s
  refine ⟨exec_yield_illegal, exec_yield_passes, fun hd hp hsafe => ?_, fun m c hr hm =>
    ⟨exec_yieldOverrun_fault hr hm, exec_yieldOverrun_early hm⟩⟩
  have hx := exec_yield_request (i := i) hd hp
  rw [hsafe] at hx
  refine ⟨fun hslots htiles hroom hu => ?_, fun hclaims => ?_⟩
  · have hm : ¬(s.yielded d).team.holdsClaims = true := fun h => (holdsClaims_iff.mp h).elim (· hslots) (· htiles)
    rw [List.find?_nil, takeRequest_suspends (s := s.yielded d) s.nextPc (by rwa [ctxUsed_yielded]) hm] at hx
    have hused := ctxUsed_suspendedAt (s := s.yielded d) s.nextPc hu
    rw [ctxUsed_yielded, ctxBytes_yielded] at hused
    obtain ⟨hissued, hphase, hpending, hoff, hmask, hregs, hlanes, hwin⟩ := suspendedAt_frame (s.yielded d) s.nextPc
    exact ⟨(s.yielded d).suspendedAt s.nextPc, hx, hissued, hphase, hpending, hoff, hmask, hused, hregs, hlanes, hwin,
      sameBytes_trans (sameBytes_yielded s d) (sameBytes_suspendedAt _ _)⟩
  · rw [List.find?_nil, takeRequest_of_claims (s := s.yielded d) s.nextPc (holdsClaims_iff.mpr hclaims)] at hx
    exact hx

end Sys2Proof.Machine
end

section
/-!
PROOF. EXIT, TEXIT and the DISB of a solo team (R75, R109, R110, R210, R211, R214): where a team goes on whose active lanes
have ended.
-/
namespace Sys2Proof.Machine

section
variable {s : State} {allow : Bool} {n : Nat} {lk : LinkRec} {ls : List LinkRec}

/-! ### The part of the stack that belongs to the frame -/

/-- The stack of a frame is the part above what the frame's caller had (R110). -/
theorem take_frame {own jd : List StackEntry} {k : Nat} (h : jd.length = k) :
    (own ++ jd).take ((own ++ jd).length - k) = own := by
  rw [List.length_append, h, Nat.add_sub_cancel, List.take_left]

theorem drop_frame {own jd : List StackEntry} {k : Nat} (h : jd.length = k) :
    (own ++ jd).drop ((own ++ jd).length - k) = jd := by
  rw [List.length_append, h, Nat.add_sub_cancel, List.drop_left]

/-! ### A return to the caller's frame -/

/-- The team stands in its caller's frame, at the return offset; `a` holds the counters of events (R96). -/
def State.inCaller (s : State) (lk : LinkRec) (a : Amc) : State :=
  let t := ({ s with amc := a } : State).slide (s.team.win.returned lk)
  { t with team := { t.team with pc := lk.retOff } }

theorem sameBytes_inCaller (s : State) (lk : LinkRec) (a : Amc) : sameBytes s (s.inCaller lk a) :=
  sameBytes_trans (sameBytes_amc s a) (sameBytes_team _ _)

section
variable (hl : s.team.win.links = lk :: ls) (hd : s.team.win.depth ≠ 0) (hj : s.team.lanes.stack.length = lk.jd)
include hl hd hj

theorem retFrame_planeRange (ht : inUpperCopy s.blk.k.planes lk.retOff.toNat = true) :
    s.retFrame allow = .error (.fault (s.flt .planeRange)) :=
  needW_pass (decide_eq_true hd) ((halt_bind_ok (topLink_cons hl)).trans
    (needW_pass (decide_eq_true hj) (needW_stop (targetOk_false ht))))

theorem retFrame_resident (ht : inUpperCopy s.blk.k.planes lk.retOff.toNat = false)
    (hlo : s.team.win.lo ≤ s.team.win.b - lk.k) (hhi : s.team.win.b - lk.k + lk.cfs ≤ s.team.win.lo + s.blk.k.ring)
    (hs : s.team.pre.saving = none) (hr : s.team.pre.restoring = none) :
    ∃ a, s.retFrame allow = .ok (s.inCaller lk a) := by
  obtain ⟨a, ha⟩ := makeResident_resident (allow := allow) hlo hhi
  have he : s.retFrame allow = .ok _ := needW_pass (decide_eq_true hd) ((halt_bind_ok (topLink_cons hl)).trans
    (needW_pass (decide_eq_true hj) (needW_pass (targetOk_true ht) (halt_bind_ok ha))))
  rw [endRoutine_of_none (by exact hs) (by exact hr)] at he
  exact ⟨a, he⟩

end

/-! ### An emptied active set inside a call (R110) -/

/-- The frame's own entries are gone, its caller's stand. -/
abbrev State.withStack (s : State) (es : List StackEntry) : State := s.withLanes { s.team.lanes with stack := es }

section
variable {own jd : List StackEntry} (h : s.team.lanes.active = 0) (hd : s.team.win.depth ≠ 0)
  (hl : s.team.win.links = lk :: ls) (hst : s.team.lanes.stack = own ++ jd) (hj : jd.length = lk.jd)
include h hd hl hst hj

/-- An entry of the frame that has lanes is the place to go on. -/
theorem emptied_frame_live {e : StackEntry} {es : List StackEntry} (hp : popLive own = some (e, es)) :
    s.emptied allow (n + 1) = if s.targetOk e.resume then .ok (s.resumeEntry e (es ++ jd))
      else .error (.fault (s.flt .planeRange)) := by
  unfold State.emptied
  dsimp only
  rw [if_neg (not_not_intro h), if_neg hd, topLink_cons hl, hst]
  dsimp only
  rw [take_frame hj, drop_frame hj, hp]
  rfl

/-- A frame without lanes returns to its caller: a CALLI takes up the lanes of its J entry, another caller looks for an
entry in turn. -/
theorem emptied_frame_dead (hp : popLive own = none) :
    s.emptied allow (n + 1) = (s.withStack jd).retFrame allow >>= fun t =>
      if lk.calli then .ok (t.withLanes { t.team.lanes with
        active := (t.team.lanes.stack.head?.map StackEntry.mask).getD 0 })
      else t.emptied allow n := by
  conv_lhs => unfold State.emptied
  dsimp only
  rw [if_neg (not_not_intro h), if_neg hd, topLink_cons hl, hst]
  dsimp only
  rw [take_frame hj, drop_frame hj, hp]
  dsimp only
  cases (s.withStack jd).retFrame allow <;> rfl

end

/-- A frame of depth 0 has the whole stack; below a call the link says how much of it is the caller's (R75, R110). -/
def State.ownStack (s : State) (jd : List StackEntry) : Prop :=
  s.team.win.depth = 0 ∧ jd = [] ∨ s.team.win.depth ≠ 0 ∧ ∃ lk ls, s.team.win.links = lk :: ls ∧ lk.jd = jd.length

theorem emptied_live {skipped below jd : List StackEntry} {e : StackEntry} (h : s.team.lanes.active = 0)
    (hst : s.team.lanes.stack = skipped ++ e :: below ++ jd) (hz : ∀ y ∈ skipped, y.mask = 0) (he : e.mask ≠ 0)
    (hown : s.ownStack jd) : s.emptied allow (n + 1) =
      if s.targetOk e.resume then .ok (s.resumeEntry e (below ++ jd)) else .error (.fault (s.flt .planeRange)) := by
  have hp : popLive (skipped ++ e :: below) = some (e, below) := (popLive_append hz).trans (popLive_cons he)
  obtain ⟨hd, rfl⟩ | ⟨hd, lk, ls, hl, hj⟩ := hown
  · rw [List.append_nil] at hst ⊢
    rw [← hst] at hp
    cases ht : s.targetOk e.resume
    · exact emptied_planeRange h hd hp ht
    · exact emptied_resumes h hd hp ht
  · exact emptied_frame_live h hd hl hst hj.symm hp

end

/-! ### EXIT -/

section
variable {s t : State}

/-- The active lanes of the team have ended (R210), where it goes on being open. -/
def State.lanesEnded (s : State) : State := s.withLanes (s.team.lanes.vacate s.team.lanes.active)

theorem lanesEnded_active : s.lanesEnded.team.lanes.active = 0 := BitVec.and_not_self _

/-- What is left of the stack (R75). -/
abbrev State.leftStack (s : State) : List StackEntry :=
  s.team.lanes.stack.map fun e => { e with mask := e.mask &&& ~~~s.team.lanes.active }

theorem exec_exit (h : s.lanesEnded.emptied false (s.team.win.depth + 1) = .ok t) : exec .exit s = .next t.goOn := by
  refine answerWindow_ok (r := s.opExit false) ?_
  unfold State.opExit
  rw [show (s.withLanes (s.team.lanes.vacate s.team.lanes.active)).emptied false s.frames = .ok t from h]

theorem exec_exit_fault {f : FaultInfo} (h : s.lanesEnded.emptied false (s.team.win.depth + 1) = .error (.fault f)) :
    exec .exit s = .next (takeFault { f with restart := s.team.pc } s) := by
  refine answerWindow_fault (r := s.opExit false) ?_
  unfold State.opExit
  rw [show (s.withLanes (s.team.lanes.vacate s.team.lanes.active)).emptied false s.frames = .error (.fault f) from h]

/-- The active lanes of `s` have ended in `t`, whose window is `w`; where the team goes on is open. -/
structure LanesOut (s t : State) (w : Window) : Prop where
  issued : t.issued = s.issued
  win : t.team.win = w
  size : t.team.size = s.team.size
  lanes : t.team.lanes = { s.team.lanes with
    active := 0, vacant := s.team.lanes.vacant ||| s.team.lanes.active, stack := t.team.lanes.stack }
  regs : t.team.regs = s.team.regs
  blk : t.blk = s.blk
  plane : t.iss.plane = s.iss.plane
  mem : sameBytes s t

theorem lanesOut_lanesEnded : LanesOut s s.lanesEnded s.team.win where
  issued := rfl
  win := rfl
  size := rfl
  lanes := by rw [← lanesEnded_active (s := s)]; rfl
  regs := rfl
  blk := rfl
  plane := rfl
  mem := sameBytes_team s _

/-- A fault behind the ended lanes restarts the EXIT (R210). -/
theorem LanesOut.flt {w : Window} (h : LanesOut s t w) (c : Cause) : { t.flt c with restart := s.team.pc } = s.flt c := by
  simp only [State.flt, h.plane]

theorem LanesOut.targetOk {w : Window} (h : LanesOut s t w) (pc : Word32) : t.targetOk pc = s.targetOk pc := by
  rw [State.targetOk, State.targetOk, h.blk]

/-- The team goes on at `pc`, with lanes `m` above the stack `st`. -/
def State.resumeAt (t : State) (m : Mask) (st : List StackEntry) (pc : Word32) : State :=
  { t with team := { t.team with lanes := { t.team.lanes with active := m, stack := st }, pc := pc } }

/-- The team of `t` goes on after the EXIT of `s`: at `pc`, with lanes `m` above the stack `st`, in window `w`. -/
structure ExitedTo (s t : State) (w : Window) (m : Mask) (st : List StackEntry) (pc : Word32) : Prop where
  issued : tookEffect s t
  pc : t.team.pc = pc
  win : t.team.win = w
  lanes : t.team.lanes = { s.team.lanes with
    active := m, vacant := s.team.lanes.vacant ||| s.team.lanes.active, stack := st }
  regs : t.team.regs = s.team.regs
  mem : sameBytes s t

theorem LanesOut.resumeAt {w : Window} (h : LanesOut s t w) (m : Mask) (st : List StackEntry) (pc : Word32) :
    ExitedTo s (t.resumeAt m st pc).goOn w m st pc where
  issued := congrArg (· + 1) h.issued
  pc := rfl
  win := h.win
  lanes := congrArg (fun x => { x with active := m, stack := st }) h.lanes
  regs := h.regs
  mem := sameBytes_goTo (sameBytes_trans h.mem (sameBytes_team t _)) _

/-- The team has ended, its lanes vacant (R64, R75). -/
structure TeamEnded (s t : State) : Prop where
  issued : tookEffect s t
  phase : t.team.phase = .ended
  vacant : t.team.lanes.vacant = firstLanes s.team.size
  active : t.team.lanes.active = 0
  stack : t.team.lanes.stack = []
  slots : t.team.mat.slots = []
  tiles : t.team.mat.tiles = []
  regs : t.team.regs = s.team.regs
  mem : sameBytes s t

theorem LanesOut.finish {w : Window} (h : LanesOut s t w) : TeamEnded s ({ t with team := t.team.finish } : State).goOn where
  issued := congrArg (· + 1) h.issued
  phase := rfl
  vacant := congrArg firstLanes h.size
  active := rfl
  stack := rfl
  slots := rfl
  tiles := rfl
  regs := h.regs
  mem := sameBytes_goTo (sameBytes_trans h.mem (sameBytes_team t _)) _

theorem exec_exit_live {skipped below jd : List StackEntry} {e : StackEntry}
    (hst : s.leftStack = skipped ++ e :: below ++ jd) (hz : ∀ y ∈ skipped, y.mask = 0) (he : e.mask ≠ 0)
    (hown : s.ownStack jd) :
    (inUpperCopy s.blk.k.planes e.resume.toNat = true → exec .exit s = .next (takeFault (s.flt .planeRange) s)) ∧
    (inUpperCopy s.blk.k.planes e.resume.toNat = false →
      exec .exit s = .next (s.lanesEnded.resumeEntry e (below ++ jd)).goOn) := by
  have hx := emptied_live (s := s.lanesEnded) (allow := false) (n := s.team.win.depth) lanesEnded_active hst hz he hown
  exact ⟨fun ht => exec_exit_fault (hx.trans (if_neg (Bool.eq_false_iff.mp (targetOk_false ht)))),
    fun ht => exec_exit (hx.trans (if_pos (targetOk_true ht)))⟩

/-! ### EXIT of the last lanes of a call -/

/-- The team in its caller's frame, the active lanes at an end. -/
def State.exitedCall (s : State) (lk : LinkRec) (jd : List StackEntry) (a : Amc) : State :=
  (s.lanesEnded.withStack jd).inCaller lk a

theorem LanesOut.withStack {w : Window} (h : LanesOut s t w) (jd : List StackEntry) : LanesOut s (t.withStack jd) w where
  issued := h.issued
  win := h.win
  size := h.size
  lanes := congrArg (fun x => { x with stack := jd }) h.lanes
  regs := h.regs
  blk := h.blk
  plane := h.plane
  mem := sameBytes_trans h.mem (sameBytes_team t _)

theorem LanesOut.inCaller {w : Window} (h : LanesOut s t w) (lk : LinkRec) (a : Amc) :
    LanesOut s (t.inCaller lk a) ((w.returned lk).trim t.blk.k.ring) where
  issued := h.issued
  win := congrArg (fun w => (w.returned lk).trim t.blk.k.ring) h.win
  size := h.size
  lanes := h.lanes
  regs := h.regs
  blk := h.blk
  plane := h.plane
  mem := sameBytes_trans h.mem (sameBytes_inCaller t lk a)

theorem lanesOut_exitedCall (lk : LinkRec) (jd : List StackEntry) (a : Amc) :
    LanesOut s (s.exitedCall lk jd a) ((s.team.win.returned lk).trim s.blk.k.ring) :=
  (lanesOut_lanesEnded.withStack jd).inCaller lk a

section
variable {lk : LinkRec} {ls : List LinkRec} {dead jd : List StackEntry} (hl : s.team.win.links = lk :: ls)
  (hd : s.team.win.depth ≠ 0) (hst : s.leftStack = dead ++ jd) (hz : ∀ y ∈ dead, y.mask = 0) (hj : jd.length = lk.jd)
include hl hd hst hz hj

theorem exec_exit_return_planeRange (ht : inUpperCopy s.blk.k.planes lk.retOff.toNat = true) :
    exec .exit s = .next (takeFault (s.flt .planeRange) s) :=
  exec_exit_fault ((emptied_frame_dead (s := s.lanesEnded) lanesEnded_active hd hl hst hj (popLive_none hz)).trans
    (halt_bind_error (retFrame_planeRange (s := s.lanesEnded.withStack jd) hl hd hj ht)))

section
variable (ht : inUpperCopy s.blk.k.planes lk.retOff.toNat = false) (hlo : s.team.win.lo ≤ s.team.win.b - lk.k)
  (hhi : s.team.win.b - lk.k + lk.cfs ≤ s.team.win.lo + s.blk.k.ring) (hs : s.team.pre.saving = none)
  (hr : s.team.pre.restoring = none)
include ht hlo hhi hs hr

/-- Where EXIT stands once the call has been left. -/
theorem emptied_exitedCall : ∃ a, s.lanesEnded.emptied false (s.team.win.depth + 1) =
    if lk.calli then .ok ((s.exitedCall lk jd a).resumeAt ((jd.head?.map StackEntry.mask).getD 0) jd lk.retOff)
    else (s.exitedCall lk jd a).emptied false s.team.win.depth := by
  obtain ⟨a, ha⟩ := retFrame_resident (allow := false) (s := s.lanesEnded.withStack jd) hl hd hj ht hlo hhi hs hr
  exact ⟨a, (emptied_frame_dead (s := s.lanesEnded) lanesEnded_active hd hl hst hj (popLive_none hz)).trans
    (halt_bind_ok ha)⟩

/-- A CALLI's frame returns to it with the lanes of the J entry on top of the caller's stack (R109, log 41). -/
theorem exec_exit_calli (hc : lk.calli = true) : ∃ t, exec .exit s = .next t ∧
    ExitedTo s t ((s.team.win.returned lk).trim s.blk.k.ring) ((jd.head?.map StackEntry.mask).getD 0) jd lk.retOff := by
  obtain ⟨a, ha⟩ := emptied_exitedCall hl hd hst hz hj ht hlo hhi hs hr
  exact ⟨_, exec_exit (ha.trans (if_pos hc)), (lanesOut_exitedCall lk jd a).resumeAt _ _ _⟩

section
variable (hc : lk.calli = false)
include hc

/-- The caller of a CALL goes on with its first entry that has lanes (R110). -/
theorem exec_exit_call_live {skipped below rest : List StackEntry} {e : StackEntry} (hjd : jd = skipped ++ e :: below ++ rest)
    (hz' : ∀ y ∈ skipped, y.mask = 0) (he : e.mask ≠ 0) (hown : s.team.win.depth = 1 ∧ rest = [] ∨
      2 ≤ s.team.win.depth ∧ ∃ lk2 l2, ls = lk2 :: l2 ∧ lk2.jd = rest.length) :
    (inUpperCopy s.blk.k.planes e.resume.toNat = true → exec .exit s = .next (takeFault (s.flt .planeRange) s)) ∧
    (inUpperCopy s.blk.k.planes e.resume.toNat = false → ∃ t, exec .exit s = .next t ∧
      ExitedTo s t ((s.team.win.returned lk).trim s.blk.k.ring) e.mask (below ++ rest) e.resume) := by
  obtain ⟨a, ha⟩ := emptied_exitedCall hl hd hst hz hj ht hlo hhi hs hr
  obtain ⟨k, hk⟩ := Nat.exists_eq_succ_of_ne_zero hd
  have hout := lanesOut_exitedCall (s := s) lk jd a
  have hown' : (s.exitedCall lk jd a).ownStack rest := by
    unfold State.ownStack
    rw [hout.win]
    refine hown.imp (fun ⟨h1, hrest⟩ => ⟨Nat.sub_eq_zero_of_le h1.le, hrest⟩) fun ⟨h2, hlinks⟩ => ⟨Nat.sub_ne_zero_of_lt h2, ?_⟩
    rwa [show ((s.team.win.returned lk).trim s.blk.k.ring).links = ls from congrArg List.tail hl]
  rw [if_neg (Bool.eq_false_iff.mp hc), hk, emptied_live (s := s.exitedCall lk jd a) (congrArg Lanes.active hout.lanes) hjd
    hz' he hown', ← hk, hout.targetOk] at ha
  refine ⟨fun ht => ?_, fun ht => ⟨_, exec_exit (ha.trans (if_pos (targetOk_true ht))), hout.resumeAt _ _ _⟩⟩
  rw [← hout.flt]
  exact exec_exit_fault (ha.trans (if_neg (Bool.eq_false_iff.mp (targetOk_false ht))))

theorem exec_exit_call_ends (h1 : s.team.win.depth = 1) (hz' : ∀ y ∈ jd, y.mask = 0) :
    ∃ t, exec .exit s = .next t ∧ TeamEnded s t := by
  obtain ⟨a, ha⟩ := emptied_exitedCall hl hd hst hz hj ht hlo hhi hs hr
  have hout := lanesOut_exitedCall (s := s) lk jd a
  have hdepth : (s.exitedCall lk jd a).team.win.depth = 0 := by
    rw [hout.win]
    exact Nat.sub_eq_zero_of_le h1.le
  rw [if_neg (Bool.eq_false_iff.mp hc)] at ha
  refine ⟨_, exec_exit (ha.trans ?_), hout.finish⟩
  rw [h1]
  exact emptied_ends (congrArg Lanes.active hout.lanes) hdepth (popLive_none hz')

end
end
end

theorem exec_exit_ends (hd : s.team.win.depth = 0) (hz : ∀ y ∈ s.leftStack, y.mask = 0) :
    ∃ t, exec .exit s = .next t ∧ TeamEnded s t :=
  ⟨_, exec_exit (emptied_ends (s := s.lanesEnded) lanesEnded_active hd (popLive_none hz)), lanesOut_lanesEnded.finish⟩

theorem exec_texit : ∃ t, exec .texit s = .next t ∧ tookEffect s t ∧ t.team.phase = .ended ∧
    t.team.lanes.vacant = firstLanes s.team.size ∧ t.team.lanes.active = 0 ∧ t.team.lanes.stack = [] ∧
    t.team.win.depth = 0 ∧ t.team.win.links = [] ∧ t.team.win.fs = 0 ∧ t.team.mat.slots = [] ∧ t.team.mat.tiles = [] ∧
    t.team.regs = s.team.regs ∧ sameBytes s t :=
  ⟨_, rfl, rfl, rfl, rfl, rfl, rfl, rfl, rfl, rfl, rfl, rfl, rfl, sameBytes_team { s with issued := s.issued + 1 } _⟩

end

/-- Settles O20: EXIT by the entry or the link that the emptied active set comes to. -/
theorem lanesEnd : Obligations.LanesEnd := by
  intro s x left
  refine ⟨fun skipped e below jd hst hz he hown => ?_, fun lk ls dead jd hl hd hst hz hj => ?_, fun hd hz => ?_, exec_texit,
    exec_disb_of_no_member⟩
  · obtain ⟨hbad, hok⟩ := exec_exit_live hst hz he hown
    refine ⟨hbad, fun ht => ⟨_, hok ht, ?_⟩⟩
    obtain ⟨issued, pc, win, lanes, regs, mem⟩ := lanesOut_lanesEnded.resumeAt e.mask (below ++ jd) e.resume
    exact ⟨issued, lanes, pc, win, regs, mem⟩
  · intro w caller goesOn
    have hcaller : (s.team.win.returned lk).trim s.blk.k.ring = caller := by
      unfold Window.returned
      rw [hl]
      rfl
    have hgoes {m : Mask} {st : List StackEntry} {pc : Word32} (h : ∃ t, exec .exit s = .next t ∧
        ExitedTo s t ((s.team.win.returned lk).trim s.blk.k.ring) m st pc) : goesOn m st pc := by
      obtain ⟨t, ht, issued, hpc, win, lanes, regs, mem⟩ := h
      exact ⟨t, ht, issued, hpc, win.trans hcaller, lanes, regs, mem⟩
    refine ⟨exec_exit_return_planeRange hl hd hst hz hj, fun ht hlo hhi hs hr => ⟨fun hc => ?_, fun hc => ?_, fun hc => ?_⟩⟩
    · exact hgoes (exec_exit_calli hl hd hst hz hj ht hlo hhi hs hr hc)
    · intro skipped e below rest hjd hz' he hown
      obtain ⟨hbad, hok⟩ := exec_exit_call_live hl hd hst hz hj ht hlo hhi hs hr hc hjd hz' he hown
      exact ⟨hbad, fun ht => hgoes (hok ht)⟩
    · intro h1 hz'
      obtain ⟨t, ht, hend⟩ := exec_exit_call_ends hl hd hst hz hj ht hlo hhi hs hr hc h1 hz'
      exact ⟨t, ht, hend.issued, hend.phase, hend.vacant, hend.mem⟩
  · obtain ⟨t, ht, issued, phase, vacant, active, stack, slots, tiles, regs, mem⟩ := exec_exit_ends hd hz
    exact ⟨t, ht, issued, phase, vacant, active, stack, slots, tiles, regs, mem⟩

end Sys2Proof.Machine
end

section
/-!
PROOF. Privileged registers, TLBI, HALTC (R238..R240, R368, R405), the fault queue (R373) and the launch of its handler (R374).
-/
namespace Sys2Proof.Machine

section
variable {s t : State}

/-! ### Domains -/

theorem findDomain_rcb {x : Domain} {rcb : Nat} (h : s.findDomain rcb = some x) : x.rcb = rcb := by
  simpa using List.find?_some h

theorem findDomain_modDomain {f : Domain → Domain} (hf : ∀ d, (f d).rcb = d.rcb) {rcb : Nat} {x : Domain}
    (h : s.findDomain rcb = some x) : (s.modDomain rcb f).findDomain rcb = some (f x) := by
  have hsame : (fun d : Domain => d.rcb == rcb) ∘ (fun d => if d.rcb = rcb then f d else d) = fun d => d.rcb == rcb := by
    funext d
    dsimp only [Function.comp]
    split
    · rw [hf]
    · rfl
  rw [State.findDomain, State.modDomain, List.find?_map, hsame, show s.domains.find? _ = some x from h, Option.map_some,
    if_pos (findDomain_rcb h)]

theorem sameBytes_modDomain (s : State) (rcb : Nat) (f : Domain → Domain) : sameBytes s (s.modDomain rcb f) :=
  sameBytes_of_stores rfl rfl rfl rfl rfl

theorem ownDomain_eq {k : DomRef} {x : Domain} (hk : s.teamDomain = some k) (hx : s.findDomain k.rcb = some x) :
    s.ownDomain = some x := by
  rw [State.ownDomain, hk]
  exact hx

/-- The registers and memory are as they were. -/
structure SameRegs (s t : State) : Prop where
  regs : t.team.regs = s.team.regs
  sp : t.team.sp = s.team.sp
  mem : sameBytes s t

theorem sameRegs_refl (s : State) : SameRegs s s := ⟨rfl, rfl, sameBytes_team s s.team⟩

theorem SameRegs.retireCtl (h : SameRegs s t) : SameRegs s t.retireCtl := ⟨h.regs, h.sp, sameBytes_goTo h.mem _⟩

/-! ### PSRD and PSWR (R238, R368) -/

section
variable (hsys : s.team.system = true)
include hsys

/-- A privileged word of a system team goes on behind its check (R208). -/
theorem answer_privileged (f : Unit → Except FaultInfo State) : answer s (s.privileged >>= f) = answer s (f ()) :=
  answer_bind_ok (need_ok hsys _)

theorem exec_psrd {d i v : Nat} (h : s.privSpecial i = v) :
    exec (.psrd d i) s = .next (s.setS d (BitVec.ofNat 64 v)).retireCtl :=
  h ▸ answer_privileged hsys _

/-- The state after PSWR of FQHEAD (R373). -/
theorem exec_pswrFqhead {r : Nat} {k : DomRef} (hk : s.teamDomain = some k) : exec (.pswrFqhead r) s =
    .next (s.modDomain k.rcb fun d => d.moveHead (BitVec.ofNat 32 (s.getS r).toNat)).retireCtl := by
  refine (answer_privileged hsys _).trans ?_
  rw [hk]
  rfl

end

/-- The page tables that the block was placed under, else those of the region's partition now (R371). -/
theorem teamView_root_of_eff {r : Region} (h : s.blk.eff = some r) : s.teamView.root = r.ptroot := by
  rw [State.teamView, h]

theorem teamView_root_of_partition {p : Region} (h : s.blk.eff = none) (hp : s.partition s.team.rcb = some p) :
    s.teamView.root = p.ptroot := by
  rw [State.teamView, h]
  dsimp only
  rw [State.view, hp]

theorem moveHead_eq (d : Domain) (y : Word32) :
    d.moveHead y = { d with head := if (y - d.head).toNat ≤ (d.tail - d.head).toNat then y else d.head } := by
  unfold Domain.moveHead
  split <;> rfl

/-- PSRD reads (R368). -/
theorem psrd_reads (hsys : s.team.system = true) (d : Nat) :
    let reads (k x : Nat) : Prop := exec (.psrd d k) s = .next (s.setS d (BitVec.ofNat 64 x)).retireCtl
    reads 0 s.team.rcb ∧ (∀ r, s.blk.eff = some r → reads 1 r.ptroot) ∧
      (∀ p, s.blk.eff = none → s.partition s.team.rcb = some p → reads 1 p.ptroot) ∧
      (∀ x, s.ownDomain = some x → reads 2 x.head.toNat ∧ reads 3 x.tail.toNat) ∧
      reads 5 s.team.fdStat.toNat ∧ reads 6 s.team.fdArg.toNat := by
  refine ⟨exec_psrd hsys rfl, fun r hr => exec_psrd hsys (teamView_root_of_eff hr),
    fun p hp hq => exec_psrd hsys (teamView_root_of_partition hp hq), fun x hx => ⟨exec_psrd hsys ?_, exec_psrd hsys ?_⟩,
    exec_psrd hsys rfl, exec_psrd hsys rfl⟩
  · rw [State.privSpecial, hx]
  · rw [State.privSpecial, hx]

/-- PSWR of FDARG writes it; a read-only register stays (R368). -/
theorem pswr_writes (hsys : s.team.system = true) (r i : Nat) :
    ∃ t, exec (.pswr r i) s = .next t ∧ tookEffect s t ∧ SameRegs s t ∧ (i = 6 → t.team.fdArg = s.getS r) ∧
      (i ≠ 6 → t.team.fdArg = s.team.fdArg) :=
  ⟨_, answer_privileged hsys _, rfl, SameRegs.retireCtl ⟨rfl, rfl, sameBytes_team s _⟩, fun h => if_pos h, fun h => if_neg h⟩

theorem pswrFqhead_moves (hsys : s.team.system = true) (r : Nat) {k : DomRef} {x : Domain} (hk : s.teamDomain = some k)
    (hx : s.findDomain k.rcb = some x) :
    let y := BitVec.ofNat 32 (s.getS r).toNat
    ∃ t, exec (.pswrFqhead r) s = .next t ∧ tookEffect s t ∧ SameRegs s t ∧ t.findDomain k.rcb =
      some { x with head := if (y - x.head).toNat ≤ (x.tail - x.head).toNat then y else x.head } := by
  intro y
  refine ⟨_, exec_pswrFqhead hsys hk, rfl, SameRegs.retireCtl ⟨rfl, rfl, sameBytes_modDomain s _ _⟩, ?_⟩
  rw [← moveHead_eq]
  exact findDomain_modDomain (f := fun d => d.moveHead y) (fun d => by rw [moveHead_eq]) hx

theorem mem_setAdd {l : List Nat} {k x : Nat} : x ∈ setAdd l k ↔ x = k ∨ x ∈ l := by
  induction l with
  | nil => simp [setAdd]
  | cons y ys ih =>
    unfold setAdd
    split
    · next h => simp [h]
    · split
      · simp
      · rw [List.mem_cons, ih, List.mem_cons]
        exact or_left_comm

/-! ### TLBI (R239, R405, R406) -/

theorem sameRegs_caches (s : State) (c : Caches) : SameRegs s { s with caches := c } :=
  ⟨rfl, rfl, sameBytes_of_stores rfl rfl rfl rfl rfl⟩

/-- Translations are dropped together with the L1 of the core (R405). -/
theorem sameRegs_keepTlb (s : State) (f : TlbEntry → Bool) : SameRegs s (s.keepTlb f).dropL1.retireCtl :=
  SameRegs.retireCtl (sameRegs_caches s _)

theorem mem_tlb_keepTlb {f : TlbEntry → Bool} {e : TlbEntry} :
    e ∈ (s.keepTlb f).dropL1.retireCtl.caches.tlb ↔ e ∈ s.caches.tlb ∧ f e = true := List.mem_filter

section
variable (hsys : s.team.system = true) {a : Nat}
include hsys

theorem exec_tlbiPage_space (h : 2 ^ 56 ≤ (s.getS a).toNat) :
    exec (.tlbiPage a) s = .next (takeFault (s.fltAt .spaceInvalid 0 (s.getS a)) s) :=
  (answer_privileged hsys _).trans (answer_bind_error (need_error (by simp; omega) _))

theorem exec_tlbiPage (h : (s.getS a).toNat < 2 ^ 56) : ∃ t, exec (.tlbiPage a) s = .next t ∧ tookEffect s t ∧ SameRegs s t ∧
    ∀ e, e ∈ t.caches.tlb ↔
      e ∈ s.caches.tlb ∧ ¬(e.rid = s.teamRid ∧ e.va / 2 ^ e.bits = (s.getS a).toNat / 2 ^ e.bits) := by
  refine ⟨_, (answer_privileged hsys _).trans (answer_bind_ok (need_ok (by simp; omega) _)), rfl, sameRegs_keepTlb s _,
    fun e => mem_tlb_keepTlb.trans (and_congr_right fun _ => ?_)⟩
  simp [imp_iff_not_or]

theorem exec_tlbiRegion {p : Region} (hp : s.partition (s.getS a).toNat = some p) (hrid : p.rid = s.teamRid) :
    ∃ t, exec (.tlbiRegion a) s = .next t ∧ tookEffect s t ∧ SameRegs s t ∧
      ∀ e, e ∈ t.caches.tlb ↔ e ∈ s.caches.tlb ∧ (e.rid ≠ s.teamRid ∨ e.pte.testBit 5 = true) := by
  have hx : exec (.tlbiRegion a) s =
      .next (s.keepTlb fun e => e.rid != s.teamRid || e.pte.testBit 5).dropL1.retireCtl := by
    refine (answer_privileged hsys _).trans ?_
    dsimp only
    rw [hp]
    exact congrArg (fun u : State => Host.Outcome.next u.dropL1.retireCtl) (if_pos (beq_iff_eq.mpr hrid))
  refine ⟨_, hx, rfl, sameRegs_keepTlb s _, fun e => mem_tlb_keepTlb.trans (and_congr_right fun _ => ?_)⟩
  simp

/-! ### HALTC and HALT_RELEASE (R240) -/

theorem exec_haltc : ∃ t, exec .haltc s = .next t ∧ tookEffect s t ∧ t.team.phase = .ended ∧ t.team.lanes.active = 0 ∧
    s.team.core ∈ t.halted ∧ (∀ x ∈ s.halted, x ∈ t.halted) ∧ SameRegs s t :=
  ⟨_, answer_privileged hsys _, rfl, rfl, rfl, mem_setAdd.mpr (.inl rfl), fun _ hx => mem_setAdd.mpr (.inr hx),
    rfl, rfl, sameBytes_of_stores rfl rfl rfl rfl rfl⟩

end

theorem exec_haltRelease : ∃ t, exec .haltRelease s = .next t ∧ s.arg.id ∉ t.halted ∧
    (∀ x ∈ s.halted, x ≠ s.arg.id → x ∈ t.halted) ∧ SameRegs s t :=
  ⟨_, rfl, fun h => absurd (List.mem_filter.mp h).2 (by simp), fun _ hx hne => List.mem_filter.mpr ⟨hx, by simpa using hne⟩,
    rfl, rfl, sameBytes_of_stores rfl rfl rfl rfl rfl⟩

/-! ### The waiting record of the smallest stamp (R169, R373) -/

theorem countAfter_asymm {a b : Nat} (h : countAfter a b = true) : countAfter b a = false := by
  simp only [countAfter, Bool.and_eq_true, decide_eq_true_iff] at h
  simp only [countAfter, Bool.and_eq_false_iff, decide_eq_false_iff_not]
  omega

theorem stampAfter_asymm {a b : Nat} (h : stampAfter a b = true) : stampAfter b a = false := by
  unfold stampAfter at h ⊢
  by_cases he : a / 2 ^ 16 = b / 2 ^ 16
  · rw [if_pos he, decide_eq_true_iff] at h
    rw [if_pos he.symm, decide_eq_false_iff_not]
    omega
  · rw [if_neg he] at h
    rw [if_neg (Ne.symm he)]
    exact countAfter_asymm h

/-- The earlier of the record kept so far and one more. -/
def FaultRec.keepFirst (b : Option FaultRec) (r : FaultRec) : Option FaultRec :=
  match b with
  | none => some r
  | some x => if stampAfter x.stamp r.stamp then some r else some x

theorem first_eq (d : Domain) : d.first = d.waiting.foldl FaultRec.keepFirst none := rfl

section
variable {y : FaultRec}

/-- A record that comes before the one kept takes its place. -/
theorem keepFirst_earlier {b : Option FaultRec} (hb : ∀ z ∈ b, z = y ∨ stampAfter z.stamp y.stamp = true) :
    FaultRec.keepFirst b y = some y := by
  cases b with
  | none => rfl
  | some z =>
    obtain rfl | hz := hb z rfl
    · exact ite_self _
    · exact if_pos hz

/-- A record before all others is kept. -/
theorem keepFirst_later {z : FaultRec} (hz : z = y ∨ stampAfter z.stamp y.stamp = true) :
    FaultRec.keepFirst (some y) z = some y := by
  obtain rfl | hz := hz
  · exact ite_self _
  · exact if_neg (by simp [stampAfter_asymm hz])

theorem keepFirst_mem {b : Option FaultRec} {x z : FaultRec} (h : FaultRec.keepFirst b x = some z) : z = x ∨ b = some z := by
  unfold FaultRec.keepFirst at h
  split at h
  · exact .inl (Option.some.inj h).symm
  · split at h
    · exact .inl (Option.some.inj h).symm
    · exact .inr h

theorem foldl_keepFirst {l : List FaultRec} {b : Option FaultRec}
    (hl : ∀ z ∈ l, z = y ∨ stampAfter z.stamp y.stamp = true) (hb : ∀ z ∈ b, z = y ∨ stampAfter z.stamp y.stamp = true)
    (hy : y ∈ l ∨ b = some y) : l.foldl FaultRec.keepFirst b = some y := by
  induction l generalizing b with
  | nil => exact hy.resolve_left List.not_mem_nil
  | cons x xs ih =>
    obtain ⟨hx, hxs⟩ := List.forall_mem_cons.mp hl
    rw [List.foldl_cons]
    by_cases hxy : x = y
    · subst hxy
      have hk : FaultRec.keepFirst b x = some x := keepFirst_earlier hb
      exact ih hxs (by simp [hk]) (.inr hk)
    · refine ih hxs (fun z hz => ?_) ?_
      · exact (keepFirst_mem hz).elim (· ▸ hx) (hb z)
      · obtain hmem | rfl := hy
        · exact .inl ((List.mem_cons.mp hmem).resolve_left (Ne.symm hxy))
        · exact .inr (keepFirst_later hx)

theorem first_of_earliest {d : Domain} (hy : y ∈ d.waiting)
    (h : ∀ z ∈ d.waiting, z = y ∨ stampAfter z.stamp y.stamp = true) : d.first = some y :=
  (first_eq d).trans (foldl_keepFirst h nofun (.inl hy))

end

/-! ### FAULT_RECORD_WRITE (R373, R374) -/

theorem length_faultRec_bytes (r : FaultRec) : r.bytes.length = 64 := by
  simp only [FaultRec.bytes, List.length_append, length_natLe, List.length_take, List.length_replicate]
  omega

theorem MarksOnly.sameBytes (h : MarksOnly s t) : sameBytes s t := by
  obtain ⟨c, a, rfl⟩ := h
  exact sameBytes_of_stores rfl rfl rfl rfl rfl

theorem MarksOnly.domains (h : MarksOnly s t) : t.domains = s.domains := by
  obtain ⟨c, a, rfl⟩ := h
  rfl

theorem MarksOnly.launches (h : MarksOnly s t) : t.launches = s.launches := by
  obtain ⟨c, a, rfl⟩ := h
  rfl

theorem MarksOnly.nextId (h : MarksOnly s t) : t.nextId = s.nextId := by
  obtain ⟨c, a, rfl⟩ := h
  rfl

theorem marksOnly_noteRange (s : State) (v : View) (k as : AccKind) (va n : Nat) : MarksOnly s (s.noteRange v k as va n) :=
  MarksOnly.foldl (MarksOnly.refl s) fun u _ => (MarksOnly.refl u).noteAs

theorem pubStore_domains (s : State) (o n x : Nat) : (s.pubStore o n x).domains = s.domains := by
  unfold State.pubStore
  dsimp only
  split
  · split <;> rfl
  · split
    · rfl
    · split <;> rfl

theorem writeAt_domains (s : State) (p : Place) (n x : Nat) : (s.writeAt p n x).domains = s.domains := by
  cases p with
  | dev pa =>
    unfold State.writeAt
    dsimp only
    split
    · exact pubStore_domains ..
    · rfl
  | spad bid off => rfl

theorem clearPoison_domains (s : State) (p : Place) : (s.clearPoison p).domains = s.domains := by
  cases p <;> rfl

theorem writeSpan_domains (s : State) (ps : List (Nat × Nat)) (va : Nat) (bs : List Byte) :
    (s.writeSpan ps va bs).domains = s.domains := by
  unfold State.writeSpan State.clearWhole
  refine foldl_keeps (fun u : State => u.domains = s.domains) _ (fun u _ hu => (clearPoison_domains u _).trans hu) _ _ ?_
  exact foldl_keeps (fun u : State => u.domains = s.domains) _ (fun u _ hu => (writeAt_domains u _ _ _).trans hu) _ _ rfl

theorem writeVa_domains {v : View} {k : AccKind} {va : Nat} {bs : List Byte} {u : State} (h : s.writeVa v k va bs = .ok u) :
    u.domains = s.domains := by
  unfold State.writeVa at h
  split at h
  · exact nomatch h
  · cases h
    exact (marksOnly_noteRange ..).domains.trans (writeSpan_domains ..)

theorem recordReady_iff {r : FaultRec} : s.recordReady r = true ↔ ∀ h, r.uid.bind s.findTeam = some h →
    h.loads = [] ∧ h.mat.steps = [] ∧ h.mat.transfers = [] := by
  unfold State.recordReady
  cases r.uid.bind s.findTeam with
  | none => simp
  | some t => simp [and_assoc]

section
variable {x : Domain} {y : FaultRec} (hx : s.findDomain s.arg.id = some x) (hy : x.first = some y)
include hx hy

theorem exec_faultRecordWrite_blocked (h : y.fqSize ≤ (x.tail - x.head).toNat ∨ ¬s.recordReady y = true) :
    exec .faultRecordWrite s = .next s := by
  change execFaultRecordWrite s = _
  unfold execFaultRecordWrite
  rw [hx]
  dsimp only
  rw [hy]
  refine congrArg Host.Outcome.next (if_neg ?_)
  rw [Bool.and_eq_true, decide_eq_true_iff, not_and_or, Nat.not_lt]
  exact h

theorem exec_faultRecordWrite_writes (hroom : (x.tail - x.head).toNat < y.fqSize) (hr : s.recordReady y = true) :
    exec .faultRecordWrite s = .next (s.writeRecord x y) := by
  change execFaultRecordWrite s = _
  unfold execFaultRecordWrite
  rw [hx]
  dsimp only
  rw [hy]
  exact congrArg Host.Outcome.next (if_pos (by rw [decide_eq_true hroom, hr]; rfl))

end

/-- A domain once its record `y` stands in the queue (R373). -/
def Domain.written (d : Domain) (y : FaultRec) : Domain :=
  { d with
    tail := d.tail + 1, waiting := d.waiting.filter (fun z => z.stamp != y.stamp)
    open_ := if y.ticket = 0xFFFFFFFF then d.open_ else d.open_ ++ [y] }

theorem writeRecord_ok {x : Domain} {y : FaultRec} {u : State}
    (h : s.writeVa { rid := y.fqRid, root := y.fqRoot, user := false, core := none, own := s.ridOf x.rcb } .store
      (y.fqBase + 64 * (x.tail.toNat % y.fqSize)) y.bytes = .ok u) :
    s.writeRecord x y = u.modDomain x.rcb (fun d => d.written y) := by
  unfold State.writeRecord
  dsimp only
  rw [h]
  rfl

theorem faultRecordWrite_queue {x : Domain} {y : FaultRec} (hx : s.findDomain s.arg.id = some x) (hm : y ∈ x.waiting)
    (hfirst : ∀ z ∈ x.waiting, z = y ∨ stampAfter z.stamp y.stamp = true) :
    let done := ∀ h, y.uid.bind s.findTeam = some h → h.loads = [] ∧ h.mat.steps = [] ∧ h.mat.transfers = []
    (y.fqSize ≤ (x.tail - x.head).toNat ∨ ¬done → exec .faultRecordWrite s = .next s) ∧
    (∀ u, (x.tail - x.head).toNat < y.fqSize → done →
      s.writeVa { rid := y.fqRid, root := y.fqRoot, user := false, core := none, own := s.ridOf x.rcb } .store
        (y.fqBase + 64 * (x.tail.toNat % y.fqSize)) y.bytes = .ok u →
      y.bytes.length = 64 ∧ ∃ t, exec .faultRecordWrite s = .next t ∧ sameBytes u t ∧
        t.findDomain s.arg.id = some (x.written y)) := by
  intro done
  have hy := first_of_earliest hm hfirst
  refine ⟨fun h => exec_faultRecordWrite_blocked hx hy (h.imp_right (mt recordReady_iff.mp)), fun u hroom hdone hu => ?_⟩
  have hdomain : u.findDomain x.rcb = some x := by
    rw [State.findDomain, writeVa_domains hu, findDomain_rcb hx]
    exact hx
  have ht := exec_faultRecordWrite_writes hx hy hroom (recordReady_iff.mpr hdone)
  rw [writeRecord_ok hu] at ht
  refine ⟨length_faultRec_bytes y, _, ht, sameBytes_modDomain u _ _, ?_⟩
  rw [← findDomain_rcb hx]
  exact findDomain_modDomain (f := fun d => d.written y) (fun _ => rfl) hdomain

/-! ### HANDLER_LAUNCH (R374) -/

theorem marksOnly_cpNote (s : State) (rcb a n : Nat) (k : AccKind) : MarksOnly s (s.cpNote rcb a n k) := by
  unfold State.cpNote
  split
  · exact marksOnly_noteRange ..
  · exact MarksOnly.foldl (MarksOnly.refl s) fun u _ => (MarksOnly.refl u).notePhys

theorem marksOnly_noteKernel (s : State) (rcb khdr : Nat) : MarksOnly s (s.noteKernel rcb khdr) :=
  MarksOnly.foldl (MarksOnly.refl s) fun u _ => marksOnly_cpNote u ..

/-- A launch is added behind the others (R391). -/
theorem addLaunch_adds (s : State) (source : Nat) (from_ : LaunchSource) (k : Kernel) (d : LaunchDesc) (recRcb : Nat)
    (ready : Bool) : ∃ l, (s.addLaunch source from_ k d recRcb ready).launches = s.launches ++ [l] ∧ l.lid = s.nextId ∧
      l.from_ = from_ ∧ l.k = k ∧ l.d = d ∧ l.ready = ready :=
  ⟨_, rfl, rfl, rfl, rfl, rfl, rfl⟩

theorem log_domains (s : State) (unit severity code data : Nat) : (s.log unit severity code data).domains = s.domains := rfl

theorem log_launches (s : State) (unit severity code data : Nat) : (s.log unit severity code data).launches = s.launches := rfl

theorem modDomain_launches (s : State) (rcb : Nat) (f : Domain → Domain) : (s.modDomain rcb f).launches = s.launches := rfl

theorem addLaunch_domains (s : State) (source : Nat) (from_ : LaunchSource) (k : Kernel) (d : LaunchDesc) (recRcb : Nat)
    (ready : Bool) : (s.addLaunch source from_ k d recRcb ready).domains = s.domains := rfl

theorem handler_due {x : Domain} (hne : x.head ≠ x.tail) (hh : x.handler = none) (hb : x.barred = false) :
    (x.head != x.tail && x.handler.isNone && !x.barred) = true := by
  simp [hne, hh, hb]

section
variable {x : Domain} (hx : s.findDomain s.arg.id = some x)
include hx

theorem exec_handlerLaunch_idle (h : x.head = x.tail ∨ x.handler ≠ none ∨ x.barred = true) :
    exec .handlerLaunch s = .next s := by
  change execHandlerLaunch s = _
  unfold execHandlerLaunch
  rw [hx]
  refine congrArg Host.Outcome.next (if_neg ?_)
  simp only [Bool.and_eq_true, bne_iff_ne, Option.isNone_iff_eq_none, Bool.not_eq_true']
  rintro ⟨⟨hne, hnone⟩, hbar⟩
  obtain h | h | h := h
  · exact hne h
  · exact h hnone
  · exact absurd h (by simp [hbar])

variable (hne : x.head ≠ x.tail) (hh : x.handler = none) (hb : x.barred = false)
include hne hh hb

theorem exec_handlerLaunch {k : Kernel} (hk : s.checkDesc (handlerDesc x) true true = .ok k) :
    exec .handlerLaunch s = .next (((s.noteKernel x.rcb x.fdKernel).addLaunch x.fdKernel (.handler x.rcb) k
      (handlerDesc x) x.rcb true).modDomain x.rcb fun d => { d with handler := some s.nextId }) := by
  change execHandlerLaunch s = _
  unfold execHandlerLaunch
  rw [hx]
  dsimp only
  rw [if_pos (handler_due hne hh hb), hk]

theorem exec_handlerLaunch_refused {e : Nat} (he : s.checkDesc (handlerDesc x) true true = .error e) :
    exec .handlerLaunch s = .next (((s.noteKernel x.rcb x.fdKernel).log 0 2 0x13 e).modDomain x.rcb
      fun d => { d with barred := true }) := by
  change execHandlerLaunch s = _
  unfold execHandlerLaunch
  rw [hx]
  dsimp only
  rw [if_pos (handler_due hne hh hb), he]

theorem handlerLaunch_launches {k : Kernel} (hk : s.checkDesc (handlerDesc x) true true = .ok k) :
    ∃ t l, exec .handlerLaunch s = .next t ∧ t.launches = s.launches ++ [l] ∧ l.from_ = .handler x.rcb ∧ l.k = k ∧
      l.ready = true ∧ l.d.priv = true ∧ l.d.rcb = x.rcb ∧ l.d.khdr = x.fdKernel ∧ l.d.blockCount = 1 ∧
      l.d.args = [BitVec.ofNat 64 x.fqBase, BitVec.ofNat 64 x.fqSize] ∧
      t.findDomain s.arg.id = some { x with handler := some l.lid } := by
  have ht := exec_handlerLaunch hx hne hh hb hk
  have hn := marksOnly_noteKernel s x.rcb x.fdKernel
  obtain ⟨l, hl, hlid, hfrom, hlk, hd, hready⟩ := addLaunch_adds (s.noteKernel x.rcb x.fdKernel) x.fdKernel (.handler x.rcb) k
    (handlerDesc x) x.rcb true
  have hdomain : ((s.noteKernel x.rcb x.fdKernel).addLaunch x.fdKernel (.handler x.rcb) k (handlerDesc x) x.rcb
      true).findDomain x.rcb = some x := by
    rw [State.findDomain, addLaunch_domains, hn.domains, findDomain_rcb hx]
    exact hx
  rw [← hlid.trans hn.nextId] at ht
  refine ⟨_, l, ht, ?_, hfrom, hlk, hready, hd ▸ rfl, hd ▸ rfl, hd ▸ rfl, hd ▸ rfl, hd ▸ rfl, ?_⟩
  · rw [modDomain_launches, hl, hn.launches]
  rw [← findDomain_rcb hx]
  exact findDomain_modDomain (f := fun d => { d with handler := some l.lid }) (fun _ => rfl) hdomain

theorem handlerLaunch_barred {e : Nat} (he : s.checkDesc (handlerDesc x) true true = .error e) :
    ∃ t, exec .handlerLaunch s = .next t ∧ t.launches = s.launches ∧ t.findDomain s.arg.id = some { x with barred := true } := by
  have hn := marksOnly_noteKernel s x.rcb x.fdKernel
  have hdomain : ((s.noteKernel x.rcb x.fdKernel).log 0 2 0x13 e).findDomain x.rcb = some x := by
    rw [State.findDomain, log_domains, hn.domains, findDomain_rcb hx]
    exact hx
  refine ⟨_, exec_handlerLaunch_refused hx hne hh hb he, ?_, ?_⟩
  · rw [modDomain_launches, log_launches, hn.launches]
  rw [← findDomain_rcb hx]
  exact findDomain_modDomain (f := fun d => { d with barred := true }) (fun _ => rfl) hdomain

end
end
end Sys2Proof.Machine
end

section
/-!
PROOF. FDACT on a record of a team (R375, R408): the answer of FDSTAT, the record closed, and the team that is let go, ended or
given more spill area.
-/
namespace Sys2Proof.Machine

section
variable {s t : State} {u : Nat} {h : Team} {f : Team → Team}

/-! ### One team changes -/

/-- A team that is not in focus stands among the others. -/
theorem findTeam_other (hu : u ≠ s.team.uid) : s.findTeam u = s.others.find? (fun t => t.uid == u) := by
  unfold State.findTeam State.teams
  split
  · rfl
  · exact List.find?_cons_of_neg (by simpa using Ne.symm hu)

theorem modTeam_of_uid (s : State) (u : Nat) (f : Team → Team) :
    s.modTeam u f = s.modTeam u fun t => if t.uid = u then f t else t := by
  have h (t : Team) : (if t.uid = u then if t.uid = u then f t else t else t) = if t.uid = u then f t else t := by
    split <;> rfl
  simp only [State.modTeam, h]

theorem findTeam_modTeam_at (hf : ∀ t : Team, t.uid = u → (f t).uid = u) (hh : s.findTeam u = some h) :
    (s.modTeam u f).findTeam u = some (f h) := by
  rw [modTeam_of_uid, findTeam_modTeam, hh, Option.map_some, if_pos (findTeam_uid hh), if_pos (findTeam_uid hh)]
  intro t
  split
  · next ht => rw [hf t ht, ht]
  · rfl

theorem modTeam_team (hu : u ≠ s.team.uid) : (s.modTeam u f).team = s.team := if_neg (Ne.symm hu)

/-- What acting on a record leaves: the domains, the count of issues, and which team is in focus. -/
structure Resolving (s t : State) : Prop where
  domains : t.domains = s.domains
  issued : t.issued = s.issued
  focus : t.team.uid = s.team.uid

theorem resolving_refl (s : State) : Resolving s s := ⟨rfl, rfl, rfl⟩

theorem Resolving.trans {v : State} (h : Resolving s t) (h' : Resolving t v) : Resolving s v :=
  ⟨h'.domains.trans h.domains, h'.issued.trans h.issued, h'.focus.trans h.focus⟩

theorem resolving_modTeam (hu : u ≠ s.team.uid) : Resolving s (s.modTeam u f) :=
  ⟨rfl, rfl, congrArg Team.uid (modTeam_team hu)⟩

theorem resolving_modLaunch (s : State) (lid : Nat) (g : Launch → Launch) : Resolving s (s.modLaunch lid g) := ⟨rfl, rfl, rfl⟩

/-! ### A team as it stands, or stood before a swap (R408) -/

theorem resolveTeam_here (hh : s.findTeam u = some h) (hp : h.phase ≠ .swapped) : s.resolveTeam u f = s.modTeam u f := by
  unfold State.resolveTeam
  rw [hh]
  exact if_neg hp

/-- The team of a hearth after `f`: it stays swapped, and the phase that `f` gives it is the one to come back in. -/
def State.swappedBy (s : State) (u : Nat) (v : Team) : State :=
  { s.modTeam u (fun _ => { v with phase := .swapped }) with
    hearths := s.hearths.map (fun e => { e with phases := e.phases.map (fun p => if p.1 = u then (u, v.phase) else p) }) }

theorem resolveTeam_swapped (hh : s.findTeam u = some h) (hp : h.phase = .swapped) :
    s.resolveTeam u f = s.swappedBy u (f { h with phase := s.phaseOf h }) := by
  unfold State.resolveTeam
  rw [hh]
  exact if_pos hp

theorem phaseOf_swapped {p : Phase} (hu : h.uid = u) (hp : h.phase = .swapped)
    (hq : (s.hearths.flatMap Hearth.phases).find? (fun q => q.1 == u) = some (u, p)) : s.phaseOf h = p := by
  unfold State.phaseOf
  rw [if_pos hp, hu, hq]
  rfl

theorem resolving_swappedBy (hu : u ≠ s.team.uid) (v : Team) : Resolving s (s.swappedBy u v) :=
  ⟨rfl, rfl, congrArg Team.uid (modTeam_team (f := fun _ => { v with phase := .swapped }) hu)⟩

theorem findTeam_swappedBy (hh : s.findTeam u = some h) {v : Team} (hv : v.uid = u) :
    (s.swappedBy u v).findTeam u = some { v with phase := .swapped } :=
  findTeam_modTeam_at (f := fun _ => { v with phase := .swapped }) (fun _ _ => hv) hh

/-! ### Restarting a Held team (R375, R407) -/

theorem restart_uid (t : Team) : t.restart.uid = t.uid := by
  unfold Team.restart
  split <;> rfl

theorem restart_held {g : FaultInfo} (hp : h.phase = .held) (hg : h.fault = some g) :
    h.restart.phase = .ready ∧ h.restart.fault = none ∧ h.restart.pc = g.restart ∧ h.restart.regs = h.regs ∧
      h.restart.pre = h.pre ∧ h.restart.spillSz = h.spillSz ∧ h.restart.spillExt = h.spillExt := by
  unfold Team.restart
  rw [hg, hp]
  exact ⟨rfl, rfl, rfl, rfl, rfl, rfl, rfl⟩

/-- A Held team `h` as a record about it leaves it in `t`: it goes on at its restart offset, unless another record holds
it still (R375). -/
structure LetGo (held : Prop) (h : Team) (g : FaultInfo) (t : Team) : Prop where
  regs : t.regs = h.regs
  spillSz : t.spillSz = h.spillSz
  spillExt : t.spillExt = h.spillExt
  stays : held → t.phase = .held ∧ t.fault = some g
  goes : ¬held → t.pc = g.restart ∧ t.fault = none ∧ t.phase = .ready ∧ t.pre = h.pre

theorem letGo_restart {g : FaultInfo} (hu : u ≠ s.team.uid) (hh : s.findTeam u = some h) (hp : h.phase = .held)
    (hg : h.fault = some g) : Resolving s (s.letGo u Team.restart) ∧
      ∃ h', (s.letGo u Team.restart).findTeam u = some h' ∧ LetGo (s.heldBy u = true) h g h' := by
  unfold State.letGo
  by_cases hheld : s.heldBy u = true
  · rw [if_pos hheld]
    exact ⟨resolving_refl s, h, hh, rfl, rfl, rfl, fun _ => ⟨hp, hg⟩, fun hn => absurd hheld hn⟩
  · rw [if_neg hheld, resolveTeam_here hh (by rw [hp]; decide)]
    obtain ⟨hphase, hfault, hpc, hregs, hpre, hsz, hext⟩ := restart_held hp hg
    exact ⟨resolving_modTeam hu, h.restart, findTeam_modTeam_at (fun t ht => (restart_uid t).trans ht) hh, hregs, hsz, hext,
      fun hy => absurd hy hheld, fun _ => ⟨hpc, hfault, hphase, hpre⟩⟩

/-! ### The record is closed -/

/-- The record `y` is resolved (R375). -/
def State.closeRecord (s : State) (rcb : Nat) (y : FaultRec) : State :=
  s.modDomain rcb fun d => { d with open_ := d.open_.filter fun z => z.ticket != y.ticket }

/-- A record of the team other than `y` is open or waits. -/
def State.heldElse (s : State) (rcb : Nat) (y : FaultRec) (u : Nat) : Prop :=
  ∃ m ∈ s.domains, ∃ z, z.uid = some u ∧ (z ∈ m.waiting ∨ (z ∈ m.open_ ∧ ¬(m.rcb = rcb ∧ z.ticket = y.ticket)))

theorem heldBy_iff : s.heldBy u = true ↔ ∃ m ∈ s.domains, ∃ z, z.uid = some u ∧ (z ∈ m.waiting ∨ z ∈ m.open_) := by
  simp only [State.heldBy, List.any_eq_true, List.mem_append, beq_iff_eq]
  exact exists_congr fun m => and_congr_right fun _ => exists_congr fun z => and_comm

theorem heldBy_closeRecord {rcb : Nat} {y : FaultRec} : (s.closeRecord rcb y).heldBy u = true ↔ s.heldElse rcb y u := by
  rw [heldBy_iff]
  unfold State.closeRecord State.modDomain State.heldElse
  simp only [List.mem_map, exists_exists_and_eq_and]
  refine exists_congr fun m => and_congr_right fun _ => exists_congr fun z => and_congr_right fun _ => ?_
  by_cases hm : m.rcb = rcb
  · rw [if_pos hm]
    simp [hm]
  · rw [if_neg hm]
    simp [hm]

theorem findDomain_closeRecord {rcb : Nat} {y : FaultRec} {x : Domain} (hx : s.findDomain rcb = some x) :
    (s.closeRecord rcb y).findDomain rcb = some { x with open_ := x.open_.filter fun z => z.ticket != y.ticket } :=
  findDomain_modDomain (f := fun d => { d with open_ := d.open_.filter fun z => z.ticket != y.ticket }) (fun _ => rfl) hx

/-! ### What FDSTAT tells (R375) -/

/-- FDSTAT is written and the word ends. -/
def State.fdDone (t : State) (n : Nat) : State :=
  ({ t with team := { t.team with fdStat := BitVec.ofNat 64 n } } : State).retireCtl

theorem SameRegs.fdDone (h : SameRegs s t) (n : Nat) : SameRegs s (t.fdDone n) :=
  SameRegs.retireCtl ⟨h.regs, h.sp, sameBytes_trans h.mem (sameBytes_team t _)⟩

theorem findTeam_fdDone (hu : u ≠ t.team.uid) (n : Nat) : (t.fdDone n).findTeam u = t.findTeam u := by
  rw [findTeam_other hu, findTeam_other (s := t.fdDone n) hu]
  rfl

theorem findDomain_fdDone (rcb n : Nat) : (t.fdDone n).findDomain rcb = t.findDomain rcb := rfl

/-- The word `j` writes FDACT from register `r`. -/
def WritesFdact (j : Instr) (r : Nat) : Prop := ∀ s, exec j s = answer s (s.pswrFdact r)

/-- FDSTAT becomes `n`, and the state is one of `got` before what follows from it. -/
def FdStat (s : State) (j : Instr) (n : Nat) (got : State → Prop) : Prop :=
  ∃ v, exec j s = .next v.settle ∧ tookEffect s v ∧ v.team.fdStat = BitVec.ofNat 64 n ∧ got v

section
variable {j : Instr} {r n : Nat} {got : State → Prop} (hj : WritesFdact j r) (hsys : s.team.system = true)
include hj hsys

theorem fdStat_of_fdact (hf : s.fdact (s.getS r).toNat = (t, n)) (hi : t.issued = s.issued) (hg : got (t.fdDone n)) :
    FdStat s j n got := by
  refine ⟨t.fdDone n, (hj s).trans ((answer_privileged hsys _).trans ?_), congrArg (· + 1) hi, rfl, hg⟩
  dsimp only
  rw [hf]
  rfl

/-- A word that acts on no record tells so and changes nothing else. -/
theorem fdStat_refused (hf : s.fdact (s.getS r).toNat = (s, n)) : FdStat s j n (SameRegs s) :=
  fdStat_of_fdact hj hsys hf rfl ((sameRegs_refl s).fdDone n)

end

/-! ### The actions -/

section
variable {k : DomRef} {x : Domain} {y : FaultRec} {w : Nat} (hk : s.teamDomain = some k)
  (hx : s.findDomain k.rcb = some x)
include hk hx

theorem fdact_stale (h : ∀ y ∈ x.open_, y.ticket ≠ w % 2 ^ 32) : s.fdact w = (s, 1) := by
  unfold State.fdact
  rw [ownDomain_eq hk hx]
  dsimp only
  rw [List.find?_eq_none.mpr (fun y hy => by simpa using h y hy)]

variable (hy : x.open_.find? (fun z => z.ticket == w % 2 ^ 32) = some y)
include hy

theorem fdact_restart (hw : w / 2 ^ 32 % 4 = 0) :
    s.fdact w = if y.restart then ((s.closeRecord k.rcb y).actRestart y, 0) else (s, 2) := by
  unfold State.fdact
  rw [ownDomain_eq hk hx]
  dsimp only
  rw [hy, show field w 32 2 = 0 from hw, ← findDomain_rcb hx]
  rfl

theorem fdact_end (hw : w / 2 ^ 32 % 4 = 1) : s.fdact w = ((s.closeRecord k.rcb y).actEnd y, 0) := by
  unfold State.fdact
  rw [ownDomain_eq hk hx]
  dsimp only
  rw [hy, show field w 32 2 = 1 from hw, ← findDomain_rcb hx]
  rfl

theorem fdact_respill (hw : w / 2 ^ 32 % 4 = 2) : s.fdact w =
    if y.spill && s.team.fdArg.toNat % 65536 = 0 && s.recSpill y < s.team.fdArg.toNat then
      ((s.closeRecord k.rcb y).actRespill y s.team.fdArg.toNat, 0) else (s, 2) := by
  unfold State.fdact
  rw [ownDomain_eq hk hx]
  dsimp only
  rw [hy, show field w 32 2 = 2 from hw, ← findDomain_rcb hx]
  rfl

theorem fdact_reserved (hw : w / 2 ^ 32 % 4 = 3) : s.fdact w = (s, 3) := by
  unfold State.fdact
  rw [ownDomain_eq hk hx]
  dsimp only
  rw [hy, show field w 32 2 = 3 from hw]
  rfl

end

/-- The STATUS of a launch is the largest that it was given (R381). -/
def Launch.atLeast (n : Nat) (l : Launch) : Launch := { l with status := max l.status n }

/-! ### FDACT on the record of a team -/

/-- The domain of `rcb` after the record `y` of `x` is closed. -/
def Closed (rcb : Nat) (x : Domain) (y : FaultRec) (v : State) : Prop :=
  v.findDomain rcb = some { x with open_ := x.open_.filter fun z => z.ticket != y.ticket }

theorem closed_fdDone {rcb : Nat} {x : Domain} {y : FaultRec} (hx : s.findDomain rcb = some x)
    (hr : Resolving (s.closeRecord rcb y) t) (n : Nat) : Closed rcb x y (t.fdDone n) := by
  rw [Closed, findDomain_fdDone, State.findDomain, hr.domains]
  exact findDomain_closeRecord hx

section
variable {y : FaultRec} (hyu : y.uid = some u) (hyc : y.cmd = none)
include hyu

theorem recSpill_team (hh : s.findTeam u = some h) : s.recSpill y = h.spillSz := by
  unfold State.recSpill
  rw [hyu]
  dsimp only [Option.bind_some]
  rw [hh]

/-- The state in which the team of a record has its new spill area (R375, log 88). -/
def State.respilled (s : State) (u n : Nat) : State :=
  s.draw.2.modTeam u fun t => t.growSpill n (s.draw.1 % 2 ^ 40 * 2 ^ 16)

theorem actRespill_held (n : Nat) (hh : s.findTeam u = some h) (hp : h.phase ≠ .swapped) :
    s.actRespill y n = (s.respilled u n).letGo u Team.restart := by
  unfold State.actRespill
  rw [hyu]
  dsimp only
  rw [resolveTeam_here (s := s.draw.2) hh hp]
  rfl

include hyc

theorem actRestart_team : s.actRestart y = s.letGo u Team.restart := by
  unfold State.actRestart
  rw [hyu, hyc]

theorem actEnd_team (hh : s.findTeam u = some h) :
    s.actEnd y = (s.resolveTeam u Team.finish).modLaunch h.lid (Launch.atLeast 2) := by
  unfold State.actEnd
  rw [hyu, hyc]
  dsimp only
  rw [hh]
  rfl

end

theorem resolving_respilled (hu : u ≠ s.team.uid) (n : Nat) : Resolving s (s.respilled u n) :=
  Resolving.trans (t := s.draw.2) ⟨rfl, rfl, rfl⟩ (resolving_modTeam hu)

theorem findTeam_respilled (hh : s.findTeam u = some h) (n : Nat) :
    (s.respilled u n).findTeam u = some (h.growSpill n (s.draw.1 % 2 ^ 40 * 2 ^ 16)) :=
  findTeam_modTeam_at (s := s.draw.2) (fun _ ht => ht) hh

theorem heldBy_congr (h : t.domains = s.domains) (u : Nat) : t.heldBy u = s.heldBy u := by
  rw [State.heldBy, h]
  rfl

/-- The record is closed and its Held team is as it leaves it. -/
def Resumed (s : State) (rcb : Nat) (x : Domain) (y : FaultRec) (u : Nat) (h : Team) (g : FaultInfo) (v : State) : Prop :=
  Closed rcb x y v ∧ ∃ h', v.findTeam u = some h' ∧ LetGo (s.heldElse rcb y u) h g h'

section
variable {j : Instr} {r : Nat} {k : DomRef} {x : Domain} {y : FaultRec} {g : FaultInfo} (hj : WritesFdact j r)
  (hsys : s.team.system = true) (hk : s.teamDomain = some k) (hx : s.findDomain k.rcb = some x)
  (hy : x.open_.find? (fun z => z.ticket == (s.getS r).toNat % 2 ^ 32) = some y) (hyu : y.uid = some u)
  (hu : u ≠ s.team.uid) (hh : s.findTeam u = some h)

section
include hj hsys hx hu

/-- What a restart makes of a Held team that may have been changed in `t` before. -/
theorem fdStat_letGo (hf : s.fdact (s.getS r).toNat = (t.letGo u Team.restart, 0))
    (hr : Resolving (s.closeRecord k.rcb y) t) (hfound : t.findTeam u = some h) (hp : h.phase = .held)
    (hg : h.fault = some g) : FdStat s j 0 (Resumed s k.rcb x y u h g) := by
  have hut : u ≠ t.team.uid := hr.focus ▸ hu
  obtain ⟨hr', h', hfind, hgo⟩ := letGo_restart hut hfound hp hg
  rw [heldBy_congr hr.domains, heldBy_closeRecord] at hgo
  exact fdStat_of_fdact hj hsys hf (hr.trans hr').issued
    ⟨closed_fdDone hx (hr.trans hr') 0, h', (findTeam_fdDone (hr'.focus ▸ hut) 0).trans hfind, hgo⟩

end

section
include hj hsys hk hx hy hyu hh

theorem fdRespill_refused (hw : (s.getS r).toNat / 2 ^ 32 % 4 = 2) (hn : s.team.fdArg.toNat ≤ h.spillSz) :
    FdStat s j 2 (SameRegs s) := by
  refine fdStat_refused hj hsys ((fdact_respill hk hx hy hw).trans (if_neg ?_))
  rw [recSpill_team hyu hh]
  simp only [Bool.and_eq_true, decide_eq_true_iff]
  omega

include hu

theorem fdRespill_held (hp : h.phase = .held) (hg : h.fault = some g) (hw : (s.getS r).toNat / 2 ^ 32 % 4 = 2)
    (hs : y.spill = true) (ha : s.team.fdArg.toNat % 65536 = 0) (hn : h.spillSz < s.team.fdArg.toNat) :
    ∃ va, va % 65536 = 0 ∧ FdStat s j 0 (Resumed s k.rcb x y u (h.growSpill s.team.fdArg.toNat va) g) := by
  have hf := (fdact_respill hk hx hy hw).trans (if_pos (by rw [recSpill_team hyu hh, hs]; simp [ha, hn]))
  rw [actRespill_held (s := s.closeRecord k.rcb y) hyu _ hh (by rw [hp]; decide)] at hf
  have hfound := findTeam_respilled (s := s.closeRecord k.rcb y) hh s.team.fdArg.toNat
  exact ⟨_, Nat.mul_mod_left .., fdStat_letGo hj hsys hx hu hf (resolving_respilled (s := s.closeRecord k.rcb y) hu _) hfound hp hg⟩

variable (hyc : y.cmd = none)
include hyc

theorem fdRestart_held (hp : h.phase = .held) (hg : h.fault = some g) (hw : (s.getS r).toNat / 2 ^ 32 % 4 = 0)
    (hs : y.restart = true) : FdStat s j 0 (Resumed s k.rcb x y u h g) := by
  have hf := (fdact_restart hk hx hy hw).trans (if_pos hs)
  rw [actRestart_team (s := s.closeRecord k.rcb y) hyu hyc] at hf
  exact fdStat_letGo hj hsys hx hu hf (resolving_refl _) hh hp hg

theorem fdEnd_held (hp : h.phase = .held) (hw : (s.getS r).toNat / 2 ^ 32 % 4 = 1) :
    FdStat s j 0 fun v => Closed k.rcb x y v ∧ v.findTeam u = some h.finish := by
  have hf := fdact_end hk hx hy hw
  rw [actEnd_team (s := s.closeRecord k.rcb y) hyu hyc hh,
    resolveTeam_here (s := s.closeRecord k.rcb y) hh (by rw [hp]; decide)] at hf
  have hr := (resolving_modTeam (s := s.closeRecord k.rcb y) (f := Team.finish) hu).trans (resolving_modLaunch _ h.lid (Launch.atLeast 2))
  exact fdStat_of_fdact hj hsys hf hr.issued ⟨closed_fdDone hx hr 0, (findTeam_fdDone (hr.focus ▸ hu) 0).trans
    (findTeam_modTeam_at (s := s.closeRecord k.rcb y) (fun _ ht => ht) hh)⟩

/-! ### FDACT on the record of a team that is swapped out (R408) -/

section
variable (hp : h.phase = .swapped) (hq : (s.hearths.flatMap Hearth.phases).find? (fun p => p.1 == u) = some (u, .held))
include hp hq

/-- The hearths hold phase `ph` of the team `u` for swap-in, and in the meantime `v` stands for it. -/
def SwappedOut (s : State) (u : Nat) (ph : Phase) (h' : Team) (v : State) : Prop :=
  v.hearths = s.hearths.map (fun e => { e with phases := e.phases.map fun p => if p.1 = u then (u, ph) else p }) ∧
    v.findTeam u = some { h' with phase := .swapped }

theorem fdRestart_swapped (hg : h.fault = some g) (hw : (s.getS r).toNat / 2 ^ 32 % 4 = 0) (hs : y.restart = true)
    (hn : ¬s.heldElse k.rcb y u) : FdStat s j 0 (SwappedOut s u .ready ({ h with phase := .held } : Team).restart) := by
  have hf := (fdact_restart hk hx hy hw).trans (if_pos hs)
  rw [actRestart_team (s := s.closeRecord k.rcb y) hyu hyc, State.letGo, if_neg (mt heldBy_closeRecord.mp hn),
    resolveTeam_swapped (s := s.closeRecord k.rcb y) hh hp,
    phaseOf_swapped (s := s.closeRecord k.rcb y) (findTeam_uid hh) hp hq] at hf
  have hr := resolving_swappedBy (s := s.closeRecord k.rcb y) hu ({ h with phase := .held } : Team).restart
  have hv : ({ h with phase := .held } : Team).restart.uid = u := (restart_uid _).trans (show h.uid = u from findTeam_uid hh)
  refine fdStat_of_fdact hj hsys hf hr.issued ⟨?_, (findTeam_fdDone (hr.focus ▸ hu) 0).trans
    (findTeam_swappedBy (s := s.closeRecord k.rcb y) hh hv)⟩
  rw [← (restart_held (h := { h with phase := .held }) rfl hg).1]
  rfl

theorem fdEnd_swapped (hw : (s.getS r).toNat / 2 ^ 32 % 4 = 1) :
    FdStat s j 0 (SwappedOut s u .ended ({ h with phase := .held } : Team).finish) := by
  have hf := fdact_end hk hx hy hw
  rw [actEnd_team (s := s.closeRecord k.rcb y) hyu hyc hh, resolveTeam_swapped (s := s.closeRecord k.rcb y) hh hp,
    phaseOf_swapped (s := s.closeRecord k.rcb y) (findTeam_uid hh) hp hq] at hf
  have hr := (resolving_swappedBy (s := s.closeRecord k.rcb y) hu ({ h with phase := .held } : Team).finish).trans
    (resolving_modLaunch _ h.lid (Launch.atLeast 2))
  exact fdStat_of_fdact hj hsys hf hr.issued ⟨rfl, (findTeam_fdDone (hr.focus ▸ hu) 0).trans
    (findTeam_swappedBy (s := s.closeRecord k.rcb y) hh (show h.uid = u from findTeam_uid hh))⟩

end
end
end

end
end Sys2Proof.Machine
end

section
/-!
PROOF. FDACT on the record of a suspended command (R332, R375): resumed at DONE, or abandoned with the signals of a completion
(R322..R324).
-/
namespace Sys2Proof.Machine

section
variable {s t : State} {c : Cmd}

/-! ### Bytes that are written read back -/

theorem natLe_leNat (bs : List Byte) : natLe (leNat bs) bs.length = bs := by
  induction bs with
  | nil => rfl
  | cons b bs ih =>
    rw [leNat, List.length_cons, natLe, Nat.add_mul_div_left _ _ (by decide), Nat.div_eq_of_lt b.isLt, Nat.zero_add, ih]
    congr 1
    apply BitVec.eq_of_toNat_eq
    rw [BitVec.toNat_ofNat, Nat.add_mul_mod_self_left, Nat.mod_eq_of_lt b.isLt]

/-- A store of bytes is the bytes. -/
theorem smGet_storeLe_bytes {m : SMap Byte} (h : smWf (0 : Byte) m = true) (a : Nat) (bs : List Byte) {i : Nat}
    (hi : i < bs.length) : smGet 0 (storeLe m a bs.length (leNat bs)) (a + i) = bs[i] := by
  rw [storeLe, natLe_leNat]
  exact smGet_setBytes h bs a i hi

theorem byteAt_writeAt_bytes (hs : Canon s) {p : Place} {bs : List Byte} (hp : ordinary s p bs.length) {i : Nat}
    (hi : i < bs.length) : (s.writeAt p bs.length (leNat bs)).byteAt (p.plus i) = bs[i] := by
  obtain ⟨hmem, -⟩ := storesWf_iff.mp hs
  cases p with
  | dev pa =>
    have hout : ¬(pubBase ≤ pa ∧ pa < pubBase + pubSize) := by
      change pa + bs.length ≤ pubBase ∨ pubBase + pubSize ≤ pa at hp
      omega
    have hout' : ¬(pubBase ≤ pa + i ∧ pa + i < pubBase + pubSize) := by
      change pa + bs.length ≤ pubBase ∨ pubBase + pubSize ≤ pa at hp
      omega
    rw [State.writeAt, if_neg hout, Place.plus, State.byteAt, if_neg hout']
    simp only [memInv, Bool.and_eq_true] at hmem
    exact smGet_storeLe_bytes hmem.1.1 pa bs hi
  | spad bid off =>
    obtain ⟨b, hb⟩ := Option.isSome_iff_exists.mp (show (s.findBlock bid).isSome = true from hp)
    rw [Place.plus, byteAt_spad (findBlock_writeAt hb off _ _)]
    exact smGet_storeLe_bytes (findBlock_wf hs hb) off bs hi

theorem bytesAt_writeAt_bytes (hs : Canon s) {p : Place} {bs : List Byte} (hp : ordinary s p bs.length) :
    (s.writeAt p bs.length (leNat bs)).bytesAt p bs.length = bs := by
  refine List.ext_getElem (by simp [State.bytesAt]) fun i h1 h2 => ?_
  simp only [State.bytesAt, List.getElem_map, List.getElem_range]
  exact byteAt_writeAt_bytes hs hp h2

theorem bytesAt_congr (h : sameBytes s t) (p : Place) (n : Nat) : t.bytesAt p n = s.bytesAt p n :=
  List.map_congr_left fun i _ => (h (p.plus i)).1

/-! ### A command resumed (R332) -/

/-- A command runs again. -/
def Cmd.again (c : Cmd) (k : CmdKind) : Cmd := { c with status := .running, stopCause := 0, stopAddr := 0, kind := k }

theorem resumeCmd_other {id : Nat} {z : Cmd} (hz : z ∈ s.cmds) (hne : z.id ≠ id) : z ∈ (s.resumeCmd id).cmds :=
  List.mem_map.mpr ⟨z, hz, if_neg hne⟩

theorem resumeCmd_self {id : Nat} (hc : s.cmds.find? (fun z => z.id == id) = some c) :
    ∃ k, c.again k ∈ (s.resumeCmd id).cmds ∧ ((∀ q, c.kind ≠ .send q) → k = c.kind) := by
  have hid : c.id = id := by simpa using List.find?_some hc
  refine ⟨_, List.mem_map.mpr ⟨c, List.mem_of_find?_eq_some hc, if_pos hid⟩, fun hk => ?_⟩
  dsimp only
  split
  · next q hq => exact absurd hq (hk q)
  · rfl

theorem resolving_resumeCmd (s : State) (id : Nat) : Resolving s (s.resumeCmd id) := ⟨rfl, rfl, rfl⟩

theorem sameBytes_resumeCmd (s : State) (id : Nat) : sameBytes s (s.resumeCmd id) := sameBytes_of_stores rfl rfl rfl rfl rfl

theorem sameBytes_closeRecord (s : State) (rcb : Nat) (y : FaultRec) : sameBytes s (s.closeRecord rcb y) :=
  sameBytes_modDomain s rcb _

theorem sameBytes_fdDone (t : State) (n : Nat) : sameBytes t (t.fdDone n) := sameBytes_goTo (sameBytes_team t _) _

/-! ### What a completion signals (R323) -/

/-- The completion record is written where the command said (R324). -/
def State.recordWritten (s : State) (c : Cmd) (p : Place) : State :=
  ((s.stamp c.unit).2.noteSignal c).writeAt p 32 (leNat (c.record (s.stamp c.unit).1 c.cause c.addr.toNat 0xFF))

/-- The completion counter goes up, with ERR for a poisoned command (R327). -/
def State.counterUp (s : State) (c : Cmd) (n : Nat) : State :=
  s.setCounter c.bid (1024 + n) ((s.countErr c.bid (1024 + n)).1 + 1) ((s.countErr c.bid (1024 + n)).2 || c.poisoned)

section
variable {w : Nat} (hw : c.ctl.toNat = w) (h8 : w.testBit 8 = false)
include hw h8

theorem signals_none (h9 : w.testBit 9 = false) (h7 : w.testBit 7 = false) : s.signals c = s := by
  unfold State.signals
  simp only [hw, h7, h8, h9, Bool.false_eq_true, if_false]

theorem signals_record (h9 : w.testBit 9 = true) (h7 : w.testBit 7 = false) {p : Place}
    (hp : (s.stamp c.unit).2.signalPlace c (.engineWrite false) c.recAddr 32 false = .ok p) :
    s.signals c = s.recordWritten c p := by
  unfold State.signals
  simp only [hw, h7, h8, h9, hp, Bool.false_eq_true, if_false, if_true]
  rfl

theorem signals_counter (h9 : w.testBit 9 = false) (h7 : w.testBit 7 = true) :
    s.signals c = s.counterUp c (field w 0 6) := by
  unfold State.signals
  simp only [hw, h7, h8, h9, Bool.false_eq_true, if_false, if_true]
  rfl

end

/-! ### A command that completes without an arrival counter -/

/-- The command leaves the machine: its buffers are remembered and its launch gets its STATUS (R324, R381). -/
def State.cmdLeft (s : State) (c : Cmd) : State :=
  let t : State := { s with cmds := s.cmds.filter fun x => x.id != c.id }
  let bad := if c.poisoned then c.kind.written s.amc.cfg.device else []
  (t.modTeam c.uid fun v => { v with badBuffers := bad.foldl setAdd v.badBuffers }).modLaunch c.lid
    (Launch.atLeast c.launchStatus)

theorem finishCmd_left (hn : c.counts = false) (hq : c.cpQueue = none) : s.finishCmd c = (s.signals c).cmdLeft c := by
  unfold State.finishCmd
  dsimp only
  rw [hn, Bool.not_false, Bool.true_or, if_pos rfl]
  unfold State.endCmd State.countUp
  dsimp only
  rw [hn, hq]
  rfl

theorem resolving_cmdLeft (s : State) (c : Cmd) : Resolving s (s.cmdLeft c) where
  domains := rfl
  issued := rfl
  focus := by
    unfold State.cmdLeft State.modTeam State.modLaunch
    dsimp only
    split <;> rfl

theorem sameBytes_cmdLeft (s : State) (c : Cmd) : sameBytes s (s.cmdLeft c) := sameBytes_of_stores rfl rfl rfl rfl rfl

/-! ### The completion record in memory -/

theorem length_record (c : Cmd) (stamp cause addr sid : Nat) : (c.record stamp cause addr sid).length = 32 := by
  simp only [Cmd.record, List.length_append, length_natLe, List.length_singleton]

theorem marksOnly_noteSignal (s : State) (c : Cmd) : MarksOnly s (s.noteSignal c) := by
  unfold State.noteSignal
  dsimp only
  split
  · exact (MarksOnly.refl s).noteAs
  · exact MarksOnly.refl s

/-- A write to memory or to a scratchpad leaves all else. -/
theorem writeAt_ordinary {p : Place} {n : Nat} (hp : ordinary s p n) (hn : 0 < n) (x : Nat) :
    ∃ m b bs, s.writeAt p n x = { s with mem := m, blk := b, blocks := bs } := by
  cases p with
  | dev pa =>
    have hout : ¬(pubBase ≤ pa ∧ pa < pubBase + pubSize) := by
      change pa + n ≤ pubBase ∨ pubBase + pubSize ≤ pa at hp
      omega
    rw [State.writeAt, if_neg hout]
    exact ⟨_, s.blk, s.blocks, rfl⟩
  | spad bid off => exact ⟨s.mem, _, _, rfl⟩

section
variable {p : Place} (hp : ordinary s p 32)
include hp

theorem ordinary_noteSignal (unit : Nat) (c : Cmd) : ordinary ((s.stamp unit).2.noteSignal c) p 32 := by
  obtain ⟨ca, a, hn⟩ := marksOnly_noteSignal (s.stamp unit).2 c
  rw [hn]
  cases p with
  | dev pa => exact hp
  | spad bid off => exact hp

theorem recordWritten_frame (c : Cmd) : Resolving s (s.recordWritten c p) ∧ (s.recordWritten c p).cmds = s.cmds := by
  obtain ⟨m, b, bs, hw⟩ := writeAt_ordinary (ordinary_noteSignal hp c.unit c) (by decide)
    (leNat (c.record (s.stamp c.unit).1 c.cause c.addr.toNat 0xFF))
  obtain ⟨ca, a, hn⟩ := marksOnly_noteSignal (s.stamp c.unit).2 c
  rw [State.recordWritten, hw, hn]
  exact ⟨⟨rfl, rfl, rfl⟩, rfl⟩

theorem recordWritten_bytes (hs : Canon s) (c : Cmd) :
    (s.recordWritten c p).bytesAt p 32 = c.record (s.stamp c.unit).1 c.cause c.addr.toNat 0xFF := by
  have hl := length_record c (s.stamp c.unit).1 c.cause c.addr.toNat 0xFF
  have hc : Canon ((s.stamp c.unit).2.noteSignal c) := Canon.noteSignal (Canon.stamp hs)
  have h := bytesAt_writeAt_bytes hc (hl ▸ ordinary_noteSignal hp c.unit c)
  rwa [hl] at h

end

/-! ### The completion counter -/

section
variable {n : Nat} (hb : c.bid = s.blk.bid) (hb0 : c.bid ≠ 0) (hn : n < 64)
include hn

theorem selector_local : (1024 + n).testBit 10 = true ∧ (1024 + n) % 64 = n := by
  have h : ∀ m < 64, (1024 + m).testBit 10 = true ∧ (1024 + m) % 64 = m := by decide
  exact h n hn

include hb hb0

theorem countErr_focus : s.countErr c.bid (1024 + n) =
    (smGet 0 s.blk.counters n % 2 ^ 32, (smGet 0 s.blk.counters n).testBit 63) := by
  obtain ⟨h10, hm⟩ := selector_local hn
  have hblk : s.findBlock c.bid = some s.blk := by
    unfold State.findBlock State.allBlocks
    rw [if_neg (hb ▸ hb0)]
    exact List.find?_cons_of_pos (by simp [hb])
  unfold State.countErr
  rw [if_pos h10, hblk, hm]
  rfl

theorem counterUp_blk (hp : c.poisoned = true) : (s.counterUp c n).blk = { s.blk with
    counters := smSet 0 s.blk.counters n ((smGet 0 s.blk.counters n % 2 ^ 32 + 1) % 2 ^ 32 + 2 ^ 63) } := by
  obtain ⟨h10, hm⟩ := selector_local hn
  unfold State.counterUp
  rw [countErr_focus hb hb0 hn, hp, Bool.or_true]
  unfold State.setCounter
  rw [if_pos h10, hm]
  exact if_pos hb.symm

/-- COUNT goes up by one and ERR is set (R327). -/
theorem counterUp_counters (hp : c.poisoned = true) (hwf : smWf (0 : Nat) s.blk.counters = true) :
    smGet 0 (s.counterUp c n).blk.counters n % 2 ^ 32 = (smGet 0 s.blk.counters n + 1) % 2 ^ 32 ∧
      (smGet 0 (s.counterUp c n).blk.counters n).testBit 63 = true := by
  rw [counterUp_blk hb hb0 hn hp]
  dsimp only
  rw [smGet_smSet_self hwf]
  refine ⟨by omega, ?_⟩
  rw [Nat.add_comm, Nat.testBit_two_pow_add_eq, Nat.testBit_lt_two_pow]
  · rfl
  · omega

end

theorem resolving_counterUp (s : State) (c : Cmd) {n : Nat} (hn : n < 64) :
    Resolving s (s.counterUp c n) ∧ (s.counterUp c n).cmds = s.cmds := by
  unfold State.counterUp State.setCounter
  rw [if_pos (selector_local hn).1]
  exact ⟨⟨rfl, rfl, rfl⟩, rfl⟩

/-! ### FDACT on the record of a command -/

/-- The command as it completes when it is abandoned (R324, R332, log 33). -/
def Cmd.abandoned (c : Cmd) : Cmd := { c with poisoned := true, cause := 0x42, addr := c.stopAddr }

/-- The record is closed, and what the command had given its launch stands (R425). -/
def State.abandoning (s : State) (rcb : Nat) (y : FaultRec) (c : Cmd) : State :=
  (s.closeRecord rcb y).modLaunch c.lid (Launch.atLeast c.launchStatus)

theorem abandonCmd_eq {id : Nat} (hc : s.cmds.find? (fun z => z.id == id) = some c) :
    s.abandonCmd id = (s.modLaunch c.lid (Launch.atLeast c.launchStatus)).finishCmd c.abandoned := by
  unfold State.abandonCmd
  rw [hc]
  rfl

theorem FdStat.imp {j : Instr} {n : Nat} {got got' : State → Prop} (h : FdStat s j n got) (hg : ∀ v, got v → got' v) :
    FdStat s j n got' := by
  obtain ⟨v, hv, hi, hf, hgot⟩ := h
  exact ⟨v, hv, hi, hf, hg v hgot⟩

section
variable {j : Instr} {r id : Nat} {k : DomRef} {x : Domain} {y : FaultRec} (hj : WritesFdact j r)
  (hsys : s.team.system = true) (hk : s.teamDomain = some k) (hx : s.findDomain k.rcb = some x)
  (hy : x.open_.find? (fun z => z.ticket == (s.getS r).toNat % 2 ^ 32) = some y) (hyu : y.uid = none)
  (hyc : y.cmd = some id) (hc : s.cmds.find? (fun z => z.id == id) = some c)
include hj hsys hk hx hy hyu hyc hc

/-- The command runs again at DONE, and no other is touched (R332). -/
theorem fdRestart_cmd (hw : (s.getS r).toNat / 2 ^ 32 % 4 = 0) (hs : y.restart = true) : FdStat s j 0 fun v =>
    (Closed k.rcb x y v ∧ ∀ z ∈ s.cmds, z.id ≠ id → z ∈ v.cmds) ∧ sameBytes s v ∧
      ∃ q, c.again q ∈ v.cmds ∧ ((∀ p, c.kind ≠ .send p) → q = c.kind) := by
  have hf := (fdact_restart hk hx hy hw).trans (if_pos hs)
  rw [show (s.closeRecord k.rcb y).actRestart y = (s.closeRecord k.rcb y).resumeCmd id by
    unfold State.actRestart; rw [hyu, hyc]] at hf
  have hr := resolving_resumeCmd (s.closeRecord k.rcb y) id
  exact fdStat_of_fdact hj hsys hf hr.issued
    ⟨⟨closed_fdDone hx hr 0, fun z hz hne => resumeCmd_other (s := s.closeRecord k.rcb y) hz hne⟩,
      sameBytes_trans (sameBytes_closeRecord s k.rcb y) (sameBytes_trans (sameBytes_resumeCmd _ id) (sameBytes_fdDone _ 0)),
      resumeCmd_self (s := s.closeRecord k.rcb y) hc⟩

/-- Abandoned, the command makes its signals and leaves the machine. -/
theorem fdEnd_cmd (hw : (s.getS r).toNat / 2 ^ 32 % 4 = 1) (hq : c.cpQueue = none) (hn : c.counts = false)
    (hi : ((s.abandoning k.rcb y c).signals c.abandoned).issued = s.issued) :
    FdStat s j 0 (· = (((s.abandoning k.rcb y c).signals c.abandoned).cmdLeft c.abandoned).fdDone 0) := by
  have hf := fdact_end hk hx hy hw
  rw [show (s.closeRecord k.rcb y).actEnd y = (s.closeRecord k.rcb y).abandonCmd id by
    unfold State.actEnd; rw [hyu, hyc], abandonCmd_eq (s := s.closeRecord k.rcb y) hc,
    finishCmd_left (c := c.abandoned) hn hq] at hf
  exact fdStat_of_fdact hj hsys hf ((resolving_cmdLeft _ _).issued.trans hi) rfl

end

/-! ### The signals of an abandoned command -/

/-- CTL with a completion counter alone (R322). -/
theorem counterCtl {n : Nat} (hn : n < 64) : (128 + n).testBit 7 = true ∧ (128 + n).testBit 8 = false ∧
    (128 + n).testBit 9 = false ∧ (128 + n).testBit 21 = false ∧ field (128 + n) 0 6 = n := by
  have h : ∀ m < 64, (128 + m).testBit 7 = true ∧ (128 + m).testBit 8 = false ∧ (128 + m).testBit 9 = false ∧
      (128 + m).testBit 21 = false ∧ field (128 + m) 0 6 = m := by decide
  exact h n hn

/-- What is left of the commands once the command `c` has gone. -/
theorem mem_left {z : Cmd} (hs : t.cmds = s.cmds) :
    z ∈ ((t.cmdLeft c.abandoned).fdDone 0).cmds ↔ z ∈ s.cmds ∧ z.id ≠ c.id := by
  rw [← hs]
  exact List.mem_filter.trans (and_congr_right fun _ => bne_iff_ne)

theorem blk_left : ((t.cmdLeft c.abandoned).fdDone 0).blk = t.blk := rfl

theorem sameBytes_left (t : State) (c : Cmd) : sameBytes t ((t.cmdLeft c).fdDone 0) :=
  sameBytes_trans (sameBytes_cmdLeft t c) (sameBytes_fdDone _ 0)

theorem resolving_abandoning (s : State) (rcb : Nat) (y : FaultRec) (c : Cmd) :
    Resolving (s.closeRecord rcb y) (s.abandoning rcb y c) := resolving_modLaunch _ _ _

theorem sameBytes_abandoning (s : State) (rcb : Nat) (y : FaultRec) (c : Cmd) : sameBytes s (s.abandoning rcb y c) :=
  sameBytes_trans (sameBytes_closeRecord s rcb y) (sameBytes_of_stores rfl rfl rfl rfl rfl)

/-- An abandoned command gives its launch STATUS 2 (R381). -/
theorem findLaunch_left {rcb : Nat} {y : FaultRec} {l : Launch} (hl : s.findLaunch c.lid = some l) :
    ∃ l', (((s.abandoning rcb y c).cmdLeft c.abandoned).fdDone 0).findLaunch c.lid = some l' ∧ 2 ≤ l'.status :=
  ⟨_, findLaunch_modLaunch (f := Launch.atLeast 2) (fun _ => rfl)
    (findLaunch_modLaunch (s := s.closeRecord rcb y) (f := Launch.atLeast c.launchStatus) (fun _ => rfl) hl), le_max_right _ _⟩

section
variable {j : Instr} {r id : Nat} {k : DomRef} {x : Domain} {y : FaultRec} (hj : WritesFdact j r)
  (hsys : s.team.system = true) (hk : s.teamDomain = some k) (hx : s.findDomain k.rcb = some x)
  (hy : x.open_.find? (fun z => z.ticket == (s.getS r).toNat % 2 ^ 32) = some y) (hyu : y.uid = none)
  (hyc : y.cmd = some id) (hc : s.cmds.find? (fun z => z.id == id) = some c)
  (hw : (s.getS r).toNat / 2 ^ 32 % 4 = 1) (hq : c.cpQueue = none)
include hj hsys hk hx hy hyu hyc hc hw hq

theorem fdEnd_cmd_silent (h0 : c.ctl = 0) : FdStat s j 0 fun v =>
    (Closed k.rcb x y v ∧ ∀ z ∈ s.cmds, z.id ≠ id → z ∈ v.cmds) ∧ sameBytes s v ∧ (∀ z ∈ v.cmds, z.id ≠ id) ∧
      ∀ l, s.findLaunch c.lid = some l → ∃ l', v.findLaunch c.lid = some l' ∧ 2 ≤ l'.status := by
  have hid : c.id = id := by simpa using List.find?_some hc
  have hw0 : c.abandoned.ctl.toNat = 0 := congrArg BitVec.toNat h0
  have hsig := signals_none (s := s.abandoning k.rcb y c) hw0 (by decide) (by decide) (by decide)
  have hr := resolving_abandoning s k.rcb y c
  refine (fdEnd_cmd hj hsys hk hx hy hyu hyc hc hw hq (by rw [Cmd.counts, h0]; rfl) (by rw [hsig]; exact hr.issued)).imp ?_
  rw [hsig]
  rintro v rfl
  have hmem {z : Cmd} := mem_left (s := s) (t := s.abandoning k.rcb y c) (c := c) (z := z) rfl
  rw [hid] at hmem
  exact ⟨⟨closed_fdDone hx (hr.trans (resolving_cmdLeft _ _)) 0, fun z hz hne => hmem.mpr ⟨hz, hne⟩⟩,
    sameBytes_trans (sameBytes_abandoning s k.rcb y c) (sameBytes_left _ _), fun z hz => (hmem.mp hz).2,
    fun l hl => findLaunch_left hl⟩

theorem fdEnd_cmd_record (h0 : c.ctl = BitVec.ofNat 64 512) (hs : Canon s) {p : Place} (hp : ordinary s p 32)
    (hpl : ((s.abandoning k.rcb y c).stamp c.unit).2.signalPlace c (.engineWrite false) c.recAddr 32 false = .ok p) :
    FdStat s j 0 fun v => (∀ z ∈ v.cmds, z.id ≠ id) ∧ v.bytesAt p 32 =
      c.abandoned.record ((s.abandoning k.rcb y c).stamp c.unit).1 0x42 c.stopAddr.toNat 0xFF := by
  have hid : c.id = id := by simpa using List.find?_some hc
  have hw0 : c.abandoned.ctl.toNat = 512 := congrArg BitVec.toNat h0
  have hsig := signals_record (s := s.abandoning k.rcb y c) hw0 (by decide) (by decide) (by decide) hpl
  have hord : ordinary (s.abandoning k.rcb y c) p 32 := by
    cases p with
    | dev pa => exact hp
    | spad bid off => exact hp
  obtain ⟨hr, hcmds⟩ := recordWritten_frame hord c.abandoned
  refine (fdEnd_cmd hj hsys hk hx hy hyu hyc hc hw hq (by rw [Cmd.counts, h0]; rfl) (by rw [hsig]; exact hr.issued)).imp ?_
  rw [hsig]
  rintro v rfl
  refine ⟨fun z hz => hid ▸ ((mem_left (s := s) hcmds).mp hz).2, ?_⟩
  rw [bytesAt_congr (sameBytes_left _ _)]
  exact recordWritten_bytes hord (Canon.modLaunch (Canon.modDomain hs)) c.abandoned

theorem fdEnd_cmd_counter {n : Nat} (hb : c.bid = s.blk.bid) (hb0 : c.bid ≠ 0) (hn : n < 64)
    (h0 : c.ctl = BitVec.ofNat 64 (128 + n)) (hwf : smWf (0 : Nat) s.blk.counters = true) :
    FdStat s j 0 fun v => (∀ z ∈ v.cmds, z.id ≠ id) ∧
      smGet 0 v.blk.counters n % 2 ^ 32 = (smGet 0 s.blk.counters n + 1) % 2 ^ 32 ∧
      (smGet 0 v.blk.counters n).testBit 63 = true := by
  have hid : c.id = id := by simpa using List.find?_some hc
  have hw0 : c.abandoned.ctl.toNat = 128 + n :=
    (congrArg BitVec.toNat h0).trans (Nat.mod_eq_of_lt (by omega))
  obtain ⟨h7, h8, h9, h21, hf⟩ := counterCtl hn
  have hsig := signals_counter (s := s.abandoning k.rcb y c) hw0 h8 h9 h7
  rw [hf] at hsig
  obtain ⟨hr, hcmds⟩ := resolving_counterUp (s.abandoning k.rcb y c) c.abandoned hn
  refine (fdEnd_cmd hj hsys hk hx hy hyu hyc hc hw hq ?_ (by rw [hsig]; exact hr.issued)).imp ?_
  · rw [Cmd.counts, show c.ctl.toNat = 128 + n from hw0]
    exact h21
  rw [hsig]
  rintro v rfl
  refine ⟨fun z hz => hid ▸ ((mem_left (s := s) hcmds).mp hz).2, ?_⟩
  rw [blk_left]
  exact counterUp_counters (s := s.abandoning k.rcb y c) (c := c.abandoned) hb hb0 hn rfl hwf

end

end
end Sys2Proof.Machine
end

section
/-!
PROOF. The privileged words and the fault queue (R238..R240, R368, R373..R375, R405, R408) together.
-/
namespace Sys2Proof.Machine

theorem SameRegs.and {s t : State} (h : SameRegs s t) :
    t.team.regs = s.team.regs ∧ t.team.sp = s.team.sp ∧ sameBytes s t := ⟨h.regs, h.sp, h.mem⟩

/-- The completion record of an abandoned command has CAUSE 0x42 and no source (R324, log 33). -/
theorem record_abandoned (c : Cmd) (stamp addr : Nat) : c.abandoned.record stamp 0x42 addr 0xFF =
    natLe stamp 8 ++ natLe c.off.toNat 4 ++ natLe c.op 1 ++ [0x42, 0xFF, c.flags] ++ natLe addr 8 ++ natLe c.done 4 ++
      natLe c.crc 4 := by
  have hcause : natLe 0x42 1 = [0x42] := rfl
  have hsid : natLe 0xFF 1 = [0xFF] := rfl
  unfold Cmd.record
  rw [hcause, hsid]
  simp only [List.append_assoc, List.cons_append, List.nil_append]
  rfl

/-- Settles O54: each word by the equation of its effect, FDACT by the action and by whom the record is about. -/
theorem privilegedWordsAndFaultQueue : Obligations.PrivilegedWordsAndFaultQueue := by
  intro d r i a s hsys hs regs
  refine ⟨psrd_reads hsys d, ?_, fun k x hk hx => ?_, fun k x hk hx => ?_, ⟨exec_tlbiPage_space hsys, fun h => ?_,
    fun p hp hrid => ?_⟩, ?_, ?_, fun x y hx hm hfirst => faultRecordWrite_queue hx hm hfirst,
    fun x hx => ⟨exec_handlerLaunch_idle hx, fun k hne hh hb hk => handlerLaunch_launches hx hne hh hb hk,
      fun e hne hh hb he => handlerLaunch_barred hx hne hh hb he⟩⟩
  · obtain ⟨t, ht, hi, hr, h6, hn6⟩ := pswr_writes hsys r i
    exact ⟨t, ht, hi, hr.and, h6, hn6⟩
  · obtain ⟨t, ht, hi, hr, hd⟩ := pswrFqhead_moves hsys r hk hx
    exact ⟨t, ht, hi, hr.and, hd⟩
  · intro fd
    suffices hfd : ∀ j, WritesFdact j r → fd j from ⟨hfd _ fun _ => rfl, hfd _ fun _ => rfl, hfd _ fun _ => rfl⟩
    intro j hj
    unfold fd
    intro w stat
    have hrefused {n : Nat} (hf : s.fdact w = (s, n)) : stat n regs := (fdStat_refused hj hsys hf).imp fun _ h => h.and
    refine ⟨fun h => hrefused (fdact_stale hk hx h), fun y hy => ⟨fun hw => hrefused (fdact_reserved hk hx hy hw),
      fun hw hn => hrefused ((fdact_restart hk hx hy hw).trans (if_neg (by simp [hn]))),
      fun hw hn => hrefused ((fdact_respill hk hx hy hw).trans (if_neg ?_)), ?_, ?_, ?_⟩⟩
    · simp only [Bool.and_eq_true, decide_eq_true_iff]
      rintro ⟨⟨hspill, harg⟩, -⟩
      exact hn.elim (fun h => absurd hspill (by simp [h])) (· harg)
    · intro u h f hyu hyc hu hh hp hf closed other resumed
      refine ⟨fun hw hr => ?_, fun hw hspill harg hn => ?_, fun hw hn => ?_, fun hw => ?_⟩
      · exact (fdRestart_held hj hsys hk hx hy hyu hu hh hyc hp hf hw hr).imp fun v ⟨hc, h', hfind, hgo⟩ =>
          ⟨hc, h', hfind, hgo.regs, hgo.spillSz, hgo.stays, hgo.goes⟩
      · obtain ⟨va, hva, hst⟩ := fdRespill_held hj hsys hk hx hy hyu hu hh hp hf hw hspill harg hn
        exact hst.imp fun v ⟨hc, h', hfind, hgo⟩ =>
          ⟨⟨hc, h', hfind, hgo.regs, hgo.spillSz, hgo.stays, hgo.goes⟩, h', va, hfind, hva, hgo.spillExt⟩
      · exact (fdRespill_refused hj hsys hk hx hy hyu hh hw hn).imp fun _ h => h.and
      · exact (fdEnd_held hj hsys hk hx hy hyu hu hh hyc hp hw).imp fun v ⟨hc, hfind⟩ =>
          ⟨hc, h.finish, hfind, rfl, rfl, rfl, rfl⟩
    · intro u h f hyu hyc hu hh hp hf hq other out
      refine ⟨fun hw hr hn => ?_, fun hw => ?_⟩
      · obtain ⟨-, hfault, hpc, hregs, -⟩ := restart_held (h := { h with phase := .held }) rfl hf
        exact (fdRestart_swapped hj hsys hk hx hy hyu hu hh hyc hp hq hf hw hr hn).imp fun v ⟨hhearths, hfind⟩ =>
          ⟨hhearths, _, hfind, rfl, hpc, hfault, hregs⟩
      · exact (fdEnd_swapped hj hsys hk hx hy hyu hu hh hyc hp hq hw).imp fun v ⟨hhearths, hfind⟩ =>
          ⟨hhearths, _, hfind, rfl, rfl⟩
    · intro id c hyu hyc hc closed rest u st
      refine ⟨fun hw hr => ?_, fun hw hq h0 => fdEnd_cmd_silent hj hsys hk hx hy hyu hyc hc hw hq h0,
        fun p hw hq h0 hp hpl => ?_, fun n hw hq hb hb0 hn h0 hwf =>
          fdEnd_cmd_counter hj hsys hk hx hy hyu hyc hc hw hq hb hb0 hn h0 hwf⟩
      · exact (fdRestart_cmd hj hsys hk hx hy hyu hyc hc hw hr).imp fun v ⟨hrest, hmem, q, hq, hkind⟩ =>
          ⟨hrest, hmem, c.again q, hq, rfl, hkind⟩
      · refine (fdEnd_cmd_record hj hsys hk hx hy hyu hyc hc hw hq h0 hs hp hpl).imp fun v ⟨hgone, hbytes⟩ => ⟨hgone, ?_⟩
        exact hbytes.trans (record_abandoned c ..)
  · obtain ⟨t, ht, hi, hr, htlb⟩ := exec_tlbiPage hsys h
    exact ⟨t, ht, hi, hr.and, htlb⟩
  · obtain ⟨t, ht, hi, hr, htlb⟩ := exec_tlbiRegion hsys hp hrid
    exact ⟨t, ht, hi, hr.and, htlb⟩
  · obtain ⟨t, ht, hi, hphase, hactive, hcore, hkept, hr⟩ := exec_haltc hsys
    exact ⟨t, ht, hi, hphase, hactive, hcore, hkept, hr.and⟩
  · obtain ⟨t, ht, hout, hkept, hr⟩ := exec_haltRelease (s := s)
    exact ⟨t, ht, hout, hkept, hr.and⟩

end Sys2Proof.Machine
end
